-- ==== Sys2Proof/Word.lean ====
section
/-!
DEFINITION. Word.lean: the byte, the register word, and the plainest arithmetic on them (R8).
-/
namespace Sys2Proof

/-- A byte of memory (R8: all multi-byte structures are little-endian). -/
abbrev Byte := BitVec 8

/-- The number of values of a `w`-bit register. -/
abbrev pow2 (w : Nat) : Nat := 2 ^ w

end Sys2Proof
end

