-- ==== Sys2Proof/Syntax.lean ====
section
/-!
DEFINITION. Syntax.lean: the commands of the block, one constructor for each row of spec/opcode_table.json, and the
types of their operands. The table gives no operand fields, so the operands are the model's: the function that writes
and the instance it names for a host access; the instance and the data that arrive for an event.
-/
namespace Sys2Proof

/-- The kinds of register page of the page map (R43). -/
inductive PageKind where
  | mgt | pwr | sec | ret | hlk | cmd | cmdPart | lan | lanPeer | capCtx | cap | lnp | lnpCtx | clu | arr | fwn
  | atn | atnPool | memPc | mem | memPart | dec | enc | tim | trk | ejt | fio | pmc
  deriving DecidableEq, Repr

/-- The place of a kind in the order in which the model lists pages. -/
def PageKind.ord : PageKind → Nat
  | .mgt => 0 | .pwr => 1 | .sec => 2 | .ret => 3 | .hlk => 4 | .cmd => 5 | .cmdPart => 6 | .lan => 7 | .lanPeer => 8
  | .capCtx => 9 | .cap => 10 | .lnp => 11 | .lnpCtx => 12 | .clu => 13 | .arr => 14 | .fwn => 15 | .atn => 16
  | .atnPool => 17 | .memPc => 18 | .mem => 19 | .memPart => 20 | .dec => 21 | .enc => 22 | .tim => 23 | .trk => 24
  | .ejt => 25 | .fio => 26 | .pmc => 27

/-- One page of the page map: its kind and its instance (R43). -/
structure PageId where
  kind : PageKind
  inst : Nat
  deriving DecidableEq, Repr

/-- PF0 (management) and PF1 to PF8 (partitions P0 to P7). -/
abbrev Fn := Fin 9
/-- Lanes L0 to L23. -/
abbrev Lane := Fin 24
/-- Peer groups PL0 to PL5. -/
abbrev Group := Fin 6
/-- Cameras CAM0 to CAM11. -/
abbrev Cam := Fin 12
/-- Capture and correction contexts CTX0 to CTX63. -/
abbrev Ctx := Fin 64
/-- Partitions P0 to P7. -/
abbrev Part := Fin 8
/-- ATN pools 0 to 7. -/
abbrev Pool := Fin 8
/-- HBM pseudo-channels 0 to 63. -/
abbrev Pc := Fin 64
/-- Encoder ports ENC0 to ENC3. -/
abbrev EncPort := Fin 4
/-- Valve ports VP0 to VP3. -/
abbrev ValvePort := Fin 4
/-- A lane of a peer group. -/
abbrev Quad := Fin 4
/-- Physical clusters 0 to 71. -/
abbrev Clu := Fin 72
/-- Compare unit, capture unit, direct output or submission queue 0 to 15. -/
abbrev Unit16 := Fin 16
/-- PMC counter, completion queue or field input 0 to 31. -/
abbrev Unit32 := Fin 32
/-- MSI-X vector of a function. -/
abbrev Vec := Fin 64
/-- Plan slot of a partition (R414). -/
abbrev PlanSlot := Fin 8

/-- Regular record identifiers 0 to 4,095, or a span's number (R352). -/
abbrev PartId := Fin 4096
/-- Firing banks 0 to 7 (R366). -/
abbrev Bank := Fin 8
/-- Valve ports VP0 to VP3, and 4 for the direct outputs. -/
abbrev ValvePath := Fin 5
/-- A valve of a path. -/
abbrev ValveNo := Fin 128
/-- Attention engines 0 to 7. -/
abbrev Engine := Fin 8
/-- Host link rates, as HLK_LINK_CFG.max_rate numbers them. -/
abbrev LinkRate := Fin 5
/-- Modules of the host link in use (R405). -/
abbrev Modules := Fin 3
/-- Channel types of the fault classifier (R501). -/
abbrev ChannelType := Fin 6
/-- Sections of the array (R177). -/
abbrev Sect := Fin 8

/-- A write to the block of a partition on the CMD page (R410, R434): the register and its value. -/
inductive PartReg where
  | cfg (v : BitVec 32)
  | clusters (v : BitVec 64)
  | deadline (v : BitVec 32)
  deriving DecidableEq, Repr

/-- Power states of one direction of a lane (R76). -/
inductive Power where
  | active | standby | sleep
  deriving DecidableEq, Repr

/-- Kinds of packet in the receive mailbox (R69). -/
inductive MbxKind where
  | control | event | heartbeat
  deriving DecidableEq, Repr

/-- A peer frame without its trailer (R86). -/
structure PeerFrame where
  /-- Byte 0. -/
  typ : Nat
  /-- Byte 1 [0]. -/
  first : Bool
  /-- Byte 1 [1]. -/
  last : Bool
  /-- Bytes 2 and 3. -/
  seq : Nat
  /-- Bytes 4 and 5: payload bytes before padding. -/
  length : Nat
  /-- Bytes 6 and 7. -/
  ackSeq : Nat
  /-- Bytes 8 to 15. -/
  tag : Nat
  /-- The payload before padding. -/
  payload : List Byte
  deriving DecidableEq, Repr

/-- Which unit consumed an uncorrectable HBM word (R313). -/
inductive Consumer where
  /-- A tile of the job on a partition's clusters, on the array, Fawn, ATN or DEC. -/
  | job (part : Part)
  /-- LNP, for a stripe of a context. -/
  | lnp (ctx : Ctx)
  /-- CMD, at the load of a plan. -/
  | plan (part : Part) (slot : PlanSlot)
  /-- CAP, for the oldest queued slot of a MEMORY context. -/
  | replay (ctx : Ctx)
  /-- A HOME pool. -/
  | home
  /-- A BAR2 read of a function. -/
  | host (fn : Fn)
  /-- The scrubber. -/
  | scrubber
  deriving DecidableEq, Repr

/-- Which SRAM an error was found in (R188, R286). -/
inductive SramSite where
  | cluster (k : Clu)
  | fawn
  /-- Table SRAM: an entry of a table. -/
  | table (id : PartId) (entry : Fin 256)
  deriving DecidableEq, Repr

/-- The commands: one constructor for each row of spec/opcode_table.json, in the table's order. -/
inductive Instr where
  /-- REGISTER_WRITE (R10): A host write to a register that has no row of its own takes effect according to its access code. -/
  | registerWrite (fn : Fn) (off : Nat) (size : Nat) (value : BitVec 64)
  /-- LOW_WORD_READ (R9): A read of the low word of a 64-bit register latches its high word for the next read. -/
  | lowWordRead (fn : Fn) (off : Nat)
  /-- BAR2_WRITE (R42): A host write through BAR2 is applied byte by byte to the function's memory window, with bytes outside discarded. -/
  | bar2Write (fn : Fn) (off : Nat) (data : List Byte)
  /-- BAR2_READ (R42): A host read through BAR2 returns memory data, zero outside the window, and all ones for uncorrectable words. -/
  | bar2Read (fn : Fn) (off : Nat) (len : Nat)
  /-- EVT_FORCE (R46): A write to EVT_FORCE sets event bits as if hardware had, with ERR_INFO capturing them as forced. -/
  | evtForce (fn : Fn) (page : PageId) (mask : BitVec 32)
  /-- SOFT_RESET (R48): A write of CTRL.soft_reset restores the instance's block registers, clears events and increments GEN. -/
  | softReset (fn : Fn) (page : PageId)
  /-- QUIESCE (R47): A write of CTRL.quiesce makes the block finish work at its natural boundary and accept none new. -/
  | quiesce (fn : Fn) (page : PageId)
  /-- ENABLE_CLEAR (R47): A write clearing CTRL.enable stops an instance, completing work in progress as for quiesce. -/
  | enableClear (fn : Fn) (page : PageId)
  /-- LANE_ENABLE (R93): Setting CTRL.enable on a lane page lets the lane leave mode OFF and SLEEP. -/
  | laneEnable (fn : Fn) (lane : Lane)
  /-- CAP_CONTEXT_ENABLE (R97): Enabling a CAP context checks its source and ring, sets the trigger high-water mark and starts stripe numbering. -/
  | capContextEnable (fn : Fn) (ctx : Ctx)
  /-- LNP_CONTEXT_ENABLE (R133): Enabling an LNP context checks ownership, tables and line-buffer slots before stripes are corrected. -/
  | lnpContextEnable (fn : Fn) (ctx : Ctx)
  /-- ATN_POOL_ENABLE (R261): Enabling an ATN pool checks its configuration, copies the frequency table and frees every local page. -/
  | atnPoolEnable (fn : Fn) (pool : Pool)
  /-- MEM_REGION_ENABLE (R292): Enabling a MEM partition page checks the region's base, mask, slice and reservation and maps it. -/
  | memRegionEnable (fn : Fn) (part : Part)
  /-- ENC_PORT_ENABLE (R326): Enabling an encoder port checks its settings and loads the preset into the raw and reported counts. -/
  | encPortEnable (fn : Fn) (port : EncPort)
  /-- EJT_ENABLE (R375): Enabling EJT starts the bank firings and the valve-port frame grid, refused when no bank is enabled. -/
  | ejtEnable (fn : Fn)
  /-- FIO_ENABLE (R392): Enabling FIO starts input sampling and readback with counters and filtered states cleared. -/
  | fioEnable (fn : Fn)
  /-- COMMIT_GO (R50): A write of COMMIT.go captures every shadow register of the page for activation at the selected boundary. -/
  | commitGo (fn : Fn) (page : PageId) (boundary : BitVec 3) (cmp : Unit16) (hold : Bool)
  /-- COMMIT_APPLY (R51): At the selected boundary after release, the captured values become active and GEN increments. -/
  | commitApply (page : PageId)
  /-- MGT_COMMIT_RELEASE (R52): A write to MGT_COMMIT_RELEASE releases every held commit on the device. -/
  | mgtCommitRelease (fn : Fn)
  /-- CMD_COMMIT_RELEASE (R52): A write to CMD_COMMIT_RELEASE releases the held commits and held plan loads of the partition. -/
  | cmdCommitRelease (fn : Fn) (part : Part)
  /-- OWNER_WRITE (R54): PF0 writes OWNER of an assignable, idle, disabled page to give it to a partition. -/
  | ownerWrite (fn : Fn) (page : PageId) (part : Part) (valid : Bool)
  /-- LOCK_STICKY (R55): Setting LOCK.sticky blocks writes from PF0 as well until the next start. -/
  | lockSticky (fn : Fn) (page : PageId)
  /-- MSIX_UNMASK (R59): Unmasking an MSI-X vector sends the pending message if the vector's event OR is still 1. -/
  | msixUnmask (fn : Fn) (vec : Vec)
  /-- ERROR_WINDOW_END (R567): A 1 ms error-count window of 400,000 IOCLK ticks ends and the next begins. -/
  | errorWindowEnd
  /-- STREAM_PACKET (R66): A camera stream packet's last character arrives and the lane passes or discards it after its CRC and lock check. -/
  | streamPacket (lane : Lane) (crcOk : Bool) (violation : Bool) (broke : Bool)
  /-- CONTROL_PACKET_RECEIVED (R69): A control acknowledgement, event or heartbeat packet on the master lane is stored in the receive mailbox ring. -/
  | controlPacketReceived (lane : Lane) (kind : MbxKind) (payload : List Byte)
  /-- MAILBOX_SEND (R68): Setting LAN_MBX_CTRL.send sends the control packet in the transmit buffer on the uplink. -/
  | mailboxSend (fn : Fn) (lane : Lane)
  /-- MBX_TX_DONE (R68): The last character of a mailbox packet has been sent; send clears and MBX_TX_DONE is raised. -/
  | mbxTxDone (lane : Lane)
  /-- CXP_DISCOVERY_STEP (R72): After 1 ms at a speed without comma alignment, an AUTO receiver moves to the next CoaXPress speed. -/
  | cxpDiscoveryStep (lane : Lane)
  /-- LANE_POWER_WRITE (R76): A write of LAN_PWR changes a lane direction's power state or starts a wake. -/
  | lanePowerWrite (fn : Fn) (lane : Lane) (rx : Power) (tx : Power)
  /-- LOCK_GAINED (R76): A receiver achieves comma, block or word lock after calibrating its equaliser. -/
  | lockGained (lane : Lane)
  /-- LOCK_TIMEOUT (R76): A receiver has not locked 40 us after its wake began. -/
  | lockTimeout (lane : Lane)
  /-- LOCK_LOST (R78): An active receiver loses lock, counts an upset and relocks on its own. -/
  | lockLost (lane : Lane)
  /-- CODE_ERROR (R78): A lane receives a code or disparity error and counts it in the present window. -/
  | codeError (lane : Lane)
  /-- POL_FLIP (R73): The receiver detects inverted polarity and corrects it, raising POL_FLIP if the lane is in use. -/
  | polFlip (lane : Lane)
  /-- LANE_SLIP (R74): A write to LAN_SLIP moves the word boundary one bit later. -/
  | laneSlip (fn : Fn) (lane : Lane)
  /-- TRAIN_MATCH (R74): A RAW word equals the training word or its complement and TRAIN_MATCH is raised. -/
  | trainMatch (lane : Lane) (word : Nat)
  /-- PEER_GROUP_ENABLE (R80): Setting LAN_PEER_CTRL.enable puts the group's four lanes in PEER mode and starts training. -/
  | peerGroupEnable (fn : Fn) (grp : Group)
  /-- PEER_TRAIN (R82): A write of LAN_PEER_CTRL.train moves a DOWN or FAIL group to LOCK. -/
  | peerTrain (fn : Fn) (grp : Group)
  /-- PEER_BLOCK_LOCK (R82): All four lanes see 64 consecutive valid training blocks and the group moves to ALIGN. -/
  | peerBlockLock (grp : Group)
  /-- PEER_LOCK_TIMEOUT (R82): A group has stayed 10 ms in LOCK without block lock and goes to FAIL. -/
  | peerLockTimeout (grp : Group)
  /-- PEER_MARKERS_FOUND (R83): Alignment markers are found and the group moves to HELLO or fails on lane order or skew. -/
  | peerMarkersFound (grp : Group) (order : List Nat) (skewPs : Nat)
  /-- HELLO_SEND (R85): Every 10 us in HELLO, the group sends a HELLO frame. -/
  | helloSend (grp : Group)
  /-- HELLO_FRAME (R85): A HELLO frame arrives and the group goes UP on agreement or FAIL on disagreement. -/
  | helloFrame (grp : Group) (frame : PeerFrame) (crc : Nat)
  /-- HELLO_TIMEOUT (R82): A group has received no HELLO for 1 ms and goes to FAIL. -/
  | helloTimeout (grp : Group)
  /-- PEER_LANE_LOCK_LOST (R82): A lane of an UP group loses lock and the group goes DOWN, discarding credits and buffers. -/
  | peerLaneLockLost (grp : Group) (lane : Quad)
  /-- PEER_RETRAIN_DELAY (R82): 1 ms after going DOWN from UP, the group starts LOCK again. -/
  | peerRetrainDelay (grp : Group)
  /-- PEER_STRIPE_FRAME (R122): A STRIPE frame is accepted and stored in the ring of the matching PEER context. -/
  | peerStripeFrame (grp : Group) (frame : PeerFrame) (crc : Nat)
  /-- PEER_VERDICT_FRAME (R365): A VERDICT frame from an accepted group is applied by TRK as a verdict with PEER set. -/
  | peerVerdictFrame (grp : Group) (frame : PeerFrame) (crc : Nat)
  /-- KVPAGE_FRAME (R285): A KVPAGE frame is stored by a HOME pool or fills a REMOTE pool's pending read. -/
  | kvpageFrame (grp : Group) (frame : PeerFrame) (crc : Nat)
  /-- KVREQ_FRAME (R285): A KVREQ frame is answered by a HOME pool with a KVPAGE of the stored image. -/
  | kvreqFrame (grp : Group) (frame : PeerFrame) (crc : Nat)
  /-- ACK_FRAME (R89): An ACK frame frees acknowledged frames from the replay buffer. -/
  | ackFrame (grp : Group) (frame : PeerFrame) (crc : Nat)
  /-- NAK_FRAME (R89): A NAK frame makes the sender resend every unacknowledged frame and raise REPLAY. -/
  | nakFrame (grp : Group) (frame : PeerFrame) (crc : Nat)
  /-- CREDIT_FRAME (R88): A CREDIT frame updates the sender's freed counts and thus its credits. -/
  | creditFrame (grp : Group) (frame : PeerFrame) (crc : Nat)
  /-- CREDIT_SEND (R88): At least every 10 us while UP, the receiver sends a CREDIT frame. -/
  | creditSend (grp : Group)
  /-- ACK_TIMER (R89): 2 us after an unacknowledged frame, the receiver sends an ACK. -/
  | ackTimer (grp : Group)
  /-- REPLAY_TIMEOUT (R89): The ACK has not advanced within replay_us and the sender resends every unacknowledged frame. -/
  | replayTimeout (grp : Group)
  /-- LINE_ARRIVAL (R103): A line's first stream packet reaches CAP and is paired with the oldest open trigger window. -/
  | lineArrival (cam : Cam) (frameStart : Bool) (startOk : Bool)
  /-- PAIRING_WINDOW_EXPIRY (R103): A trigger's pairing window closes without a line and its slot is left empty. -/
  | pairingWindowExpiry (cam : Cam)
  /-- LINE_COMPLETE (R109): The last byte of a line arrives in CAP. -/
  | lineComplete (cam : Cam) (samples : List Nat)
  /-- GROUP_ALIGN_TIMEOUT (R114): A group's close time C arrives; still-open members are missing and the fused stripe closes. -/
  | groupAlignTimeout (ctx : Ctx)
  /-- RING_WRITE_DONE (R122): CAP completes a stripe's ring slot write, header last. -/
  | ringWriteDone (ctx : Ctx)
  /-- SETTLE_FORCE (R117): A write of CAP_SETTLE.force arms settling for a camera. -/
  | settleForce (fn : Fn) (cam : Cam)
  /-- REPLAY_PUSH (R123): A write of CAP_RP_PUSH queues a slot address for a MEMORY context. -/
  | replayPush (fn : Fn) (ctx : Ctx)
  /-- REPLAY_SLOT_READ (R123): CAP finishes reading a queued slot and passes it to LNP or skips it with RP_BAD. -/
  | replaySlotRead (ctx : Ctx)
  /-- LNP_NOTICE (R129): A stripe notice reaches LNP and takes a credit if one is free. -/
  | lnpNotice (ctx : Ctx)
  /-- CREDIT_RETURN (R24): The array returns a line-buffer credit and LNP assigns it to the oldest waiting stripe. -/
  | creditReturn (ctx : Ctx)
  /-- HOLD_LIMIT_EXPIRY (R134): A stripe's hold limit passes without a credit, so it spills. -/
  | holdLimitExpiry (ctx : Ctx)
  /-- LNP_STRIPE_BEGIN (R130): The pipeline takes the next eligible stripe by class and arrival and begins correcting it. -/
  | lnpStripeBegin
  /-- TABLE_BLOCK_ARRIVED (R152): A context's correction table block arrives and a stripe waiting for it can begin. -/
  | tableBlockArrived (ctx : Ctx)
  /-- LNP_STRIPE_DONE (R136): The last corrected row and slot header reach the line buffer and statistics are written. -/
  | lnpStripeDone
  /-- UNCORRECTABLE_READ (R313): A consumer reads an uncorrectable HBM word, UE is raised and the consumer acts by kind. -/
  | uncorrectableRead (pc : Pc) (word : Nat) (consumer : Consumer)
  /-- CORRECTABLE_READ (R312): A read finds a correctable HBM error, delivers the corrected word and queues a write-back. -/
  | correctableRead (pc : Pc) (line : Nat)
  /-- ECC_WRITEBACK (R312): A queued write-back of a corrected line reaches the pseudo-channel unless a write replaced it. -/
  | eccWriteback (pc : Pc)
  /-- JOB_SCHEDULE (R417): The scheduler gives a READY job its partition's clusters and it starts a step or slice. -/
  | jobSchedule (part : Part)
  /-- TILE_ASSIGN (R197): The command processor assigns the next tile of the step's descriptors to a free tile thread. -/
  | tileAssign (part : Part)
  /-- MEMORY_READ_RETURN (R165): A tile's outstanding HBM reads return and it moves from WAIT_MEM to READY. -/
  | memoryReadReturn (part : Part) (seq : Nat)
  /-- TILE_COMPLETE (R165): A tile's last operation completes, its results are written and its thread becomes FREE. -/
  | tileComplete (part : Part) (seq : Nat)
  /-- FAWN_PASS_READY (R181): A Fawn pass becomes ready and Fawn switches to it, suspending any BE pass. -/
  | fawnPassReady (part : Part)
  /-- FAWN_PASS_DONE (R181): A Fawn pass ends and Fawn takes the next ready pass. -/
  | fawnPassDone
  /-- SRAM_CORRECTED (R188): A corrected SRAM error is fixed in the read data and counted. -/
  | sramCorrected (site : SramSite) (addr : Nat)
  /-- SRAM_UE (R188): An uncorrectable SRAM error aborts the consuming job and counts an upset. -/
  | sramUe (site : SramSite) (addr : Nat)
  /-- PART_OPEN (R357): An OPEN part list entry opens a record and ATN creates its page table. -/
  | partOpen
  /-- PART_OPEN_CLOSE (R356): An OPEN_CLOSE entry opens a record directly in CLOSED. -/
  | partOpenClose
  /-- PART_CONT (R357): A CONT entry replaces a record's extent and pixel count. -/
  | partCont
  /-- PART_CLOSE (R357): A CLOSE entry updates a record's extent and clears IN_VIEW. -/
  | partClose
  /-- PART_MERGED (R358): A MERGED entry joins an absorbed record into its survivor and takes the absorbed one to DONE. -/
  | partMerged
  /-- PART_SPAN (R362): A SPAN or overflow entry extends or opens an overflow-span record. -/
  | partSpan
  /-- VERDICT_ARM (R363): An ARM verdict sets the class in force unless the record holds FINAL. -/
  | verdictArm
  /-- VERDICT_FINAL (R363): A FINAL verdict sets the class in force and reservations follow it. -/
  | verdictFinal
  /-- RECORD_COMMIT (R370): The belt position reaches a record's commit point; its class is fixed and firings are queued. -/
  | recordCommit (span : Bool) (id : PartId)
  /-- DEADLINE_POINT (R429): The belt reaches a record's deadline point and CMD checks for a FINAL verdict. -/
  | deadlinePoint (id : PartId)
  /-- FIRING_ON (R377): The belt reaches a firing's on point and Hoof commands its valves on. -/
  | firingOn (span : Bool) (id : PartId) (bank : Bank)
  /-- FIRING_OFF (R377): The belt reaches a firing's off point and Hoof commands its valves off. -/
  | firingOff (span : Bool) (id : PartId) (bank : Bank)
  /-- TABLE_FREED (R266): A releasing table's last reader completes; its pages return and the record becomes FREE. -/
  | tableFreed (id : PartId)
  /-- MIN_TIME_HOLD_END (R378): A valve's minimum on or off time ends and its held command is issued. -/
  | minTimeHoldEnd (path : ValvePath) (valve : ValveNo)
  /-- MAX_ON_EXPIRY (R379): A valve has been on for EJT_BANK_MAXON and is commanded off, raising MAX_ON. -/
  | maxOnExpiry (path : ValvePath) (valve : ValveNo)
  /-- VP_FRAME_BOUNDARY (R381): At each 3.6 us boundary Hoof latches the previous frame and samples valve states for the next. -/
  | vpFrameBoundary (ret0 : BitVec 128) (ret1 : BitVec 128) (ret2 : BitVec 128) (ret3 : BitVec 128)
  /-- KV_APPEND_ISSUE (R267): ATN takes a KV_APPEND descriptor and stores each box's tokens in its part's pages. -/
  | kvAppendIssue (part : Part)
  /-- ATTN_ISSUE (R271): ATN takes an ATTN descriptor and forms its work units. -/
  | attnIssue (part : Part)
  /-- ATN_WORK_UNIT_DONE (R280): An attention engine finishes a work unit and takes the next. -/
  | atnWorkUnitDone (engine : Engine)
  /-- PEER_READ_TIMEOUT (R284): A KVREQ has no reply within ATN_PEER_TMO and the page is missing. -/
  | peerReadTimeout
  /-- PLAN_LOAD_GO (R187): A write of CMD_PLAN_LOAD.go starts checking a plan image, replacing any waiting load. -/
  | planLoadGo (fn : Fn) (part : Part) (slot : PlanSlot) (hold : Bool)
  /-- PLAN_CHECK_DONE (R184): A plan image's checks finish and the load is refused or made pending. -/
  | planCheckDone (part : Part) (slot : PlanSlot)
  /-- PLAN_SWITCH (R186): At a partition step boundary a pending plan becomes active and every context takes a window reset. -/
  | planSwitch (part : Part) (slot : PlanSlot)
  /-- PLAN_UNLOAD (R415): A write of CMD_PLAN_LOAD.unload empties the slot once its STREAM job ends. -/
  | planUnload (fn : Fn) (part : Part) (slot : PlanSlot)
  /-- PARTITION_CONFIG_WRITE (R411): A write of a partition's CMD global block defines or changes a partition under its checks. -/
  | partitionConfigWrite (fn : Fn) (part : Part) (reg : PartReg)
  /-- SQ_DOORBELL (R418): A write of CMD_SQ_TAIL submits entries, or disables the queue on overrun. -/
  | sqDoorbell (fn : Fn) (part : Part) (sq : Unit16) (tail : BitVec 32)
  /-- SQ_RUN (R420): A RUN entry starts a BATCH job of a slot in a new job context. -/
  | sqRun (part : Part) (sq : Unit16) (entry : BitVec 512)
  /-- SQ_STOP (R420): A STOP entry ends or aborts the named job. -/
  | sqStop (part : Part) (sq : Unit16) (entry : BitVec 512)
  /-- SQ_FENCE (R420): A FENCE entry completes when every earlier entry of its SQ has completed. -/
  | sqFence (part : Part) (sq : Unit16) (entry : BitVec 512)
  /-- CQ_HEAD_WRITE (R418): A write of CMD_CQ_HEAD frees CQ entries for waiting completions. -/
  | cqHeadWrite (fn : Fn) (part : Part) (cq : Unit32) (head : BitVec 32)
  /-- CQ_COALESCE_TIMER (R423): coal_us passes after the first unsignalled completion and the CQ's message is sent. -/
  | cqCoalesceTimer (part : Part) (cq : Unit32)
  /-- SLICE_END (R425): A BE job's slice ends and it is preempted at tile boundaries. -/
  | sliceEnd (part : Part)
  /-- JOB_SWITCH_DONE (R427): The save and restore of a BE job switch complete and the incoming job resumes. -/
  | jobSwitchDone (part : Part)
  /-- NONPREEMPT_WATCHDOG (R428): A non-preemptible descriptor runs 200 us and its job is aborted with ABORTED_WDOG. -/
  | nonpreemptWatchdog (part : Part)
  /-- BW_WINDOW_START (R297): A 1 us regulator window starts and each partition's tokens are refilled. -/
  | bwWindowStart
  /-- REFRESH (R316): A pseudo-channel's refresh occurrence runs, every 15.6 us. -/
  | refresh (pc : Pc)
  /-- SCRUB_READ (R317): Every gap_us the scrubber reads the next line of each pseudo-channel. -/
  | scrubRead
  /-- ENCODER_EDGE (R327): An incremental port accepts an A or B level change and counts one raw count. -/
  | encoderEdge (port : EncPort) (a : Bool) (b : Bool)
  /-- INDEX_EDGE (R334): An accepted Z rising edge latches positions and time and raises INDEX. -/
  | indexEdge (port : EncPort) (high : Bool)
  /-- ABS_FRAME_COMPLETE (R329): An absolute frame completes on its last sample and its word updates the raw count if good. -/
  | absFrameComplete (port : EncPort) (samples : List Bool)
  /-- SINCOS_SAMPLE (R331): A sine and cosine conversion completes and its angle updates the raw count if in the window. -/
  | sincosSample (port : EncPort) (sn : BitVec 14) (cs : BitVec 14)
  /-- SPEED_WINDOW_END (R335): A speed window ends; the port's speed registers and EJT's speed update. -/
  | speedWindowEnd (port : EncPort)
  /-- ENC_SEL_WRITE (R339): A write of ENC_SEL names the belt and backup ports and restores the belt port. -/
  | encSelWrite (fn : Fn) (belt : EncPort) (backup : EncPort) (backupEn : Bool)
  /-- TIME_SET_IMMEDIATE (R342): TIM_SET.go with at = IMMEDIATE loads the device time at the next TCLK tick. -/
  | timeSetImmediate (fn : Fn)
  /-- TIME_SET_AT_PPS (R342): TIM_SET.go with at = PPS arms a time load at the next PPS_IN rising edge. -/
  | timeSetAtPps (fn : Fn)
  /-- TIME_SET_CANCEL (R342): A write of TIM_SET.cancel abandons a waiting PPS set. -/
  | timeSetCancel (fn : Fn)
  /-- TIME_ADJUST (R342): A write of TIM_ADJ adds signed nanoseconds to the device time. -/
  | timeAdjust (fn : Fn) (value : BitVec 32)
  /-- PPS_EDGE (R342): A PPS_IN edge applies a waiting set and feeds capture units. -/
  | ppsEdge (rising : Bool)
  /-- SECONDS_ROLLOVER (R348): The nanoseconds field carries into the seconds and ROLLOVER is set. -/
  | secondsRollover
  /-- COMPARE_ARM (R346): Arming a compare unit loads its target from its registers. -/
  | compareArm (fn : Fn) (unit : Unit16)
  /-- COMPARE_MATCH (R345): A compare unit reaches its target and serves its consumers. -/
  | compareMatch (unit : Unit16)
  /-- REF_LOST (R343): REFCLK_TIME shows no edge for 1 us and TCLK holds its frequency. -/
  | refLost
  /-- REF_RETURN (R343): REFCLK_TIME returns and TCLK follows it again within 1 ms. -/
  | refReturn
  /-- FIELD_INPUT_SAMPLE (R393): On the sampling grid, every field input band is sampled and its counters updated. -/
  | fieldInputSample (on : BitVec 32) (broken : BitVec 32) (readback : BitVec 16)
  /-- OUTPUT_SET_WRITE (R396): A write of FIO_OUT_SET changes software-commanded FO pins. -/
  | outputSetWrite (fn : Fn) (value : BitVec 32)
  /-- WATCHDOG_ENABLE (R399): Setting FIO_WDOG.enable starts the safe-state watchdog until the next start. -/
  | watchdogEnable (fn : Fn)
  /-- WATCHDOG_KICK (R399): A write to FIO_WDOG_KICK restarts the period, or expires the watchdog if the value is wrong. -/
  | watchdogKick (fn : Fn) (value : BitVec 32)
  /-- WATCHDOG_EXPIRY (R399): No valid kick arrives within the period and the outputs are held safe. -/
  | watchdogExpiry
  /-- SAFE_RELEASE (R400): A write of FIO_SAFE.release clears held if its conditions are met. -/
  | safeRelease (fn : Fn)
  /-- LINK_DOWN (R405): The host link goes down and host writes are discarded. -/
  | linkDown
  /-- LINK_UP (R405): The host link trains and comes up. -/
  | linkUp (rate : LinkRate) (modules : Modules) (repaired : Byte)
  /-- LINK_RETRAIN (R405): A write of HLK_LINK_CTRL.retrain makes the host link retrain. -/
  | linkRetrain (fn : Fn)
  /-- POWER_ON (R482): Rails come into range and a cold start follows. -/
  | powerOn
  /-- RESET_N_FALL (R552): A RESET_N falling edge puts HBM into self-refresh. -/
  | resetNFall
  /-- RESET_RECOGNISED (R552): RESET_N has been low 1 us and the dies are reset. -/
  | resetRecognised
  /-- RESET_N_RISE (R484): RESET_N rises and a start begins, or HBM leaves self-refresh if no reset was recognised. -/
  | resetNRise (refsel : Bool)
  /-- RAIL_UNDERVOLTAGE (R561): A rail stays below tolerance for 2 us and the device resets cold. -/
  | railUndervoltage
  /-- MGT_RESET (R483): A write of MGT_RESET.go with the key requests a warm or cold reset. -/
  | mgtReset (fn : Fn) (cold : Bool) (scrub : Bool) (key : BitVec 16)
  /-- MGT_RESET_EXECUTE (R483): After any Velvet write completes, the requested reset takes place. -/
  | mgtResetExecute
  /-- START_COOLANT_WAIT_END (R526): COOLANT_OK rises during a start and the start proceeds. -/
  | startCoolantWaitEnd
  /-- MEMORY_SCRUB_DONE (R318): The start scrub has written every HBM line with zeros. -/
  | memoryScrubDone
  /-- PATCH_GO (R491): A write of SEC_PATCH_CTRL.go closes the window and fetches the patch bundle. -/
  | patchGo (fn : Fn)
  /-- PATCH_NONE (R491): A write of SEC_PATCH_CTRL.none closes the patch window without a bundle. -/
  | patchNone (fn : Fn)
  /-- PATCH_WINDOW_TIMEOUT (R491): The patch window closes 5 s after opening. -/
  | patchWindowTimeout
  /-- PATCH_CHECK_DONE (R492): The bundle is fetched and checked, and accepted or rejected. -/
  | patchCheckDone (bundle : List Byte) (fetched : Bool)
  /-- SETTINGS_RESTORE (R500): Retained settings are restored from Velvet, enables last. -/
  | settingsRestore (ue0 : Bool) (ue1 : Bool)
  /-- START_OK (R489): A write of MGT_START_OK clears the failed-start count if within the window. -/
  | startOk (fn : Fn)
  /-- START_OK_WINDOW_END (R489): The 10 s start OK window closes. -/
  | startOkWindowEnd
  /-- COOLANT_STOP (R524): COOLANT_OK stays low for 400 ticks and the device stops. -/
  | coolantStop
  /-- THERMAL_STOP (R524): A junction sensor reads 115 C or more and the device stops. -/
  | thermalStop
  /-- FAULT_FORCE (R503): A write of MGT_FLT_FORCE.go makes an instance permanent. -/
  | faultForce (fn : Fn) (typ : BitVec 3) (inst : BitVec 7)
  /-- CLASSIFIER_LEAK (R502): A leak window ends and every bucket of the type falls by 1. -/
  | classifierLeak (typ : ChannelType)
  /-- RETIREMENT_RECORDED (R504): A permanent instance is written to the Velvet retirement record. -/
  | retirementRecorded
  /-- RETIRE_CLEAR (R505): A write of RET_RETIRE_CLR.go removes an instance from the retirement record. -/
  | retireClear (fn : Fn) (typ : BitVec 3) (inst : BitVec 7)
  /-- SNAPSHOT (R496): A write of RET_CTRL.snap holds BAR0 writes and captures retained registers. -/
  | snapshot (fn : Fn)
  /-- SNAPSHOT_CAPTURED (R496): Capture ends and the held BAR0 writes are released in order. -/
  | snapshotCaptured
  /-- SNAPSHOT_DONE (R497): The snapshot's Velvet write commits or fails. -/
  | snapshotDone (ok : Bool)
  /-- VELVET_ERASE (R498): A write of RET_CTRL.erase zeroes both snapshot magics. -/
  | velvetErase (fn : Fn)
  /-- ATTEST_GO (R506): A write of SEC_ATT_CTRL.go starts an attestation report. -/
  | attestGo (fn : Fn)
  /-- ATTEST_DONE (R506): SEC writes the signed report to the host, or fails. -/
  | attestDone
  /-- VOLTAGE_WAIT_END (R558): The wait for a raised VID voltage ends; clock rises or frame is resent. -/
  | voltageWaitEnd (reached : Bool)
  /-- RAIL_THROTTLE_ON (R520): A rail estimate reaches PWR_RAIL_LIMIT and its section's Tines throttle. -/
  | railThrottleOn (sect : Sect)
  /-- RAIL_THROTTLE_OFF (R520): A rail estimate falls below 95 % of the limit and throttling lifts. -/
  | railThrottleOff (sect : Sect)
  /-- PMC_FREEZE (R536): A write of PMC_CTRL.freeze stops every PMC and CLU counter. -/
  | pmcFreeze (fn : Fn)
  /-- PMC_UNFREEZE (R536): A write of PMC_CTRL.unfreeze resumes counting. -/
  | pmcUnfreeze (fn : Fn)
  /-- PMC_CLEAR (R537): A write of PMC_CLR clears counters while frozen or disabled. -/
  | pmcClear (fn : Fn) (mask : BitVec 32)
  /-- PMC_WRAP (R535): A counter wraps, setting PMC_OVF and perhaps freezing. -/
  | pmcWrap (counter : Unit32)
  /-- PMC_CROSSING (R534): Sampled occupancy reaches a counter's threshold and sets PMC_XING. -/
  | pmcCrossing (counter : Unit32)
  /-- DEC_FETCH_ISSUE (R449): DEC takes a DEC_FETCH and hands batch slots to free engines. -/
  | decFetchIssue (part : Part)
  /-- DEC_SAMPLE_DECODED (R449): An engine finishes decoding a sample, or skips it. -/
  | decSampleDecoded (engine : Unit32)
  /-- DEC_SAMPLE_DELIVERED (R450): The next slot in order is augmented and written. -/
  | decSampleDelivered
  /-- DEC_COMMIT_ISSUE (R454): DEC_COMMIT writes a fetch's status list and validates its cache slots. -/
  | decCommitIssue (part : Part)
  /-- DEC_CACHE_FLUSH (R456): A write of DEC_CACHE_CTRL.flush invalidates every epoch cache slot. -/
  | decCacheFlush (fn : Fn)
  /-- LANE_WAKE_END (R76): A lane power transition that does not end in a new lock completes within its stated time, and WAKE_DONE is raised: a transmitter wake, or a receiver going from STANDBY to ACTIVE. -/
  | laneWakeEnd (lane : Lane)
  /-- FUSE_LOAD_DONE (R57): Fuse load completes: held reads of fuse fields are released, the 1 ms error windows and leak windows begin, and the start moves to the Velvet check. -/
  | fuseLoadDone
  /-- VELVET_CHECK_DONE (R484): Start step 2 ends: the failed-start and start counts are written, the retirement record is applied, a minimal start is decided, and steps 3 to 5 begin if COOLANT_OK is high. -/
  | velvetCheckDone (coolant : Bool) (dirUe : Bool) (recUe0 : Bool) (recUe1 : Bool)
  /-- HBM_TRAINING_DONE (R484): HBM3 training, start step 5, completes or is skipped with kept values, and step 7 (the scrub) may begin. -/
  | hbmTrainingDone (kept : Bool)
  /-- HOST_READ_FAILED (R435): A fetch of a submission entry from host memory fails; the SQ is stopped with err_code 0x02 = host read failed. -/
  | hostReadFailed (part : Part) (sq : Unit16)
  /-- REFUSED_OPCODE (R421): A fetched submission entry carries an unknown opcode, and CMD writes a REFUSED_OPCODE completion without taking a job context. -/
  | refusedOpcode (part : Part) (sq : Unit16) (entry : BitVec 512)
  deriving DecidableEq, Repr

end Sys2Proof
end

