-- ==== Sys2Proof/Machine/Bits.lean ====
section
/-!
DEFINITION. Machine/Bits.lean: bit fields, two's complement, byte order and the saturating counters that the whole
model uses (R8).
-/
namespace Sys2Proof.Machine

/-- The field `[hi:lo]` of a value (R8). -/
def bits (v hi lo : Nat) : Nat := (v >>> lo) % 2 ^ (hi + 1 - lo)

/-- Bit `n` of a value (R8). -/
def bit (v n : Nat) : Bool := (v >>> n) % 2 == 1

/-- One bit as a number. -/
def b2n (b : Bool) : Nat := if b then 1 else 0

/-- A `w`-bit pattern read as a two's complement number. -/
def sext (w v : Nat) : Int :=
  if (v % 2 ^ w) * 2 < 2 ^ w then (v % 2 ^ w : Nat) else (v % 2 ^ w : Nat) - (2 ^ w : Nat)

/-- A number as a `w`-bit two's complement pattern, wrapping. -/
def toU (w : Nat) (x : Int) : Nat := (x % (2 ^ w : Nat)).toNat

/-- `v` with the field `[lo + w - 1 : lo]` replaced by `x`. -/
def putBits (v lo w x : Nat) : Nat :=
  v % 2 ^ lo + (x % 2 ^ w) * 2 ^ lo + (v >>> (lo + w)) * 2 ^ (lo + w)

/-- `v` with bit `n` set to `b`. -/
def putBit (v n : Nat) (b : Bool) : Nat := putBits v n 1 (b2n b)

/-- The low `n` bytes of a value, lowest address first (R8). -/
def leBytes : Nat → Nat → List Nat
  | 0, _ => []
  | n + 1, v => (v % 256) :: leBytes n (v / 256)

/-- The value of a run of bytes, lowest address first (R8). -/
def ofLe : List Nat → Nat
  | [] => 0
  | b :: bs => b % 256 + 256 * ofLe bs

/-- `a + n`, stopping at `2 ^ w - 1` (the saturating counters of the chapters). -/
def satAdd (w a n : Nat) : Nat := min (a + n) (2 ^ w - 1)

/-- `ceil(a / b)`. -/
def ceilDiv (a b : Nat) : Nat := (a + b - 1) / b

/-- `ceil(log2 n)`, the least `k ≤ 64` with `n ≤ 2 ^ k`. -/
def clog2 (n : Nat) : Nat := ((List.range 65).find? (fun k => n ≤ 2 ^ k)).getD 64

/-- Is the value a power of two? -/
def isPow2 (n : Nat) : Bool := n != 0 && n == 2 ^ Nat.log2 n

/-- The number of one bits among the low `w` bits. -/
def popCount (w v : Nat) : Nat := ((List.range w).filter (bit v)).length

/-- The one bits among the low `w` bits, ascending. -/
def onesOf (w v : Nat) : List Nat := (List.range w).filter (bit v)

/-- The mask with exactly the listed bits. -/
def maskOf (l : List Nat) : Nat := l.foldl (fun m n => m ||| 2 ^ n) 0

/-- Floor division of integers. -/
def fdiv (a b : Int) : Int := Int.fdiv a b

/-- The element of a list at an index, replaced (unchanged past the end). -/
def listSet {α : Type} : List α → Nat → α → List α
  | [], _, _ => []
  | _ :: xs, 0, a => a :: xs
  | x :: xs, n + 1, a => x :: listSet xs n a

/-- The element of a list at an index, changed by a function. -/
def listMod {α : Type} : List α → Nat → (α → α) → List α
  | [], _, _ => []
  | x :: xs, 0, f => f x :: xs
  | x :: xs, n + 1, f => x :: listMod xs n f

end Sys2Proof.Machine
end

