-- ==== Sys2Proof/Machine/Flt.lean ====
section
/-!
DEFINITION. Machine/Flt.lean: the number formats and the binary32 arithmetic of the block (R233 to R239), on bit
patterns held as numbers. A finite value is an exact integer multiple of a power of two; every operation is exact up to
its one rounding, to nearest with ties to even.
-/
namespace Sys2Proof.Machine

/-! ## Rounding -/

/-- `m >> n` rounded to nearest, ties to even; `sticky` says that a nonzero part below `m` was dropped before. -/
def shrRne (m n : Nat) (sticky : Bool) : Nat :=
  if n = 0 then m
  else
    let q := m >>> n
    let r := m % 2 ^ n
    let h := 2 ^ (n - 1)
    if r > h || (r = h && (sticky || q % 2 = 1)) then q + 1 else q

/-- The magnitude code of `m * 2 ^ e` in a binary format with `mb` stored mantissa bits whose smallest subnormal is
`2 ^ qmin`: exponent field above, mantissa below, with no upper limit (R238). -/
def magCode (mb : Nat) (qmin : Int) (m : Nat) (e : Int) (sticky : Bool) : Nat :=
  if m = 0 then 0
  else
    let q := max ((Nat.log2 m : Int) + e - mb) qmin
    let sh := q - e
    let M := if sh ≤ 0 then m <<< (-sh).toNat else shrRne m sh.toNat sticky
    (q - qmin).toNat * 2 ^ mb + M

/-! ## binary32 -/

/-- The canonical NaN (R233). -/
def f32NaN : Nat := 0x7FC00000
/-- +infinity. -/
def f32Inf : Nat := 0x7F800000
/-- 1.0. -/
def f32One : Nat := 0x3F800000

/-- Sign bit. -/
def fNeg (b : Nat) : Bool := bit b 31
/-- Exponent and mantissa without the sign. -/
def fMag (b : Nat) : Nat := b % 2 ^ 31
/-- Is the value a NaN? -/
def fIsNaN (b : Nat) : Bool := fMag b > f32Inf
/-- Is the value an infinity? -/
def fIsInf (b : Nat) : Bool := fMag b == f32Inf
/-- Is the value finite? -/
def fIsFin (b : Nat) : Bool := fMag b < f32Inf
/-- Is the value a zero? -/
def fIsZero (b : Nat) : Bool := fMag b == 0

/-- The magnitude of a finite value in units of 2^-149. -/
def fUnits (b : Nat) : Nat :=
  let e := fMag b / 2 ^ 23
  if e = 0 then fMag b else (fMag b % 2 ^ 23 + 2 ^ 23) * 2 ^ (e - 1)

/-- A finite value in units of 2^-149. -/
def fInt (b : Nat) : Int := if fNeg b then -(fUnits b : Int) else (fUnits b : Int)

/-- A sign put on a magnitude. -/
def fSign (neg : Bool) (mag : Nat) : Nat := if neg then mag + 2 ^ 31 else mag

/-- `± m * 2 ^ e` rounded to binary32, infinity on overflow (R235). -/
def f32Pack (neg : Bool) (m : Nat) (e : Int) (sticky : Bool := false) : Nat :=
  fSign neg (min (magCode 23 (-149) m e sticky) f32Inf)

/-- An exact value `x * 2 ^ e` rounded to binary32; an exact zero is +0. -/
def f32OfScaled (x : Int) (e : Int) : Nat := f32Pack (x < 0) x.natAbs e

/-- The exact conversion of an integer, rounded once. -/
def f32OfInt (x : Int) : Nat := f32OfScaled x 0

/-- A NaN result is canonical (R235). -/
def fCanon (b : Nat) : Nat := if fIsNaN b then f32NaN else b

/-- Negation of a value (a NaN stays canonical). -/
def f32Neg (a : Nat) : Nat := if fIsNaN a then f32NaN else fSign (!fNeg a) (fMag a)

/-- Magnitude of a value. -/
def f32Abs (a : Nat) : Nat := if fIsNaN a then f32NaN else fMag a

/-- Addition (R235). -/
def f32Add (a b : Nat) : Nat :=
  if fIsNaN a || fIsNaN b then f32NaN
  else if fIsInf a then (if fIsInf b && fNeg a != fNeg b then f32NaN else a)
  else if fIsInf b then b
  else if fIsZero a && fIsZero b then (if fNeg a && fNeg b then 2 ^ 31 else 0)
  else f32OfScaled (fInt a + fInt b) (-149)

/-- Subtraction (R235). -/
def f32Sub (a b : Nat) : Nat := if fIsNaN b then f32NaN else f32Add a (f32Neg b)

/-- Multiplication (R235). -/
def f32Mul (a b : Nat) : Nat :=
  let neg := fNeg a != fNeg b
  if fIsNaN a || fIsNaN b then f32NaN
  else if fIsInf a || fIsInf b then (if fIsZero a || fIsZero b then f32NaN else fSign neg f32Inf)
  else f32Pack neg (fUnits a * fUnits b) (-298)

/-- Division (R235), correctly rounded. -/
def f32Div (a b : Nat) : Nat :=
  let neg := fNeg a != fNeg b
  if fIsNaN a || fIsNaN b then f32NaN
  else if fIsInf a then (if fIsInf b then f32NaN else fSign neg f32Inf)
  else if fIsInf b then fSign neg 0
  else if fIsZero b then (if fIsZero a then f32NaN else fSign neg f32Inf)
  else
    let n := fUnits a * 2 ^ 600
    let q := n / fUnits b
    -- two extra low bits keep the dropped remainder visible to the rounding
    f32Pack neg (4 * q + (if n % fUnits b = 0 then 0 else 1)) (-602)

/-- The integer square root, rounded down, by bisection from the top bit. -/
def isqrtAux : Nat → Nat → Nat → Nat
  | 0, _, r => r
  | k + 1, n, r => if (r + 2 ^ k) * (r + 2 ^ k) ≤ n then isqrtAux k n (r + 2 ^ k) else isqrtAux k n r

/-- The integer square root, rounded down. -/
def isqrt (n : Nat) : Nat := isqrtAux (Nat.log2 n / 2 + 1) n 0

/-- Square root (R235), correctly rounded. -/
def f32Sqrt (a : Nat) : Nat :=
  if fIsNaN a then f32NaN
  else if fIsZero a then a
  else if fNeg a then f32NaN
  else if fIsInf a then a
  else
    let n := fUnits a * 2 ^ 301
    let r := isqrt n
    f32Pack false (4 * r + (if r * r = n then 0 else 1)) (-227)

/-- Is `a < b`, both not NaN? -/
def f32Lt (a b : Nat) : Bool :=
  if fIsNaN a || fIsNaN b then false
  else if fIsZero a && fIsZero b then false
  else match fNeg a, fNeg b with
    | false, false => fMag a < fMag b
    | true, true => fMag b < fMag a
    | true, false => true
    | false, true => false

/-- Is `a ≤ b`, both not NaN? -/
def f32Le (a b : Nat) : Bool := !fIsNaN a && !fIsNaN b && !f32Lt b a

/-- Maximum by the MAX rule of R235. -/
def f32Max (a b : Nat) : Nat :=
  if fIsNaN a then fCanon b
  else if fIsNaN b then a
  else if fIsZero a && fIsZero b then (if fNeg a && fNeg b then 2 ^ 31 else 0)
  else if f32Lt a b then b else a

/-- Minimum by the rule of R235. -/
def f32Min (a b : Nat) : Nat :=
  if fIsNaN a then fCanon b
  else if fIsNaN b then a
  else if fIsZero a && fIsZero b then (if fNeg a || fNeg b then 2 ^ 31 else 0)
  else if f32Lt b a then b else a

/-- A finite value rounded to an integer, ties to even. -/
def f32ToInt (a : Nat) : Int :=
  let m : Int := shrRne (fUnits a) 149 false
  if fNeg a then -m else m

/-- The sum of finite or special values formed exactly and rounded once. -/
def f32SumExact (l : List Nat) : Nat :=
  if l.any fIsNaN then f32NaN
  else if l.any fIsInf then
    (if l.any (fun x => fIsInf x && fNeg x) && l.any (fun x => fIsInf x && !fNeg x) then f32NaN
     else fSign (l.any (fun x => fIsInf x && fNeg x)) f32Inf)
  else if !l.isEmpty && l.all (fun x => x == 2 ^ 31) then 2 ^ 31
  else f32OfScaled (l.foldl (fun t x => t + fInt x) 0) (-149)

/-- `n / 2 ^ k` as binary32, exact when it fits. -/
def f32Ratio (n : Int) (k : Nat) : Nat := f32OfScaled n (-(k : Int))

/-! ## Formats (R233) -/

/-- Bytes of one element of a format. -/
def fmtBytes (fmt : Nat) : Nat := if fmt == 6 || fmt == 7 then 4 else if fmt == 4 || fmt == 5 then 2 else 1

/-- Exponent bits, mantissa bits and exponent of the smallest subnormal of the narrow floating formats. -/
def fmtShape (fmt : Nat) : Nat × Nat × Int :=
  if fmt == 2 then (4, 3, -9) else if fmt == 3 then (5, 2, -16) else if fmt == 4 then (8, 7, -133) else (5, 10, -24)

/-- A narrow floating code widened to binary32, exactly (R233). -/
def widenFlt (fmt code : Nat) : Nat :=
  let (eb, mb, qmin) := fmtShape fmt
  let neg := bit code (eb + mb)
  let mag := code % 2 ^ (eb + mb)
  let e := mag / 2 ^ mb
  let m := mag % 2 ^ mb
  if fmt == 2 && mag == 0x7F then f32NaN
  else if fmt != 2 && e == 2 ^ eb - 1 then (if m == 0 then fSign neg f32Inf else f32NaN)
  else if e == 0 then f32Pack neg m qmin
  else f32Pack neg (m + 2 ^ mb) (qmin + (e - 1 : Nat))

/-- The binary32 form of a code before its scale (R237): exact but for INT32. -/
def widen (fmt code : Nat) : Nat :=
  if fmt == 0 then f32OfInt (sext 8 code)
  else if fmt == 1 then f32OfInt (code % 256 : Nat)
  else if fmt == 6 then fCanon (code % 2 ^ 32)
  else if fmt == 7 then f32OfInt (sext 32 code)
  else widenFlt fmt code

/-- Is the format a floating one? -/
def fmtIsFlt (fmt : Nat) : Bool := 2 ≤ fmt && fmt ≤ 6

/-- Dequantisation (R237): `none` stands for scale_mode NONE. -/
def dequant (fmt code : Nat) (scale : Option Nat) : Nat :=
  match scale with
  | none => widen fmt code
  | some s => f32Mul (widen fmt code) s

/-- Least and largest value of an integer format. -/
def fmtBounds (fmt : Nat) : Int × Int :=
  if fmt == 0 then (-128, 127) else if fmt == 1 then (0, 255) else (-(2 ^ 31), 2 ^ 31 - 1)

/-- The largest finite magnitude code of a narrow floating format. -/
def fmtMaxMag (fmt : Nat) : Nat := if fmt == 2 then 0x7E else if fmt == 3 then 0x7B else if fmt == 4 then 0x7F7F else 0x7BFF

/-- The canonical NaN of a narrow floating format. -/
def fmtNaN (fmt : Nat) : Nat := if fmt == 2 then 0x7F else if fmt == 3 then 0x7E else if fmt == 4 then 0x7FC0 else 0x7E00

/-- Conversion of a binary32 value to a format: the code, and whether it counts as a saturation (R238). -/
def convertTo (fmt t : Nat) : Nat × Bool :=
  if fmt == 6 then (fCanon t, fIsNaN t || fIsInf t)
  else if fmt == 0 || fmt == 1 || fmt == 7 then
    let (lo, hi) := fmtBounds fmt
    let w := 8 * fmtBytes fmt
    if fIsNaN t then (0, true)
    else if fIsInf t then (toU w (if fNeg t then lo else hi), true)
    else
      let x := f32ToInt t
      if x < lo then (toU w lo, true) else if hi < x then (toU w hi, true) else (toU w x, false)
  else
    let (eb, mb, qmin) := fmtShape fmt
    let sgn := if fNeg t then 2 ^ (eb + mb) else 0
    if fIsNaN t then (fmtNaN fmt, true)
    else if fIsInf t then (sgn + fmtMaxMag fmt, true)
    else
      let c := magCode mb qmin (fUnits t) (-149) false
      if c > fmtMaxMag fmt then (sgn + fmtMaxMag fmt, true) else (sgn + c, false)

/-- The output converter (R238): division by the output scale, then conversion. -/
def outputConvert (fmt y : Nat) (scale : Option Nat) : Nat × Bool :=
  match scale with
  | none => convertTo fmt y
  | some s => convertTo fmt (f32Div y s)

end Sys2Proof.Machine
end

