-- ==== Sys2Proof/Machine/Crc.lean ====
section
/-!
DEFINITION. Machine/Crc.lean: the check sums of the block: CRC-32C of peer frames (R87) and CRC-64/XZ of digests
(R471), both reflected, with initial value and final XOR of all ones.
-/
namespace Sys2Proof.Machine

/-- One bit of a reflected CRC. -/
def crcBit (poly c : Nat) : Nat := if c % 2 = 1 then (c / 2) ^^^ poly else c / 2

/-- One byte of a reflected CRC. -/
def crcByte (poly c b : Nat) : Nat :=
  crcBit poly (crcBit poly (crcBit poly (crcBit poly (crcBit poly (crcBit poly (crcBit poly (crcBit poly
    (c ^^^ (b % 256)))))))))

/-- A reflected CRC of width `w` over bytes. -/
def crcOf (w poly : Nat) (l : List Nat) : Nat := l.foldl (crcByte poly) (2 ^ w - 1) ^^^ (2 ^ w - 1)

/-- CRC-32C (R87): polynomial 0x1EDC6F41, reflected. -/
def crc32c (l : List Nat) : Nat := crcOf 32 0x82F63B78 l

/-- CRC-64/XZ (R471): polynomial 0x42F0E1EBA9EA3693, reflected. -/
def crc64 (l : List Nat) : Nat := crcOf 64 0xC96C5795D7870F42 l

end Sys2Proof.Machine
end

