-- ==== Sys2Proof/Config.lean ====
section
/-!
DEFINITION. Config.lean: the values that the spec leaves open, as constants without a body: nothing can evaluate them,
so a claim that holds holds whatever they are. Each is applied to the number of values drawn before it (State.draws)
or to the operands it depends on.
-/
namespace Sys2Proof

/-- An equaliser setting that a receiver finds when it calibrates (R75): the spec gives no algorithm. -/
opaque freeEqualiser : Nat → Nat

/-- The nanoseconds at which HLK issues a rollover message (R348): the spec gives no figure for HLK's own delay. -/
opaque freeMessageTime : Nat → Nat

/-- The deviation of TCLK while its reference is lost (R343): only a bound of 20 ppm is given. -/
opaque freeDrift : Nat → Nat

/-- The peak current of a rail group per active cluster, scaled to point 22, that the power controller measures while a
descriptor runs, in microamperes (R518). -/
opaque freeCurrent : Nat → Nat

/-- A byte of a job's save image: its layout is the device's own (R427). -/
opaque freeImage : Nat → Nat

/-- The angle code of a sample whose sine and cosine are both zero (R331): the spec states no angle for it. -/
opaque freeAngle : Nat → Nat

/-- What the status entry of a sample without a readable table entry or header holds where the spec gives no value (R454). -/
opaque freeStatus : Nat → Nat

/-- A signature of SEC's identity key over a report (R507), by the number of the draw: the key and the salt are not given. -/
opaque freeSignature : Nat → Nat

/-- The identity of the unit (R507): 0 its modulus, 1 the signature of its certificate. Both are set at manufacture. -/
opaque freeIdentity : Nat → Nat

/-- The scrub-due flag when the word of Velvet's directory that holds it cannot be read (R488, R493). -/
opaque freeScrubDue : Nat → Nat

end Sys2Proof
end

