-- ==== Sys2Proof/Machine/Pages.lean ====
section
/-!
DEFINITION. Machine/Pages.lean: the page map (R43) and what each kind of page is: its base, instances, block code,
whether it is assignable, whether its enable governs work, its commit boundaries and its interrupt vector.
-/
namespace Sys2Proof

/-! ## The page map (R43) -/

/-- The BAR0 offset of instance 0 of each kind of page (R43). -/
def PageKind.base : PageKind → Nat
  | .mgt => 0x0000000 | .pwr => 0x0010000 | .sec => 0x0020000 | .ret => 0x0030000 | .hlk => 0x0100000
  | .cmd => 0x0110000 | .cmdPart => 0x0120000 | .lan => 0x0200000 | .lanPeer => 0x0220000 | .capCtx => 0x0300000
  | .cap => 0x0340000 | .lnp => 0x0400000 | .lnpCtx => 0x0410000 | .clu => 0x0800000 | .arr => 0x0900000
  | .fwn => 0x0A00000 | .atn => 0x0B00000 | .atnPool => 0x0B01000 | .memPc => 0x0C00000 | .mem => 0x0C40000
  | .memPart => 0x0C50000 | .dec => 0x0D00000 | .enc => 0x0E00000 | .tim => 0x0E80000 | .trk => 0x0F00000
  | .ejt => 0x0F80000 | .fio => 0x1000000 | .pmc => 0x1100000

/-- How many instances each kind of page has (R43). -/
def PageKind.count : PageKind → Nat
  | .cmdPart => 8 | .lan => 24 | .lanPeer => 6 | .capCtx => 64 | .lnpCtx => 64 | .clu => 72 | .atnPool => 8
  | .memPc => 64 | .memPart => 8 | .enc => 4
  | .mgt | .pwr | .sec | .ret | .hlk | .cmd | .cap | .lnp | .arr | .fwn | .atn | .mem | .dec | .tim | .trk | .ejt
  | .fio | .pmc => 1

/-- ID.block of each kind of page (R43). -/
def PageKind.code : PageKind → Nat
  | .mgt => 0x01 | .pwr => 0x02 | .sec => 0x03 | .ret => 0x04 | .hlk => 0x10 | .cmd => 0x11 | .cmdPart => 0x12
  | .lan => 0x20 | .lanPeer => 0x21 | .capCtx => 0x30 | .cap => 0x31 | .lnp => 0x40 | .lnpCtx => 0x41 | .clu => 0x80
  | .arr => 0x81 | .fwn => 0xA0 | .atn => 0xB0 | .atnPool => 0xB1 | .memPc => 0xC0 | .mem => 0xC1 | .memPart => 0xC2
  | .dec => 0xD0 | .enc => 0xE0 | .tim => 0xE8 | .trk => 0xF0 | .ejt => 0xF8 | .fio => 0x60 | .pmc => 0x61

/-- Every kind of page, in the order of the page map. -/
def allKinds : List PageKind :=
  [.mgt, .pwr, .sec, .ret, .hlk, .cmd, .cmdPart, .lan, .lanPeer, .capCtx, .cap, .lnp, .lnpCtx, .clu, .arr, .fwn, .atn,
   .atnPool, .memPc, .mem, .memPart, .dec, .enc, .tim, .trk, .ejt, .fio, .pmc]

/-- Does the page exist (R43)? -/
def PageId.ok (p : PageId) : Bool := p.inst < p.kind.count

/-- The BAR0 offset of a page (R43). -/
def PageId.base (p : PageId) : Nat := p.kind.base + p.inst * 0x1000

/-- Every page of the page map. -/
def allPages : List PageId := allKinds.flatMap (fun k => (List.range k.count).map (fun i => ⟨k, i⟩))

/-- The page that holds a BAR0 offset, if any (R43, R44). -/
def pageAt (off : Nat) : Option PageId :=
  (allKinds.find? (fun k => k.base ≤ off && off < k.base + k.count * 0x1000)).map
    (fun k => ⟨k, (off - k.base) / 0x1000⟩)

/-- May PF0 give the page to a partition through OWNER (R43)? -/
def PageKind.assignable : PageKind → Bool
  | .capCtx | .lnpCtx | .atnPool => true
  | _ => false

/-- The pages whose CTRL.enable governs work (R566). -/
def PageKind.ownEnable : PageKind → Bool
  | .lan | .capCtx | .lnpCtx | .atnPool | .memPart | .enc | .ejt | .fio => true
  | _ => false

/-- The commit boundary codes that each kind of page accepts (R51 and the chapters: R93, R98, R126, R140, R298, R368,
R402); pages without RWS registers accept none. -/
def PageKind.boundaries : PageKind → List Nat
  | .lan => [0]
  | .capCtx => [0, 1, 4]
  | .cap => [0, 4, 5]
  | .lnpCtx => [0, 1, 4, 5]
  | .memPart => [0, 2]
  | .ejt => [0, 3, 4]
  | .fio => [0, 4]
  | _ => []

/-- The vector on which each kind of page signals (R58). -/
def PageKind.vector : PageKind → Nat
  | .hlk => 0 | .cmd | .cmdPart => 1 | .mgt | .pwr | .sec | .ret => 2 | .lan | .lanPeer => 3 | .capCtx | .cap => 4
  | .lnp | .lnpCtx => 5 | .clu | .arr | .fwn => 6 | .atn | .atnPool => 7 | .memPc | .mem | .memPart => 8 | .dec => 9
  | .enc | .tim => 10 | .trk | .ejt => 11 | .fio => 12 | .pmc => 13

/-- The EVT_STATUS bits that the event tables assign on each page (R45 and each chapter's
table of events, R92 to R541), with bit 31, WRITE_CODE (R49); the others are reserved (R12, R529). -/
def PageId.events (p : PageId) : Nat :=
  2 ^ 31 + match p.kind with
  | .lan => 0x1FFF | .lanPeer => 0xFF | .capCtx => 0x3F | .cap => 0x3 | .lnp => 0x1 | .lnpCtx => 0x7F | .clu => 0x1F | .fwn => 0x3
  | .atn => 0x7 | .atnPool => 0x3F | .memPc => 0x1F | .mem => 0x1 | .memPart => 0x3 | .dec => 0xF
  | .enc => if p.inst = 0 then 0x31F else 0x1F
  | .tim => 0x7FFF803F | .trk => 0x7F | .ejt => 0x3F | .fio => 0x3F | .hlk => 0x3F | .cmdPart => 0x3FF | .pmc => 0x7
  | .mgt => 0x7 | .sec => 0xF | .ret => 0xF | .cmd | .arr | .pwr => 0

end Sys2Proof
end

