-- ==== Sys2Proof/Machine/Fld.lean ====
section
/-!
DEFINITION. Machine/Fld.lean: what a register field is (the Bits, Field, Access and Reset columns of the register
tables, R8, R10, R15) and the key under which the state holds it.
-/
namespace Sys2Proof.Machine

/-- The access codes of R10. -/
inductive Acc where
  | ro | rw | rws | w1c | w1s | wo
  deriving DecidableEq, Repr

/-- One register field. A register that a table repeats (a block per camera, per slot, per unit) is one descriptor:
element `j` lies at `off + j * stride`. -/
structure Fld where
  /-- The kind of page that holds it. -/
  kind : PageKind
  /-- The byte offset of its register's first word within the page (element 0). -/
  off : Nat
  /-- The distance of one element to the next; 0 for a register that stands once. -/
  stride : Nat := 0
  /-- How many elements there are. -/
  count : Nat := 1
  /-- Its lowest bit within the register. -/
  lo : Nat
  /-- Its width in bits. -/
  width : Nat
  /-- Its access code (R10). -/
  acc : Acc
  /-- Its reset or factory value (R15). -/
  reset : Nat
  /-- Reset column `ret`: restored from Velvet at start (R15, R56). -/
  ret : Bool
  /-- Reset column `fuse` (R15, R57). -/
  fuse : Bool := false
  /-- The values a software write may give it (R13, R14); empty for all. -/
  rng : List (Nat × Nat) := []
  /-- Reset values element by element, where the table gives them so. -/
  resets : List Nat := []
  deriving DecidableEq, Repr

/-- The name of one cell of the register store: page kind, page instance, element, offset and lowest bit. -/
structure RegKey where
  kind : PageKind
  inst : Nat
  idx : Nat
  off : Nat
  lo : Nat
  deriving DecidableEq, Repr

/-- The order in which the store lists its cells. -/
def RegKey.lt (a b : RegKey) : Bool :=
  a.kind.ord < b.kind.ord || (a.kind.ord == b.kind.ord &&
    (a.inst < b.inst || (a.inst == b.inst &&
      (a.idx < b.idx || (a.idx == b.idx &&
        (a.off < b.off || (a.off == b.off && a.lo < b.lo)))))))

/-- The cell of element `j` of field `f` on instance `i` of its page. -/
def Fld.key (f : Fld) (i j : Nat) : RegKey := ⟨f.kind, i, j, f.off, f.lo⟩

/-- The value of a field's element at reset (R15). -/
def Fld.resetAt (f : Fld) (j : Nat) : Nat := f.resets.getD j f.reset

/-- May software write this value (R13, R14)? -/
def Fld.accepts (f : Fld) (v : Nat) : Bool := f.rng.isEmpty || f.rng.any (fun r => r.1 ≤ v && v ≤ r.2)

/-- The first word of the register of element `j`. -/
def Fld.word (f : Fld) (j : Nat) : Nat := f.off + j * f.stride

end Sys2Proof.Machine
end

