-- ==== Sys2Proof/Machine/Regs.lean ====
section
/-!
DEFINITION. Machine/Regs.lean: every register field of the spec's register tables, one descriptor each, and the
list of the fields of each kind of page. Names are the manual's, with an underscore for the point; an array of
registers is one descriptor with a stride and a count.
-/
namespace Sys2Proof.Machine

/-! ## Common page header (R45), on every kind of page -/

/-- R45 (02), ro, reset fuse: Block code from the page map -/
def Fld.ID_block (k : PageKind) : Fld :=
  { kind := k, off := 0x0, lo := 24, width := 8, acc := .ro, reset := 0x0, ret := false, fuse := true }

/-- R45 (02), ro, reset fuse: Instance index: lane n, context c, physical cluster k, and so on -/
def Fld.ID_instance (k : PageKind) : Fld :=
  { kind := k, off := 0x0, lo := 16, width := 8, acc := .ro, reset := 0x0, ret := false, fuse := true }

/-- R45 (02), ro, reset fuse: Major version, 1 (R7) -/
def Fld.ID_major (k : PageKind) : Fld :=
  { kind := k, off := 0x0, lo := 8, width := 8, acc := .ro, reset := 0x0, ret := false, fuse := true }

/-- R45 (02), ro, reset fuse: Minor version -/
def Fld.ID_minor (k : PageKind) : Fld :=
  { kind := k, off := 0x0, lo := 0, width := 8, acc := .ro, reset := 0x0, ret := false, fuse := true }

/-- R45 (02), ro, reset fuse: The page's block registers, at 0x100 and above, include RWS registers; the header is not counted (R45) -/
def Fld.CAPS_shadowed (k : PageKind) : Fld :=
  { kind := k, off := 0x4, lo := 31, width := 1, acc := .ro, reset := 0x0, ret := false, fuse := true }

/-- R45 (02), ro, reset fuse: The page's block registers, at 0x100 and above, include registers whose reset is ret; the header is not counted (R45) -/
def Fld.CAPS_retained (k : PageKind) : Fld :=
  { kind := k, off := 0x4, lo := 30, width := 1, acc := .ro, reset := 0x0, ret := false, fuse := true }

/-- R45 (02), ro, reset fuse: PF0 may write OWNER -/
def Fld.CAPS_assignable (k : PageKind) : Fld :=
  { kind := k, off := 0x4, lo := 29, width := 1, acc := .ro, reset := 0x0, ret := false, fuse := true }

/-- R45 (02), ro, reset fuse: One bit for each COMMIT boundary code 0 to 5 that the page accepts -/
def Fld.CAPS_boundaries (k : PageKind) : Fld :=
  { kind := k, off := 0x4, lo := 23, width := 6, acc := .ro, reset := 0x0, ret := false, fuse := true }

/-- R45 (02), ro, reset fuse: Block-specific capabilities -/
def Fld.CAPS_block (k : PageKind) : Fld :=
  { kind := k, off := 0x4, lo := 0, width := 23, acc := .ro, reset := 0x0, ret := false, fuse := true }

/-- R45 (02), rw, reset ret 0x0: The block instance works; fixed at 1 on pages that have no enable of their own (R566) -/
def Fld.CTRL_enable (k : PageKind) : Fld :=
  { kind := k, off := 0x8, lo := 0, width := 1, acc := .rw, reset := 0x0, ret := true }

/-- R45 (02), w1s, reset 0x0: Resets the instance's block registers; clears itself when done -/
def Fld.CTRL_soft_reset (k : PageKind) : Fld :=
  { kind := k, off := 0x8, lo := 1, width := 1, acc := .w1s, reset := 0x0, ret := false }

/-- R45 (02), rw, reset 0x0: Finish work at the block's natural boundary and accept none new -/
def Fld.CTRL_quiesce (k : PageKind) : Fld :=
  { kind := k, off := 0x8, lo := 2, width := 1, acc := .rw, reset := 0x0, ret := false }

/-- R45 (02), ro, reset hw: Work in progress -/
def Fld.STATUS_active (k : PageKind) : Fld :=
  { kind := k, off := 0xC, lo := 0, width := 1, acc := .ro, reset := 0x0, ret := false }

/-- R45 (02), ro, reset hw: Quiesce requested and no work in progress -/
def Fld.STATUS_quiesced (k : PageKind) : Fld :=
  { kind := k, off := 0xC, lo := 1, width := 1, acc := .ro, reset := 0x0, ret := false }

/-- R45 (02), ro, reset hw: The instance is retired as a permanent fault -/
def Fld.STATUS_retired (k : PageKind) : Fld :=
  { kind := k, off := 0xC, lo := 2, width := 1, acc := .ro, reset := 0x0, ret := false }

/-- R45 (02), ro, reset 0x0: Mirror of COMMIT.go -/
def Fld.STATUS_commit_pending (k : PageKind) : Fld :=
  { kind := k, off := 0xC, lo := 3, width := 1, acc := .ro, reset := 0x0, ret := false }

/-- R45 (02), ro, reset 0x0: (EVT_STATUS AND EVT_ENABLE) ≠ 0 -/
def Fld.STATUS_evt_pending (k : PageKind) : Fld :=
  { kind := k, off := 0xC, lo := 4, width := 1, acc := .ro, reset := 0x0, ret := false }

/-- R45 (02), w1c, reset 0x0: One bit for each block event -/
def Fld.EVT_STATUS (k : PageKind) : Fld :=
  { kind := k, off := 0x10, lo := 0, width := 32, acc := .w1c, reset := 0x0, ret := false }

/-- R45 (02), rw, reset ret 0x0: 1 lets the event bit signal an interrupt -/
def Fld.EVT_ENABLE (k : PageKind) : Fld :=
  { kind := k, off := 0x14, lo := 0, width := 32, acc := .rw, reset := 0x0, ret := true }

/-- R45 (02), wo, reset 0x0: 1 sets the matching EVT_STATUS bit as if hardware had -/
def Fld.EVT_FORCE (k : PageKind) : Fld :=
  { kind := k, off := 0x18, lo := 0, width := 32, acc := .wo, reset := 0x0, ret := false }

/-- R45 (02), w1c, reset 0x0: A first event is captured; writing 1 clears valid and overflow -/
def Fld.ERR_INFO_valid (k : PageKind) : Fld :=
  { kind := k, off := 0x1C, lo := 31, width := 1, acc := .w1c, reset := 0x0, ret := false }

/-- R45 (02), w1c, reset 0x0: A further event occurred while valid was 1 -/
def Fld.ERR_INFO_overflow (k : PageKind) : Fld :=
  { kind := k, off := 0x1C, lo := 30, width := 1, acc := .w1c, reset := 0x0, ret := false }

/-- R45 (02), ro, reset 0x0: The captured event came from EVT_FORCE -/
def Fld.ERR_INFO_forced (k : PageKind) : Fld :=
  { kind := k, off := 0x1C, lo := 29, width := 1, acc := .ro, reset := 0x0, ret := false }

/-- R45 (02), ro, reset 0x0: EVT_STATUS bit number of the captured event -/
def Fld.ERR_INFO_event (k : PageKind) : Fld :=
  { kind := k, off := 0x1C, lo := 24, width := 5, acc := .ro, reset := 0x0, ret := false }

/-- R45 (02), ro, reset 0x0: Block-specific detail -/
def Fld.ERR_INFO_detail (k : PageKind) : Fld :=
  { kind := k, off := 0x1C, lo := 0, width := 24, acc := .ro, reset := 0x0, ret := false }

/-- R45 (02), w1s, reset 0x0: Capture the shadow registers and apply them at the boundary -/
def Fld.COMMIT_go (k : PageKind) : Fld :=
  { kind := k, off := 0x20, lo := 0, width := 1, acc := .w1s, reset := 0x0, ret := false }

/-- R45 (02), rw, reset ret 0x0: Boundary code, see the commit boundaries table -/
def Fld.COMMIT_boundary (k : PageKind) : Fld :=
  { kind := k, off := 0x20, lo := 8, width := 8, acc := .rw, reset := 0x0, ret := true }

/-- R45 (02), rw, reset ret 0x0: Compare unit number for boundary 4 -/
def Fld.COMMIT_cmp (k : PageKind) : Fld :=
  { kind := k, off := 0x20, lo := 16, width := 5, acc := .rw, reset := 0x0, ret := true }

/-- R45 (02), rw, reset 0x0: Wait for a release before waiting for the boundary -/
def Fld.COMMIT_hold (k : PageKind) : Fld :=
  { kind := k, off := 0x20, lo := 24, width := 1, acc := .rw, reset := 0x0, ret := false }

/-- R45 (02), ro, reset 0x0: Active settings generation -/
def Fld.GEN (k : PageKind) : Fld :=
  { kind := k, off := 0x24, lo := 0, width := 32, acc := .ro, reset := 0x0, ret := false }

/-- R45 (02), rw, reset ret 0x0: Owning partition -/
def Fld.OWNER_partition (k : PageKind) : Fld :=
  { kind := k, off := 0x28, lo := 0, width := 3, acc := .rw, reset := 0x0, ret := true }

/-- R45 (02), rw, reset ret 0x0: 1 = owned by OWNER.partition; 0 = PF0 only -/
def Fld.OWNER_valid (k : PageKind) : Fld :=
  { kind := k, off := 0x28, lo := 7, width := 1, acc := .rw, reset := 0x0, ret := true }

/-- R45 (02), rw, reset ret 0x0: Partition functions may not write the page -/
def Fld.LOCK_locked (k : PageKind) : Fld :=
  { kind := k, off := 0x2C, lo := 0, width := 1, acc := .rw, reset := 0x0, ret := true }

/-- R45 (02), w1s, reset 0x0: PF0 may not write the page either, until the next start -/
def Fld.LOCK_sticky (k : PageKind) : Fld :=
  { kind := k, off := 0x2C, lo := 1, width := 1, acc := .w1s, reset := 0x0, ret := false }

/-- R45 (02), ro, reset 0x0: Count of discarded writes, saturating at 65,535 -/
def Fld.LOCK_denied (k : PageKind) : Fld :=
  { kind := k, off := 0x2C, lo := 16, width := 16, acc := .ro, reset := 0x0, ret := false }

/-- The header fields of a page of kind `k`, in the order of R45's table. -/
def headerFlds (k : PageKind) : List Fld :=
  [.ID_block k, .ID_instance k, .ID_major k, .ID_minor k, .CAPS_shadowed k,
   .CAPS_retained k, .CAPS_assignable k, .CAPS_boundaries k, .CAPS_block k, .CTRL_enable k,
   .CTRL_soft_reset k, .CTRL_quiesce k, .STATUS_active k, .STATUS_quiesced k, .STATUS_retired k,
   .STATUS_commit_pending k, .STATUS_evt_pending k, .EVT_STATUS k, .EVT_ENABLE k, .EVT_FORCE k,
   .ERR_INFO_valid k, .ERR_INFO_overflow k, .ERR_INFO_forced k, .ERR_INFO_event k, .ERR_INFO_detail k,
   .COMMIT_go k, .COMMIT_boundary k, .COMMIT_cmp k, .COMMIT_hold k, .GEN k,
   .OWNER_partition k, .OWNER_valid k, .LOCK_locked k, .LOCK_sticky k, .LOCK_denied k]

/-! ## Page kind `lan` -/

/-- R93 (03), [1:0] RWS, reset ret 0x0: 0 = OFF, 1 = CXP, 2 = RAW, 3 = PEER (R80) -/
def Fld.LAN_MODE_mode : Fld :=
  { kind := .lan, off := 0x100, stride := 0x0, count := 1, lo := 0, width := 2, acc := .rws, reset := 0x0, ret := true }

/-- R93 (03), [7:4] RWS, reset ret 0x0: Camera 0 to 11 -/
def Fld.LAN_MODE_cam : Fld :=
  { kind := .lan, off := 0x100, stride := 0x0, count := 1, lo := 4, width := 4, acc := .rws, reset := 0x0, ret := true, rng := [(0, 11)] }

/-- R93 (03), [9:8] RWS, reset ret 0x0: 0 = 1 lane, 1 = 2, 2 = 4, 3 = 8 -/
def Fld.LAN_MODE_width : Fld :=
  { kind := .lan, off := 0x100, stride := 0x0, count := 1, lo := 8, width := 2, acc := .rws, reset := 0x0, ret := true }

/-- R93 (03), [12:10] RWS, reset ret 0x0: Position in the connection; 0 = master -/
def Fld.LAN_MODE_index : Fld :=
  { kind := .lan, off := 0x100, stride := 0x0, count := 1, lo := 10, width := 3, acc := .rws, reset := 0x0, ret := true }

/-- R93 (03), [3:0] RWS, reset ret 0x0: Speed table -/
def Fld.LAN_RATE_cxp_speed : Fld :=
  { kind := .lan, off := 0x104, stride := 0x0, count := 1, lo := 0, width := 4, acc := .rws, reset := 0x0, ret := true, rng := [(0, 7)] }

/-- R93 (03), [31:16] RWS, reset ret 0x04E2: RAW rate, 1,250 to 16,000 Mb/s -/
def Fld.LAN_RATE_raw_mbps : Fld :=
  { kind := .lan, off := 0x104, stride := 0x0, count := 1, lo := 16, width := 16, acc := .rws, reset := 0x4E2, ret := true, rng := [(1250, 16000)] }

/-- R93 (03), [4:0] RWS, reset ret 0x0A: 10, 12, 14, 16 or 20; other values under R13 -/
def Fld.LAN_RAW_CFG_word_bits : Fld :=
  { kind := .lan, off := 0x108, stride := 0x0, count := 1, lo := 0, width := 5, acc := .rws, reset := 0xA, ret := true, rng := [(10, 10), (12, 12), (14, 14), (16, 16), (20, 20)] }

/-- R93 (03), [19:0] RW, reset ret 0x0: Training word -/
def Fld.LAN_RAW_TRAIN : Fld :=
  { kind := .lan, off := 0x10C, stride := 0x0, count := 1, lo := 0, width := 20, acc := .rw, reset := 0x0, ret := true }

/-- R93 (03), [1:0] RW, reset ret 0x2: 0 = ACTIVE, 1 = STANDBY, 2 = SLEEP -/
def Fld.LAN_PWR_rx : Fld :=
  { kind := .lan, off := 0x110, stride := 0x0, count := 1, lo := 0, width := 2, acc := .rw, reset := 0x2, ret := true, rng := [(0, 2)] }

/-- R93 (03), [5:4] RW, reset ret 0x2: As rx -/
def Fld.LAN_PWR_tx : Fld :=
  { kind := .lan, off := 0x110, stride := 0x0, count := 1, lo := 4, width := 2, acc := .rw, reset := 0x2, ret := true, rng := [(0, 2)] }

/-- R93 (03), [0] RW, reset ret 0x1: R73 -/
def Fld.LAN_POL_rx_auto : Fld :=
  { kind := .lan, off := 0x114, stride := 0x0, count := 1, lo := 0, width := 1, acc := .rw, reset := 0x1, ret := true }

/-- R93 (03), [1] RO, reset hw: Correction applied -/
def Fld.LAN_POL_rx_inverted : Fld :=
  { kind := .lan, off := 0x114, stride := 0x0, count := 1, lo := 1, width := 1, acc := .ro, reset := 0x0, ret := false }

/-- R93 (03), [2] RW, reset ret 0x0: Invert transmitter -/
def Fld.LAN_POL_tx_invert : Fld :=
  { kind := .lan, off := 0x114, stride := 0x0, count := 1, lo := 2, width := 1, acc := .rw, reset := 0x0, ret := true }

/-- R93 (03), [0] WO, reset 0x0: R74, R84 -/
def Fld.LAN_SLIP : Fld :=
  { kind := .lan, off := 0x118, stride := 0x0, count := 1, lo := 0, width := 1, acc := .wo, reset := 0x0, ret := false }

/-- R93 (03), [0] RO, reset hw: Comma, block or word lock -/
def Fld.LAN_STATUS_locked : Fld :=
  { kind := .lan, off := 0x11C, stride := 0x0, count := 1, lo := 0, width := 1, acc := .ro, reset := 0x0, ret := false }

/-- R93 (03), [1] RO, reset hw: Wake in progress -/
def Fld.LAN_STATUS_waking : Fld :=
  { kind := .lan, off := 0x11C, stride := 0x0, count := 1, lo := 1, width := 1, acc := .ro, reset := 0x0, ret := false }

/-- R93 (03), [3:2] RO, reset hw: Receiver state -/
def Fld.LAN_STATUS_rx_now : Fld :=
  { kind := .lan, off := 0x11C, stride := 0x0, count := 1, lo := 2, width := 2, acc := .ro, reset := 0x2, ret := false }

/-- R93 (03), [5:4] RO, reset hw: Transmitter state -/
def Fld.LAN_STATUS_tx_now : Fld :=
  { kind := .lan, off := 0x11C, stride := 0x0, count := 1, lo := 4, width := 2, acc := .ro, reset := 0x2, ret := false }

/-- R93 (03), [10:8] RO, reset hw: Locked CXP speed, as cxp_speed -/
def Fld.LAN_STATUS_speed : Fld :=
  { kind := .lan, off := 0x11C, stride := 0x0, count := 1, lo := 8, width := 3, acc := .ro, reset := 0x0, ret := false }

/-- R93 (03), [11] RO, reset hw: R74 -/
def Fld.LAN_STATUS_train_match : Fld :=
  { kind := .lan, off := 0x11C, stride := 0x0, count := 1, lo := 11, width := 1, acc := .ro, reset := 0x0, ret := false }

/-- R93 (03), [12] RO, reset hw: R74 -/
def Fld.LAN_STATUS_train_match_inv : Fld :=
  { kind := .lan, off := 0x11C, stride := 0x0, count := 1, lo := 12, width := 1, acc := .ro, reset := 0x0, ret := false }

/-- R93 (03), [19:0] RO, reset hw: Last raw word -/
def Fld.LAN_RAW_WORD : Fld :=
  { kind := .lan, off := 0x120, stride := 0x0, count := 1, lo := 0, width := 20, acc := .ro, reset := 0x0, ret := false }

/-- R93 (03), [15:0] RW, reset ret 0x0100: Code errors per 1 ms window -/
def Fld.LAN_BURST_CFG_threshold : Fld :=
  { kind := .lan, off := 0x124, stride := 0x0, count := 1, lo := 0, width := 16, acc := .rw, reset := 0x100, ret := true }

/-- R93 (03), [31:0] RO, reset 0x0: Code and disparity errors -/
def Fld.LAN_ERR_CODE : Fld :=
  { kind := .lan, off := 0x128, stride := 0x0, count := 1, lo := 0, width := 32, acc := .ro, reset := 0x0, ret := false }

/-- R93 (03), [31:0] RO, reset 0x0: Discarded packets -/
def Fld.LAN_ERR_CRC : Fld :=
  { kind := .lan, off := 0x12C, stride := 0x0, count := 1, lo := 0, width := 32, acc := .ro, reset := 0x0, ret := false }

/-- R93 (03), [31:0] RO, reset 0x0: LOCK_LOST count -/
def Fld.LAN_LOCK_LOSS : Fld :=
  { kind := .lan, off := 0x130, stride := 0x0, count := 1, lo := 0, width := 32, acc := .ro, reset := 0x0, ret := false }

/-- R93 (03), [31:0] RO, reset 0x0: Lost triggers -/
def Fld.LAN_TRIG_LOST : Fld :=
  { kind := .lan, off := 0x134, stride := 0x0, count := 1, lo := 0, width := 32, acc := .ro, reset := 0x0, ret := false }

/-- R93 (03), [0] WO, reset 0x0: Clears the counters -/
def Fld.LAN_CNT_CLR : Fld :=
  { kind := .lan, off := 0x13C, stride := 0x0, count := 1, lo := 0, width := 1, acc := .wo, reset := 0x0, ret := false }

/-- R93 (03), [0] RW, reset ret 0x0: R75 -/
def Fld.LAN_EQ_pin : Fld :=
  { kind := .lan, off := 0x140, stride := 0x0, count := 1, lo := 0, width := 1, acc := .rw, reset := 0x0, ret := true }

/-- R93 (03), [11:4] RW, reset ret 0x0: Pinned peaking; reads the calibrated value when pin = 0 -/
def Fld.LAN_EQ_ctle : Fld :=
  { kind := .lan, off := 0x140, stride := 0x0, count := 1, lo := 4, width := 8, acc := .rw, reset := 0x0, ret := true }

/-- R93 (03), [23:16] RW, reset ret 0x0: Pinned first tap; as ctle -/
def Fld.LAN_EQ_dfe : Fld :=
  { kind := .lan, off := 0x140, stride := 0x0, count := 1, lo := 16, width := 8, acc := .rw, reset := 0x0, ret := true }

/-- R93 (03), [3:0] RW, reset ret 0x8: Output swing, 50 mV steps from 400 mV -/
def Fld.LAN_TX_swing : Fld :=
  { kind := .lan, off := 0x144, stride := 0x0, count := 1, lo := 0, width := 4, acc := .rw, reset := 0x8, ret := true }

/-- R93 (03), [7:4] RW, reset ret 0x0: De-emphasis, 0.5 dB steps -/
def Fld.LAN_TX_deemph : Fld :=
  { kind := .lan, off := 0x144, stride := 0x0, count := 1, lo := 4, width := 4, acc := .rw, reset := 0x0, ret := true }

/-- R93 (03), [0] W1S, reset 0x0: R68 -/
def Fld.LAN_MBX_CTRL_send : Fld :=
  { kind := .lan, off := 0x180, stride := 0x0, count := 1, lo := 0, width := 1, acc := .w1s, reset := 0x0, ret := false }

/-- R93 (03), [9:0] RW, reset 0x0: Bytes, 4 to 512 -/
def Fld.LAN_MBX_TXLEN : Fld :=
  { kind := .lan, off := 0x184, stride := 0x0, count := 1, lo := 0, width := 10, acc := .rw, reset := 0x0, ret := false }

/-- R93 (03), [2:0] RO, reset 0x0: R69 -/
def Fld.LAN_MBX_RXHEAD : Fld :=
  { kind := .lan, off := 0x188, stride := 0x0, count := 1, lo := 0, width := 3, acc := .ro, reset := 0x0, ret := false }

/-- R93 (03), [2:0] RW, reset 0x0: R69 -/
def Fld.LAN_MBX_RXTAIL : Fld :=
  { kind := .lan, off := 0x18C, stride := 0x0, count := 1, lo := 0, width := 3, acc := .rw, reset := 0x0, ret := false }

/-! ## Page kind `lanPeer` -/

/-- R94 (03), [0] RW, reset ret 0x0: R80 -/
def Fld.LAN_PEER_CTRL_enable : Fld :=
  { kind := .lanPeer, off := 0x100, stride := 0x0, count := 1, lo := 0, width := 1, acc := .rw, reset := 0x0, ret := true }

/-- R94 (03), [1] W1S, reset 0x0: Start training; clears on entry to LOCK -/
def Fld.LAN_PEER_CTRL_train : Fld :=
  { kind := .lanPeer, off := 0x100, stride := 0x0, count := 1, lo := 1, width := 1, acc := .w1s, reset := 0x0, ret := false }

/-- R94 (03), [0] RW, reset ret 0x0: 0 = 25.78125 Gb/s, 1 = 28.125 Gb/s -/
def Fld.LAN_PEER_CFG_rate : Fld :=
  { kind := .lanPeer, off := 0x104, stride := 0x0, count := 1, lo := 0, width := 1, acc := .rw, reset := 0x0, ret := true }

/-- R94 (03), [4] RW, reset ret 0x0: 0 = RETRY, 1 = DROP -/
def Fld.LAN_PEER_CFG_err_mode : Fld :=
  { kind := .lanPeer, off := 0x104, stride := 0x0, count := 1, lo := 4, width := 1, acc := .rw, reset := 0x0, ret := true }

/-- R94 (03), [8] RW, reset ret 0x0: R84 -/
def Fld.LAN_PEER_CFG_manual_align : Fld :=
  { kind := .lanPeer, off := 0x104, stride := 0x0, count := 1, lo := 8, width := 1, acc := .rw, reset := 0x0, ret := true }

/-- R94 (03), [23:16] RW, reset ret 0x14: Replay timeout, 1 to 255 µs -/
def Fld.LAN_PEER_CFG_replay_us : Fld :=
  { kind := .lanPeer, off := 0x104, stride := 0x0, count := 1, lo := 16, width := 8, acc := .rw, reset := 0x14, ret := true, rng := [(1, 255)] }

/-- R94 (03), [2:0] RO, reset hw: 0 = DOWN, 1 = LOCK, 2 = ALIGN, 3 = HELLO, 4 = UP, 5 = FAIL -/
def Fld.LAN_PEER_STATUS_state : Fld :=
  { kind := .lanPeer, off := 0x108, stride := 0x0, count := 1, lo := 0, width := 3, acc := .ro, reset := 0x0, ret := false }

/-- R94 (03), [3] RO, reset hw: R83 -/
def Fld.LAN_PEER_STATUS_reversed : Fld :=
  { kind := .lanPeer, off := 0x108, stride := 0x0, count := 1, lo := 3, width := 1, acc := .ro, reset := 0x0, ret := false }

/-- R94 (03), [7:4] RO, reset hw: Block lock, one bit per group lane -/
def Fld.LAN_PEER_STATUS_lane_lock : Fld :=
  { kind := .lanPeer, off := 0x108, stride := 0x0, count := 1, lo := 4, width := 4, acc := .ro, reset := 0x0, ret := false }

/-- R94 (03), [31:0] RO, reset hw: Peer serial, low 32 bits -/
def Fld.LAN_PEER_REMOTE_serial : Fld :=
  { kind := .lanPeer, off := 0x10C, stride := 0x0, count := 1, lo := 0, width := 32, acc := .ro, reset := 0x0, ret := false }

/-- R94 (03), [2:0] RO, reset hw: Peer's group number -/
def Fld.LAN_PEER_REMOTE_group : Fld :=
  { kind := .lanPeer, off := 0x110, stride := 0x0, count := 1, lo := 0, width := 3, acc := .ro, reset := 0x0, ret := false }

/-- R94 (03), [31:0] RO, reset 0x0: Frames sent -/
def Fld.LAN_PEER_TX : Fld :=
  { kind := .lanPeer, off := 0x120, stride := 0x0, count := 1, lo := 0, width := 32, acc := .ro, reset := 0x0, ret := false }

/-- R94 (03), [31:0] RO, reset 0x0: Frames accepted -/
def Fld.LAN_PEER_RX : Fld :=
  { kind := .lanPeer, off := 0x124, stride := 0x0, count := 1, lo := 0, width := 32, acc := .ro, reset := 0x0, ret := false }

/-- R94 (03), [31:0] RO, reset 0x0: Resends -/
def Fld.LAN_PEER_REPLAY : Fld :=
  { kind := .lanPeer, off := 0x128, stride := 0x0, count := 1, lo := 0, width := 32, acc := .ro, reset := 0x0, ret := false }

/-- R94 (03), [31:0] RO, reset 0x0: Frames dropped -/
def Fld.LAN_PEER_DROP : Fld :=
  { kind := .lanPeer, off := 0x12C, stride := 0x0, count := 1, lo := 0, width := 32, acc := .ro, reset := 0x0, ret := false }

/-- R94 (03), [31:0] RO, reset 0x0: CRC failures -/
def Fld.LAN_PEER_CRC : Fld :=
  { kind := .lanPeer, off := 0x130, stride := 0x0, count := 1, lo := 0, width := 32, acc := .ro, reset := 0x0, ret := false }

/-- R94 (03), [0] WO, reset 0x0: Clears the counters -/
def Fld.LAN_PEER_CNT_CLR : Fld :=
  { kind := .lanPeer, off := 0x13C, stride := 0x0, count := 1, lo := 0, width := 1, acc := .wo, reset := 0x0, ret := false }

/-! ## Page kind `cap` -/

/-- R126 (04), [1:0] RWS, reset ret 0x0: 0 = FREE, 1 = ENCODER, 2 = TIME -/
def Fld.CAP_TRIG_MODE_mode : Fld :=
  { kind := .cap, off := 0x100, stride := 0x20, count := 12, lo := 0, width := 2, acc := .rws, reset := 0x0, ret := true, rng := [(0, 2)] }

/-- R126 (04), [8:4] RWS, reset ret 0x0: Compare unit for TIME -/
def Fld.CAP_TRIG_MODE_cmp : Fld :=
  { kind := .cap, off := 0x100, stride := 0x20, count := 12, lo := 4, width := 5, acc := .rws, reset := 0x0, ret := true }

/-- R126 (04), [15:0] RWS, reset ret 0x0001: Period, 1 to 65,535 cnt; 0 under R13 -/
def Fld.CAP_TRIG_PERIOD : Fld :=
  { kind := .cap, off := 0x104, stride := 0x20, count := 12, lo := 0, width := 16, acc := .rws, reset := 0x1, ret := true, rng := [(1, 65535)] }

/-- R126 (04), [31:0] RWS, reset ret 0x0: Origin [31:0] -/
def Fld.CAP_TRIG_ORIGIN_low : Fld :=
  { kind := .cap, off := 0x108, stride := 0x20, count := 12, lo := 0, width := 32, acc := .rws, reset := 0x0, ret := true }

/-- R126 (04), [15:0] RWS, reset ret 0x0: Origin [47:32] -/
def Fld.CAP_TRIG_ORIGIN_high : Fld :=
  { kind := .cap, off := 0x10C, stride := 0x20, count := 12, lo := 0, width := 16, acc := .rws, reset := 0x0, ret := true }

/-- R126 (04), [15:0] RWS, reset ret 0x0: lat_min in 10 ns units -/
def Fld.CAP_LINE_LAT_min : Fld :=
  { kind := .cap, off := 0x110, stride := 0x20, count := 12, lo := 0, width := 16, acc := .rws, reset := 0x0, ret := true }

/-- R126 (04), [31:16] RWS, reset ret 0x0FA0: lat_max in 10 ns units; 40 µs -/
def Fld.CAP_LINE_LAT_max : Fld :=
  { kind := .cap, off := 0x110, stride := 0x20, count := 12, lo := 16, width := 16, acc := .rws, reset := 0xFA0, ret := true }

/-- R126 (04), [14:0] RWS, reset ret 0x0FFF: Samples per line, minus 1 -/
def Fld.CAP_CAM_FMT_width : Fld :=
  { kind := .cap, off := 0x114, stride := 0x20, count := 12, lo := 0, width := 15, acc := .rws, reset := 0xFFF, ret := true }

/-- R126 (04), [19:16] RWS, reset ret 0x1: 1 to 4 -/
def Fld.CAP_CAM_FMT_channels : Fld :=
  { kind := .cap, off := 0x114, stride := 0x20, count := 12, lo := 16, width := 4, acc := .rws, reset := 0x1, ret := true, rng := [(1, 4)] }

/-- R126 (04), [22:20] RWS, reset ret 0x0: As the slot header -/
def Fld.CAP_CAM_FMT_bits : Fld :=
  { kind := .cap, off := 0x114, stride := 0x20, count := 12, lo := 20, width := 3, acc := .rws, reset := 0x0, ret := true, rng := [(0, 4)] }

/-- R126 (04), [0] W1S, reset 0x0: R117 -/
def Fld.CAP_SETTLE_force : Fld :=
  { kind := .cap, off := 0x118, stride := 0x20, count := 12, lo := 0, width := 1, acc := .w1s, reset := 0x0, ret := false }

/-- R126 (04), [11:8] RO, reset 0x0: Largest count of stripes still to flag among the camera's contexts (R117) -/
def Fld.CAP_SETTLE_remaining : Fld :=
  { kind := .cap, off := 0x118, stride := 0x20, count := 12, lo := 8, width := 4, acc := .ro, reset := 0x0, ret := false }

/-- R126 (04), [31:0] RO, reset 0x0: Triggers issued, lost ones included (R71) -/
def Fld.CAP_TRIG_CNT : Fld :=
  { kind := .cap, off := 0x11C, stride := 0x20, count := 12, lo := 0, width := 32, acc := .ro, reset := 0x0, ret := false }

/-- R126 (04), [19:0] RWS, reset ret 0x0: Start-of-line word (R106) -/
def Fld.CAP_RAW_SOL_word : Fld :=
  { kind := .cap, off := 0x300, stride := 0x4, count := 12, lo := 0, width := 20, acc := .rws, reset := 0x0, ret := true }

/-- R126 (04), [31] RWS, reset ret 0x0: 1 = frames are marked by CAP_RAW_SOF; 0 = every L lines form a frame (R106) -/
def Fld.CAP_RAW_SOL_frame_en : Fld :=
  { kind := .cap, off := 0x300, stride := 0x4, count := 12, lo := 31, width := 1, acc := .rws, reset := 0x0, ret := true }

/-- R126 (04), [31:0] RO, reset 0x0: R101 -/
def Fld.CAP_TRIG_SKIP : Fld :=
  { kind := .cap, off := 0x340, stride := 0x4, count := 12, lo := 0, width := 32, acc := .ro, reset := 0x0, ret := false }

/-- R126 (04), [19:0] RWS, reset ret 0x0: Start-of-frame word (R106) -/
def Fld.CAP_RAW_SOF : Fld :=
  { kind := .cap, off := 0x380, stride := 0x4, count := 12, lo := 0, width := 20, acc := .rws, reset := 0x0, ret := true }

/-- R126 (04), [31:0] RO, reset 0x0: Lines discarded for a length that differs from CAP_CAM_FMT (R103); saturates at 2^32 − 1 -/
def Fld.CAP_CNT_BADLEN : Fld :=
  { kind := .cap, off := 0x3C0, stride := 0x4, count := 12, lo := 0, width := 32, acc := .ro, reset := 0x0, ret := false }

/-! ## Page kind `capCtx` -/

/-- R127 (04), [1:0] RWS, reset ret 0x0: R96 -/
def Fld.CAP_CTX_SRC_kind : Fld :=
  { kind := .capCtx, off := 0x100, stride := 0x0, count := 1, lo := 0, width := 2, acc := .rws, reset := 0x0, ret := true }

/-- R127 (04), [11:8] RWS, reset ret 0x0: Camera, for CAMERA -/
def Fld.CAP_CTX_SRC_cam : Fld :=
  { kind := .capCtx, off := 0x100, stride := 0x0, count := 1, lo := 8, width := 4, acc := .rws, reset := 0x0, ret := true }

/-- R127 (04), [18:16] RWS, reset ret 0x0: For PEER -/
def Fld.CAP_CTX_SRC_peer_group : Fld :=
  { kind := .capCtx, off := 0x100, stride := 0x0, count := 1, lo := 16, width := 3, acc := .rws, reset := 0x0, ret := true }

/-- R127 (04), [29:24] RWS, reset ret 0x0: For PEER -/
def Fld.CAP_CTX_SRC_peer_ctx : Fld :=
  { kind := .capCtx, off := 0x100, stride := 0x0, count := 1, lo := 24, width := 6, acc := .rws, reset := 0x0, ret := true }

/-- R127 (04), [14:0] RWS, reset ret 0x0: First column -/
def Fld.CAP_CTX_WIN_col_first : Fld :=
  { kind := .capCtx, off := 0x104, stride := 0x0, count := 1, lo := 0, width := 15, acc := .rws, reset := 0x0, ret := true }

/-- R127 (04), [31:16] RWS, reset ret 0x0: Columns; 0 = to the end of the line -/
def Fld.CAP_CTX_WIN_width : Fld :=
  { kind := .capCtx, off := 0x104, stride := 0x0, count := 1, lo := 16, width := 16, acc := .rws, reset := 0x0, ret := true }

/-- R127 (04), [8:0] RWS, reset ret 0x040: L, 16 to 256; other values under R13 -/
def Fld.CAP_STRIPE_CFG_lines : Fld :=
  { kind := .capCtx, off := 0x108, stride := 0x0, count := 1, lo := 0, width := 9, acc := .rws, reset := 0x40, ret := true, rng := [(16, 256)] }

/-- R127 (04), [19:16] RWS, reset ret 0x4: R117 -/
def Fld.CAP_STRIPE_CFG_settle_stripes : Fld :=
  { kind := .capCtx, off := 0x108, stride := 0x0, count := 1, lo := 16, width := 4, acc := .rws, reset := 0x4, ret := true }

/-- R127 (04), [3:0] RWS, reset ret 0x0: Member 0 camera -/
def Fld.CAP_GRP_MEMBERS_m0 : Fld :=
  { kind := .capCtx, off := 0x10C, stride := 0x0, count := 1, lo := 0, width := 4, acc := .rws, reset := 0x0, ret := true }

/-- R127 (04), [7:4] RWS, reset ret 0x0: Member 1 camera -/
def Fld.CAP_GRP_MEMBERS_m1 : Fld :=
  { kind := .capCtx, off := 0x10C, stride := 0x0, count := 1, lo := 4, width := 4, acc := .rws, reset := 0x0, ret := true }

/-- R127 (04), [11:8] RWS, reset ret 0x0: Member 2 camera -/
def Fld.CAP_GRP_MEMBERS_m2 : Fld :=
  { kind := .capCtx, off := 0x10C, stride := 0x0, count := 1, lo := 8, width := 4, acc := .rws, reset := 0x0, ret := true }

/-- R127 (04), [15:12] RWS, reset ret 0x0: Member 3 camera -/
def Fld.CAP_GRP_MEMBERS_m3 : Fld :=
  { kind := .capCtx, off := 0x10C, stride := 0x0, count := 1, lo := 12, width := 4, acc := .rws, reset := 0x0, ret := true }

/-- R127 (04), [17:16] RWS, reset ret 0x1: Members minus 1 -/
def Fld.CAP_GRP_MEMBERS_count : Fld :=
  { kind := .capCtx, off := 0x10C, stride := 0x0, count := 1, lo := 16, width := 2, acc := .rws, reset := 0x1, ret := true }

/-- R127 (04), [15:0] RWS, reset ret 0x03E8: 1 to 65,535 µs -/
def Fld.CAP_GRP_ALIGN_align_us : Fld :=
  { kind := .capCtx, off := 0x110, stride := 0x0, count := 1, lo := 0, width := 16, acc := .rws, reset := 0x3E8, ret := true, rng := [(1, 65535)] }

/-- R127 (04), [31:0] RWS, reset ret 0x0: off_m, signed cnt -/
def Fld.CAP_GRP_OFFSET : Fld :=
  { kind := .capCtx, off := 0x114, stride := 0x4, count := 4, lo := 0, width := 32, acc := .rws, reset := 0x0, ret := true }

/-- R127 (04), [63:0] RWS, reset ret 0x0: 4 KiB aligned device address -/
def Fld.CAP_RING_BASE : Fld :=
  { kind := .capCtx, off := 0x128, stride := 0x0, count := 1, lo := 0, width := 64, acc := .rws, reset := 0x0, ret := true }

/-- R127 (04), [15:0] RWS, reset ret 0x0: Slot size, a multiple of 4 -/
def Fld.CAP_RING_CFG_slot_kib : Fld :=
  { kind := .capCtx, off := 0x130, stride := 0x0, count := 1, lo := 0, width := 16, acc := .rws, reset := 0x0, ret := true }

/-- R127 (04), [31:16] RWS, reset ret 0x0: 2 to 65,535 -/
def Fld.CAP_RING_CFG_slots : Fld :=
  { kind := .capCtx, off := 0x130, stride := 0x0, count := 1, lo := 16, width := 16, acc := .rws, reset := 0x0, ret := true }

/-- R127 (04), [31:0] RW, reset 0x0: R120 -/
def Fld.CAP_RING_HOLD_FIRST : Fld :=
  { kind := .capCtx, off := 0x134, stride := 0x0, count := 1, lo := 0, width := 32, acc := .rw, reset := 0x0, ret := false }

/-- R127 (04), [31:0] RW, reset 0x0: 0 = no hold -/
def Fld.CAP_RING_HOLD_COUNT : Fld :=
  { kind := .capCtx, off := 0x138, stride := 0x0, count := 1, lo := 0, width := 32, acc := .rw, reset := 0x0, ret := false }

/-- R127 (04), [31:0] RO, reset 0x0: Next stripe number -/
def Fld.CAP_STRIPE_NO : Fld :=
  { kind := .capCtx, off := 0x140, stride := 0x0, count := 1, lo := 0, width := 32, acc := .ro, reset := 0x0, ret := false }

/-- R127 (04), [31:0] RO, reset 0x0: Oldest spilled stripe not caught up -/
def Fld.CAP_SPILL_OLDEST : Fld :=
  { kind := .capCtx, off := 0x144, stride := 0x0, count := 1, lo := 0, width := 32, acc := .ro, reset := 0x0, ret := false }

/-- R127 (04), [0] RO, reset 0x0: Such a stripe exists -/
def Fld.CAP_SPILL_OLDEST_VALID : Fld :=
  { kind := .capCtx, off := 0x148, stride := 0x0, count := 1, lo := 0, width := 1, acc := .ro, reset := 0x0, ret := false }

/-- R127 (04), [63:0] RW, reset 0x0: R123 -/
def Fld.CAP_RP_ADDR : Fld :=
  { kind := .capCtx, off := 0x150, stride := 0x0, count := 1, lo := 0, width := 64, acc := .rw, reset := 0x0, ret := false }

/-- R127 (04), [0] WO, reset 0x0: R123 -/
def Fld.CAP_RP_PUSH : Fld :=
  { kind := .capCtx, off := 0x158, stride := 0x0, count := 1, lo := 0, width := 1, acc := .wo, reset := 0x0, ret := false }

/-- R127 (04), [4:0] RO, reset 0x10: Free queue entries -/
def Fld.CAP_RP_STATUS_free : Fld :=
  { kind := .capCtx, off := 0x15C, stride := 0x0, count := 1, lo := 0, width := 5, acc := .ro, reset := 0x10, ret := false }

/-- R127 (04), [31:0] RO, reset 0x0: Stripes closed -/
def Fld.CAP_CNT_STRIPES : Fld :=
  { kind := .capCtx, off := 0x160, stride := 0x0, count := 1, lo := 0, width := 32, acc := .ro, reset := 0x0, ret := false }

/-- R127 (04), [31:0] RO, reset 0x0: SHORT stripes -/
def Fld.CAP_CNT_SHORT : Fld :=
  { kind := .capCtx, off := 0x164, stride := 0x0, count := 1, lo := 0, width := 32, acc := .ro, reset := 0x0, ret := false }

/-- R127 (04), [31:0] RO, reset 0x0: Extra lines -/
def Fld.CAP_CNT_LONG : Fld :=
  { kind := .capCtx, off := 0x168, stride := 0x0, count := 1, lo := 0, width := 32, acc := .ro, reset := 0x0, ret := false }

/-- R127 (04), [31:0] RO, reset 0x0: Missing member parts -/
def Fld.CAP_CNT_STALE : Fld :=
  { kind := .capCtx, off := 0x16C, stride := 0x0, count := 1, lo := 0, width := 32, acc := .ro, reset := 0x0, ret := false }

/-- R127 (04), [31:0] RO, reset 0x0: Stripes discarded: at the ring (R27, R120) and lost in LNP (R138, R139) -/
def Fld.CAP_CNT_DISCARD : Fld :=
  { kind := .capCtx, off := 0x170, stride := 0x0, count := 1, lo := 0, width := 32, acc := .ro, reset := 0x0, ret := false }

/-- R127 (04), [31:0] RO, reset 0x0: R110 -/
def Fld.CAP_CNT_AFTER_SHORT : Fld :=
  { kind := .capCtx, off := 0x174, stride := 0x0, count := 1, lo := 0, width := 32, acc := .ro, reset := 0x0, ret := false }

/-- R127 (04), [0] WO, reset 0x0: Clears the counters -/
def Fld.CAP_CNT_CLR : Fld :=
  { kind := .capCtx, off := 0x17C, stride := 0x0, count := 1, lo := 0, width := 1, acc := .wo, reset := 0x0, ret := false }

/-! ## Page kind `lnp` -/

/-- R157 (05), [13:0] RO, reset hw: Free intake buffer, KiB -/
def Fld.LNP_INTAKE_FREE : Fld :=
  { kind := .lnp, off := 0x100, stride := 0x0, count := 1, lo := 0, width := 14, acc := .ro, reset := 0x0, ret := false }

/-- R157 (05), [63:0] RO, reset 0x0: PCLK cycles with a stripe in the pipeline -/
def Fld.LNP_BUSY : Fld :=
  { kind := .lnp, off := 0x108, stride := 0x0, count := 1, lo := 0, width := 64, acc := .ro, reset := 0x0, ret := false }

/-- R157 (05), [31:0] RO, reset 0x0: Context switches -/
def Fld.LNP_CNT_SWITCH : Fld :=
  { kind := .lnp, off := 0x110, stride := 0x0, count := 1, lo := 0, width := 32, acc := .ro, reset := 0x0, ret := false }

/-- R157 (05), [31:0] RO, reset 0x0: Stripes read from the ring because the intake buffer was full -/
def Fld.LNP_CNT_INTAKE_FULL : Fld :=
  { kind := .lnp, off := 0x114, stride := 0x0, count := 1, lo := 0, width := 32, acc := .ro, reset := 0x0, ret := false }

/-- R157 (05), [0] WO, reset 0x0: Clears the counters -/
def Fld.LNP_GLOBAL_CNT_CLR : Fld :=
  { kind := .lnp, off := 0x11C, stride := 0x0, count := 1, lo := 0, width := 1, acc := .wo, reset := 0x0, ret := false }

/-! ## Page kind `lnpCtx` -/

/-- R158 (05), [0] RWS, reset ret 0x0: 0 = LC, 1 = BE (R130) -/
def Fld.LNP_CTX_CFG_prio : Fld :=
  { kind := .lnpCtx, off := 0x100, stride := 0x0, count := 1, lo := 0, width := 1, acc := .rws, reset := 0x0, ret := true }

/-- R158 (05), [3:2] RWS, reset ret 0x0: 0 = INT8, 1 = UINT8, 2 = BF16, 3 = FP16 -/
def Fld.LNP_CTX_CFG_out_fmt : Fld :=
  { kind := .lnpCtx, off := 0x100, stride := 0x0, count := 1, lo := 2, width := 2, acc := .rws, reset := 0x0, ret := true }

/-- R158 (05), [5:4] RWS, reset ret 0x0: 0 = OFF, 1 = NEAREST, 2 = LINEAR -/
def Fld.LNP_CTX_CFG_along_mode : Fld :=
  { kind := .lnpCtx, off := 0x100, stride := 0x0, count := 1, lo := 4, width := 2, acc := .rws, reset := 0x0, ret := true, rng := [(0, 2)] }

/-- R158 (05), [8] RWS, reset ret 0x0: R146 -/
def Fld.LNP_CTX_CFG_dyn_defect : Fld :=
  { kind := .lnpCtx, off := 0x100, stride := 0x0, count := 1, lo := 8, width := 1, acc := .rws, reset := 0x0, ret := true }

/-- R158 (05), [15:12] RWS, reset ret 0x0: Shift f, 0 to 7; 8 to 15 under R13 -/
def Fld.LNP_CTX_CFG_ob_filter : Fld :=
  { kind := .lnpCtx, off := 0x100, stride := 0x0, count := 1, lo := 12, width := 4, acc := .rws, reset := 0x0, ret := true, rng := [(0, 7)] }

/-- R158 (05), [16] RWS, reset ret 0x1: R156 -/
def Fld.LNP_CTX_CFG_stat_en : Fld :=
  { kind := .lnpCtx, off := 0x100, stride := 0x0, count := 1, lo := 16, width := 1, acc := .rws, reset := 0x1, ret := true }

/-- R158 (05), [15:0] RWS, reset ret 0x0FFF: Output columns, minus 1 -/
def Fld.LNP_OUT_WIDTH : Fld :=
  { kind := .lnpCtx, off := 0x104, stride := 0x0, count := 1, lo := 0, width := 16, acc := .rws, reset := 0xFFF, ret := true }

/-- R158 (05), [15:0] RW, reset ret 0x00C8: Hold limit, 0 to 65,535 µs (R134) -/
def Fld.LNP_HOLD_LIMIT : Fld :=
  { kind := .lnpCtx, off := 0x108, stride := 0x0, count := 1, lo := 0, width := 16, acc := .rw, reset := 0xC8, ret := true }

/-- R158 (05), [63:0] RWS, reset ret 0x0: Table block, device address in the owning partition's region, 4 KiB aligned -/
def Fld.LNP_TBL_BASE : Fld :=
  { kind := .lnpCtx, off := 0x110, stride := 0x0, count := 1, lo := 0, width := 64, acc := .rws, reset := 0x0, ret := true }

/-- R158 (05), [9:0] RWS, reset ret 0x0: KiB, 1 to 512 -/
def Fld.LNP_TBL_SIZE : Fld :=
  { kind := .lnpCtx, off := 0x118, stride := 0x0, count := 1, lo := 0, width := 10, acc := .rws, reset := 0x0, ret := true }

/-- R158 (05), [15:0] RWS, reset ret 0x0100: T in LSB16 -/
def Fld.LNP_DYN_THR : Fld :=
  { kind := .lnpCtx, off := 0x11C, stride := 0x0, count := 1, lo := 0, width := 16, acc := .rws, reset := 0x100, ret := true }

/-- R158 (05), [23:0] RW, reset ret 0x0: Line-buffer offset, 4 KiB units -/
def Fld.LNP_LB_BASE : Fld :=
  { kind := .lnpCtx, off := 0x120, stride := 0x0, count := 1, lo := 0, width := 24, acc := .rw, reset := 0x0, ret := true }

/-- R158 (05), [4:0] RW, reset ret 0x02: 1 to 16 -/
def Fld.LNP_LB_CFG_slots : Fld :=
  { kind := .lnpCtx, off := 0x124, stride := 0x0, count := 1, lo := 0, width := 5, acc := .rw, reset := 0x2, ret := true }

/-- R158 (05), [31:16] RW, reset ret 0x0: Slot size, KiB -/
def Fld.LNP_LB_CFG_slot_kib : Fld :=
  { kind := .lnpCtx, off := 0x124, stride := 0x0, count := 1, lo := 16, width := 16, acc := .rw, reset := 0x0, ret := true }

/-- R158 (05), [4:0] RO, reset 0x0: Free credits -/
def Fld.LNP_CREDIT_free : Fld :=
  { kind := .lnpCtx, off := 0x128, stride := 0x0, count := 1, lo := 0, width := 5, acc := .ro, reset := 0x0, ret := false }

/-- R158 (05), [8] RO, reset 0x1: 0 during a spill episode (R135) -/
def Fld.LNP_CREDIT_inline : Fld :=
  { kind := .lnpCtx, off := 0x128, stride := 0x0, count := 1, lo := 8, width := 1, acc := .ro, reset := 0x1, ret := false }

/-- R158 (05), [63:0] RW, reset ret 0x0: Statistics ring, device address in the owning partition's region, 4 KiB aligned -/
def Fld.LNP_STAT_BASE : Fld :=
  { kind := .lnpCtx, off := 0x130, stride := 0x0, count := 1, lo := 0, width := 64, acc := .rw, reset := 0x0, ret := true }

/-- R158 (05), [15:0] RW, reset ret 0x0: 0 = no blocks written -/
def Fld.LNP_STAT_CFG_blocks : Fld :=
  { kind := .lnpCtx, off := 0x138, stride := 0x0, count := 1, lo := 0, width := 16, acc := .rw, reset := 0x0, ret := true }

/-- R158 (05), [31:0] RO, reset 0x0: R156 -/
def Fld.LNP_STAT_LAST : Fld :=
  { kind := .lnpCtx, off := 0x13C, stride := 0x0, count := 1, lo := 0, width := 32, acc := .ro, reset := 0x0, ret := false }

/-- R158 (05), [31:0] RW, reset ret 0x0: R156 -/
def Fld.LNP_CLIP_THR : Fld :=
  { kind := .lnpCtx, off := 0x140, stride := 0x0, count := 1, lo := 0, width := 32, acc := .rw, reset := 0x0, ret := true }

/-- R158 (05), [31:0] RO, reset 0x0: R141 -/
def Fld.LNP_GEN_OLDEST : Fld :=
  { kind := .lnpCtx, off := 0x144, stride := 0x0, count := 1, lo := 0, width := 32, acc := .ro, reset := 0x0, ret := false }

/-- R158 (05), [31:0] RO, reset 0x0: Last stripe delivered -/
def Fld.LNP_STRIPE_DONE : Fld :=
  { kind := .lnpCtx, off := 0x148, stride := 0x0, count := 1, lo := 0, width := 32, acc := .ro, reset := 0x0, ret := false }

/-- R158 (05), [31:0] RO, reset 0x0: Stripes corrected -/
def Fld.LNP_CNT_STRIPES : Fld :=
  { kind := .lnpCtx, off := 0x160, stride := 0x0, count := 1, lo := 0, width := 32, acc := .ro, reset := 0x0, ret := false }

/-- R158 (05), [31:0] RO, reset 0x0: Spilled stripes -/
def Fld.LNP_CNT_SPILL : Fld :=
  { kind := .lnpCtx, off := 0x164, stride := 0x0, count := 1, lo := 0, width := 32, acc := .ro, reset := 0x0, ret := false }

/-- R158 (05), [31:0] RO, reset 0x0: R146 -/
def Fld.LNP_CNT_DEFECT_OPEN : Fld :=
  { kind := .lnpCtx, off := 0x168, stride := 0x0, count := 1, lo := 0, width := 32, acc := .ro, reset := 0x0, ret := false }

/-- R158 (05), [31:0] RO, reset 0x0: R146 -/
def Fld.LNP_CNT_DYN : Fld :=
  { kind := .lnpCtx, off := 0x16C, stride := 0x0, count := 1, lo := 0, width := 32, acc := .ro, reset := 0x0, ret := false }

/-- R158 (05), [31:0] RO, reset 0x0: R138 -/
def Fld.LNP_CNT_LOST : Fld :=
  { kind := .lnpCtx, off := 0x170, stride := 0x0, count := 1, lo := 0, width := 32, acc := .ro, reset := 0x0, ret := false }

/-- R158 (05), [0] WO, reset 0x0: Clears the counters -/
def Fld.LNP_CNT_CLR : Fld :=
  { kind := .lnpCtx, off := 0x17C, stride := 0x0, count := 1, lo := 0, width := 1, acc := .wo, reset := 0x0, ret := false }

/-- R158 (05), [1:0] RWS, reset ret 0x0: R150 -/
def Fld.LNP_MEM_GEOM_mode : Fld :=
  { kind := .lnpCtx, off := 0x200, stride := 0x20, count := 4, lo := 0, width := 2, acc := .rws, reset := 0x0, ret := true }

/-- R158 (05), [14:0] RWS, reset ret 0x0: 0x204; first reference column -/
def Fld.LNP_MEM_OB_first : Fld :=
  { kind := .lnpCtx, off := 0x204, stride := 0x20, count := 4, lo := 0, width := 15, acc := .rws, reset := 0x0, ret := true }

/-- R158 (05), [19:16] RWS, reset ret 0x3: 3 to 8; others under R13 -/
def Fld.LNP_MEM_OB_count_log2 : Fld :=
  { kind := .lnpCtx, off := 0x204, stride := 0x20, count := 4, lo := 16, width := 4, acc := .rws, reset := 0x3, ret := true, rng := [(3, 8)] }

/-- R158 (05), [20] RWS, reset ret 0x0: R145 -/
def Fld.LNP_MEM_OB_enable : Fld :=
  { kind := .lnpCtx, off := 0x204, stride := 0x20, count := 4, lo := 20, width := 1, acc := .rws, reset := 0x0, ret := true }

/-- R158 (05), [31:0] RWS, reset ret 0x0: a, signed Q16.16 -/
def Fld.LNP_MEM_A : Fld :=
  { kind := .lnpCtx, off := 0x208, stride := 0x20, count := 4, lo := 0, width := 32, acc := .rws, reset := 0x0, ret := true }

/-- R158 (05), [31:0] RWS, reset ret 0x0001_0000: b, unsigned Q16.16 -/
def Fld.LNP_MEM_B : Fld :=
  { kind := .lnpCtx, off := 0x20C, stride := 0x20, count := 4, lo := 0, width := 32, acc := .rws, reset := 0x10000, ret := true }

/-- R158 (05), [2:0] RWS, reset ret 0x0: Channel 0 delay, rows -/
def Fld.LNP_MEM_DELAY_d0 : Fld :=
  { kind := .lnpCtx, off := 0x210, stride := 0x20, count := 4, lo := 0, width := 3, acc := .rws, reset := 0x0, ret := true }

/-- R158 (05), [6:4] RWS, reset ret 0x0: Channel 1 -/
def Fld.LNP_MEM_DELAY_d1 : Fld :=
  { kind := .lnpCtx, off := 0x210, stride := 0x20, count := 4, lo := 4, width := 3, acc := .rws, reset := 0x0, ret := true }

/-- R158 (05), [10:8] RWS, reset ret 0x0: Channel 2 -/
def Fld.LNP_MEM_DELAY_d2 : Fld :=
  { kind := .lnpCtx, off := 0x210, stride := 0x20, count := 4, lo := 8, width := 3, acc := .rws, reset := 0x0, ret := true }

/-- R158 (05), [14:12] RWS, reset ret 0x0: Channel 3 -/
def Fld.LNP_MEM_DELAY_d3 : Fld :=
  { kind := .lnpCtx, off := 0x210, stride := 0x20, count := 4, lo := 12, width := 3, acc := .rws, reset := 0x0, ret := true }

/-- R158 (05), [15:0] RWS, reset ret 0x0: P_k, signed, 1/16 LSB16 -/
def Fld.LNP_CH_BLK_pedestal : Fld :=
  { kind := .lnpCtx, off := 0x400, stride := 0x10, count := 16, lo := 0, width := 16, acc := .rws, reset := 0x0, ret := true }

/-- R158 (05), [15:0] RWS, reset ret 0x1000: G, Q4.12 -/
def Fld.LNP_CH_GAIN : Fld :=
  { kind := .lnpCtx, off := 0x404, stride := 0x10, count := 16, lo := 0, width := 16, acc := .rws, reset := 0x1000, ret := true }

/-- R158 (05), [31:0] RWS, reset ret 0x0: Signed, working units -/
def Fld.LNP_CH_SUB : Fld :=
  { kind := .lnpCtx, off := 0x408, stride := 0x10, count := 16, lo := 0, width := 32, acc := .rws, reset := 0x0, ret := true }

/-- R158 (05), [31:0] RWS, reset ret 0x3B80_0000: Binary32; factory value 2^-8 -/
def Fld.LNP_CH_MUL : Fld :=
  { kind := .lnpCtx, off := 0x40C, stride := 0x10, count := 16, lo := 0, width := 32, acc := .rws, reset := 0x3B800000, ret := true }

/-! ## Page kind `clu` -/

/-- R190 (06), [6:0] RO, reset fuse: Logical number -/
def Fld.CLU_INFO_logical : Fld :=
  { kind := .clu, off := 0x100, stride := 0x0, count := 1, lo := 0, width := 7, acc := .ro, reset := 0x0, ret := false, fuse := true }

/-- R190 (06), [10:8] RO, reset fuse: Physical number div 9; rail group -/
def Fld.CLU_INFO_section : Fld :=
  { kind := .clu, off := 0x100, stride := 0x0, count := 1, lo := 8, width := 3, acc := .ro, reset := 0x0, ret := false, fuse := true }

/-- R190 (06), [14:12] RO, reset hw: Partition, valid when in_part = 1 -/
def Fld.CLU_INFO_partition : Fld :=
  { kind := .clu, off := 0x100, stride := 0x0, count := 1, lo := 12, width := 3, acc := .ro, reset := 0x0, ret := false }

/-- R190 (06), [15] RO, reset hw: Belongs to a partition -/
def Fld.CLU_INFO_in_part : Fld :=
  { kind := .clu, off := 0x100, stride := 0x0, count := 1, lo := 15, width := 1, acc := .ro, reset := 0x0, ret := false }

/-- R190 (06), [21:16] RO, reset hw: Position in the partition (R162) -/
def Fld.CLU_INFO_position : Fld :=
  { kind := .clu, off := 0x100, stride := 0x0, count := 1, lo := 16, width := 6, acc := .ro, reset := 0x0, ret := false }

/-- R190 (06), [10:0] RW, reset ret 0x0: R161 -/
def Fld.CLU_SRAM_CFG_lb_kib : Fld :=
  { kind := .clu, off := 0x104, stride := 0x0, count := 1, lo := 0, width := 11, acc := .rw, reset := 0x0, ret := true }

/-- R190 (06), [8:0] RO, reset hw: Tile threads not FREE -/
def Fld.CLU_THREADS_active : Fld :=
  { kind := .clu, off := 0x108, stride := 0x0, count := 1, lo := 0, width := 9, acc := .ro, reset := 0x0, ret := false }

/-- R190 (06), [24:16] RO, reset 0x0: Highest active since clear -/
def Fld.CLU_THREADS_peak : Fld :=
  { kind := .clu, off := 0x108, stride := 0x0, count := 1, lo := 16, width := 9, acc := .ro, reset := 0x0, ret := false }

/-- R190 (06), [9:0] RO, reset hw: Outstanding HBM reads -/
def Fld.CLU_RD_OUT : Fld :=
  { kind := .clu, off := 0x10C, stride := 0x0, count := 1, lo := 0, width := 10, acc := .ro, reset := 0x0, ret := false }

/-- R190 (06), [31:0] RO, reset 0x0: Corrected SRAM errors -/
def Fld.CLU_ECC_CE : Fld :=
  { kind := .clu, off := 0x110, stride := 0x0, count := 1, lo := 0, width := 32, acc := .ro, reset := 0x0, ret := false }

/-- R190 (06), [31:0] RO, reset 0x0: Uncorrectable SRAM errors -/
def Fld.CLU_ECC_UE : Fld :=
  { kind := .clu, off := 0x114, stride := 0x0, count := 1, lo := 0, width := 32, acc := .ro, reset := 0x0, ret := false }

/-- R190 (06), [21:0] RO, reset 0x0: SRAM byte address of the last error -/
def Fld.CLU_ECC_ADDR_addr : Fld :=
  { kind := .clu, off := 0x118, stride := 0x0, count := 1, lo := 0, width := 22, acc := .ro, reset := 0x0, ret := false }

/-- R190 (06), [31] RO, reset 0x0: Last error was uncorrectable -/
def Fld.CLU_ECC_ADDR_ue : Fld :=
  { kind := .clu, off := 0x118, stride := 0x0, count := 1, lo := 31, width := 1, acc := .ro, reset := 0x0, ret := false }

/-- R190 (06), [15:0] RW, reset ret 0x0100: Corrected errors per 1 ms window for SRAM_CE_THR -/
def Fld.CLU_CE_THR : Fld :=
  { kind := .clu, off := 0x11C, stride := 0x0, count := 1, lo := 0, width := 16, acc := .rw, reset := 0x100, ret := true }

/-- R190 (06), [63:0] RO, reset 0x0: Tiles completed -/
def Fld.CLU_TILES_DONE : Fld :=
  { kind := .clu, off := 0x120, stride := 0x0, count := 1, lo := 0, width := 64, acc := .ro, reset := 0x0, ret := false }

/-- R190 (06), [31:0] RO, reset 0x0: Window resets raised here -/
def Fld.CLU_CNT_WRESET : Fld :=
  { kind := .clu, off := 0x128, stride := 0x0, count := 1, lo := 0, width := 32, acc := .ro, reset := 0x0, ret := false }

/-- R190 (06), [0] WO, reset 0x0: Clears the counters -/
def Fld.CLU_CNT_CLR : Fld :=
  { kind := .clu, off := 0x12C, stride := 0x0, count := 1, lo := 0, width := 1, acc := .wo, reset := 0x0, ret := false }

/-! ## Page kind `arr` -/

/-- R191 (06), [6:0] RO, reset fuse: Enabled clusters, 64 or 48 -/
def Fld.ARR_ENABLED : Fld :=
  { kind := .arr, off := 0x100, stride := 0x0, count := 1, lo := 0, width := 7, acc := .ro, reset := 0x0, ret := false, fuse := true }

/-- R191 (06), [31:0] RO, reset fuse: Enabled clusters in section j at bits [4j+3:4j] -/
def Fld.ARR_SECTIONS : Fld :=
  { kind := .arr, off := 0x104, stride := 0x0, count := 1, lo := 0, width := 32, acc := .ro, reset := 0x0, ret := false, fuse := true }

/-- R191 (06), [63:0] RO, reset hw: One bit per logical cluster retired (R189) -/
def Fld.ARR_RETIRED : Fld :=
  { kind := .arr, off := 0x108, stride := 0x0, count := 1, lo := 0, width := 64, acc := .ro, reset := 0x0, ret := false }

/-! ## Page kind `fwn` -/

/-- R192 (06), [2:0] RW, reset ret 0x0: Fawn partition (R180) -/
def Fld.FWN_CFG_lc_part : Fld :=
  { kind := .fwn, off := 0x100, stride := 0x0, count := 1, lo := 0, width := 3, acc := .rw, reset := 0x0, ret := true }

/-- R192 (06), [7] RW, reset ret 0x0: 1 = lc_part names the Fawn partition -/
def Fld.FWN_CFG_lc_valid : Fld :=
  { kind := .fwn, off := 0x100, stride := 0x0, count := 1, lo := 7, width := 1, acc := .rw, reset := 0x0, ret := true }

/-- R192 (06), [2:0] RO, reset hw: Partition of the running pass -/
def Fld.FWN_STATUS_pass_part : Fld :=
  { kind := .fwn, off := 0x104, stride := 0x0, count := 1, lo := 0, width := 3, acc := .ro, reset := 0x0, ret := false }

/-- R192 (06), [7] RO, reset hw: A pass is running -/
def Fld.FWN_STATUS_busy : Fld :=
  { kind := .fwn, off := 0x104, stride := 0x0, count := 1, lo := 7, width := 1, acc := .ro, reset := 0x0, ret := false }

/-- R192 (06), [8] RO, reset hw: A BE pass is suspended (R181) -/
def Fld.FWN_STATUS_be_suspended : Fld :=
  { kind := .fwn, off := 0x104, stride := 0x0, count := 1, lo := 8, width := 1, acc := .ro, reset := 0x0, ret := false }

/-- R192 (06), [31:0] RO, reset 0x0: Passes completed -/
def Fld.FWN_PASSES : Fld :=
  { kind := .fwn, off := 0x108, stride := 0x0, count := 1, lo := 0, width := 32, acc := .ro, reset := 0x0, ret := false }

/-- R192 (06), [31:0] RO, reset 0x0: BE passes suspended -/
def Fld.FWN_SUSPENDS : Fld :=
  { kind := .fwn, off := 0x10C, stride := 0x0, count := 1, lo := 0, width := 32, acc := .ro, reset := 0x0, ret := false }

/-- R192 (06), [31:0] RO, reset 0x0: Corrected Fawn SRAM errors -/
def Fld.FWN_ECC_CE : Fld :=
  { kind := .fwn, off := 0x110, stride := 0x0, count := 1, lo := 0, width := 32, acc := .ro, reset := 0x0, ret := false }

/-- R192 (06), [31:0] RO, reset 0x0: Uncorrectable Fawn SRAM errors -/
def Fld.FWN_ECC_UE : Fld :=
  { kind := .fwn, off := 0x114, stride := 0x0, count := 1, lo := 0, width := 32, acc := .ro, reset := 0x0, ret := false }

/-- R192 (06), [15:0] RW, reset ret 0x0100: As CLU_CE_THR -/
def Fld.FWN_CE_THR : Fld :=
  { kind := .fwn, off := 0x118, stride := 0x0, count := 1, lo := 0, width := 16, acc := .rw, reset := 0x100, ret := true }

/-- R192 (06), [0] WO, reset 0x0: Clears the counters -/
def Fld.FWN_CNT_CLR : Fld :=
  { kind := .fwn, off := 0x11C, stride := 0x0, count := 1, lo := 0, width := 1, acc := .wo, reset := 0x0, ret := false }

/-! ## Page kind `atn` -/

/-- R287 (09), [3:0] RO, reset fuse: Attention engines, 8 -/
def Fld.ATN_INFO_engines : Fld :=
  { kind := .atn, off := 0x100, stride := 0x0, count := 1, lo := 0, width := 4, acc := .ro, reset := 0x0, ret := false, fuse := true }

/-- R287 (09), [7:0] RO, reset hw: One bit per engine running a work unit -/
def Fld.ATN_ENG_BUSY : Fld :=
  { kind := .atn, off := 0x104, stride := 0x0, count := 1, lo := 0, width := 8, acc := .ro, reset := 0x0, ret := false }

/-- R287 (09), [11:0] RW, reset 0x0: Table shown at 0x10C, 0x110 and 0x400 -/
def Fld.ATN_TBL_SEL : Fld :=
  { kind := .atn, off := 0x108, stride := 0x0, count := 1, lo := 0, width := 12, acc := .rw, reset := 0x0, ret := false }

/-- R287 (09), [1:0] RO, reset hw: 0 = FREE, 1 = OPEN, 2 = RELEASING -/
def Fld.ATN_TBL_INFO_state : Fld :=
  { kind := .atn, off := 0x10C, stride := 0x0, count := 1, lo := 0, width := 2, acc := .ro, reset := 0x0, ret := false }

/-- R287 (09), [6:4] RO, reset hw: Pool of the table -/
def Fld.ATN_TBL_INFO_pool : Fld :=
  { kind := .atn, off := 0x10C, stride := 0x0, count := 1, lo := 4, width := 3, acc := .ro, reset := 0x0, ret := false }

/-- R287 (09), [7] RO, reset hw: 0 = no pool (R264) -/
def Fld.ATN_TBL_INFO_pool_valid : Fld :=
  { kind := .atn, off := 0x10C, stride := 0x0, count := 1, lo := 7, width := 1, acc := .ro, reset := 0x0, ret := false }

/-- R287 (09), [15:8] RO, reset hw: Record generation -/
def Fld.ATN_TBL_INFO_gen : Fld :=
  { kind := .atn, off := 0x10C, stride := 0x0, count := 1, lo := 8, width := 8, acc := .ro, reset := 0x0, ret := false }

/-- R287 (09), [24:16] RO, reset hw: Entries in use, 0 to 256 -/
def Fld.ATN_TBL_INFO_pages : Fld :=
  { kind := .atn, off := 0x10C, stride := 0x0, count := 1, lo := 16, width := 9, acc := .ro, reset := 0x0, ret := false }

/-- R287 (09), [28] RO, reset hw: R265, R286 -/
def Fld.ATN_TBL_INFO_trunc : Fld :=
  { kind := .atn, off := 0x10C, stride := 0x0, count := 1, lo := 28, width := 1, acc := .ro, reset := 0x0, ret := false }

/-- R287 (09), [31:0] RO, reset hw: Valid tokens in the table -/
def Fld.ATN_TBL_TOKENS : Fld :=
  { kind := .atn, off := 0x110, stride := 0x0, count := 1, lo := 0, width := 32, acc := .ro, reset := 0x0, ret := false }

/-- R287 (09), [12:0] RO, reset hw: Tables not FREE -/
def Fld.ATN_TBL_OPEN : Fld :=
  { kind := .atn, off := 0x114, stride := 0x0, count := 1, lo := 0, width := 13, acc := .ro, reset := 0x0, ret := false }

/-- R287 (09), [15:0] RW, reset ret 0x0064: KVREQ timeout, 1 to 65,535 µs -/
def Fld.ATN_PEER_TMO : Fld :=
  { kind := .atn, off := 0x118, stride := 0x0, count := 1, lo := 0, width := 16, acc := .rw, reset := 0x64, ret := true, rng := [(1, 65535)] }

/-- R287 (09), [15:0] RW, reset ret 0x0100: R286 -/
def Fld.ATN_CE_THR : Fld :=
  { kind := .atn, off := 0x11C, stride := 0x0, count := 1, lo := 0, width := 16, acc := .rw, reset := 0x100, ret := true }

/-- R287 (09), [31:0] RO, reset 0x0: Corrected errors -/
def Fld.ATN_ECC_CE : Fld :=
  { kind := .atn, off := 0x120, stride := 0x0, count := 1, lo := 0, width := 32, acc := .ro, reset := 0x0, ret := false }

/-- R287 (09), [31:0] RO, reset 0x0: Uncorrectable errors -/
def Fld.ATN_ECC_UE : Fld :=
  { kind := .atn, off := 0x124, stride := 0x0, count := 1, lo := 0, width := 32, acc := .ro, reset := 0x0, ret := false }

/-- R287 (09), [31:0] RO, reset 0x0: Tokens not stored for want of a pool -/
def Fld.ATN_CNT_NOPOOL : Fld :=
  { kind := .atn, off := 0x128, stride := 0x0, count := 1, lo := 0, width := 32, acc := .ro, reset := 0x0, ret := false }

/-- R287 (09), [31:0] RO, reset 0x0: Query tokens with no valid key (R271) -/
def Fld.ATN_CNT_EMPTYQ : Fld :=
  { kind := .atn, off := 0x12C, stride := 0x0, count := 1, lo := 0, width := 32, acc := .ro, reset := 0x0, ret := false }

/-- R287 (09), [63:0] RO, reset 0x0: Key blocks processed -/
def Fld.ATN_BLOCKS : Fld :=
  { kind := .atn, off := 0x130, stride := 0x0, count := 1, lo := 0, width := 64, acc := .ro, reset := 0x0, ret := false }

/-- R287 (09), [0] WO, reset 0x0: Clears the counters -/
def Fld.ATN_CNT_CLR : Fld :=
  { kind := .atn, off := 0x13C, stride := 0x0, count := 1, lo := 0, width := 1, acc := .wo, reset := 0x0, ret := false }

/-! ## Page kind `atnPool` -/

/-- R288 (09), [3:0] RW, reset ret 0x7: 4 to 9, for 16 to 512 tokens; others under R13 -/
def Fld.ATN_POOL_FMT_page_log2 : Fld :=
  { kind := .atnPool, off := 0x100, stride := 0x0, count := 1, lo := 0, width := 4, acc := .rw, reset := 0x7, ret := true, rng := [(4, 9)] }

/-- R288 (09), [5:4] RW, reset ret 0x0: R262 -/
def Fld.ATN_POOL_FMT_kfmt : Fld :=
  { kind := .atnPool, off := 0x100, stride := 0x0, count := 1, lo := 4, width := 2, acc := .rw, reset := 0x0, ret := true }

/-- R288 (09), [9:8] RW, reset ret 0x0: R262 -/
def Fld.ATN_POOL_FMT_vfmt : Fld :=
  { kind := .atnPool, off := 0x100, stride := 0x0, count := 1, lo := 8, width := 2, acc := .rw, reset := 0x0, ret := true }

/-- R288 (09), [15:12] RW, reset ret 0x0: Heads minus 1, for 1 to 16 -/
def Fld.ATN_POOL_FMT_heads_m1 : Fld :=
  { kind := .atnPool, off := 0x100, stride := 0x0, count := 1, lo := 12, width := 4, acc := .rw, reset := 0x0, ret := true }

/-- R288 (09), [16] RW, reset ret 0x0: R270 -/
def Fld.ATN_POOL_FMT_rope : Fld :=
  { kind := .atnPool, off := 0x100, stride := 0x0, count := 1, lo := 16, width := 1, acc := .rw, reset := 0x0, ret := true }

/-- R288 (09), [29:24] RW, reset ret 0x08: Tokens per grid row, 1 to 32 -/
def Fld.ATN_POOL_FMT_grid_w : Fld :=
  { kind := .atnPool, off := 0x100, stride := 0x0, count := 1, lo := 24, width := 6, acc := .rw, reset := 0x8, ret := true }

/-- R288 (09), [7:0] RW, reset ret 0x40: 16 to 128, a multiple of 16 -/
def Fld.ATN_POOL_DIM_dk : Fld :=
  { kind := .atnPool, off := 0x104, stride := 0x0, count := 1, lo := 0, width := 8, acc := .rw, reset := 0x40, ret := true }

/-- R288 (09), [15:8] RW, reset ret 0x40: As dk -/
def Fld.ATN_POOL_DIM_dv : Fld :=
  { kind := .atnPool, off := 0x104, stride := 0x0, count := 1, lo := 8, width := 8, acc := .rw, reset := 0x40, ret := true }

/-- R288 (09), [63:0] RW, reset ret 0x0: Local pages, device address in the owning partition's region, 4 KiB aligned -/
def Fld.ATN_POOL_BASE : Fld :=
  { kind := .atnPool, off := 0x108, stride := 0x0, count := 1, lo := 0, width := 64, acc := .rw, reset := 0x0, ret := true }

/-- R288 (09), [15:0] RW, reset ret 0x0: Local pages, 1 to 65,535 -/
def Fld.ATN_POOL_PAGES : Fld :=
  { kind := .atnPool, off := 0x110, stride := 0x0, count := 1, lo := 0, width := 16, acc := .rw, reset := 0x0, ret := true }

/-- R288 (09), [23:0] RO, reset hw: Page stride in bytes (R263) -/
def Fld.ATN_POOL_STRIDE : Fld :=
  { kind := .atnPool, off := 0x114, stride := 0x0, count := 1, lo := 0, width := 24, acc := .ro, reset := 0x0, ret := false }

/-- R288 (09), [15:0] RW, reset ret 0x0: R264 -/
def Fld.ATN_POOL_SEL_w_min : Fld :=
  { kind := .atnPool, off := 0x118, stride := 0x0, count := 1, lo := 0, width := 16, acc := .rw, reset := 0x0, ret := true }

/-- R288 (09), [31:16] RW, reset ret 0x0: R264; 0 = no upper limit -/
def Fld.ATN_POOL_SEL_w_max : Fld :=
  { kind := .atnPool, off := 0x118, stride := 0x0, count := 1, lo := 16, width := 16, acc := .rw, reset := 0x0, ret := true }

/-- R288 (09), [31:0] RW, reset ret 0x3580_0000: Least page scale, binary32; factory value 2^-20 -/
def Fld.ATN_POOL_SMIN : Fld :=
  { kind := .atnPool, off := 0x11C, stride := 0x0, count := 1, lo := 0, width := 32, acc := .rw, reset := 0x35800000, ret := true }

/-- R288 (09), [63:0] RW, reset ret 0x0: Frequency table, device address in the owning partition's region, 4-byte aligned -/
def Fld.ATN_POOL_ROPE_BASE : Fld :=
  { kind := .atnPool, off := 0x120, stride := 0x0, count := 1, lo := 0, width := 64, acc := .rw, reset := 0x0, ret := true }

/-- R288 (09), [1:0] RW, reset ret 0x0: 0 = LOCAL, 1 = HOME, 2 = REMOTE -/
def Fld.ATN_POOL_ROLE_role : Fld :=
  { kind := .atnPool, off := 0x128, stride := 0x0, count := 1, lo := 0, width := 2, acc := .rw, reset := 0x0, ret := true, rng := [(0, 2)] }

/-- R288 (09), [6:4] RW, reset ret 0x0: Peer group of a REMOTE pool -/
def Fld.ATN_POOL_ROLE_group : Fld :=
  { kind := .atnPool, off := 0x128, stride := 0x0, count := 1, lo := 4, width := 3, acc := .rw, reset := 0x0, ret := true }

/-- R288 (09), [10:8] RW, reset ret 0x0: Home pool number on the peer -/
def Fld.ATN_POOL_ROLE_peer_pool : Fld :=
  { kind := .atnPool, off := 0x128, stride := 0x0, count := 1, lo := 8, width := 3, acc := .rw, reset := 0x0, ret := true }

/-- R288 (09), [21:16] RW, reset ret 0x0: HOME: bit k accepts group PLk -/
def Fld.ATN_POOL_ROLE_home_groups : Fld :=
  { kind := .atnPool, off := 0x128, stride := 0x0, count := 1, lo := 16, width := 6, acc := .rw, reset := 0x0, ret := true }

/-- R288 (09), [15:0] RW, reset ret 0x0: REMOTE: first home page -/
def Fld.ATN_POOL_RANGE_first : Fld :=
  { kind := .atnPool, off := 0x12C, stride := 0x0, count := 1, lo := 0, width := 16, acc := .rw, reset := 0x0, ret := true }

/-- R288 (09), [31:16] RW, reset ret 0x0: REMOTE: home pages -/
def Fld.ATN_POOL_RANGE_count : Fld :=
  { kind := .atnPool, off := 0x12C, stride := 0x0, count := 1, lo := 16, width := 16, acc := .rw, reset := 0x0, ret := true }

/-- R288 (09), [16:0] RO, reset hw: Free local pages -/
def Fld.ATN_POOL_FREE : Fld :=
  { kind := .atnPool, off := 0x130, stride := 0x0, count := 1, lo := 0, width := 17, acc := .ro, reset := 0x0, ret := false }

/-- R288 (09), [16:0] RO, reset hw: Free home pages of a REMOTE range -/
def Fld.ATN_POOL_RFREE : Fld :=
  { kind := .atnPool, off := 0x134, stride := 0x0, count := 1, lo := 0, width := 17, acc := .ro, reset := 0x0, ret := false }

/-- R288 (09), [31:0] RO, reset 0x0: R269 -/
def Fld.ATN_POOL_SAT : Fld :=
  { kind := .atnPool, off := 0x140, stride := 0x0, count := 1, lo := 0, width := 32, acc := .ro, reset := 0x0, ret := false }

/-- R288 (09), [31:0] RO, reset 0x0: R265 -/
def Fld.ATN_POOL_DROP : Fld :=
  { kind := .atnPool, off := 0x144, stride := 0x0, count := 1, lo := 0, width := 32, acc := .ro, reset := 0x0, ret := false }

/-- R288 (09), [31:0] RO, reset 0x0: R278 -/
def Fld.ATN_POOL_MASKED : Fld :=
  { kind := .atnPool, off := 0x148, stride := 0x0, count := 1, lo := 0, width := 32, acc := .ro, reset := 0x0, ret := false }

/-- R288 (09), [31:0] RO, reset 0x0: R284 -/
def Fld.ATN_POOL_MISSING : Fld :=
  { kind := .atnPool, off := 0x14C, stride := 0x0, count := 1, lo := 0, width := 32, acc := .ro, reset := 0x0, ret := false }

/-- R288 (09), [31:0] RO, reset 0x0: R267, R271, R285 -/
def Fld.ATN_POOL_SKIP : Fld :=
  { kind := .atnPool, off := 0x150, stride := 0x0, count := 1, lo := 0, width := 32, acc := .ro, reset := 0x0, ret := false }

/-- R288 (09), [0] WO, reset 0x0: Clears the counters -/
def Fld.ATN_POOL_CNT_CLR : Fld :=
  { kind := .atnPool, off := 0x15C, stride := 0x0, count := 1, lo := 0, width := 1, acc := .wo, reset := 0x0, ret := false }

/-! ## Page kind `memPc` -/

/-- R321 (10), [0] RO, reset fuse: Stack 0 or 1 -/
def Fld.MEM_PC_INFO_stack : Fld :=
  { kind := .memPc, off := 0x100, stride := 0x0, count := 1, lo := 0, width := 1, acc := .ro, reset := 0x0, ret := false, fuse := true }

/-- R321 (10), [4:1] RO, reset fuse: Channel in the stack, 0 to 15 -/
def Fld.MEM_PC_INFO_channel : Fld :=
  { kind := .memPc, off := 0x100, stride := 0x0, count := 1, lo := 1, width := 4, acc := .ro, reset := 0x0, ret := false, fuse := true }

/-- R321 (10), [5] RO, reset fuse: Pseudo-channel in the channel -/
def Fld.MEM_PC_INFO_pseudo : Fld :=
  { kind := .memPc, off := 0x100, stride := 0x0, count := 1, lo := 5, width := 1, acc := .ro, reset := 0x0, ret := false, fuse := true }

/-- R321 (10), [15:8] RO, reset hw: Bit p: enabled region p uses this pseudo-channel -/
def Fld.MEM_PC_INFO_regions : Fld :=
  { kind := .memPc, off := 0x100, stride := 0x0, count := 1, lo := 8, width := 8, acc := .ro, reset := 0x0, ret := false }

/-- R321 (10), [15:0] RW, reset ret 0x0040: R315 -/
def Fld.MEM_PC_CE_THR : Fld :=
  { kind := .memPc, off := 0x104, stride := 0x0, count := 1, lo := 0, width := 16, acc := .rw, reset := 0x40, ret := true }

/-- R321 (10), [31:0] RO, reset 0x0: Corrected errors -/
def Fld.MEM_PC_CE : Fld :=
  { kind := .memPc, off := 0x108, stride := 0x0, count := 1, lo := 0, width := 32, acc := .ro, reset := 0x0, ret := false }

/-- R321 (10), [31:0] RO, reset 0x0: Uncorrectable errors consumed -/
def Fld.MEM_PC_UE : Fld :=
  { kind := .memPc, off := 0x10C, stride := 0x0, count := 1, lo := 0, width := 32, acc := .ro, reset := 0x0, ret := false }

/-- R321 (10), [23:0] RO, reset 0x0: Local line of the last error -/
def Fld.MEM_PC_ERR_ADDR_line : Fld :=
  { kind := .memPc, off := 0x110, stride := 0x0, count := 1, lo := 0, width := 24, acc := .ro, reset := 0x0, ret := false }

/-- R321 (10), [31] RO, reset 0x0: Last error was uncorrectable -/
def Fld.MEM_PC_ERR_ADDR_ue : Fld :=
  { kind := .memPc, off := 0x110, stride := 0x0, count := 1, lo := 31, width := 1, acc := .ro, reset := 0x0, ret := false }

/-- R321 (10), [31:0] RO, reset 0x0: Uncorrectable errors found by scrub -/
def Fld.MEM_PC_LATENT : Fld :=
  { kind := .memPc, off := 0x114, stride := 0x0, count := 1, lo := 0, width := 32, acc := .ro, reset := 0x0, ret := false }

/-- R321 (10), [31:0] RO, reset 0x0: Corrected-line write-backs (R312) -/
def Fld.MEM_PC_WB : Fld :=
  { kind := .memPc, off := 0x118, stride := 0x0, count := 1, lo := 0, width := 32, acc := .ro, reset := 0x0, ret := false }

/-- R321 (10), [63:0] RO, reset 0x0: Reads -/
def Fld.MEM_PC_RD : Fld :=
  { kind := .memPc, off := 0x120, stride := 0x0, count := 1, lo := 0, width := 64, acc := .ro, reset := 0x0, ret := false }

/-- R321 (10), [63:0] RO, reset 0x0: Writes -/
def Fld.MEM_PC_WR : Fld :=
  { kind := .memPc, off := 0x128, stride := 0x0, count := 1, lo := 0, width := 64, acc := .ro, reset := 0x0, ret := false }

/-- R321 (10), [31:0] RO, reset 0x0: Refresh occurrences -/
def Fld.MEM_PC_REFRESH : Fld :=
  { kind := .memPc, off := 0x130, stride := 0x0, count := 1, lo := 0, width := 32, acc := .ro, reset := 0x0, ret := false }

/-- R321 (10), [0] WO, reset 0x0: Clears the counters -/
def Fld.MEM_PC_CNT_CLR : Fld :=
  { kind := .memPc, off := 0x13C, stride := 0x0, count := 1, lo := 0, width := 1, acc := .wo, reset := 0x0, ret := false }

/-! ## Page kind `mem` -/

/-- R322 (10), [6:0] RO, reset fuse: Pseudo-channels, 64 -/
def Fld.MEM_INFO_pcs : Fld :=
  { kind := .mem, off := 0x100, stride := 0x0, count := 1, lo := 0, width := 7, acc := .ro, reset := 0x0, ret := false, fuse := true }

/-- R322 (10), [14:8] RO, reset hw: Pseudo-channels not retired -/
def Fld.MEM_INFO_healthy : Fld :=
  { kind := .mem, off := 0x100, stride := 0x0, count := 1, lo := 8, width := 7, acc := .ro, reset := 0x0, ret := false }

/-- R322 (10), [0] RW, reset ret 0x1: 0 = OFF, 1 = BACKGROUND (R35) -/
def Fld.MEM_SCRUB_mode : Fld :=
  { kind := .mem, off := 0x104, stride := 0x0, count := 1, lo := 0, width := 1, acc := .rw, reset := 0x1, ret := true }

/-- R322 (10), [15:8] RW, reset ret 0x08: 1 to 255 µs; 0 under R13 -/
def Fld.MEM_SCRUB_gap_us : Fld :=
  { kind := .mem, off := 0x104, stride := 0x0, count := 1, lo := 8, width := 8, acc := .rw, reset := 0x8, ret := true, rng := [(1, 255)] }

/-- R322 (10), [31:0] RO, reset 0x0: Completed passes -/
def Fld.MEM_SCRUB_PASSES : Fld :=
  { kind := .mem, off := 0x108, stride := 0x0, count := 1, lo := 0, width := 32, acc := .ro, reset := 0x0, ret := false }

/-- R322 (10), [23:0] RO, reset hw: Local line reached -/
def Fld.MEM_SCRUB_POS : Fld :=
  { kind := .mem, off := 0x10C, stride := 0x0, count := 1, lo := 0, width := 24, acc := .ro, reset := 0x0, ret := false }

/-- R322 (10), [63:0] RO, reset hw: One bit per retired pseudo-channel -/
def Fld.MEM_RETIRED : Fld :=
  { kind := .mem, off := 0x110, stride := 0x0, count := 1, lo := 0, width := 64, acc := .ro, reset := 0x0, ret := false }

/-- R322 (10), [14:0] RO, reset hw: Outstanding reads, at most 16,384 -/
def Fld.MEM_RD_OUT : Fld :=
  { kind := .mem, off := 0x118, stride := 0x0, count := 1, lo := 0, width := 15, acc := .ro, reset := 0x0, ret := false }

/-- R322 (10), [0] WO, reset 0x0: Clears MEM_SCRUB_PASSES -/
def Fld.MEM_CNT_CLR : Fld :=
  { kind := .mem, off := 0x11C, stride := 0x0, count := 1, lo := 0, width := 1, acc := .wo, reset := 0x0, ret := false }

/-! ## Page kind `memPart` -/

/-- R323 (10), [35:0] RW, reset ret 0x0: Device address base, 1 MiB aligned (R292) -/
def Fld.MEM_PART_BASE : Fld :=
  { kind := .memPart, off := 0x100, stride := 0x0, count := 1, lo := 0, width := 36, acc := .rw, reset := 0x0, ret := true }

/-- R323 (10), [63:0] RW, reset ret 0x0: Pseudo-channel set -/
def Fld.MEM_PART_MASK : Fld :=
  { kind := .memPart, off := 0x108, stride := 0x0, count := 1, lo := 0, width := 64, acc := .rw, reset := 0x0, ret := true }

/-- R323 (10), [9:0] RW, reset ret 0x0: Slice start, 0 to 767 -/
def Fld.MEM_PART_SLICE_base_mib : Fld :=
  { kind := .memPart, off := 0x110, stride := 0x0, count := 1, lo := 0, width := 10, acc := .rw, reset := 0x0, ret := true }

/-- R323 (10), [25:16] RW, reset ret 0x0: Slice size, 1 to 768 -/
def Fld.MEM_PART_SLICE_size_mib : Fld :=
  { kind := .memPart, off := 0x110, stride := 0x0, count := 1, lo := 16, width := 10, acc := .rw, reset := 0x0, ret := true }

/-- R323 (10), [63:0] RO, reset hw: Region bytes -/
def Fld.MEM_PART_SIZE : Fld :=
  { kind := .memPart, off := 0x118, stride := 0x0, count := 1, lo := 0, width := 64, acc := .ro, reset := 0x0, ret := false }

/-- R323 (10), [15:0] RWS, reset ret 0x0: R, units per µs -/
def Fld.MEM_BW_RES : Fld :=
  { kind := .memPart, off := 0x120, stride := 0x0, count := 1, lo := 0, width := 16, acc := .rws, reset := 0x0, ret := true }

/-- R323 (10), [15:0] RWS, reset ret 0x6400: C, units per µs -/
def Fld.MEM_BW_CEIL : Fld :=
  { kind := .memPart, off := 0x124, stride := 0x0, count := 1, lo := 0, width := 16, acc := .rws, reset := 0x6400, ret := true }

/-- R323 (10), [15:0] RWS, reset ret 0x0: B, units -/
def Fld.MEM_BW_BURST : Fld :=
  { kind := .memPart, off := 0x128, stride := 0x0, count := 1, lo := 0, width := 16, acc := .rws, reset := 0x0, ret := true }

/-- R323 (10), [15:0] RO, reset hw: Units used in the last window -/
def Fld.MEM_BW_USED_last : Fld :=
  { kind := .memPart, off := 0x12C, stride := 0x0, count := 1, lo := 0, width := 16, acc := .ro, reset := 0x0, ret := false }

/-- R323 (10), [31:16] RO, reset hw: Units of them borrowed -/
def Fld.MEM_BW_USED_borrowed : Fld :=
  { kind := .memPart, off := 0x12C, stride := 0x0, count := 1, lo := 16, width := 16, acc := .ro, reset := 0x0, ret := false }

/-- R323 (10), [63:0] RO, reset 0x0: Requests deferred at the ceiling -/
def Fld.MEM_BW_WAIT : Fld :=
  { kind := .memPart, off := 0x130, stride := 0x0, count := 1, lo := 0, width := 64, acc := .ro, reset := 0x0, ret := false }

/-- R323 (10), [31:0] RO, reset 0x0: R313 -/
def Fld.MEM_CNT_HOST_UE : Fld :=
  { kind := .memPart, off := 0x138, stride := 0x0, count := 1, lo := 0, width := 32, acc := .ro, reset := 0x0, ret := false }

/-- R323 (10), [31:0] RO, reset 0x0: R310 -/
def Fld.MEM_CNT_CODEC_BAD : Fld :=
  { kind := .memPart, off := 0x13C, stride := 0x0, count := 1, lo := 0, width := 32, acc := .ro, reset := 0x0, ret := false }

/-- R323 (10), [0] WO, reset 0x0: Clears the counters -/
def Fld.MEM_PART_CNT_CLR : Fld :=
  { kind := .memPart, off := 0x140, stride := 0x0, count := 1, lo := 0, width := 1, acc := .wo, reset := 0x0, ret := false }

/-! ## Page kind `enc` -/

/-- R349 (11), [1:0] RW, reset ret 0x0: 0 = INC, 1 = ABS, 2 = SINCOS -/
def Fld.ENC_CFG_mode : Fld :=
  { kind := .enc, off := 0x100, stride := 0x0, count := 1, lo := 0, width := 2, acc := .rw, reset := 0x0, ret := true, rng := [(0, 2)] }

/-- R349 (11), [4] RW, reset ret 0x0: R326 -/
def Fld.ENC_CFG_invert : Fld :=
  { kind := .enc, off := 0x100, stride := 0x0, count := 1, lo := 4, width := 1, acc := .rw, reset := 0x0, ret := true }

/-- R349 (11), [9:8] RW, reset ret 0x0: 0 to 3 (R327) -/
def Fld.ENC_CFG_filter : Fld :=
  { kind := .enc, off := 0x100, stride := 0x0, count := 1, lo := 8, width := 2, acc := .rw, reset := 0x0, ret := true }

/-- R349 (11), [12] RW, reset ret 0x0: R334 -/
def Fld.ENC_CFG_z_gate : Fld :=
  { kind := .enc, off := 0x100, stride := 0x0, count := 1, lo := 12, width := 1, acc := .rw, reset := 0x0, ret := true }

/-- R349 (11), [23:16] RW, reset ret 0x08: 1 to 255 (R340) -/
def Fld.ENC_CFG_fault_n : Fld :=
  { kind := .enc, off := 0x100, stride := 0x0, count := 1, lo := 16, width := 8, acc := .rw, reset := 0x8, ret := true }

/-- R349 (11), [5:0] RW, reset ret 0x1A: 8 to 48 -/
def Fld.ENC_ABS_bits : Fld :=
  { kind := .enc, off := 0x104, stride := 0x0, count := 1, lo := 0, width := 6, acc := .rw, reset := 0x1A, ret := true }

/-- R349 (11), [8] RW, reset ret 0x0: R329 -/
def Fld.ENC_ABS_gray : Fld :=
  { kind := .enc, off := 0x104, stride := 0x0, count := 1, lo := 8, width := 1, acc := .rw, reset := 0x0, ret := true }

/-- R349 (11), [9] RW, reset ret 0x0: R329 -/
def Fld.ENC_ABS_crc : Fld :=
  { kind := .enc, off := 0x104, stride := 0x0, count := 1, lo := 9, width := 1, acc := .rw, reset := 0x0, ret := true }

/-- R349 (11), [14:12] RW, reset ret 0x0: 0 to 7 -/
def Fld.ENC_ABS_status_bits : Fld :=
  { kind := .enc, off := 0x104, stride := 0x0, count := 1, lo := 12, width := 3, acc := .rw, reset := 0x0, ret := true }

/-- R349 (11), [20:16] RW, reset ret 0x02: 0 to 31 (R328) -/
def Fld.ENC_ABS_wait_max : Fld :=
  { kind := .enc, off := 0x104, stride := 0x0, count := 1, lo := 16, width := 5, acc := .rw, reset := 0x2, ret := true }

/-- R349 (11), [11:0] RW, reset ret 0x190: 40 to 4,000 -/
def Fld.ENC_ABS_CLK_div : Fld :=
  { kind := .enc, off := 0x108, stride := 0x0, count := 1, lo := 0, width := 12, acc := .rw, reset := 0x190, ret := true }

/-- R349 (11), [23:16] RW, reset ret 0x0: IOCLK ticks -/
def Fld.ENC_ABS_CLK_sample_dly : Fld :=
  { kind := .enc, off := 0x108, stride := 0x0, count := 1, lo := 16, width := 8, acc := .rw, reset := 0x0, ret := true }

/-- R349 (11), [4:0] RW, reset ret 0x0: Compare unit (R330) -/
def Fld.ENC_ABS_REQ_cmp : Fld :=
  { kind := .enc, off := 0x10C, stride := 0x0, count := 1, lo := 0, width := 5, acc := .rw, reset := 0x0, ret := true }

/-- R349 (11), [15:8] RW, reset ret 0x14: 1 to 255 µs -/
def Fld.ENC_ABS_REQ_tm_us : Fld :=
  { kind := .enc, off := 0x10C, stride := 0x0, count := 1, lo := 8, width := 8, acc := .rw, reset := 0x14, ret := true }

/-- R349 (11), [3:0] RW, reset ret 0x6: 2 to 10 -/
def Fld.ENC_SC_k : Fld :=
  { kind := .enc, off := 0x110, stride := 0x0, count := 1, lo := 0, width := 4, acc := .rw, reset := 0x6, ret := true }

/-- R349 (11), [12:8] RW, reset ret 0x0: Compare unit (R331) -/
def Fld.ENC_SC_cmp : Fld :=
  { kind := .enc, off := 0x110, stride := 0x0, count := 1, lo := 8, width := 5, acc := .rw, reset := 0x0, ret := true }

/-- R349 (11), [28:16] RW, reset ret 0x1000: A in codes, 1 to 8,191 -/
def Fld.ENC_SC_nominal : Fld :=
  { kind := .enc, off := 0x110, stride := 0x0, count := 1, lo := 16, width := 13, acc := .rw, reset := 0x1000, ret := true }

/-- R349 (11), [13:0] RW, reset ret 0x0: Signed codes -/
def Fld.ENC_SC_OFF_off_s : Fld :=
  { kind := .enc, off := 0x114, stride := 0x0, count := 1, lo := 0, width := 14, acc := .rw, reset := 0x0, ret := true }

/-- R349 (11), [29:16] RW, reset ret 0x0: Signed codes -/
def Fld.ENC_SC_OFF_off_c : Fld :=
  { kind := .enc, off := 0x114, stride := 0x0, count := 1, lo := 16, width := 14, acc := .rw, reset := 0x0, ret := true }

/-- R349 (11), [7:0] RW, reset ret 0x32: Hundredths -/
def Fld.ENC_SC_WIN_lo : Fld :=
  { kind := .enc, off := 0x118, stride := 0x0, count := 1, lo := 0, width := 8, acc := .rw, reset := 0x32, ret := true }

/-- R349 (11), [15:8] RW, reset ret 0x78: Hundredths -/
def Fld.ENC_SC_WIN_hi : Fld :=
  { kind := .enc, off := 0x118, stride := 0x0, count := 1, lo := 8, width := 8, acc := .rw, reset := 0x78, ret := true }

/-- R349 (11), [47:0] RW, reset 0x0: R326 -/
def Fld.ENC_PRESET : Fld :=
  { kind := .enc, off := 0x120, stride := 0x0, count := 1, lo := 0, width := 48, acc := .rw, reset := 0x0, ret := false }

/-- R349 (11), [63:0] RO, reset 0x0: r, sign-extended -/
def Fld.ENC_RAW : Fld :=
  { kind := .enc, off := 0x128, stride := 0x0, count := 1, lo := 0, width := 64, acc := .ro, reset := 0x0, ret := false }

/-- R349 (11), [63:0] RO, reset 0x0: p, sign-extended -/
def Fld.ENC_POS : Fld :=
  { kind := .enc, off := 0x130, stride := 0x0, count := 1, lo := 0, width := 64, acc := .ro, reset := 0x0, ret := false }

/-- R349 (11), [0] RO, reset 0x0: d: 0 = +1, 1 = −1 -/
def Fld.ENC_STATUS_dir : Fld :=
  { kind := .enc, off := 0x138, stride := 0x0, count := 1, lo := 0, width := 1, acc := .ro, reset := 0x0, ret := false }

/-- R349 (11), [1] RO, reset 0x0: R333 -/
def Fld.ENC_STATUS_held : Fld :=
  { kind := .enc, off := 0x138, stride := 0x0, count := 1, lo := 1, width := 1, acc := .ro, reset := 0x0, ret := false }

/-- R349 (11), [6:4] RO, reset hw: Levels of A [4], B [5], Z [6] -/
def Fld.ENC_STATUS_abz : Fld :=
  { kind := .enc, off := 0x138, stride := 0x0, count := 1, lo := 4, width := 3, acc := .ro, reset := 0x0, ret := false }

/-- R349 (11), [8] RO, reset 0x0: Last sample bad (R332) -/
def Fld.ENC_STATUS_sc_out : Fld :=
  { kind := .enc, off := 0x138, stride := 0x0, count := 1, lo := 8, width := 1, acc := .ro, reset := 0x0, ret := false }

/-- R349 (11), [23:16] RO, reset 0x0: Status bits of the last frame -/
def Fld.ENC_STATUS_abs_stat : Fld :=
  { kind := .enc, off := 0x138, stride := 0x0, count := 1, lo := 16, width := 8, acc := .ro, reset := 0x0, ret := false }

/-- R349 (11), [13:0] RO, reset 0x0: Last sine code -/
def Fld.ENC_SC_LAST_s : Fld :=
  { kind := .enc, off := 0x13C, stride := 0x0, count := 1, lo := 0, width := 14, acc := .ro, reset := 0x0, ret := false }

/-- R349 (11), [29:16] RO, reset 0x0: Last cosine code -/
def Fld.ENC_SC_LAST_c : Fld :=
  { kind := .enc, off := 0x13C, stride := 0x0, count := 1, lo := 16, width := 14, acc := .ro, reset := 0x0, ret := false }

/-- R349 (11), [16:0] RW, reset ret 0x03E8: 10 to 100,000 (R335) -/
def Fld.ENC_SPEED_CFG_window_us : Fld :=
  { kind := .enc, off := 0x140, stride := 0x0, count := 1, lo := 0, width := 17, acc := .rw, reset := 0x3E8, ret := true }

/-- R349 (11), [31:0] RO, reset 0x0: Signed counts -/
def Fld.ENC_SPEED_CNT : Fld :=
  { kind := .enc, off := 0x144, stride := 0x0, count := 1, lo := 0, width := 32, acc := .ro, reset := 0x0, ret := false }

/-- R349 (11), [31:0] RO, reset 0x0: Window index -/
def Fld.ENC_SPEED_WIN : Fld :=
  { kind := .enc, off := 0x148, stride := 0x0, count := 1, lo := 0, width := 32, acc := .ro, reset := 0x0, ret := false }

/-- R349 (11), [31:0] RO, reset 0x0: Binary32, cnt/s -/
def Fld.ENC_SPEED_RATE : Fld :=
  { kind := .enc, off := 0x14C, stride := 0x0, count := 1, lo := 0, width := 32, acc := .ro, reset := 0x0, ret := false }

/-- R349 (11), [31:0] RO, reset 0x0: R334 -/
def Fld.ENC_IDX_SEQ : Fld :=
  { kind := .enc, off := 0x150, stride := 0x0, count := 1, lo := 0, width := 32, acc := .ro, reset := 0x0, ret := false }

/-- R349 (11), [63:0] RO, reset 0x0: Latched r -/
def Fld.ENC_IDX_RAW : Fld :=
  { kind := .enc, off := 0x158, stride := 0x0, count := 1, lo := 0, width := 64, acc := .ro, reset := 0x0, ret := false }

/-- R349 (11), [63:0] RO, reset 0x0: Latched p -/
def Fld.ENC_IDX_POS : Fld :=
  { kind := .enc, off := 0x160, stride := 0x0, count := 1, lo := 0, width := 64, acc := .ro, reset := 0x0, ret := false }

/-- R349 (11), [31:0] RO, reset 0x0: Seconds, low 32 bits -/
def Fld.ENC_IDX_SEC : Fld :=
  { kind := .enc, off := 0x168, stride := 0x0, count := 1, lo := 0, width := 32, acc := .ro, reset := 0x0, ret := false }

/-- R349 (11), [29:0] RO, reset 0x0: Nanoseconds -/
def Fld.ENC_IDX_NS : Fld :=
  { kind := .enc, off := 0x16C, stride := 0x0, count := 1, lo := 0, width := 30, acc := .ro, reset := 0x0, ret := false }

/-- R349 (11), [63:0] RO, reset 0x0: Previous latched r -/
def Fld.ENC_IDX_PREV_RAW : Fld :=
  { kind := .enc, off := 0x170, stride := 0x0, count := 1, lo := 0, width := 64, acc := .ro, reset := 0x0, ret := false }

/-- R349 (11), [31:0] RO, reset 0x0: R327 -/
def Fld.ENC_CNT_QUAD : Fld :=
  { kind := .enc, off := 0x180, stride := 0x0, count := 1, lo := 0, width := 32, acc := .ro, reset := 0x0, ret := false }

/-- R349 (11), [31:0] RO, reset 0x0: Bad samples and frames -/
def Fld.ENC_CNT_BAD : Fld :=
  { kind := .enc, off := 0x184, stride := 0x0, count := 1, lo := 0, width := 32, acc := .ro, reset := 0x0, ret := false }

/-- R349 (11), [31:0] RO, reset 0x0: R330, R331 -/
def Fld.ENC_CNT_REQ_SKIP : Fld :=
  { kind := .enc, off := 0x188, stride := 0x0, count := 1, lo := 0, width := 32, acc := .ro, reset := 0x0, ret := false }

/-- R349 (11), [0] WO, reset 0x0: Clears the counters -/
def Fld.ENC_CNT_CLR : Fld :=
  { kind := .enc, off := 0x18C, stride := 0x0, count := 1, lo := 0, width := 1, acc := .wo, reset := 0x0, ret := false }

/-- R349 (11), [1:0] RW, reset ret 0x0: Belt port (R339) -/
def Fld.ENC_SEL_belt : Fld :=
  { kind := .enc, off := 0x200, stride := 0x0, count := 1, lo := 0, width := 2, acc := .rw, reset := 0x0, ret := true }

/-- R349 (11), [5:4] RW, reset ret 0x1: Backup port -/
def Fld.ENC_SEL_backup : Fld :=
  { kind := .enc, off := 0x200, stride := 0x0, count := 1, lo := 4, width := 2, acc := .rw, reset := 0x1, ret := true }

/-- R349 (11), [6] RW, reset ret 0x0: R336 -/
def Fld.ENC_SEL_backup_en : Fld :=
  { kind := .enc, off := 0x200, stride := 0x0, count := 1, lo := 6, width := 1, acc := .rw, reset := 0x0, ret := true }

/-- R349 (11), [9:8] RO, reset hw: Active port -/
def Fld.ENC_SEL_active : Fld :=
  { kind := .enc, off := 0x200, stride := 0x0, count := 1, lo := 8, width := 2, acc := .ro, reset := 0x0, ret := false }

/-- R349 (11), [12] RO, reset 0x0: R337 -/
def Fld.ENC_SEL_on_backup : Fld :=
  { kind := .enc, off := 0x200, stride := 0x0, count := 1, lo := 12, width := 1, acc := .ro, reset := 0x0, ret := false }

/-- R349 (11), [13] RO, reset 0x1: R338 -/
def Fld.ENC_SEL_belt_ok : Fld :=
  { kind := .enc, off := 0x200, stride := 0x0, count := 1, lo := 13, width := 1, acc := .ro, reset := 0x1, ret := false }

/-- R349 (11), [63:0] RO, reset 0x0: Belt position -/
def Fld.ENC_BELT_POS : Fld :=
  { kind := .enc, off := 0x208, stride := 0x0, count := 1, lo := 0, width := 64, acc := .ro, reset := 0x0, ret := false }

/-- R349 (11), [63:0] RO, reset 0x0: Signed (R337) -/
def Fld.ENC_BACKUP_DELTA : Fld :=
  { kind := .enc, off := 0x210, stride := 0x0, count := 1, lo := 0, width := 64, acc := .ro, reset := 0x0, ret := false }

/-! ## Page kind `tim` -/

/-- R350 (11), [63:0] RO, reset 0x0: Seconds (R344) -/
def Fld.TIM_NOW_SEC : Fld :=
  { kind := .tim, off := 0x100, stride := 0x0, count := 1, lo := 0, width := 64, acc := .ro, reset := 0x0, ret := false }

/-- R350 (11), [29:0] RO, reset 0x0: Nanoseconds -/
def Fld.TIM_NOW_NS : Fld :=
  { kind := .tim, off := 0x108, stride := 0x0, count := 1, lo := 0, width := 30, acc := .ro, reset := 0x0, ret := false }

/-- R350 (11), [31:0] RW, reset ret 0x0: Signed, 2^-32 ns per tick (R341) -/
def Fld.TIM_TRIM : Fld :=
  { kind := .tim, off := 0x110, stride := 0x0, count := 1, lo := 0, width := 32, acc := .rw, reset := 0x0, ret := true }

/-- R350 (11), [63:0] RW, reset 0x0: R342 -/
def Fld.TIM_SET_SEC : Fld :=
  { kind := .tim, off := 0x118, stride := 0x0, count := 1, lo := 0, width := 64, acc := .rw, reset := 0x0, ret := false }

/-- R350 (11), [29:0] RW, reset 0x0: 0 to 999,999,999 (R342) -/
def Fld.TIM_SET_NS : Fld :=
  { kind := .tim, off := 0x120, stride := 0x0, count := 1, lo := 0, width := 30, acc := .rw, reset := 0x0, ret := false }

/-- R350 (11), [0] W1S, reset 0x0: Clears when the load is applied -/
def Fld.TIM_SET_go : Fld :=
  { kind := .tim, off := 0x124, stride := 0x0, count := 1, lo := 0, width := 1, acc := .w1s, reset := 0x0, ret := false }

/-- R350 (11), [1] W1S, reset 0x0: Abandon a waiting PPS set (R342); clears at once -/
def Fld.TIM_SET_cancel : Fld :=
  { kind := .tim, off := 0x124, stride := 0x0, count := 1, lo := 1, width := 1, acc := .w1s, reset := 0x0, ret := false }

/-- R350 (11), [5:4] RW, reset 0x0: 0 = IMMEDIATE, 1 = PPS -/
def Fld.TIM_SET_at : Fld :=
  { kind := .tim, off := 0x124, stride := 0x0, count := 1, lo := 4, width := 2, acc := .rw, reset := 0x0, ret := false, rng := [(0, 1)] }

/-- R350 (11), [31:0] WO, reset 0x0: Signed ns (R342) -/
def Fld.TIM_ADJ : Fld :=
  { kind := .tim, off := 0x128, stride := 0x0, count := 1, lo := 0, width := 32, acc := .wo, reset := 0x0, ret := false }

/-- R350 (11), [0] RO, reset hw: R343 -/
def Fld.TIM_STATUS_ref_ok : Fld :=
  { kind := .tim, off := 0x12C, stride := 0x0, count := 1, lo := 0, width := 1, acc := .ro, reset := 0x1, ret := false }

/-- R350 (11), [1] RO, reset hw: 0 = 10 MHz, 1 = 25 MHz -/
def Fld.TIM_STATUS_ref_mhz : Fld :=
  { kind := .tim, off := 0x12C, stride := 0x0, count := 1, lo := 1, width := 1, acc := .ro, reset := 0x0, ret := false }

/-- R350 (11), [31:0] RO, reset 0x0: R348 -/
def Fld.TIM_ROLL_SEC : Fld :=
  { kind := .tim, off := 0x130, stride := 0x0, count := 1, lo := 0, width := 32, acc := .ro, reset := 0x0, ret := false }

/-- R350 (11), [29:0] RO, reset 0x0: R348 -/
def Fld.TIM_ROLL_EVT_NS : Fld :=
  { kind := .tim, off := 0x134, stride := 0x0, count := 1, lo := 0, width := 30, acc := .ro, reset := 0x0, ret := false }

/-- R350 (11), [29:0] RO, reset 0x0: R348 -/
def Fld.TIM_ROLL_MSG_NS : Fld :=
  { kind := .tim, off := 0x138, stride := 0x0, count := 1, lo := 0, width := 30, acc := .ro, reset := 0x0, ret := false }

/-- R350 (11), [0] RO, reset 0x0: R348 -/
def Fld.TIM_ROLL_MSG_valid : Fld :=
  { kind := .tim, off := 0x13C, stride := 0x0, count := 1, lo := 0, width := 1, acc := .ro, reset := 0x0, ret := false }

/-- R350 (11), [63:0] RW, reset 0x0: Target seconds -/
def Fld.TIM_CMP_SEC : Fld :=
  { kind := .tim, off := 0x200, stride := 0x20, count := 16, lo := 0, width := 64, acc := .rw, reset := 0x0, ret := false }

/-- R350 (11), [29:0] RW, reset 0x0: Target nanoseconds, 0 to 999,999,999 (R342) -/
def Fld.TIM_CMP_NS : Fld :=
  { kind := .tim, off := 0x208, stride := 0x20, count := 16, lo := 0, width := 30, acc := .rw, reset := 0x0, ret := false }

/-- R350 (11), [31:0] RW, reset 0x0: Period in ns, 0 or 100 to 2^32 − 1; 0 = one-shot (R346) -/
def Fld.TIM_CMP_PER : Fld :=
  { kind := .tim, off := 0x20C, stride := 0x20, count := 16, lo := 0, width := 32, acc := .rw, reset := 0x0, ret := false }

/-- R350 (11), [0] RW, reset 0x0: R345, R346 -/
def Fld.TIM_CMP_CTRL_arm : Fld :=
  { kind := .tim, off := 0x210, stride := 0x20, count := 16, lo := 0, width := 1, acc := .rw, reset := 0x0, ret := false }

/-- R350 (11), [1] RW, reset 0x0: Raise CMP_MATCH0 -/
def Fld.TIM_CMP_CTRL_irq : Fld :=
  { kind := .tim, off := 0x210, stride := 0x20, count := 16, lo := 1, width := 1, acc := .rw, reset := 0x0, ret := false }

/-- R350 (11), [31:16] RO, reset 0x0: Saturating at 65,535 -/
def Fld.TIM_CMP_CTRL_skips : Fld :=
  { kind := .tim, off := 0x210, stride := 0x20, count := 16, lo := 16, width := 16, acc := .ro, reset := 0x0, ret := false }

/-- R350 (11), [29:0] RO, reset 0x0: Present target -/
def Fld.TIM_CMP_NEXT_NS : Fld :=
  { kind := .tim, off := 0x214, stride := 0x20, count := 16, lo := 0, width := 30, acc := .ro, reset := 0x0, ret := false }

/-- R350 (11), [63:0] RO, reset 0x0: Present target -/
def Fld.TIM_CMP_NEXT_SEC : Fld :=
  { kind := .tim, off := 0x218, stride := 0x20, count := 16, lo := 0, width := 64, acc := .ro, reset := 0x0, ret := false }

/-- R350 (11), [2:0] RW, reset ret 0x0: R347 -/
def Fld.TIM_CAP_CFG_src : Fld :=
  { kind := .tim, off := 0x400, stride := 0x20, count := 16, lo := 0, width := 3, acc := .rw, reset := 0x0, ret := true, rng := [(0, 4)] }

/-- R350 (11), [12:8] RW, reset ret 0x0: R347 -/
def Fld.TIM_CAP_CFG_sel : Fld :=
  { kind := .tim, off := 0x400, stride := 0x20, count := 16, lo := 8, width := 5, acc := .rw, reset := 0x0, ret := true }

/-- R350 (11), [17:16] RW, reset ret 0x1: 1 = rising, 2 = falling, 3 = both; 0 under R13 -/
def Fld.TIM_CAP_CFG_edge : Fld :=
  { kind := .tim, off := 0x400, stride := 0x20, count := 16, lo := 16, width := 2, acc := .rw, reset := 0x1, ret := true, rng := [(1, 3)] }

/-- R350 (11), [20] RW, reset ret 0x0: R347 -/
def Fld.TIM_CAP_CFG_irq : Fld :=
  { kind := .tim, off := 0x400, stride := 0x20, count := 16, lo := 20, width := 1, acc := .rw, reset := 0x0, ret := true }

/-- R350 (11), [31:0] RO, reset 0x0: Captures -/
def Fld.TIM_CAP_SEQ : Fld :=
  { kind := .tim, off := 0x404, stride := 0x20, count := 16, lo := 0, width := 32, acc := .ro, reset := 0x0, ret := false }

/-- R350 (11), [63:0] RO, reset 0x0: Seconds -/
def Fld.TIM_CAP_SEC : Fld :=
  { kind := .tim, off := 0x408, stride := 0x20, count := 16, lo := 0, width := 64, acc := .ro, reset := 0x0, ret := false }

/-- R350 (11), [29:0] RO, reset 0x0: Nanoseconds -/
def Fld.TIM_CAP_NS : Fld :=
  { kind := .tim, off := 0x410, stride := 0x20, count := 16, lo := 0, width := 30, acc := .ro, reset := 0x0, ret := false }

/-- R350 (11), [63:0] RO, reset 0x0: Belt position -/
def Fld.TIM_CAP_POS : Fld :=
  { kind := .tim, off := 0x418, stride := 0x20, count := 16, lo := 0, width := 64, acc := .ro, reset := 0x0, ret := false }

/-- R350 (11), [15:0] W1C, reset 0x0: One bit per capture unit -/
def Fld.TIM_CAP_PEND : Fld :=
  { kind := .tim, off := 0x600, stride := 0x0, count := 1, lo := 0, width := 16, acc := .w1c, reset := 0x0, ret := false }

/-! ## Page kind `trk` -/

/-- R387 (12), [3:0] RW, reset ret 0x0: R37 -/
def Fld.TRK_CFG_default_class : Fld :=
  { kind := .trk, off := 0x100, stride := 0x0, count := 1, lo := 0, width := 4, acc := .rw, reset := 0x0, ret := true }

/-- R387 (12), [31:16] RW, reset ret 0x0: cnt (R362) -/
def Fld.TRK_CFG_span_gap : Fld :=
  { kind := .trk, off := 0x100, stride := 0x0, count := 1, lo := 16, width := 16, acc := .rw, reset := 0x0, ret := true }

/-- R387 (12), [31:0] RW, reset ret 0x0: cnt (R375) -/
def Fld.TRK_HOLD : Fld :=
  { kind := .trk, off := 0x104, stride := 0x0, count := 1, lo := 0, width := 32, acc := .rw, reset := 0x0, ret := true }

/-- R387 (12), [12:0] RO, reset 0x0: Regular records not FREE -/
def Fld.TRK_STATUS_open : Fld :=
  { kind := .trk, off := 0x108, stride := 0x0, count := 1, lo := 0, width := 13, acc := .ro, reset := 0x0, ret := false }

/-- R387 (12), [28:16] RO, reset 0x0: Identifiers in the queue -/
def Fld.TRK_STATUS_free : Fld :=
  { kind := .trk, off := 0x108, stride := 0x0, count := 1, lo := 16, width := 13, acc := .ro, reset := 0x0, ret := false }

/-- R387 (12), [6:0] RO, reset 0x0: Span records not FREE -/
def Fld.TRK_SPANS_open : Fld :=
  { kind := .trk, off := 0x10C, stride := 0x0, count := 1, lo := 0, width := 7, acc := .ro, reset := 0x0, ret := false }

/-- R387 (12), [11:0] RW, reset 0x0: Record shown in TRK_REC -/
def Fld.TRK_REC_SEL_index : Fld :=
  { kind := .trk, off := 0x110, stride := 0x0, count := 1, lo := 0, width := 12, acc := .rw, reset := 0x0, ret := false }

/-- R387 (12), [12] RW, reset 0x0: 1 = span record index [5:0] -/
def Fld.TRK_REC_SEL_span : Fld :=
  { kind := .trk, off := 0x110, stride := 0x0, count := 1, lo := 12, width := 1, acc := .rw, reset := 0x0, ret := false }

/-- R387 (12), [63:0] RW, reset ret 0x0: Host address, 128-byte aligned -/
def Fld.TRK_LOG_BASE : Fld :=
  { kind := .trk, off := 0x120, stride := 0x0, count := 1, lo := 0, width := 64, acc := .rw, reset := 0x0, ret := true }

/-- R387 (12), [15:0] RW, reset ret 0x0: 0 = no log -/
def Fld.TRK_LOG_CFG_slots : Fld :=
  { kind := .trk, off := 0x128, stride := 0x0, count := 1, lo := 0, width := 16, acc := .rw, reset := 0x0, ret := true }

/-- R387 (12), [31:16] RW, reset ret 0x0: R385 -/
def Fld.TRK_LOG_CFG_wm : Fld :=
  { kind := .trk, off := 0x128, stride := 0x0, count := 1, lo := 16, width := 16, acc := .rw, reset := 0x0, ret := true }

/-- R387 (12), [31:0] RO, reset 0x0: R385 -/
def Fld.TRK_LOG_HEAD : Fld :=
  { kind := .trk, off := 0x12C, stride := 0x0, count := 1, lo := 0, width := 32, acc := .ro, reset := 0x0, ret := false }

/-- R387 (12), [31:0] RW, reset 0x0: R385 -/
def Fld.TRK_LOG_TAIL : Fld :=
  { kind := .trk, off := 0x130, stride := 0x0, count := 1, lo := 0, width := 32, acc := .rw, reset := 0x0, ret := false }

/-- R387 (12), [5:0] RW, reset ret 0x0: Bit k: accept VERDICT frames from PLk -/
def Fld.TRK_PEER_accept : Fld :=
  { kind := .trk, off := 0x134, stride := 0x0, count := 1, lo := 0, width := 6, acc := .rw, reset := 0x0, ret := true }

/-- R387 (12), [8] RW, reset ret 0x0: R365 -/
def Fld.TRK_PEER_send_en : Fld :=
  { kind := .trk, off := 0x134, stride := 0x0, count := 1, lo := 8, width := 1, acc := .rw, reset := 0x0, ret := true }

/-- R387 (12), [14:12] RW, reset ret 0x0: R365 -/
def Fld.TRK_PEER_send_group : Fld :=
  { kind := .trk, off := 0x134, stride := 0x0, count := 1, lo := 12, width := 3, acc := .rw, reset := 0x0, ret := true }

/-- R387 (12), [31:0] RO, reset 0x0: Log entries produced, written or not (R385) -/
def Fld.TRK_LOG_SEQ : Fld :=
  { kind := .trk, off := 0x138, stride := 0x0, count := 1, lo := 0, width := 32, acc := .ro, reset := 0x0, ret := false }

/-- R387 (12), [31:0] RO, reset 0x0: Regular records opened -/
def Fld.TRK_CNT_OPENED : Fld :=
  { kind := .trk, off := 0x180, stride := 0x0, count := 1, lo := 0, width := 32, acc := .ro, reset := 0x0, ret := false }

/-- R387 (12), [31:0] RO, reset 0x0: Span records opened -/
def Fld.TRK_CNT_SPAN : Fld :=
  { kind := .trk, off := 0x184, stride := 0x0, count := 1, lo := 0, width := 32, acc := .ro, reset := 0x0, ret := false }

/-- R387 (12), [31:0] RO, reset 0x0: R362 -/
def Fld.TRK_CNT_SPAN_LOST : Fld :=
  { kind := .trk, off := 0x188, stride := 0x0, count := 1, lo := 0, width := 32, acc := .ro, reset := 0x0, ret := false }

/-- R387 (12), [31:0] RO, reset 0x0: R357, R364 -/
def Fld.TRK_CNT_STALE : Fld :=
  { kind := .trk, off := 0x18C, stride := 0x0, count := 1, lo := 0, width := 32, acc := .ro, reset := 0x0, ret := false }

/-- R387 (12), [31:0] RO, reset 0x0: R371 -/
def Fld.TRK_CNT_LATE : Fld :=
  { kind := .trk, off := 0x190, stride := 0x0, count := 1, lo := 0, width := 32, acc := .ro, reset := 0x0, ret := false }

/-- R387 (12), [31:0] RO, reset 0x0: R385 -/
def Fld.TRK_CNT_LOG_LOST : Fld :=
  { kind := .trk, off := 0x194, stride := 0x0, count := 1, lo := 0, width := 32, acc := .ro, reset := 0x0, ret := false }

/-- R387 (12), [31:0] RO, reset 0x0: R359 -/
def Fld.TRK_CNT_NOTICE_DROP : Fld :=
  { kind := .trk, off := 0x198, stride := 0x0, count := 1, lo := 0, width := 32, acc := .ro, reset := 0x0, ret := false }

/-- R387 (12), [31:0] RO, reset 0x0: R363 -/
def Fld.TRK_CNT_ARM_IGNORED : Fld :=
  { kind := .trk, off := 0x19C, stride := 0x0, count := 1, lo := 0, width := 32, acc := .ro, reset := 0x0, ret := false }

/-- R387 (12), [0] WO, reset 0x0: Clears the counters -/
def Fld.TRK_CNT_CLR : Fld :=
  { kind := .trk, off := 0x1BC, stride := 0x0, count := 1, lo := 0, width := 1, acc := .wo, reset := 0x0, ret := false }

/-- R387 (12), [15:0] RW, reset ret 0x0: Context c column offset, signed -/
def Fld.TRK_CTX_COL_col_off : Fld :=
  { kind := .trk, off := 0x400, stride := 0x4, count := 64, lo := 0, width := 16, acc := .rw, reset := 0x0, ret := true }

/-- R387 (12), [31:16] RW, reset ret 0x0001: Context c, cnt per line, 1 to 65,535 -/
def Fld.TRK_CTX_COL_line_cnt : Fld :=
  { kind := .trk, off := 0x400, stride := 0x4, count := 64, lo := 16, width := 16, acc := .rw, reset := 0x1, ret := true, rng := [(1, 65535)] }

/-! ## Page kind `ejt` -/

/-- R388 (12), [31:0] RWS, reset ret 0x0: Class k bank mask in word k div 4, bits [8(k mod 4) + 7 : 8(k mod 4)] -/
def Fld.EJT_CLASS : Fld :=
  { kind := .ejt, off := 0x100, stride := 0x4, count := 4, lo := 0, width := 32, acc := .rws, reset := 0x0, ret := true }

/-- R388 (12), [7:0] RWS, reset ret 0x0: Bit b: 0 = DIRECT, 1 = VALVE_PORT (R35) -/
def Fld.EJT_OUT_PATH : Fld :=
  { kind := .ejt, off := 0x110, stride := 0x0, count := 1, lo := 0, width := 8, acc := .rws, reset := 0x0, ret := true }

/-- R388 (12), [0] RWS, reset ret 0x0: R369 -/
def Fld.EJT_SPEED_CFG_pin : Fld :=
  { kind := .ejt, off := 0x114, stride := 0x0, count := 1, lo := 0, width := 1, acc := .rws, reset := 0x0, ret := true }

/-- R388 (12), [31:0] RWS, reset ret 0x47C3_5000: Binary32 cnt/s; 100,000.0 -/
def Fld.EJT_SPEED_FIX : Fld :=
  { kind := .ejt, off := 0x118, stride := 0x0, count := 1, lo := 0, width := 32, acc := .rws, reset := 0x47C35000, ret := true }

/-- R388 (12), [31:0] RWS, reset ret 0x447A_0000: Binary32; 1,000.0 -/
def Fld.EJT_SPEED_MIN : Fld :=
  { kind := .ejt, off := 0x11C, stride := 0x0, count := 1, lo := 0, width := 32, acc := .rws, reset := 0x447A0000, ret := true }

/-- R388 (12), [31:0] RWS, reset ret 0x4B18_9680: Binary32; 10,000,000.0 -/
def Fld.EJT_SPEED_MAX : Fld :=
  { kind := .ejt, off := 0x120, stride := 0x0, count := 1, lo := 0, width := 32, acc := .rws, reset := 0x4B189680, ret := true }

/-- R388 (12), [31:0] RO, reset 0x0: v (R369) -/
def Fld.EJT_SPEED_USED : Fld :=
  { kind := .ejt, off := 0x124, stride := 0x0, count := 1, lo := 0, width := 32, acc := .ro, reset := 0x0, ret := false }

/-- R388 (12), [13:0] RO, reset 0x0: Entries held, reservations included -/
def Fld.EJT_QUEUE_used : Fld :=
  { kind := .ejt, off := 0x128, stride := 0x0, count := 1, lo := 0, width := 14, acc := .ro, reset := 0x0, ret := false }

/-- R388 (12), [29:16] RO, reset 0x0: Highest since clear -/
def Fld.EJT_QUEUE_peak : Fld :=
  { kind := .ejt, off := 0x128, stride := 0x0, count := 1, lo := 16, width := 14, acc := .ro, reset := 0x0, ret := false }

/-- R388 (12), [7:0] RWS, reset ret 0x80: Port n chain length, 1 to 128 -/
def Fld.EJT_VP_LEN_len : Fld :=
  { kind := .ejt, off := 0x130, stride := 0x4, count := 4, lo := 0, width := 8, acc := .rws, reset := 0x80, ret := true }

/-- R388 (12), [8] RWS, reset ret 0x0: R382 -/
def Fld.EJT_VP_LEN_check : Fld :=
  { kind := .ejt, off := 0x130, stride := 0x4, count := 4, lo := 8, width := 1, acc := .rws, reset := 0x0, ret := true }

/-- R388 (12), [31:0] RO, reset 0x0: Firings queued -/
def Fld.EJT_CNT_FIRE : Fld :=
  { kind := .ejt, off := 0x180, stride := 0x0, count := 1, lo := 0, width := 32, acc := .ro, reset := 0x0, ret := false }

/-- R388 (12), [31:0] RO, reset 0x0: R372 -/
def Fld.EJT_CNT_LATE_CHANGE : Fld :=
  { kind := .ejt, off := 0x184, stride := 0x0, count := 1, lo := 0, width := 32, acc := .ro, reset := 0x0, ret := false }

/-- R388 (12), [31:0] RO, reset 0x0: R378 -/
def Fld.EJT_CNT_STRETCH : Fld :=
  { kind := .ejt, off := 0x188, stride := 0x0, count := 1, lo := 0, width := 32, acc := .ro, reset := 0x0, ret := false }

/-- R388 (12), [31:0] RO, reset 0x0: R376 -/
def Fld.EJT_CNT_QFULL : Fld :=
  { kind := .ejt, off := 0x18C, stride := 0x0, count := 1, lo := 0, width := 32, acc := .ro, reset := 0x0, ret := false }

/-- R388 (12), [31:0] RO, reset 0x0: R379 -/
def Fld.EJT_CNT_MAXON : Fld :=
  { kind := .ejt, off := 0x190, stride := 0x0, count := 1, lo := 0, width := 32, acc := .ro, reset := 0x0, ret := false }

/-- R388 (12), [31:0] RO, reset 0x0: R382 -/
def Fld.EJT_CNT_VP_ERR : Fld :=
  { kind := .ejt, off := 0x194, stride := 0x0, count := 1, lo := 0, width := 32, acc := .ro, reset := 0x0, ret := false }

/-- R388 (12), [0] WO, reset 0x0: Clears the counters -/
def Fld.EJT_CNT_CLR : Fld :=
  { kind := .ejt, off := 0x19C, stride := 0x0, count := 1, lo := 0, width := 1, acc := .wo, reset := 0x0, ret := false }

/-- R388 (12), [0] RWS, reset ret 0x0: Bank fires -/
def Fld.EJT_BANK_CFG_enable : Fld :=
  { kind := .ejt, off := 0x200, stride := 0x20, count := 8, lo := 0, width := 1, acc := .rws, reset := 0x0, ret := true }

/-- R388 (12), [5:4] RWS, reset ret 0x0: Valve port of a VALVE_PORT bank -/
def Fld.EJT_BANK_CFG_port : Fld :=
  { kind := .ejt, off := 0x200, stride := 0x20, count := 8, lo := 4, width := 2, acc := .rws, reset := 0x0, ret := true }

/-- R388 (12), [14:8] RWS, reset ret 0x0: First valve or FO -/
def Fld.EJT_BANK_CFG_first : Fld :=
  { kind := .ejt, off := 0x200, stride := 0x20, count := 8, lo := 8, width := 7, acc := .rws, reset := 0x0, ret := true }

/-- R388 (12), [23:16] RWS, reset ret 0x01: Valves, 1 to 128 -/
def Fld.EJT_BANK_CFG_count : Fld :=
  { kind := .ejt, off := 0x200, stride := 0x20, count := 8, lo := 16, width := 8, acc := .rws, reset := 0x1, ret := true }

/-- R388 (12), [27:24] RWS, reset ret 0x0: Valves added each side (R367) -/
def Fld.EJT_BANK_CFG_spread : Fld :=
  { kind := .ejt, off := 0x200, stride := 0x20, count := 8, lo := 24, width := 4, acc := .rws, reset := 0x0, ret := true }

/-- R388 (12), [31:0] RWS, reset ret 0x0: d, signed cnt -/
def Fld.EJT_BANK_DIST : Fld :=
  { kind := .ejt, off := 0x204, stride := 0x20, count := 8, lo := 0, width := 32, acc := .rws, reset := 0x0, ret := true }

/-- R388 (12), [31:0] RWS, reset ret 0x0: Signed Q16.16 columns -/
def Fld.EJT_BANK_ORIGIN : Fld :=
  { kind := .ejt, off := 0x208, stride := 0x20, count := 8, lo := 0, width := 32, acc := .rws, reset := 0x0, ret := true }

/-- R388 (12), [31:0] RWS, reset ret 0x0001_0000: Unsigned Q16.16 columns per valve -/
def Fld.EJT_BANK_PITCH : Fld :=
  { kind := .ejt, off := 0x20C, stride := 0x20, count := 8, lo := 0, width := 32, acc := .rws, reset := 0x10000, ret := true }

/-- R388 (12), [31:0] RWS, reset ret 0x0: t_mech, ns -/
def Fld.EJT_BANK_MECH : Fld :=
  { kind := .ejt, off := 0x210, stride := 0x20, count := 8, lo := 0, width := 32, acc := .rws, reset := 0x0, ret := true }

/-- R388 (12), [15:0] RWS, reset ret 0x0: cnt -/
def Fld.EJT_BANK_MARGIN_pre : Fld :=
  { kind := .ejt, off := 0x214, stride := 0x20, count := 8, lo := 0, width := 16, acc := .rws, reset := 0x0, ret := true }

/-- R388 (12), [31:16] RWS, reset ret 0x0: cnt -/
def Fld.EJT_BANK_MARGIN_post : Fld :=
  { kind := .ejt, off := 0x214, stride := 0x20, count := 8, lo := 16, width := 16, acc := .rws, reset := 0x0, ret := true }

/-- R388 (12), [15:0] RWS, reset ret 0x0: min_on, µs -/
def Fld.EJT_BANK_MIN_on_us : Fld :=
  { kind := .ejt, off := 0x218, stride := 0x20, count := 8, lo := 0, width := 16, acc := .rws, reset := 0x0, ret := true }

/-- R388 (12), [31:16] RWS, reset ret 0x0: min_off, µs -/
def Fld.EJT_BANK_MIN_off_us : Fld :=
  { kind := .ejt, off := 0x218, stride := 0x20, count := 8, lo := 16, width := 16, acc := .rws, reset := 0x0, ret := true }

/-- R388 (12), [15:0] RWS, reset ret 0x0: ms; 0 = no limit -/
def Fld.EJT_BANK_MAXON : Fld :=
  { kind := .ejt, off := 0x21C, stride := 0x20, count := 8, lo := 0, width := 16, acc := .rws, reset := 0x0, ret := true }

/-- R388 (12), [127:0] RO, reset hw: Port n commanded valve states, four words -/
def Fld.EJT_VALVES_VP : Fld :=
  { kind := .ejt, off := 0x400, stride := 0x10, count := 4, lo := 0, width := 128, acc := .ro, reset := 0x0, ret := false }

/-- R388 (12), [15:0] RO, reset hw: FO0 to FO15 commanded states -/
def Fld.EJT_VALVES_FO : Fld :=
  { kind := .ejt, off := 0x440, stride := 0x0, count := 1, lo := 0, width := 16, acc := .ro, reset := 0x0, ret := false }

/-! ## Page kind `fio` -/

/-- R402 (13), [7:0] RWS, reset ret 0x05: 10 mV steps (R391) -/
def Fld.FIO_THR_broken : Fld :=
  { kind := .fio, off := 0x100, stride := 0x0, count := 1, lo := 0, width := 8, acc := .rws, reset := 0x5, ret := true }

/-- R402 (13), [15:8] RWS, reset ret 0x6E: 10 mV steps -/
def Fld.FIO_THR_on : Fld :=
  { kind := .fio, off := 0x100, stride := 0x0, count := 1, lo := 8, width := 8, acc := .rws, reset := 0x6E, ret := true }

/-- R402 (13), [0] RWS, reset ret 0x0: 0 = DIV, 1 = CMP (R392) -/
def Fld.FIO_SMP_src : Fld :=
  { kind := .fio, off := 0x104, stride := 0x0, count := 1, lo := 0, width := 1, acc := .rws, reset := 0x0, ret := true }

/-- R402 (13), [15:4] RWS, reset ret 0x18F: Ticks per sample, minus 1 -/
def Fld.FIO_SMP_div : Fld :=
  { kind := .fio, off := 0x104, stride := 0x0, count := 1, lo := 4, width := 12, acc := .rws, reset := 0x18F, ret := true }

/-- R402 (13), [20:16] RWS, reset ret 0x0: Compare unit -/
def Fld.FIO_SMP_cmp : Fld :=
  { kind := .fio, off := 0x104, stride := 0x0, count := 1, lo := 16, width := 5, acc := .rws, reset := 0x0, ret := true }

/-- R402 (13), [31:0] RO, reset 0x0: Filtered states, bit i for FIi -/
def Fld.FIO_IN_LEVEL : Fld :=
  { kind := .fio, off := 0x108, stride := 0x0, count := 1, lo := 0, width := 32, acc := .ro, reset := 0x0, ret := false }

/-- R402 (13), [31:0] RO, reset 0x0: Break flags (R395) -/
def Fld.FIO_IN_BROKEN : Fld :=
  { kind := .fio, off := 0x10C, stride := 0x0, count := 1, lo := 0, width := 32, acc := .ro, reset := 0x0, ret := false }

/-- R402 (13), [31:0] W1C, reset 0x0: R394 -/
def Fld.FIO_EDGE_PEND : Fld :=
  { kind := .fio, off := 0x110, stride := 0x0, count := 1, lo := 0, width := 32, acc := .w1c, reset := 0x0, ret := false }

/-- R402 (13), [31:0] RO, reset hw: R395 -/
def Fld.FIO_RETIRED : Fld :=
  { kind := .fio, off := 0x114, stride := 0x0, count := 1, lo := 0, width := 32, acc := .ro, reset := 0x0, ret := false }

/-- R402 (13), [15:0] RW, reset ret 0x0: R396 -/
def Fld.FIO_OUT_SRC : Fld :=
  { kind := .fio, off := 0x118, stride := 0x0, count := 1, lo := 0, width := 16, acc := .rw, reset := 0x0, ret := true }

/-- R402 (13), [15:0] RW, reset ret 0x0: Software command -/
def Fld.FIO_OUT_SET : Fld :=
  { kind := .fio, off := 0x11C, stride := 0x0, count := 1, lo := 0, width := 16, acc := .rw, reset := 0x0, ret := true }

/-- R402 (13), [15:0] RO, reset hw: Levels driven -/
def Fld.FIO_OUT_PIN_drive : Fld :=
  { kind := .fio, off := 0x120, stride := 0x0, count := 1, lo := 0, width := 16, acc := .ro, reset := 0x0, ret := false }

/-- R402 (13), [31:16] RO, reset hw: FOR levels -/
def Fld.FIO_OUT_PIN_readback : Fld :=
  { kind := .fio, off := 0x120, stride := 0x0, count := 1, lo := 16, width := 16, acc := .ro, reset := 0x0, ret := false }

/-- R402 (13), [15:0] RW, reset ret 0x0: R398 -/
def Fld.FIO_SAFE_FO : Fld :=
  { kind := .fio, off := 0x124, stride := 0x0, count := 1, lo := 0, width := 16, acc := .rw, reset := 0x0, ret := true }

/-- R402 (13), [15:0] RW, reset ret 0x0: R397 -/
def Fld.FIO_RB_CFG_enable : Fld :=
  { kind := .fio, off := 0x128, stride := 0x0, count := 1, lo := 0, width := 16, acc := .rw, reset := 0x0, ret := true }

/-- R402 (13), [23:16] RW, reset ret 0x64: 1 to 255 µs -/
def Fld.FIO_RB_CFG_settle_us : Fld :=
  { kind := .fio, off := 0x128, stride := 0x0, count := 1, lo := 16, width := 8, acc := .rw, reset := 0x64, ret := true, rng := [(1, 255)] }

/-- R402 (13), [15:0] W1C, reset 0x0: R397 -/
def Fld.FIO_RB_ERR : Fld :=
  { kind := .fio, off := 0x12C, stride := 0x0, count := 1, lo := 0, width := 16, acc := .w1c, reset := 0x0, ret := false }

/-- R402 (13), [13:0] RW, reset ret 0x0064: 1 to 10,000 (R399) -/
def Fld.FIO_WDOG_period_ms : Fld :=
  { kind := .fio, off := 0x130, stride := 0x0, count := 1, lo := 0, width := 14, acc := .rw, reset := 0x64, ret := true }

/-- R402 (13), [31] W1S, reset 0x0: R399 -/
def Fld.FIO_WDOG_enable : Fld :=
  { kind := .fio, off := 0x130, stride := 0x0, count := 1, lo := 31, width := 1, acc := .w1s, reset := 0x0, ret := false }

/-- R402 (13), [15:0] WO, reset 0x0: R399 -/
def Fld.FIO_WDOG_KICK : Fld :=
  { kind := .fio, off := 0x134, stride := 0x0, count := 1, lo := 0, width := 16, acc := .wo, reset := 0x0, ret := false }

/-- R402 (13), [0] RO, reset 0x1: R398 -/
def Fld.FIO_SAFE_held : Fld :=
  { kind := .fio, off := 0x138, stride := 0x0, count := 1, lo := 0, width := 1, acc := .ro, reset := 0x1, ret := false }

/-- R402 (13), [1] W1S, reset 0x0: R400 -/
def Fld.FIO_SAFE_release : Fld :=
  { kind := .fio, off := 0x138, stride := 0x0, count := 1, lo := 1, width := 1, acc := .w1s, reset := 0x0, ret := false }

/-- R402 (13), [5:4] RO, reset 0x1: 1 = POWER_UP, 2 = WATCHDOG, 3 = STOP -/
def Fld.FIO_SAFE_cause : Fld :=
  { kind := .fio, off := 0x138, stride := 0x0, count := 1, lo := 4, width := 2, acc := .ro, reset := 0x1, ret := false }

/-- R402 (13), [23:0] RO, reset 0x0: µs to expiry -/
def Fld.FIO_WDOG_LEFT : Fld :=
  { kind := .fio, off := 0x13C, stride := 0x0, count := 1, lo := 0, width := 24, acc := .ro, reset := 0x0, ret := false }

/-- R402 (13), [31:0] RO, reset 0x0: Edges -/
def Fld.FIO_CNT_EDGE : Fld :=
  { kind := .fio, off := 0x140, stride := 0x0, count := 1, lo := 0, width := 32, acc := .ro, reset := 0x0, ret := false }

/-- R402 (13), [31:0] RO, reset 0x0: R395 -/
def Fld.FIO_CNT_BREAK : Fld :=
  { kind := .fio, off := 0x144, stride := 0x0, count := 1, lo := 0, width := 32, acc := .ro, reset := 0x0, ret := false }

/-- R402 (13), [31:0] RO, reset 0x0: R397 -/
def Fld.FIO_CNT_RB_ERR : Fld :=
  { kind := .fio, off := 0x148, stride := 0x0, count := 1, lo := 0, width := 32, acc := .ro, reset := 0x0, ret := false }

/-- R402 (13), [31:0] RO, reset 0x0: R399 -/
def Fld.FIO_CNT_WDOG : Fld :=
  { kind := .fio, off := 0x14C, stride := 0x0, count := 1, lo := 0, width := 32, acc := .ro, reset := 0x0, ret := false }

/-- R402 (13), [0] WO, reset 0x0: Clears the counters -/
def Fld.FIO_CNT_CLR : Fld :=
  { kind := .fio, off := 0x15C, stride := 0x0, count := 1, lo := 0, width := 1, acc := .wo, reset := 0x0, ret := false }

/-- R402 (13), [127:0] RW, reset ret 0x0: Port n safe valve states, four words -/
def Fld.FIO_SAFE_VP : Fld :=
  { kind := .fio, off := 0x300, stride := 0x10, count := 4, lo := 0, width := 128, acc := .rw, reset := 0x0, ret := true }

/-- R402 (13), [7:0] RW, reset ret 0x04: N, 1 to 255; 0 under R13 -/
def Fld.FIO_IN_CFG_n : Fld :=
  { kind := .fio, off := 0x400, stride := 0x20, count := 32, lo := 0, width := 8, acc := .rw, reset := 0x4, ret := true, rng := [(1, 255)] }

/-- R402 (13), [8] RW, reset ret 0x0: R393 -/
def Fld.FIO_IN_CFG_break_en : Fld :=
  { kind := .fio, off := 0x400, stride := 0x20, count := 32, lo := 8, width := 1, acc := .rw, reset := 0x0, ret := true }

/-- R402 (13), [9] RW, reset ret 0x0: R394 -/
def Fld.FIO_IN_CFG_irq_rise : Fld :=
  { kind := .fio, off := 0x400, stride := 0x20, count := 32, lo := 9, width := 1, acc := .rw, reset := 0x0, ret := true }

/-- R402 (13), [10] RW, reset ret 0x0: R394 -/
def Fld.FIO_IN_CFG_irq_fall : Fld :=
  { kind := .fio, off := 0x400, stride := 0x20, count := 32, lo := 10, width := 1, acc := .rw, reset := 0x0, ret := true }

/-- R402 (13), [0] RO, reset 0x0: Filtered state -/
def Fld.FIO_IN_STAT_state : Fld :=
  { kind := .fio, off := 0x404, stride := 0x20, count := 32, lo := 0, width := 1, acc := .ro, reset := 0x0, ret := false }

/-- R402 (13), [2:1] RO, reset hw: 0 = BROKEN, 1 = OFF, 2 = ON -/
def Fld.FIO_IN_STAT_band : Fld :=
  { kind := .fio, off := 0x404, stride := 0x20, count := 32, lo := 1, width := 2, acc := .ro, reset := 0x0, ret := false }

/-- R402 (13), [15:8] RO, reset 0x0: State counter -/
def Fld.FIO_IN_STAT_q : Fld :=
  { kind := .fio, off := 0x404, stride := 0x20, count := 32, lo := 8, width := 8, acc := .ro, reset := 0x0, ret := false }

/-- R402 (13), [23:16] RO, reset 0x0: Break counter -/
def Fld.FIO_IN_STAT_b : Fld :=
  { kind := .fio, off := 0x404, stride := 0x20, count := 32, lo := 16, width := 8, acc := .ro, reset := 0x0, ret := false }

/-- R402 (13), [31:0] RO, reset 0x0: Edges recorded -/
def Fld.FIO_IN_SEQ : Fld :=
  { kind := .fio, off := 0x408, stride := 0x20, count := 32, lo := 0, width := 32, acc := .ro, reset := 0x0, ret := false }

/-- R402 (13), [0] RO, reset 0x0: Direction of the last edge -/
def Fld.FIO_IN_EDGE_rising : Fld :=
  { kind := .fio, off := 0x40C, stride := 0x20, count := 32, lo := 0, width := 1, acc := .ro, reset := 0x0, ret := false }

/-- R402 (13), [63:0] RO, reset 0x0: R394 -/
def Fld.FIO_IN_START : Fld :=
  { kind := .fio, off := 0x410, stride := 0x20, count := 32, lo := 0, width := 64, acc := .ro, reset := 0x0, ret := false }

/-- R402 (13), [63:0] RO, reset 0x0: R394 -/
def Fld.FIO_IN_DECIDE : Fld :=
  { kind := .fio, off := 0x418, stride := 0x20, count := 32, lo := 0, width := 64, acc := .ro, reset := 0x0, ret := false }

/-! ## Page kind `hlk` -/

/-- R433 (14), [2:0] RW, reset ret 0x4: 0 = 8, 1 = 12, 2 = 16, 3 = 24, 4 = 32 GT/s; applies at the next training -/
def Fld.HLK_LINK_CFG_max_rate : Fld :=
  { kind := .hlk, off := 0x100, stride := 0x0, count := 1, lo := 0, width := 3, acc := .rw, reset := 0x4, ret := true, rng := [(0, 4)] }

/-- R433 (14), [0] W1S, reset 0x0: Retrain the link; clears when training begins -/
def Fld.HLK_LINK_CTRL_retrain : Fld :=
  { kind := .hlk, off := 0x104, stride := 0x0, count := 1, lo := 0, width := 1, acc := .w1s, reset := 0x0, ret := false }

/-- R433 (14), [2:0] RO, reset hw: As max_rate -/
def Fld.HLK_LINK_STATUS_rate : Fld :=
  { kind := .hlk, off := 0x108, stride := 0x0, count := 1, lo := 0, width := 3, acc := .ro, reset := 0x0, ret := false }

/-- R433 (14), [3] RO, reset hw: Link up -/
def Fld.HLK_LINK_STATUS_up : Fld :=
  { kind := .hlk, off := 0x108, stride := 0x0, count := 1, lo := 3, width := 1, acc := .ro, reset := 0x0, ret := false }

/-- R433 (14), [5:4] RO, reset hw: Modules in use, 0 to 2 (R405) -/
def Fld.HLK_LINK_STATUS_modules : Fld :=
  { kind := .hlk, off := 0x108, stride := 0x0, count := 1, lo := 4, width := 2, acc := .ro, reset := 0x0, ret := false }

/-- R433 (14), [15:8] RO, reset hw: Lanes repaired -/
def Fld.HLK_LINK_STATUS_repaired : Fld :=
  { kind := .hlk, off := 0x108, stride := 0x0, count := 1, lo := 8, width := 8, acc := .ro, reset := 0x0, ret := false }

/-- R433 (14), [31:0] RO, reset 0x0: Flit replays -/
def Fld.HLK_CNT_REPLAY : Fld :=
  { kind := .hlk, off := 0x10C, stride := 0x0, count := 1, lo := 0, width := 32, acc := .ro, reset := 0x0, ret := false }

/-- R433 (14), [31:0] RO, reset 0x0: LINK_DOWN count -/
def Fld.HLK_CNT_DOWN : Fld :=
  { kind := .hlk, off := 0x110, stride := 0x0, count := 1, lo := 0, width := 32, acc := .ro, reset := 0x0, ret := false }

/-- R433 (14), [31:0] RO, reset 0x0: R406 -/
def Fld.HLK_CNT_WR_LOST : Fld :=
  { kind := .hlk, off := 0x114, stride := 0x0, count := 1, lo := 0, width := 32, acc := .ro, reset := 0x0, ret := false }

/-- R433 (14), [63:0] RO, reset 0x0: R407 -/
def Fld.HLK_DENY_OFFSET : Fld :=
  { kind := .hlk, off := 0x118, stride := 0x0, count := 1, lo := 0, width := 64, acc := .ro, reset := 0x0, ret := false }

/-- R433 (14), [0] WO, reset 0x0: Clears the counters -/
def Fld.HLK_CNT_CLR : Fld :=
  { kind := .hlk, off := 0x120, stride := 0x0, count := 1, lo := 0, width := 1, acc := .wo, reset := 0x0, ret := false }

/-! ## Page kind `cmd` -/

/-- R434 (14), [0] RW, reset ret 0x0: R410 -/
def Fld.CMD_PART_CFG_enable : Fld :=
  { kind := .cmd, off := 0x100, stride := 0x20, count := 8, lo := 0, width := 1, acc := .rw, reset := 0x0, ret := true }

/-- R434 (14), [1] RW, reset ret 0x0: 0 = LC, 1 = BE -/
def Fld.CMD_PART_CFG_class : Fld :=
  { kind := .cmd, off := 0x100, stride := 0x20, count := 8, lo := 1, width := 1, acc := .rw, reset := 0x0, ret := true }

/-- R434 (14), [2] RW, reset ret 0x0: R431 -/
def Fld.CMD_PART_CFG_auto_restart : Fld :=
  { kind := .cmd, off := 0x100, stride := 0x20, count := 8, lo := 2, width := 1, acc := .rw, reset := 0x0, ret := true }

/-- R434 (14), [15:8] RW, reset ret 0x0: Attention engines (R412) -/
def Fld.CMD_PART_CFG_atn : Fld :=
  { kind := .cmd, off := 0x100, stride := 0x20, count := 8, lo := 8, width := 8, acc := .rw, reset := 0x0, ret := true }

/-- R434 (14), [26:16] RW, reset ret 0x001: Job context quota, 1 to 1,024 -/
def Fld.CMD_PART_CFG_jobs : Fld :=
  { kind := .cmd, off := 0x100, stride := 0x20, count := 8, lo := 16, width := 11, acc := .rw, reset := 0x1, ret := true }

/-- R434 (14), [63:0] RW, reset ret 0x0: Logical cluster mask of an LC partition -/
def Fld.CMD_PART_CLU : Fld :=
  { kind := .cmd, off := 0x108, stride := 0x20, count := 8, lo := 0, width := 64, acc := .rw, reset := 0x0, ret := true }

/-- R434 (14), [31:0] RW, reset ret 0x0: D in cnt (R429) -/
def Fld.CMD_PART_DEADLINE : Fld :=
  { kind := .cmd, off := 0x110, stride := 0x20, count := 8, lo := 0, width := 32, acc := .rw, reset := 0x0, ret := true }

/-- R434 (14), [63:0] RO, reset hw: BE cluster set -/
def Fld.CMD_BE_CLU : Fld :=
  { kind := .cmd, off := 0x200, stride := 0x0, count := 1, lo := 0, width := 64, acc := .ro, reset := 0x0, ret := false }

/-- R434 (14), [10:0] RO, reset hw: Free job contexts -/
def Fld.CMD_JOBS_FREE : Fld :=
  { kind := .cmd, off := 0x208, stride := 0x0, count := 1, lo := 0, width := 11, acc := .ro, reset := 0x0, ret := false }

/-! ## Page kind `cmdPart` -/

/-- R435 (14), [6:0] RO, reset hw: Cluster count -/
def Fld.CMD_PART_STATUS_clusters : Fld :=
  { kind := .cmdPart, off := 0x100, stride := 0x0, count := 1, lo := 0, width := 7, acc := .ro, reset := 0x0, ret := false }

/-- R435 (14), [8] RO, reset hw: As CMD_PART_CFG.class -/
def Fld.CMD_PART_STATUS_class : Fld :=
  { kind := .cmdPart, off := 0x100, stride := 0x0, count := 1, lo := 8, width := 1, acc := .ro, reset := 0x0, ret := false }

/-- R435 (14), [9] RO, reset hw: Partition exists -/
def Fld.CMD_PART_STATUS_enabled : Fld :=
  { kind := .cmdPart, off := 0x100, stride := 0x0, count := 1, lo := 9, width := 1, acc := .ro, reset := 0x0, ret := false }

/-- R435 (14), [26:16] RO, reset hw: Job contexts not FREE, 0 to 1,024 -/
def Fld.CMD_PART_STATUS_jobs_active : Fld :=
  { kind := .cmdPart, off := 0x100, stride := 0x0, count := 1, lo := 16, width := 11, acc := .ro, reset := 0x0, ret := false }

/-- R435 (14), [0] WO, reset 0x0: R52 -/
def Fld.CMD_COMMIT_RELEASE : Fld :=
  { kind := .cmdPart, off := 0x104, stride := 0x0, count := 1, lo := 0, width := 1, acc := .wo, reset := 0x0, ret := false }

/-- R435 (14), [63:0] RW, reset ret 0x0: Region offset, 4 KiB aligned (R427) -/
def Fld.CMD_SAVE_BASE : Fld :=
  { kind := .cmdPart, off := 0x108, stride := 0x0, count := 1, lo := 0, width := 64, acc := .rw, reset := 0x0, ret := true }

/-- R435 (14), [31:0] RW, reset ret 0x0: Bytes, a multiple of 4 KiB -/
def Fld.CMD_SAVE_STRIDE : Fld :=
  { kind := .cmdPart, off := 0x110, stride := 0x0, count := 1, lo := 0, width := 32, acc := .rw, reset := 0x0, ret := true }

/-- R435 (14), [31:0] RO, reset 0x0: R429 -/
def Fld.CMD_CNT_DEADLINE : Fld :=
  { kind := .cmdPart, off := 0x114, stride := 0x0, count := 1, lo := 0, width := 32, acc := .ro, reset := 0x0, ret := false }

/-- R435 (14), [31:0] RO, reset 0x0: R431 -/
def Fld.CMD_CNT_ABORT : Fld :=
  { kind := .cmdPart, off := 0x118, stride := 0x0, count := 1, lo := 0, width := 32, acc := .ro, reset := 0x0, ret := false }

/-- R435 (14), [31:0] RO, reset 0x0: R431 -/
def Fld.CMD_CNT_RESTART : Fld :=
  { kind := .cmdPart, off := 0x11C, stride := 0x0, count := 1, lo := 0, width := 32, acc := .ro, reset := 0x0, ret := false }

/-- R435 (14), [31:0] RO, reset 0x0: R426 -/
def Fld.CMD_CNT_OVERRUN : Fld :=
  { kind := .cmdPart, off := 0x120, stride := 0x0, count := 1, lo := 0, width := 32, acc := .ro, reset := 0x0, ret := false }

/-- R435 (14), [0] WO, reset 0x0: Clears the counters -/
def Fld.CMD_CNT_CLR : Fld :=
  { kind := .cmdPart, off := 0x12C, stride := 0x0, count := 1, lo := 0, width := 1, acc := .wo, reset := 0x0, ret := false }

/-- R435 (14), [63:0] RW, reset 0x0: Image address (R186) -/
def Fld.CMD_PLAN_BASE : Fld :=
  { kind := .cmdPart, off := 0x200, stride := 0x40, count := 8, lo := 0, width := 64, acc := .rw, reset := 0x0, ret := false }

/-- R435 (14), [31:0] RW, reset 0x0: Image bytes -/
def Fld.CMD_PLAN_SIZE : Fld :=
  { kind := .cmdPart, off := 0x208, stride := 0x40, count := 8, lo := 0, width := 32, acc := .rw, reset := 0x0, ret := false }

/-- R435 (14), [0] W1S, reset 0x0: R186 -/
def Fld.CMD_PLAN_LOAD_go : Fld :=
  { kind := .cmdPart, off := 0x20C, stride := 0x40, count := 8, lo := 0, width := 1, acc := .w1s, reset := 0x0, ret := false }

/-- R435 (14), [1] RW, reset 0x0: R186 -/
def Fld.CMD_PLAN_LOAD_hold : Fld :=
  { kind := .cmdPart, off := 0x20C, stride := 0x40, count := 8, lo := 1, width := 1, acc := .rw, reset := 0x0, ret := false }

/-- R435 (14), [2] W1S, reset 0x0: R415 -/
def Fld.CMD_PLAN_LOAD_unload : Fld :=
  { kind := .cmdPart, off := 0x20C, stride := 0x40, count := 8, lo := 2, width := 1, acc := .w1s, reset := 0x0, ret := false }

/-- R435 (14), [1:0] RO, reset 0x0: 0 = EMPTY, 1 = ACTIVE, 2 = STOPPED -/
def Fld.CMD_PLAN_STATUS_state : Fld :=
  { kind := .cmdPart, off := 0x210, stride := 0x40, count := 8, lo := 0, width := 2, acc := .ro, reset := 0x0, ret := false }

/-- R435 (14), [5:4] RO, reset 0x0: 0 = NONE, 1 = CHECKING, 2 = PENDING, 3 = REFUSED -/
def Fld.CMD_PLAN_STATUS_load : Fld :=
  { kind := .cmdPart, off := 0x210, stride := 0x40, count := 8, lo := 4, width := 2, acc := .ro, reset := 0x0, ret := false }

/-- R435 (14), [15:8] RO, reset 0x0: Refusal code (R184, R412, R414) -/
def Fld.CMD_PLAN_STATUS_code : Fld :=
  { kind := .cmdPart, off := 0x210, stride := 0x40, count := 8, lo := 8, width := 8, acc := .ro, reset := 0x0, ret := false }

/-- R435 (14), [16] RO, reset 0x0: 0 = STREAM, 1 = BATCH -/
def Fld.CMD_PLAN_STATUS_mode : Fld :=
  { kind := .cmdPart, off := 0x210, stride := 0x40, count := 8, lo := 16, width := 1, acc := .ro, reset := 0x0, ret := false }

/-- R435 (14), [63:0] RW, reset 0x0: First step of the STREAM job -/
def Fld.CMD_PLAN_S0 : Fld :=
  { kind := .cmdPart, off := 0x218, stride := 0x40, count := 8, lo := 0, width := 64, acc := .rw, reset := 0x0, ret := false }

/-- R435 (14), [63:0] RW, reset 0x0: Seed of the STREAM job -/
def Fld.CMD_PLAN_SEED : Fld :=
  { kind := .cmdPart, off := 0x220, stride := 0x40, count := 8, lo := 0, width := 64, acc := .rw, reset := 0x0, ret := false }

/-- R435 (14), [63:0] RO, reset 0x0: Step counter of the STREAM job -/
def Fld.CMD_PLAN_STEP : Fld :=
  { kind := .cmdPart, off := 0x228, stride := 0x40, count := 8, lo := 0, width := 64, acc := .ro, reset := 0x0, ret := false }

/-- R435 (14), [9:0] RO, reset 0x0: Job context of the STREAM job -/
def Fld.CMD_PLAN_JOB_ctx : Fld :=
  { kind := .cmdPart, off := 0x230, stride := 0x40, count := 8, lo := 0, width := 10, acc := .ro, reset := 0x0, ret := false }

/-- R435 (14), [15] RO, reset 0x0: The STREAM job is not FREE -/
def Fld.CMD_PLAN_JOB_valid : Fld :=
  { kind := .cmdPart, off := 0x230, stride := 0x40, count := 8, lo := 15, width := 1, acc := .ro, reset := 0x0, ret := false }

/-- R435 (14), [25:16] RO, reset 0x0: Save index k -/
def Fld.CMD_PLAN_JOB_save : Fld :=
  { kind := .cmdPart, off := 0x230, stride := 0x40, count := 8, lo := 16, width := 10, acc := .ro, reset := 0x0, ret := false }

/-- R435 (14), [13:0] RW, reset 0x03E8: BE STREAM slice, 100 to 10,000 µs -/
def Fld.CMD_PLAN_SLICE_US : Fld :=
  { kind := .cmdPart, off := 0x234, stride := 0x40, count := 8, lo := 0, width := 14, acc := .rw, reset := 0x3E8, ret := false, rng := [(100, 10000)] }

/-- R435 (14), [63:0] RW, reset 0x0: Host address, 64-byte aligned -/
def Fld.CMD_SQ_BASE : Fld :=
  { kind := .cmdPart, off := 0x400, stride := 0x20, count := 16, lo := 0, width := 64, acc := .rw, reset := 0x0, ret := false }

/-- R435 (14), [3:0] RW, reset 0x0: 1 to 12 -/
def Fld.CMD_SQ_CFG_size_log2 : Fld :=
  { kind := .cmdPart, off := 0x408, stride := 0x20, count := 16, lo := 0, width := 4, acc := .rw, reset := 0x0, ret := false, rng := [(1, 12)] }

/-- R435 (14), [12:8] RW, reset 0x0: Completion queue -/
def Fld.CMD_SQ_CFG_cq : Fld :=
  { kind := .cmdPart, off := 0x408, stride := 0x20, count := 16, lo := 8, width := 5, acc := .rw, reset := 0x0, ret := false }

/-- R435 (14), [16] RW, reset 0x0: R418 -/
def Fld.CMD_SQ_CFG_enable : Fld :=
  { kind := .cmdPart, off := 0x408, stride := 0x20, count := 16, lo := 16, width := 1, acc := .rw, reset := 0x0, ret := false }

/-- R435 (14), [15:0] RW, reset 0x0: Doorbell -/
def Fld.CMD_SQ_TAIL : Fld :=
  { kind := .cmdPart, off := 0x40C, stride := 0x20, count := 16, lo := 0, width := 16, acc := .rw, reset := 0x0, ret := false }

/-- R435 (14), [15:0] RO, reset 0x0: Next entry to fetch -/
def Fld.CMD_SQ_HEAD : Fld :=
  { kind := .cmdPart, off := 0x410, stride := 0x20, count := 16, lo := 0, width := 16, acc := .ro, reset := 0x0, ret := false }

/-- R435 (14), [0] RO, reset 0x0: Queue stopped by an error -/
def Fld.CMD_SQ_STATUS_err : Fld :=
  { kind := .cmdPart, off := 0x414, stride := 0x20, count := 16, lo := 0, width := 1, acc := .ro, reset := 0x0, ret := false }

/-- R435 (14), [15:8] RO, reset 0x0: 0x01 = tail overrun, 0x02 = host read failed -/
def Fld.CMD_SQ_STATUS_err_code : Fld :=
  { kind := .cmdPart, off := 0x414, stride := 0x20, count := 16, lo := 8, width := 8, acc := .ro, reset := 0x0, ret := false }

/-- R435 (14), [63:0] RW, reset 0x0: Host address, 32-byte aligned -/
def Fld.CMD_CQ_BASE : Fld :=
  { kind := .cmdPart, off := 0x600, stride := 0x20, count := 32, lo := 0, width := 64, acc := .rw, reset := 0x0, ret := false }

/-- R435 (14), [3:0] RW, reset 0x0: 1 to 12 -/
def Fld.CMD_CQ_CFG_size_log2 : Fld :=
  { kind := .cmdPart, off := 0x608, stride := 0x20, count := 32, lo := 0, width := 4, acc := .rw, reset := 0x0, ret := false, rng := [(1, 12)] }

/-- R435 (14), [4] RW, reset 0x0: R423 -/
def Fld.CMD_CQ_CFG_irq : Fld :=
  { kind := .cmdPart, off := 0x608, stride := 0x20, count := 32, lo := 4, width := 1, acc := .rw, reset := 0x0, ret := false }

/-- R435 (14), [5] RW, reset 0x0: R418 -/
def Fld.CMD_CQ_CFG_enable : Fld :=
  { kind := .cmdPart, off := 0x608, stride := 0x20, count := 32, lo := 5, width := 1, acc := .rw, reset := 0x0, ret := false }

/-- R435 (14), [15:8] RW, reset 0x0: Entries per message -/
def Fld.CMD_CQ_CFG_coal_n : Fld :=
  { kind := .cmdPart, off := 0x608, stride := 0x20, count := 32, lo := 8, width := 8, acc := .rw, reset := 0x0, ret := false }

/-- R435 (14), [31:16] RW, reset 0x0: µs; 0 = no timer -/
def Fld.CMD_CQ_CFG_coal_us : Fld :=
  { kind := .cmdPart, off := 0x608, stride := 0x20, count := 32, lo := 16, width := 16, acc := .rw, reset := 0x0, ret := false }

/-- R435 (14), [15:0] RW, reset 0x0: Doorbell -/
def Fld.CMD_CQ_HEAD : Fld :=
  { kind := .cmdPart, off := 0x60C, stride := 0x20, count := 32, lo := 0, width := 16, acc := .rw, reset := 0x0, ret := false }

/-- R435 (14), [15:0] RO, reset 0x0: Next entry to write -/
def Fld.CMD_CQ_TAIL : Fld :=
  { kind := .cmdPart, off := 0x610, stride := 0x20, count := 32, lo := 0, width := 16, acc := .ro, reset := 0x0, ret := false }

/-- R435 (14), [255:0] RO, reset 0x0: SHA-256 of the slot's image (R185) -/
def Fld.CMD_PLAN_DIGEST : Fld :=
  { kind := .cmdPart, off := 0xA00, stride := 0x20, count := 8, lo := 0, width := 256, acc := .ro, reset := 0x0, ret := false }

/-! ## Page kind `dec` -/

/-- R462 (15), [5:0] RO, reset fuse: Decode engines, 32 -/
def Fld.DEC_INFO_engines : Fld :=
  { kind := .dec, off := 0x100, stride := 0x0, count := 1, lo := 0, width := 6, acc := .ro, reset := 0x0, ret := false, fuse := true }

/-- R462 (15), [31:0] RO, reset hw: One bit per engine decoding -/
def Fld.DEC_ENG_BUSY : Fld :=
  { kind := .dec, off := 0x104, stride := 0x0, count := 1, lo := 0, width := 32, acc := .ro, reset := 0x0, ret := false }

/-- R462 (15), [63:0] RW, reset ret 0x0: Region offset, 4 KiB aligned -/
def Fld.DEC_CACHE_BASE : Fld :=
  { kind := .dec, off := 0x108, stride := 0x0, count := 1, lo := 0, width := 64, acc := .rw, reset := 0x0, ret := true }

/-- R462 (15), [15:0] RW, reset ret 0x0: 0 = no cache -/
def Fld.DEC_CACHE_CFG_slots : Fld :=
  { kind := .dec, off := 0x110, stride := 0x0, count := 1, lo := 0, width := 16, acc := .rw, reset := 0x0, ret := true }

/-- R462 (15), [31:16] RW, reset ret 0x0: Slot size, KiB -/
def Fld.DEC_CACHE_CFG_slot_kib : Fld :=
  { kind := .dec, off := 0x110, stride := 0x0, count := 1, lo := 16, width := 16, acc := .rw, reset := 0x0, ret := true }

/-- R462 (15), [0] W1S, reset 0x0: R456; clears when done -/
def Fld.DEC_CACHE_CTRL_flush : Fld :=
  { kind := .dec, off := 0x114, stride := 0x0, count := 1, lo := 0, width := 1, acc := .w1s, reset := 0x0, ret := false }

/-- R462 (15), [31:0] RO, reset 0x0: Samples delivered -/
def Fld.DEC_CNT_SAMPLES : Fld :=
  { kind := .dec, off := 0x118, stride := 0x0, count := 1, lo := 0, width := 32, acc := .ro, reset := 0x0, ret := false }

/-- R462 (15), [31:0] RO, reset 0x0: Cache hits -/
def Fld.DEC_CNT_HIT : Fld :=
  { kind := .dec, off := 0x11C, stride := 0x0, count := 1, lo := 0, width := 32, acc := .ro, reset := 0x0, ret := false }

/-- R462 (15), [31:0] RO, reset 0x0: Cache misses -/
def Fld.DEC_CNT_MISS : Fld :=
  { kind := .dec, off := 0x120, stride := 0x0, count := 1, lo := 0, width := 32, acc := .ro, reset := 0x0, ret := false }

/-- R462 (15), [31:0] RO, reset 0x0: SKIP_BUDGET -/
def Fld.DEC_CNT_BUDGET : Fld :=
  { kind := .dec, off := 0x124, stride := 0x0, count := 1, lo := 0, width := 32, acc := .ro, reset := 0x0, ret := false }

/-- R462 (15), [31:0] RO, reset 0x0: SKIP_HEADER -/
def Fld.DEC_CNT_HEADER : Fld :=
  { kind := .dec, off := 0x128, stride := 0x0, count := 1, lo := 0, width := 32, acc := .ro, reset := 0x0, ret := false }

/-- R462 (15), [31:0] RO, reset 0x0: SKIP_FORMAT -/
def Fld.DEC_CNT_FORMAT : Fld :=
  { kind := .dec, off := 0x12C, stride := 0x0, count := 1, lo := 0, width := 32, acc := .ro, reset := 0x0, ret := false }

/-- R462 (15), [31:0] RO, reset 0x0: TRUNCATED -/
def Fld.DEC_CNT_TRUNC : Fld :=
  { kind := .dec, off := 0x130, stride := 0x0, count := 1, lo := 0, width := 32, acc := .ro, reset := 0x0, ret := false }

/-- R462 (15), [63:0] RO, reset 0x0: Symbols decoded -/
def Fld.DEC_SYMBOLS : Fld :=
  { kind := .dec, off := 0x138, stride := 0x0, count := 1, lo := 0, width := 64, acc := .ro, reset := 0x0, ret := false }

/-- R462 (15), [0] WO, reset 0x0: Clears the counters -/
def Fld.DEC_CNT_CLR : Fld :=
  { kind := .dec, off := 0x140, stride := 0x0, count := 1, lo := 0, width := 1, acc := .wo, reset := 0x0, ret := false }

/-! ## Page kind `cmdPart` -/

/-- R477 (16), [63:0] RW, reset 0x0: Region offset, 4 KiB aligned -/
def Fld.CMD_DIG_BASE : Fld :=
  { kind := .cmdPart, off := 0x140, stride := 0x0, count := 1, lo := 0, width := 64, acc := .rw, reset := 0x0, ret := false }

/-- R477 (16), [4:0] RW, reset 0x0: 4 to 20; others under R13 -/
def Fld.CMD_DIG_CFG_size_log2 : Fld :=
  { kind := .cmdPart, off := 0x148, stride := 0x0, count := 1, lo := 0, width := 5, acc := .rw, reset := 0x0, ret := false, rng := [(4, 20)] }

/-- R477 (16), [8] RW, reset 0x0: R473 -/
def Fld.CMD_DIG_CFG_enable : Fld :=
  { kind := .cmdPart, off := 0x148, stride := 0x0, count := 1, lo := 8, width := 1, acc := .rw, reset := 0x0, ret := false }

/-- R477 (16), [9] RW, reset 0x0: R474 -/
def Fld.CMD_DIG_CFG_overwrite : Fld :=
  { kind := .cmdPart, off := 0x148, stride := 0x0, count := 1, lo := 9, width := 1, acc := .rw, reset := 0x0, ret := false }

/-- R477 (16), [31:16] RW, reset 0x0: Entries; 0 = no DIGEST_WM -/
def Fld.CMD_DIG_CFG_wm : Fld :=
  { kind := .cmdPart, off := 0x148, stride := 0x0, count := 1, lo := 16, width := 16, acc := .rw, reset := 0x0, ret := false }

/-- R477 (16), [31:0] RO, reset 0x0: Entries written -/
def Fld.CMD_DIG_HEAD : Fld :=
  { kind := .cmdPart, off := 0x14C, stride := 0x0, count := 1, lo := 0, width := 32, acc := .ro, reset := 0x0, ret := false }

/-- R477 (16), [31:0] RW, reset 0x0: Entries consumed -/
def Fld.CMD_DIG_TAIL : Fld :=
  { kind := .cmdPart, off := 0x150, stride := 0x0, count := 1, lo := 0, width := 32, acc := .rw, reset := 0x0, ret := false }

/-- R477 (16), [31:0] RO, reset 0x0: Sequence of the next entry -/
def Fld.CMD_DIG_SEQ : Fld :=
  { kind := .cmdPart, off := 0x154, stride := 0x0, count := 1, lo := 0, width := 32, acc := .ro, reset := 0x0, ret := false }

/-- R477 (16), [31:0] RO, reset 0x0: Entries dropped -/
def Fld.CMD_DIG_LOST : Fld :=
  { kind := .cmdPart, off := 0x158, stride := 0x0, count := 1, lo := 0, width := 32, acc := .ro, reset := 0x0, ret := false }

/-- R477 (16), [63:0] RO, reset 0x0: Step measured (R468) -/
def Fld.CMD_STEP_MEAS : Fld :=
  { kind := .cmdPart, off := 0x160, stride := 0x0, count := 1, lo := 0, width := 64, acc := .ro, reset := 0x0, ret := false }

/-- R477 (16), [31:0] RO, reset 0x0: ACLK cycles; 0 unless the step ran wholly in FIXED mode (R468) -/
def Fld.CMD_STEP_LAT : Fld :=
  { kind := .cmdPart, off := 0x168, stride := 0x0, count := 1, lo := 0, width := 32, acc := .ro, reset := 0x0, ret := false }

/-- R477 (16), [15:0] RO, reset 0x0: Refresh occurrences -/
def Fld.CMD_STEP_REFRESH : Fld :=
  { kind := .cmdPart, off := 0x16C, stride := 0x0, count := 1, lo := 0, width := 16, acc := .ro, reset := 0x0, ret := false }

/-- R477 (16), [31:16] RO, reset 0x0: Peer resends waited for -/
def Fld.CMD_STEP_REPLAY : Fld :=
  { kind := .cmdPart, off := 0x16C, stride := 0x0, count := 1, lo := 16, width := 16, acc := .ro, reset := 0x0, ret := false }

/-- R477 (16), [0] RO, reset 0x0: Step started from idle -/
def Fld.CMD_STEP_IDLE : Fld :=
  { kind := .cmdPart, off := 0x170, stride := 0x0, count := 1, lo := 0, width := 1, acc := .ro, reset := 0x0, ret := false }

/-! ## Page kind `mgt` -/

/-- R510 (17), [0] RW, reset ret 0x0: 0 = BOOST, 1 = FIXED (R35) -/
def Fld.MGT_MODE_freq_mode : Fld :=
  { kind := .mgt, off := 0x100, stride := 0x0, count := 1, lo := 0, width := 1, acc := .rw, reset := 0x0, ret := true }

/-- R510 (17), [4] RW, reset ret 0x0: 0 = STRICT, 1 = RELAXED -/
def Fld.MGT_MODE_det_mode : Fld :=
  { kind := .mgt, off := 0x100, stride := 0x0, count := 1, lo := 4, width := 1, acc := .rw, reset := 0x0, ret := true }

/-- R510 (17), [0] WO, reset 0x0: R52 -/
def Fld.MGT_COMMIT_RELEASE : Fld :=
  { kind := .mgt, off := 0x104, stride := 0x0, count := 1, lo := 0, width := 1, acc := .wo, reset := 0x0, ret := false }

/-- R510 (17), [0] RO, reset hw: R482 -/
def Fld.MGT_RESET_CAUSE_power_on : Fld :=
  { kind := .mgt, off := 0x108, stride := 0x0, count := 1, lo := 0, width := 1, acc := .ro, reset := 0x0, ret := false }

/-- R510 (17), [1] RO, reset hw: R482 -/
def Fld.MGT_RESET_CAUSE_pin : Fld :=
  { kind := .mgt, off := 0x108, stride := 0x0, count := 1, lo := 1, width := 1, acc := .ro, reset := 0x0, ret := false }

/-- R510 (17), [2] RO, reset hw: R482 -/
def Fld.MGT_RESET_CAUSE_software : Fld :=
  { kind := .mgt, off := 0x108, stride := 0x0, count := 1, lo := 2, width := 1, acc := .ro, reset := 0x0, ret := false }

/-- R510 (17), [3] RO, reset hw: Coolant stop before this start -/
def Fld.MGT_RESET_CAUSE_coolant : Fld :=
  { kind := .mgt, off := 0x108, stride := 0x0, count := 1, lo := 3, width := 1, acc := .ro, reset := 0x0, ret := false }

/-- R510 (17), [4] RO, reset hw: Temperature stop before this start -/
def Fld.MGT_RESET_CAUSE_thermal : Fld :=
  { kind := .mgt, off := 0x108, stride := 0x0, count := 1, lo := 4, width := 1, acc := .ro, reset := 0x0, ret := false }

/-- R510 (17), [8] RO, reset hw: Warm start -/
def Fld.MGT_RESET_CAUSE_warm : Fld :=
  { kind := .mgt, off := 0x108, stride := 0x0, count := 1, lo := 8, width := 1, acc := .ro, reset := 0x0, ret := false }

/-- R510 (17), [9] RO, reset hw: R483 -/
def Fld.MGT_RESET_CAUSE_hbm_kept : Fld :=
  { kind := .mgt, off := 0x108, stride := 0x0, count := 1, lo := 9, width := 1, acc := .ro, reset := 0x0, ret := false }

/-- R510 (17), [10] RO, reset hw: Step 7 was performed at this start, cold or warm (R485) -/
def Fld.MGT_RESET_CAUSE_scrubbed : Fld :=
  { kind := .mgt, off := 0x108, stride := 0x0, count := 1, lo := 10, width := 1, acc := .ro, reset := 0x0, ret := false }

/-- R510 (17), [11] RO, reset hw: R490 -/
def Fld.MGT_RESET_CAUSE_minimal : Fld :=
  { kind := .mgt, off := 0x108, stride := 0x0, count := 1, lo := 11, width := 1, acc := .ro, reset := 0x0, ret := false }

/-- R510 (17), [0] W1S, reset 0x0: Reset after R483's wait -/
def Fld.MGT_RESET_go : Fld :=
  { kind := .mgt, off := 0x10C, stride := 0x0, count := 1, lo := 0, width := 1, acc := .w1s, reset := 0x0, ret := false }

/-- R510 (17), [4] RW, reset 0x0: 0 = WARM, 1 = COLD -/
def Fld.MGT_RESET_kind : Fld :=
  { kind := .mgt, off := 0x10C, stride := 0x0, count := 1, lo := 4, width := 1, acc := .rw, reset := 0x0, ret := false }

/-- R510 (17), [8] RW, reset 0x0: R485 -/
def Fld.MGT_RESET_scrub : Fld :=
  { kind := .mgt, off := 0x10C, stride := 0x0, count := 1, lo := 8, width := 1, acc := .rw, reset := 0x0, ret := false }

/-- R510 (17), [31:16] RW, reset 0x0: 0xC0DE -/
def Fld.MGT_RESET_key : Fld :=
  { kind := .mgt, off := 0x10C, stride := 0x0, count := 1, lo := 16, width := 16, acc := .rw, reset := 0x0, ret := false }

/-- R510 (17), [0] WO, reset 0x0: R489 -/
def Fld.MGT_START_OK : Fld :=
  { kind := .mgt, off := 0x110, stride := 0x0, count := 1, lo := 0, width := 1, acc := .wo, reset := 0x0, ret := false }

/-- R510 (17), [7:0] RO, reset hw: R488 -/
def Fld.MGT_START_FAILS : Fld :=
  { kind := .mgt, off := 0x114, stride := 0x0, count := 1, lo := 0, width := 8, acc := .ro, reset := 0x0, ret := false }

/-- R510 (17), [31:0] RO, reset hw: Starts since manufacture (R488) -/
def Fld.MGT_START_COUNT : Fld :=
  { kind := .mgt, off := 0x118, stride := 0x0, count := 1, lo := 0, width := 32, acc := .ro, reset := 0x0, ret := false }

/-- R510 (17), [71:0] RO, reset fuse: Bit k: physical cluster k disabled -/
def Fld.MGT_DISABLED : Fld :=
  { kind := .mgt, off := 0x120, stride := 0x0, count := 1, lo := 0, width := 72, acc := .ro, reset := 0x0, ret := false, fuse := true }

/-- R510 (17), [63:0] RO, reset fuse: Serial number -/
def Fld.MGT_SERIAL : Fld :=
  { kind := .mgt, off := 0x130, stride := 0x0, count := 1, lo := 0, width := 64, acc := .ro, reset := 0x0, ret := false, fuse := true }

/-- R510 (17), [31:0] RO, reset hw: R479 -/
def Fld.MGT_ROM_VERSION : Fld :=
  { kind := .mgt, off := 0x138, stride := 0x0, count := 1, lo := 0, width := 32, acc := .ro, reset := 0x0, ret := false }

/-- R510 (17), [31:0] RO, reset 0x0: R492 -/
def Fld.MGT_PATCH_VERSION : Fld :=
  { kind := .mgt, off := 0x13C, stride := 0x0, count := 1, lo := 0, width := 32, acc := .ro, reset := 0x0, ret := false }

/-- R510 (17), [255:0] RO, reset 0x0: R492 -/
def Fld.MGT_PATCH_DIGEST : Fld :=
  { kind := .mgt, off := 0x140, stride := 0x0, count := 1, lo := 0, width := 256, acc := .ro, reset := 0x0, ret := false }

/-- R510 (17), [7:0] RW, reset ret, see R501: Threshold, 0 to 255 -/
def Fld.MGT_FLT_CFG_thr : Fld :=
  { kind := .mgt, off := 0x180, stride := 0x4, count := 6, lo := 0, width := 8, acc := .rw, reset := 0x8, ret := true, resets := [8, 16, 4, 16, 8, 8] }

/-- R510 (17), [31:16] RW, reset ret, see R501: 1 to 65,535 ms; 0 under R13 -/
def Fld.MGT_FLT_CFG_leak_ms : Fld :=
  { kind := .mgt, off := 0x180, stride := 0x4, count := 6, lo := 16, width := 16, acc := .rw, reset := 0x8, ret := true, rng := [(1, 65535)], resets := [1000, 100, 10000, 100, 100, 1000] }

/-- R510 (17), [6:0] RW, reset 0x0: R503 -/
def Fld.MGT_FLT_FORCE_instance : Fld :=
  { kind := .mgt, off := 0x1A0, stride := 0x0, count := 1, lo := 0, width := 7, acc := .rw, reset := 0x0, ret := false }

/-- R510 (17), [10:8] RW, reset 0x0: Type code -/
def Fld.MGT_FLT_FORCE_type : Fld :=
  { kind := .mgt, off := 0x1A0, stride := 0x0, count := 1, lo := 8, width := 3, acc := .rw, reset := 0x0, ret := false, rng := [(0, 5)] }

/-- R510 (17), [31] W1S, reset 0x0: R503 -/
def Fld.MGT_FLT_FORCE_go : Fld :=
  { kind := .mgt, off := 0x1A0, stride := 0x0, count := 1, lo := 31, width := 1, acc := .w1s, reset := 0x0, ret := false }

/-- R510 (17), [6:0] RW, reset 0x0: Bucket shown -/
def Fld.MGT_FLT_SEL_instance : Fld :=
  { kind := .mgt, off := 0x1A4, stride := 0x0, count := 1, lo := 0, width := 7, acc := .rw, reset := 0x0, ret := false }

/-- R510 (17), [10:8] RW, reset 0x0: Type code -/
def Fld.MGT_FLT_SEL_type : Fld :=
  { kind := .mgt, off := 0x1A4, stride := 0x0, count := 1, lo := 8, width := 3, acc := .rw, reset := 0x0, ret := false, rng := [(0, 5)] }

/-- R510 (17), [7:0] RO, reset 0x0: b of the selected instance -/
def Fld.MGT_FLT_BUCKET : Fld :=
  { kind := .mgt, off := 0x1A8, stride := 0x0, count := 1, lo := 0, width := 8, acc := .ro, reset := 0x0, ret := false }

/-! ## Page kind `sec` -/

/-- R511 (17), [0] RO, reset fuse: R508 -/
def Fld.SEC_FUSE_CFG_debug_locked : Fld :=
  { kind := .sec, off := 0x100, stride := 0x0, count := 1, lo := 0, width := 1, acc := .ro, reset := 0x0, ret := false, fuse := true }

/-- R511 (17), [31:16] RO, reset fuse: R492 -/
def Fld.SEC_FUSE_CFG_svn_min : Fld :=
  { kind := .sec, off := 0x100, stride := 0x0, count := 1, lo := 16, width := 16, acc := .ro, reset := 0x0, ret := false, fuse := true }

/-- R511 (17), [255:0] RO, reset fuse: R492 -/
def Fld.SEC_VKEY_HASH : Fld :=
  { kind := .sec, off := 0x110, stride := 0x0, count := 1, lo := 0, width := 256, acc := .ro, reset := 0x0, ret := false, fuse := true }

/-- R511 (17), [63:0] RW, reset 0x0: Host address (R491) -/
def Fld.SEC_PATCH_ADDR : Fld :=
  { kind := .sec, off := 0x140, stride := 0x0, count := 1, lo := 0, width := 64, acc := .rw, reset := 0x0, ret := false }

/-- R511 (17), [20:0] RW, reset 0x0: Bytes -/
def Fld.SEC_PATCH_LEN : Fld :=
  { kind := .sec, off := 0x148, stride := 0x0, count := 1, lo := 0, width := 21, acc := .rw, reset := 0x0, ret := false }

/-- R511 (17), [0] W1S, reset 0x0: R491 -/
def Fld.SEC_PATCH_CTRL_go : Fld :=
  { kind := .sec, off := 0x14C, stride := 0x0, count := 1, lo := 0, width := 1, acc := .w1s, reset := 0x0, ret := false }

/-- R511 (17), [1] W1S, reset 0x0: R491 -/
def Fld.SEC_PATCH_CTRL_none : Fld :=
  { kind := .sec, off := 0x14C, stride := 0x0, count := 1, lo := 1, width := 1, acc := .w1s, reset := 0x0, ret := false }

/-- R511 (17), [3:0] RO, reset 0x0: R492, R490 -/
def Fld.SEC_PATCH_STATUS_result : Fld :=
  { kind := .sec, off := 0x150, stride := 0x0, count := 1, lo := 0, width := 4, acc := .ro, reset := 0x0, ret := false }

/-- R511 (17), [8] RO, reset hw: Patch window open -/
def Fld.SEC_PATCH_STATUS_window : Fld :=
  { kind := .sec, off := 0x150, stride := 0x0, count := 1, lo := 8, width := 1, acc := .ro, reset := 0x0, ret := false }

/-- R511 (17), [255:0] RW, reset 0x0: R506 -/
def Fld.SEC_ATT_NONCE : Fld :=
  { kind := .sec, off := 0x160, stride := 0x0, count := 1, lo := 0, width := 256, acc := .rw, reset := 0x0, ret := false }

/-- R511 (17), [63:0] RW, reset 0x0: R506 -/
def Fld.SEC_ATT_ADDR : Fld :=
  { kind := .sec, off := 0x180, stride := 0x0, count := 1, lo := 0, width := 64, acc := .rw, reset := 0x0, ret := false }

/-- R511 (17), [0] W1S, reset 0x0: R506 -/
def Fld.SEC_ATT_CTRL_go : Fld :=
  { kind := .sec, off := 0x188, stride := 0x0, count := 1, lo := 0, width := 1, acc := .w1s, reset := 0x0, ret := false }

/-- R511 (17), [1:0] RO, reset 0x0: 0 = IDLE, 1 = BUSY, 2 = DONE, 3 = FAILED -/
def Fld.SEC_ATT_STATUS_state : Fld :=
  { kind := .sec, off := 0x18C, stride := 0x0, count := 1, lo := 0, width := 2, acc := .ro, reset := 0x0, ret := false }

/-- R511 (17), [31:16] RO, reset 0x0: Reports since start -/
def Fld.SEC_ATT_STATUS_count : Fld :=
  { kind := .sec, off := 0x18C, stride := 0x0, count := 1, lo := 16, width := 16, acc := .ro, reset := 0x0, ret := false }

/-! ## Page kind `ret` -/

/-- R512 (17), [0] W1S, reset 0x0: R496 -/
def Fld.RET_CTRL_snap : Fld :=
  { kind := .ret, off := 0x100, stride := 0x0, count := 1, lo := 0, width := 1, acc := .w1s, reset := 0x0, ret := false }

/-- R512 (17), [1] W1S, reset 0x0: R498 -/
def Fld.RET_CTRL_erase : Fld :=
  { kind := .ret, off := 0x100, stride := 0x0, count := 1, lo := 1, width := 1, acc := .w1s, reset := 0x0, ret := false }

/-- R512 (17), [0] RO, reset 0x0: Velvet write in progress -/
def Fld.RET_STATUS_busy : Fld :=
  { kind := .ret, off := 0x104, stride := 0x0, count := 1, lo := 0, width := 1, acc := .ro, reset := 0x0, ret := false }

/-- R512 (17), [3:1] RO, reset 0x0: 0 = NONE, 1 = OK, 2 = REFUSED, 3 = WRITE_FAIL -/
def Fld.RET_STATUS_last : Fld :=
  { kind := .ret, off := 0x104, stride := 0x0, count := 1, lo := 1, width := 3, acc := .ro, reset := 0x0, ret := false }

/-- R512 (17), [4] RO, reset hw: Copy holding the last committed snapshot -/
def Fld.RET_STATUS_copy : Fld :=
  { kind := .ret, off := 0x104, stride := 0x0, count := 1, lo := 4, width := 1, acc := .ro, reset := 0x0, ret := false }

/-- R512 (17), [9:8] RO, reset hw: 0 = SNAPSHOT, 1 = BLANK, 2 = BAD, 3 = MINIMAL -/
def Fld.RET_STATUS_source : Fld :=
  { kind := .ret, off := 0x104, stride := 0x0, count := 1, lo := 8, width := 2, acc := .ro, reset := 0x0, ret := false }

/-- R512 (17), [31:0] RO, reset hw: Last committed sequence -/
def Fld.RET_SNAP_SEQ : Fld :=
  { kind := .ret, off := 0x108, stride := 0x0, count := 1, lo := 0, width := 32, acc := .ro, reset := 0x0, ret := false }

/-- R512 (17), [31:0] RO, reset hw: Its entry count -/
def Fld.RET_SNAP_ENTRIES : Fld :=
  { kind := .ret, off := 0x10C, stride := 0x0, count := 1, lo := 0, width := 32, acc := .ro, reset := 0x0, ret := false }

/-- R512 (17), [15:0] RO, reset hw: R500 -/
def Fld.RET_RESTORE_ignored : Fld :=
  { kind := .ret, off := 0x110, stride := 0x0, count := 1, lo := 0, width := 16, acc := .ro, reset := 0x0, ret := false }

/-- R512 (17), [31:16] RO, reset hw: R500 -/
def Fld.RET_RESTORE_refused : Fld :=
  { kind := .ret, off := 0x110, stride := 0x0, count := 1, lo := 16, width := 16, acc := .ro, reset := 0x0, ret := false }

/-- R512 (17), [63:0] RO, reset hw: Record bitmap (R504) -/
def Fld.RET_RETIRED_PC : Fld :=
  { kind := .ret, off := 0x120, stride := 0x0, count := 1, lo := 0, width := 64, acc := .ro, reset := 0x0, ret := false }

/-- R512 (17), [23:0] RO, reset hw: Record bitmap -/
def Fld.RET_RETIRED_LANE : Fld :=
  { kind := .ret, off := 0x128, stride := 0x0, count := 1, lo := 0, width := 24, acc := .ro, reset := 0x0, ret := false }

/-- R512 (17), [3:0] RO, reset hw: Record bitmap -/
def Fld.RET_RETIRED_PORTS_enc : Fld :=
  { kind := .ret, off := 0x12C, stride := 0x0, count := 1, lo := 0, width := 4, acc := .ro, reset := 0x0, ret := false }

/-- R512 (17), [11:8] RO, reset hw: Record bitmap -/
def Fld.RET_RETIRED_PORTS_vp : Fld :=
  { kind := .ret, off := 0x12C, stride := 0x0, count := 1, lo := 8, width := 4, acc := .ro, reset := 0x0, ret := false }

/-- R512 (17), [31:0] RO, reset hw: Record bitmap -/
def Fld.RET_RETIRED_FI : Fld :=
  { kind := .ret, off := 0x130, stride := 0x0, count := 1, lo := 0, width := 32, acc := .ro, reset := 0x0, ret := false }

/-- R512 (17), [71:0] RO, reset hw: Record bitmap, physical clusters -/
def Fld.RET_RETIRED_CLU : Fld :=
  { kind := .ret, off := 0x138, stride := 0x0, count := 1, lo := 0, width := 72, acc := .ro, reset := 0x0, ret := false }

/-- R512 (17), [6:0] RW, reset 0x0: R505 -/
def Fld.RET_RETIRE_CLR_instance : Fld :=
  { kind := .ret, off := 0x148, stride := 0x0, count := 1, lo := 0, width := 7, acc := .rw, reset := 0x0, ret := false }

/-- R512 (17), [10:8] RW, reset 0x0: Type code -/
def Fld.RET_RETIRE_CLR_type : Fld :=
  { kind := .ret, off := 0x148, stride := 0x0, count := 1, lo := 8, width := 3, acc := .rw, reset := 0x0, ret := false, rng := [(0, 5)] }

/-- R512 (17), [31] W1S, reset 0x0: R505 -/
def Fld.RET_RETIRE_CLR_go : Fld :=
  { kind := .ret, off := 0x148, stride := 0x0, count := 1, lo := 31, width := 1, acc := .w1s, reset := 0x0, ret := false }

/-- R512 (17), [5:0] RW, reset 0x0: Ring entry shown -/
def Fld.RET_LOG_SEL : Fld :=
  { kind := .ret, off := 0x150, stride := 0x0, count := 1, lo := 0, width := 6, acc := .rw, reset := 0x0, ret := false }

/-- R512 (17), [6:0] RO, reset hw: Entries held, 0 to 64 -/
def Fld.RET_LOG_COUNT : Fld :=
  { kind := .ret, off := 0x154, stride := 0x0, count := 1, lo := 0, width := 7, acc := .ro, reset := 0x0, ret := false }

/-- R512 (17), [63:0] RO, reset hw: Selected entry -/
def Fld.RET_LOG : Fld :=
  { kind := .ret, off := 0x158, stride := 0x0, count := 1, lo := 0, width := 64, acc := .ro, reset := 0x0, ret := false }

/-! ## Page kind `pwr` -/

/-- R528 (18), [4:0] RW, reset ret 0x04: Slope time, 1 to 16 µs (R522) -/
def Fld.PWR_RAMP_us : Fld :=
  { kind := .pwr, off := 0x100, stride := 0x0, count := 1, lo := 0, width := 5, acc := .rw, reset := 0x4, ret := true }

/-- R528 (18), [4:0] RW, reset ret 0x00: Lowest BOOST point, 0 to 22 (R519) -/
def Fld.PWR_FREQ_min_step : Fld :=
  { kind := .pwr, off := 0x104, stride := 0x0, count := 1, lo := 0, width := 5, acc := .rw, reset := 0x0, ret := true }

/-- R528 (18), [12:8] RW, reset ret 0x16: Highest BOOST point, 0 to 22 -/
def Fld.PWR_FREQ_max_step : Fld :=
  { kind := .pwr, off := 0x104, stride := 0x0, count := 1, lo := 8, width := 5, acc := .rw, reset := 0x16, ret := true }

/-- R528 (18), [6:0] RW, reset ret 0x78: Limit of every rail group, 40 to 120 A (R520, R521) -/
def Fld.PWR_RAIL_LIMIT : Fld :=
  { kind := .pwr, off := 0x108, stride := 0x0, count := 1, lo := 0, width := 7, acc := .rw, reset := 0x78, ret := true }

/-! ## Page kind `pmc` -/

/-- R539 (19), [1] W1S, reset 0x0: R536 -/
def Fld.PMC_CTRL_freeze : Fld :=
  { kind := .pmc, off := 0x100, stride := 0x0, count := 1, lo := 1, width := 1, acc := .w1s, reset := 0x0, ret := false }

/-- R539 (19), [2] RO, reset 0x0: Freeze complete -/
def Fld.PMC_CTRL_frozen : Fld :=
  { kind := .pmc, off := 0x100, stride := 0x0, count := 1, lo := 2, width := 1, acc := .ro, reset := 0x0, ret := false }

/-- R539 (19), [3] W1S, reset 0x0: R536 -/
def Fld.PMC_CTRL_unfreeze : Fld :=
  { kind := .pmc, off := 0x100, stride := 0x0, count := 1, lo := 3, width := 1, acc := .w1s, reset := 0x0, ret := false }

/-- R539 (19), [15:8] RW, reset 0x0: R538 -/
def Fld.PMC_CTRL_part_cfg : Fld :=
  { kind := .pmc, off := 0x100, stride := 0x0, count := 1, lo := 8, width := 8, acc := .rw, reset := 0x0, ret := false }

/-- R539 (19), [4:0] RW, reset 0x0: Compare unit -/
def Fld.PMC_FRZ_SRC_cmp : Fld :=
  { kind := .pmc, off := 0x104, stride := 0x0, count := 1, lo := 0, width := 5, acc := .rw, reset := 0x0, ret := false }

/-- R539 (19), [8] RW, reset 0x0: R536 -/
def Fld.PMC_FRZ_SRC_cmp_en : Fld :=
  { kind := .pmc, off := 0x104, stride := 0x0, count := 1, lo := 8, width := 1, acc := .rw, reset := 0x0, ret := false }

/-- R539 (19), [31:0] W1C, reset 0x0: R535 -/
def Fld.PMC_OVF : Fld :=
  { kind := .pmc, off := 0x108, stride := 0x0, count := 1, lo := 0, width := 32, acc := .w1c, reset := 0x0, ret := false }

/-- R539 (19), [31:0] W1C, reset 0x0: R534 -/
def Fld.PMC_XING : Fld :=
  { kind := .pmc, off := 0x10C, stride := 0x0, count := 1, lo := 0, width := 32, acc := .w1c, reset := 0x0, ret := false }

/-- R539 (19), [31:0] WO, reset 0x0: Bit n clears counter n (R537) -/
def Fld.PMC_CLR : Fld :=
  { kind := .pmc, off := 0x110, stride := 0x0, count := 1, lo := 0, width := 32, acc := .wo, reset := 0x0, ret := false }

/-- R539 (19), [7:0] RW, reset 0x0: R531 -/
def Fld.PMC_CNT_SEL_event : Fld :=
  { kind := .pmc, off := 0x200, stride := 0x8, count := 32, lo := 0, width := 8, acc := .rw, reset := 0x0, ret := false, rng := [(1, 6), (8, 11), (16, 22), (24, 26), (32, 38), (40, 40), (48, 52), (56, 56)] }

/-- R539 (19), [15:8] RW, reset 0x0: Instance -/
def Fld.PMC_CNT_SEL_instance : Fld :=
  { kind := .pmc, off := 0x200, stride := 0x8, count := 32, lo := 8, width := 8, acc := .rw, reset := 0x0, ret := false }

/-- R539 (19), [16] RW, reset 0x0: R531 -/
def Fld.PMC_CNT_SEL_inst_any : Fld :=
  { kind := .pmc, off := 0x200, stride := 0x8, count := 32, lo := 16, width := 1, acc := .rw, reset := 0x0, ret := false }

/-- R539 (19), [18:17] RW, reset 0x0: 0 = COUNT, 1 = SUM, 2 = ABOVE -/
def Fld.PMC_CNT_SEL_mode : Fld :=
  { kind := .pmc, off := 0x200, stride := 0x8, count := 32, lo := 17, width := 2, acc := .rw, reset := 0x0, ret := false, rng := [(0, 2)] }

/-- R539 (19), [22:20] RW, reset 0x0: R533 -/
def Fld.PMC_CNT_SEL_part : Fld :=
  { kind := .pmc, off := 0x200, stride := 0x8, count := 32, lo := 20, width := 3, acc := .rw, reset := 0x0, ret := false }

/-- R539 (19), [23] RW, reset 0x0: R533 -/
def Fld.PMC_CNT_SEL_part_en : Fld :=
  { kind := .pmc, off := 0x200, stride := 0x8, count := 32, lo := 23, width := 1, acc := .rw, reset := 0x0, ret := false }

/-- R539 (19), [24] RW, reset 0x0: Counter counts -/
def Fld.PMC_CNT_SEL_enable : Fld :=
  { kind := .pmc, off := 0x200, stride := 0x8, count := 32, lo := 24, width := 1, acc := .rw, reset := 0x0, ret := false }

/-- R539 (19), [25] RW, reset 0x0: R535; odd n only -/
def Fld.PMC_CNT_SEL_chain : Fld :=
  { kind := .pmc, off := 0x200, stride := 0x8, count := 32, lo := 25, width := 1, acc := .rw, reset := 0x0, ret := false }

/-- R539 (19), [26] RW, reset 0x0: R536 -/
def Fld.PMC_CNT_SEL_ovf_frz : Fld :=
  { kind := .pmc, off := 0x200, stride := 0x8, count := 32, lo := 26, width := 1, acc := .rw, reset := 0x0, ret := false }

/-- R539 (19), [27] RW, reset 0x0: R535 -/
def Fld.PMC_CNT_SEL_ovf_irq : Fld :=
  { kind := .pmc, off := 0x200, stride := 0x8, count := 32, lo := 27, width := 1, acc := .rw, reset := 0x0, ret := false }

/-- R539 (19), [28] RW, reset 0x0: R534 -/
def Fld.PMC_CNT_SEL_xing_irq : Fld :=
  { kind := .pmc, off := 0x200, stride := 0x8, count := 32, lo := 28, width := 1, acc := .rw, reset := 0x0, ret := false }

/-- R539 (19), [15:0] RW, reset 0x0: R532, R534; 0 = no detector -/
def Fld.PMC_CNT_THR_thr : Fld :=
  { kind := .pmc, off := 0x204, stride := 0x8, count := 32, lo := 0, width := 16, acc := .rw, reset := 0x0, ret := false }

/-- R539 (19), [18:16] RW, reset 0x0: R538 -/
def Fld.PMC_CNT_THR_view : Fld :=
  { kind := .pmc, off := 0x204, stride := 0x8, count := 32, lo := 16, width := 3, acc := .rw, reset := 0x0, ret := false }

/-- R539 (19), [19] RW, reset 0x0: R538 -/
def Fld.PMC_CNT_THR_view_en : Fld :=
  { kind := .pmc, off := 0x204, stride := 0x8, count := 32, lo := 19, width := 1, acc := .rw, reset := 0x0, ret := false }

/-- R539 (19), [31:0] RW, reset 0x0: Count -/
def Fld.PMC_CNT : Fld :=
  { kind := .pmc, off := 0x400, stride := 0x4, count := 32, lo := 0, width := 32, acc := .rw, reset := 0x0, ret := false }

/-! ## Page kind `clu` -/

/-- R540 (19), [7:0] RW, reset 0x0: Event code; others under R13 -/
def Fld.CLU_PMC_SEL_event : Fld :=
  { kind := .clu, off := 0x200, stride := 0x4, count := 4, lo := 0, width := 8, acc := .rw, reset := 0x0, ret := false, rng := [(16, 19), (32, 33)] }

/-- R540 (19), [9:8] RW, reset 0x0: 0 = COUNT, 1 = SUM; 2 counts nothing -/
def Fld.CLU_PMC_SEL_mode : Fld :=
  { kind := .clu, off := 0x200, stride := 0x4, count := 4, lo := 8, width := 2, acc := .rw, reset := 0x0, ret := false, rng := [(0, 2)] }

/-- R540 (19), [16] RW, reset 0x0: Counter counts -/
def Fld.CLU_PMC_SEL_enable : Fld :=
  { kind := .clu, off := 0x200, stride := 0x4, count := 4, lo := 16, width := 1, acc := .rw, reset := 0x0, ret := false }

/-- R540 (19), [31:0] RW, reset 0x0: Count -/
def Fld.CLU_PMC_CNT : Fld :=
  { kind := .clu, off := 0x210, stride := 0x4, count := 4, lo := 0, width := 32, acc := .rw, reset := 0x0, ret := false }

/-! ## Raw areas of pages, word by word -/

/-- R409 (14): PF0's MSI-X table, 64 entries of four words -/
def Fld.MSIX_TABLE_PF0 : Fld :=
  { kind := .cmd, off := 0x800, stride := 0x4, count := 256, lo := 0, width := 32, acc := .rw, reset := 0x0, ret := false,
    resets := (List.replicate 64 [0, 0, 0, 1]).flatten }

/-- R409 (14): PF0's pending bits -/
def Fld.MSIX_PBA_PF0 : Fld :=
  { kind := .cmd, off := 0xC00, lo := 0, width := 64, acc := .ro, reset := 0x0, ret := false }

/-- R409 (14): MSI-X table of the partition's function -/
def Fld.MSIX_TABLE : Fld :=
  { kind := .cmdPart, off := 0xB00, stride := 0x4, count := 256, lo := 0, width := 32, acc := .rw, reset := 0x0, ret := false,
    resets := (List.replicate 64 [0, 0, 0, 1]).flatten }

/-- R409 (14): the pending bits of the partition's function -/
def Fld.MSIX_PBA : Fld :=
  { kind := .cmdPart, off := 0xF00, lo := 0, width := 64, acc := .ro, reset := 0x0, ret := false }

/-- R68 (03): transmit mailbox buffer -/
def Fld.LAN_MBX_TX : Fld :=
  { kind := .lan, off := 0x600, stride := 0x4, count := 128, lo := 0, width := 32, acc := .rw, reset := 0x0, ret := false }

/-- R69 (03): receive mailbox slots -/
def Fld.LAN_MBX_RX : Fld :=
  { kind := .lan, off := 0x800, stride := 0x4, count := 512, lo := 0, width := 32, acc := .ro, reset := 0x0, ret := false }

/-! ## Scalars beside the registers

State that the spec gives the block without a register of its own. Their offsets lie past the 4 KiB of the page, so no
host access reaches them. -/

/-- R78 (03): code errors in the present 1 ms window -/
def Fld.LANX_WIN_ERRORS : Fld :=
  { kind := .lan, off := 0x2000, lo := 0, width := 32, acc := .ro, reset := 0x0, ret := false }

/-- R78 (03): CODE_BURST was raised in the present window -/
def Fld.LANX_BURST : Fld :=
  { kind := .lan, off := 0x2004, lo := 0, width := 1, acc := .ro, reset := 0x0, ret := false }

/-- R71 (03): one more than the tick of the last trigger sent; 0 when none was -/
def Fld.LANX_TRIG_TICK : Fld :=
  { kind := .lan, off := 0x2008, lo := 0, width := 64, acc := .ro, reset := 0x0, ret := false }

/-- R76, R77 (03): target of the receiver's power transition -/
def Fld.LANX_RX_TARGET : Fld :=
  { kind := .lan, off := 0x2010, lo := 0, width := 2, acc := .ro, reset := 0x2, ret := false }

/-- R76, R77 (03): target of the transmitter's power transition -/
def Fld.LANX_TX_TARGET : Fld :=
  { kind := .lan, off := 0x2010, lo := 2, width := 2, acc := .ro, reset := 0x2, ret := false }

/-- R72 (03): the speed that discovery tries, as cxp_speed; 0 when none -/
def Fld.LANX_TRY_SPEED : Fld :=
  { kind := .lan, off := 0x2014, lo := 0, width := 3, acc := .ro, reset := 0x0, ret := false }

/-- R75 (03): the peaking that the last calibration found -/
def Fld.LANX_EQ_CTLE : Fld :=
  { kind := .lan, off := 0x201C, lo := 0, width := 8, acc := .ro, reset := 0x0, ret := false }

/-- R75 (03): the first tap that the last calibration found -/
def Fld.LANX_EQ_DFE : Fld :=
  { kind := .lan, off := 0x201C, lo := 8, width := 8, acc := .ro, reset := 0x0, ret := false }

/-- R74, R84 (03): boundary slips written so far, modulo 2^8 -/
def Fld.LANX_SLIPS : Fld :=
  { kind := .lan, off := 0x2018, lo := 0, width := 8, acc := .ro, reset := 0x0, ret := false }

/-- R534 (19): the crossing detector is disarmed -/
def Fld.PMCX_DISARMED : Fld :=
  { kind := .pmc, off := 0x2000, stride := 0x4, count := 32, lo := 0, width := 1, acc := .ro, reset := 0x0, ret := false }

/-- R532 (19): the occupancy sampled last -/
def Fld.PMCX_LAST : Fld :=
  { kind := .pmc, off := 0x2100, stride := 0x8, count := 32, lo := 0, width := 64, acc := .ro, reset := 0x0, ret := false }

/-- R532, R540 (19): the occupancy that a counter of a CLU page sampled last -/
def Fld.CLUX_PMC_LAST : Fld :=
  { kind := .clu, off := 0x2100, stride := 0x4, count := 4, lo := 0, width := 16, acc := .ro, reset := 0x0, ret := false }

/-- R510 (17): STATUS [8] of the MGT page, the start is complete -/
def Fld.MGT_STATUS_ready : Fld :=
  { kind := .mgt, off := 0xC, lo := 8, width := 1, acc := .ro, reset := 0x0, ret := false }

/-- R510 (17): STATUS [15:12] of the MGT page, the start step -/
def Fld.MGT_STATUS_step : Fld :=
  { kind := .mgt, off := 0xC, lo := 12, width := 4, acc := .ro, reset := 0x1, ret := false }

/-- R524, R525 (18): the device has stopped -/
def Fld.MGTX_STOPPED : Fld :=
  { kind := .mgt, off := 0x2000, lo := 0, width := 1, acc := .ro, reset := 0x0, ret := false }

/-- R297 (10): tokens of the partition's regulator, in half units -/
def Fld.BWX_TOKENS : Fld :=
  { kind := .memPart, off := 0x2000, lo := 0, width := 32, acc := .ro, reset := 0x0, ret := false }

/-- R297 (10): half units used in the present window -/
def Fld.BWX_USED : Fld :=
  { kind := .memPart, off := 0x2004, lo := 0, width := 32, acc := .ro, reset := 0x0, ret := false }

/-- R297 (10): half units of them borrowed -/
def Fld.BWX_BORROWED : Fld :=
  { kind := .memPart, off := 0x2008, lo := 0, width := 32, acc := .ro, reset := 0x0, ret := false }

/-- R297 (10): half units of requests deferred to the next window -/
def Fld.BWX_DEFERRED : Fld :=
  { kind := .memPart, off := 0x200C, lo := 0, width := 32, acc := .ro, reset := 0x0, ret := false }

/-- R301 (10): the ceiling of the present window -/
def Fld.BWX_CEIL : Fld :=
  { kind := .memPart, off := 0x2010, lo := 0, width := 16, acc := .ro, reset := 0x6400, ret := false }

/-- R315 (10): corrected errors in the present 1 ms window -/
def Fld.PCX_WIN_CE : Fld :=
  { kind := .memPc, off := 0x2000, lo := 0, width := 32, acc := .ro, reset := 0x0, ret := false }

/-- R315 (10): CE_THR was raised in the present window -/
def Fld.PCX_CE_DONE : Fld :=
  { kind := .memPc, off := 0x2004, lo := 0, width := 1, acc := .ro, reset := 0x0, ret := false }

/-- R331 (11): a good sine and cosine sample has been taken since enable -/
def Fld.ENCX_AVALID : Fld :=
  { kind := .enc, off := 0x2000, lo := 0, width := 1, acc := .ro, reset := 0x0, ret := false }

/-- R331 (11): the angle code of the last good sample -/
def Fld.ENCX_APREV : Fld :=
  { kind := .enc, off := 0x2004, lo := 0, width := 10, acc := .ro, reset := 0x0, ret := false }

/-- R329 (11): a good word has been taken since enable -/
def Fld.ENCX_WVALID : Fld :=
  { kind := .enc, off := 0x2008, lo := 0, width := 1, acc := .ro, reset := 0x0, ret := false }

/-- R329 (11): the last good word, in binary -/
def Fld.ENCX_WPREV : Fld :=
  { kind := .enc, off := 0x2010, lo := 0, width := 48, acc := .ro, reset := 0x0, ret := false }

/-- R340 (11): length of the present run of bad samples -/
def Fld.ENCX_RUN : Fld :=
  { kind := .enc, off := 0x2018, lo := 0, width := 32, acc := .ro, reset := 0x0, ret := false }

/-- R335 (11): signed counts in the present speed window -/
def Fld.ENCX_COUNT : Fld :=
  { kind := .enc, off := 0x2020, lo := 0, width := 64, acc := .ro, reset := 0x0, ret := false }

/-- R335 (11): length in microseconds of the present speed window -/
def Fld.ENCX_WLEN : Fld :=
  { kind := .enc, off := 0x2028, lo := 0, width := 17, acc := .ro, reset := 0x3E8, ret := false }

/-- R335 (11): the tick at which the present speed window ends -/
def Fld.ENCX_WEND : Fld :=
  { kind := .enc, off := 0x2030, lo := 0, width := 64, acc := .ro, reset := 0x0, ret := false }

/-- R335 (11): index of the present speed window -/
def Fld.ENCX_WIDX : Fld :=
  { kind := .enc, off := 0x2098, stride := 0x0, count := 1, lo := 0, width := 32, acc := .ro, reset := 0x0, ret := false }

/-- R330, R331 (11): an absolute frame or a conversion is running -/
def Fld.ENCX_BUSY : Fld :=
  { kind := .enc, off := 0x2038, lo := 0, width := 1, acc := .ro, reset := 0x0, ret := false }

/-- R330, R331 (11): one more than the tick at which the last frame completed, or the last conversion started; 0 when none did -/
def Fld.ENCX_LAST : Fld :=
  { kind := .enc, off := 0x2040, lo := 0, width := 64, acc := .ro, reset := 0x0, ret := false }

/-- R337 (11): ENC_BACKUP_DELTA has been set since the last write of ENC_SEL -/
def Fld.ENCX_DELTA_SET : Fld :=
  { kind := .enc, off := 0x2048, lo := 0, width := 1, acc := .ro, reset := 0x0, ret := false }

/-- R343 (11): the deviation of the held TCLK rate, in 2^-32 ns per tick, plus 85,899 -/
def Fld.TIMX_DRIFT : Fld :=
  { kind := .tim, off := 0x2000, lo := 0, width := 18, acc := .ro, reset := 0x14F8B, ret := false }

/-- R384 (12): the belt was lost and EJT has not been enabled since with a belt -/
def Fld.EJTX_LOST : Fld :=
  { kind := .ejt, off := 0x2000, lo := 0, width := 1, acc := .ro, reset := 0x0, ret := false }

/-- R369 (12): the last speed window ended outside the bounds -/
def Fld.EJTX_BOUND : Fld :=
  { kind := .ejt, off := 0x2004, lo := 0, width := 1, acc := .ro, reset := 0x0, ret := false }

/-- R382 (12): the frame of each valve port before the present one -/
def Fld.EJTX_VP_PREV : Fld :=
  { kind := .ejt, off := 0x2010, stride := 0x10, count := 4, lo := 0, width := 128, acc := .ro, reset := 0x0, ret := false }

/-- R381 (12): the frame of each valve port that is being sent -/
def Fld.EJTX_VP_CUR : Fld :=
  { kind := .ejt, off := 0x2050, stride := 0x10, count := 4, lo := 0, width := 128, acc := .ro, reset := 0x0, ret := false }

/-- R381 (12): the states that the driver boards of each valve port hold -/
def Fld.EJTX_VP_LATCHED : Fld :=
  { kind := .ejt, off := 0x2090, stride := 0x10, count := 4, lo := 0, width := 128, acc := .ro, reset := 0x0, ret := false }

/-- R382 (12): frames sent since EJT enable, stopping at 3 -/
def Fld.EJTX_VP_FRAMES : Fld :=
  { kind := .ejt, off := 0x20D0, lo := 0, width := 2, acc := .ro, reset := 0x0, ret := false }

/-- R381 (12): the tick of the next frame boundary -/
def Fld.EJTX_VP_NEXT : Fld :=
  { kind := .ejt, off := 0x20D8, lo := 0, width := 64, acc := .ro, reset := 0x0, ret := false }

/-- R382 (12): valve ports in their safe state after retirement -/
def Fld.EJTX_VP_SAFE : Fld :=
  { kind := .ejt, off := 0x20E0, lo := 0, width := 4, acc := .ro, reset := 0x0, ret := false }

/-- R400 (13): direct outputs that follow their command since the release -/
def Fld.FIOX_FOLLOW_FO : Fld :=
  { kind := .fio, off := 0x2000, lo := 0, width := 16, acc := .ro, reset := 0x0, ret := false }

/-- R400 (13): valves of each port that follow their command since the release -/
def Fld.FIOX_FOLLOW_VP : Fld :=
  { kind := .fio, off := 0x2010, stride := 0x10, count := 4, lo := 0, width := 128, acc := .ro, reset := 0x0, ret := false }

/-- R399 (13): the last valid kick: 0 none, 1 0xA5A5, 2 0x5A5A -/
def Fld.FIOX_KICK : Fld :=
  { kind := .fio, off := 0x2050, lo := 0, width := 2, acc := .ro, reset := 0x0, ret := false }

/-- R400 (13): a valid kick arrived within the present period -/
def Fld.FIOX_KICKED : Fld :=
  { kind := .fio, off := 0x2054, lo := 0, width := 1, acc := .ro, reset := 0x0, ret := false }

/-- R399 (13): the tick at which the present watchdog period ends -/
def Fld.FIOX_WD_END : Fld :=
  { kind := .fio, off := 0x2058, lo := 0, width := 64, acc := .ro, reset := 0x0, ret := false }

/-- R394 (13): the sample at which the state counter last left the opposite extreme, T64 -/
def Fld.FIOX_RUN : Fld :=
  { kind := .fio, off := 0x2060, stride := 0x8, count := 32, lo := 0, width := 64, acc := .ro, reset := 0x0, ret := false }

/-- R397 (13): consecutive mismatching readback samples -/
def Fld.FIOX_MISMATCH : Fld :=
  { kind := .fio, off := 0x2160, stride := 0x4, count := 16, lo := 0, width := 3, acc := .ro, reset := 0x0, ret := false }

/-- R397 (13): one more than the tick at which the driven level last changed -/
def Fld.FIOX_CHANGED : Fld :=
  { kind := .fio, off := 0x21A0, stride := 0x8, count := 16, lo := 0, width := 64, acc := .ro, reset := 0x0, ret := false }

/-- R398 (13): from power-on until the settings restore every output is driven low -/
def Fld.FIOX_SAFE_LOW : Fld :=
  { kind := .fio, off := 0x2230, lo := 0, width := 1, acc := .ro, reset := 0x1, ret := false }


/-- R190, R193 (06): corrected SRAM errors of a cluster in the present 1 ms window -/
def Fld.CLUX_WIN_CE : Fld :=
  { kind := .clu, off := 0x2000, lo := 0, width := 32, acc := .ro, reset := 0x0, ret := false }

/-- R193 (06): SRAM_CE_THR was raised for a cluster in the present window -/
def Fld.CLUX_CE_DONE : Fld :=
  { kind := .clu, off := 0x2004, lo := 0, width := 1, acc := .ro, reset := 0x0, ret := false }

/-- R192, R193 (06): corrected Fawn SRAM errors in the present 1 ms window -/
def Fld.FWNX_WIN_CE : Fld :=
  { kind := .fwn, off := 0x2000, lo := 0, width := 32, acc := .ro, reset := 0x0, ret := false }

/-- R193 (06): SRAM_CE_THR was raised for Fawn in the present window -/
def Fld.FWNX_CE_DONE : Fld :=
  { kind := .fwn, off := 0x2004, lo := 0, width := 1, acc := .ro, reset := 0x0, ret := false }

/-- R286 (09): corrected errors of ATN in the present 1 ms window -/
def Fld.ATNX_WIN_CE : Fld :=
  { kind := .atn, off := 0x2000, lo := 0, width := 32, acc := .ro, reset := 0x0, ret := false }

/-- R286 (09): SRAM_CE_THR was raised for ATN in the present window -/
def Fld.ATNX_CE_DONE : Fld :=
  { kind := .atn, off := 0x2004, lo := 0, width := 1, acc := .ro, reset := 0x0, ret := false }
/-! ## The fields of each kind of page -/

/-- The block registers of a `mgt` page. -/
def mgtFlds : List Fld :=
  [.MGT_MODE_freq_mode, .MGT_MODE_det_mode, .MGT_COMMIT_RELEASE, .MGT_RESET_CAUSE_power_on,
   .MGT_RESET_CAUSE_pin, .MGT_RESET_CAUSE_software, .MGT_RESET_CAUSE_coolant, .MGT_RESET_CAUSE_thermal,
   .MGT_RESET_CAUSE_warm, .MGT_RESET_CAUSE_hbm_kept, .MGT_RESET_CAUSE_scrubbed, .MGT_RESET_CAUSE_minimal,
   .MGT_RESET_go, .MGT_RESET_kind, .MGT_RESET_scrub, .MGT_RESET_key,
   .MGT_START_OK, .MGT_START_FAILS, .MGT_START_COUNT, .MGT_DISABLED,
   .MGT_SERIAL, .MGT_ROM_VERSION, .MGT_PATCH_VERSION, .MGT_PATCH_DIGEST,
   .MGT_FLT_CFG_thr, .MGT_FLT_CFG_leak_ms, .MGT_FLT_FORCE_instance, .MGT_FLT_FORCE_type,
   .MGT_FLT_FORCE_go, .MGT_FLT_SEL_instance, .MGT_FLT_SEL_type, .MGT_FLT_BUCKET,
   .MGT_STATUS_ready, .MGT_STATUS_step, .MGTX_STOPPED]

/-- The block registers of a `pwr` page. -/
def pwrFlds : List Fld :=
  [.PWR_RAMP_us, .PWR_FREQ_min_step, .PWR_FREQ_max_step, .PWR_RAIL_LIMIT]

/-- The block registers of a `sec` page. -/
def secFlds : List Fld :=
  [.SEC_FUSE_CFG_debug_locked, .SEC_FUSE_CFG_svn_min, .SEC_VKEY_HASH, .SEC_PATCH_ADDR,
   .SEC_PATCH_LEN, .SEC_PATCH_CTRL_go, .SEC_PATCH_CTRL_none, .SEC_PATCH_STATUS_result,
   .SEC_PATCH_STATUS_window, .SEC_ATT_NONCE, .SEC_ATT_ADDR, .SEC_ATT_CTRL_go,
   .SEC_ATT_STATUS_state, .SEC_ATT_STATUS_count]

/-- The block registers of a `ret` page. -/
def retFlds : List Fld :=
  [.RET_CTRL_snap, .RET_CTRL_erase, .RET_STATUS_busy, .RET_STATUS_last,
   .RET_STATUS_copy, .RET_STATUS_source, .RET_SNAP_SEQ, .RET_SNAP_ENTRIES,
   .RET_RESTORE_ignored, .RET_RESTORE_refused, .RET_RETIRED_PC, .RET_RETIRED_LANE,
   .RET_RETIRED_PORTS_enc, .RET_RETIRED_PORTS_vp, .RET_RETIRED_FI, .RET_RETIRED_CLU,
   .RET_RETIRE_CLR_instance, .RET_RETIRE_CLR_type, .RET_RETIRE_CLR_go, .RET_LOG_SEL,
   .RET_LOG_COUNT, .RET_LOG]

/-- The block registers of a `hlk` page. -/
def hlkFlds : List Fld :=
  [.HLK_LINK_CFG_max_rate, .HLK_LINK_CTRL_retrain, .HLK_LINK_STATUS_rate, .HLK_LINK_STATUS_up,
   .HLK_LINK_STATUS_modules, .HLK_LINK_STATUS_repaired, .HLK_CNT_REPLAY, .HLK_CNT_DOWN,
   .HLK_CNT_WR_LOST, .HLK_DENY_OFFSET, .HLK_CNT_CLR]

/-- The block registers of a `cmd` page. -/
def cmdFlds : List Fld :=
  [.CMD_PART_CFG_enable, .CMD_PART_CFG_class, .CMD_PART_CFG_auto_restart, .CMD_PART_CFG_atn,
   .CMD_PART_CFG_jobs, .CMD_PART_CLU, .CMD_PART_DEADLINE, .CMD_BE_CLU,
   .CMD_JOBS_FREE, .MSIX_TABLE_PF0, .MSIX_PBA_PF0]

/-- The block registers of a `cmdPart` page. -/
def cmdPartFlds : List Fld :=
  [.CMD_PART_STATUS_clusters, .CMD_PART_STATUS_class, .CMD_PART_STATUS_enabled, .CMD_PART_STATUS_jobs_active,
   .CMD_COMMIT_RELEASE, .CMD_SAVE_BASE, .CMD_SAVE_STRIDE, .CMD_CNT_DEADLINE,
   .CMD_CNT_ABORT, .CMD_CNT_RESTART, .CMD_CNT_OVERRUN, .CMD_CNT_CLR,
   .CMD_PLAN_BASE, .CMD_PLAN_SIZE, .CMD_PLAN_LOAD_go, .CMD_PLAN_LOAD_hold,
   .CMD_PLAN_LOAD_unload, .CMD_PLAN_STATUS_state, .CMD_PLAN_STATUS_load, .CMD_PLAN_STATUS_code,
   .CMD_PLAN_STATUS_mode, .CMD_PLAN_S0, .CMD_PLAN_SEED, .CMD_PLAN_STEP,
   .CMD_PLAN_JOB_ctx, .CMD_PLAN_JOB_valid, .CMD_PLAN_JOB_save, .CMD_PLAN_SLICE_US,
   .CMD_SQ_BASE, .CMD_SQ_CFG_size_log2, .CMD_SQ_CFG_cq, .CMD_SQ_CFG_enable,
   .CMD_SQ_TAIL, .CMD_SQ_HEAD, .CMD_SQ_STATUS_err, .CMD_SQ_STATUS_err_code,
   .CMD_CQ_BASE, .CMD_CQ_CFG_size_log2, .CMD_CQ_CFG_irq, .CMD_CQ_CFG_enable,
   .CMD_CQ_CFG_coal_n, .CMD_CQ_CFG_coal_us, .CMD_CQ_HEAD, .CMD_CQ_TAIL,
   .CMD_PLAN_DIGEST, .CMD_DIG_BASE, .CMD_DIG_CFG_size_log2, .CMD_DIG_CFG_enable,
   .CMD_DIG_CFG_overwrite, .CMD_DIG_CFG_wm, .CMD_DIG_HEAD, .CMD_DIG_TAIL,
   .CMD_DIG_SEQ, .CMD_DIG_LOST, .CMD_STEP_MEAS, .CMD_STEP_LAT,
   .CMD_STEP_REFRESH, .CMD_STEP_REPLAY, .CMD_STEP_IDLE, .MSIX_TABLE,
   .MSIX_PBA]

/-- The block registers of a `lan` page. -/
def lanFlds : List Fld :=
  [.LAN_MODE_mode, .LAN_MODE_cam, .LAN_MODE_width, .LAN_MODE_index,
   .LAN_RATE_cxp_speed, .LAN_RATE_raw_mbps, .LAN_RAW_CFG_word_bits, .LAN_RAW_TRAIN,
   .LAN_PWR_rx, .LAN_PWR_tx, .LAN_POL_rx_auto, .LAN_POL_rx_inverted,
   .LAN_POL_tx_invert, .LAN_SLIP, .LAN_STATUS_locked, .LAN_STATUS_waking,
   .LAN_STATUS_rx_now, .LAN_STATUS_tx_now, .LAN_STATUS_speed, .LAN_STATUS_train_match,
   .LAN_STATUS_train_match_inv, .LAN_RAW_WORD, .LAN_BURST_CFG_threshold, .LAN_ERR_CODE,
   .LAN_ERR_CRC, .LAN_LOCK_LOSS, .LAN_TRIG_LOST, .LAN_CNT_CLR,
   .LAN_EQ_pin, .LAN_EQ_ctle, .LAN_EQ_dfe, .LAN_TX_swing,
   .LAN_TX_deemph, .LAN_MBX_CTRL_send, .LAN_MBX_TXLEN, .LAN_MBX_RXHEAD,
   .LAN_MBX_RXTAIL, .LAN_MBX_TX, .LAN_MBX_RX, .LANX_WIN_ERRORS,
   .LANX_BURST, .LANX_TRIG_TICK, .LANX_RX_TARGET, .LANX_TX_TARGET,
   .LANX_TRY_SPEED, .LANX_EQ_CTLE, .LANX_EQ_DFE, .LANX_SLIPS]

/-- The block registers of a `lanPeer` page. -/
def lanPeerFlds : List Fld :=
  [.LAN_PEER_CTRL_enable, .LAN_PEER_CTRL_train, .LAN_PEER_CFG_rate, .LAN_PEER_CFG_err_mode,
   .LAN_PEER_CFG_manual_align, .LAN_PEER_CFG_replay_us, .LAN_PEER_STATUS_state, .LAN_PEER_STATUS_reversed,
   .LAN_PEER_STATUS_lane_lock, .LAN_PEER_REMOTE_serial, .LAN_PEER_REMOTE_group, .LAN_PEER_TX,
   .LAN_PEER_RX, .LAN_PEER_REPLAY, .LAN_PEER_DROP, .LAN_PEER_CRC,
   .LAN_PEER_CNT_CLR]

/-- The block registers of a `capCtx` page. -/
def capCtxFlds : List Fld :=
  [.CAP_CTX_SRC_kind, .CAP_CTX_SRC_cam, .CAP_CTX_SRC_peer_group, .CAP_CTX_SRC_peer_ctx,
   .CAP_CTX_WIN_col_first, .CAP_CTX_WIN_width, .CAP_STRIPE_CFG_lines, .CAP_STRIPE_CFG_settle_stripes,
   .CAP_GRP_MEMBERS_m0, .CAP_GRP_MEMBERS_m1, .CAP_GRP_MEMBERS_m2, .CAP_GRP_MEMBERS_m3,
   .CAP_GRP_MEMBERS_count, .CAP_GRP_ALIGN_align_us, .CAP_GRP_OFFSET, .CAP_RING_BASE,
   .CAP_RING_CFG_slot_kib, .CAP_RING_CFG_slots, .CAP_RING_HOLD_FIRST, .CAP_RING_HOLD_COUNT,
   .CAP_STRIPE_NO, .CAP_SPILL_OLDEST, .CAP_SPILL_OLDEST_VALID, .CAP_RP_ADDR,
   .CAP_RP_PUSH, .CAP_RP_STATUS_free, .CAP_CNT_STRIPES, .CAP_CNT_SHORT,
   .CAP_CNT_LONG, .CAP_CNT_STALE, .CAP_CNT_DISCARD, .CAP_CNT_AFTER_SHORT,
   .CAP_CNT_CLR]

/-- The block registers of a `cap` page. -/
def capFlds : List Fld :=
  [.CAP_TRIG_MODE_mode, .CAP_TRIG_MODE_cmp, .CAP_TRIG_PERIOD, .CAP_TRIG_ORIGIN_low,
   .CAP_TRIG_ORIGIN_high, .CAP_LINE_LAT_min, .CAP_LINE_LAT_max, .CAP_CAM_FMT_width,
   .CAP_CAM_FMT_channels, .CAP_CAM_FMT_bits, .CAP_SETTLE_force, .CAP_SETTLE_remaining,
   .CAP_TRIG_CNT, .CAP_RAW_SOL_word, .CAP_RAW_SOL_frame_en, .CAP_TRIG_SKIP,
   .CAP_RAW_SOF, .CAP_CNT_BADLEN]

/-- The block registers of a `lnp` page. -/
def lnpFlds : List Fld :=
  [.LNP_INTAKE_FREE, .LNP_BUSY, .LNP_CNT_SWITCH, .LNP_CNT_INTAKE_FULL,
   .LNP_GLOBAL_CNT_CLR]

/-- The block registers of a `lnpCtx` page. -/
def lnpCtxFlds : List Fld :=
  [.LNP_CTX_CFG_prio, .LNP_CTX_CFG_out_fmt, .LNP_CTX_CFG_along_mode, .LNP_CTX_CFG_dyn_defect,
   .LNP_CTX_CFG_ob_filter, .LNP_CTX_CFG_stat_en, .LNP_OUT_WIDTH, .LNP_HOLD_LIMIT,
   .LNP_TBL_BASE, .LNP_TBL_SIZE, .LNP_DYN_THR, .LNP_LB_BASE,
   .LNP_LB_CFG_slots, .LNP_LB_CFG_slot_kib, .LNP_CREDIT_free, .LNP_CREDIT_inline,
   .LNP_STAT_BASE, .LNP_STAT_CFG_blocks, .LNP_STAT_LAST, .LNP_CLIP_THR,
   .LNP_GEN_OLDEST, .LNP_STRIPE_DONE, .LNP_CNT_STRIPES, .LNP_CNT_SPILL,
   .LNP_CNT_DEFECT_OPEN, .LNP_CNT_DYN, .LNP_CNT_LOST, .LNP_CNT_CLR,
   .LNP_MEM_GEOM_mode, .LNP_MEM_OB_first, .LNP_MEM_OB_count_log2, .LNP_MEM_OB_enable,
   .LNP_MEM_A, .LNP_MEM_B, .LNP_MEM_DELAY_d0, .LNP_MEM_DELAY_d1,
   .LNP_MEM_DELAY_d2, .LNP_MEM_DELAY_d3, .LNP_CH_BLK_pedestal, .LNP_CH_GAIN,
   .LNP_CH_SUB, .LNP_CH_MUL]

/-- The block registers of a `clu` page. -/
def cluFlds : List Fld :=
  [.CLU_INFO_logical, .CLU_INFO_section, .CLU_INFO_partition, .CLU_INFO_in_part,
   .CLU_INFO_position, .CLU_SRAM_CFG_lb_kib, .CLU_THREADS_active, .CLU_THREADS_peak,
   .CLU_RD_OUT, .CLU_ECC_CE, .CLU_ECC_UE, .CLU_ECC_ADDR_addr,
   .CLU_ECC_ADDR_ue, .CLU_CE_THR, .CLU_TILES_DONE, .CLU_CNT_WRESET,
   .CLU_CNT_CLR, .CLU_PMC_SEL_event, .CLU_PMC_SEL_mode, .CLU_PMC_SEL_enable,
   .CLU_PMC_CNT, .CLUX_PMC_LAST, .CLUX_WIN_CE, .CLUX_CE_DONE]

/-- The block registers of a `arr` page. -/
def arrFlds : List Fld :=
  [.ARR_ENABLED, .ARR_SECTIONS, .ARR_RETIRED]

/-- The block registers of a `fwn` page. -/
def fwnFlds : List Fld :=
  [.FWN_CFG_lc_part, .FWN_CFG_lc_valid, .FWN_STATUS_pass_part, .FWN_STATUS_busy,
   .FWN_STATUS_be_suspended, .FWN_PASSES, .FWN_SUSPENDS, .FWN_ECC_CE,
   .FWN_ECC_UE, .FWN_CE_THR, .FWN_CNT_CLR, .FWNX_WIN_CE,
   .FWNX_CE_DONE]

/-- The block registers of a `atn` page. -/
def atnFlds : List Fld :=
  [.ATN_INFO_engines, .ATN_ENG_BUSY, .ATN_TBL_SEL, .ATN_TBL_INFO_state,
   .ATN_TBL_INFO_pool, .ATN_TBL_INFO_pool_valid, .ATN_TBL_INFO_gen, .ATN_TBL_INFO_pages,
   .ATN_TBL_INFO_trunc, .ATN_TBL_TOKENS, .ATN_TBL_OPEN, .ATN_PEER_TMO,
   .ATN_CE_THR, .ATN_ECC_CE, .ATN_ECC_UE, .ATN_CNT_NOPOOL,
   .ATN_CNT_EMPTYQ, .ATN_BLOCKS, .ATN_CNT_CLR, .ATNX_WIN_CE,
   .ATNX_CE_DONE]

/-- The block registers of a `atnPool` page. -/
def atnPoolFlds : List Fld :=
  [.ATN_POOL_FMT_page_log2, .ATN_POOL_FMT_kfmt, .ATN_POOL_FMT_vfmt, .ATN_POOL_FMT_heads_m1,
   .ATN_POOL_FMT_rope, .ATN_POOL_FMT_grid_w, .ATN_POOL_DIM_dk, .ATN_POOL_DIM_dv,
   .ATN_POOL_BASE, .ATN_POOL_PAGES, .ATN_POOL_STRIDE, .ATN_POOL_SEL_w_min,
   .ATN_POOL_SEL_w_max, .ATN_POOL_SMIN, .ATN_POOL_ROPE_BASE, .ATN_POOL_ROLE_role,
   .ATN_POOL_ROLE_group, .ATN_POOL_ROLE_peer_pool, .ATN_POOL_ROLE_home_groups, .ATN_POOL_RANGE_first,
   .ATN_POOL_RANGE_count, .ATN_POOL_FREE, .ATN_POOL_RFREE, .ATN_POOL_SAT,
   .ATN_POOL_DROP, .ATN_POOL_MASKED, .ATN_POOL_MISSING, .ATN_POOL_SKIP,
   .ATN_POOL_CNT_CLR]

/-- The block registers of a `memPc` page. -/
def memPcFlds : List Fld :=
  [.MEM_PC_INFO_stack, .MEM_PC_INFO_channel, .MEM_PC_INFO_pseudo, .MEM_PC_INFO_regions,
   .MEM_PC_CE_THR, .MEM_PC_CE, .MEM_PC_UE, .MEM_PC_ERR_ADDR_line,
   .MEM_PC_ERR_ADDR_ue, .MEM_PC_LATENT, .MEM_PC_WB, .MEM_PC_RD,
   .MEM_PC_WR, .MEM_PC_REFRESH, .MEM_PC_CNT_CLR, .PCX_WIN_CE,
   .PCX_CE_DONE]

/-- The block registers of a `mem` page. -/
def memFlds : List Fld :=
  [.MEM_INFO_pcs, .MEM_INFO_healthy, .MEM_SCRUB_mode, .MEM_SCRUB_gap_us,
   .MEM_SCRUB_PASSES, .MEM_SCRUB_POS, .MEM_RETIRED, .MEM_RD_OUT,
   .MEM_CNT_CLR]

/-- The block registers of a `memPart` page. -/
def memPartFlds : List Fld :=
  [.MEM_PART_BASE, .MEM_PART_MASK, .MEM_PART_SLICE_base_mib, .MEM_PART_SLICE_size_mib,
   .MEM_PART_SIZE, .MEM_BW_RES, .MEM_BW_CEIL, .MEM_BW_BURST,
   .MEM_BW_USED_last, .MEM_BW_USED_borrowed, .MEM_BW_WAIT, .MEM_CNT_HOST_UE,
   .MEM_CNT_CODEC_BAD, .MEM_PART_CNT_CLR, .BWX_TOKENS, .BWX_USED,
   .BWX_BORROWED, .BWX_DEFERRED, .BWX_CEIL]

/-- The block registers of a `dec` page. -/
def decFlds : List Fld :=
  [.DEC_INFO_engines, .DEC_ENG_BUSY, .DEC_CACHE_BASE, .DEC_CACHE_CFG_slots,
   .DEC_CACHE_CFG_slot_kib, .DEC_CACHE_CTRL_flush, .DEC_CNT_SAMPLES, .DEC_CNT_HIT,
   .DEC_CNT_MISS, .DEC_CNT_BUDGET, .DEC_CNT_HEADER, .DEC_CNT_FORMAT,
   .DEC_CNT_TRUNC, .DEC_SYMBOLS, .DEC_CNT_CLR]

/-- The block registers of a `enc` page. -/
def encFlds : List Fld :=
  [.ENC_CFG_mode, .ENC_CFG_invert, .ENC_CFG_filter, .ENC_CFG_z_gate,
   .ENC_CFG_fault_n, .ENC_ABS_bits, .ENC_ABS_gray, .ENC_ABS_crc,
   .ENC_ABS_status_bits, .ENC_ABS_wait_max, .ENC_ABS_CLK_div, .ENC_ABS_CLK_sample_dly,
   .ENC_ABS_REQ_cmp, .ENC_ABS_REQ_tm_us, .ENC_SC_k, .ENC_SC_cmp,
   .ENC_SC_nominal, .ENC_SC_OFF_off_s, .ENC_SC_OFF_off_c, .ENC_SC_WIN_lo,
   .ENC_SC_WIN_hi, .ENC_PRESET, .ENC_RAW, .ENC_POS,
   .ENC_STATUS_dir, .ENC_STATUS_held, .ENC_STATUS_abz, .ENC_STATUS_sc_out,
   .ENC_STATUS_abs_stat, .ENC_SC_LAST_s, .ENC_SC_LAST_c, .ENC_SPEED_CFG_window_us,
   .ENC_SPEED_CNT, .ENC_SPEED_WIN, .ENC_SPEED_RATE, .ENC_IDX_SEQ,
   .ENC_IDX_RAW, .ENC_IDX_POS, .ENC_IDX_SEC, .ENC_IDX_NS,
   .ENC_IDX_PREV_RAW, .ENC_CNT_QUAD, .ENC_CNT_BAD, .ENC_CNT_REQ_SKIP,
   .ENC_CNT_CLR, .ENC_SEL_belt, .ENC_SEL_backup, .ENC_SEL_backup_en,
   .ENC_SEL_active, .ENC_SEL_on_backup, .ENC_SEL_belt_ok, .ENC_BELT_POS,
   .ENC_BACKUP_DELTA, .ENCX_AVALID, .ENCX_APREV, .ENCX_WVALID,
   .ENCX_WPREV, .ENCX_RUN, .ENCX_COUNT, .ENCX_WLEN,
   .ENCX_WEND, .ENCX_WIDX, .ENCX_BUSY, .ENCX_LAST,
   .ENCX_DELTA_SET]

/-- The block registers of a `tim` page. -/
def timFlds : List Fld :=
  [.TIM_NOW_SEC, .TIM_NOW_NS, .TIM_TRIM, .TIM_SET_SEC,
   .TIM_SET_NS, .TIM_SET_go, .TIM_SET_cancel, .TIM_SET_at,
   .TIM_ADJ, .TIM_STATUS_ref_ok, .TIM_STATUS_ref_mhz, .TIM_ROLL_SEC,
   .TIM_ROLL_EVT_NS, .TIM_ROLL_MSG_NS, .TIM_ROLL_MSG_valid, .TIM_CMP_SEC,
   .TIM_CMP_NS, .TIM_CMP_PER, .TIM_CMP_CTRL_arm, .TIM_CMP_CTRL_irq,
   .TIM_CMP_CTRL_skips, .TIM_CMP_NEXT_NS, .TIM_CMP_NEXT_SEC, .TIM_CAP_CFG_src,
   .TIM_CAP_CFG_sel, .TIM_CAP_CFG_edge, .TIM_CAP_CFG_irq, .TIM_CAP_SEQ,
   .TIM_CAP_SEC, .TIM_CAP_NS, .TIM_CAP_POS, .TIM_CAP_PEND,
   .TIMX_DRIFT]

/-- The block registers of a `trk` page. -/
def trkFlds : List Fld :=
  [.TRK_CFG_default_class, .TRK_CFG_span_gap, .TRK_HOLD, .TRK_STATUS_open,
   .TRK_STATUS_free, .TRK_SPANS_open, .TRK_REC_SEL_index, .TRK_REC_SEL_span,
   .TRK_LOG_BASE, .TRK_LOG_CFG_slots, .TRK_LOG_CFG_wm, .TRK_LOG_HEAD,
   .TRK_LOG_TAIL, .TRK_PEER_accept, .TRK_PEER_send_en, .TRK_PEER_send_group,
   .TRK_LOG_SEQ, .TRK_CNT_OPENED, .TRK_CNT_SPAN, .TRK_CNT_SPAN_LOST,
   .TRK_CNT_STALE, .TRK_CNT_LATE, .TRK_CNT_LOG_LOST, .TRK_CNT_NOTICE_DROP,
   .TRK_CNT_ARM_IGNORED, .TRK_CNT_CLR, .TRK_CTX_COL_col_off, .TRK_CTX_COL_line_cnt]

/-- The block registers of a `ejt` page. -/
def ejtFlds : List Fld :=
  [.EJT_CLASS, .EJT_OUT_PATH, .EJT_SPEED_CFG_pin, .EJT_SPEED_FIX,
   .EJT_SPEED_MIN, .EJT_SPEED_MAX, .EJT_SPEED_USED, .EJT_QUEUE_used,
   .EJT_QUEUE_peak, .EJT_VP_LEN_len, .EJT_VP_LEN_check, .EJT_CNT_FIRE,
   .EJT_CNT_LATE_CHANGE, .EJT_CNT_STRETCH, .EJT_CNT_QFULL, .EJT_CNT_MAXON,
   .EJT_CNT_VP_ERR, .EJT_CNT_CLR, .EJT_BANK_CFG_enable, .EJT_BANK_CFG_port,
   .EJT_BANK_CFG_first, .EJT_BANK_CFG_count, .EJT_BANK_CFG_spread, .EJT_BANK_DIST,
   .EJT_BANK_ORIGIN, .EJT_BANK_PITCH, .EJT_BANK_MECH, .EJT_BANK_MARGIN_pre,
   .EJT_BANK_MARGIN_post, .EJT_BANK_MIN_on_us, .EJT_BANK_MIN_off_us, .EJT_BANK_MAXON,
   .EJT_VALVES_VP, .EJT_VALVES_FO, .EJTX_LOST, .EJTX_BOUND,
   .EJTX_VP_PREV, .EJTX_VP_CUR, .EJTX_VP_LATCHED, .EJTX_VP_FRAMES,
   .EJTX_VP_NEXT, .EJTX_VP_SAFE]

/-- The block registers of a `fio` page. -/
def fioFlds : List Fld :=
  [.FIO_THR_broken, .FIO_THR_on, .FIO_SMP_src, .FIO_SMP_div,
   .FIO_SMP_cmp, .FIO_IN_LEVEL, .FIO_IN_BROKEN, .FIO_EDGE_PEND,
   .FIO_RETIRED, .FIO_OUT_SRC, .FIO_OUT_SET, .FIO_OUT_PIN_drive,
   .FIO_OUT_PIN_readback, .FIO_SAFE_FO, .FIO_RB_CFG_enable, .FIO_RB_CFG_settle_us,
   .FIO_RB_ERR, .FIO_WDOG_period_ms, .FIO_WDOG_enable, .FIO_WDOG_KICK,
   .FIO_SAFE_held, .FIO_SAFE_release, .FIO_SAFE_cause, .FIO_WDOG_LEFT,
   .FIO_CNT_EDGE, .FIO_CNT_BREAK, .FIO_CNT_RB_ERR, .FIO_CNT_WDOG,
   .FIO_CNT_CLR, .FIO_SAFE_VP, .FIO_IN_CFG_n, .FIO_IN_CFG_break_en,
   .FIO_IN_CFG_irq_rise, .FIO_IN_CFG_irq_fall, .FIO_IN_STAT_state, .FIO_IN_STAT_band,
   .FIO_IN_STAT_q, .FIO_IN_STAT_b, .FIO_IN_SEQ, .FIO_IN_EDGE_rising,
   .FIO_IN_START, .FIO_IN_DECIDE, .FIOX_FOLLOW_FO, .FIOX_FOLLOW_VP,
   .FIOX_KICK, .FIOX_KICKED, .FIOX_WD_END, .FIOX_RUN,
   .FIOX_MISMATCH, .FIOX_CHANGED, .FIOX_SAFE_LOW]

/-- The block registers of a `pmc` page. -/
def pmcFlds : List Fld :=
  [.PMC_CTRL_freeze, .PMC_CTRL_frozen, .PMC_CTRL_unfreeze, .PMC_CTRL_part_cfg,
   .PMC_FRZ_SRC_cmp, .PMC_FRZ_SRC_cmp_en, .PMC_OVF, .PMC_XING,
   .PMC_CLR, .PMC_CNT_SEL_event, .PMC_CNT_SEL_instance, .PMC_CNT_SEL_inst_any,
   .PMC_CNT_SEL_mode, .PMC_CNT_SEL_part, .PMC_CNT_SEL_part_en, .PMC_CNT_SEL_enable,
   .PMC_CNT_SEL_chain, .PMC_CNT_SEL_ovf_frz, .PMC_CNT_SEL_ovf_irq, .PMC_CNT_SEL_xing_irq,
   .PMC_CNT_THR_thr, .PMC_CNT_THR_view, .PMC_CNT_THR_view_en, .PMC_CNT,
   .PMCX_DISARMED, .PMCX_LAST]

/-- The block registers (offsets 0x100 and above) of each kind of page. -/
def blockFlds : PageKind → List Fld
  | .mgt => mgtFlds
  | .pwr => pwrFlds
  | .sec => secFlds
  | .ret => retFlds
  | .hlk => hlkFlds
  | .cmd => cmdFlds
  | .cmdPart => cmdPartFlds
  | .lan => lanFlds
  | .lanPeer => lanPeerFlds
  | .capCtx => capCtxFlds
  | .cap => capFlds
  | .lnp => lnpFlds
  | .lnpCtx => lnpCtxFlds
  | .clu => cluFlds
  | .arr => arrFlds
  | .fwn => fwnFlds
  | .atn => atnFlds
  | .atnPool => atnPoolFlds
  | .memPc => memPcFlds
  | .mem => memFlds
  | .memPart => memPartFlds
  | .dec => decFlds
  | .enc => encFlds
  | .tim => timFlds
  | .trk => trkFlds
  | .ejt => ejtFlds
  | .fio => fioFlds
  | .pmc => pmcFlds

end Sys2Proof.Machine
end

