-- ==== Sys2Proof/Machine/State.lean ====
section
/-!
DEFINITION. Machine/State.lean: everything the spec gives the block, as plain data. Every register field is one cell of
`regs` (its descriptor in Machine/Regs.lean carries its reset value, so an unlisted cell reads that value); what is not
a register (queues, records, buffers, memories) has a field of its own.
-/
namespace Sys2Proof.Machine

/-- Why the block cannot take a command. -/
inductive Fault where
  /-- Raised by a command whose operand names a page, a register, a slot or a pin that the spec says does not exist
  (R43, R95, R414); safe: the model stops where no part exists to act. -/
  | noSuchInstance
  deriving DecidableEq, Repr

/-- Why the model gives a command no effect. -/
inductive Refusal where
  /-- The command has no meaning yet; raised only by arms of `exec`; safe. -/
  | notModelled (mnemonic : String)
  deriving DecidableEq, Repr

/-- What the block gives to the outside, in order. -/
inductive Output where
  /-- Data returned to a host read of BAR0 (R9). -/
  | readData (fn off value : Nat)
  /-- Data returned to a host read through BAR2 (R42). -/
  | bar2Data (fn off : Nat) (data : List Nat)
  /-- An MSI-X message (R59): function, vector, address and data of its table entry. -/
  | msix (fn vec addr data : Nat)
  /-- A write to host memory (R385, R423, R507). -/
  | hostWrite (addr : Nat) (data : List Nat)
  /-- A CoaXPress trigger packet on the uplink of a master lane (R70). -/
  | trigger (lane : Nat)
  /-- A control packet sent from a mailbox (R68). -/
  | control (lane : Nat) (body : List Nat)
  /-- A frame on the voltage-identification interface (R557). -/
  | vid (frame : Nat)
  /-- A frame on a peer group (R86), with its CRC (R87). -/
  | peer (grp : Nat) (frame : PeerFrame) (crc : Nat)
  deriving DecidableEq, Repr

/-! ## Memory -/

/-- Bytes by address, in ascending order, none of them zero: an unlisted address reads 0 (R318). -/
abbrev Memory := List Host.Cell

/-- HBM (R290, R311): the bytes of pseudo-channel `pc` at local address `a` lie at key `pc * 2 ^ 30 + a`. -/
structure HbmState where
  bytes : Memory := []
  /-- Uncorrectable 64-bit words, by key divided by 8 (R313). -/
  bad : List Nat := []
  /-- Lines with a correctable error, by key divided by 64 (R312). -/
  soft : List Nat := []
  /-- Write-backs of corrected lines that wait, oldest first (R312). -/
  writeBacks : List Nat := []
  deriving DecidableEq, Repr

/-! ## Host front end -/

/-- A BAR0 write held while a snapshot is captured (R496). -/
structure HeldWrite where
  fn : Nat
  off : Nat
  size : Nat
  value : Nat
  deriving DecidableEq, Repr

/-- A commit between its go write and its boundary (R50 to R52): the captured shadow values of the page. -/
structure CommitRec where
  page : PageId
  /-- The function that wrote go. -/
  fn : Nat
  boundary : Nat
  cmp : Nat
  released : Bool
  vals : List (RegKey × Nat)
  /-- GEN_WAIT has been raised for it (R141). -/
  waits : Bool
  deriving DecidableEq, Repr

/-! ## Lanes and peer groups -/

/-- The transport state of one peer group (R86 to R91). -/
structure PeerSt where
  /-- err_mode in force since the last training (R85). -/
  drop : Bool := false
  /-- First transmissions of types 1 to 4 since UP (R88). -/
  sent : List Nat := [0, 0, 0, 0]
  /-- Latest freed counts received from the other side (R88). -/
  freedIn : List Nat := [0, 0, 0, 0]
  /-- This side's freed counts (R88). -/
  freedOut : List Nat := [0, 0, 0, 0]
  /-- The other side's whole serial number (R85). -/
  serial : Nat := 0
  /-- Next sequence number to send. -/
  nextSeq : Nat := 0
  /-- Next sequence number expected. -/
  expect : Nat := 0
  /-- Frames kept until an ACK covers them (R89), oldest first. -/
  unacked : List PeerFrame := []
  /-- Frames waiting for a credit or for replay space, oldest first. -/
  waiting : List PeerFrame := []
  /-- Frames accepted since the last ACK was sent (R89). -/
  sinceAck : Nat := 0
  /-- A NAK was sent and the expected frame has not arrived (R89). -/
  nakSent : Bool := false
  /-- Consecutive resends without progress (R89). -/
  resends : Nat := 0
  /-- Fragments of the message being received, oldest first (R86). -/
  frags : List PeerFrame := []
  /-- The message (type, tag) whose remaining fragments are discarded (R90). -/
  discard : Option (Nat × Nat) := none
  deriving DecidableEq, Repr

/-! ## Capture -/

/-- Belt position and device time sampled for a line (R19). -/
structure Tag where
  pos : Int
  sec : Nat
  ns : Nat
  deriving DecidableEq, Repr

/-- An issued trigger whose pairing window is open (R103). -/
structure TrigWin where
  slot : Int
  tag : Tag
  /-- The window in nanoseconds of device time, half-open. -/
  opens : Nat
  closes : Nat
  deriving DecidableEq, Repr

/-- Where a line belongs in one context: the member, the stripe window and the row. -/
structure Place where
  ctx : Nat
  mem : Nat
  win : Int
  row : Nat
  deriving DecidableEq, Repr

/-- A line between its first packet and its last byte (R103). -/
structure LineIn where
  /-- The tags it takes, from its trigger or from its arrival (R19). -/
  tag : Tag
  /-- The slots it fills, one for each context that takes it. -/
  places : List Place
  /-- The contexts (and members) in which it is a line beyond L of a frame (R111). -/
  beyond : List (Nat × Nat)
  /-- Its arrival lay in no open window (R103). -/
  noWindow : Bool
  deriving DecidableEq, Repr

/-- One camera as CAP holds it. -/
structure CamSt where
  /-- The high-water mark `h` (R100). -/
  h : Option Int := none
  /-- Triggers issued or lost in TIME mode, the slot number of the next (R107). -/
  timeSlot : Int := 0
  /-- Open pairing windows, oldest first (R103). -/
  wins : List TrigWin := []
  /-- The line being received. -/
  line : Option LineIn := none
  deriving DecidableEq, Repr

/-- One row of a member's part while its stripe is open. -/
inductive RowSt where
  | waiting
  | empty
  | filled (samples : List Nat)
  deriving DecidableEq, Repr

/-- One member's part of an open stripe (R110, R114, R115). -/
structure PartSt where
  rows : List RowSt
  tags : List Tag
  closed : Bool
  missing : Bool
  fill : Nat
  paired : Nat
  extra : Nat
  settle : Bool
  /-- The part has had a slot triggered or found empty. -/
  started : Bool
  /-- The tick at which its last slot was triggered or found empty (R114). -/
  lastTick : Option Nat
  deriving DecidableEq, Repr

/-- A line arrival that may fix the stripe's generations (R20). -/
structure GenMark where
  mem : Nat
  row : Nat
  capGen : Nat
  lnpGen : Nat
  deriving DecidableEq, Repr

/-- A stripe in assembly (R107 to R115). -/
structure OpenStripe where
  win : Int
  parts : List PartSt
  /-- Generations at each line arrival, oldest first (R20). -/
  arrivals : List GenMark
  /-- Generations when a first slot was found empty (R20). -/
  emptyGens : Option (Nat × Nat)
  deriving DecidableEq, Repr

/-- One member of a closed stripe, as the slot header and the tag table hold it (R121). -/
structure MemberRec where
  cam : Nat
  channels : Nat
  bitsCode : Nat
  fill : Nat
  width : Nat
  colFirst : Nat
  off : Int
  paired : Nat
  extra : Nat
  tags : List Tag
  rows : List (List Nat)
  deriving DecidableEq, Repr

/-- A closed stripe (R108, R121). -/
structure StripeRec where
  ctx : Nat
  no : Nat
  kind : Nat
  lines : Nat
  /-- SHORT [0], LONG [1], CAM_SETTLING [2], SPILLED [3], REPLAY [4], PEER [5]. -/
  flags : Nat
  missing : Nat
  short : Nat
  settling : Nat
  capGen : Nat
  lnpGen : Nat
  s : Int
  e : Int
  period : Nat
  members : List MemberRec
  origCtx : Nat
  origNo : Nat
  origCapGen : Nat
  origLnpGen : Nat
  deriving DecidableEq, Repr

/-- One slot of a raw ring that holds a stripe (R120). -/
structure RingSlot where
  slot : Nat
  no : Nat
  /-- Its SPILLED stripe has not been caught up (R27). -/
  spilled : Bool
  /-- Its header is written (R122). -/
  written : Bool
  deriving DecidableEq, Repr

/-- A stripe window that closed short for some members while triggers of it are still open (R110). -/
structure ShortWin where
  win : Int
  mask : Nat
  deriving DecidableEq, Repr

/-- A capture context since its enable. -/
structure CapCtxSt where
  /-- CTRL.enable as applied, and whether a quiesce has closed it (R125). -/
  running : Bool := false
  kind : Nat := 0
  /-- Camera and offset of each member (R113). -/
  mems : List (Nat × Int) := []
  lines : Nat := 64
  /-- Trigger mode, period and origin of its cameras (R99, R100). -/
  mode : Nat := 0
  period : Nat := 1
  origin : Int := 0
  /-- First slot (R107): of the grid in ENCODER mode, of the trigger count in TIME mode. -/
  k0 : Option Int := none
  /-- FREE mode: window and row of the next line (R105, R106). -/
  freeWin : Nat := 0
  freeRow : Nat := 0
  opens : List OpenStripe := []
  /-- The last window that has closed or was abandoned. -/
  doneWin : Option Int := none
  shorts : List ShortWin := []
  /-- Last row and tag of each member of the previous stripe (R110). -/
  last : List (Option (List Nat × Tag)) := []
  /-- Settling counts, member by member (R117). -/
  settle : List Nat := []
  /-- Extra lines charged to the next stripe to close, member by member (R111). -/
  extraNext : List Nat := []
  ring : List RingSlot := []
  /-- Stripes whose ring write is in progress, oldest first (R122). -/
  writing : List StripeRec := []
  /-- Reprocessing queue (R123), oldest first. -/
  replay : List Nat := []
  deriving DecidableEq, Repr

/-- The capture block. -/
structure CapState where
  cams : List CamSt := List.replicate 12 {}
  ctxs : List CapCtxSt := List.replicate 64 {}
  deriving DecidableEq, Repr

/-! ## Line correction -/

/-- One member block of a settings set (R158). -/
structure LnpMem where
  mode : Nat
  obFirst : Nat
  obLog2 : Nat
  obEnable : Bool
  a : Nat
  b : Nat
  delays : List Nat
  deriving DecidableEq, Repr

/-- One channel block of a settings set (R158). -/
structure LnpCh where
  pedestal : Nat
  gain : Nat
  sub : Nat
  mul : Nat
  deriving DecidableEq, Repr

/-- The settings of one LNP generation (R140, R141). -/
structure LnpSet where
  prio : Nat
  outFmt : Nat
  along : Nat
  dyn : Bool
  obFilter : Nat
  statEn : Bool
  width : Nat
  tblBase : Nat
  tblKib : Nat
  dynThr : Nat
  mems : List LnpMem
  chans : List LnpCh
  deriving DecidableEq, Repr

/-- A corrected stripe on its way into the line buffer (R155, R156). -/
structure LnpResult where
  /-- Header, row positions and data of the slot, by offset within it. -/
  image : List (Nat × List Nat)
  stats : List Nat
  defectOpen : Nat
  dynCount : Nat
  clip : Bool
  /-- The last 7 stage 4 rows of each member channel (R148). -/
  tail : List (List (List Int))
  deriving DecidableEq, Repr

/-- A stripe that LNP holds, from its notice to its delivery. -/
structure LnpStripe where
  stripe : StripeRec
  /-- Order of notices over all contexts (R130). -/
  order : Nat
  /-- Device time of the notice in nanoseconds (R134), and the hold limit then in force. -/
  notice : Nat
  limit : Nat
  credit : Bool
  spilled : Bool
  /-- Its rows are in the intake buffer, or come from its ring slot. -/
  intake : Bool
  /-- The settings fixed for it are those of this generation (R140). -/
  gen : Nat
  deriving DecidableEq, Repr

/-- A stripe in the line buffer whose stripe-ready waits for its ring header, or is raised (R136). -/
structure LnpDone where
  no : Nat
  slot : Nat
  ringDone : Bool
  deriving DecidableEq, Repr

/-- What line delay needs of the previous stripe of a context (R148): its number, its original context and number, and
the last 7 stage 4 rows of each member channel. -/
structure LnpTail where
  no : Nat
  origCtx : Nat
  origNo : Nat
  rows : List (List (List Int))
  deriving DecidableEq, Repr

/-- The stripe in the pipeline and what it becomes. -/
structure LnpBusy where
  ctx : Nat
  stripe : LnpStripe
  result : LnpResult
  deriving DecidableEq, Repr

/-- An LNP context since its enable. -/
structure LnpCtxSt where
  stripes : List LnpStripe := []
  /-- Older generations that are kept (R141), oldest first. -/
  kept : List (Nat × LnpSet) := []
  /-- The slot of the next stripe delivered (R155). -/
  nextSlot : Nat := 0
  /-- A spill episode is in progress (R135). -/
  episode : Bool := false
  /-- Credits that the array has returned and that have not reached LNP (R24). -/
  returning : Nat := 0
  /-- The table block of this generation has arrived (R152). -/
  table : Option Nat := none
  /-- Generations for which TBL_BAD was raised: for the block, for single entries (R153). -/
  badBlock : Option Nat := none
  badEntry : Option Nat := none
  /-- Stage 4 rows of the previous stripe, its number, and its original context and number (R148). -/
  tail : Option LnpTail := none
  waitReady : List LnpDone := []
  deriving DecidableEq, Repr

/-- The line correction pipeline. -/
structure LnpState where
  ctxs : List LnpCtxSt := List.replicate 64 {}
  /-- Notices sent by CAP that have not arrived, oldest first (R109, R129). -/
  notices : List StripeRec := []
  orders : Nat := 0
  /-- The stripe in the pipeline. -/
  busy : Option LnpBusy := none
  /-- The context of the previous stripe (R131). -/
  lastCtx : Option Nat := none
  deriving DecidableEq, Repr

/-! ## Part records, firings and valves -/

/-- An entry of a part list on its way to TRK (R227). -/
structure PartEntry where
  ctx : Nat
  /-- OPEN 0, CONT 1, CLOSE 2, OPEN_CLOSE 3, MERGED 4, SPAN 5. -/
  kind : Nat
  cut : Bool
  ovf : Bool
  cls : Nat
  id : Nat
  gen : Nat
  into : Nat
  first : Int
  last : Int
  colFirst : Nat
  colLast : Nat
  pixels : Nat
  deriving DecidableEq, Repr

/-- A verdict on its way to TRK (R225, R365). -/
structure VerdictMsg where
  id : Nat
  gen : Nat
  cls : Nat
  /-- FINAL instead of ARM. -/
  final : Bool
  digest : Nat
  deriving DecidableEq, Repr

/-- A part record that is not FREE (R355), with what its log entry holds beside it (R386). -/
structure TrkRec where
  span : Bool
  id : Nat
  gen : Nat
  /-- OPEN 1, CLOSED 2, ARMED 3, DECIDED 4, COMMITTED 5, FIRED 6, DONE 7. -/
  state : Nat
  cls : Nat
  flags : Nat
  reasons : Nat
  ctx : Nat
  /-- Verdict held: NONE 0, ARM 1, FINAL 2. -/
  held : Nat
  table : Bool
  banks : Nat
  pixels : Nat
  first : Int
  last : Int
  colFirst : Int
  colLast : Int
  /-- The commit point as last evaluated. -/
  commit : Int
  opened : Nat
  digest : Nat
  /-- Banks for which Hoof holds a reservation (R373). -/
  resv : Nat
  lateCls : Nat
  lateDigest : Nat
  tVerdict : Nat
  tCommit : Nat
  tOn : Nat
  tOff : Nat
  /-- Its deadline point has been checked (R429). -/
  deadline : Bool
  deriving DecidableEq, Repr

/-- A queued firing, with the settings captured from its bank (R376). -/
structure Firing where
  span : Bool
  id : Nat
  bank : Nat
  /-- Valve port 0 to 3, or 4 for the direct outputs. -/
  path : Nat
  lo : Nat
  hi : Nat
  start : Int
  stop : Int
  mech : Nat
  minOn : Nat
  minOff : Nat
  maxOn : Nat
  /-- Waiting 0, on 1, off reached while a minimum time holds a valve 2. -/
  phase : Nat
  deriving DecidableEq, Repr

/-- A valve that has been commanded: its state, the tick of its last change, and a command that a minimum time
holds back (R378). -/
structure Valve where
  path : Nat
  num : Nat
  on : Bool
  since : Nat
  /-- 0 none, 1 an on command, 2 an off command. -/
  owed : Nat
  /-- The tick at which the held command is issued. -/
  due : Nat
  deriving DecidableEq, Repr

/-- A stripe notice kept for records (R359). -/
structure Notice where
  ctx : Nat
  s : Int
  e : Int
  reasons : Nat
  deriving DecidableEq, Repr

/-- TRK and Hoof. -/
structure TrkState where
  recs : List TrkRec := []
  /-- Generations of regular identifiers that differ from 0. -/
  gens : List (Nat × Nat) := []
  /-- The free-record queue: identifiers `fresh` to 4,095, then `returned`, oldest first (R352, R354). -/
  fresh : Nat := 0
  returned : List Nat := []
  /-- The staging buffer (R353). -/
  staged : List Nat := []
  /-- Last 16 notices with a reason, oldest first (R359). -/
  notices : List Notice := []
  /-- Part list entries that have not been taken, oldest first (R227). -/
  entries : List PartEntry := []
  /-- Verdicts that have not been taken, oldest first. -/
  verdicts : List VerdictMsg := []
  firings : List Firing := []
  valves : List Valve := []
  deriving DecidableEq, Repr

/-! ## Part attention tables and pools -/

/-- A page table that is not FREE (R264 to R266, R286). -/
structure AtnTable where
  id : Nat
  gen : Nat
  /-- RELEASING instead of OPEN. -/
  releasing : Bool
  pool : Option Nat
  entries : List Nat
  tokens : Nat
  trunc : Bool
  /-- Descriptors that began reading it and have not finished. -/
  readers : Nat
  /-- The local page of the last partly filled page of a REMOTE pool's table (R283). -/
  localPage : Option Nat
  /-- Entries that an uncorrectable error made unreadable (R286). -/
  lost : List Nat
  deriving DecidableEq, Repr

/-- A page on its way home (R283). -/
structure PagePush where
  localPage : Nat
  group : Nat
  tag : Nat
  deriving DecidableEq, Repr

/-- A pool since its enable. -/
structure AtnPool where
  /-- ATN's own copy of the frequency table (R261, R270). -/
  rope : List Nat := []
  /-- Free local pages: `fresh` and above, then `returned`, oldest first (R265). -/
  fresh : Nat := 0
  returned : List Nat := []
  /-- Free home pages of a REMOTE range, counted from its first, in the same way (R283). -/
  rfresh : Nat := 0
  rreturned : List Nat := []
  /-- HOME: pages stored since enable (R285). -/
  stored : List Nat := []
  pushes : List PagePush := []
  deriving DecidableEq, Repr

/-! ## Plans, jobs and steps -/

/-- A stripe in the line buffer whose stripe-ready has been raised (R136, R171). -/
structure Ready where
  ctx : Nat
  no : Nat
  slot : Nat
  /-- The tick at which it was raised. -/
  time : Nat
  deriving DecidableEq, Repr

/-- An open component of the part finder (R226). -/
structure FindComp where
  /-- Map row and column of its first pixel. -/
  row : Nat
  col : Nat
  ident : Option (Nat × Nat)
  reported : Bool
  /-- Reported in the present step. -/
  fresh : Bool
  ovf : Bool
  pixels : Nat
  /-- Pixels of each class. -/
  classes : List (Nat × Nat)
  xmin : Nat
  xmax : Nat
  lastRow : Nat
  /-- Steps in which it received a box (R228). -/
  boxes : Nat
  /-- Bounding box of its pixels in the present step: rows and columns, inclusive. -/
  box : Option (Nat × Nat × Nat × Nat)
  deriving DecidableEq, Repr

/-- The labelling state of one PART_FIND descriptor in one context (R182). -/
structure Finder where
  desc : Nat
  /-- Map rows processed since the reset. -/
  rows : Nat
  comps : List FindComp
  /-- The foreground pixels of the last row: column, class, and first pixel of the component. -/
  prev : List (Nat × Nat × Nat × Nat)
  deriving DecidableEq, Repr

/-- A part list entry in the making: a component and what has become of it. -/
structure CutEntry where
  desc : Nat
  comp : FindComp
  /-- Positions that its entry takes. -/
  first : Int
  last : Int
  deriving DecidableEq, Repr

/-- A stripe that the part finder may still refer to (R227): its index since the window reset, its interval, and the
positions of its rows. -/
structure StripeMark where
  index : Nat
  s : Int
  e : Int
  pos : List Int
  deriving DecidableEq, Repr

/-- The streaming state of one context under one plan slot (R172 to R175). -/
structure CtxWin where
  ctx : Nat
  /-- Number of the last stripe consumed. -/
  last : Nat
  /-- Stripes consumed since the window reset. -/
  stripes : Nat
  /-- Stripes whose slots the array holds: index since the reset, slot. -/
  holding : List (Nat × Nat)
  /-- Output rows produced by each descriptor. -/
  prod : List (Nat × Nat)
  finders : List Finder
  /-- Components cut by the last window reset (R229). -/
  cuts : List CutEntry
  /-- Stripes whose row positions are kept, oldest first. -/
  marks : List StripeMark
  deriving DecidableEq, Repr

/-- A plan as the device holds it (R183, R185, R201). Addresses are device addresses, offsets are in the region. -/
structure Plan where
  base : Nat
  size : Nat
  batch : Bool
  fawn : Bool
  frc : Bool
  clusters : Nat
  need : Nat
  ctxs : Nat
  /-- The 128-byte descriptors. -/
  descs : List Nat
  /-- Tensor headers by region offset: the device's own copies. -/
  headers : List (Nat × Nat)
  /-- Scale tables, codebook tables, outlier lists and augmentation blocks by region offset. -/
  tables : List (Nat × List Nat)
  /-- SHA-256 of the image. -/
  digest : Nat
  deriving DecidableEq, Repr

/-- A load that waits in a slot (R186, R187). -/
structure PlanLoad where
  base : Nat
  size : Nat
  hold : Bool
  /-- The plan, once its checks have passed. -/
  plan : Option Plan
  deriving DecidableEq, Repr

/-- One plan slot (R414). -/
structure PlanSt where
  active : Option Plan := none
  load : Option PlanLoad := none
  /-- An unload waits for the STREAM job's step boundary (R415). -/
  unloading : Bool := false
  wins : List CtxWin := []
  deriving DecidableEq, Repr

/-- A tile in flight (R165). -/
structure TileRun where
  seq : Nat
  desc : Nat
  unit : Nat
  pos : Nat
  /-- Outstanding HBM reads and reads not yet issued: line address and cost in half units; the tile is in WAIT_MEM while
  there is one (R166, R297). -/
  reads : List (Nat × Nat)
  left : List (Nat × Nat)
  deriving DecidableEq, Repr

/-- One descriptor of a step. -/
structure DescRun where
  idx : Nat
  /-- Tiles, times the parts of a split reduction (R199). -/
  units : Nat
  parts : Nat
  assigned : Nat
  done : List Nat
  complete : Bool
  /-- Streaming: the output rows of this step. -/
  rowLo : Nat
  rowHi : Nat
  /-- Partial results by unit, in order of completion (R168, R177). -/
  partials : List (Nat × List (List Int))
  /-- Codes written, by row, column and channel, when the descriptor has a digest (R472). -/
  codes : List ((Nat × Nat × Nat) × Nat)
  /-- Bytes for the digest of descriptors without codes. -/
  extra : List Nat
  /-- What the output converter tracked (R254). -/
  amax : Nat
  sat : Nat
  written : Nat
  /-- The tick of its first tile (R428). -/
  first : Option Nat
  deriving DecidableEq, Repr

/-- A step in progress (R169). -/
structure StepRun where
  /-- STREAM: the context and the stripe. -/
  ready : Option Ready
  /-- The tick of its start: stripe-ready, or the begin of a BATCH step. -/
  start : Nat
  descs : List DescRun
  tiles : List TileRun
  seq : Nat
  idle : Bool
  fixed : Bool
  refresh : Nat
  replays : Nat
  /-- The stripe carries REPLAY (R475). -/
  replay : Bool
  deriving DecidableEq, Repr

/-- States of a job context that is not FREE (R417). -/
inductive JobState where
  | idle | ready | running | ended
  deriving DecidableEq, Repr

/-- A job context that is not FREE (R417 to R422). -/
structure Job where
  no : Nat
  part : Nat
  slot : Nat
  batch : Bool
  state : JobState
  save : Nat
  s0 : Nat
  step : Nat
  /-- Steps to run; 0 is until stopped. -/
  steps : Nat
  ran : Nat
  seed : Nat
  epoch : Nat
  /-- Slice in nanoseconds, and slice debt. -/
  slice : Nat
  debt : Nat
  tag : Nat
  sq : Nat
  /-- STOP entries that wait for its end: queue and tag. -/
  stops : List (Nat × Nat)
  /-- It ends at its next step boundary. -/
  ending : Bool
  relaxed : Bool
  /-- It has run before. -/
  started : Bool
  /-- Place in the rotation: order in which it first became READY (R425). -/
  order : Nat
  /-- Descriptor after which the next BATCH step begins. -/
  next : Nat
  run : Option StepRun
  /-- Scale register ranges loaded, latest first: first register, count, tensor header (R242). -/
  loaded : List (Nat × Nat × Nat)
  /-- What its completion says: status, descriptor index, time. -/
  status : Nat
  desc : Nat
  time : Nat
  /-- Pools for which KFMT_MISMATCH was raised in this job (R277). -/
  kfmt : List Nat
  /-- What the switch saved of it: bytes [0, need) of each position's SRAM (R427). -/
  saved : List (List Nat)
  deriving DecidableEq, Repr

/-- The clusters of one partition as the scheduler holds them (R424 to R427). -/
structure Sched where
  running : Option Nat := none
  /-- End of the slice in nanoseconds of device time. -/
  sliceEnd : Nat := 0
  /-- The slice has ended and the job is being preempted. -/
  ending : Bool := false
  /-- The job whose state is being restored (R427). -/
  switchTo : Option Nat := none
  /-- The job whose state lies on the clusters. -/
  last : Option Nat := none
  /-- The job that was given the last turn of the rotation. -/
  turn : Nat := 0
  /-- The tick at which the last tile of the partition left RUN, plus 1; 0 when none has (R468). -/
  lastTile : Nat := 0
  deriving DecidableEq, Repr

/-- A completion that waits for room in its CQ (R423). -/
structure Completion where
  part : Nat
  cq : Nat
  bytes : List Nat
  /-- The job that becomes FREE when it is written. -/
  job : Option Nat
  sq : Nat
  deriving DecidableEq, Repr

/-- Completions of one CQ that no message has signalled (R423). -/
structure CqWait where
  part : Nat
  cq : Nat
  unsig : Nat
  since : Nat
  deriving DecidableEq, Repr

/-- An entry that holds its SQ (R420). -/
structure SqWait where
  part : Nat
  sq : Nat
  entry : Nat
  deriving DecidableEq, Repr

/-- The command processor. -/
structure CmdState where
  ready : List Ready := []
  slots : List (List PlanSt) := List.replicate 8 (List.replicate 8 {})
  jobs : List Job := []
  sched : List Sched := List.replicate 8 {}
  waiting : List Completion := []
  cqs : List CqWait := []
  sqs : List SqWait := []
  orders : Nat := 0
  deriving DecidableEq, Repr

/-- A Fawn pass: the run of descriptors that one job gives Fawn (R181). -/
structure FwnPass where
  part : Nat
  job : Nat
  descs : List Nat
  be : Bool
  /-- It began and a pass of the Fawn partition took its place. -/
  suspended : Bool := false
  deriving DecidableEq, Repr

/-! ## Work of the attention engines and of DEC -/

/-- A box of an ATTN descriptor as it was issued (R271, R272). -/
structure AttnBox where
  box : Nat
  /-- The table it selects and the table's pool, when it may have keys. -/
  table : Option Nat
  pool : Nat
  /-- Stored keys at issue. -/
  keys : Nat
  /-- The image of each page, by entry; empty while it is awaited, and when it is masked or missing. -/
  pages : List (List Nat)
  deriving DecidableEq, Repr

/-- A page that a descriptor asks of the other device (R284). -/
structure PageReq where
  pool : Nat
  table : Nat
  entry : Nat
  page : Nat
  group : Nat
  /-- The local page that takes the reply, and the tick of the request; `none` while it waits for a page. -/
  dest : Option Nat
  since : Nat
  arrived : Bool
  missing : Bool
  deriving DecidableEq, Repr

/-- A work unit (R280): the boxes it packs, its run, head and query group, and the engine that runs it. -/
structure AtnUnit where
  boxes : List Nat
  run : Nat
  head : Nat
  group : Nat
  blocks : Nat
  engine : Option Nat
  deriving DecidableEq, Repr

/-- An ATTN descriptor in progress. -/
structure AttnRun where
  part : Nat
  job : Nat
  desc : Nat
  boxes : List AttnBox
  units : List AtnUnit
  reqs : List PageReq
  deriving DecidableEq, Repr

/-- A decoded picture: its ROI's codes in (row, column, channel) order (R439, R454). -/
structure DecImage where
  entry : List Nat
  status : Nat
  trunc : Bool
  hit : Bool
  symbols : Nat
  w : Nat
  h : Nat
  chans : Nat
  prec : Nat
  codes : List Nat
  deriving DecidableEq, Repr

/-- A DEC_FETCH descriptor of a step in progress (R438, R449). -/
structure DecFetch where
  part : Nat
  job : Nat
  desc : Nat
  /-- The sample entries of its batch slots; `none` for a table without entries. -/
  entries : List (Option (List Nat))
  /-- The next slot to hand to an engine, and the lowest slot not delivered. -/
  next : Nat
  delivered : Nat
  /-- Slots being decoded, with their engines. -/
  running : List (Nat × Nat)
  decoded : List (Nat × DecImage)
  /-- Status entries of delivered slots (R454). -/
  status : List (List Nat)
  deriving DecidableEq, Repr

/-! ## Power and faults -/

/-- The power controller (R516 to R520, R557): none of it is visible to software (R5). -/
structure PwrState where
  /-- The operating point. -/
  point : Nat := 0
  /-- The VID code sent last. -/
  code : Nat := 20
  /-- The point to which the clock rises when the regulators have followed. -/
  raise : Option Nat := none
  /-- Sections whose Tines are throttled. -/
  throttled : Nat := 0
  /-- Learned values that differ from their ceilings, in microamperes: partition, slot, class. -/
  learned : List ((Nat × Nat × Nat) × Nat) := []
  deriving DecidableEq, Repr

/-- Fault buckets that are not 0, by type and instance (R502), and the permanent instances that the retirement record
does not hold yet, with their buckets (R504). -/
structure FltState where
  buckets : List ((Nat × Nat) × Nat) := []
  unrecorded : List (Nat × Nat × Nat) := []
  /-- The tick at which the present leak window of each type ends (R502). -/
  leakEnds : List Nat := [0, 0, 0, 0, 0, 0]
  deriving DecidableEq, Repr

/-! ## Velvet and the management controller -/

/-- A snapshot copy (R495): its header, and its entries as BAR0 offset and word. -/
structure SnapCopy where
  magic : Nat := 0
  version : Nat := 0
  seq : Nat := 0
  count : Nat := 0
  rom : Nat := 0
  patch : Nat := 0
  digest : Nat := 0
  entries : List (Nat × Nat) := []
  deriving DecidableEq, Repr

/-- An entry of the ring of retirements (R504): type, instance, bucket, start count. -/
structure RetireEntry where
  typ : Nat
  inst : Nat
  bucket : Nat
  start : Nat
  deriving DecidableEq, Repr

/-- A copy of the retirement record (R504): its sequence, the instances in its bitmaps, and its ring, newest first. -/
structure RetireRec where
  seq : Nat := 0
  marks : List (Nat × Nat) := []
  ring : List RetireEntry := []
  deriving DecidableEq, Repr

/-- Velvet (R493), as far as it is not the protected area. -/
structure Velvet where
  /-- Directory: failed-start count, start count, scrub-due flag. -/
  fails : Nat := 0
  starts : Nat := 0
  scrubDue : Bool := false
  recs : List RetireRec := [{}, {}]
  copies : List SnapCopy := [{}, {}]
  /-- The copy that holds the last committed snapshot. -/
  last : Nat := 1
  deriving DecidableEq, Repr

/-- A lane that keeps its lock through a warm reset (R486), with the mode and rate values that it ran with. -/
structure KeptLane where
  lane : Nat
  ran : List Nat
  deriving DecidableEq, Repr

/-- Why and how the next start begins (R482, R483, R485). -/
structure NextStart where
  powerOn : Bool := false
  pin : Bool := false
  software : Bool := false
  coolant : Bool := false
  thermal : Bool := false
  cold : Bool := false
  scrub : Bool := false
  hbmKept : Bool := false
  deriving DecidableEq, Repr

/-- The management controller: the start in progress, stops, and its work on Velvet and in SEC. -/
structure MgtState where
  /-- RESET_N is low; a reset has been recognised and no start has begun (R552). -/
  resetLow : Bool := false
  inReset : Bool := false
  next : NextStart := {}
  /-- The kind of the present start. -/
  cold : Bool := true
  /-- The tick at which the fuses were loaded. -/
  fuseTick : Option Nat := none
  /-- Steps 2, 3, 5, 6 and 7 are complete; step 2 waits for COOLANT_OK (R484, R526). -/
  velvetOk : Bool := false
  coolantWait : Bool := false
  linkOk : Bool := false
  hbmOk : Bool := false
  patchOk : Bool := false
  scrubOk : Bool := false
  /-- MGT_RESET.scrub was 1 for this start, or an uncorrectable word was found before it (R485). -/
  scrubWanted : Bool := false
  /-- The tick at which the patch window opened; a fetch is in progress (R491). -/
  windowTick : Nat := 0
  fetching : Bool := false
  readyTick : Nat := 0
  /-- R489: a start OK was accepted; the window has ended; START_LATE was raised. -/
  okTaken : Bool := false
  okEnded : Bool := false
  late : Bool := false
  /-- Both HBM stacks are in self-refresh (R483). -/
  selfRefresh : Bool := false
  /-- The tick of a stop (R524). -/
  stopTick : Option Nat := none
  /-- The security version of the accepted bundle (R506). -/
  patchSvn : Nat := 0
  /-- THERM_STOP_N is driven low (R554). -/
  thermStop : Bool := true
  /-- A requested reset: cold, with scrub (R483). -/
  request : Option (Bool × Bool) := none
  kept : List KeptLane := []
  /-- Resets so far: what an earlier start left in the epoch cache is invalid (R456). -/
  resets : Nat := 0
  /-- A captured snapshot that is being written (R496, R497). -/
  capture : Option (List (Nat × Nat)) := none
  /-- The plan entries and modes of the report in the making (R506). -/
  attest : List (Nat × List Nat) := []
  /-- Writes to host memory were lost since the last LINK_UP (R406). -/
  wrLost : Bool := false
  deriving DecidableEq, Repr

/-! ## The whole block -/

/-- What the fuses of the unit hold (R1, R481). -/
structure Fuses where
  /-- Grade B (48 clusters) instead of grade A (64). -/
  gradeB : Bool
  /-- Bit `k`: physical cluster `k` is disabled. -/
  disabled : Nat
  serial : Nat
  debugLocked : Bool
  svnMin : Nat
  vkeyHash : Nat
  deriving DecidableEq, Repr

/-- The whole block. -/
structure State where
  fuses : Fuses
  /-- Register fields and the scalars beside them that differ from their reset values. -/
  regs : List (RegKey × Nat)
  /-- Shadow copies of RWS fields that differ from their reset values (R50). -/
  shadow : List (RegKey × Nat)
  /-- Low words written to 64-bit registers whose high word has not been written, by BAR0 offset (R9). -/
  lowWrites : List (Nat × Nat)
  /-- High words latched by reads of low words, by BAR0 offset (R9). -/
  highReads : List (Nat × Nat)
  /-- Commits waiting for a release or a boundary (R50 to R52). -/
  commits : List CommitRec
  /-- BAR0 writes held during a snapshot capture, oldest first; `none` when no capture holds them (R496). -/
  held : Option (List HeldWrite)
  /-- IOCLK ticks since the power came up. -/
  tick : Nat
  /-- Device time: seconds, nanoseconds, and 2^-32 ns (R341). -/
  sec : Nat
  ns : Nat
  frac : Nat
  /-- Peer groups PL0 to PL5. -/
  peers : List PeerSt
  hbm : HbmState
  /-- SRAM of the clusters (R160): byte `a` of physical cluster `k` lies at key `k * 2 ^ 22 + a`. -/
  sram : Memory
  cmd : CmdState
  /-- Passes of Fawn, the running one first. -/
  fwn : List FwnPass
  cap : CapState
  lnp : LnpState
  trk : TrkState
  pwr : PwrState
  flt : FltState
  velvet : Velvet
  mgt : MgtState
  tables : List AtnTable
  pools : List AtnPool
  /-- ATTN descriptors in progress, in order of issue, and DEC_FETCH descriptors of steps in progress. -/
  attn : List AttnRun
  dec : List DecFetch
  /-- What the block has given to the outside, oldest first. -/
  out : List Output
  /-- The model's own counter of free values drawn; no statement rests on its value. -/
  draws : Nat
  /-- Commands that wait, first in first out. -/
  pending : List Instr
  deriving DecidableEq, Repr

/-- The machine right after reset: RESET_N has just risen after power-on (MGT_RESET_CAUSE.power_on reads 1), step 1 of a cold start
is in progress. -/
def State.reset : State where
  fuses := { gradeB := false, disabled := 0xFF0000000000000000, serial := 0, debugLocked := true, svnMin := 0,
             vkeyHash := 0 }
  regs := [(⟨.mgt, 0, 0, 0x108, 0⟩, 1)]
  shadow := []
  lowWrites := []
  highReads := []
  commits := []
  held := none
  tick := 0
  sec := 0
  ns := 0
  frac := 0
  peers := List.replicate 6 {}
  hbm := {}
  sram := []
  cmd := {}
  fwn := []
  cap := {}
  lnp := {}
  trk := {}
  pwr := {}
  flt := {}
  velvet := {}
  mgt := {}
  tables := []
  pools := List.replicate 8 {}
  attn := []
  dec := []
  out := []
  draws := 0
  pending := []

end Sys2Proof.Machine
end

