-- ==== Sys2Proof/Machine/Ops.lean ====
section
/-!
DEFINITION. Machine/Ops.lean: the named operations over the register store, ownership, events and their
interrupts, codes, and writes to host memory. Every read and write of a register goes through `State.get`, `State.set`.
-/
namespace Sys2Proof.Machine

/-! ## The register store -/

/-- The listed value of a cell. -/
def cellGet : List (RegKey × Nat) → RegKey → Option Nat
  | [], _ => none
  | c :: cs, k => if c.1 = k then some c.2 else cellGet cs k

/-- The store without a cell. -/
def cellErase : List (RegKey × Nat) → RegKey → List (RegKey × Nat)
  | [], _ => []
  | c :: cs, k => if c.1 = k then cellErase cs k else c :: cellErase cs k

/-- The store with a cell put in its place in the order. -/
def cellInsert : List (RegKey × Nat) → RegKey → Nat → List (RegKey × Nat)
  | [], k, v => [(k, v)]
  | c :: cs, k, v => if k.lt c.1 then (k, v) :: c :: cs else c :: cellInsert cs k v

/-- The store after a write of `v` to a cell whose unlisted value is `d`. -/
def cellSet (l : List (RegKey × Nat)) (k : RegKey) (v d : Nat) : List (RegKey × Nat) :=
  if v = d then cellErase l k else cellInsert (cellErase l k) k v

/-- The value of element `j` of field `f` on page instance `i`. -/
def State.get (s : State) (f : Fld) (i : Nat := 0) (j : Nat := 0) : Nat :=
  (cellGet s.regs (f.key i j)).getD (f.resetAt j)

/-- The same field with a new value, cut to its width. -/
def State.set (s : State) (f : Fld) (i j v : Nat) : State :=
  { s with regs := cellSet s.regs (f.key i j) (v % 2 ^ f.width) (f.resetAt j) }

/-- The shadow of an RWS field (R50). -/
def State.getShadow (s : State) (f : Fld) (i : Nat := 0) (j : Nat := 0) : Nat :=
  (cellGet s.shadow (f.key i j)).getD (f.resetAt j)

/-- A write of the shadow of an RWS field (R50). -/
def State.setShadow (s : State) (f : Fld) (i j v : Nat) : State :=
  { s with shadow := cellSet s.shadow (f.key i j) (v % 2 ^ f.width) (f.resetAt j) }

/-- Is a one-bit field set? -/
def State.isOn (s : State) (f : Fld) (i : Nat := 0) (j : Nat := 0) : Bool := s.get f i j != 0

/-- Count `n` in a saturating counter register. -/
def State.count (s : State) (f : Fld) (i j n : Nat) : State :=
  s.set f i j (satAdd f.width (s.get f i j) n)

/-- Count `n` in a counter register that wraps. -/
def State.countWrap (s : State) (f : Fld) (i j n : Nat) : State :=
  s.set f i j (s.get f i j + n)

/-- Apply an effect for each element of a list, in order. -/
def State.forEach {α : Type} (s : State) (l : List α) (g : State → α → State) : State := l.foldl g s

/-- Clear the listed counters of a page instance. -/
def State.clearFlds (s : State) (i : Nat) (l : List Fld) : State := s.forEach l (fun s f => s.set f i 0 0)

/-! ## Partitions, clusters and ownership -/

/-- Is a physical cluster disabled on this unit (R1, R18)? -/
def State.cluDisabled (s : State) (k : Nat) : Bool := bit s.fuses.disabled k

/-- The enabled physical clusters, ascending: entry `n` is logical cluster `n`. -/
def State.enabledClu (s : State) : List Nat := (List.range 72).filter (fun k => !s.cluDisabled k)

/-- The physical cluster of a logical one. -/
def State.physOf (s : State) (n : Nat) : Option Nat := s.enabledClu[n]?

/-- The logical number of a physical cluster. -/
def State.logicalOf (s : State) (k : Nat) : Option Nat := s.enabledClu.findIdx? (· == k)

/-- Is a physical cluster retired (R189)? -/
def State.cluRetired (s : State) (k : Nat) : Bool := s.isOn (.STATUS_retired .clu) k

/-- Does partition `p` exist (R410)? -/
def State.partExists (s : State) (p : Nat) : Bool := s.isOn .CMD_PART_CFG_enable 0 p

/-- Is partition `p` of class BE (R410)? -/
def State.partIsBe (s : State) (p : Nat) : Bool := s.isOn .CMD_PART_CFG_class 0 p

/-- The logical clusters that some existing LC partition names (R410). -/
def State.lcClusters (s : State) : Nat :=
  (List.range 8).foldl (fun m p => if s.partExists p && !s.partIsBe p then m ||| s.get .CMD_PART_CLU 0 p else m) 0

/-- The cluster set of a BE partition (R410): enabled, not retired, named by no existing LC partition. -/
def State.beClusters (s : State) : Nat :=
  maskOf ((List.range s.enabledClu.length).filter
    (fun n => !bit s.lcClusters n && !s.cluRetired ((s.physOf n).getD 0)))

/-- The cluster set of partition `p` as a mask of logical clusters (R410); empty while it does not exist. -/
def State.partClu (s : State) (p : Nat) : Nat :=
  if !s.partExists p then 0 else if s.partIsBe p then s.beClusters else s.get .CMD_PART_CLU 0 p

/-- The logical clusters of partition `p`, ascending: entry `x` stands at position `x` (R162, R410). -/
def State.partList (s : State) (p : Nat) : List Nat := onesOf 64 (s.partClu p)

/-- The partition whose set holds a physical cluster (R54, R410). -/
def State.cluPart (s : State) (k : Nat) : Option Nat :=
  (s.logicalOf k).bind (fun n => (List.range 8).find? (fun p => bit (s.partClu p) n))

/-- The partition that owns a page, if any (R54). -/
def State.owner (s : State) (p : PageId) : Option Nat :=
  match p.kind with
  | .cmdPart | .memPart => some p.inst
  | .clu => s.cluPart p.inst
  | k => if k.assignable && s.isOn (.OWNER_valid k) p.inst then some (s.get (.OWNER_partition k) p.inst) else none

/-- The pages that a function sees (R41); the event summary of HLK is added word by word. -/
def State.sees (s : State) (fn : Nat) (p : PageId) : Bool := fn == 0 || s.owner p == some (fn - 1)

/-! ## Writes to host memory -/

/-- Is the host link up (R565)? -/
def State.linkUp (s : State) : Bool := s.isOn .HLK_LINK_STATUS_up

/-- Give something to the outside. -/
def State.emit (s : State) (o : Output) : State := { s with out := s.out ++ [o] }

/-- A write that the device makes to host memory: made while the link is up, else discarded and counted (R406). -/
def State.hostOut (s : State) (o : Output) : State :=
  if s.linkUp then s.emit o
  else { s.count .HLK_CNT_WR_LOST 0 0 1 with mgt := { s.mgt with wrLost := true } }

/-! ## Interrupts (R58, R59) -/

/-- The function to which a page's events are delivered (R58). -/
def State.route (s : State) (p : PageId) : Nat :=
  match s.owner p with
  | some q => q + 1
  | none => 0

/-- STATUS.evt_pending of a page (R45). -/
def State.evtPending (s : State) (p : PageId) : Bool :=
  (s.get (.EVT_STATUS p.kind) p.inst &&& s.get (.EVT_ENABLE p.kind) p.inst) != 0

/-- The OR of R59 for one function and vector. -/
def State.vecOr (s : State) (fn vec : Nat) : Bool :=
  allKinds.any (fun k => k.vector == vec &&
    (List.range k.count).any (fun i => s.evtPending ⟨k, i⟩ && s.route ⟨k, i⟩ == fn))

/-- Word `w` of the MSI-X table entry of a vector: 0 and 1 address, 2 data, 3 control (R409). -/
def State.msixWord (s : State) (fn vec w : Nat) : Nat :=
  if fn == 0 then s.get .MSIX_TABLE_PF0 0 (vec * 4 + w) else s.get .MSIX_TABLE (fn - 1) (vec * 4 + w)

/-- The pending bits of a function (R409). -/
def State.msixPba (s : State) (fn : Nat) : Nat :=
  if fn == 0 then s.get .MSIX_PBA_PF0 else s.get .MSIX_PBA (fn - 1)

/-- The pending bits of a function, replaced. -/
def State.setPba (s : State) (fn v : Nat) : State :=
  if fn == 0 then s.set .MSIX_PBA_PF0 0 0 v else s.set .MSIX_PBA (fn - 1) 0 v

/-- Send one message on a vector, or set its pending bit while the vector is masked (R59). -/
def State.sendMsix (s : State) (fn vec : Nat) : State :=
  if bit (s.msixWord fn vec 3) 0 then s.setPba fn (putBit (s.msixPba fn) vec true)
  else s.hostOut (.msix fn vec (s.msixWord fn vec 0 + 2 ^ 32 * s.msixWord fn vec 1) (s.msixWord fn vec 2))

/-- After a change, send the message of a page's vector if the OR rose from 0 to 1 (R59); `before` is the OR as it was
before the change. -/
def State.signal (s : State) (p : PageId) (before : Bool) : State :=
  if !before && s.vecOr (s.route p) p.kind.vector then s.sendMsix (s.route p) p.kind.vector else s

/-! ## Events (R45, R46, R49) -/

/-- ERR_INFO after a cycle that sets the EVT_STATUS bits `mask` (R46): while valid = 0 the lowest is captured, any other
sets overflow; while valid = 1 all count as further events. -/
def State.capture (s : State) (p : PageId) (mask detail : Nat) (forced : Bool) : State :=
  if mask == 0 then s
  else if s.isOn (.ERR_INFO_valid p.kind) p.inst then s.set (.ERR_INFO_overflow p.kind) p.inst 0 1
  else
    let e := (onesOf 32 mask).headD 0
    let s := (((s.set (.ERR_INFO_valid p.kind) p.inst 0 1).set (.ERR_INFO_forced p.kind) p.inst 0 (b2n forced)).set
      (.ERR_INFO_event p.kind) p.inst 0 e).set (.ERR_INFO_detail p.kind) p.inst 0 detail
    if popCount 32 mask > 1 then s.set (.ERR_INFO_overflow p.kind) p.inst 0 1 else s

/-- Set EVT_STATUS bits of a page, capture ERR_INFO and signal (R45, R46, R59). -/
def State.raiseMask (s : State) (p : PageId) (mask detail : Nat) (forced : Bool) : State :=
  let before := s.vecOr (s.route p) p.kind.vector
  ((s.set (.EVT_STATUS p.kind) p.inst 0 (s.get (.EVT_STATUS p.kind) p.inst ||| mask)).capture p mask detail
    forced).signal p before

/-- Raise one event of a page, with its ERR_INFO detail. -/
def State.raise (s : State) (p : PageId) (n : Nat) (detail : Nat := 0) : State := s.raiseMask p (2 ^ n) detail false

/-- ERR_INFO records a code (R49): the WRITE_CODE event, with the code, the writer and the word written. -/
def State.code (s : State) (p : PageId) (fn off code : Nat) : State :=
  s.raise p 31 (code + fn * 2 ^ 8 + (off / 4) * 2 ^ 12)

/-- A denied or unmapped access (R407): the HLK event, with function and BAR, and the offset when it is captured. -/
def State.deny (s : State) (event fn bar off : Nat) : State :=
  let s' := s.raise ⟨.hlk, 0⟩ event (fn + bar * 2 ^ 4)
  if s.isOn (.ERR_INFO_valid .hlk) then s' else s'.set .HLK_DENY_OFFSET 0 0 off

/-- The messages of a function whose OR of R59 rises between two states. -/
def State.rerouted (before after : State) : State :=
  after.forEach ((List.range 9).flatMap (fun fn => (List.range 14).map (fun v => (fn, v)))) (fun s x =>
    if !before.vecOr x.1 x.2 && after.vecOr x.1 x.2 then s.sendMsix x.1 x.2 else s)

end Sys2Proof.Machine
end

