-- ==== Sys2Proof/Machine/Counters.lean ====
section
/-!
DEFINITION. Machine/Counters.lean: counting of events by the programmable counters (R530 to R540). Every effect that
the event table of R531 names calls `State.pmc`.
-/
namespace Sys2Proof.Machine

/-- The events of R531 that name no instance. -/
def pmcNoInstance : List Nat := [0x01, 0x14, 0x15, 0x16, 0x18, 0x23, 0x24, 0x25, 0x30, 0x31, 0x32, 0x34]

/-- A freeze stops every counter: frozen reads 1 and FROZEN is raised (R536). -/
def State.pmcFreezeNow (s : State) : State :=
  if s.isOn .PMC_CTRL_frozen then s else (s.set .PMC_CTRL_frozen 0 0 1).raise ⟨.pmc, 0⟩ 2

/-- Does counter `n` form the high half of a chained pair (R535)? -/
def State.pmcChained (s : State) (n : Nat) : Bool := n % 2 == 1 && s.isOn .PMC_CNT_SEL_chain 0 n

/-- What a wrap of counter `n` does beside the remainder (R535, R536). -/
def State.pmcWrapped (s : State) (n : Nat) : State :=
  let s := s.set .PMC_OVF 0 0 (putBit (s.get .PMC_OVF) n true)
  let s := if s.isOn .PMC_CNT_SEL_ovf_irq 0 n then s.raise ⟨.pmc, 0⟩ 0 n else s
  if s.isOn .PMC_CNT_SEL_ovf_frz 0 n then s.pmcFreezeNow else s

/-- Add to counter `n` alone, keeping the remainder at a wrap (R535). -/
def State.pmcAddTop (s : State) (n amt : Nat) : State :=
  let v := s.get .PMC_CNT 0 n + amt
  let s := s.set .PMC_CNT 0 n v
  if v < 2 ^ 32 then s else s.pmcWrapped n

/-- Add to counter `n`; a wrap of the low half of a chained pair adds 1 to the high half instead (R535). -/
def State.pmcAdd (s : State) (n amt : Nat) : State :=
  if n % 2 == 0 && s.pmcChained (n + 1) then
    let v := s.get .PMC_CNT 0 n + amt
    let s := s.set .PMC_CNT 0 n v
    if v < 2 ^ 32 then s
    else if s.isOn .PMC_CNT_SEL_enable 0 (n + 1) then s.pmcAddTop (n + 1) (v / 2 ^ 32) else s
  else s.pmcAddTop n amt

/-- Does counter `n` take this occurrence (R531, R533)? -/
def State.pmcTakes (s : State) (n code inst : Nat) (part : Option Nat) : Bool :=
  s.isOn .PMC_CNT_SEL_enable 0 n && !s.pmcChained n && s.get .PMC_CNT_SEL_event 0 n == code &&
  (pmcNoInstance.contains code || s.isOn .PMC_CNT_SEL_inst_any 0 n || s.get .PMC_CNT_SEL_instance 0 n == inst) &&
  (!s.isOn .PMC_CNT_SEL_part_en 0 n || code == 0x01 || part == some (s.get .PMC_CNT_SEL_part 0 n))

/-- Count `amt` occurrences of a COUNT event of R531, attributed to a partition or to none. -/
def State.pmc (s : State) (code inst amt : Nat) (part : Option Nat) : State :=
  if s.isOn .PMC_CTRL_frozen then s
  else s.forEach (List.range 32) (fun s n =>
    if s.pmcTakes n code inst part && s.get .PMC_CNT_SEL_mode 0 n == 0 then s.pmcAdd n amt else s)

/-- Count in the four counters of a CLU page (R540); a wrap raises PMC_OVF there. -/
def State.pmcClu (s : State) (phys code amt : Nat) : State :=
  if s.isOn .PMC_CTRL_frozen then s
  else s.forEach (List.range 4) (fun s k =>
    if s.isOn .CLU_PMC_SEL_enable phys k && s.get .CLU_PMC_SEL_event phys k == code
        && s.get .CLU_PMC_SEL_mode phys k == 0 then
      let v := s.get .CLU_PMC_CNT phys k + amt
      let s := s.set .CLU_PMC_CNT phys k v
      if v < 2 ^ 32 then s else s.raise ⟨.clu, phys⟩ 4 k
    else s)

end Sys2Proof.Machine
end

