-- ==== Sys2Proof/Machine/HostGate.lean ====
section
/-!
DEFINITION. Machine/HostGate.lean: what stands between a host write and the register it names (R41, R44, R55, R487,
R496, R525, R565), the plain effect of a write by access code (R10 to R14), and 64-bit registers as two words (R9).
-/
namespace Sys2Proof.Machine

/-- The pages that answer before ready and during a stop (R487, R525). -/
def mgmtPage (k : PageKind) : Bool := k == .mgt || k == .sec || k == .ret

/-- The header words that stay writable on a locked page (R55). -/
def lockExempt (off : Nat) : Bool := off / 4 * 4 == 0x10 || off / 4 * 4 == 0x14 || off / 4 * 4 == 0x1C

/-- Does LOCK turn away this function's write (R55)? -/
def State.lockDenies (s : State) (fn : Nat) (p : PageId) (off : Nat) : Bool :=
  !lockExempt off && (s.isOn (.LOCK_sticky p.kind) p.inst || (fn != 0 && s.isOn (.LOCK_locked p.kind) p.inst))

/-- The event summary words of HLK, which every function may read (R60). -/
def summaryWord (p : PageId) (off : Nat) : Bool := p.kind == .hlk && 0x200 ≤ off && off < 0x280

/-- A BAR0 write that has passed the link and no snapshot holds reaches its page: else it is discarded without an event (R487, R525,
R18) or denied (R41). -/
def State.hostReach (s : State) (fn : Nat) (p : PageId) (off : Nat) (act : State → State) : State :=
  if (s.isOn .MGTX_STOPPED || !s.isOn .MGT_STATUS_ready) && !mgmtPage p.kind then s
  else if !(s.sees fn p || summaryWord p off) then s.deny 0 fn 0 (p.base + off)
  else if p.kind == .clu && s.cluDisabled p.inst then s
  else act s

/-- A BAR0 write to one word: it reaches its page, and is turned away by the lock (R55) or takes the effect `act`. -/
def State.hostApply (s : State) (fn : Nat) (p : PageId) (off : Nat) (act : State → State) : State :=
  s.hostReach fn p off (fun s => if s.lockDenies fn p off then s.count (.LOCK_denied p.kind) p.inst 0 1 else act s)

/-- A BAR0 write of `value` to offset `off` of a page: lost while the link is down (R565), held while a snapshot is
captured (R496), else applied. -/
def State.hostGate (s : State) (fn : Nat) (p : PageId) (off size value : Nat) (act : State → State) : State :=
  if !s.linkUp then s
  else match s.held with
    | some h => { s with held := some (h ++ [⟨fn, p.base + off, size, value⟩]) }
    | none => s.hostApply fn p off act

/-- An access to offset `off` of page `p` takes effect: a gate with nothing to hold or deny it. -/
def State.gateOpen (s : State) (fn : Nat) (p : PageId) (off : Nat) : Bool :=
  s.linkUp && s.held.isNone && (mgmtPage p.kind || (s.isOn .MGT_STATUS_ready && !s.isOn .MGTX_STOPPED)) &&
  s.sees fn p && !(p.kind == .clu && s.cluDisabled p.inst) && !s.lockDenies fn p off

/-- The fields, with their elements, that have bits in the word at `woff` of a page of kind `k`. -/
def fieldsAt (l : List Fld) (woff : Nat) : List (Fld × Nat) :=
  l.flatMap (fun f =>
    let words := (f.lo + f.width + 31) / 32
    if f.stride == 0 then
      if f.off ≤ woff && woff < f.off + 4 * words then [(f, 0)] else []
    else
      let j := (woff - f.off) / f.stride
      if f.off ≤ woff && j < f.count && woff < f.word j + 4 * words then [(f, j)] else [])

/-- The value that a field takes when software writes `v` to the word at `woff`: the word's bits replaced. -/
def mergeWord (f : Fld) (j old woff v : Nat) : Nat :=
  if f.lo + f.width ≤ 32 then bits v (f.lo + f.width - 1) f.lo
  else
    let w := (woff - f.word j) / 4
    putBits old (32 * w) 32 v % 2 ^ f.width

/-- The effect of a software write on one field, by its access code (R10): RW at once, RWS to the shadow, W1C clears;
a value outside the field's range leaves it (R13, R14). -/
def State.writeFld (s : State) (i : Nat) (f : Fld) (j woff v : Nat) : State :=
  match f.acc with
  | .rw =>
    let x := mergeWord f j (s.get f i j) woff v
    if f.accepts x then s.set f i j x else s
  | .rws =>
    let x := mergeWord f j (s.getShadow f i j) woff v
    if f.accepts x then s.setShadow f i j x else s
  | .w1c => s.set f i j (s.get f i j &&& (2 ^ f.width - 1 - mergeWord f j 0 woff v))
  | .ro | .w1s | .wo => s

/-- A word write with no effect beyond its fields' access codes (R10, R12). -/
def State.plainWrite (s : State) (p : PageId) (woff v : Nat) : State :=
  s.forEach (fieldsAt (blockFlds p.kind) woff) (fun s fj => s.writeFld p.inst fj.1 fj.2 woff v)

/-- The 64-bit register whose low or high word lies at `woff`: the field, its element and the offset of its low word
(R9). Wider registers are written word by word. -/
def wide64 (l : List Fld) (woff : Nat) : Option (Fld × Nat × Nat) :=
  (l.flatMap (fun f => if f.lo == 0 && 32 < f.width && f.width ≤ 64 then fieldsAt [f] woff else [])).head?.map
    (fun fj => (fj.1, fj.2, fj.1.word fj.2))

/-- Latch the low word of a 64-bit register (R9). -/
def State.latchLow (s : State) (off v : Nat) : State :=
  { s with lowWrites := (off, v) :: s.lowWrites.filter (fun c => c.1 != off) }

/-- Drop the latched low word of a 64-bit register (R9). -/
def State.dropLow (s : State) (off : Nat) : State :=
  { s with lowWrites := s.lowWrites.filter (fun c => c.1 != off) }

/-- The whole value of a 64-bit register when its high word is written: the latched low word, or its present one. -/
def State.joinHigh (s : State) (absLow cur v : Nat) : Nat :=
  ((s.lowWrites.find? (fun c => c.1 == absLow)).map (fun c => c.2)).getD (cur % 2 ^ 32) + 2 ^ 32 * v

end Sys2Proof.Machine
end

