-- ==== Sys2Proof/Machine/Mem.lean ====
section
/-!
DEFINITION. Machine/Mem.lean: HBM, its regions and interleave (R290 to R296), the bandwidth regulators (R297 to R301),
and reads and writes of device addresses by the block's own engines.
-/
namespace Sys2Proof.Machine

/-! ## Bytes by address -/

/-- The byte at an address; an unlisted address reads 0. -/
def memByte : Memory → Nat → Nat
  | [], _ => 0
  | c :: cs, a => if c.1 = a then c.2.toNat else memByte cs a

/-- The nonzero bytes of a run that starts at an address. -/
def runCells : Nat → List Nat → Memory
  | _, [] => []
  | a, b :: bs => if b % 256 = 0 then runCells (a + 1) bs else (a, BitVec.ofNat 8 b) :: runCells (a + 1) bs

/-- Memory after a run of bytes is written at an address. -/
def memWrite (m : Memory) (a : Nat) (bs : List Nat) : Memory :=
  m.filter (fun c => c.1 < a) ++ runCells a bs ++ m.filter (fun c => a + bs.length ≤ c.1)

/-- `n` bytes from an address. -/
def memRead (m : Memory) (a n : Nat) : List Nat :=
  let w := m.filter (fun c => a ≤ c.1 && c.1 < a + n)
  (List.range n).map (fun i => memByte w (a + i))

/-- The canonical form: addresses strictly rising, no byte listed as 0. -/
def Memory.wf : Memory → Bool
  | [] => true
  | [c] => c.2 != 0
  | c :: d :: cs => c.2 != 0 && c.1 < d.1 && Memory.wf (d :: cs)

/-! ## Regions (R292, R293) -/

/-- The pseudo-channels of a region, ascending. -/
def State.regionPcs (s : State) (p : Nat) : List Nat := onesOf 64 (s.get .MEM_PART_MASK p)

/-- The size of a region in bytes (R292). -/
def State.regionSize (s : State) (p : Nat) : Nat :=
  (s.regionPcs p).length * s.get .MEM_PART_SLICE_size_mib p * 2 ^ 20

/-- The base of a region. -/
def State.regionBase (s : State) (p : Nat) : Nat := s.get .MEM_PART_BASE p

/-- Is region `p` enabled? -/
def State.regionOn (s : State) (p : Nat) : Bool := s.isOn (.CTRL_enable .memPart) p

/-- Does the run of `len` bytes at device address `a` lie wholly in the enabled region of partition `p`? -/
def State.inRegion (s : State) (p a len : Nat) : Bool :=
  s.regionOn p && s.regionBase p ≤ a && a + len ≤ s.regionBase p + s.regionSize p

/-- Does the run lie wholly in the region of the partition that owns a page? -/
def State.ownerHas (s : State) (pg : PageId) (a len : Nat) : Bool :=
  match s.owner pg with
  | some p => s.inRegion p a len
  | none => false

/-- The enabled region that holds a device address. -/
def State.regionOf (s : State) (a : Nat) : Option Nat := (List.range 8).find? (fun p => s.inRegion p a 1)

/-- Pseudo-channel and local address of a device address in region `p` (R293). -/
def State.mapIn (s : State) (p a : Nat) : Nat × Nat :=
  let pcs := s.regionPcs p
  let n := pcs.length
  let g := (a - s.regionBase p) / 256
  let q := g / n
  let r := q ^^^ (q / 2 ^ 5) ^^^ (q / 2 ^ 11)
  let j := (g % n + r) % n
  (pcs.getD j 0, s.get .MEM_PART_SLICE_base_mib p * 2 ^ 20 + q * 256 + a % 256)

/-- The HBM key of a device address, if it lies in an enabled region. -/
def State.keyOf (s : State) (a : Nat) : Option Nat :=
  (s.regionOf a).map (fun p => (s.mapIn p a).1 * 2 ^ 30 + (s.mapIn p a).2)

/-- The device address that region `p` gives an HBM key, if the key lies in the region: the mapping of R293 undone. -/
def State.addrIn (s : State) (p key : Nat) : Option Nat :=
  let n := (s.regionPcs p).length
  let lo := s.get .MEM_PART_SLICE_base_mib p * 2 ^ 20
  let off := key % 2 ^ 30
  match (s.regionPcs p).findIdx? (fun k => k == key / 2 ^ 30) with
  | none => none
  | some j =>
    if !s.regionOn p || off < lo || lo + s.get .MEM_PART_SLICE_size_mib p * 2 ^ 20 ≤ off then none
    else
      let q := (off - lo) / 256
      let r := (q ^^^ (q / 2 ^ 5) ^^^ (q / 2 ^ 11)) % n
      some (s.regionBase p + (q * n + (j + n - r) % n) * 256 + off % 256)

/-- The runs into which `n` bytes at a device address fall, one for each 256-byte granule: device address, length. -/
def granules (a n : Nat) : List (Nat × Nat) :=
  (List.range ((a % 256 + n + 255) / 256)).map (fun i =>
    let lo := max a ((a / 256 + i) * 256)
    let hi := min (a + n) ((a / 256 + i + 1) * 256)
    (lo, hi - lo))

/-- A write of whole words replaces uncorrectable ones and drops write-backs of the lines it covers (R312, R314). -/
def HbmState.replace (h : HbmState) (k n : Nat) : HbmState :=
  { h with bad := h.bad.filter (fun w => !(k ≤ w * 8 && w * 8 + 8 ≤ k + n))
           soft := h.soft.filter (fun l => !(k ≤ l * 64 && l * 64 + 64 ≤ k + n))
           writeBacks := h.writeBacks.filter (fun l => l * 64 + 64 ≤ k || k + n ≤ l * 64) }

/-- Write a run of bytes at an HBM key. -/
def HbmState.write (h : HbmState) (k : Nat) (bs : List Nat) : HbmState :=
  { h.replace k bs.length with bytes := memWrite h.bytes k bs }

/-- The 64-byte lines that a run touches. -/
def linesOf (a n : Nat) : Nat := if n = 0 then 0 else (a + n - 1) / 64 - a / 64 + 1

/-- Count a write of `n` bytes at a device address in its pseudo-channels, for a partition (R321, R531). -/
def State.countWr (s : State) (a n : Nat) (part : Option Nat) : State :=
  s.forEach (granules a n) (fun s r => match s.keyOf r.1 with
    | none => s
    | some k => (s.count .MEM_PC_WR (k / 2 ^ 30) 0 (linesOf r.1 r.2)).pmc 0x21 (k / 2 ^ 30) (linesOf r.1 r.2) part)

/-- Count a read of `n` bytes at a device address in its pseudo-channels, for a partition (R321, R531). -/
def State.countRd (s : State) (a n : Nat) (part : Option Nat) : State :=
  s.forEach (granules a n) (fun s r => match s.keyOf r.1 with
    | none => s
    | some k => (s.count .MEM_PC_RD (k / 2 ^ 30) 0 (linesOf r.1 r.2)).pmc 0x20 (k / 2 ^ 30) (linesOf r.1 r.2) part)

/-- Write bytes at a device address; bytes in no enabled region are discarded (R294). -/
def State.devWrite (s : State) (a : Nat) (bs : List Nat) : State :=
  { s with hbm := (granules a bs.length).foldl (fun h r => match s.keyOf r.1 with
      | none => h
      | some k => h.write k ((bs.drop (r.1 - a)).take r.2)) s.hbm }

/-- Write bytes at a device address for a partition, counted. -/
def State.devWriteFor (s : State) (part : Option Nat) (a : Nat) (bs : List Nat) : State :=
  (s.devWrite a bs).countWr a bs.length part

/-- Read bytes at a device address; bytes in no enabled region read 0 (R294). -/
def State.devRead (s : State) (a n : Nat) : List Nat :=
  (granules a n).flatMap (fun r => match s.keyOf r.1 with
    | none => List.replicate r.2 0
    | some k => memRead s.hbm.bytes k r.2)

/-- A little-endian value at a device address. -/
def State.devNat (s : State) (a n : Nat) : Nat := ofLe (s.devRead a n)

/-! ## Bandwidth (R297 to R301), in half units of 32 bytes -/

/-- A register of units, at most 25,600 (R323). -/
def State.bwReg (s : State) (f : Fld) (p : Nat) : Nat := min (s.get f p) 25600

/-- One request of partition `p` costing `cost` half units: deferred when it would pass the ceiling in force (R301), else reserved when
it is a job's and tokens cover it, else borrowed (R297, R300). -/
def State.bwRequest (s : State) (p cost : Nat) (job : Bool) : State :=
  if cost = 0 || !s.regionOn p then s
  else if s.get .BWX_USED p + cost > 2 * s.get .BWX_CEIL p then
    ((s.count .MEM_BW_WAIT p 0 1).count .BWX_DEFERRED p 0 cost).pmc 0x25 0 1 (some p)
  else
    let s' := s.count .BWX_USED p 0 cost
    if job && cost ≤ s.get .BWX_TOKENS p then s'.set .BWX_TOKENS p 0 (s.get .BWX_TOKENS p - cost)
    else s'.count .BWX_BORROWED p 0 cost

/-- A 1 µs window of partition `p` starts (R297, R301): the committed ceiling takes effect, the last window's figures are shown, tokens
are refilled, and deferred requests are served as borrowers. -/
def State.bwWindow (s : State) (p : Nat) : State :=
  if !s.regionOn p then s
  else
    let used := s.get .BWX_USED p
    let bor := s.get .BWX_BORROWED p
    let d := s.get .BWX_DEFERRED p
    let R := 2 * s.bwReg .MEM_BW_RES p
    let B := 2 * s.bwReg .MEM_BW_BURST p
    let now := min d (2 * s.bwReg .MEM_BW_CEIL p)
    ((((((((s.set .BWX_CEIL p 0 (s.bwReg .MEM_BW_CEIL p)).set .MEM_BW_USED_last p 0 (used / 2)).set .MEM_BW_USED_borrowed p 0 (bor / 2)).set .BWX_TOKENS p 0
      (min (s.get .BWX_TOKENS p + R) (R + B))).set .BWX_USED p 0 now).set .BWX_BORROWED p 0 now).set .BWX_DEFERRED p 0
      (d - now)).pmc 0x23 0 (used / 2) (some p)).pmc 0x24 0 (bor / 2) (some p)

/-- Does the reservation of region `p`, with `res` and `mask`, break R298, counted with the other enabled regions? -/
def State.bwBreaks (s : State) (p mask res ceil : Nat) (counted : Bool) : Bool :=
  let n := popCount 64 mask
  (if n = 0 then res != 0 else res % n != 0) || ceil < res ||
  (List.range 64).any (fun k =>
    let others := (List.range 8).foldl (fun t q =>
      if q != p && s.regionOn q && bit (s.get .MEM_PART_MASK q) k
      then t + min (s.get .MEM_BW_RES q) 25600 / (s.regionPcs q).length else t) 0
    others + (if counted && bit mask k then res / n else 0) > 350)

/-- Why an enable of region `p` is refused (R292). -/
def State.regionRefused (s : State) (p : Nat) : Bool :=
  let base := s.regionBase p
  let mask := s.get .MEM_PART_MASK p
  let lo := s.get .MEM_PART_SLICE_base_mib p
  let sz := s.get .MEM_PART_SLICE_size_mib p
  let len := s.regionSize p
  base % 2 ^ 20 != 0 || s.bwBreaks p mask (s.bwReg .MEM_BW_RES p) (s.bwReg .MEM_BW_CEIL p) true || mask == 0 ||
  (onesOf 64 mask).any (fun k => s.isOn (.STATUS_retired .memPc) k) || sz == 0 || lo + sz > 768 ||
  base + len > 48 * 2 ^ 30 ||
  (List.range 8).any (fun q => q != p && s.regionOn q &&
    ((base < s.regionBase q + s.regionSize q && s.regionBase q < base + len) ||
     (mask &&& s.get .MEM_PART_MASK q != 0 &&
      lo < s.get .MEM_PART_SLICE_base_mib q + s.get .MEM_PART_SLICE_size_mib q &&
      s.get .MEM_PART_SLICE_base_mib q < lo + sz)))

/-- Enable region `p` (R292, R297): its tokens start at R + B. -/
def State.regionEnable (s : State) (fn p : Nat) : State :=
  if s.regionOn p then s
  else if s.regionRefused p then s.code ⟨.memPart, p⟩ fn 0x8 0x80
  else (((((s.set (.CTRL_enable .memPart) p 0 1).set .BWX_CEIL p 0 (s.bwReg .MEM_BW_CEIL p)).set .BWX_TOKENS p 0
    (2 * (s.bwReg .MEM_BW_RES p + s.bwReg .MEM_BW_BURST p))).set .BWX_USED p 0 0).set .BWX_BORROWED p 0 0).set
    .BWX_DEFERRED p 0 0

/-! ## BAR2 (R42, R294, R313, R314) -/

/-- The device address behind a BAR2 offset of a function, if the function's window holds it (R42). -/
def State.bar2Addr (s : State) (fn off : Nat) : Option Nat :=
  if fn == 0 then (if off < 48 * 2 ^ 30 then some off else none)
  else if s.regionOn (fn - 1) && off < s.regionSize (fn - 1) then some (s.regionBase (fn - 1) + off) else none

end Sys2Proof.Machine
end

