-- ==== Sys2Proof/Machine/Lanes.lean ====
section
/-!
DEFINITION. Machine/Lanes.lean: camera lanes (R61 to R79, R93): connections, the mailbox, triggers, lock, polarity and
power states.
-/
namespace Sys2Proof.Machine

/-- The page of lane `l`. -/
def lanePage (l : Nat) : PageId := ⟨.lan, l⟩

/-! ## Events of lane pages (R92) -/

/-- Event numbers of lane pages (R92). -/
def evLockGained := 0
def evLockLost := 1
def evLockTimeout := 2
def evWakeDone := 3
def evPolFlip := 4
def evCodeBurst := 5
def evCrcErr := 6
def evMbxTxDone := 7
def evMbxRx := 8
def evMbxOvf := 9
def evTrigLost := 10
def evTrainMatch := 11
def evLaneRetired := 12

/-! ## Connections (R62, R65) -/

/-- Is the lane retired (R79)? -/
def State.laneRetired (s : State) (l : Nat) : Bool := s.isOn (.STATUS_retired .lan) l

/-- The mode the lane works in: OFF while its page is disabled (R93). -/
def State.laneMode (s : State) (l : Nat) : Nat := if s.isOn (.CTRL_enable .lan) l then s.get .LAN_MODE_mode l else 0

/-- Width in lanes of the connection a lane is committed to (R62). -/
def State.laneWidth (s : State) (l : Nat) : Nat := 2 ^ s.get .LAN_MODE_width l

/-- The lanes committed to a camera in CXP or RAW mode (R62, R106). -/
def State.camLanes (s : State) (cam : Nat) : List Nat :=
  (List.range 24).filter (fun l =>
    (s.get .LAN_MODE_mode l == 1 || s.get .LAN_MODE_mode l == 2) && s.get .LAN_MODE_cam l == cam)

/-- The master lane of a camera (R65). -/
def State.camMaster (s : State) (cam : Nat) : Option Nat :=
  (s.camLanes cam).find? (fun l => s.get .LAN_MODE_index l == 0)

/-- Is the camera on a raw sensor link (R99, R106)? -/
def State.camRaw (s : State) (cam : Nat) : Bool := (s.camLanes cam).any (fun l => s.get .LAN_MODE_mode l == 2)

/-- A connection is complete when lanes of every index are committed (R62). -/
def State.camComplete (s : State) (cam : Nat) : Bool :=
  match s.camMaster cam with
  | none => false
  | some m => (List.range (s.laneWidth m)).all (fun i => (s.camLanes cam).any (fun l => s.get .LAN_MODE_index l == i))

/-- Does a lane's receiver deliver: enabled, not quiesced, not retired, ACTIVE and, but on a raw sensor link, locked (R66, R76, R79)? -/
def State.laneDelivers (s : State) (l : Nat) : Bool :=
  s.isOn (.CTRL_enable .lan) l && !s.isOn (.CTRL_quiesce .lan) l && !s.laneRetired l && s.get .LAN_STATUS_rx_now l == 0 &&
  (s.isOn .LAN_STATUS_locked l || s.get .LAN_MODE_mode l == 2)

/-- CAP takes lines from a camera while its connection is complete and every lane of it delivers (R62, R76, R79). -/
def State.camDelivers (s : State) (cam : Nat) : Bool := s.camComplete cam && (s.camLanes cam).all s.laneDelivers

/-- Is the lane a member of an enabled peer group (R62, R80)? -/
def State.laneInPeer (s : State) (l : Nat) : Bool := s.isOn .LAN_PEER_CTRL_enable (l / 4)

/-- Does a commit that makes lane `l` a CXP lane of `cam` with this width code and index break R62? -/
def State.connRefused (s : State) (l cam width index : Nat) : Bool :=
  let w := 2 ^ width
  let blk := l / w
  let others := (List.range 24).filter (fun m => m != l && s.get .LAN_MODE_mode m == 1)
  others.any (fun m => s.get .LAN_MODE_cam m == cam &&
    (s.get .LAN_MODE_width m != width || m / w != blk || s.get .LAN_MODE_index m == index)) ||
  others.any (fun m => s.get .LAN_MODE_cam m != cam && (m / w == blk || l / s.laneWidth m == m / s.laneWidth m)) ||
  w ≤ index || s.laneInPeer l

/-! ## Lock and power (R72, R75, R76, R77) -/

/-- Lock dropped without being a loss of lock (R76, R93). -/
def State.dropLock (s : State) (l : Nat) : State :=
  ((((s.set .LAN_STATUS_locked l 0 0).set .LAN_STATUS_speed l 0 0).set .LAN_STATUS_train_match l 0 0).set
    .LAN_STATUS_train_match_inv l 0 0).set .LANX_TRY_SPEED l 0 1

/-- The receiver's part of a power change (R76): down at once, up as a wake. -/
def State.rxPower (s : State) (l target : Nat) : State :=
  let now := s.get .LAN_STATUS_rx_now l
  let s := s.set .LANX_RX_TARGET l 0 target
  if target = now then s
  else if now < target then
    let s := s.set .LAN_STATUS_rx_now l 0 target
    if target = 2 then s.dropLock l else s
  else (s.set .LAN_STATUS_waking l 0 1).set .LANX_TRY_SPEED l 0 1

/-- The transmitter's part of a power change (R76, R77): a fall below ACTIVE waits for the packet being sent. -/
def State.txPower (s : State) (l target : Nat) : State :=
  let now := s.get .LAN_STATUS_tx_now l
  let s := s.set .LANX_TX_TARGET l 0 target
  if target = now then s
  else if now < target then
    if s.isOn .LAN_MBX_CTRL_send l then s else s.set .LAN_STATUS_tx_now l 0 target
  else s.set .LAN_STATUS_waking l 0 1

/-- The wake bit after a direction has reached its target (R76). -/
def State.wakeSettled (s : State) (l : Nat) : State :=
  if s.get .LAN_STATUS_rx_now l ≤ s.get .LANX_RX_TARGET l && s.get .LAN_STATUS_tx_now l ≤ s.get .LANX_TX_TARGET l
  then s.set .LAN_STATUS_waking l 0 0 else s

/-- Give a lane the power states in LAN_PWR (R76). -/
def State.applyPower (s : State) (l : Nat) : State :=
  ((s.rxPower l (s.get .LAN_PWR_rx l)).txPower l (s.get .LAN_PWR_tx l)).wakeSettled l

/-- Both directions off (R77, R79, R93). -/
def State.laneSleep (s : State) (l : Nat) : State :=
  (((((s.set .LAN_STATUS_rx_now l 0 2).set .LAN_STATUS_tx_now l 0 2).set .LANX_RX_TARGET l 0 2).set .LANX_TX_TARGET l 0
    2).set .LAN_STATUS_waking l 0 0).dropLock l

/-- The number that LAN_PWR holds for a power state (R93). -/
def Power.code : Power → Nat
  | .active => 0
  | .standby => 1
  | .sleep => 2

/-- A write of LAN_PWR (R76, R77): refused on a retired or disabled lane. A wake whose target it replaces by a state that the lane is
in already ends with it. -/
def State.writePower (s : State) (fn l rx tx : Nat) : State :=
  if s.laneRetired l || !s.isOn (.CTRL_enable .lan) l then s.code (lanePage l) fn 0x110 0x14
  else
    let s := if rx ≤ 2 then s.set .LAN_PWR_rx l 0 rx else s
    let s := if tx ≤ 2 then s.set .LAN_PWR_tx l 0 tx else s
    let wakes := s.isOn .LAN_STATUS_waking l
    let s := s.applyPower l
    if wakes && !s.isOn .LAN_STATUS_waking l then s.raise (lanePage l) evWakeDone else s

/-- CTRL.enable of a lane is set (R93): it leaves OFF and SLEEP for the states in LAN_PWR, unless it is retired. -/
def State.enableLane (s : State) (l : Nat) : State :=
  let s := s.set (.CTRL_enable .lan) l 0 1
  if s.laneRetired l then s else s.applyPower l

/-- CTRL.enable of a lane is cleared (R93). -/
def State.disableLane (s : State) (l : Nat) : State := (s.set (.CTRL_enable .lan) l 0 0).laneSleep l

/-- The receiver of lane `l` achieves lock (R72, R75, R76): it calibrates unless pinned, and a wake ends. -/
def State.gainLock (s : State) (l : Nat) : State :=
  if s.isOn .LAN_STATUS_locked l || s.laneMode l == 0 || s.laneRetired l then s
  else if s.get .LAN_STATUS_rx_now l == 2 && s.get .LANX_RX_TARGET l == 2 then s
  else
    let s := if s.isOn .LAN_EQ_pin l then s else
      { (s.set .LANX_EQ_CTLE l 0 (freeEqualiser s.draws)).set .LANX_EQ_DFE l 0 (freeEqualiser (s.draws + 1)) with
        draws := s.draws + 2 }
    let s := s.set .LAN_STATUS_locked l 0 1
    let s := if s.laneMode l == 1 then s.set .LAN_STATUS_speed l 0
      (if s.get .LAN_RATE_cxp_speed l == 0 then s.get .LANX_TRY_SPEED l else s.get .LAN_RATE_cxp_speed l) else s
    let s := if s.laneMode l == 3 then
      s.set .LAN_PEER_STATUS_lane_lock (l / 4) 0 (putBit (s.get .LAN_PEER_STATUS_lane_lock (l / 4)) (l % 4) true) else s
    let s := if s.get .LANX_RX_TARGET l < s.get .LAN_STATUS_rx_now l then
      ((s.set .LAN_STATUS_rx_now l 0 (s.get .LANX_RX_TARGET l)).wakeSettled l).raiseMask (lanePage l)
        (2 ^ evWakeDone + 2 ^ evLockGained) 0 false
      else s.raise (lanePage l) evLockGained
    s

/-! ## Triggers on the uplink (R70, R71) -/

/-- The uplink of a lane runs at 41.67 Mb/s at CXP-10 and CXP-12 (R63). -/
def State.fastUplink (s : State) (l : Nat) : Bool :=
  let v := if s.get .LAN_RATE_cxp_speed l == 0 then s.get .LAN_STATUS_speed l else s.get .LAN_RATE_cxp_speed l
  6 ≤ v

/-- Is a trigger too close to the last one sent (R71)? 4 µs is 1,600 IOCLK ticks, 2 µs is 800. -/
def State.trigTooClose (s : State) (l : Nat) : Bool :=
  let last := s.get .LANX_TRIG_TICK l
  last != 0 && s.tick + 1 < last + (if s.fastUplink l then 800 else 1600)

/-- CAP issues a trigger for a camera (R70, R71). The result says whether it was sent. -/
def State.sendTrigger (s : State) (cam : Nat) : State × Bool :=
  match s.camMaster cam with
  | none => (s, false)
  | some l =>
    if !s.camComplete cam || !s.isOn (.CTRL_enable .lan) l then (s, false)
    else if s.trigTooClose l || s.get .LAN_STATUS_tx_now l != 0 || s.get .LANX_TX_TARGET l != 0
        || !s.isOn .LAN_STATUS_locked l then
      ((s.count .LAN_TRIG_LOST l 0 1).raise (lanePage l) evTrigLost, false)
    else ((s.set .LANX_TRIG_TICK l 0 (s.tick + 1)).emit (.trigger l), true)

/-! ## Mailbox (R68, R69) -/

/-- The bytes of the transmit buffer. -/
def State.mbxBody (s : State) (l n : Nat) : List Nat :=
  ((List.range 128).flatMap (fun i => leBytes 4 (s.get .LAN_MBX_TX l i))).take n

/-- A write of 1 to LAN_MBX_CTRL.send (R68): refused on an extension lane, a transmitter that is not ACTIVE or a bad
length; a packet already being sent goes on (R11). -/
def State.mailboxSend (s : State) (fn l : Nat) : State :=
  if s.isOn .LAN_MBX_CTRL_send l then s
  else if s.laneMode l != 1 || s.get .LAN_MODE_index l != 0 || s.get .LAN_STATUS_tx_now l != 0
      || s.get .LANX_TX_TARGET l != 0 then s.code (lanePage l) fn 0x180 0x12
  else
    let n := s.get .LAN_MBX_TXLEN l
    if n % 4 != 0 || n < 4 || 512 < n then s.code (lanePage l) fn 0x180 0x16
    else (s.set .LAN_MBX_CTRL_send l 0 1).emit (.control l (s.mbxBody l n))

/-- Is the command in the transmit buffer a write, as CoaXPress defines it? The packet type 0x02 is an untagged command
and 0x05 a tagged one, the packet type and the tag take four bytes each, and the command code 0x01 is a write (R68,
R117). -/
def State.mbxIsWrite (s : State) (l : Nat) : Bool :=
  let b := s.mbxBody l 512
  b.getD (if b.getD 0 0 == 0x05 then 8 else 4) 0 == 0x01

/-- The number of the packet kind in a receive slot (R69). -/
def MbxKind.code : MbxKind → Nat
  | .control => 0
  | .event => 1
  | .heartbeat => 2

/-- The 128 words of a receive slot (R69). -/
def mbxSlot (kind : Nat) (sec ns : Nat) (payload : List Nat) : List Nat :=
  let p := payload.take 500
  let trunc := 500 < payload.length
  let w0 := kind + b2n trunc * 2 ^ 8 + p.length * 2 ^ 16
  let bytes := p ++ List.replicate (500 - p.length) 0
  [w0, sec % 2 ^ 32, ns] ++ (List.range 125).map (fun i => ofLe ((bytes.drop (4 * i)).take 4))

/-- A control, event or heartbeat packet arrives (R67, R69) at a receiver that is locked and ACTIVE. -/
def State.mailboxReceive (s : State) (l kind : Nat) (payload : List Nat) : State :=
  if s.laneMode l != 1 || !s.isOn .LAN_STATUS_locked l || s.get .LAN_STATUS_rx_now l != 0 then s
  else if s.get .LAN_MODE_index l != 0 then s.count .LAN_ERR_CRC l 0 1
  else
    let h := s.get .LAN_MBX_RXHEAD l
    if (h + 8 - s.get .LAN_MBX_RXTAIL l) % 8 == 4 then s.raise (lanePage l) evMbxOvf
    else
      let ws := mbxSlot kind s.sec s.ns payload
      let s := s.forEach (List.range 128) (fun s i => s.set .LAN_MBX_RX l (h % 4 * 128 + i) (ws.getD i 0))
      (s.set .LAN_MBX_RXHEAD l 0 (h + 1)).raise (lanePage l) evMbxRx

/-! ## Retirement (R79) -/

/-- The permanent handling of a lane (R79). -/
def State.laneRetire (s : State) (l : Nat) : State :=
  (((s.set (.STATUS_retired .lan) l 0 1).laneSleep l).raise (lanePage l) evLaneRetired)

end Sys2Proof.Machine
end

