-- ==== Sys2Proof/Machine/Peer.lean ====
section
/-!
DEFINITION. Machine/Peer.lean: peer groups (R80 to R94): training, frames and their CRC, credits, RETRY and DROP, and
the sending and receiving of messages. A message is a type, a tag and a payload.
-/
namespace Sys2Proof.Machine

/-- The page of peer group `g`. -/
def peerPage (g : Nat) : PageId := ⟨.lanPeer, g⟩

/-- The transport state of a group. -/
def State.peer (s : State) (g : Nat) : PeerSt := s.peers.getD g {}

/-- The transport state of a group, changed. -/
def State.modPeer (s : State) (g : Nat) (f : PeerSt → PeerSt) : State := { s with peers := listMod s.peers g f }

/-- LAN_PEER_STATUS.state (R82): DOWN 0, LOCK 1, ALIGN 2, HELLO 3, UP 4, FAIL 5. -/
def State.peerState (s : State) (g : Nat) : Nat := s.get .LAN_PEER_STATUS_state g

/-- Is the group UP? -/
def State.peerIsUp (s : State) (g : Nat) : Bool := s.peerState g == 4

/-! ## Frames (R86, R87) -/

/-- The payload of a frame as numbers. -/
def frameBytes (f : PeerFrame) : List Nat := f.payload.map BitVec.toNat

/-- Zero bytes up to a multiple of `n`. -/
def padTo (n : Nat) (l : List Nat) : List Nat := l ++ List.replicate ((n - l.length % n) % n) 0

/-- Header and padded payload (R86). -/
def frameImage (f : PeerFrame) : List Nat :=
  leBytes 1 f.typ ++ [b2n f.first + 2 * b2n f.last] ++ leBytes 2 f.seq ++ leBytes 2 (f.length % 2 ^ 13) ++
  leBytes 2 f.ackSeq ++ leBytes 8 f.tag ++ padTo 8 (frameBytes f)

/-- The CRC of a frame's trailer (R87). -/
def frameCrc (f : PeerFrame) : Nat := crc32c (frameImage f)

/-- The bytes a frame takes on the link and in the replay buffer (R86, R89). -/
def frameSize (f : PeerFrame) : Nat := (frameImage f).length + 8

/-- A frame given to the link (R86, R94). -/
def State.peerEmit (s : State) (g : Nat) (f : PeerFrame) : State :=
  (s.count .LAN_PEER_TX g 0 1).emit (.peer g f (frameCrc f))

/-- A frame without payload (R86). -/
def bareFrame (typ ackSeq tag : Nat) : PeerFrame :=
  { typ := typ, first := true, last := true, seq := 0, length := 0, ackSeq := ackSeq, tag := tag, payload := [] }

/-! ## Sending (R88, R89) -/

/-- The credit for type `t` (R88). -/
def PeerSt.credit (p : PeerSt) (t : Nat) : Nat :=
  64 - (p.sent.getD (t - 1) 0 + 256 - p.freedIn.getD (t - 1) 0 % 256) % 256

/-- Bytes held in the replay buffer (R89). -/
def PeerSt.held (p : PeerSt) : Nat := (p.unacked.map frameSize).foldl (· + ·) 0

/-- May the oldest waiting frame be sent (R88, R89)? -/
def PeerSt.maySend (p : PeerSt) (f : PeerFrame) : Bool :=
  0 < p.credit f.typ && (p.drop || p.held + (frameSize f) ≤ 256 * 1024)

/-- The first transmission of a frame (R88, R89). -/
def State.peerTransmit (s : State) (g : Nat) (f : PeerFrame) : State :=
  let p := s.peer g
  let f := { f with seq := p.nextSeq }
  (s.modPeer g (fun p => { p with
    nextSeq := (p.nextSeq + 1) % 65536
    sent := listMod p.sent (f.typ - 1) (fun n => (n + 1) % 256)
    unacked := if p.drop then [] else p.unacked ++ [f] })).peerEmit g f

/-- Send waiting frames, in order, while credits and replay space allow (R88, R89, R91); `fuel` bounds them. -/
def State.peerPump (s : State) (g : Nat) : Nat → State
  | 0 => s
  | fuel + 1 =>
    match (s.peer g).waiting with
    | [] => s
    | f :: fs =>
      if s.peerIsUp g && (s.peer g).maySend f then
        ((s.modPeer g (fun p => { p with waiting := fs })).peerTransmit g f).peerPump g fuel
      else s

/-- Send what can be sent. -/
def State.peerFlush (s : State) (g : Nat) : State := s.peerPump g ((s.peer g).waiting.length)

/-- The fragments of a message (R86). -/
def fragments (typ tag : Nat) (payload : List Nat) : List PeerFrame :=
  let n := max 1 ((payload.length + 4095) / 4096)
  (List.range n).map (fun i =>
    let part := (payload.drop (4096 * i)).take 4096
    { typ := typ, first := i == 0, last := i + 1 == n, seq := 0, length := part.length, ackSeq := 0, tag := tag,
      payload := part.map (BitVec.ofNat 8) })

/-- A block sends a message; while the group is not UP it is lost (R82, R90). -/
def State.peerSend (s : State) (g typ tag : Nat) (payload : List Nat) : State :=
  if s.peerIsUp g then
    (s.modPeer g (fun p => { p with waiting := p.waiting ++ fragments typ tag payload })).peerFlush g
  else s

/-- Send a CREDIT frame with the freed counts (R86, R88). -/
def State.peerCredit (s : State) (g : Nat) : State :=
  let l := (s.peer g).freedOut
  s.peerEmit g (bareFrame 10 0 (ofLe [l.getD 0 0, l.getD 1 0, l.getD 2 0, l.getD 3 0]))

/-- Send an ACK of the last sequence received in order (R86, R89). -/
def State.peerAck (s : State) (g : Nat) : State :=
  let e := (s.peer g).expect
  (s.modPeer g (fun p => { p with sinceAck := 0 })).peerEmit g (bareFrame 8 ((e + 65535) % 65536) 0)

/-! ## Training states (R80, R82, R85) -/

/-- Everything that entry to or exit from UP clears (R88). -/
def PeerSt.cleared (p : PeerSt) : PeerSt := { drop := p.drop, serial := p.serial }

/-- Enter LOCK (R82): train clears, and the error mode of the coming training is taken (R85). -/
def State.peerLock (s : State) (g : Nat) : State :=
  let s := (((s.set .LAN_PEER_STATUS_state g 0 1).set .LAN_PEER_CTRL_train g 0 0).set .LAN_PEER_STATUS_reversed g 0
    0).set .LAN_PEER_STATUS_lane_lock g 0 0
  s.modPeer g (fun p => { p.cleared with drop := s.isOn .LAN_PEER_CFG_err_mode g })

/-- Enter FAIL with an event (R82). -/
def State.peerFail (s : State) (g ev : Nat) : State :=
  ((s.set .LAN_PEER_STATUS_state g 0 5).modPeer g PeerSt.cleared).raise (peerPage g) ev

/-- Enter UP (R82, R88). -/
def State.peerUp (s : State) (g : Nat) : State :=
  ((s.set .LAN_PEER_STATUS_state g 0 4).modPeer g PeerSt.cleared).raise (peerPage g) 0

/-- Leave for DOWN (R82, R88): LINK_DOWN when the group was UP; every message in it is discarded. -/
def State.peerDown (s : State) (g : Nat) : State :=
  let was := s.peerIsUp g
  let s := (s.set .LAN_PEER_STATUS_state g 0 0).modPeer g PeerSt.cleared
  if was then s.raise (peerPage g) 1 else s

/-- A lane has lost or dropped its lock (R82): its bit in LAN_PEER_STATUS.lane_lock clears, and a group that was UP goes down. -/
def State.peerFollow (s : State) (l : Nat) : State :=
  let g := l / 4
  if !bit (s.get .LAN_PEER_STATUS_lane_lock g) (l % 4) then s
  else
    let s := s.set .LAN_PEER_STATUS_lane_lock g 0 (putBit (s.get .LAN_PEER_STATUS_lane_lock g) (l % 4) false)
    if s.peerIsUp g then s.peerDown g else s

/-- Can the group train: enabled and no lane retired (R79, R82)? -/
def State.peerTrainable (s : State) (g : Nat) : Bool :=
  s.isOn .LAN_PEER_CTRL_enable g && (List.range 4).all (fun i => !s.laneRetired (4 * g + i))

/-- A write of 1 to LAN_PEER_CTRL.train (R82): from DOWN or FAIL into LOCK. -/
def State.peerTrainWrite (s : State) (g : Nat) : State :=
  if (s.peerState g == 0 || s.peerState g == 5) && s.peerTrainable g then s.peerLock g else s

/-- LAN_PEER_CTRL.enable is set (R80): refused while a lane has a mode or three groups are enabled. -/
def State.peerEnable (s : State) (fn g : Nat) : State :=
  if s.isOn .LAN_PEER_CTRL_enable g then s
  else if (List.range 4).any (fun i => s.get .LAN_MODE_mode (4 * g + i) != 0) then s.code (peerPage g) fn 0x100 0x13
  else if 3 ≤ ((List.range 6).filter (fun k => s.isOn .LAN_PEER_CTRL_enable k)).length then
    s.code (peerPage g) fn 0x100 0x15
  else
    let s := s.set .LAN_PEER_CTRL_enable g 0 1
    let s := s.forEach (List.range 4) (fun s i =>
      let l := 4 * g + i
      let s := ((s.set .LAN_MODE_mode l 0 3).setShadow .LAN_MODE_mode l 0 3).set .LAN_PWR_rx l 0 0
      let s := s.set .LAN_PWR_tx l 0 0
      if s.laneRetired l || !s.isOn (.CTRL_enable .lan) l then s else s.applyPower l)
    if s.peerTrainable g then s.peerLock g else s

/-- LAN_PEER_CTRL.enable is cleared: the group goes DOWN and gives its lanes back. -/
def State.peerDisable (s : State) (g : Nat) : State :=
  if !s.isOn .LAN_PEER_CTRL_enable g then s
  else
    let s := (s.set .LAN_PEER_CTRL_enable g 0 0).peerDown g
    s.forEach (List.range 4) (fun s i =>
      ((s.set .LAN_MODE_mode (4 * g + i) 0 0).setShadow .LAN_MODE_mode (4 * g + i) 0 0).dropLock (4 * g + i))

/-- The payload of this side's HELLO (R85). -/
def State.helloBytes (s : State) (g : Nat) : List Nat :=
  leBytes 8 s.fuses.serial ++ [g, s.get .LAN_PEER_CFG_rate g, b2n (s.peer g).drop, 1, 0, 0, 0, 0]

/-- This side sends a HELLO (R85). -/
def State.helloOut (s : State) (g : Nat) : State :=
  if s.peerState g != 3 then s
  else s.peerEmit g { typ := 5, first := true, last := true, seq := 0, length := 16, ackSeq := 0, tag := 0,
                      payload := (s.helloBytes g).map (BitVec.ofNat 8) }

/-- Is another group of this device UP to the same serial number (R80, R85)? -/
def State.peerTaken (s : State) (g serial : Nat) : Bool :=
  (List.range 6).any (fun k => k != g && s.peerIsUp k && (s.peer k).serial == serial)

/-- A HELLO arrives (R80, R85, R87). -/
def State.helloIn (s : State) (g : Nat) (f : PeerFrame) (crc : Nat) : State :=
  if s.peerState g != 3 then s
  else if crc != (frameCrc f) then s.count .LAN_PEER_CRC g 0 1
  else
    let b := (frameBytes f)
    let serial := ofLe (b.take 8)
    let s := (((s.count .LAN_PEER_RX g 0 1).set .LAN_PEER_REMOTE_serial g 0 serial).set .LAN_PEER_REMOTE_group g 0
      (b.getD 8 0)).modPeer g (fun p => { p with serial := serial })
    if b.getD 9 0 == s.get .LAN_PEER_CFG_rate g && b.getD 10 0 == b2n (s.peer g).drop && b.getD 11 0 == 1
        && !s.peerTaken g serial then s.peerUp g
    else s.peerFail g 4

/-- Markers are found (R82, R83); `skewPs` is the largest skew between lanes in picoseconds. -/
def State.peerMarkers (s : State) (g : Nat) (order : List Nat) (skewPs : Nat) : State :=
  if s.peerState g != 2 then s
  else if (order == [0, 1, 2, 3] || order == [3, 2, 1, 0]) && skewPs ≤ 40000 then
    (s.set .LAN_PEER_STATUS_reversed g 0 (b2n (order == [3, 2, 1, 0]))).set .LAN_PEER_STATUS_state g 0 3
  else s.peerFail g 3

/-! ## Receiving (R87 to R91) -/

/-- A message that has arrived whole. -/
structure PeerMsg where
  typ : Nat
  tag : Nat
  payload : List Nat
  deriving DecidableEq, Repr

/-- Count a frame's buffer as freed and tell the sender (R88). -/
def State.peerFree (s : State) (g t : Nat) : State :=
  (s.modPeer g (fun p => { p with freedOut := listMod p.freedOut (t - 1) (fun n => (n + 1) % 256) })).peerCredit g

/-- A frame that the transport accepts joins its message (R86, R91); its buffer is released at once. -/
def State.peerTake (s : State) (g : Nat) (f : PeerFrame) : State × Option PeerMsg :=
  let s := (s.count .LAN_PEER_RX g 0 1).peerFree g f.typ
  let frags := if f.first then [f] else (s.peer g).frags ++ [f]
  if f.last then
    let s := s.modPeer g (fun p => { p with frags := [] })
    match frags with
    | h :: _ => if h.first then (s, some ⟨f.typ, f.tag, frags.flatMap (fun x => (frameBytes x).take x.length)⟩) else (s, none)
    | [] => (s, none)
  else (s.modPeer g (fun p => { p with frags := frags }), none)

/-- A NAK asks for the expected frame, once (R89). -/
def State.peerNak (s : State) (g : Nat) : State :=
  if (s.peer g).nakSent then s
  else (s.modPeer g (fun p => { p with nakSent := true })).peerEmit g (bareFrame 9 (s.peer g).expect 0)

/-- A frame of types 1 to 4 arrives in RETRY mode (R89). -/
def State.peerRetry (s : State) (g : Nat) (f : PeerFrame) (crc : Nat) : State × Option PeerMsg :=
  if crc != (frameCrc f) then ((s.count .LAN_PEER_CRC g 0 1).peerNak g, none)
  else if f.seq != (s.peer g).expect then
    let behind := ((s.peer g).expect + 65536 - f.seq) % 65536
    if behind ≤ 32768 then (s.modPeer g (fun p => { p with sinceAck := p.sinceAck + 1 }), none)
    else (s.peerNak g, none)
  else
    let s := s.modPeer g (fun p => { p with expect := (f.seq + 1) % 65536, nakSent := false, sinceAck := p.sinceAck + 1 })
    let r := s.peerTake g f
    (if 16 ≤ (r.1.peer g).sinceAck then r.1.peerAck g else r.1, r.2)

/-- A frame of types 1 to 4 arrives in DROP mode (R90). -/
def State.peerDropMode (s : State) (g : Nat) (f : PeerFrame) (crc : Nat) : State × Option PeerMsg :=
  let bad := crc != (frameCrc f)
  let inMsg := match (s.peer g).frags with
    | h :: _ => h.typ == f.typ && h.tag == f.tag
    | [] => false
  let later := (s.peer g).discard == some (f.typ, f.tag) && !f.first
  if bad || later || (!f.first && !inMsg) then
    let s := if bad then s.count .LAN_PEER_CRC g 0 1 else s
    let s := (s.count .LAN_PEER_DROP g 0 1).raise (peerPage g) 7
    let s := s.modPeer g (fun p => { p with frags := [], discard := if f.last then none else some (f.typ, f.tag) })
    (s.peerFree g f.typ, none)
  else (s.modPeer g (fun p => { p with discard := none })).peerTake g f

/-- A frame of types 1 to 4 arrives; the result is the message it completes, if any. -/
def State.peerReceive (s : State) (g : Nat) (f : PeerFrame) (crc : Nat) : State × Option PeerMsg :=
  if !s.peerIsUp g then (s, none)
  else if (s.peer g).drop then s.peerDropMode g f crc else s.peerRetry g f crc

/-! ## Control frames and resends (R88, R89) -/

/-- A type 8 to 10 frame passes its CRC while the group is UP. -/
def State.peerCtl (s : State) (g : Nat) (f : PeerFrame) (crc : Nat) (act : State → State) : State :=
  if !s.peerIsUp g then s
  else if crc != (frameCrc f) then s.count .LAN_PEER_CRC g 0 1
  else act (s.count .LAN_PEER_RX g 0 1)

/-- The frames that an acknowledgement up to `a` leaves unacknowledged (R89). -/
def unackedAfter (l : List PeerFrame) (a : Nat) : List PeerFrame :=
  l.filter (fun f => 32768 ≤ (a + 65536 - f.seq) % 65536)

/-- An acknowledgement up to sequence `a` (R89): progress ends a run of resends, and waiting frames may go. -/
def State.peerAcked (s : State) (g a : Nat) : State :=
  let old := (s.peer g).unacked
  let new := unackedAfter old a
  if new.length = old.length then s
  else (s.modPeer g (fun p => { p with unacked := new, resends := 0 })).peerFlush g

/-- Resend every unacknowledged frame (R89); after 8 resends without progress the group gives up. -/
def State.peerResend (s : State) (g : Nat) : State :=
  let p := s.peer g
  if p.unacked.isEmpty then s
  else if 8 ≤ p.resends then (s.raise (peerPage g) 6).peerDown g
  else
    let s := (s.modPeer g (fun p => { p with resends := p.resends + 1 })).raise (peerPage g) 5
    s.forEach p.unacked (fun s f => (s.count .LAN_PEER_REPLAY g 0 1).peerEmit g f)

/-- Latest freed counts from the other side (R88). -/
def State.peerCredited (s : State) (g tag : Nat) : State :=
  (s.modPeer g (fun p => { p with freedIn := leBytes 4 tag })).peerFlush g

end Sys2Proof.Machine
end

