-- ==== Sys2Proof/Machine/Time.lean ====
section
/-!
DEFINITION. Machine/Time.lean: the device time and its clock (R341 to R344, R348), capture units (R347), and the raw,
reported and belt positions (R326, R333, R336 to R338).
-/
namespace Sys2Proof.Machine

/-! ## The clock (R341, R343) -/

/-- The tick time in the T64 form (R355). -/
def State.t64 (s : State) : Nat := (s.sec % 2 ^ 34) * 2 ^ 30 + s.ns

/-- What one TCLK tick adds, in 2^-32 ns (R341); while the reference is lost the held rate deviates (R343). -/
def State.tclkUnits (s : State) : Nat :=
  ((2 ^ 32 : Int) + sext 32 (s.get .TIM_TRIM) + (s.get .TIMX_DRIFT : Int) - 85899).toNat

/-- TCLK ticks within the next `k` IOCLK ticks: five in every two. -/
def State.tclkTicks (s : State) (k : Nat) : Nat := 5 * (s.tick + k) / 2 - 5 * s.tick / 2

/-- The nanoseconds field carries into the seconds (R348): ROLLOVER, the new second and its first tick, and the time of
the message if one is sent. -/
def State.rollover (s : State) : State :=
  let before := s.vecOr (s.route ⟨.tim, 0⟩) 10
  let fn := s.route ⟨.tim, 0⟩
  let masked := bit (s.msixWord fn 10 3) 0
  let s := ((s.set .TIM_ROLL_SEC 0 0 s.sec).set .TIM_ROLL_EVT_NS 0 0 s.ns).raise ⟨.tim, 0⟩ 0
  if !before && s.vecOr fn 10 && !masked && s.linkUp then
    { (s.set .TIM_ROLL_MSG_NS 0 0 (freeMessageTime s.draws % 10 ^ 9)).set .TIM_ROLL_MSG_valid 0 0 1 with
      draws := s.draws + 1 }
  else s.set .TIM_ROLL_MSG_valid 0 0 0

/-- The IOCLK ticks from now to the first tick whose time is at or after `sec`, `ns` (R344, R345). -/
def State.ticksTo (s : State) (sec ns : Nat) : Nat :=
  let d : Int := (((sec : Int) - s.sec) * 10 ^ 9 + ns - s.ns) * 2 ^ 32 - s.frac
  if d ≤ 0 then 0
  else
    let m := ceilDiv d.toNat (max s.tclkUnits 1)
    ceilDiv (2 * (m + 5 * s.tick / 2)) 5 - s.tick

/-- `k` IOCLK ticks pass within one second. -/
def State.passRaw (s : State) (k : Nat) : State :=
  let f := s.frac + s.tclkTicks k * s.tclkUnits
  let n := s.ns + f / 2 ^ 32
  { s with tick := s.tick + k, frac := f % 2 ^ 32, ns := n % 10 ^ 9, sec := (s.sec + n / 10 ^ 9) % 2 ^ 64 }

/-- `k` IOCLK ticks pass, at most `fuel` carries into the seconds among them. -/
def State.passTicks (s : State) : Nat → Nat → State
  | 0, k => s.passRaw k
  | fuel + 1, k =>
    let b := s.ticksTo (s.sec + 1) 0
    if k < b then s.passRaw k
    else (s.passRaw b).rollover.passTicks fuel (k - b)

/-- `k` IOCLK ticks pass: the device time advances, and each carry into the seconds is a rollover (R341, R348). -/
def State.pass (s : State) (k : Nat) : State := s.passTicks (k / 399000000 + 1) k

/-! ## Capture units (R347) -/

/-- An event of a capture source at a tick time and a belt position. -/
def State.timCapture (s : State) (src sel : Nat) (rising : Bool) (sec ns : Nat) (pos : Int) : State :=
  s.forEach (List.range 16) (fun s n =>
    let e := s.get .TIM_CAP_CFG_edge 0 n
    let edgeOk := (src != 1 && src != 2) || e == 3 || (if rising then e == 1 else e == 2)
    if s.get .TIM_CAP_CFG_src 0 n == src && (src == 1 || s.get .TIM_CAP_CFG_sel 0 n == sel) && edgeOk then
      let s := (((s.set .TIM_CAP_SEC 0 n sec).set .TIM_CAP_NS 0 n ns).set .TIM_CAP_POS 0 n (toU 64 pos)).countWrap
        .TIM_CAP_SEQ 0 n 1
      let extra := if bit (s.get .TIM_CAP_PEND) n then 2 ^ 5 else 0
      if s.isOn .TIM_CAP_CFG_irq 0 n then
        (s.set .TIM_CAP_PEND 0 0 (putBit (s.get .TIM_CAP_PEND) n true)).raiseMask ⟨.tim, 0⟩ (2 ^ 4 + extra) 0 false
      else if extra = 0 then s
      else s.raiseMask ⟨.tim, 0⟩ extra 0 false
    else s)

/-! ## Positions -/

/-- A position wrapped to 48 bits (R326). -/
def wrap48 (x : Int) : Int := sext 48 (toU 48 x)

/-- The raw count of a port. -/
def State.encRaw (s : State) (e : Nat) : Int := sext 64 (s.get .ENC_RAW e)

/-- The reported count of a port. -/
def State.encPos (s : State) (e : Nat) : Int := sext 64 (s.get .ENC_POS e)

/-- The active port: the belt port, or the backup after a switch (R336). -/
def State.activePort (s : State) : Nat :=
  if s.isOn .ENC_SEL_on_backup then s.get .ENC_SEL_backup else s.get .ENC_SEL_belt

/-- The belt position (R336 to R338): the reported position of the active port, plus the delta while the backup is
active; while the belt is lost, the value held. -/
def State.beltPos (s : State) : Int :=
  if !s.isOn .ENC_SEL_belt_ok then sext 64 (s.get .ENC_BELT_POS)
  else if s.isOn .ENC_SEL_on_backup then
    wrap48 (s.encPos s.activePort + sext 64 (s.get .ENC_BACKUP_DELTA))
  else s.encPos s.activePort

/-- `n` single counts of sign `sg`, on one tick, through the hysteresis rule of R333: the new `p`, direction bit and
held, given `r` after the counts. -/
def hysteresis (r p : Int) (d : Bool) (held : Bool) (sg : Bool) (n : Nat) : Int × Bool × Bool :=
  if n = 0 then (p, d, held)
  else if sg = d || held || 2 ≤ n then (r, sg, false)
  else (p, d, true)

/-- A port takes `delta` raw counts on one tick (R326, R333, R335). Direction bits: false is +1, true is -1. -/
def State.encCounts (s : State) (e : Nat) (delta : Int) : State :=
  let dl := if s.isOn .ENC_CFG_invert e then -delta else delta
  let r := wrap48 (s.encRaw e + dl)
  let h := hysteresis r (s.encPos e) (s.isOn .ENC_STATUS_dir e) (s.isOn .ENC_STATUS_held e) (dl < 0) dl.natAbs
  ((((s.set .ENC_RAW e 0 (toU 64 r)).set .ENC_POS e 0 (toU 64 h.1)).set .ENC_STATUS_dir e 0 (b2n h.2.1)).set
    .ENC_STATUS_held e 0 (b2n h.2.2)).set .ENCX_COUNT e 0 (toU 64 (sext 64 (s.get .ENCX_COUNT e) + dl))

end Sys2Proof.Machine
end

