-- ==== Sys2Proof/Machine/AtnTables.lean ====
section
/-!
DEFINITION. Machine/AtnTables.lean: ATN's pools and page tables (R261 to R266, R283): the layout of a page, free lists,
the making, growing and releasing of tables.
-/
namespace Sys2Proof.Machine

/-- The page of pool `q`. -/
def poolPage (q : Nat) : PageId := ⟨.atnPool, q⟩

/-- A pool since its enable. -/
def State.pool (s : State) (q : Nat) : AtnPool := s.pools.getD q {}

/-- A pool, changed. -/
def State.modPool (s : State) (q : Nat) (f : AtnPool → AtnPool) : State := { s with pools := listMod s.pools q f }

/-- The table of an identifier, if it is not FREE. -/
def State.table (s : State) (id : Nat) : Option AtnTable := s.tables.find? (fun t => t.id == id)

/-- The table of an identifier, changed. -/
def State.modTable (s : State) (id : Nat) (f : AtnTable → AtnTable) : State :=
  { s with tables := s.tables.map (fun t => if t.id == id then f t else t) }

/-! ## Geometry (R262, R263) -/

/-- Tokens of a page. -/
def State.poolTokens (s : State) (q : Nat) : Nat := 2 ^ s.get .ATN_POOL_FMT_page_log2 q

/-- Heads of a pool. -/
def State.poolHeads (s : State) (q : Nat) : Nat := s.get .ATN_POOL_FMT_heads_m1 q + 1

/-- Twice the bytes of an element of a storage format (R262). -/
def kvHalfBytes (fmt : Nat) : Nat := if fmt == 0 then 4 else if fmt == 3 then 1 else 2

/-- Bytes of the K part of a page. -/
def State.poolKBytes (s : State) (q : Nat) : Nat :=
  s.poolTokens q * s.poolHeads q * s.get .ATN_POOL_DIM_dk q * kvHalfBytes (s.get .ATN_POOL_FMT_kfmt q) / 2

/-- Bytes of the V part of a page. -/
def State.poolVBytes (s : State) (q : Nat) : Nat :=
  s.poolTokens q * s.poolHeads q * s.get .ATN_POOL_DIM_dv q * kvHalfBytes (s.get .ATN_POOL_FMT_vfmt q) / 2

/-- The stride of a pool (R263). -/
def State.poolStride (s : State) (q : Nat) : Nat :=
  ceilDiv (256 + s.poolTokens q * 4 + s.poolKBytes q + s.poolVBytes q) 256 * 256

/-- The device address of a local page (R263). -/
def State.pageAddr (s : State) (q page : Nat) : Nat := s.get .ATN_POOL_BASE q + page * s.poolStride q

/-- Is the pool enabled? -/
def State.poolOn (s : State) (q : Nat) : Bool := s.isOn (.CTRL_enable .atnPool) q

/-- Does an HBM key lie in a page of an enabled pool (R263)? -/
def State.pageLine (s : State) (key : Nat) : Bool :=
  (List.range 8).any (fun q => s.poolOn q && match (s.owner (poolPage q)).bind (fun p => s.addrIn p key) with
    | some a => s.get .ATN_POOL_BASE q ≤ a && a < s.pageAddr q (s.get .ATN_POOL_PAGES q)
    | none => false)

/-- Role of a pool: LOCAL 0, HOME 1, REMOTE 2. -/
def State.poolRole (s : State) (q : Nat) : Nat := s.get .ATN_POOL_ROLE_role q

/-! ## Enable (R261) -/

/-- Why an enable of the pool is refused (R261). -/
def State.poolRefused (s : State) (q : Nat) : Bool :=
  let dk := s.get .ATN_POOL_DIM_dk q
  let dv := s.get .ATN_POOL_DIM_dv q
  let g := s.get .ATN_POOL_FMT_grid_w q
  let pl := s.get .ATN_POOL_FMT_page_log2 q
  let smin := s.get .ATN_POOL_SMIN q
  let role := s.poolRole q
  let pages := s.get .ATN_POOL_PAGES q
  s.owner (poolPage q) == none || pl < 4 || 9 < pl || dk < 16 || 128 < dk || dk % 16 != 0 || dv < 16 || 128 < dv
  || dv % 16 != 0 || g < 1 || 32 < g
  || s.get .ATN_POOL_BASE q % 4096 != 0
  || !s.ownerHas (poolPage q) (s.get .ATN_POOL_BASE q) (pages * s.poolStride q)
  || fNeg smin || !fIsFin smin || fIsZero smin
  || (s.isOn .ATN_POOL_FMT_rope q &&
      !s.ownerHas (poolPage q) (s.get .ATN_POOL_ROPE_BASE q) (((s.poolHeads q - 1) * 64 + dk / 2) * 4))
  || (role == 1 && s.get .ATN_POOL_ROLE_home_groups q == 0)
  || (role == 2 && (s.get .ATN_POOL_RANGE_count q == 0 ||
      65535 < s.get .ATN_POOL_RANGE_first q + s.get .ATN_POOL_RANGE_count q))

/-- Enable a pool (R261): the frequency table is copied and every local page is free. -/
def State.poolEnable (s : State) (fn q : Nat) : State :=
  if s.poolOn q then s
  else if s.poolRefused q then s.code (poolPage q) fn 0x8 0x70
  else
    let n := (s.poolHeads q - 1) * 64 + s.get .ATN_POOL_DIM_dk q / 2
    let base := s.get .ATN_POOL_ROPE_BASE q
    let tab := if s.isOn .ATN_POOL_FMT_rope q then (List.range n).map (fun i => s.devNat (base + 4 * i) 4) else []
    (s.set (.CTRL_enable .atnPool) q 0 1).modPool q (fun _ => { rope := tab })

/-! ## Free lists (R265) -/

/-- Free local pages, counted. -/
def State.poolFree (s : State) (q : Nat) : Nat :=
  if s.poolOn q then s.get .ATN_POOL_PAGES q - (s.pool q).fresh + (s.pool q).returned.length else 0

/-- Free home pages of a REMOTE range, counted. -/
def State.poolRfree (s : State) (q : Nat) : Nat :=
  if s.poolOn q && s.poolRole q == 2 then s.get .ATN_POOL_RANGE_count q - (s.pool q).rfresh + (s.pool q).rreturned.length
  else 0

/-- Take a local page. -/
def State.takeLocal (s : State) (q : Nat) : State × Option Nat :=
  let p := s.pool q
  if p.fresh < s.get .ATN_POOL_PAGES q then (s.modPool q (fun p => { p with fresh := p.fresh + 1 }), some p.fresh)
  else match p.returned with
    | [] => (s, none)
    | x :: xs => (s.modPool q (fun p => { p with returned := xs }), some x)

/-- Take a home page of a REMOTE range. -/
def State.takeHome (s : State) (q : Nat) : State × Option Nat :=
  let p := s.pool q
  let first := s.get .ATN_POOL_RANGE_first q
  if p.rfresh < s.get .ATN_POOL_RANGE_count q then
    (s.modPool q (fun p => { p with rfresh := p.rfresh + 1 }), some (first + p.rfresh))
  else match p.rreturned with
    | [] => (s, none)
    | x :: xs => (s.modPool q (fun p => { p with rreturned := xs }), some x)

/-- Return a local page; a page that an enable has freed since stays free. -/
def State.freeLocal (s : State) (q page : Nat) : State :=
  s.modPool q (fun p => if page < p.fresh && !p.returned.contains page then
    { p with returned := p.returned ++ [page] } else p)

/-- Return a home page; a page that an enable has freed since stays free. -/
def State.freeHome (s : State) (q page : Nat) : State :=
  s.modPool q (fun p => if page < s.get .ATN_POOL_RANGE_first q + p.rfresh && !p.rreturned.contains page then
    { p with rreturned := p.rreturned ++ [page] } else p)

/-- Local pages whose way home is over are free (R283): nothing of the message waits or is unacknowledged. -/
def State.reapPushes (s : State) : State :=
  s.forEach (List.range 8) (fun s q =>
    let busy (p : PagePush) : Bool :=
      ((s.peer p.group).waiting ++ (s.peer p.group).unacked).any (fun f => f.typ == 3 && f.tag == p.tag)
    let l := (s.pool q).pushes
    let s := s.modPool q (fun p => { p with pushes := l.filter busy })
    s.forEach (l.filter (fun p => !busy p)) (fun s p => s.freeLocal q p.localPage))

/-! ## Tables (R264, R266) -/

/-- The pool of a new table (R264). -/
def State.choosePool (s : State) (ctx w : Nat) : Option Nat :=
  (List.range 8).find? (fun q =>
    s.poolOn q && !s.isOn (.CTRL_quiesce .atnPool) q && s.poolRole q != 1 && (s.owner (poolPage q)).isSome && s.owner (poolPage q) == s.owner ⟨.lnpCtx, ctx⟩ &&
    s.get .ATN_POOL_SEL_w_min q ≤ w && (s.get .ATN_POOL_SEL_w_max q == 0 || w < s.get .ATN_POOL_SEL_w_max q))

/-- Make the table of an identifier (R264). -/
def State.tableCreate (s : State) (id gen ctx w : Nat) : State :=
  let q := s.choosePool ctx w
  let t : AtnTable := { id := id, gen := gen, releasing := false, pool := q, entries := [], tokens := 0, trunc := false,
                        readers := 0, localPage := none, lost := [] }
  let s := { s with tables := s.tables.filter (fun t => t.id != id) ++ [t] }
  if q.isNone then s.raise ⟨.atn, 0⟩ 0 else s

/-- A retired record's table is RELEASING (R266). -/
def State.tableRelease (s : State) (id : Nat) : State := s.modTable id (fun t => { t with releasing := true })

/-- The pages of a released table return in entry order, but for those of unreadable entries (R266, R286). -/
def State.tablePages (s : State) (t : AtnTable) : State :=
  match t.pool with
  | none => s
  | some q =>
    if !s.poolOn q then s
    else
      let es := (List.range t.entries.length).filter (fun i => !t.lost.contains i)
      let s := s.forEach es (fun s i =>
        let page := t.entries.getD i 0
        if s.poolRole q == 2 then s.freeHome q page else s.freeLocal q page)
      match t.localPage with
      | some l => s.freeLocal q l
      | none => s

end Sys2Proof.Machine
end

