-- ==== Sys2Proof/Machine/Exp.lean ====
section
/-!
DEFINITION. Machine/Exp.lean: the device exponential (R282), chunked sums (R209), the fused step of RESIZE (R217), the
sine and cosine tables of the rotary positions (R270), powers (R453, R460) and Philox4x32-10 (R469).
-/
namespace Sys2Proof.Machine

/-- A sum of binary32 terms cut into chunks by a key: each chunk exact and rounded once, then added in order (R209). -/
def chunkedSum : List (Nat × Nat) → Nat
  | [] => 0
  | (k, x) :: l => go k [x] none l
where
  /-- The chunk in progress (latest term first), and the sum of those before it. -/
  go (k : Nat) (cur : List Nat) (acc : Option Nat) : List (Nat × Nat) → Nat
    | [] => close cur acc
    | (j, x) :: l => if j = k then go k (x :: cur) acc l else go j [x] (some (close cur acc)) l
  /-- A finished chunk joins the sum. -/
  close (cur : List Nat) : Option Nat → Nat
    | none => f32SumExact cur
    | some a => f32Add a (f32SumExact cur)

/-- The chunked sum of terms in runs of 32 (R209). -/
def sum32 (l : List Nat) : Nat := chunkedSum (l.zipIdx.map (fun x => (x.2 / 32, x.1)))

/-- `a * b + c` with one rounding. -/
def f32Fma (a b c : Nat) : Nat :=
  if fIsNaN a || fIsNaN b || fIsNaN c then f32NaN
  else if fIsInf a || fIsInf b || fIsInf c then f32Add (f32Mul a b) c
  else
    let x := fInt a * fInt b + fInt c * (2 ^ 149 : Nat)
    if x = 0 then
      (if (fNeg a != fNeg b) && fNeg c && (fIsZero a || fIsZero b) && fIsZero c then 2 ^ 31 else 0)
    else f32OfScaled x (-298)

/-- The integer constants `2 ^ (i / 16) * 2 ^ 32` of R282. -/
def expTab : List Nat :=
  [4294967296, 4485121744, 4683695048, 4891059943, 5107605667, 5333738689, 5569883475, 5816483285, 6074001000,
   6342919999, 6623745059, 6917003306, 7223245206, 7543045592, 7877004752, 8225749546]

/-- The device exponential 2^x (R282). -/
def exp2 (x : Nat) : Nat :=
  if fIsNaN x then f32NaN
  else if f32Le 0x43000000 x then f32Inf
  else if f32Lt x 0xC3200000 then 0
  else
    let m := shrRne (fUnits x) 117 false
    let xi : Int := if fNeg x then -(m : Int) else m
    let n := fdiv xi (2 ^ 32)
    let f := (xi % 2 ^ 32).toNat
    let i := f / 2 ^ 28
    let r := f % 2 ^ 28
    let p := 41309550
    let p := 238388332 + p * r / 2 ^ 32
    let p := 1031764991 + p * r / 2 ^ 32
    let p := 2977044472 + p * r / 2 ^ 32
    let p := 2 ^ 32 + p * r / 2 ^ 32
    let q := expTab.getD i 0 * p / 2 ^ 32
    f32Pack false q (n - 32)

/-! ## Sine and cosine (R270), in fixed point with 128 fraction bits -/

/-- 2^128 times pi. -/
def piFix : Nat := 0x3243F6A8885A308D313198A2E03707344

/-- A power series in `t2` (128 fraction bits) with alternating signs: each term is the last times `t2 / (k (k + 1))`. -/
def altSeries : Nat → Nat → Nat → Nat → Int
  | 0, _, _, _ => 0
  | n + 1, k, term, t2 => (term : Int) - altSeries n (k + 2) (term * t2 / 2 ^ 128 / (k * (k + 1))) t2

/-- 2^128 times the sine of an angle of the first octant. -/
def sinFix (t : Nat) : Int := altSeries 20 2 t (t * t / 2 ^ 128)

/-- 2^128 times the cosine of an angle of the first octant. -/
def cosFix (t : Nat) : Int := altSeries 20 1 (2 ^ 128) (t * t / 2 ^ 128)

/-- 2^128 times cosine and sine of 2 pi k / 16384, by octants. -/
def cosSin (k : Nat) : Int × Int :=
  let k := k % 16384
  let q := k / 4096
  let j := k % 4096
  let at' (j : Nat) : Nat := 2 * piFix * j / 16384
  let cs : Int × Int :=
    if j = 0 then (2 ^ 128, 0)
    else if j ≤ 2048 then (cosFix (at' j), sinFix (at' j)) else (sinFix (at' (4096 - j)), cosFix (at' (4096 - j)))
  match q with
  | 0 => cs
  | 1 => (-cs.2, cs.1)
  | 2 => (-cs.1, -cs.2)
  | _ => (cs.2, -cs.1)

/-- ctab[k] of R270. -/
def ropeCos (k : Nat) : Nat := f32OfScaled (cosSin k).1 (-128)
/-- stab[k] of R270. -/
def ropeSin (k : Nat) : Nat := f32OfScaled (cosSin k).2 (-128)

/-! ## Real powers of i / 256 (R453), in fixed point with 320 fraction bits -/

/-- Fraction bits of the power evaluation. -/
def powBits : Nat := 320

/-- 2 atanh of a fraction: the sum of `t ^ (2 k + 1) / (2 k + 1)`, doubled. -/
def atanhSeries : Nat → Nat → Nat → Nat → Nat
  | 0, _, _, _ => 0
  | n + 1, k, term, t2 => 2 * term / k + atanhSeries n (k + 2) (term * t2 / 2 ^ powBits) t2

/-- 2^powBits times ln 2. -/
def ln2Fix : Nat :=
  let t := 2 ^ powBits / 3
  atanhSeries 110 1 t (t * t / 2 ^ powBits)

/-- 2^powBits times -ln (i / 256), for 1 ≤ i ≤ 256. -/
def negLn (i : Nat) : Nat :=
  -- i = m * 2 ^ e with m in [1, 2)
  let e := Nat.log2 i
  let m := i * 2 ^ powBits / 2 ^ e
  let t := (m - 2 ^ powBits) * 2 ^ powBits / (m + 2 ^ powBits)
  (8 - e) * ln2Fix - atanhSeries 110 1 t (t * t / 2 ^ powBits)

/-- The exponential series of a negative argument. -/
def expNegSeries : Nat → Nat → Nat → Nat → Int
  | 0, _, _, _ => 0
  | n + 1, k, term, x => (term : Int) - expNegSeries n (k + 1) (term * x / 2 ^ powBits / k) x

/-- The binary32 value nearest (i / 256) ^ g, for a positive finite g (R453). A result within 2^-200 of a value with 60
fraction bits counts as that value, so that exact ties are ties. -/
def powTab (i g : Nat) : Nat :=
  if i = 0 then 0
  else if i = 256 then f32One
  else
    let y := negLn i * fUnits g / 2 ^ 149
    let n := y / ln2Fix
    if 400 < n then 0
    else
      let v := (expNegSeries 80 1 (2 ^ powBits) (y - n * ln2Fix)).toNat
      -- v is in (1/2, 1]
      let snap := (v + 2 ^ (powBits - 61)) / 2 ^ (powBits - 60)
      let near := snap * 2 ^ (powBits - 60)
      let d := if near ≤ v then v - near else near - v
      f32Pack false (if d < 2 ^ (powBits - 200) then near else v) (-(powBits : Int) - n)

/-- `b ^ t` by squaring from the least significant bit, every product rounded (R460). -/
def f32PowNat : Nat → Nat → Nat → Nat → Nat
  | 0, _, _, acc => acc
  | fuel + 1, b, t, acc =>
    if t = 0 then acc
    else f32PowNat fuel (f32Mul b b) (t / 2) (if t % 2 = 1 then f32Mul acc b else acc)

/-! ## Philox4x32-10 (R469) -/

/-- The rounds of Philox. -/
def philoxRounds : Nat → Nat × Nat × Nat × Nat → Nat → Nat → Nat × Nat × Nat × Nat
  | 0, c, _, _ => c
  | n + 1, (c0, c1, c2, c3), k0, k1 =>
    let p0 := 0xd2511f53 * c0
    let p1 := 0xcd9e8d57 * c2
    philoxRounds n ((p1 / 2 ^ 32) ^^^ c1 ^^^ k0, p1 % 2 ^ 32, (p0 / 2 ^ 32) ^^^ c3 ^^^ k1, p0 % 2 ^ 32)
      ((k0 + 0x9e3779b9) % 2 ^ 32) ((k1 + 0xbb67ae85) % 2 ^ 32)

/-- Philox4x32-10 of a counter and a 64-bit key. -/
def philox (c0 c1 c2 c3 key : Nat) : Nat × Nat × Nat × Nat :=
  philoxRounds 10 (c0 % 2 ^ 32, c1 % 2 ^ 32, c2 % 2 ^ 32, c3 % 2 ^ 32) (key % 2 ^ 32) (key / 2 ^ 32 % 2 ^ 32)

end Sys2Proof.Machine
end

