-- ==== Sys2Proof/Machine/Trk.lean ====
section
/-!
DEFINITION. Machine/Trk.lean: TRK's records and their states, notices, spans, verdicts, the commit point, Hoof's
reservations, valves and firings, and the verdict log (R352 to R386), with the levels of the direct outputs (R396 to
R400).
-/
namespace Sys2Proof.Machine

/-! ## Records (R352 to R356) -/

/-- Flags of a record (R355). -/
def flDefaulted := 0
def flProvisional := 1
def flMerged := 2
def flCut := 3
def flInView := 4
def flFireTrunc := 5
def flFireLost := 6
def flBeltLost := 7
def flSafeHeld := 8
def flPeer := 9
def flStretched := 10
def flMaxOn := 11

/-- The record of an identifier, if it is not FREE. -/
def State.partRec (s : State) (span : Bool) (id : Nat) : Option TrkRec := s.trk.recs.find? (fun r => r.span == span && r.id == id)

/-- TRK, changed. -/
def State.modTrk (s : State) (f : TrkState → TrkState) : State := { s with trk := f s.trk }

/-- A record, changed. -/
def State.modRec (s : State) (span : Bool) (id : Nat) (f : TrkRec → TrkRec) : State :=
  s.modTrk (fun t => { t with recs := t.recs.map (fun r => if r.span == span && r.id == id then f r else r) })

/-- The generation of a regular identifier (R352, R354). -/
def State.genOf (s : State) (id : Nat) : Nat := ((s.trk.gens.find? (fun g => g.1 == id)).map (fun g => g.2)).getD 0

/-- The next generation of an identifier (R353, R354). -/
def State.bumpGen (s : State) (id : Nat) : State :=
  let g := (s.genOf id + 1) % 256
  s.modTrk (fun t => { t with gens := t.gens.filter (fun x => x.1 != id) ++ (if g = 0 then [] else [(id, g)]) })

/-- Identifiers in the free-record queue. -/
def TrkState.free (t : TrkState) : Nat := 4096 - t.fresh + t.returned.length

/-- Fill the staging buffer from the head of the queue (R353); `fuel` bounds it. -/
def TrkState.fill (t : TrkState) : Nat → TrkState
  | 0 => t
  | fuel + 1 =>
    if 64 ≤ t.staged.length then t
    else if t.fresh < 4096 then TrkState.fill { t with staged := t.staged ++ [t.fresh], fresh := t.fresh + 1 } fuel
    else match t.returned with
      | [] => t
      | x :: xs => TrkState.fill { t with staged := t.staged ++ [x], returned := xs } fuel

/-- An identifier joins the tail of the queue (R353, R354). -/
def State.giveId (s : State) (id : Nat) : State :=
  s.modTrk (fun t => TrkState.fill { t with returned := t.returned ++ [id] } 64)

/-- Set a flag. -/
def TrkRec.flag (r : TrkRec) (n : Nat) (b : Bool := true) : TrkRec := { r with flags := putBit r.flags n b }

/-- Is a flag set? -/
def TrkRec.has (r : TrkRec) (n : Nat) : Bool := bit r.flags n

/-- Before COMMITTED (R356)? -/
def TrkRec.early (r : TrkRec) : Bool := 1 ≤ r.state && r.state ≤ 4

/-- cnt per line of a context (R357). -/
def State.lineCnt (s : State) (ctx : Nat) : Int := (s.get .TRK_CTX_COL_line_cnt 0 ctx : Int)

/-- The end of a record's along-track extent (R357). -/
def State.recEnd (s : State) (r : TrkRec) : Int := r.last + s.lineCnt r.ctx

/-- The class in force before the commit point (R363, R371, R373): the default class while a DEFAULT reason is set or no
verdict is held. -/
def State.effClass (s : State) (r : TrkRec) : Nat :=
  if r.reasons % 64 != 0 || r.held == 0 then s.get .TRK_CFG_default_class else r.cls

/-! ## Banks (R366, R367, R370) -/

/-- Does bank `b` apply (R375)? DEDUCED from R47: a quiesced EJT accepts no new firing. -/
def State.bankOn (s : State) (b : Nat) : Bool :=
  s.isOn (.CTRL_enable .ejt) && !s.isOn (.CTRL_quiesce .ejt) && s.isOn .EJT_BANK_CFG_enable 0 b

/-- The path of a bank: its valve port, or 4 for the direct outputs (R366). -/
def State.bankPath (s : State) (b : Nat) : Nat := if bit (s.get .EJT_OUT_PATH) b then s.get .EJT_BANK_CFG_port 0 b else 4

/-- The bank mask of a class (R366). -/
def State.classMask (s : State) (k : Nat) : Nat := bits (s.get .EJT_CLASS 0 (k / 4)) (8 * (k % 4) + 7) (8 * (k % 4))

/-- The bank-relative valve under a column (R367). -/
def State.valveAt (s : State) (b : Nat) (x : Int) : Int :=
  fdiv (x * 2 ^ 16 - sext 32 (s.get .EJT_BANK_ORIGIN 0 b)) (s.get .EJT_BANK_PITCH 0 b : Int)

/-- The valves of a record in a bank, physical, if it has any (R362, R367). -/
def State.valveRange (s : State) (b : Nat) (r : TrkRec) : Option (Nat × Nat) :=
  let cnt := s.get .EJT_BANK_CFG_count 0 b
  let first := s.get .EJT_BANK_CFG_first 0 b
  if cnt = 0 then none
  else if r.span then some (first, first + cnt - 1)
  else
    let sp : Int := s.get .EJT_BANK_CFG_spread 0 b
    let lo := max 0 (s.valveAt b r.colFirst - sp)
    let hi := min ((cnt : Int) - 1) (s.valveAt b r.colLast + sp)
    if lo ≤ hi then some (first + lo.toNat, first + hi.toNat) else none

/-- A lead in cnt for a path and a mechanical delay (R370), at the speed in use. -/
def State.leadFor (s : State) (path mech : Nat) : Int :=
  let t2 := (if path == 4 then 192 + 5 * s.get .ENC_CFG_filter s.activePort else 7200) + 2 * mech
  (ceilDiv (t2 * fUnits (s.get .EJT_SPEED_USED)) (2 * 10 ^ 9 * 2 ^ 149) : Nat)

/-- d - pre of a bank. -/
def State.bankReach (s : State) (b : Nat) : Int :=
  sext 32 (s.get .EJT_BANK_DIST 0 b) - s.get .EJT_BANK_MARGIN_pre 0 b

/-- The commit point of a record with the present leads (R370, R375). -/
def State.commitPoint (s : State) (r : TrkRec) : Int :=
  let l := ((List.range 8).filter s.bankOn).map (fun b =>
    s.bankReach b - s.leadFor (s.bankPath b) (s.get .EJT_BANK_MECH 0 b))
  match l with
  | [] => r.first + s.get .TRK_HOLD
  | x :: xs => r.first + xs.foldl min x

/-- May records commit: the belt is not lost, or EJT was enabled again since (R338, R384)? -/
def State.beltRuns (s : State) : Bool := s.isOn .ENC_SEL_belt_ok && !s.isOn .EJTX_LOST

/-- Has the belt reached the commit point (R22, R370)? -/
def State.atCommit (s : State) (r : TrkRec) : Bool := s.beltRuns && s.commitPoint r ≤ s.beltPos

/-! ## Reservations (R373) -/

/-- The banks in which a record would fire with class `k`. -/
def State.firesIn (s : State) (r : TrkRec) (k : Nat) : List Nat :=
  (List.range 8).filter (fun b => s.bankOn b && bit (s.classMask k) b && (s.valveRange b r).isSome &&
    !(s.bankPath b != 4 && bit (s.get .EJTX_VP_SAFE) (s.bankPath b)))

/-- Queue entries held, reservations included (R388). -/
def State.queueUsed (s : State) : Nat :=
  s.trk.firings.length + (s.trk.recs.map (fun r => popCount 8 r.resv)).foldl (· + ·) 0

/-- The highest number of entries held since clear (R388). -/
def State.notePeak (s : State) : State := s.set .EJT_QUEUE_peak 0 0 (max (s.get .EJT_QUEUE_peak) s.queueUsed)

/-- Free the reservations that no longer apply and reserve those that do (R373). -/
def State.reserve (s : State) (span : Bool) (id : Nat) : State :=
  match s.partRec span id with
  | none => s
  | some r =>
    let want := if r.early then maskOf (s.firesIn r (s.effClass r)) else 0
    let s := s.modRec span id (fun r => { r with resv := r.resv &&& want })
    (s.forEach (onesOf 8 want) (fun s b =>
      if s.queueUsed < 8192 then s.modRec span id (fun r => { r with resv := r.resv ||| 2 ^ b }) else s)).notePeak

/-- Every record's reservations, after a change of settings (R368, R373). -/
def State.reserveAll (s : State) : State := s.forEach s.trk.recs (fun s r => s.reserve r.span r.id)

/-! ## The verdict log (R385, R386) -/

/-- The 64 bytes of a record (R355). -/
def recBytes (r : TrkRec) : List Nat :=
  leBytes 4 (r.id + r.gen * 2 ^ 12 + r.state * 2 ^ 20 + b2n r.span * 2 ^ 23 + r.cls * 2 ^ 24) ++
  leBytes 4 (r.flags + r.reasons * 2 ^ 16) ++
  leBytes 4 (r.ctx + r.held * 2 ^ 8 + b2n r.table * 2 ^ 12 + r.banks * 2 ^ 16) ++
  leBytes 4 r.pixels ++ leBytes 8 (toU 64 r.first) ++ leBytes 8 (toU 64 r.last) ++
  leBytes 2 (toU 16 r.colFirst) ++ leBytes 2 (toU 16 r.colLast) ++ [0, 0, 0, 0] ++
  leBytes 8 (toU 64 r.commit) ++ leBytes 8 r.opened ++ leBytes 8 r.digest

/-- The 128 bytes of a log entry (R386). -/
def logBytes (r : TrkRec) (seq : Nat) : List Nat :=
  recBytes r ++ leBytes 4 seq ++ leBytes 4 r.lateCls ++ leBytes 8 r.tVerdict ++ leBytes 8 r.tCommit ++
  leBytes 8 r.tOn ++ leBytes 8 r.tOff ++ leBytes 8 r.lateDigest ++ List.replicate 16 0

/-- Entries written and not consumed. -/
def State.logFill (s : State) : Nat := (s.get .TRK_LOG_HEAD + 2 ^ 32 - s.get .TRK_LOG_TAIL) % 2 ^ 32

/-- Produce the log entry of a record that reaches DONE (R385, R406). -/
def State.logEntry (s : State) (r : TrkRec) : State :=
  let slots := s.get .TRK_LOG_CFG_slots
  if slots = 0 then s
  else
    let seq := s.get .TRK_LOG_SEQ
    let s := s.countWrap .TRK_LOG_SEQ 0 0 1
    if slots ≤ s.logFill then (s.count .TRK_CNT_LOG_LOST 0 0 1).raise ⟨.trk, 0⟩ 5
    else
      let addr := s.get .TRK_LOG_BASE + s.get .TRK_LOG_HEAD % slots * 128
      let up := s.linkUp
      let s := s.hostOut (.hostWrite addr (logBytes r seq))
      if up then
        let s := s.countWrap .TRK_LOG_HEAD 0 0 1
        if s.logFill == s.get .TRK_LOG_CFG_wm then s.raise ⟨.trk, 0⟩ 4 else s
      else s

/-- A record goes to DONE (R356): its log entry, its reservations, and the release of its table; a span is FREE at
once (R354). -/
def State.recDone (s : State) (span : Bool) (id : Nat) : State :=
  let s := s.modRec span id (fun r => { r with state := 7, resv := 0 })
  match s.partRec span id with
  | none => s
  | some r =>
    let s := s.logEntry r
    if span then s.modTrk (fun t => { t with recs := t.recs.filter (fun x => !(x.span && x.id == id)) })
    else s.tableRelease id

/-- A fired record that is out of view is DONE (R356). -/
def State.recCheck (s : State) (span : Bool) (id : Nat) : State :=
  match s.partRec span id with
  | none => s
  | some r =>
    let left := s.trk.firings.any (fun f => f.span == span && f.id == id)
    let s := if r.state == 5 && !left then s.modRec span id (fun r => { r with state := 6 }) else s
    match s.partRec span id with
    | none => s
    | some r => if r.state == 6 && !r.has flInView then s.recDone span id else s

/-! ## Notices and reasons (R118, R359 to R361) -/

/-- The reasons of the kept notices that a record's extent meets (R359). -/
def State.noticeReasons (s : State) (r : TrkRec) : Nat :=
  s.trk.notices.foldl (fun m n =>
    if n.ctx == r.ctx && n.s < s.recEnd r && r.first < n.e then m ||| n.reasons else m) 0

/-- Set reason bits in a record (R38, R39). -/
def State.setReasons (s : State) (span : Bool) (id mask : Nat) : State :=
  (s.modRec span id (fun r => { r with reasons := r.reasons ||| mask })).reserve span id

/-- After its extent changed: the notices it meets now, and FIRE_TRUNC at or after the commit (R118, R374). -/
def State.recGrown (s : State) (span : Bool) (id : Nat) : State :=
  match s.partRec span id with
  | none => s
  | some r =>
    let s := if 5 ≤ r.state then s.modRec span id (fun r => r.flag flFireTrunc) else s
    s.setReasons span id (s.noticeReasons r)

/-- CAP's stripe notice (R118, R359). -/
def State.trkNotice (s : State) (ctx : Nat) (a e : Int) (reasons : Nat) : State :=
  if reasons = 0 then s
  else
    let mine := s.trk.notices.filter (fun n => n.ctx == ctx)
    let s := if 16 ≤ mine.length then
        let old := mine.headD ⟨ctx, a, e, reasons⟩
        (s.modTrk (fun t => { t with notices := t.notices.erase old })).count .TRK_CNT_NOTICE_DROP 0 0 1
      else s
    let s := s.modTrk (fun t => { t with notices := t.notices ++ [⟨ctx, a, e, reasons⟩] })
    s.forEach s.trk.recs (fun s r =>
      if r.ctx == ctx && r.state != 7 && a < s.recEnd r && r.first < e then s.setReasons r.span r.id reasons else s)

/-- The belt position switches to the backup (R360). -/
def State.trkBackup (s : State) : State :=
  s.forEach s.trk.recs (fun s r => if r.state != 7 then s.setReasons r.span r.id (2 ^ 11) else s)

/-- CMD aborts a job whose plan binds these contexts (R361). -/
def State.trkAbort (s : State) (ctxs : List Nat) (reason : Nat) : State :=
  s.forEach s.trk.recs (fun s r =>
    if ctxs.contains r.ctx && r.early && r.held != 2 then s.setReasons r.span r.id (2 ^ reason) else s)

/-! ## Part list entries (R357, R358, R362) -/

/-- A column after the context's offset (R357). -/
def State.colOff (s : State) (ctx x : Nat) : Int := (x : Int) + sext 16 (s.get .TRK_CTX_COL_col_off 0 ctx)

/-- Open a regular record and its table (R21, R264, R357). -/
def State.recOpen (s : State) (e : PartEntry) (state : Nat) : State :=
  match s.partRec false e.id with
  | some r => if r.state == 7 || e.gen != r.gen then s.count .TRK_CNT_STALE 0 0 1 else s
  | none =>
  if e.gen != s.genOf e.id then s.count .TRK_CNT_STALE 0 0 1
  else
    let backup := if s.isOn .ENC_SEL_on_backup then 2 ^ 11 else 0
    let r : TrkRec := {
      span := false, id := e.id, gen := e.gen, state := state, cls := e.cls % 16, flags := if state == 1 then 2 ^ flInView else 0,
      reasons := backup, ctx := e.ctx, held := 0, table := true, banks := 0, pixels := e.pixels, first := e.first,
      last := e.last, colFirst := s.colOff e.ctx e.colFirst, colLast := s.colOff e.ctx e.colLast, commit := 0,
      opened := s.t64, digest := 0, resv := 0, lateCls := 0, lateDigest := 0, tVerdict := 0, tCommit := 0, tOn := 0,
      tOff := 0, deadline := false }
    let s := s.modTrk (fun t => { t with recs := t.recs ++ [{ r with commit := s.commitPoint r }] })
    let s := (s.count .TRK_CNT_OPENED 0 0 1).tableCreate e.id e.gen e.ctx (e.colLast + 1 - e.colFirst)
    s.setReasons false e.id (s.noticeReasons r)

/-- CONT and CLOSE (R357). -/
def State.recUpdate (s : State) (e : PartEntry) (close : Bool) : State :=
  match s.partRec false e.id with
  | none => s.count .TRK_CNT_STALE 0 0 1
  | some r =>
    if r.state == 7 || e.gen != r.gen then s.count .TRK_CNT_STALE 0 0 1
    else
      let r' : TrkRec := { r with
        first := e.first, last := e.last, colFirst := s.colOff r.ctx e.colFirst, colLast := s.colOff r.ctx e.colLast,
        pixels := e.pixels }
      let moved := r'.first != r.first || r'.last != r.last || r'.colFirst != r.colFirst || r'.colLast != r.colLast
      let r' := if close then
          let x := { r' with state := if r.state == 1 then 2 else r.state }.flag flInView false
          if e.cut then x.flag flCut else x
        else r'
      let s := s.modRec false e.id (fun _ => r')
      let s := if moved then s.recGrown false e.id else s.reserve false e.id
      s.recCheck false e.id

/-- MERGED (R358). -/
def State.recMerge (s : State) (e : PartEntry) : State :=
  match s.partRec false e.id with
  | none => s.count .TRK_CNT_STALE 0 0 1
  | some a =>
    if a.state == 7 || e.gen != a.gen then s.count .TRK_CNT_STALE 0 0 1
    else
      let s := match s.partRec false e.into with
        | none => s
        | some v =>
          if v.state == 7 then s
          else
            let s := s.modRec false e.into (fun v => { v with
              first := min v.first a.first, last := max v.last a.last, colFirst := min v.colFirst a.colFirst,
              colLast := max v.colLast a.colLast, reasons := v.reasons ||| a.reasons,
              pixels := (v.pixels + a.pixels) % 2 ^ 32 })
            let moved := a.first < v.first || v.last < a.last || a.colFirst < v.colFirst || v.colLast < a.colLast
            if moved then s.recGrown false e.into else s.reserve false e.into
      if a.early then
        (s.modRec false e.id (fun r => { r.flag flMerged with held := 0 })).recDone false e.id
      else (s.modRec false e.id (fun r => r.flag flInView false)).recCheck false e.id

/-- Open a new span over an interval (R362). -/
def State.spanOpen (s : State) (ctx : Nat) (first last : Int) : State :=
  match (List.range 64).find? (fun n => (s.partRec true n).isNone) with
  | none => (s.count .TRK_CNT_SPAN_LOST 0 0 1).raise ⟨.trk, 0⟩ 1
  | some n =>
    let backup := if s.isOn .ENC_SEL_on_backup then 2 ^ 11 else 0
    let r : TrkRec := {
      span := true, id := n, gen := 0, state := 1, cls := s.get .TRK_CFG_default_class, flags := 2 ^ flDefaulted,
      reasons := 2 ^ 5 + backup, ctx := ctx, held := 0, table := false, banks := 0, pixels := 0, first := first,
      last := last, colFirst := 0, colLast := 0, commit := 0, opened := s.t64, digest := 0, resv := 0, lateCls := 0,
      lateDigest := 0, tVerdict := 0, tCommit := 0, tOn := 0, tOff := 0, deadline := false }
    let s := s.modTrk (fun t => { t with recs := t.recs ++ [{ r with commit := s.commitPoint r }] })
    ((s.count .TRK_CNT_SPAN 0 0 1).raise ⟨.trk, 0⟩ 0).setReasons true n (s.noticeReasons r)

/-- A SPAN or overflow interval (R362). -/
def State.spanTake (s : State) (ctx : Nat) (first last : Int) : State :=
  let gap : Int := s.get .TRK_CFG_span_gap
  let mine := s.trk.recs.filter (fun r => r.span && r.ctx == ctx)
  match (mine.filter TrkRec.early).getLast? with
  | some r =>
    if first ≤ s.recEnd r + gap then
      (s.modRec true r.id (fun r => { r with first := min r.first first, last := max r.last last })).recGrown true r.id
    else s.spanOpen ctx first last
  | none =>
    match mine.getLast? with
    | some r =>
      if first ≤ s.recEnd r + gap then s.spanOpen ctx (s.recEnd r) (max last (s.recEnd r))
      else s.spanOpen ctx first last
    | none => s.spanOpen ctx first last

/-! ## Verdicts (R363 to R365, R372) -/

/-- A verdict reaches TRK. -/
def State.trkVerdict (s : State) (v : VerdictMsg) (peer : Bool) : State :=
  match s.partRec false v.id with
  | none => (s.count .TRK_CNT_STALE 0 0 1).raise ⟨.trk, 0⟩ 2 v.id
  | some r =>
    if r.state == 7 || r.gen != v.gen then (s.count .TRK_CNT_STALE 0 0 1).raise ⟨.trk, 0⟩ 2 v.id
    else if 5 ≤ r.state || s.atCommit r then
      ((s.modRec false v.id (fun r => { r with
        reasons := r.reasons ||| 2 ^ 8, lateCls := v.cls, lateDigest := v.digest })).count .EJT_CNT_LATE_CHANGE 0 0
        1).raise ⟨.ejt, 0⟩ 0
    else if !v.final && r.held == 2 then s.count .TRK_CNT_ARM_IGNORED 0 0 1
    else
      let s := s.modRec false v.id (fun r =>
        let r := { r with
          state := if v.final then 4 else 3, held := if v.final then 2 else 1, cls := v.cls, digest := v.digest,
          tVerdict := s.t64 }
        if peer then r.flag flPeer else r)
      s.reserve false v.id

/-! ## Direct outputs (R396, R398, R400) -/

/-- The commanded levels of the direct outputs (R396). -/
def State.foCommand (s : State) : Nat :=
  let src := s.get .FIO_OUT_SRC
  (s.get .FIO_OUT_SET &&& src) ||| (s.get .EJT_VALVES_FO &&& (65535 - src))

/-- Drive the direct outputs after a change (R398, R400): safe levels while held; after a release each follows its
command from the first tick on which the two are equal. -/
def State.foUpdate (s : State) : State :=
  let cmd := s.foCommand
  let safe := s.get .FIO_SAFE_FO
  let old := s.get .FIO_OUT_PIN_drive
  let held := s.isOn .FIO_SAFE_held
  let fol := if held then 0 else s.get .FIOX_FOLLOW_FO ||| (65535 - (cmd ^^^ safe))
  let lev := if s.isOn .FIOX_SAFE_LOW then 0 else if held then safe else (cmd &&& fol) ||| (safe &&& (65535 - fol))
  let s := (s.set .FIOX_FOLLOW_FO 0 0 fol).set .FIO_OUT_PIN_drive 0 0 lev
  s.forEach (onesOf 16 (lev ^^^ old)) (fun s k => s.set .FIOX_CHANGED 0 k (s.tick + 1))

/-! ## Valves (R376 to R383) -/

/-- A valve's entry, if it has been commanded. -/
def State.valve (s : State) (path num : Nat) : Option Valve := s.trk.valves.find? (fun v => v.path == path && v.num == num)

/-- Show a valve's commanded state in EJT_VALVES. -/
def State.showValve (s : State) (path num : Nat) (on : Bool) : State :=
  if path == 4 then (s.set .EJT_VALVES_FO 0 0 (putBit (s.get .EJT_VALVES_FO) num on)).foUpdate
  else s.set .EJT_VALVES_VP 0 path (putBit (s.get .EJT_VALVES_VP 0 path) num on)

/-- Replace a valve's entry. -/
def State.putValve (s : State) (v : Valve) : State :=
  s.modTrk (fun t => { t with valves := t.valves.filter (fun x => !(x.path == v.path && x.num == v.num)) ++ [v] })

/-- Command a valve now. -/
def State.valveNow (s : State) (path num : Nat) (on : Bool) : State :=
  (s.putValve ⟨path, num, on, s.tick, 0, 0⟩).showValve path num on

/-- Does a firing name the valve? -/
def Firing.names (f : Firing) (path num : Nat) : Bool := f.path == path && f.lo ≤ num && num ≤ f.hi

/-- The firings on a valve. -/
def State.firingsOn (s : State) (path num : Nat) : List Firing := s.trk.firings.filter (fun f => f.names path num)

/-- A minimum time of a valve in ticks (R378, R381): whole frames on a valve port. -/
def minTicks (path us : Nat) : Nat := if path == 4 then us * 400 else ceilDiv (us * 400) 1440 * 1440

/-- Does a bank use a valve, by the settings that are active? -/
def State.sharesValve (s : State) (b path num : Nat) : Bool :=
  s.isOn .EJT_BANK_CFG_enable 0 b && s.bankPath b == path && s.get .EJT_BANK_CFG_first 0 b ≤ num &&
  num < s.get .EJT_BANK_CFG_first 0 b + s.get .EJT_BANK_CFG_count 0 b

/-- The larger of the minimum times of the banks that share a valve (R378): as the firings captured them, and the active ones of banks
without a firing there. -/
def State.minOver (s : State) (path num : Nat) (fs : List Firing) (pick : Firing → Nat) (set : Fld) : Nat :=
  ((List.range 8).filter (fun b => s.sharesValve b path num && !fs.any (fun f => f.bank == b))).foldl (fun m b => max m (s.get set 0 b))
    (fs.foldl (fun m f => max m (pick f)) 0)

/-- min_on and min_off of a valve in µs. -/
def State.minOnUs (s : State) (path num : Nat) : Nat :=
  s.minOver path num ((s.firingsOn path num).filter (fun f => f.phase != 0)) Firing.minOn .EJT_BANK_MIN_on_us
def State.minOffUs (s : State) (path num : Nat) : Nat :=
  s.minOver path num ((s.firingsOn path num).filter (fun f => f.phase == 1)) Firing.minOff .EJT_BANK_MIN_off_us

/-- Mark the records of the firings on a valve. -/
def State.markFirings (s : State) (path num fl : Nat) : State :=
  s.forEach ((s.firingsOn path num).filter (fun f => f.phase != 0)) (fun s f =>
    s.modRec f.span f.id (fun r => r.flag fl))

/-- A valve shall be on (R377, R378). -/
def State.valveOn (s : State) (path num : Nat) : State :=
  let minOff := minTicks path (s.minOffUs path num)
  match s.valve path num with
  | none => s.valveNow path num true
  | some v =>
    if v.on then s.putValve { v with owed := 0, due := 0 }
    else if v.owed == 1 then s
    else if s.tick < v.since + minOff then
      (((s.putValve { v with owed := 1, due := v.since + minOff }).count .EJT_CNT_STRETCH 0 0 1).pmc 0x34 0 1 none).markFirings path num
        flStretched
    else s.valveNow path num true

/-- A valve need not be on any longer (R377, R378). -/
def State.valveOff (s : State) (path num : Nat) : State :=
  let minOn := minTicks path (s.minOnUs path num)
  match s.valve path num with
  | none => s
  | some v =>
    if !v.on then s
    else if s.tick < v.since + minOn then
      (((s.putValve { v with owed := 2, due := v.since + minOn }).count .EJT_CNT_STRETCH 0 0 1).pmc 0x34 0 1 none).markFirings path num
        flStretched
    else s.valveNow path num false

/-- The valves of a firing. -/
def Firing.valves (f : Firing) : List Nat := (List.range (f.hi + 1 - f.lo)).map (fun i => f.lo + i)

/-- A firing, changed. -/
def State.modFiring (s : State) (span : Bool) (id bank : Nat) (g : Firing → Firing) : State :=
  s.modTrk (fun t => { t with firings := t.firings.map (fun f =>
    if f.span == span && f.id == id && f.bank == bank then g f else f) })

/-- The firing of a record in a bank. -/
def State.firing (s : State) (span : Bool) (id bank : Nat) : Option Firing :=
  s.trk.firings.find? (fun f => f.span == span && f.id == id && f.bank == bank)

/-- Take a firing from the queue; a record without firings left is FIRED (R356, R376). -/
def State.dropFiring (s : State) (span : Bool) (id bank : Nat) : State :=
  let s := s.modTrk (fun t => { t with firings := t.firings.filter (fun f =>
    !(f.span == span && f.id == id && f.bank == bank)) })
  s.recCheck span id

/-- Firings past their off point leave the queue when no valve of theirs owes a command or is on for them (R376). -/
def State.endFirings (s : State) : State :=
  s.forEach (s.trk.firings.filter (fun f => f.phase == 2)) (fun s f =>
    let busy := f.valves.any (fun n => match s.valve f.path n with
      | some v => v.owed != 0
      | none => false)
    if busy then s
    else (s.modRec f.span f.id (fun r => { r with tOff := s.t64 })).dropFiring f.span f.id f.bank)

/-- The belt reaches a firing's on point (R377, R383). -/
def State.firingOn (s : State) (f : Firing) : State :=
  let s := s.modFiring f.span f.id f.bank (fun f => { f with phase := 1 })
  let s := s.modRec f.span f.id (fun r =>
    let r := if r.tOn == 0 then { r with tOn := s.t64 } else r
    if s.isOn .FIO_SAFE_held then r.flag flSafeHeld else r)
  s.forEach f.valves (fun s n => s.valveOn f.path n)

/-- Is another firing on over the valve? -/
def State.valveWanted (s : State) (path num : Nat) : Bool := (s.firingsOn path num).any (fun f => f.phase == 1)

/-- The belt reaches a firing's off point (R377). -/
def State.firingOff (s : State) (f : Firing) : State :=
  let s := s.modFiring f.span f.id f.bank (fun f => { f with phase := 2 })
  let s := s.forEach f.valves (fun s n => if s.valveWanted f.path n then s else s.valveOff f.path n)
  s.endFirings

/-- A held command of a valve is issued (R378). -/
def State.valveDue (s : State) (v : Valve) : State :=
  let s := if v.owed == 1 then
      let s := s.valveNow v.path v.num true
      if s.valveWanted v.path v.num then s else s.valveOff v.path v.num
    else s.valveNow v.path v.num false
  s.endFirings

/-- A valve has been on for its limit (R379): it is commanded off and its firings end. -/
def State.valveMaxOn (s : State) (path num : Nat) : State :=
  let fs := (s.firingsOn path num).filter (fun f => f.phase != 0)
  let s := ((s.count .EJT_CNT_MAXON 0 0 1).raise ⟨.ejt, 0⟩ 3).markFirings path num flMaxOn
  let s := s.valveNow path num false
  let s := s.forEach fs (fun s f => s.modFiring f.span f.id f.bank (fun f => { f with phase := 2 }))
  let s := s.forEach fs (fun s f => s.forEach f.valves (fun s n =>
    if s.valveWanted f.path n then s else s.valveOff f.path n))
  s.endFirings

/-- Records with a firing on while FIO holds the outputs (R383). -/
def State.markSafeHeld (s : State) : State :=
  s.forEach (s.trk.firings.filter (fun f => f.phase != 0)) (fun s f => s.modRec f.span f.id (fun r => r.flag flSafeHeld))

/-! ## Commit (R371, R374 to R376) -/

/-- The class that a commit fixes (R371). -/
def State.commitClass (s : State) (r : TrkRec) : TrkRec × Bool :=
  if r.reasons % 64 != 0 then ({ r with cls := s.get .TRK_CFG_default_class }.flag flDefaulted, false)
  else if r.held == 2 then (r, false)
  else if r.held == 1 then (r.flag flProvisional, false)
  else ({ r with cls := s.get .TRK_CFG_default_class, reasons := r.reasons ||| 1 }.flag flDefaulted, true)

/-- Queue the firing of a record in bank `b` (R376, R382). -/
def State.queueFiring (s : State) (r : TrkRec) (b : Nat) : State :=
  let path := s.bankPath b
  let reserved := bit r.resv b
  match s.valveRange b r with
  | none => s
  | some v =>
    if path != 4 && bit (s.get .EJTX_VP_SAFE) path then s.modRec r.span r.id (fun r => r.flag flFireLost)
    else if !reserved && 8192 ≤ s.queueUsed then
      ((s.modRec r.span r.id (fun r => r.flag flFireLost)).count .EJT_CNT_QFULL 0 0 1).raise ⟨.ejt, 0⟩ 2
    else
      let f : Firing := {
        span := r.span, id := r.id, bank := b, path := path, lo := v.1, hi := v.2, start := r.first + s.bankReach b,
        stop := s.recEnd r + sext 32 (s.get .EJT_BANK_DIST 0 b) + s.get .EJT_BANK_MARGIN_post 0 b,
        mech := s.get .EJT_BANK_MECH 0 b, minOn := s.get .EJT_BANK_MIN_on_us 0 b,
        minOff := s.get .EJT_BANK_MIN_off_us 0 b, maxOn := s.get .EJT_BANK_MAXON 0 b, phase := 0 }
      let s := s.modTrk (fun t => { t with firings := t.firings ++ [f] })
      let s := s.modRec r.span r.id (fun r => { r with
        banks := r.banks ||| 2 ^ b, resv := if reserved then r.resv - 2 ^ b else r.resv })
      ((s.count .EJT_CNT_FIRE 0 0 1).pmc 0x33 b 1 none).notePeak

/-- A record commits (R371, R374, R376). -/
def State.recCommit (s : State) (r : TrkRec) : State :=
  let cc := s.commitClass r
  let r' := { cc.1 with state := 5, commit := s.commitPoint r, tCommit := s.t64 }
  let r' := if r'.has flInView then r'.flag flFireTrunc else r'
  let s := s.modRec r.span r.id (fun _ => r')
  let s := if cc.2 then ((s.count .TRK_CNT_LATE 0 0 1).pmc 0x31 0 1 (s.owner ⟨.capCtx, r.ctx⟩)).raise ⟨.trk, 0⟩ 3 else s
  let bs := (List.range 8).filter (fun b => s.bankOn b && bit (s.classMask r'.cls) b)
  let s := s.forEach bs (fun s b => s.queueFiring ((s.partRec r.span r.id).getD r') b)
  (s.modRec r.span r.id (fun r => { r with resv := 0 })).recCheck r.span r.id

/-! ## Loss of the belt and of a port (R382, R384) -/

/-- Every firing that names a valve port is lost (R382). -/
def State.portLost (s : State) (port : Nat) : State :=
  let fs := s.trk.firings.filter (fun f => f.path == port)
  let s := s.set .EJTX_VP_SAFE 0 0 (putBit (s.get .EJTX_VP_SAFE) port true)
  let s := s.forEach fs (fun s f => s.modRec f.span f.id (fun r => r.flag flFireLost))
  let s := s.modTrk (fun t => { t with
    firings := t.firings.filter (fun f => f.path != port), valves := t.valves.filter (fun v => v.path != port) })
  let s := s.set .EJT_VALVES_VP 0 port 0
  (s.forEach fs (fun s f => s.recCheck f.span f.id)).reserveAll

/-- BELT_LOST (R384): every valve off, every firing and reservation discarded, every record DONE. -/
def State.beltAbandon (s : State) : State :=
  let s := s.modTrk (fun t => { t with
    firings := [], valves := t.valves.map (fun v => { v with on := false, since := s.tick, owed := 0, due := 0 }) })
  let s := s.forEach (List.range 4) (fun s n => s.set .EJT_VALVES_VP 0 n 0)
  let s := ((s.set .EJT_VALVES_FO 0 0 0).foUpdate).set .EJTX_LOST 0 0 1
  let s := s.forEach (s.trk.recs.filter (fun r => r.state != 7)) (fun s r =>
    (s.modRec r.span r.id (fun r => r.flag flBeltLost)).recDone r.span r.id)
  s.raise ⟨.trk, 0⟩ 6

end Sys2Proof.Machine
end

