-- ==== Sys2Proof/Machine/Upset.lean ====
section
/-!
DEFINITION. Machine/Upset.lean: fault buckets (R501, R502), what every permanent instance takes (R503, R504), and the errors of
HBM (R312 to R315, R319).
-/
namespace Sys2Proof.Machine

/-- The page of an instance of a channel type, where it has one (R501). -/
def faultPage (t i : Nat) : Option PageId :=
  match t with
  | 0 => some ⟨.memPc, i⟩ | 1 => some ⟨.lan, i⟩ | 2 => some ⟨.clu, i⟩ | 3 => some ⟨.enc, i⟩ | _ => none

/-- How many instances a channel type has (R501). -/
def faultCount (t : Nat) : Nat :=
  match t with
  | 0 => 64 | 1 => 24 | 2 => 72 | 3 => 4 | 4 => 4 | 5 => 32 | _ => 0

/-- A fault bucket. -/
def State.bucket (s : State) (t i : Nat) : Nat := ((s.flt.buckets.find? (fun b => b.1 == (t, i))).map (fun b => b.2)).getD 0

/-- A fault bucket, set. -/
def State.setBucket (s : State) (t i b : Nat) : State :=
  let rest := s.flt.buckets.filter (fun x => x.1 != (t, i))
  { s with flt := { s.flt with buckets := if b = 0 then rest else rest ++ [((t, i), b)] } }

/-- An upset adds 1 to a bucket (R502): the new state, and whether the instance becomes permanent. -/
def State.addUpset (s : State) (t i : Nat) : State × Bool :=
  let b := s.bucket t i + 1
  let thr := s.get .MGT_FLT_CFG_thr 0 t
  (s.setBucket t i b, thr != 0 && thr ≤ b)

/-- A leak window of a type ends (R502). -/
def State.leak (s : State) (t : Nat) : State :=
  let l := s.flt.buckets.map (fun x => if x.1.1 == t then (x.1, x.2 - 1) else x)
  { s with flt := { s.flt with buckets := l.filter (fun x => x.2 != 0) } }

/-- What every permanent instance takes (R503, R504): CHANNEL_RETIRED, and a place in the retirement record. -/
def State.channelRetired (s : State) (t i : Nat) : State :=
  let s := { s with flt := { s.flt with unrecorded := s.flt.unrecorded ++ [(t, i, s.bucket t i)] } }
  s.raise ⟨.mgt, 0⟩ 2 (i + t * 2 ^ 8)

/-- A pseudo-channel is permanent (R319). -/
def State.pcRetire (s : State) (k : Nat) : State :=
  (((s.set (.STATUS_retired .memPc) k 0 1).set .MEM_RETIRED 0 0 (putBit (s.get .MEM_RETIRED) k true)).raise ⟨.memPc, k⟩ 4).channelRetired 0 k

/-- An upset of a pseudo-channel (R315, R502). -/
def State.pcUpset (s : State) (k : Nat) : State :=
  if s.isOn (.STATUS_retired .memPc) k then s
  else
    let r := s.addUpset 0 k
    if r.2 then r.1.pcRetire k else r.1

/-- An uncorrectable word at an HBM key is consumed (R313, R315): UE, or UE_LATENT for the scrubber. After ready, a
scrub is due at the next start (R485). -/
def State.ueFound (s : State) (key : Nat) (scrub : Bool) : State :=
  let k := key / 2 ^ 30
  let line := key % 2 ^ 30 / 64
  let s := (s.set .MEM_PC_ERR_ADDR_line k 0 line).set .MEM_PC_ERR_ADDR_ue k 0 1
  let s := if scrub then (s.count .MEM_PC_LATENT k 0 1).raise ⟨.memPc, k⟩ 2 line
    else (s.count .MEM_PC_UE k 0 1).raise ⟨.memPc, k⟩ 1 line
  let s := if s.isOn .MGT_STATUS_ready then { s with velvet := { s.velvet with scrubDue := true } } else s
  s.pcUpset k

/-- A correctable error of a line is met (R312, R315): counted, its write-back queued, and CE_THR once a window. -/
def State.ceFound (s : State) (key : Nat) : State :=
  let k := key / 2 ^ 30
  let l := key / 64
  let s := ((s.count .MEM_PC_CE k 0 1).set .MEM_PC_ERR_ADDR_line k 0 (key % 2 ^ 30 / 64)).set .MEM_PC_ERR_ADDR_ue k 0 0
  let s := { s with hbm := { s.hbm with soft := s.hbm.soft.filter (fun x => x != l)
                                        writeBacks := if s.hbm.writeBacks.contains l then s.hbm.writeBacks else s.hbm.writeBacks ++ [l] } }
  let n := s.get .PCX_WIN_CE k + 1
  let s := s.set .PCX_WIN_CE k 0 n
  if s.get .MEM_PC_CE_THR k ≤ n && !s.isOn .PCX_CE_DONE k then
    ((s.set .PCX_CE_DONE k 0 1).raise ⟨.memPc, k⟩ 0).pcUpset k
  else s

/-- The write-back of the oldest line that waits for a pseudo-channel reaches it (R312). -/
def State.writeBack (s : State) (k : Nat) : State :=
  match s.hbm.writeBacks.find? (fun l => l * 64 / 2 ^ 30 == k) with
  | none => s
  | some l => ({ s with hbm := { s.hbm with writeBacks := s.hbm.writeBacks.filter (fun x => x != l) } }).count .MEM_PC_WB k 0 1

/-- The uncorrectable words, as HBM keys, among `n` bytes at a device address. -/
def State.badKeys (s : State) (a n : Nat) : List Nat :=
  (granules a n).flatMap (fun r => match s.keyOf r.1 with
    | none => []
    | some k => (s.hbm.bad.filter (fun w => k < w * 8 + 8 && w * 8 < k + r.2)).map (fun w => w * 8))

/-- The uncorrectable words of a run are consumed. -/
def State.consumeBad (s : State) (a n : Nat) : State := s.forEach (s.badKeys a n) (fun s k => s.ueFound k false)

end Sys2Proof.Machine
end

