-- ==== Sys2Proof/Machine/Capture.lean ====
section
/-!
DEFINITION. Machine/Capture.lean: CAP (R96 to R128): sources and enable checks, line triggers, pairing, stripes and
their closing, settling, the raw ring and its slots, peer stripes and reprocessing.
-/
namespace Sys2Proof.Machine

/-! ## Contexts and cameras -/

/-- The page of a capture context, and the shared page. -/
def capPage (c : Nat) : PageId := ⟨.capCtx, c⟩
def capShared : PageId := ⟨.cap, 0⟩

/-- A capture context since its enable. -/
def State.capCtx (s : State) (c : Nat) : CapCtxSt := s.cap.ctxs.getD c {}

/-- A capture context, changed. -/
def State.modCtx (s : State) (c : Nat) (f : CapCtxSt → CapCtxSt) : State :=
  { s with cap := { s.cap with ctxs := listMod s.cap.ctxs c f } }

/-- One camera. -/
def State.cam (s : State) (n : Nat) : CamSt := s.cap.cams.getD n {}

/-- One camera, changed. -/
def State.modCam (s : State) (n : Nat) (f : CamSt → CamSt) : State :=
  { s with cap := { s.cap with cams := listMod s.cap.cams n f } }

/-- The origin of a camera's trigger grid (R100). -/
def State.camOrigin (s : State) (n : Nat) : Int :=
  sext 48 (s.get .CAP_TRIG_ORIGIN_low 0 n + 2 ^ 32 * s.get .CAP_TRIG_ORIGIN_high 0 n)

/-- The trigger period, never 0 (R126). -/
def State.camPeriod (s : State) (n : Nat) : Nat := max 1 (s.get .CAP_TRIG_PERIOD 0 n)

/-- Samples per line of a camera. -/
def State.camWidth (s : State) (n : Nat) : Nat := s.get .CAP_CAM_FMT_width 0 n + 1

/-- Bits per sample for a code (R121). -/
def sampleBits (code : Nat) : Nat := 8 + 2 * code

/-- The members that a context's registers name: cameras and offsets (R96, R113). -/
def State.ctxMembers (s : State) (c : Nat) : List (Nat × Int) :=
  match s.get .CAP_CTX_SRC_kind c with
  | 0 => [(s.get .CAP_CTX_SRC_cam c, 0)]
  | 1 =>
    let ms := [s.get .CAP_GRP_MEMBERS_m0 c, s.get .CAP_GRP_MEMBERS_m1 c, s.get .CAP_GRP_MEMBERS_m2 c,
      s.get .CAP_GRP_MEMBERS_m3 c].take (s.get .CAP_GRP_MEMBERS_count c + 1)
    (List.range ms.length).map (fun m => (ms.getD m 0, sext 32 (s.get .CAP_GRP_OFFSET c m)))
  | _ => []

/-- The running contexts that a camera feeds, with the member it is in each. -/
def State.camFeeds (s : State) (n : Nat) : List (Nat × Nat) :=
  (List.range 64).flatMap (fun c =>
    if (s.capCtx c).running then
      (((s.capCtx c).mems.map (fun m => m.1)).zipIdx.filter (fun x => x.1 == n)).map (fun x => (c, x.2))
    else [])

/-- The enabled contexts whose settings name a camera (R97, R99). -/
def State.camEnabledIn (s : State) (n : Nat) : List Nat :=
  (List.range 64).filter (fun c => s.isOn (.CTRL_enable .capCtx) c && (s.ctxMembers c).any (fun m => m.1 == n))

/-! ## Enable checks (R97, R113, R120) -/

/-- The delivered column window of a CAMERA context: first column and width (R97). -/
def State.ctxWindow (s : State) (c cam : Nat) : Nat × Nat :=
  if s.get .CAP_CTX_SRC_kind c == 0 then
    let first := s.get .CAP_CTX_WIN_col_first c
    let w := s.get .CAP_CTX_WIN_width c
    (first, if w = 0 then s.camWidth cam - first else w)
  else (0, s.camWidth cam)

/-- Does the ring break R120? -/
def State.ringBreaks (s : State) (c : Nat) : Bool :=
  let base := s.get .CAP_RING_BASE c
  let kib := s.get .CAP_RING_CFG_slot_kib c
  let slots := s.get .CAP_RING_CFG_slots c
  base == 0 || kib == 0 || slots < 2 || kib % 4 != 0 || base % 4096 != 0 ||
  !s.ownerHas (capPage c) base (kib * 1024 * slots)

/-- Does the source break R97 or R113? -/
def State.sourceBreaks (s : State) (c : Nat) : Bool :=
  let ms := s.ctxMembers c
  let others (n : Nat) := (s.camEnabledIn n).filter (fun d => d != c)
  let groupUse (n : Nat) := (others n).any (fun d => s.get .CAP_CTX_SRC_kind d == 1)
  match s.get .CAP_CTX_SRC_kind c with
  | 0 =>
    let n := s.get .CAP_CTX_SRC_cam c
    let first := s.get .CAP_CTX_WIN_col_first c
    let w := s.get .CAP_CTX_WIN_width c
    11 < n || 4 ≤ (others n).length || groupUse n || s.camWidth n ≤ first || (w != 0 && s.camWidth n < first + w)
  | 1 =>
    let n0 := (ms.headD (0, 0)).1
    ms.length < 2 || ms.any (fun m => 11 < m.1) || !(ms.map (fun m => m.1)).Nodup
    || ms.any (fun m => !(others m.1).isEmpty || s.get .CAP_TRIG_MODE_mode 0 m.1 != 1
        || s.camPeriod m.1 != s.camPeriod n0 || s.camOrigin m.1 != s.camOrigin n0
        || m.2 % (s.camPeriod m.1 : Int) != 0)
    || 16 < (ms.map (fun m => s.get .CAP_CAM_FMT_channels 0 m.1)).foldl (· + ·) 0
  | 3 => 5 < s.get .CAP_CTX_SRC_peer_group c
  | _ => false

/-- Bytes of a row of a member (R121). -/
def rowBytes (width channels code : Nat) : Nat := ceilDiv (width * channels * sampleBits code) 512 * 64

/-- Data offsets of members with the given row bytes (R121), and the end of the last. -/
def dataOffsets (lines : Nat) (rows : List Nat) : List Nat × Nat :=
  rows.foldl (fun acc rb => (acc.1 ++ [acc.2], acc.2 + lines * rb)) ([], ceilDiv (0x100 + rows.length * lines * 16) 64 * 64)

/-- Bytes of a slot that one stripe of the configured source takes (R120, R121). -/
def State.sourceBytes (s : State) (c : Nat) : Nat :=
  (dataOffsets (s.get .CAP_STRIPE_CFG_lines c) ((s.ctxMembers c).map (fun m =>
    rowBytes (s.ctxWindow c m.1).2 (s.get .CAP_CAM_FMT_channels 0 m.1) (s.get .CAP_CAM_FMT_bits 0 m.1)))).2

/-- Channels that the configured source delivers (R155). -/
def State.sourceChannels (s : State) (c : Nat) : Nat :=
  if s.get .CAP_CTX_SRC_kind c ≤ 1 then
    ((s.ctxMembers c).map (fun m => s.get .CAP_CAM_FMT_channels 0 m.1)).foldl (· + ·) 0
  else 1

/-- The code of CAP's own checks at an enable (R97, R120), if any fails. -/
def State.capRefused (s : State) (c : Nat) : Option Nat :=
  if s.ringBreaks c then some 0x21
  else if s.sourceBreaks c then some 0x22
  else if s.get .CAP_CTX_SRC_kind c ≤ 1 && s.get .CAP_RING_CFG_slot_kib c * 1024 < s.sourceBytes c then some 0x22
  else none

/-! ## Opening stripes -/

/-- A part before any of its slots. -/
def freshPart (lines : Nat) : PartSt :=
  { rows := List.replicate lines .waiting, tags := List.replicate lines ⟨0, 0, 0⟩, closed := false, missing := false,
    fill := lines, paired := 0, extra := 0, settle := false, started := false, lastTick := none }

/-- The stripe of a window, if it is open. -/
def CapCtxSt.stripe (x : CapCtxSt) (win : Int) : Option OpenStripe := x.opens.find? (fun o => o.win == win)

/-- A part of the stripe of a window, changed. -/
def CapCtxSt.modPart (x : CapCtxSt) (win : Int) (m : Nat) (f : PartSt → PartSt) : CapCtxSt :=
  { x with opens := x.opens.map (fun o => if o.win == win then { o with parts := listMod o.parts m f } else o) }

/-- Open the stripe of a window unless it is open or past. -/
def CapCtxSt.openWin (x : CapCtxSt) (win : Int) : CapCtxSt :=
  let past := match x.doneWin with
    | some d => win ≤ d
    | none => false
  if past || (x.stripe win).isSome then x
  else { x with opens := x.opens ++ [{ win := win, parts := x.mems.map (fun _ => freshPart x.lines), arrivals := [],
                                        emptyGens := none }] }

/-- The window and row of slot `k` for member `m` of a context (R107, R113); none before the first slot. -/
def CapCtxSt.place (x : CapCtxSt) (c m : Nat) (k : Int) : Option Place :=
  match x.k0 with
  | none => none
  | some k0 =>
    let off := (x.mems.getD m (0, 0)).2
    let a := k - off / (x.period : Int) - k0
    if a < 0 then none else some ⟨c, m, a / (x.lines : Int), (a % (x.lines : Int)).toNat⟩

/-- The generations in force in a context (R20, R53). -/
def State.gensNow (s : State) (c : Nat) : Nat × Nat := (s.get (.GEN .capCtx) c, s.get (.GEN .lnpCtx) c)

/-! ## The slot format (R121) -/

/-- The 16 bytes of a tag. -/
def tagBytes (t : Tag) : List Nat := leBytes 8 (toU 64 t.pos) ++ leBytes 4 t.sec ++ leBytes 4 t.ns

/-- Samples packed least significant bit first, as one number. -/
def packSamples (b : Nat) : List Nat → Nat
  | [] => 0
  | x :: xs => x % 2 ^ b + 2 ^ b * packSamples b xs

/-- The bytes of a packed row. -/
def rowImage (m : MemberRec) (row : List Nat) : List Nat :=
  leBytes (rowBytes m.width m.channels m.bitsCode) (packSamples (sampleBits m.bitsCode) row)

/-- Row bytes of each member. -/
def StripeRec.rowSizes (r : StripeRec) : List Nat := r.members.map (fun m => rowBytes m.width m.channels m.bitsCode)

/-- Bytes of the slot that a stripe takes. -/
def StripeRec.size (r : StripeRec) : Nat := (dataOffsets r.lines r.rowSizes).2

/-- The member block at 0x40 + m * 0x20. -/
def memberBlock (m : MemberRec) (off : Nat) : List Nat :=
  leBytes 4 (m.cam + m.channels * 2 ^ 4 + m.bitsCode * 2 ^ 8 + m.fill * 2 ^ 16) ++
  leBytes 2 (m.width % 65536) ++ leBytes 2 (m.colFirst % 65536) ++ leBytes 4 off ++
  leBytes 4 (rowBytes m.width m.channels m.bitsCode) ++ leBytes 4 (toU 32 m.off) ++ leBytes 4 m.paired ++ leBytes 4 m.extra ++
  leBytes 4 0

/-- The 256-byte slot header. -/
def StripeRec.header (r : StripeRec) : List Nat :=
  let offs := (dataOffsets r.lines r.rowSizes).1
  leBytes 4 (1 + r.members.length * 2 ^ 8 + r.kind * 2 ^ 12) ++ leBytes 4 r.ctx ++ leBytes 4 r.no ++ leBytes 4 r.lines ++
  leBytes 4 (r.flags + r.missing * 2 ^ 8 + r.short * 2 ^ 12 + r.settling * 2 ^ 16) ++ leBytes 4 r.capGen ++ leBytes 4 r.lnpGen ++
  leBytes 4 0 ++ leBytes 8 (toU 64 r.s) ++ leBytes 8 (toU 64 r.e) ++ leBytes 4 r.period ++ List.replicate 12 0 ++
  (List.range 4).flatMap (fun m => match r.members[m]? with
    | some x => memberBlock x (offs.getD m 0)
    | none => List.replicate 32 0) ++
  leBytes 4 r.origCtx ++ leBytes 4 r.origNo ++ leBytes 4 r.origCapGen ++ leBytes 4 r.origLnpGen ++ List.replicate 48 0

/-- Everything of the slot behind the header, by offset. -/
def StripeRec.body (r : StripeRec) : List (Nat × List Nat) :=
  let offs := (dataOffsets r.lines r.rowSizes).1
  (0x100, r.members.flatMap (fun m => m.tags.flatMap tagBytes)) ::
  (List.range r.members.length).map (fun i => match r.members[i]? with
    | some m => (offs.getD i 0, m.rows.flatMap (rowImage m))
    | none => (0, []))

/-- A little-endian field of a byte list. -/
def leAt (l : List Nat) (off n : Nat) : Nat := ofLe ((l.drop off).take n)

/-- Samples unpacked from a row image. -/
def unpackSamples (b n : Nat) (row : List Nat) : List Nat :=
  let v := ofLe row
  (List.range n).map (fun i => (v >>> (b * i)) % 2 ^ b)

/-- A tag from its 16 bytes. -/
def tagOf (l : List Nat) : Tag := ⟨sext 64 (leAt l 0 8), leAt l 8 4, leAt l 12 4⟩

/-- The member at index `m` of a slot whose bytes `rd` reads by offset and length. -/
def slotMember (h : List Nat) (rd : Nat → Nat → List Nat) (lines m : Nat) : MemberRec :=
  let b := 0x40 + m * 0x20
  let w0 := leAt h b 4
  let wd := leAt h (b + 4) 2
  let off := leAt h (b + 8) 4
  let rb := leAt h (b + 12) 4
  let ch := bits w0 7 4
  let code := bits w0 10 8
  let tg := rd (0x100 + m * lines * 16) (lines * 16)
  { cam := bits w0 3 0, channels := ch, bitsCode := code, fill := bits w0 24 16, width := wd, colFirst := leAt h (b + 6) 2,
    off := sext 32 (leAt h (b + 16) 4), paired := leAt h (b + 20) 4, extra := leAt h (b + 24) 4,
    tags := (List.range lines).map (fun r => tagOf (tg.drop (16 * r))),
    rows := (List.range lines).map (fun r => unpackSamples (sampleBits code) (wd * ch) (rd (off + r * rb) rb)) }

/-- Does a slot header pass the check of R123? -/
def slotOk (h : List Nat) (limit : Nat) : Bool :=
  let n := bits (leAt h 0 4) 10 8
  let lines := leAt h 0xC 4
  let mem (m : Nat) := 0x40 + m * 0x20
  let rbs := (List.range n).map (fun m =>
    let w0 := leAt h (mem m) 4
    rowBytes (leAt h (mem m + 4) 2) (bits w0 7 4) (bits w0 10 8))
  let ok (m : Nat) : Bool :=
    let w0 := leAt h (mem m) 4
    let off := leAt h (mem m + 8) 4
    let rb := leAt h (mem m + 12) 4
    bits w0 10 8 ≤ 4 && 1 ≤ bits w0 7 4 && bits w0 7 4 ≤ 4 && 1 ≤ leAt h (mem m + 4) 2 && off % 64 == 0 &&
    rb == rbs.getD m 0 && 0x100 + n * lines * 16 ≤ off && off + lines * rb ≤ limit
  leAt h 0 1 == 1 && 1 ≤ n && n ≤ 4 && 16 ≤ lines && lines ≤ 256 && (List.range n).all ok

/-- The stripe that a slot holds. -/
def slotParse (h : List Nat) (rd : Nat → Nat → List Nat) : StripeRec :=
  let n := bits (leAt h 0 4) 10 8
  let lines := leAt h 0xC 4
  let fl := leAt h 0x10 4
  { ctx := bits (leAt h 4 4) 5 0, no := leAt h 8 4, kind := bits (leAt h 0 4) 14 12, lines := lines, flags := bits fl 5 0,
    missing := bits fl 11 8, short := bits fl 15 12, settling := bits fl 19 16, capGen := leAt h 0x14 4,
    lnpGen := leAt h 0x18 4, s := sext 64 (leAt h 0x20 8), e := sext 64 (leAt h 0x28 8), period := leAt h 0x30 2,
    members := (List.range n).map (slotMember h rd lines), origCtx := bits (leAt h 0xC0 4) 5 0, origNo := leAt h 0xC4 4,
    origCapGen := leAt h 0xC8 4, origLnpGen := leAt h 0xCC 4 }

/-! ## The ring (R120, R122, R132) -/

/-- The device address of a ring slot. -/
def State.ringAddr (s : State) (c no : Nat) : Nat :=
  s.get .CAP_RING_BASE c + no % max 1 (s.get .CAP_RING_CFG_slots c) * (s.get .CAP_RING_CFG_slot_kib c * 1024)

/-- Is a number in the hold window (R120)? -/
def State.ringHeld (s : State) (c no : Nat) : Bool :=
  (no + 2 ^ 32 - s.get .CAP_RING_HOLD_FIRST c) % 2 ^ 32 < s.get .CAP_RING_HOLD_COUNT c

/-- Does LNP still have to read the stripe (R132)? -/
def State.lnpHolds (s : State) (c no : Nat) : Bool :=
  (s.lnp.ctxs.getD c {}).stripes.any (fun x => x.stripe.no == no) || s.lnp.busy.any (fun b => b.ctx == c && b.stripe.stripe.no == no) ||
  s.lnp.notices.any (fun r => r.ctx == c && r.no == no)

/-- Can the slot of stripe `no` not be overwritten (R27, R120, R132)? -/
def State.ringBusy (s : State) (c no : Nat) : Bool :=
  let slot := no % max 1 (s.get .CAP_RING_CFG_slots c)
  (s.capCtx c).ring.any (fun r => r.slot == slot && (r.spilled || s.ringHeld c r.no || s.lnpHolds c r.no))

/-- The reasons of a stripe's condition (R118). -/
def stripeReasons (r : StripeRec) : Nat :=
  (if bit r.flags 0 then 2 ^ 2 else 0) + (if r.missing != 0 then 2 ^ 3 else 0) + (if bit r.flags 2 then 2 ^ 9 else 0) +
  (if bit r.flags 3 then 2 ^ 10 else 0)

/-- A closed stripe takes its ring slot and goes to LNP, or is discarded (R27, R109, R118, R120). -/
def State.stripeOut (s : State) (r : StripeRec) : State :=
  let c := r.ctx
  let own := s.owner (capPage c)
  let s := (s.count .CAP_CNT_STRIPES c 0 1).pmc 0x04 c 1 own
  let s := if bit r.flags 0 then (s.count .CAP_CNT_SHORT c 0 1).pmc 0x05 c 1 own else s
  if s.ringBusy c r.no || s.get .CAP_RING_CFG_slot_kib c * 1024 < r.size then
    ((s.raise (capPage c) 3).count .CAP_CNT_DISCARD c 0 1).trkNotice c r.s r.e (stripeReasons r ||| 2 ^ 2)
  else
    let slot := r.no % max 1 (s.get .CAP_RING_CFG_slots c)
    let s := s.modCtx c (fun x => { x with
      ring := x.ring.filter (fun y => y.slot != slot) ++ [⟨slot, r.no, false, false⟩], writing := x.writing ++ [r] })
    { s with lnp := { s.lnp with notices := s.lnp.notices ++ [r] } }.trkNotice c r.s r.e (stripeReasons r)

/-- LNP could not correct a stripe: it counts as discarded (R138, R139). -/
def State.stripeLost (s : State) (r : StripeRec) : State :=
  if bit r.flags 4 then s.count .CAP_CNT_DISCARD r.ctx 0 1
  else (s.count .CAP_CNT_DISCARD r.ctx 0 1).trkNotice r.ctx r.s r.e (2 ^ 2)

/-- LNP spills a stripe: CAP sets its flag and sends a second notice (R119). -/
def State.stripeSpilled (s : State) (c no : Nat) (a e : Int) : State :=
  let waiting := (s.capCtx c).writing.any (fun r => r.no == no)
  let s := s.modCtx c (fun x => { x with
    ring := x.ring.map (fun y => if y.no == no then { y with spilled := true } else y),
    writing := x.writing.map (fun r => if r.no == no then { r with flags := r.flags ||| 8 } else r) })
  let s := if waiting then s
    else
      let addr := s.ringAddr c no + 0x10
      s.devWrite addr [(s.devRead addr 1).headD 0 ||| 8]
  s.trkNotice c a e (2 ^ 10)

/-- A spilled stripe is caught up or lost: its slot may be overwritten again (R27, R135). -/
def State.ringCaught (s : State) (c no : Nat) : State :=
  s.modCtx c (fun x => { x with ring := x.ring.map (fun y => if y.no == no then { y with spilled := false } else y) })

/-- The partition that owns a context's capture page. -/
def State.ctxPart (s : State) (c : Nat) : Option Nat := s.owner (capPage c)

/-- Write one stripe into its slot, header last (R121, R122). -/
def State.ringWrite (s : State) (r : StripeRec) : State :=
  let base := s.ringAddr r.ctx r.no
  let s := s.forEach r.body (fun s x => s.devWriteFor (s.ctxPart r.ctx) (base + x.1) x.2)
  let s := s.devWriteFor (s.ctxPart r.ctx) base r.header
  s.modCtx r.ctx (fun x => { x with ring := x.ring.map (fun y => if y.no == r.no then { y with written := true } else y) })

/-! ## Closing (R108 to R115, R117) -/

/-- The last row and tags of a member of the context's previous stripe (R110). -/
def CapCtxSt.prevRow (x : CapCtxSt) (m n : Nat) : List Nat × Tag :=
  ((x.last.getD m none).getD (List.replicate n 0, ⟨0, 0, 0⟩))

/-- The row of a part, or zeros where it has none. -/
def PartSt.row (p : PartSt) (r n : Nat) : List Nat :=
  match p.rows.getD r .waiting with
  | .filled v => v
  | _ => List.replicate n 0

/-- Samples in a delivered row of a member. -/
def State.rowSamples (s : State) (c m : Nat) : Nat :=
  let cam := (((s.capCtx c).mems).getD m (0, 0)).1
  (s.ctxWindow c cam).2 * s.get .CAP_CAM_FMT_channels 0 cam

/-- A part closes short at row `r` (R110): later rows repeat row r - 1, or the previous stripe's last row. -/
def PartSt.fillFrom (p : PartSt) (r : Nat) (prev : List Nat × Tag) (n : Nat) : PartSt :=
  let src := if r = 0 then prev else (p.row (r - 1) n, p.tags.getD (r - 1) ⟨0, 0, 0⟩)
  { p with
    rows := p.rows.take r ++ List.replicate (p.rows.length - r) (.filled src.1)
    tags := p.tags.take r ++ List.replicate (p.tags.length - r) src.2
    fill := r
    closed := true }

/-- The first row that is not filled, if it is empty and so ends the part (R110). -/
def PartSt.shortAt (p : PartSt) : Option Nat :=
  match p.rows.findIdx? (fun r => match r with
    | .filled _ => false
    | _ => true) with
  | some r => if p.rows.getD r .waiting == .empty then some r else none
  | none => none

/-- Is every row of a part filled? -/
def PartSt.full (p : PartSt) : Bool := p.rows.all (fun r => match r with
  | .filled _ => true
  | _ => false)

/-- Is a part short? -/
def PartSt.isShort (p : PartSt) : Bool := p.closed && !p.missing && p.fill < p.rows.length

/-- The generations of a stripe (R20). -/
def OpenStripe.gens (o : OpenStripe) (now : Nat × Nat) : Nat × Nat :=
  match o.arrivals with
  | g :: _ => (g.capGen, g.lnpGen)
  | [] => o.emptyGens.getD now

/-- The mask of the members whose part has a property. -/
def partMask (l : List PartSt) (q : PartSt → Bool) : Nat := maskOf ((List.range l.length).filter (fun m => match l[m]? with
  | some p => q p
  | none => false))

/-- The record of a stripe whose parts have all closed (R108, R121). -/
def State.stripeRec (s : State) (c : Nat) (o : OpenStripe) : StripeRec :=
  let x := s.capCtx c
  let g := o.gens (s.gensNow c)
  let grid := x.mode == 1
  let first := x.origin + (x.k0.getD 0 + o.win * x.lines) * x.period
  let tags : List Tag := (o.parts.headD (freshPart x.lines)).tags
  let a : Int := if grid then first else (tags.headD ⟨0, 0, 0⟩).pos
  let e := if grid then first + (x.lines : Int) * x.period else (tags.getLastD (⟨0, 0, 0⟩ : Tag)).pos + 1
  let short := partMask o.parts PartSt.isShort
  let settling := partMask o.parts (fun p => p.settle)
  let long := o.parts.any (fun p => p.extra != 0)
  { ctx := c, no := s.get .CAP_STRIPE_NO c, kind := x.kind, lines := x.lines,
    flags := b2n (short != 0) + 2 * b2n long + 4 * b2n (settling != 0),
    missing := partMask o.parts (fun p => p.missing), short := short, settling := settling, capGen := g.1, lnpGen := g.2,
    s := a, e := e, period := if grid then x.period else 0,
    members := (List.range o.parts.length).map (fun m =>
      let p := o.parts.getD m (freshPart x.lines)
      let cam := (x.mems.getD m (0, 0)).1
      { cam := cam, channels := s.get .CAP_CAM_FMT_channels 0 cam, bitsCode := s.get .CAP_CAM_FMT_bits 0 cam, fill := p.fill,
        width := (s.ctxWindow c cam).2, colFirst := (s.ctxWindow c cam).1, off := (x.mems.getD m (0, 0)).2,
        paired := p.paired, extra := p.extra, tags := p.tags,
        rows := (List.range x.lines).map (fun r => p.row r (s.rowSamples c m)) }),
    origCtx := 0, origNo := 0, origCapGen := 0, origLnpGen := 0 }

/-- The last row of each member, for the next stripe (R110). -/
def StripeRec.lastRows (r : StripeRec) : List (Option (List Nat × Tag)) :=
  r.members.map (fun m => some (m.rows.getLastD [], m.tags.getLastD ⟨0, 0, 0⟩))

/-- Close the stripe of a window: extra lines waiting for it are charged, it is numbered and handed on (R108, R109,
R111). -/
def State.stripeClose (s : State) (c : Nat) (o : OpenStripe) : State :=
  let x := s.capCtx c
  let o := { o with parts := (List.range o.parts.length).map (fun m =>
    let p := o.parts.getD m (freshPart x.lines)
    { p with extra := p.extra + x.extraNext.getD m 0 }) }
  let r := s.stripeRec c o
  let s := s.modCtx c (fun x => { x with
    opens := x.opens.filter (fun y => y.win != o.win)
    doneWin := some (max o.win (x.doneWin.getD o.win))
    shorts := if r.short = 0 then x.shorts else
      List.drop (x.shorts.length + 1 - 64) (x.shorts ++ [({ win := o.win, mask := r.short } : ShortWin)])
    last := r.lastRows
    extraNext := x.mems.map (fun _ => 0) })
  (s.countWrap .CAP_STRIPE_NO c 0 1).stripeOut r

/-- After a change of a part: it closes when full, or short at its first empty slot; the stripe closes when every part
has (R109, R110, R115). -/
def State.partCheck (s : State) (c m : Nat) (win : Int) : State :=
  match (s.capCtx c).stripe win with
  | none => s
  | some o =>
    let p := o.parts.getD m (freshPart 0)
    let s :=
      if p.closed then s
      else if p.full then s.modCtx c (fun x => x.modPart win m (fun p => { p with closed := true }))
      else match p.shortAt with
        | some r =>
          let n := s.rowSamples c m
          let prev := (s.capCtx c).prevRow m n
          (s.modCtx c (fun x => x.modPart win m (fun p => p.fillFrom r prev n))).raise (capPage c) 0
        | none => s
    match (s.capCtx c).stripe win with
    | none => s
    | some o => if o.parts.all (fun p => p.closed) then s.stripeClose c o else s

/-- A slot is triggered (R19, R103, R107, R114): the row's tags are those of the trigger tick. -/
def State.slotTriggered (s : State) (p : Place) (tag : Tag) : State :=
  s.modCtx p.ctx (fun x =>
    let x := x.openWin p.win
    x.modPart p.win p.mem (fun q => { q with
      tags := if q.closed then q.tags else listSet q.tags p.row tag
      started := true
      lastTick := if p.row + 1 == x.lines then some s.tick else q.lastTick }))

/-- A slot is found empty (R20, R103, R110). -/
def State.slotEmpty (s : State) (p : Place) : State :=
  let s := s.modCtx p.ctx (fun x =>
    let x := x.openWin p.win
    let x := x.modPart p.win p.mem (fun q => { q with
      rows := if q.closed then q.rows else listSet q.rows p.row .empty
      started := true
      lastTick := if p.row + 1 == x.lines && q.lastTick.isNone then some s.tick else q.lastTick })
    if p.row = 0 then
      { x with opens := x.opens.map (fun o =>
          if o.win == p.win && o.emptyGens.isNone then { o with emptyGens := some (s.gensNow p.ctx) } else o) }
    else x)
  s.partCheck p.ctx p.mem p.win

/-- A group's close time arrives (R114): open parts are missing and the stripe closes. -/
def State.groupTimeout (s : State) (c : Nat) (o : OpenStripe) : State :=
  let open' := (List.range o.parts.length).filter (fun m => !(o.parts.getD m (freshPart 0)).closed)
  let s := s.forEach open' (fun s m =>
    let n := s.rowSamples c m
    let s := s.modCtx c (fun x => x.modPart o.win m (fun p => { p with
      rows := p.rows.map (fun _ => .filled (List.replicate n 0)), closed := true, missing := true }))
    (s.count .CAP_CNT_STALE c 0 1).pmc 0x06 c 1 (s.owner (capPage c)))
  let s := if open'.isEmpty then s else s.raise (capPage c) 2
  match (s.capCtx c).stripe o.win with
  | some o => s.stripeClose c o
  | none => s

/-- The oldest open stripe of a GROUP context whose members' last slots are all past, with its close tick (R114). -/
def State.groupDue (s : State) (c : Nat) : Option (OpenStripe × Nat) :=
  if (s.capCtx c).kind != 1 then none
  else match (s.capCtx c).opens.find? (fun o => o.parts.all (fun p => p.lastTick.isSome)) with
    | some o => some (o, (o.parts.map (fun p => p.lastTick.getD 0)).foldl max 0 + s.get .CAP_GRP_ALIGN_align_us c * 400)
    | none => none

/-! ## Triggers (R99 to R103, R107) -/

/-- CAP issues the trigger of slot `k` of a camera (R19, R70, R71, R103). -/
def State.capTrigger (s : State) (n : Nat) (k : Int) : State :=
  let tag : Tag := ⟨s.beltPos, s.sec, s.ns⟩
  let now := s.sec * 10 ^ 9 + s.ns
  let r := s.sendTrigger n
  let s := r.1.countWrap .CAP_TRIG_CNT 0 n 1
  let places (s : State) := (s.camFeeds n).filterMap (fun f => (s.capCtx f.1).place f.1 f.2 k)
  let s := s.forEach (places s) (fun s p => s.slotTriggered p tag)
  if r.2 then
    s.modCam n (fun x => { x with wins := x.wins ++ [⟨k, tag, now + s.get .CAP_LINE_LAT_min 0 n * 10,
      now + s.get .CAP_LINE_LAT_max 0 n * 10⟩] })
  else s.forEach (places s) (fun s p => s.slotEmpty p)

/-- Grid slots passed over without a trigger (R101). -/
def State.capSkip (s : State) (n : Nat) (k cnt : Int) : State :=
  if cnt ≤ 0 then s
  else
    let s := (s.countWrap .CAP_TRIG_SKIP 0 n cnt.toNat).raise capShared 0
    s.forEach ((List.range cnt.toNat).map (fun (i : Nat) => k + (i : Int))) (fun s j =>
      s.forEach ((s.camFeeds n).filterMap (fun f => (s.capCtx f.1).place f.1 f.2 j)) (fun s p => s.slotEmpty p))

/-- The largest grid index at or below a position (R100). -/
def State.gridIndex (s : State) (n : Nat) (p : Int) : Int := fdiv (p - s.camOrigin n) (s.camPeriod n : Int)

/-- The belt position has changed: each ENCODER camera triggers at most once (R100, R101, R102). -/
def State.capPosition (s : State) : State :=
  s.forEach (List.range 12) (fun s n =>
    if s.get .CAP_TRIG_MODE_mode 0 n != 1 || (s.camFeeds n).isEmpty then s
    else match (s.cam n).h with
      | none => s
      | some h =>
        let k := s.gridIndex n s.beltPos
        let kh := s.gridIndex n h
        if k ≤ kh then s
        else
          let s := s.capSkip n (kh + 1) (k - kh - 1)
          (s.modCam n (fun x => { x with h := some (s.camOrigin n + k * (s.camPeriod n : Int)) })).capTrigger n k)

/-- A compare match triggers the cameras in TIME mode that name the unit (R99, R107). -/
def State.capTimeTrigger (s : State) (unit : Nat) : State :=
  s.forEach (List.range 12) (fun s n =>
    if s.get .CAP_TRIG_MODE_mode 0 n != 2 || s.get .CAP_TRIG_MODE_cmp 0 n != unit || (s.camFeeds n).isEmpty then s
    else
      let k := (s.cam n).timeSlot
      let s := s.forEach (s.camFeeds n) (fun s f => s.modCtx f.1 (fun x =>
        if x.k0.isNone then { x with k0 := some k } else x))
      (s.modCam n (fun x => { x with timeSlot := k + 1 })).capTrigger n k)

/-! ## Settling (R117) -/

/-- CAP_SETTLE.remaining: the largest count of a camera. -/
def State.settleLeft (s : State) (n : Nat) : Nat :=
  (s.camFeeds n).foldl (fun m f => max m ((s.capCtx f.1).settle.getD f.2 0)) 0

/-- Arm settling for a camera in one context: a part in assembly is counted first. -/
def State.settleCtx (s : State) (c m : Nat) : State :=
  let n := s.get .CAP_STRIPE_CFG_settle_stripes c
  let x := s.capCtx c
  match x.opens.find? (fun o => (o.parts.getD m (freshPart 0)).started && !(o.parts.getD m (freshPart 0)).closed) with
  | some o =>
    if n = 0 then s.modCtx c (fun x => { x with settle := listSet x.settle m 0 })
    else s.modCtx c (fun x => ({ x with settle := listSet x.settle m (n - 1) }).modPart o.win m (fun p =>
      { p with settle := true }))
  | none => s.modCtx c (fun x => { x with settle := listSet x.settle m n })

/-- Arm settling for a camera (R117). -/
def State.settleArm (s : State) (n : Nat) : State :=
  (s.forEach (s.camFeeds n) (fun s f => s.settleCtx f.1 f.2)).raise capShared 1

/-- The first line of a part: the stripe is counted while the count runs (R117). -/
def State.settleFirst (s : State) (p : Place) : State :=
  let n := (s.capCtx p.ctx).settle.getD p.mem 0
  match (s.capCtx p.ctx).stripe p.win with
  | none => s
  | some o =>
    let q := o.parts.getD p.mem (freshPart 0)
    let seen := o.arrivals.any (fun g => g.mem == p.mem)
    if n = 0 || q.settle || q.closed || seen then s
    else s.modCtx p.ctx (fun x => ({ x with settle := listSet x.settle p.mem (n - 1) }).modPart p.win p.mem (fun q =>
      { q with settle := true }))

/-! ## Lines (R103, R105, R106, R109 to R111) -/

/-- The pairing windows of a camera that have closed leave their slots empty (R103). -/
def State.expireDue (s : State) (n : Nat) : State :=
  let now := s.sec * 10 ^ 9 + s.ns
  let due := (s.cam n).wins.filter (fun w => w.closes ≤ now)
  let s := s.modCam n (fun x => { x with wins := x.wins.filter (fun w => now < w.closes) })
  s.forEach due (fun s w =>
    s.forEach ((s.camFeeds n).filterMap (fun f => (s.capCtx f.1).place f.1 f.2 w.slot)) (fun s p => s.slotEmpty p))

/-- A line takes its places: generations and settling (R20, R117). -/
def State.lineTakes (s : State) (ps : List Place) : State :=
  s.forEach ps (fun s p =>
    let s := s.modCtx p.ctx (fun x => x.openWin p.win)
    let s := s.settleFirst p
    let g := s.gensNow p.ctx
    s.modCtx p.ctx (fun x => { x with opens := x.opens.map (fun o =>
      if o.win == p.win then { o with arrivals := o.arrivals ++ [⟨p.mem, p.row, g.1, g.2⟩] } else o) }))

/-- The line of a FREE camera in one context: the frame it belongs to, its place in it, and whether it lies beyond L
(R105, R106, R110, R111). -/
def State.freeLine (s : State) (c m : Nat) (frameStart : Bool) (tag : Tag) : State × Option Place × Bool :=
  let x := s.capCtx c
  let start := frameStart && 0 < x.freeRow
  let s := if start && x.freeRow < x.lines then s.slotEmpty ⟨c, m, x.freeWin, x.freeRow⟩ else s
  let s := if start then s.modCtx c (fun x => { x with freeWin := x.freeWin + 1, freeRow := 0 }) else s
  let x := s.capCtx c
  let s := s.modCtx c (fun x => { x with freeRow := x.freeRow + 1 })
  if x.freeRow < x.lines then
    let p : Place := ⟨c, m, x.freeWin, x.freeRow⟩
    (s.slotTriggered p tag, some p, false)
  else (s, none, true)

/-- A raw camera whose frames are counted starts one every L lines (R106). -/
def State.countsFrames (s : State) (n c : Nat) : Bool :=
  s.camRaw n && !s.isOn .CAP_RAW_SOL_frame_en 0 n && (s.capCtx c).lines ≤ (s.capCtx c).freeRow

/-- A line takes the place it has at its arrival (R19, R103, R105). -/
def State.lineBegins (s : State) (n : Nat) (frameStart : Bool) : State :=
  if (s.camFeeds n).isEmpty then s.modCam n (fun x => { x with line := none })
  else if s.get .CAP_TRIG_MODE_mode 0 n == 0 then
    let tag : Tag := ⟨s.beltPos, s.sec, s.ns⟩
    let r := (s.camFeeds n).foldl (fun (acc : State × LineIn) f =>
      let fs := if s.camRaw n && !s.isOn .CAP_RAW_SOL_frame_en 0 n then acc.1.countsFrames n f.1 else frameStart
      let q := acc.1.freeLine f.1 f.2 fs tag
      (q.1, { acc.2 with places := acc.2.places ++ q.2.1.toList,
                         beyond := if q.2.2 then acc.2.beyond ++ [f] else acc.2.beyond }))
      (s, { tag := tag, places := [], beyond := [], noWindow := false })
    (r.1.lineTakes r.2.places).modCam n (fun x => { x with line := some r.2 })
  else
    let s := s.expireDue n
    let now := s.sec * 10 ^ 9 + s.ns
    match (s.cam n).wins.find? (fun w => w.opens ≤ now && now < w.closes) with
    | some w =>
      let ps := (s.camFeeds n).filterMap (fun f => (s.capCtx f.1).place f.1 f.2 w.slot)
      (s.lineTakes ps).modCam n (fun x => { x with
        wins := x.wins.erase w
        line := some { tag := w.tag, places := ps, beyond := [], noWindow := false } })
    | none => s.modCam n (fun x => { x with
        line := some { tag := ⟨s.beltPos, s.sec, s.ns⟩, places := [], beyond := [], noWindow := true } })

/-- The line being received is discarded (R66, R103): it empties the slots it took. -/
def State.lineDiscard (s : State) (n : Nat) : State :=
  match (s.cam n).line with
  | none => s
  | some l =>
    let s := s.modCam n (fun x => { x with line := none })
    let s := s.forEach l.places (fun s p => s.modCtx p.ctx (fun x => { x with opens := x.opens.map (fun o =>
      if o.win == p.win then { o with arrivals := o.arrivals.filter (fun g => !(g.mem == p.mem && g.row == p.row)) }
      else o) }))
    s.forEach l.places (fun s p => s.slotEmpty p)

/-- A line's first packet reaches CAP (R19, R103, R347); a raw line whose start word missed a lane is discarded at once (R106). -/
def State.lineArrives (s : State) (n : Nat) (frameStart startOk : Bool) : State :=
  if !s.camDelivers n then s
  else
    let s := (s.timCapture 3 n true s.sec s.ns s.beltPos).lineBegins n frameStart
    if s.camRaw n && !startOk then s.lineDiscard n else s

/-- An extra line is charged to a stripe of a context (R111). -/
def State.lineExtra (s : State) (c m : Nat) : State :=
  let s := (s.count .CAP_CNT_LONG c 0 1).raise (capPage c) 1
  match (s.capCtx c).opens.find? (fun o => !(o.parts.getD m (freshPart 0)).closed) with
  | some o => s.modCtx c (fun x => x.modPart o.win m (fun p => { p with extra := p.extra + 1 }))
  | none => s.modCtx c (fun x => { x with extraNext := listMod x.extraNext m (· + 1) })

/-- The samples of the columns that a context takes (R97). -/
def State.lineCut (s : State) (c n : Nat) (l : List Nat) : List Nat :=
  let w := s.ctxWindow c n
  let ch := s.get .CAP_CAM_FMT_channels 0 n
  ((l.drop (w.1 * ch)).take (w.2 * ch)).map (fun v => v % 2 ^ sampleBits (s.get .CAP_CAM_FMT_bits 0 n))

/-- A line fills its place, or comes after its part closed short (R109, R110, R114). -/
def State.lineFill (s : State) (n : Nat) (p : Place) (tag : Tag) (l : List Nat) : State :=
  let x := s.capCtx p.ctx
  match x.stripe p.win with
  | some o =>
    if (o.parts.getD p.mem (freshPart 0)).closed then s.count .CAP_CNT_AFTER_SHORT p.ctx 0 1
    else
      let v := s.lineCut p.ctx n l
      (s.modCtx p.ctx (fun x => x.modPart p.win p.mem (fun q => { q with
        rows := listSet q.rows p.row (.filled v), tags := listSet q.tags p.row tag, paired := q.paired + 1 }))).partCheck
        p.ctx p.mem p.win
  | none =>
    if x.shorts.any (fun w => w.win == p.win && bit w.mask p.mem) then s.count .CAP_CNT_AFTER_SHORT p.ctx 0 1 else s

/-- The last byte of a line arrives (R103, R109, R111, R126). -/
def State.lineDone (s : State) (n : Nat) (samples : List Nat) : State :=
  match (s.cam n).line with
  | none => s
  | some l =>
    if samples.length != s.camWidth n * s.get .CAP_CAM_FMT_channels 0 n then
      (s.count .CAP_CNT_BADLEN 0 n 1).lineDiscard n
    else
      let s := s.modCam n (fun x => { x with line := none })
      let s := if l.noWindow then s.forEach (s.camFeeds n) (fun s f => s.lineExtra f.1 f.2) else s
      let s := s.forEach l.beyond (fun s f => s.lineExtra f.1 f.2)
      s.forEach l.places (fun s p => s.lineFill n p l.tag samples)

/-! ## Enabling and stopping (R97, R100, R107, R108, R125) -/

/-- Enable a context whose checks have passed (R100, R107, R108, R117). -/
def State.capEnable (s : State) (c : Nat) : State :=
  let kind := s.get .CAP_CTX_SRC_kind c
  let ms := s.ctxMembers c
  let n0 := (ms.headD (0, 0)).1
  let L := s.get .CAP_STRIPE_CFG_lines c
  let mode := if ms.isEmpty then 0 else s.get .CAP_TRIG_MODE_mode 0 n0
  let alone := ms.filter (fun m => (s.camFeeds m.1).isEmpty)
  let k := ceilDiv' (s.beltPos - s.camOrigin n0) (s.camPeriod n0)
  let k0 : Option Int := if mode == 1 then some (ceilDiv' k L * L) else none
  let s := (s.set (.CTRL_enable .capCtx) c 0 1).set .CAP_STRIPE_NO c 0 0
  let s := s.modCtx c (fun x => {
    running := true, kind := kind, mems := ms, lines := L, mode := mode, period := s.camPeriod n0,
    origin := s.camOrigin n0, k0 := k0, last := ms.map (fun _ => none), settle := ms.map (fun _ => 0),
    extraNext := ms.map (fun _ => 0), writing := x.writing })
  let s := s.forEach alone (fun s m => s.modCam m.1 (fun x => { x with
    h := if s.get .CAP_TRIG_MODE_mode 0 m.1 == 1 then
        some (s.camOrigin m.1 + s.gridIndex m.1 s.beltPos * (s.camPeriod m.1 : Int)) else none
    wins := [], line := none }))
  s.forEach ms (fun s m => s.settleArm m.1)
where
  /-- Ceiling division of an integer. -/
  ceilDiv' (a : Int) (b : Nat) : Int := -fdiv (-a) (b : Int)

/-- Stop a context (R125): open stripes close short, or are abandoned when no line is paired. -/
def State.capStop (s : State) (c : Nat) : State :=
  if !(s.capCtx c).running then s
  else
    let s := s.forEach (s.capCtx c).opens (fun s o =>
      if o.parts.all (fun p => p.paired == 0) then
        s.modCtx c (fun x => { x with opens := x.opens.filter (fun y => y.win != o.win) })
      else
        let s := s.forEach (List.range o.parts.length) (fun s m =>
          match ((s.capCtx c).stripe o.win).bind (fun o => o.parts[m]?) with
          | none => s
          | some p =>
            if p.closed then s
            else
              let r := (p.rows.findIdx? (fun r => match r with
                | .filled _ => false
                | _ => true)).getD p.rows.length
              let n := s.rowSamples c m
              let prev := (s.capCtx c).prevRow m n
              (s.modCtx c (fun x => x.modPart o.win m (fun p => p.fillFrom r prev n))).raise (capPage c) 0)
        match (s.capCtx c).stripe o.win with
        | some o => s.stripeClose c o
        | none => s)
    let s := s.modCtx c (fun x => { x with running := false })
    s.forEach ((s.capCtx c).mems) (fun s m =>
      if (s.camFeeds m.1).isEmpty then s.modCam m.1 (fun x => { x with h := none, wins := [], line := none }) else s)

/-- Is the context at work: an open stripe or an unfinished ring write (R45, R125)? -/
def State.capActive (s : State) (c : Nat) : Bool :=
  ((s.capCtx c).running && !(s.capCtx c).opens.isEmpty) || !(s.capCtx c).writing.isEmpty

/-! ## Peer and memory sources (R122 to R124) -/

/-- A stripe from elsewhere becomes a stripe of this context (R122, R123). -/
def State.adopt (s : State) (c : Nat) (r : StripeRec) (flag : Nat) : StripeRec :=
  let g := s.gensNow c
  { r with
    ctx := c, no := s.get .CAP_STRIPE_NO c, kind := (s.capCtx c).kind, flags := r.flags ||| flag, capGen := g.1,
    lnpGen := g.2, origCtx := r.ctx, origNo := r.no, origCapGen := r.capGen, origLnpGen := r.lnpGen }

/-- A STRIPE message arrives (R122). -/
def State.peerStripe (s : State) (g : Nat) (m : PeerMsg) : State :=
  let h := m.payload.take 256
  let cs := (List.range 64).filter (fun c => (s.capCtx c).running && (s.capCtx c).kind == 3 &&
    s.get .CAP_CTX_SRC_peer_group c == g && s.get .CAP_CTX_SRC_peer_ctx c == bits m.tag 5 0)
  if !slotOk h m.payload.length then s
  else
    let r := slotParse h (fun off n => (m.payload.drop off).take n)
    s.forEach cs (fun s c => (s.countWrap .CAP_STRIPE_NO c 0 1).stripeOut (s.adopt c r 32))

/-- A write of 1 to CAP_RP_PUSH (R123). -/
def State.replayPush (s : State) (fn c : Nat) : State :=
  if 16 ≤ (s.capCtx c).replay.length then s.code (capPage c) fn 0x158 0x23
  else s.modCtx c (fun x => { x with replay := x.replay ++ [s.get .CAP_RP_ADDR c] })

/-- Are any bytes of a run uncorrectable (R313)? -/
def State.hasBad (s : State) (a n : Nat) : Bool :=
  (granules a n).any (fun r => match s.keyOf r.1 with
    | none => false
    | some k => s.hbm.bad.any (fun w => k < w * 8 + 8 && w * 8 < k + r.2))

/-- CAP finishes reading a queued slot (R123, R124). -/
def State.replayRead (s : State) (c : Nat) : State :=
  match (s.capCtx c).replay with
  | [] => s
  | a :: rest =>
    let s := s.modCtx c (fun x => { x with replay := rest })
    let h := s.devRead a 256
    let limit := s.get .CAP_RING_CFG_slot_kib c * 1024
    let bad := !slotOk h limit || s.hasBad a 256
    let r := slotParse h (fun off n => s.devRead (a + off) n)
    let s := if bad || s.hasBad a r.size then (s.consumeBad a (if slotOk h limit then r.size else 256)).raise (capPage c) 5
      else
        let r := s.adopt c r 16
        let s := ((s.countWrap .CAP_STRIPE_NO c 0 1).count .CAP_CNT_STRIPES c 0 1).countRd a r.size (s.ctxPart c)
        { s with lnp := { s.lnp with notices := s.lnp.notices ++ [r] } }
    if rest.isEmpty then s.raise (capPage c) 4 else s

end Sys2Proof.Machine
end

