-- ==== Sys2Proof/Machine/Correct.lean ====
section
/-!
DEFINITION. Machine/Correct.lean: what LNP computes of one stripe (R143 to R156): the correction table block, the eight
stages, the line-buffer slot and the statistics block.
-/
namespace Sys2Proof.Machine

/-! ## The correction table block (R152, R153) -/

/-- An entry of the defect map. -/
structure Defect where
  col : Nat
  mem : Nat
  mask : Nat
  method : Nat
  deriving DecidableEq, Repr

/-- A table block as the stages use it; `none` for an absent section. -/
structure LnpTable where
  defects : List Defect
  dark : List (Option (List Int))
  flat : List (Option (List (Nat × Int)))
  pos : List (Option (List Int))
  badBlock : Bool
  badEntry : Bool
  deriving DecidableEq, Repr

/-- The shape of a member: delivered width and channels. -/
abbrev Shape := Nat × Nat

/-- The defect entries up to the first out of order, and whether one was (R153). -/
def defectsInOrder : Option Nat → List Defect → List Defect × Bool
  | _, [] => ([], false)
  | prev, d :: ds =>
    let k := d.mem * 2 ^ 15 + d.col
    match prev with
    | some p => if k < p then ([], true) else
      let r := defectsInOrder (some k) ds
      (d :: r.1, r.2)
    | none =>
      let r := defectsInOrder (some k) ds
      (d :: r.1, r.2)

/-- One section: absent, present, or malformed (R153). -/
def tableSection (rd : Nat → Nat → List Nat) (limit hdr len : Nat) : Option (List Nat) × Bool :=
  let off := ofLe (rd hdr 4)
  if off = 0 then (none, false) else if limit < off + len then (none, true) else (some (rd off len), false)

/-- Words of `n` bytes of a section. -/
def sectionWords (n cnt : Nat) (bs : List Nat) : List Nat :=
  (List.range cnt).map (fun i => ofLe ((bs.drop (n * i)).take n))

/-- The table block whose bytes `rd` reads, for members of the given shapes. -/
def readTable (rd : Nat → Nat → List Nat) (kib width : Nat) (shapes : List Shape) : LnpTable :=
  let limit := kib * 1024
  let none4 := shapes.map (fun _ => (none : Option (List Int)))
  if ofLe (rd 0 1) != 1 then
    { defects := [], dark := none4, flat := shapes.map (fun _ => none), pos := none4, badBlock := true, badEntry := false }
  else
    let n := ofLe (rd 4 2) % 2 ^ 12
    let dsec := if 2048 < n then (none, true) else tableSection rd limit 8 (4 * n)
    let raw := (sectionWords 4 n (dsec.1.getD [])).map (fun w =>
      ({ col := bits w 14 0, mem := bits w 17 16, mask := bits w 23 20, method := bits w 25 24 } : Defect))
    let ds := defectsInOrder none (if dsec.1.isSome then raw else [])
    let ok (d : Defect) : Bool := d.method != 3 && d.mem < shapes.length && d.col < (shapes.getD d.mem (0, 0)).1
    let idx := shapes.zipIdx
    let dark := idx.map (fun x => (x.1, tableSection rd limit (0x10 + x.2 * 12) (2 * x.1.1 * x.1.2)))
    let flat := idx.map (fun x => (x.1, tableSection rd limit (0x14 + x.2 * 12) (4 * x.1.1 * x.1.2)))
    let pos := idx.map (fun x => tableSection rd limit (0x18 + x.2 * 12) (4 * width))
    { defects := ds.1.filter ok
      dark := dark.map (fun x => x.2.1.map (fun b => (sectionWords 2 (x.1.1 * x.1.2) b).map (sext 16)))
      flat := flat.map (fun x => x.2.1.map (fun b => (sectionWords 4 (x.1.1 * x.1.2) b).map
        (fun w => (w % 2 ^ 16, sext 16 (w / 2 ^ 16)))))
      pos := pos.map (fun x => x.1.map (fun b => (sectionWords 4 width b).map (sext 32)))
      badBlock := dsec.2 || ds.2 || dark.any (fun x => x.2.2) || flat.any (fun x => x.2.2) || pos.any (fun x => x.2)
      badEntry := ds.1.any (fun d => !ok d) }

/-! ## The stages (R143 to R151) -/

/-- The clamp of R143. -/
def lnpClamp (x : Int) : Int := max (-(2 ^ 28)) (min (2 ^ 28 - 1) x)

/-- Arithmetic right shift. -/
def sra (x : Int) (n : Nat) : Int := fdiv x (2 ^ n : Nat)

/-- Arithmetic right shift, half towards plus infinity. -/
def sraRound (x : Int) (n : Nat) : Int := if n = 0 then x else sra (x + (2 ^ (n - 1) : Nat)) n

/-- The samples of channel `j` of a row of `w` columns and `ch` channels. -/
def chanRow (row : List Nat) (w ch j : Nat) : List Nat := (List.range w).map (fun c => row.getD (c * ch + j) 0)

/-- Stages 1 and 2 over the rows of one member channel (R144, R145); `refs` is the row's ref and whether one came
before. -/
def blackLevel (set : LnpSet) (m : LnpMem) (pedestal shift : Nat) (dark : List Int) : Option Int → List (List Nat) →
    List (List Int)
  | _, [] => []
  | prev, row :: rows =>
    let x := (row.zipIdx).map (fun u => (u.1 * 2 ^ shift : Nat) - dark.getD u.2 0 * 16)
    let n := m.obLog2
    let line := sraRound (((x.drop m.obFirst).take (2 ^ n)).foldl (· + ·) 0) n
    let ref := if !m.obEnable then 0 else match prev with
      | some p => if set.obFilter = 0 then line else p + sraRound (line - p) set.obFilter
      | none => line
    x.map (fun v => lnpClamp (v - ref + sext 16 pedestal * 16)) :: blackLevel set m pedestal shift dark (some ref) rows

/-- The nearest unnamed column within 4 to one side. -/
def defectSide (named : List Nat) (w c : Nat) (left : Bool) : Option Nat :=
  ([1, 2, 3, 4].find? (fun k => (if left then k ≤ c else c + k < w) && !named.contains (if left then c - k else c + k))).map
    (fun k => if left then c - k else c + k)

/-- Stage 3, static part, on one row of one channel (R146): the row, and the values left open. -/
def defectStatic (ds : List Defect) (row : List Int) : List Int × Nat :=
  let named := ds.map (fun d => d.col)
  ds.foldl (fun acc d =>
    let l := (defectSide named row.length d.col true).map (fun c => row.getD c 0)
    let r := (defectSide named row.length d.col false).map (fun c => row.getD c 0)
    let v := match d.method, l, r with
      | 0, some a, some b => some (sra (a + b + 1) 1)
      | 1, some a, _ => some a
      | 2, _, some b => some b
      | _, some a, none => some a
      | _, none, some b => some b
      | _, _, _ => none
    match v with
    | some x => (listSet acc.1 d.col (lnpClamp x), acc.2)
    | none => (acc.1, acc.2 + 1)) (row, 0)

/-- Stage 3, dynamic part, on one row (R146): the row, and the replacements. -/
def defectDynamic (thr : Nat) (named : List Nat) (row : List Int) : List Int × Nat :=
  let T : Int := (thr * 2 ^ 8 : Nat)
  let out := row.zipIdx.map (fun x =>
    let c := x.2
    if c = 0 || c + 1 = row.length || named.contains c then (x.1, 0)
    else
      let l := row.getD (c - 1) 0
      let r := row.getD (c + 1) 0
      if (2 * x.1 - l - r).natAbs > 2 * T && (l - r).natAbs ≤ T then (lnpClamp (sra (l + r + 1) 1), 1) else (x.1, 0))
  (out.map (fun x => x.1), (out.map (fun x => x.2)).foldl (· + ·) 0)

/-- Stage 4 on one row of one channel (R147). -/
def flatField (flat : List (Nat × Int)) (row : List Int) : List Int :=
  row.zipIdx.map (fun x =>
    let g := flat.getD x.2 (0x4000, 0)
    lnpClamp (sraRound (x.1 * g.1) 14 + g.2 * 16))

/-- What stages 1 to 4 make of one member channel. -/
structure Stage4 where
  rows : List (List Int)
  opened : Nat
  dyn : Nat
  deriving DecidableEq, Repr

/-- Stages 1 to 4 of channel `j` of member `m`, output channel `k`. -/
def stages14 (set : LnpSet) (t : LnpTable) (mr : MemberRec) (m j k : Nat) : Stage4 :=
  let ms := set.mems.getD m ⟨0, 0, 3, false, 0, 0, []⟩
  let ch := set.chans.getD k ⟨0, 0, 0, 0⟩
  let pick {α : Type} (l : Option (List α)) (d : α) : List α := match l with
    | none => []
    | some l => (List.range mr.width).map (fun c => l.getD (c * mr.channels + j) d)
  let r2 := blackLevel set ms ch.pedestal (24 - sampleBits mr.bitsCode) (pick (t.dark.getD m none) 0) none
    (mr.rows.map (fun r => chanRow r mr.width mr.channels j))
  let ds := t.defects.filter (fun d => d.mem == m && bit d.mask j)
  let named := ds.map (fun d => d.col)
  let r3 := r2.map (defectStatic ds)
  let r3d := r3.map (fun x => if set.dyn then defectDynamic set.dynThr named x.1 else (x.1, 0))
  { rows := r3d.map (fun x => flatField (pick (t.flat.getD m none) (0x4000, 0)) x.1)
    opened := (r3.map (fun x => x.2)).foldl (· + ·) 0
    dyn := (r3d.map (fun x => x.2)).foldl (· + ·) 0 }

/-- Stage 5 on one channel (R148). -/
def lineDelay (d : Nat) (prev : Option (List (List Int))) (rows : List (List Int)) : List (List Int) :=
  (List.range rows.length).map (fun r =>
    if d ≤ r then rows.getD (r - d) []
    else match prev with
      | some p => p.getD (p.length + r - d) (rows.headD [])
      | none => rows.headD [])

/-- Across the track at one coordinate (R150), also the rule of R217 for one axis. -/
def interpAt (v : List Int) (u : Int) (nearest : Bool) : Int :=
  let w := v.length
  let i := sra u 16
  let f := u % 65536
  if u < 0 then v.headD 0
  else if (w : Int) - 1 ≤ i then v.getD (w - 1) 0
  else
    let a := v.getD i.toNat 0
    let b := v.getD (i.toNat + 1) 0
    if nearest then (if 0x8000 ≤ f then b else a) else a + sra ((b - a) * f + 2 ^ 15) 16

/-- Stage 7 across the track on one row. -/
def acrossTrack (ms : LnpMem) (pos : Option (List Int)) (width : Nat) (row : List Int) : List Int :=
  let at' (f : Nat → Int) (nearest : Bool) := (List.range width).map (fun x => lnpClamp (interpAt row (f x) nearest))
  match ms.mode with
  | 0 => (List.range width).map (fun x => row.getD x 0)
  | 1 => at' (fun x => sext 32 ms.a + (x * ms.b : Nat)) true
  | 2 => at' (fun x => sext 32 ms.a + (x * ms.b : Nat)) false
  | _ => match pos with
    | some p => at' (fun x => p.getD x 0) false
    | none => at' (fun x => (x * 2 ^ 16 : Nat)) false

/-- Source row and weight of output row `r` along the track (R150). -/
def alongIndex (tags : List Int) (s e : Int) (r : Nat) : Nat × Nat :=
  let L := tags.length
  let t := s * L + r * (e - s)
  let ok := (List.range L).filter (fun i => tags.getD i 0 * L ≤ t)
  match ok.getLast? with
  | none => (0, 0)
  | some i =>
    if i + 1 = L then (i, 0)
    else
      let d := (tags.getD (i + 1) 0 - tags.getD i 0) * L
      if d ≤ 0 then (i, 0)
      else (i, (min 65536 (fdiv ((t - tags.getD i 0 * L) * 65536 + fdiv d 2) d)).toNat)

/-- Stage 7 along the track on one channel. -/
def alongTrack (mode : Nat) (tags : List Int) (s e : Int) (rows : List (List Int)) : List (List Int) :=
  if mode = 0 then rows
  else (List.range rows.length).map (fun r =>
    let q := alongIndex tags s e r
    let a := rows.getD q.1 []
    let b := rows.getD (q.1 + 1) a
    if mode = 1 then (if q.2 < 32768 then a else b)
    else (a.zip b).map (fun x => lnpClamp (x.1 + sra ((x.2 - x.1) * q.2 + 2 ^ 15) 16)))

/-- The tensor format of an out_fmt code (R151). -/
def lnpFormat (f : Nat) : Nat := if f = 2 then 4 else if f = 3 then 5 else f

/-- Stage 8 on one value (R151). -/
def toTensor (fmt sub mul : Nat) (w7 : Int) : Nat × Bool :=
  convertTo (lnpFormat fmt) (f32Mul (f32OfInt (w7 - sext 32 sub)) mul)

/-! ## SC32 (R203) -/

/-- Channels of a group. -/
def sc32Group (c : Nat) : Nat := if 16 < c then 32 else (([1, 2, 4, 8, 16].find? (fun g => c ≤ g)).getD 32)

/-- The least row stride. -/
def sc32Stride (w c e : Nat) : Nat := ceilDiv (ceilDiv c (sc32Group c) * w * sc32Group c * e) 64 * 64

/-- Offset of an element from the tensor's address, given its storage row and row stride. -/
def sc32Offset (w c' e stride row x c : Nat) : Nat :=
  row * stride + ((c / sc32Group c') * w + x) * sc32Group c' * e + (c % sc32Group c') * e

/-- The bytes of one row of `w` columns and `n` channels; `f` gives the code of a column and channel. -/
def sc32Row (w n e : Nat) (f : Nat → Nat → Nat) : List Nat :=
  let g := sc32Group n
  let body := (List.range (ceilDiv n g)).flatMap (fun G => (List.range w).flatMap (fun x =>
    (List.range g).flatMap (fun c => leBytes e (if G * g + c < n then f x (G * g + c) else 0))))
  body ++ List.replicate (sc32Stride w n e - body.length) 0

/-! ## One stripe -/

/-- The channels of a stripe in output order: member and its channel (R143). -/
def stripeChannels (r : StripeRec) : List (Nat × Nat) :=
  r.members.zipIdx.flatMap (fun x => (List.range x.1.channels).map (fun j => (x.2, j)))

/-- The aligned tags of a member (R113, R150). -/
def alignedTags (r : StripeRec) (m : MemberRec) : List Int := m.tags.map (fun t => if r.kind = 1 then t.pos - m.off else t.pos)

/-- One channel of the corrected stripe: values of stage 7, codes of stage 8. -/
structure OutChan where
  w7 : List (List Int)
  codes : List (List (Nat × Bool))
  deriving DecidableEq, Repr

/-- The statistics of one channel (R156). -/
def chanStats (o : OutChan) : List Nat × Nat :=
  let vs := o.w7.flatten
  let sum := vs.foldl (· + ·) 0
  let n := vs.length
  let lo := (vs.filter (fun v => v < 0)).length
  let hi := (vs.filter (fun v => 2 ^ 24 ≤ v)).length
  let sat := (o.codes.flatten.filter (fun c => c.2)).length
  let bin (v : Int) : Nat := (min 255 (max 0 (sra v 16))).toNat
  let bins := vs.foldl (fun b v => listMod b (bin v) (· + 1)) (List.replicate 256 0)
  let mean := if n = 0 then 0 else Int.tdiv sum n
  (leBytes 8 (toU 64 sum) ++ leBytes 4 n ++ leBytes 4 (toU 32 mean) ++ leBytes 4 lo ++ leBytes 4 hi ++ leBytes 4 sat ++
    leBytes 4 0 ++ bins.flatMap (leBytes 4), sat + hi)

/-- Row positions of the slot (R155). -/
def slotPositions (along : Nat) (r : StripeRec) : List Int :=
  let L := r.lines
  (List.range L).map (fun q =>
    if along = 0 then match r.members with
      | m :: _ => (alignedTags r m).getD q 0
      | [] => 0
    else fdiv (r.s * L + q * (r.e - r.s)) L)

/-- The corrected form of a stripe under a settings set and its tables (R140 to R156). `tail` is the previous stripe of
the context, when R148 lets it be used; `clipThr` is LNP_CLIP_THR. -/
def correct (set : LnpSet) (t : LnpTable) (r : StripeRec) (tail : Option (List (List (List Int)))) (clipThr : Nat) : LnpResult :=
  let chs := stripeChannels r
  let member (m : Nat) := r.members.getD m { cam := 0, channels := 0, bitsCode := 0, fill := 0, width := 0, colFirst := 0, off := 0, paired := 0, extra := 0, tags := [], rows := [] }
  let s4 := chs.zipIdx.map (fun x => stages14 set t (member x.1.1) x.1.1 x.1.2 x.2)
  let outs := (chs.zipIdx.zip s4).map (fun x =>
    let m := x.1.1.1
    let j := x.1.1.2
    let k := x.1.2
    let ms := set.mems.getD m ⟨0, 0, 3, false, 0, 0, []⟩
    let c := set.chans.getD k ⟨0, 0, 0, 0⟩
    let s5 := lineDelay (ms.delays.getD j 0) (tail.map (fun p => p.getD k [])) x.2.rows
    let s6 := s5.map (fun row => row.map (fun v => lnpClamp (sraRound (v * c.gain) 12)))
    let s7a := s6.map (acrossTrack ms (t.pos.getD m none) set.width)
    let s7 := alongTrack set.along (alignedTags r (member m)) r.s r.e s7a
    ({ w7 := s7, codes := s7.map (fun row => row.map (toTensor set.outFmt c.sub c.mul)) } : OutChan))
  let e := if set.outFmt ≤ 1 then 1 else 2
  let n := chs.length
  let hdr := leBytes 4 (r.ctx + set.outFmt * 2 ^ 8) ++ leBytes 4 r.no ++ leBytes 4 r.flags ++ leBytes 4 r.lines ++
    leBytes 4 set.width ++ leBytes 4 n ++ leBytes 4 r.capGen ++ leBytes 4 r.lnpGen ++ leBytes 8 (toU 64 r.s) ++
    leBytes 8 (toU 64 r.e) ++ List.replicate 80 0
  let data := (List.range r.lines).flatMap (fun q => sc32Row set.width n e (fun x c =>
    ((((outs.getD c ⟨[], []⟩).codes.getD q []).getD x (0, false)).1)))
  let st := outs.map chanStats
  let stats := leBytes 4 r.ctx ++ leBytes 4 r.no ++ leBytes 4 r.capGen ++ leBytes 4 r.lnpGen ++ leBytes 4 r.flags ++
    leBytes 4 n ++ List.replicate 40 0 ++ st.flatMap (fun x => x.1 ++ List.replicate 32 0)
  { image := [(0, hdr), (0x80, (slotPositions set.along r).flatMap (fun p => leBytes 8 (toU 64 p))), (0x900, data)]
    stats := stats ++ List.replicate (0x4800 - stats.length) 0
    defectOpen := (s4.map (fun x => x.opened)).foldl (· + ·) 0
    dynCount := (s4.map (fun x => x.dyn)).foldl (· + ·) 0
    clip := clipThr != 0 && st.any (fun x => clipThr < x.2)
    tail := s4.map (fun x => x.rows.drop (x.rows.length - 7)) }

/-- PCLK cycles of a stripe without the switch (R131). -/
def stripeCost (r : StripeRec) (width : Nat) : Nat :=
  let inp := (r.members.map (fun m => m.width * m.channels)).foldl (· + ·) 0
  r.lines * ceilDiv (max inp (width * (stripeChannels r).length)) 16

/-- Bytes of the line-buffer slot that a stripe of `n` channels takes (R155). -/
def slotBytes (set : LnpSet) (lines n : Nat) : Nat :=
  0x900 + lines * sc32Stride set.width n (if set.outFmt ≤ 1 then 1 else 2)

end Sys2Proof.Machine
end

