-- ==== Sys2Proof/Machine/Lnp.lean ====
section
/-!
DEFINITION. Machine/Lnp.lean: LNP (R129 to R142, R154 to R156, R161 to R163): cluster SRAM and line-buffer space, notices,
credits, spills, settings generations, the pipeline and stripe-ready.
-/
namespace Sys2Proof.Machine

/-- The page of an LNP context, and the global page. -/
def lnpPage (c : Nat) : PageId := ⟨.lnpCtx, c⟩
def lnpGlobal : PageId := ⟨.lnp, 0⟩

/-! ## Cluster SRAM and line-buffer space (R160 to R162) -/

/-- Write bytes into the SRAM of a physical cluster. -/
def State.sramWrite (s : State) (phys a : Nat) (bs : List Nat) : State :=
  { s with sram := memWrite s.sram (phys * 2 ^ 22 + a) bs }

/-- Read bytes of the SRAM of a physical cluster. -/
def State.sramRead (s : State) (phys a n : Nat) : List Nat := memRead s.sram (phys * 2 ^ 22 + a) n

/-- The physical cluster at a position of a partition (R162). -/
def State.posPhys (s : State) (p x : Nat) : Nat := ((s.partList p)[x]?.bind s.physOf).getD 0

/-- lb_kib of a partition, that of its first cluster (R164). -/
def State.partLb (s : State) (p : Nat) : Nat := s.get .CLU_SRAM_CFG_lb_kib (s.posPhys p 0)

/-- Bytes of the line-buffer space of a partition (R162). -/
def State.lbSpace (s : State) (p : Nat) : Nat := (s.partList p).length * s.partLb p * 1024

/-- Cluster and SRAM address of a byte of the line-buffer space (R162). -/
def State.lbByte (s : State) (p x : Nat) : Nat × Nat :=
  let n := max 1 (s.partList p).length
  (s.posPhys p (x / 4096 % n), (3072 - s.partLb p) * 1024 + x / 4096 / n * 4096 + x % 4096)

/-- The runs of `n` bytes at line-buffer offset `x`, one for each 4 KiB granule. -/
def lbRuns (x n : Nat) : List (Nat × Nat) :=
  (List.range ((x % 4096 + n + 4095) / 4096)).map (fun i =>
    let lo := max x ((x / 4096 + i) * 4096)
    let hi := min (x + n) ((x / 4096 + i + 1) * 4096)
    (lo, hi - lo))

/-- Write bytes at an offset of a partition's line-buffer space. -/
def State.lbWrite (s : State) (p x : Nat) (bs : List Nat) : State :=
  s.forEach (lbRuns x bs.length) (fun s r =>
    let a := s.lbByte p r.1
    s.sramWrite a.1 a.2 ((bs.drop (r.1 - x)).take r.2))

/-- Read bytes at an offset of a partition's line-buffer space. -/
def State.lbRead (s : State) (p x n : Nat) : List Nat :=
  (lbRuns x n).flatMap (fun r =>
    let a := s.lbByte p r.1
    s.sramRead a.1 a.2 r.2)

/-- Offset of a line-buffer slot of a context (R155). -/
def State.lbSlot (s : State) (c slot : Nat) : Nat :=
  s.get .LNP_LB_BASE c * 4096 + slot * (s.get .LNP_LB_CFG_slot_kib c * 1024)

/-! ## Contexts and settings (R140, R141, R158) -/

/-- An LNP context since its enable. -/
def State.lnpCtx (s : State) (c : Nat) : LnpCtxSt := s.lnp.ctxs.getD c {}

/-- An LNP context, changed. -/
def State.modLnp (s : State) (c : Nat) (f : LnpCtxSt → LnpCtxSt) : State :=
  { s with lnp := { s.lnp with ctxs := listMod s.lnp.ctxs c f } }

/-- The settings that the registers of a context spell, read through `g`: active values, or a commit's. -/
def lnpSetOf (g : Fld → Nat → Nat) : LnpSet :=
  { prio := g .LNP_CTX_CFG_prio 0, outFmt := g .LNP_CTX_CFG_out_fmt 0, along := g .LNP_CTX_CFG_along_mode 0
    dyn := g .LNP_CTX_CFG_dyn_defect 0 != 0, obFilter := g .LNP_CTX_CFG_ob_filter 0, statEn := g .LNP_CTX_CFG_stat_en 0 != 0
    width := g .LNP_OUT_WIDTH 0 + 1, tblBase := g .LNP_TBL_BASE 0, tblKib := g .LNP_TBL_SIZE 0, dynThr := g .LNP_DYN_THR 0
    mems := (List.range 4).map (fun m =>
      { mode := g .LNP_MEM_GEOM_mode m, obFirst := g .LNP_MEM_OB_first m, obLog2 := g .LNP_MEM_OB_count_log2 m
        obEnable := g .LNP_MEM_OB_enable m != 0, a := g .LNP_MEM_A m, b := g .LNP_MEM_B m
        delays := [g .LNP_MEM_DELAY_d0 m, g .LNP_MEM_DELAY_d1 m, g .LNP_MEM_DELAY_d2 m, g .LNP_MEM_DELAY_d3 m] })
    chans := (List.range 16).map (fun k =>
      { pedestal := g .LNP_CH_BLK_pedestal k, gain := g .LNP_CH_GAIN k, sub := g .LNP_CH_SUB k, mul := g .LNP_CH_MUL k }) }

/-- The active settings of a context. -/
def State.lnpActive (s : State) (c : Nat) : LnpSet := lnpSetOf (fun f j => s.get f c j)

/-- The generation in force in a context. -/
def State.lnpGen (s : State) (c : Nat) : Nat := s.get (.GEN .lnpCtx) c

/-- The settings of a generation, if LNP holds them (R141). -/
def State.lnpHeld (s : State) (c gen : Nat) : Option LnpSet :=
  if gen = s.lnpGen c then some (s.lnpActive c)
  else ((s.lnpCtx c).kept.find? (fun k => k.1 == gen)).map (fun k => k.2)

/-- Does a stripe not yet corrected refer to a generation (R141)? Stripes in assembly count with those that LNP has. -/
def State.genUsed (s : State) (c gen : Nat) : Bool :=
  (s.lnpCtx c).stripes.any (fun x => x.gen == gen) ||
  s.lnp.notices.any (fun r => r.ctx == c && r.lnpGen == gen) ||
  (match s.lnp.busy with
    | some b => b.ctx == c && b.stripe.gen == gen
    | none => false) ||
  (s.capCtx c).opens.any (fun o => o.arrivals.any (fun g => g.lnpGen == gen) ||
    (match o.emptyGens with
      | some g => g.2 == gen
      | none => false))

/-- Drop the kept generations that no stripe needs, and show the oldest (R141). -/
def State.dropGens (s : State) (c : Nat) : State :=
  let l := (s.lnpCtx c).kept.filter (fun k => s.genUsed c k.1)
  (s.modLnp c (fun x => { x with kept := l })).set .LNP_GEN_OLDEST c 0 ((l.map (fun k => k.1)).headD (s.lnpGen c))

/-- Is there no room for a fifth set (R141)? -/
def State.gensFull (s : State) (c : Nat) : Bool :=
  3 ≤ ((s.lnpCtx c).kept.filter (fun k => s.genUsed c k.1)).length && s.genUsed c (s.lnpGen c)

/-- Before a commit becomes active: the settings in force are kept if a stripe needs them (R141). -/
def State.keepGen (s : State) (c : Nat) : State :=
  if s.genUsed c (s.lnpGen c) then
    s.modLnp c (fun x => { x with kept := x.kept ++ [(s.lnpGen c, s.lnpActive c)] })
  else s

/-! ## Enable and commit checks (R133, R154, R155, R163) -/

/-- Member widths and channels that the CAP context of the same number delivers; none for MEMORY and PEER. -/
def State.capShapes (s : State) (c : Nat) : List Shape :=
  (s.ctxMembers c).map (fun m => ((s.ctxWindow c m.1).2, s.get .CAP_CAM_FMT_channels 0 m.1))

/-- Does a settings set break R154 in a context? -/
def State.lnpSetBreaks (s : State) (c : Nat) (set : LnpSet) : Bool :=
  set.tblKib < 1 || 512 < set.tblKib || 32768 < set.width ||
  (s.capShapes c).zipIdx.any (fun x =>
    let m := set.mems.getD x.2 ⟨0, 0, 3, false, 0, 0, []⟩
    (m.mode == 0 && x.1.1 != set.width) || (m.obEnable && x.1.1 < m.obFirst + 2 ^ m.obLog2))

/-- Does a slot of a context hold a stripe of its CAP context (R155)? -/
def State.slotFits (s : State) (c : Nat) (set : LnpSet) : Bool :=
  slotBytes set (s.get .CAP_STRIPE_CFG_lines c) (s.sourceChannels c) ≤ s.get .LNP_LB_CFG_slot_kib c * 1024

/-- The slots of a context as a range of its partition's line-buffer space. -/
def State.lbRange (s : State) (c : Nat) : Nat × Nat :=
  (s.lbSlot c 0, s.lbSlot c (s.get .LNP_LB_CFG_slots c))

/-- Do the slots of a context break R163? -/
def State.lbBreaks (s : State) (c : Nat) : Bool :=
  let r := s.lbRange c
  let p := (s.owner (lnpPage c)).getD 0
  s.lbSpace p < r.2 ||
  (List.range 64).any (fun d => d != c && s.isOn (.CTRL_enable .lnpCtx) d && s.owner (lnpPage d) == some p &&
    r.1 < (s.lbRange d).2 && (s.lbRange d).1 < r.2)

/-- The code with which LNP's own checks discard an enable, if any. -/
def State.lnpRefused (s : State) (c : Nat) : Option Nat :=
  if (s.owner (lnpPage c)).isNone then some 0x32
  else if s.lnpSetBreaks c (s.lnpActive c) || !s.slotFits c (s.lnpActive c) || s.lbBreaks c then some 0x30
  else none

/-- Enable a context whose checks have passed: every slot is free (R155). -/
def State.lnpEnable (s : State) (c : Nat) : State :=
  let s := (s.set (.CTRL_enable .lnpCtx) c 0 1).set .LNP_CREDIT_free c 0 (s.get .LNP_LB_CFG_slots c)
  let s := { s with cmd := { s.cmd with ready := s.cmd.ready.filter (fun r => r.ctx != c) } }
  (s.modLnp c (fun x => { x with
    nextSlot := 0, returning := 0, table := none, badBlock := none, badEntry := none, tail := none
    waitReady := [] })).dropGens c

/-! ## Notices, credits and spills (R129, R134, R135) -/

/-- Device time in nanoseconds. -/
def State.nowNs (s : State) : Nat := s.sec * 10 ^ 9 + s.ns

/-- Bytes of a stripe's rows. -/
def StripeRec.rowsBytes (r : StripeRec) : Nat := (r.rowSizes.map (fun b => r.lines * b)).foldl (· + ·) 0

/-- Bytes of the intake buffer in use: the rows of in-line stripes that are not corrected. -/
def State.intakeUsed (s : State) : Nat :=
  (s.lnp.ctxs.flatMap (fun x => x.stripes)).foldl (fun n x => if x.intake then n + x.stripe.rowsBytes else n)
    (match s.lnp.busy with
      | some b => if b.stripe.intake then b.stripe.stripe.rowsBytes else 0
      | none => 0)

/-- Does the context take credits: enabled and not quiesced (R133, R137)? -/
def State.lnpWorks (s : State) (c : Nat) : Bool :=
  s.isOn (.CTRL_enable .lnpCtx) c && !s.isOn (.CTRL_quiesce .lnpCtx) c

/-- Free credits go to the stripes of a context in stripe-number order (R129). -/
def State.assignCredits (s : State) (c : Nat) : State :=
  if !s.lnpWorks c then s
  else
    let x := s.lnpCtx c
    let n := min (s.get .LNP_CREDIT_free c) ((x.stripes.filter (fun y => !y.credit)).length)
    let upd := x.stripes.foldl (fun (acc : List LnpStripe × Nat) y =>
      if !y.credit && 0 < acc.2 then (acc.1 ++ [{ y with credit := true }], acc.2 - 1) else (acc.1 ++ [y], acc.2)) ([], n)
    (s.modLnp c (fun x => { x with stripes := upd.1 })).set .LNP_CREDIT_free c 0 (s.get .LNP_CREDIT_free c - n)

/-- A stripe of a context spills: it is the first of an episode, or one more (R135). -/
def State.spill (s : State) (c no : Nat) : State :=
  match (s.lnpCtx c).stripes.find? (fun x => x.stripe.no == no && !x.credit && !x.spilled && !bit x.stripe.flags 4) with
  | none => s
  | some x =>
    let s := s.modLnp c (fun y => { y with episode := true, stripes := y.stripes.map (fun z =>
      if z.stripe.no == no then { z with spilled := true, intake := false, stripe := { z.stripe with flags := z.stripe.flags ||| 8 } }
      else z) })
    let s := if s.isOn .LNP_CREDIT_inline c then (s.set .LNP_CREDIT_inline c 0 0).raise (lnpPage c) 0 else s
    ((s.count .LNP_CNT_SPILL c 0 1).pmc 0x09 c 1 (s.owner (lnpPage c))).stripeSpilled c no x.stripe.s x.stripe.e

/-- The stripes of a context without a credit whose hold limit has passed spill, with those behind them (R134, R135). -/
def State.spillDue (s : State) (c : Nat) : State :=
  let wait := (s.lnpCtx c).stripes.filter (fun x => !x.credit && !x.spilled && !bit x.stripe.flags 4)
  if wait.any (fun x => x.notice + x.limit ≤ s.nowNs) then s.forEach wait (fun s x => s.spill c x.stripe.no) else s

/-- Every stripe of a context without a credit spills at once (R137). -/
def State.spillAll (s : State) (c : Nat) : State :=
  s.forEach ((s.lnpCtx c).stripes.filter (fun x => !x.credit)) (fun s x => s.spill c x.stripe.no)

/-- Hold limits that ended before a notice are judged before it takes a credit. -/
def State.spillEarly (s : State) (c : Nat) : State :=
  let old := (s.lnpCtx c).stripes.filter (fun x => !x.credit && !x.spilled && !bit x.stripe.flags 4)
  if old.any (fun x => x.notice + x.limit ≤ s.nowNs && x.notice < s.nowNs) then s.spillDue c else s

/-- A stripe notice arrives (R129, R134, R135, R159); with a hold limit of 0 the stripe spills whether or not a credit is free (R35). -/
def State.notice (s : State) (c : Nat) : State :=
  match s.lnp.notices.find? (fun r => r.ctx == c) with
  | none => s
  | some r =>
    let s := { s with lnp := { s.lnp with notices := s.lnp.notices.eraseP (fun y => y.ctx == c), orders := s.lnp.orders + 1 } }
    let fits := s.intakeUsed + r.rowsBytes ≤ 8 * 2 ^ 20
    let x : LnpStripe := {
      stripe := r, order := s.lnp.orders, notice := s.nowNs, limit := s.get .LNP_HOLD_LIMIT c * 1000
      credit := false, spilled := false, intake := fits, gen := r.lnpGen }
    let s := s.modLnp c (fun y => { y with stripes := y.stripes ++ [x] })
    let s := if fits then s else (s.raise lnpGlobal 0).count .LNP_CNT_INTAKE_FULL 0 0 1
    let s := if (s.lnpCtx c).episode || x.limit = 0 then s.spill c r.no else s
    let s := (s.spillEarly c).assignCredits c
    if s.isOn (.CTRL_quiesce .lnpCtx) c then s.spillAll c else s.spillDue c
/-- A credit that the array returned reaches LNP (R24, R129, R134). -/
def State.creditArrives (s : State) (c : Nat) : State :=
  if (s.lnpCtx c).returning = 0 then s
  else
    let s := s.modLnp c (fun x => { x with returning := x.returning - 1 })
    let s := s.set .LNP_CREDIT_free c 0 (s.get .LNP_CREDIT_free c + 1)
    (s.spillDue c).assignCredits c

/-- A spill episode ends when no spilled stripe is left (R135). -/
def State.episodeCheck (s : State) (c : Nat) : State :=
  let busy := match s.lnp.busy with
    | some b => b.ctx == c && b.stripe.spilled
    | none => false
  if (s.lnpCtx c).episode && !busy && !(s.lnpCtx c).stripes.any (fun x => x.spilled) then
    ((s.modLnp c (fun x => { x with episode := false })).set .LNP_CREDIT_inline c 0 1).raise (lnpPage c) 1
  else s

/-! ## The pipeline (R130, R131, R138, R139) -/

/-- The class of a context in the pipeline (R130, R413). -/
def State.lnpPrio (s : State) (c : Nat) : Nat :=
  match s.owner (lnpPage c) with
  | some p => if s.partIsBe p then 1 else s.get .LNP_CTX_CFG_prio c
  | none => s.get .LNP_CTX_CFG_prio c

/-- The eligible stripe that LNP serves next: context and stripe; of notices at one time, the lower context's (R130). -/
def State.lnpNext (s : State) : Option (Nat × LnpStripe) :=
  let l := (List.range 64).filterMap (fun c => ((s.lnpCtx c).stripes.find? (fun x => x.credit)).map (fun x => (c, x)))
  l.foldl (fun best x => match best with
    | none => some x
    | some b =>
      let kb := s.lnpPrio b.1
      let kx := s.lnpPrio x.1
      if kx < kb || (kx == kb && x.2.notice != b.2.notice && x.2.order < b.2.order) then some x else some b) none

/-- A stripe cannot be corrected (R138, R139, R155): it leaves LNP, its credit stays free, and CAP is told. -/
def State.loseStripe (s : State) (c : Nat) (x : LnpStripe) (detail : Nat) : State :=
  let s := s.modLnp c (fun y => { y with stripes := y.stripes.filter (fun z => z.order != x.order) })
  let s := { s with lnp := { s.lnp with busy := match s.lnp.busy with
    | some b => if b.stripe.order == x.order then none else some b
    | none => none } }
  let s := if x.credit then s.set .LNP_CREDIT_free c 0 (s.get .LNP_CREDIT_free c + 1) else s
  let s := ((s.raise (lnpPage c) 6 detail).count .LNP_CNT_LOST c 0 1).stripeLost x.stripe
  let s := if x.spilled then s.ringCaught c x.stripe.no else s
  (((s.dropGens c).episodeCheck c).assignCredits c)

/-- Rows and tags of a stripe as they stand in its ring slot, and the LNP GEN of the slot header (R26, R139). -/
def State.ringRead (s : State) (r : StripeRec) : StripeRec :=
  let base := s.ringAddr r.ctx r.no
  let offs := (dataOffsets r.lines r.rowSizes).1
  { r with
    lnpGen := s.devNat (base + 0x18) 4
    members := r.members.zipIdx.map (fun x =>
      let m := x.1
      let rb := rowBytes m.width m.channels m.bitsCode
      { m with
        tags := (List.range r.lines).map (fun q => tagOf (s.devRead (base + 0x100 + (x.2 * r.lines + q) * 16) 16))
        rows := (List.range r.lines).map (fun q => unpackSamples (sampleBits m.bitsCode) (m.width * m.channels)
          (s.devRead (base + offs.getD x.2 0 + q * rb) rb)) }) }

/-- The stripe as LNP has it at its begin: from the intake buffer, from the ring slot once it is written, or still from
CAP; and whether a word of it was uncorrectable (R129, R138). -/
def State.lnpSource (s : State) (c : Nat) (x : LnpStripe) : StripeRec × Bool :=
  let written := (s.capCtx c).ring.any (fun y => y.no == x.stripe.no && y.written)
  if x.intake || bit x.stripe.flags 4 || !written then (x.stripe, false)
  else (s.ringRead x.stripe, s.hasBad (s.ringAddr c x.stripe.no) x.stripe.size)

/-- The tail that line delay may use for a stripe (R148). -/
def State.lnpTail (s : State) (c : Nat) (r : StripeRec) : Option (List (List (List Int))) :=
  match (s.lnpCtx c).tail with
  | none => none
  | some t =>
    if (t.no + 1) % 2 ^ 32 != r.no then none
    else if r.kind = 2 && !(t.origCtx == r.origCtx && (t.origNo + 1) % 2 ^ 32 == r.origNo) then none
    else some t.rows

/-- The pipeline takes the next stripe, unless it is busy or the stripe's tables have not arrived (R130, R131, R139 to
R156). -/
def State.lnpBegin (s : State) : State :=
  match s.lnp.busy, s.lnpNext with
  | none, some (c, x) =>
    if (s.lnpCtx c).table.isNone then s
    else
      let s := s.modLnp c (fun y => { y with table := none })
      let src := s.lnpSource c x
      let r := src.1
      match s.lnpHeld c r.lnpGen with
      | none => s.loseStripe c x 1
      | some set =>
        let shapes := r.members.map (fun m => (m.width, m.channels))
        if src.2 || s.hasBad set.tblBase (set.tblKib * 1024) then
          let s := if src.2 then s.consumeBad (s.ringAddr c x.stripe.no) x.stripe.size else s
          (s.consumeBad set.tblBase (set.tblKib * 1024)).loseStripe c x 0
        else if s.get .LNP_LB_CFG_slot_kib c * 1024 < slotBytes set r.lines (stripeChannels r).length then s.loseStripe c x 2
        else
          let t := readTable (fun o n => s.devRead (set.tblBase + o) n) set.tblKib set.width shapes
          let res := correct set t r (s.lnpTail c r) (s.get .LNP_CLIP_THR c)
          let part := s.owner (lnpPage c)
          let switch := s.lnp.lastCtx != some c
          let s := s.modLnp c (fun y => { y with stripes := y.stripes.filter (fun z => z.order != x.order) })
          let s := { s with lnp := { s.lnp with busy := some { ctx := c, stripe := { x with stripe := r }, result := res },
                                                lastCtx := some c } }
          let s := if switch then (s.count .LNP_CNT_SWITCH 0 0 1).pmc 0x0A c 1 part else s
          let s := s.count .LNP_BUSY 0 0 ((if switch then 48 else 0) + stripeCost r set.width)
          let s := if t.badBlock && (s.lnpCtx c).badBlock != some r.lnpGen then
            (s.modLnp c (fun y => { y with badBlock := some r.lnpGen })).raise (lnpPage c) 2 else s
          let s := if t.badEntry && (s.lnpCtx c).badEntry != some r.lnpGen then
            (s.modLnp c (fun y => { y with badEntry := some r.lnpGen })).raise (lnpPage c) 2 else s
          if res.defectOpen = 0 then s
          else (s.count .LNP_CNT_DEFECT_OPEN c 0 res.defectOpen).raise (lnpPage c) 5
  | _, _ => s

/-- The table block of a context's next stripe has arrived (R152). -/
def State.tableArrives (s : State) (c : Nat) : State :=
  match (s.lnpCtx c).stripes.find? (fun x => x.credit) with
  | none => s
  | some x => s.modLnp c (fun y => { y with table := some x.gen })

/-! ## Stripe-ready (R136) -/

/-- Raise stripe-ready of a stripe whose two conditions hold. -/
def State.readyCheck (s : State) (c : Nat) : State :=
  let x := s.lnpCtx c
  let s := s.modLnp c (fun y => { y with waitReady := y.waitReady.filter (fun d => !d.ringDone) })
  s.forEach (x.waitReady.filter (fun d => d.ringDone)) (fun s d =>
    { s with cmd := { s.cmd with ready := s.cmd.ready ++ [⟨c, d.no, d.slot, s.tick⟩] } })

/-- CAP's ring slot header of a stripe is complete (R122, R136). -/
def State.ringReady (s : State) (c no : Nat) : State :=
  (s.modLnp c (fun y => { y with waitReady := y.waitReady.map (fun d => if d.no == no then { d with ringDone := true } else d)
    })).readyCheck c

/-- The last corrected row and the slot header reach the line buffer (R135, R136, R155, R156). -/
def State.lnpDone (s : State) : State :=
  match s.lnp.busy with
  | none => s
  | some b =>
    let c := b.ctx
    let r := b.stripe.stripe
    let part := s.owner (lnpPage c)
    let slots := max 1 (s.get .LNP_LB_CFG_slots c)
    let slot := (s.lnpCtx c).nextSlot % slots
    let s := { s with lnp := { s.lnp with busy := none } }
    let s := s.forEach b.result.image (fun s x => s.lbWrite (part.getD 0) (s.lbSlot c slot + x.1) x.2)
    let set := (s.lnpHeld c r.lnpGen).getD (s.lnpActive c)
    let blocks := s.get .LNP_STAT_CFG_blocks c
    let s := if set.statEn && blocks != 0 then
      (s.devWriteFor part (s.get .LNP_STAT_BASE c + r.no % blocks * 0x4800) b.result.stats).set .LNP_STAT_LAST c 0 r.no else s
    let s := (s.count .LNP_CNT_STRIPES c 0 1).set .LNP_STRIPE_DONE c 0 r.no
    let s := s.count .LNP_CNT_DYN c 0 b.result.dynCount
    let s := if b.result.clip then s.raise (lnpPage c) 4 else s
    let written := (s.capCtx c).ring.any (fun y => y.no == r.no && y.written)
    let inRing := (s.capCtx c).writing.any (fun y => y.no == r.no)
    let s := if b.stripe.spilled then s.ringCaught c r.no else s
    let s := s.modLnp c (fun y => { y with
      nextSlot := (slot + 1) % slots
      tail := some { no := r.no, origCtx := r.origCtx, origNo := r.origNo, rows := b.result.tail }
      waitReady := y.waitReady ++ [⟨r.no, slot, bit r.flags 4 || written || !inRing⟩] })
    ((s.dropGens c).episodeCheck c).readyCheck c

/-- Free space of the intake buffer in KiB. -/
def State.intakeFree (s : State) : Nat := (8 * 2 ^ 20 - s.intakeUsed) / 1024

/-- Has a quiesced context come to rest (R137)? -/
def State.lnpIdle (s : State) (c : Nat) : Bool :=
  !(s.lnpCtx c).stripes.any (fun x => x.credit) &&
  (match s.lnp.busy with
    | some b => b.ctx != c
    | none => true)

end Sys2Proof.Machine
end

