-- ==== Sys2Proof/Machine/Tensor.lean ====
section
/-!
DEFINITION. Machine/Tensor.lean: descriptors and tensor headers (R194, R200), the places of their elements (R203 to R206),
the feature-map codecs (R302 to R310), reads and writes of elements, and scales (R236, R256, R257).
-/
namespace Sys2Proof.Machine

/-! ## Descriptors (R194) -/

/-- A field of a 128-byte descriptor: byte offset and bits within the 32 or 64 bits there. -/
def dField (d off hi lo : Nat) : Nat := bits (d >>> (8 * off)) hi lo

def dOp (d : Nat) : Nat := dField d 0 7 0
def dVariant (d : Nat) : Nat := dField d 0 14 8
def dStream (d : Nat) : Bool := bit d 15
def dStepEnd (d : Nat) : Bool := bit d 16
def dNonPreempt (d : Nat) : Bool := bit d 17
def dFawn (d : Nat) : Bool := bit d 18
def dBarrier (d : Nat) : Bool := bit d 19
def dDigest (d : Nat) : Bool := bit d 20
def dTileA (d : Nat) : Nat := dField d 4 15 0
def dTileB (d : Nat) : Nat := dField d 4 31 16
def dTileC (d : Nat) : Nat := dField d 8 15 0
def dKsplit (d : Nat) : Bool := bit (dField d 8 31 0) 16
def dCtx (d : Nat) : Nat := dField d 0xC 5 0
def dCtxAny (d : Nat) : Bool := bit (dField d 0xC 31 0) 7
def dIn0 (d : Nat) : Nat := dField d 0x10 63 0
def dIn1 (d : Nat) : Nat := dField d 0x18 63 0
def dIn2 (d : Nat) : Nat := dField d 0x20 63 0
def dOut (d : Nat) : Nat := dField d 0x28 63 0
def dFloor (d : Nat) : Nat := dField d 0x60 31 0
def dCeil (d : Nat) : Nat := dField d 0x64 31 0
def dMargin (d : Nat) : Nat := dField d 0x68 7 0
def dAct (d : Nat) : Nat := dField d 0x68 11 8
def dBiasFmt (d : Nat) : Nat := dField d 0x68 13 12
def dSatThr (d : Nat) : Nat := dField d 0x6C 31 0
def dActParam (d : Nat) : Nat := dField d 0x70 31 0
def dAux (d : Nat) : Nat := dField d 0x78 63 0

/-- A 32-bit operator field. -/
def dWord (d off : Nat) : Nat := dField d off 31 0

/-- A byte operator field. -/
def dByte (d off : Nat) : Nat := dField d off 7 0

/-! ## Tensor headers (R200) -/

/-- A tensor as its header describes it. -/
structure Tensor where
  off : Nat
  fmt : Nat
  layout : Nat
  codec : Nat
  space : Nat
  split : Nat
  scaleMode : Nat
  window : Bool
  dyn : Bool
  pinned : Bool
  H : Nat
  W : Nat
  C : Nat
  addr : Nat
  stride : Nat
  winRows : Nat
  ctx : Nat
  scaleA : Nat
  genA : Nat
  scaleB : Nat
  genB : Nat
  sreg : Nat
  blk : Nat
  aux : Nat
  deriving DecidableEq, Repr

/-- The tensor of a 64-byte header that lies at a region offset. -/
def tensorOf (off h : Nat) : Tensor :=
  { off := off, fmt := dField h 0 3 0, layout := dField h 0 7 4, codec := dField h 0 9 8, space := dField h 0 11 10,
    split := dField h 0 13 12, scaleMode := dField h 0 15 14, window := bit h 16, dyn := bit h 17, pinned := bit h 18,
    H := dField h 4 31 0, W := dField h 8 31 0, C := dField h 0xC 31 0, addr := dField h 0x10 63 0,
    stride := dField h 0x18 31 0, winRows := dField h 0x1C 15 0, ctx := dField h 0x1C 21 16, scaleA := dField h 0x20 31 0,
    genA := dField h 0x24 31 0, scaleB := dField h 0x28 31 0, genB := dField h 0x2C 31 0, sreg := dField h 0x30 12 0,
    blk := dField h 0x34 15 0, aux := dField h 0x38 63 0 }

/-- Layout codes. -/
def laySC32 : Nat := 0
def layMAT : Nat := 1
def layWGT : Nat := 2
def layLUT : Nat := 3
def layLIST : Nat := 4

/-- Bytes of an element; code formats have none of their own. -/
def Tensor.e (t : Tensor) : Nat := fmtBytes t.fmt

/-- The device's copy of the header that a plan keeps at a region offset (R201). -/
def Plan.tensor (p : Plan) (off : Nat) : Tensor :=
  tensorOf off (((p.headers.find? (fun h => h.1 == off)).map (fun h => h.2)).getD 0)

/-- The device's copy of a table at a region offset. -/
def Plan.table (p : Plan) (off : Nat) : List Nat := ((p.tables.find? (fun h => h.1 == off)).map (fun h => h.2)).getD []

/-- Channels that CHANNEL scales count (R236). -/
def Tensor.channels (t : Tensor) : Nat := if t.layout = layWGT || t.layout = layLUT then t.H else t.C

/-! ## Where a tile runs -/

/-- What a tile's reads and writes depend on beside the state. -/
structure Env where
  part : Nat
  plan : Plan
  /-- Context of the step, and its streaming state. -/
  ctx : Nat
  win : CtxWin
  /-- Rows of the stripe of the step. -/
  lines : Nat
  /-- Clusters of the partition. -/
  n : Nat
  /-- Step counter. -/
  step : Nat
  seed : Nat
  epoch : Nat
  /-- Descriptors of the step that come before the one that runs. -/
  before : List Nat
  /-- The physical cluster whose counters count the writes (R540). -/
  clu : Option Nat := none
  deriving DecidableEq, Repr

/-! ## Places (R203 to R206) -/

/-- Position and local index of an index along a split axis (R206). -/
def splitAt (n blk i : Nat) : Nat × Nat :=
  let b := max 1 blk
  (i / b % max 1 n, i / b / max 1 n * b + i % b)

/-- The length of a split axis in one cluster (R206). -/
def splitLen (n blk len : Nat) : Nat := ceilDiv len (max 1 blk * max 1 n) * max 1 blk

/-- Position of an element in SRAM, and its byte offset from the tensor's address. Elements are (h, w, c) for SC32,
(b × W + r, k, 0) for MAT, and (co, ky × kw + kx, ci) for WGT. -/
def Tensor.place (t : Tensor) (n h w c : Nat) : Nat × Nat :=
  let sp := t.space = 1 && t.split != 0
  let row := if t.window then h % max 1 t.winRows else h
  if t.layout = laySC32 then
    let r := if sp && t.split = 1 then splitAt n t.blk row else (0, row)
    let x := if sp && t.split = 2 then splitAt n t.blk w else (0, w)
    let k := if sp && t.split = 3 then splitAt n t.blk c else (0, c)
    let W := if sp && t.split = 2 then splitLen n t.blk t.W else t.W
    let C := if sp && t.split = 3 then splitLen n t.blk t.C else t.C
    let stride := if t.space = 2 then sc32Stride t.W t.C t.e else t.stride
    (r.1 + x.1 + k.1, sc32Offset W (if sp && t.split = 3 then max C t.C else C) t.e stride r.2 x.2 k.2)
  else if t.layout = layMAT then
    let r := if sp && t.split = 1 then splitAt n t.blk row else (0, row)
    let x := if sp && t.split = 2 then splitAt n t.blk w else (0, w)
    (r.1 + x.1, r.2 * t.stride + x.2 * t.e)
  else if t.layout = layWGT then
    (0, ((h / 64 * t.W + w) * ceilDiv t.C 32 + c / 32) * 2048 * t.e + h % 64 * 32 * t.e + c % 32 * t.e)
  else (0, h)

/-- Bits of a code format. -/
def codeBits (fmt : Nat) : Nat := fmt - 6

/-- The bit of a WGT_LUT code, from the tensor's address (R245). -/
def Tensor.lutBit (t : Tensor) (co kyx ci : Nat) : Nat :=
  ((co / 64 * t.W + kyx) * ceilDiv t.C 32 + ci / 32) * 2048 * codeBits t.fmt + (co % 64 * 32 + ci % 32) * codeBits t.fmt

/-! ## Codecs (R303 to R310) -/

/-- Data bytes and code bits of an FRC block. -/
def frcShape (codec : Nat) : Nat × Nat := if codec = 1 then (32, 4) else (16, 2)

/-- The index of the FRC block of an element (R303). -/
def Tensor.frcBlock (t : Tensor) (h w c : Nat) : Nat := (h / 8 * ceilDiv t.W 8 + w / 8) * t.C + c

/-- Is an FRC side entry bad (R310)? -/
def frcBad (codec side : Nat) : Bool := (if codec = 1 then 5 else 7) < bits side 10 8 || bits side 15 11 != 0

/-- A value of an FRC block (R305). -/
def frcValue (codec side data i : Nat) : Int :=
  let b := (frcShape codec).2
  min 127 (sext 8 side + ((data >>> (i * b)) % 2 ^ b * 2 ^ bits side 10 8 : Nat))

/-- The data and the side entry of an FRC block with the given values, `none` outside the tensor (R304). -/
def frcEncode (codec : Nat) (vs : List (Option Int)) : Nat × Nat :=
  let b := (frcShape codec).2
  let l := vs.filterMap id
  let mn := l.foldl min (l.headD 0)
  let range := (l.foldl max (l.headD 0) - mn).toNat
  let e := ((List.range 8).find? (fun e => range ≤ (2 ^ b - 1) * 2 ^ e)).getD 7
  let code (x : Int) : Nat :=
    let d := (x - mn).toNat
    if e = 0 then d else min (2 ^ b - 1) ((d + 2 ^ (e - 1)) >>> e)
  (packSamples b (vs.map (fun v => match v with
    | some x => code x
    | none => 0)), toU 8 mn + e * 2 ^ 8)

/-- The 64 bytes of a ZRC line of a class, from the bytes stored at its address; `none` for a bad line (R307, R310). -/
def zrcDecode (cls : Nat) (st : List Nat) : Option (List Nat) :=
  match cls with
  | 0 => some (List.replicate 64 0)
  | 1 =>
    let mask := ofLe (st.take 8)
    if 24 < popCount 64 mask then none
    else some ((List.range 64).map (fun i => if bit mask i then st.getD (8 + popCount i mask) 0 else 0))
  | 2 => some st
  | _ => none

/-- Class and stored bytes of a ZRC line (R307). -/
def zrcEncode (l : List Nat) : Nat × List Nat :=
  let nz := l.filter (fun b => b % 256 != 0)
  if nz.isEmpty then (0, [])
  else if nz.length ≤ 24 then
    (1, leBytes 8 (maskOf ((List.range 64).filter (fun i => l.getD i 0 % 256 != 0))) ++ nz ++
      List.replicate (24 - nz.length) 0)
  else (2, l)

/-! ## Reading an element -/

/-- A read of one element of a tensor, or a constant that stands in for one. -/
inductive Tap where
  | elem (t : Tensor) (h w c : Nat)
  | const (code : Nat)
  deriving DecidableEq, Repr

/-- Base of a partition's region. -/
def Env.base (e : Env) (s : State) : Nat := s.regionBase e.part

/-- Bytes that a job reads at a device address: 0 outside its partition's region. -/
def State.jobRead (s : State) (e : Env) (a n : Nat) : List Nat :=
  if s.inRegion e.part a n then s.devRead a n else List.replicate n 0

/-- A little-endian value that a job reads. -/
def State.jobNat (s : State) (e : Env) (a n : Nat) : Nat := ofLe (s.jobRead e a n)

/-- Bytes that a job writes at a device address: discarded outside its partition's region. Whoever writes counts the lines. -/
def State.jobWrite (s : State) (e : Env) (a : Nat) (bs : List Nat) : State :=
  if s.inRegion e.part a bs.length then s.devWrite a bs else s

/-- One request of a partition's job for a line: counted in its pseudo-channel, and charged to the partition (R297, R321). -/
def State.jobLine (s : State) (p : Nat) (write : Bool) (l : Nat × Nat) : State :=
  (if write then s.countWr l.1 64 (some p) else s.countRd l.1 64 (some p)).bwRequest p l.2 true

/-- A line that a job writes: a tile's are counted by its cluster too (R540). -/
def State.writeLine (s : State) (e : Env) (l : Nat × Nat) : State :=
  match e.clu with
  | some k => (s.jobLine e.part true l).pmcClu k 0x21 1
  | none => s.jobLine e.part true l

/-- The lines of a run of bytes, each at its whole cost. -/
def runLines (a n : Nat) : List (Nat × Nat) := (List.range (linesOf a n)).map (fun i => ((a / 64 + i) * 64, 2))

/-- The requests of a write of a run of bytes. -/
def State.jobLines (s : State) (e : Env) (a n : Nat) : State :=
  if s.inRegion e.part a n then s.forEach (runLines a n) (fun s l => s.writeLine e l) else s

/-- The bytes of a ZRC line of a tensor, `none` when it is bad. -/
def State.zrcLine (s : State) (e : Env) (t : Tensor) (l : Nat) : Option (List Nat) :=
  let base := e.base s
  let cls := bits ((s.jobRead e (base + t.aux + l / 4) 1).headD 0) (2 * (l % 4) + 1) (2 * (l % 4))
  zrcDecode cls (s.jobRead e (base + t.addr + l * 64) 64)

/-- The slot of the line buffer that holds a row counted from the window reset (R204). -/
def Env.slotOf (e : Env) (h : Nat) : Nat := ((e.win.holding.find? (fun x => x.1 == h / max 1 e.lines)).map (fun x => x.2)).getD 0

/-- `n` bytes of an SRAM tensor at a position and a byte offset from its address. -/
def State.sramAt (s : State) (e : Env) (t : Tensor) (pos off n : Nat) : List Nat :=
  s.sramRead (s.posPhys e.part pos) (t.addr + off) n

/-- The code of an element (R203 to R206, R245, R305, R307). -/
def State.code? (s : State) (e : Env) (t : Tensor) (h w c : Nat) : Nat :=
  let base := e.base s
  if t.layout = layLUT then
    let b := t.lutBit h w c
    let v := if t.space = 1 then ofLe (s.sramAt e t 0 (b / 8) 2) else s.jobNat e (base + t.addr + b / 8) 2
    (v >>> (b % 8)) % 2 ^ codeBits t.fmt
  else
    let p := t.place e.n h w c
    if t.space = 2 then
      ofLe (s.lbRead e.part (s.lbSlot t.ctx (e.slotOf h) + 0x900 + (t.place e.n (h % max 1 e.lines) w c).2) t.e)
    else if t.space = 1 then ofLe (s.sramAt e t p.1 p.2 t.e)
    else if t.codec = 0 then s.jobNat e (base + t.addr + p.2) t.e
    else if t.codec = 3 then
      let l := (s.zrcLine e t (p.2 / 64)).getD (List.replicate 64 0)
      ofLe ((l.drop (p.2 % 64)).take t.e)
    else
      let k := t.frcBlock h w c
      let D := (frcShape t.codec).1
      toU 8 (frcValue t.codec (s.jobNat e (base + t.aux + 2 * k) 2) (s.jobNat e (base + t.addr + k * D) D) (h % 8 * 8 + w % 8))

/-- The code that a tap gives. -/
def State.tap (s : State) (e : Env) : Tap → Nat
  | .elem t h w c => s.code? e t h w c
  | .const v => v

/-- The HBM runs that a tap reads: device address and bytes. -/
def State.tapRuns (s : State) (e : Env) : Tap → List (Nat × Nat)
  | .const _ => []
  | .elem t h w c =>
    if t.space != 0 then []
    else
      let base := e.base s
      if t.layout = layLUT then [(base + t.addr + t.lutBit h w c / 8, 1)]
      else
        let p := (t.place e.n h w c).2
        if t.codec = 0 then [(base + t.addr + p, t.e)]
        else if t.codec = 3 then [(base + t.addr + p / 64 * 64, 64)]
        else
          let k := t.frcBlock h w c
          [(base + t.aux + 2 * k, 2), (base + t.addr + k * (frcShape t.codec).1, (frcShape t.codec).1)]

/-- Does a tap meet a bad codec line (R310)? -/
def State.tapBadCodec (s : State) (e : Env) : Tap → Bool
  | .const _ => false
  | .elem t h w c =>
    if t.space != 0 || t.codec = 0 then false
    else if t.codec = 3 then (s.zrcLine e t ((t.place e.n h w c).2 / 64)).isNone
    else frcBad t.codec (s.jobNat e (e.base s + t.aux + 2 * t.frcBlock h w c) 2)

/-- Does a tap meet an uncorrectable word (R313)? -/
def State.tapBad (s : State) (e : Env) (x : Tap) : Bool := (s.tapRuns e x).any (fun r => s.hasBad r.1 r.2)

/-- The 32-byte sectors, by address, that an element of a tensor in HBM moves (R297). -/
def State.tapSectors (s : State) (e : Env) : Tap → List Nat
  | .const _ => []
  | .elem t h w c =>
    if t.space != 0 then []
    else
      let base := e.base s
      let whole (a n : Nat) : List Nat := (runLines a n).flatMap (fun l => [l.1, l.1 + 32])
      let part (a n : Nat) : List Nat := (List.range ((a + n - 1) / 32 - a / 32 + 1)).map (fun i => (a / 32 + i) * 32)
      if t.layout = layLUT then whole (base + t.addr + t.lutBit h w c / 8) 1
      else
        let p := (t.place e.n h w c).2
        if t.codec = 0 then whole (base + t.addr + p) t.e
        else if t.codec = 3 then
          let l := p / 64
          let m := base + t.aux + l / 4
          let cls := bits ((s.jobRead e m 1).headD 0) (2 * (l % 4) + 1) (2 * (l % 4))
          part m 1 ++ (if cls = 0 then [] else part (base + t.addr + l * 64) (if cls = 1 then 32 else 64))
        else
          let k := t.frcBlock h w c
          let D := (frcShape t.codec).1
          part (base + t.aux + 2 * k) 2 ++ part (base + t.addr + k * D) D

/-- The lines that elements move, with their costs in half units. -/
def State.tapLines (s : State) (e : Env) (l : List Tap) : List (Nat × Nat) :=
  let sec := ((l.flatMap (s.tapSectors e)).eraseDups).filter (fun a => s.inRegion e.part a 1)
  ((sec.map (fun a => a / 64 * 64)).eraseDups).map (fun b => (b, (sec.filter (fun a => a / 64 * 64 == b)).length))

/-! ## Writing elements -/

/-- An element with its code. -/
abbrev Cell := (Nat × Nat × Nat) × Nat

/-- Write bytes of a tensor at an offset from its address: in every copy of a REPLICATED one (R206). -/
def State.tensorBytes (s : State) (e : Env) (t : Tensor) (pos off : Nat) (bs : List Nat) : State :=
  if t.space = 1 then
    if t.split = 0 then s.forEach (List.range e.n) (fun s x => s.sramWrite (s.posPhys e.part x) (t.addr + off) bs)
    else s.sramWrite (s.posPhys e.part pos) (t.addr + off) bs
  else s.jobWrite e (e.base s + t.addr + off) bs

/-- Write bytes within one ZRC line: the line's data and its class change together (R307, R308). -/
def State.zrcPart (s : State) (e : Env) (t : Tensor) (off : Nat) (bs : List Nat) : State :=
  let base := e.base s
  let l := off / 64
  let old := (s.zrcLine e t l).getD (List.replicate 64 0)
  let new := old.take (off % 64) ++ bs ++ old.drop (off % 64 + bs.length)
  let z := zrcEncode new
  let cb := base + t.aux + l / 4
  let s := s.jobWrite e (base + t.addr + l * 64) z.2
  s.jobWrite e cb [putBits ((s.jobRead e cb 1).headD 0) (2 * (l % 4)) 2 z.1]

/-- Write bytes of a ZRC tensor, line by line. -/
def State.zrcWrite (s : State) (e : Env) (t : Tensor) (off : Nat) (bs : List Nat) : State :=
  s.forEach (List.range ((off % 64 + bs.length + 63) / 64)) (fun s i =>
    let lo := max off ((off / 64 + i) * 64)
    let hi := min (off + bs.length) ((off / 64 + i + 1) * 64)
    s.zrcPart e t lo ((bs.drop (lo - off)).take (hi - lo)))

/-- The elements written as zero behind an element: the channels up to the group after the last one of SC32 (R203), and what lies past C
and past Co in a block of WGT (R205). -/
def Tensor.padding (t : Tensor) (h c : Nat) : Nat :=
  let g := sc32Group t.C
  if t.layout = laySC32 then (if c + 1 = t.C then g - 1 - c % g else 0)
  else if t.layout = layWGT then
    (if c + 1 = t.C then 31 - c % 32 else 0) + (if h + 1 = t.H && (c + 1 = t.C || c % 32 = 31) then (63 - h % 64) * 32 else 0)
  else 0

/-- Write one element of a tensor that has no FRC codec, with the zeros behind it. -/
def State.putCode (s : State) (e : Env) (t : Tensor) (x : Cell) : State :=
  let (h, w, c) := x.1
  let p := t.place e.n h w c
  let pad := t.padding h c * t.e
  let bs := leBytes t.e x.2 ++ List.replicate pad 0
  if t.codec = 3 && t.space = 0 then s.zrcWrite e t p.2 bs else s.tensorBytes e t p.1 p.2 bs

/-- Write the blocks of an FRC tensor that a tile covers whole (R303, R304). -/
def State.putBlocks (s : State) (e : Env) (t : Tensor) (l : List Cell) : State :=
  let ks := (l.map (fun x => (t.frcBlock x.1.1 x.1.2.1 x.1.2.2, (x.1.1 / 8, x.1.2.1 / 8, x.1.2.2)))).eraseDups
  s.forEach ks (fun s k =>
    let vs := (List.range 64).map (fun i => (l.find? (fun x =>
      x.1 == (k.2.1 * 8 + i / 8, k.2.2.1 * 8 + i % 8, k.2.2.2))).map (fun x => sext 8 x.2))
    let enc := frcEncode t.codec vs
    let D := (frcShape t.codec).1
    (s.jobWrite e (e.base s + t.addr + k.1 * D) (leBytes D enc.1)).jobWrite e
      (e.base s + t.aux + 2 * k.1) (leBytes 2 enc.2))

/-- Write the elements of a tile. -/
def State.putTile (s : State) (e : Env) (t : Tensor) (l : List Cell) : State :=
  let s := if t.space = 0 && (t.codec = 1 || t.codec = 2) then s.putBlocks e t l else s.forEach l (fun s x => s.putCode e t x)
  if t.space = 0 then
    s.forEach (s.tapLines e (l.map (fun x => Tap.elem t x.1.1 x.1.2.1 x.1.2.2))) (fun s x => s.writeLine e x)
  else s

/-! ## LIST tensors (R205) -/

/-- Bytes of a LIST tensor. -/
def State.listBytes (s : State) (e : Env) (t : Tensor) (off n : Nat) : List Nat :=
  if t.space = 1 then s.sramAt e t 0 off n else s.jobRead e (e.base s + t.addr + off) n

/-- The entry count of a LIST. -/
def State.listCount (s : State) (e : Env) (t : Tensor) : Nat := ofLe (s.listBytes e t 0 4)

/-- An entry of a LIST. -/
def State.listEntry (s : State) (e : Env) (t : Tensor) (j : Nat) : List Nat := s.listBytes e t (32 + j * t.C) t.C

/-! ## Scales (R236, R256, R257) -/

/-- Is slot a the next slot: the later generation in serial order (R256)? -/
def Tensor.nextIsA (t : Tensor) : Bool :=
  t.genA != t.genB && (t.genA + 2 ^ 32 - t.genB) % 2 ^ 32 < 2 ^ 31

/-- The next slot's scale, and the data slot's. -/
def Tensor.nextScale (t : Tensor) : Nat := if t.pinned then t.scaleA else if t.nextIsA then t.scaleA else t.scaleB
def Tensor.dataScale (t : Tensor) : Nat := if t.pinned then t.scaleA else if t.nextIsA then t.scaleB else t.scaleA

/-- Entry `c` of a tensor's scale table (R236). -/
def Plan.channelScale (p : Plan) (t : Tensor) (c : Nat) : Nat := leAt (p.table (4 * (t.off + 0x40))) (4 * c) 4

/-- Does a descriptor of a plan name a tensor as its output? -/
def Plan.produces (p : Plan) (idx off : Nat) : Bool := dOut (p.descs.getD idx 0) == off

/-- The scale with which an element of channel `c` is read; `none` for scale_mode NONE (R236, R257). -/
def Env.inScale (e : Env) (t : Tensor) (c : Nat) : Option Nat :=
  match t.scaleMode with
  | 0 => none
  | 1 =>
    if !t.dyn then some t.scaleA
    else if e.before.any (fun i => e.plan.produces i t.off) then some t.nextScale
    else some t.dataScale
  | _ => some (e.plan.channelScale t c)

/-- The scale with which an element of channel `c` is written (R252, R256, R258). -/
def Env.outScale (e : Env) (t : Tensor) (c : Nat) : Option Nat :=
  match t.scaleMode with
  | 0 => none
  | 1 => some (if t.dyn then t.nextScale else t.scaleA)
  | _ => some (e.plan.channelScale t c)

/-- The channel of an element that a CHANNEL scale goes by (R236). -/
def Tensor.scaleIdx (t : Tensor) (h w c : Nat) : Nat := if t.layout = layMAT then w else if t.layout = laySC32 then c else h

/-- The value of a code of an element (R237). -/
def Env.value (e : Env) (t : Tensor) (h w c code : Nat) : Nat := dequant t.fmt code (e.inScale t (t.scaleIdx h w c))

end Sys2Proof.Machine
end

