-- ==== Sys2Proof/Machine/Finder.lean ====
section
/-!
DEFINITION. Machine/Finder.lean: PART_FIND (R226 to R229, R475): connected components of a class map, from stripe to stripe,
the part list and the box list.
-/
namespace Sys2Proof.Machine

/-! ## Settings -/

/-- The fields of a PART_FIND descriptor. -/
structure FindSet where
  fg : Nat
  four : Bool
  join : Bool
  least : Nat
  sa : Nat
  sc : Nat
  tok : Nat
  maxOpen : Nat

/-- The part finder fields of a descriptor. -/
def findSet (d : Nat) : FindSet :=
  { fg := dField d 0x30 63 0, four := bit (dWord d 0x38) 0, join := bit (dWord d 0x38) 1, least := dWord d 0x3C
    sa := dByte d 0x40, sc := dByte d 0x41, tok := dByte d 0x44, maxOpen := dField d 0x48 10 0 }

/-- Is a class foreground? -/
def FindSet.isFg (F : FindSet) (k : Nat) : Bool := k < 64 && bit F.fg k

/-! ## Components -/

/-- Does component `a` have the earlier first pixel? -/
def FindComp.before (a b : FindComp) : Bool := a.row < b.row || (a.row == b.row && a.col < b.col)

/-- Components in order of first pixel. -/
def sortComps (l : List FindComp) : List FindComp :=
  l.foldl (fun acc c => acc.takeWhile (fun x => x.before c) ++ [c] ++ acc.dropWhile (fun x => x.before c)) []

/-- One more pixel of a class. -/
def addClass : List (Nat × Nat) → Nat → Nat → List (Nat × Nat)
  | [], k, n => [(k, n)]
  | c :: cs, k, n => if c.1 = k then (k, c.2 + n) :: cs else c :: addClass cs k n

/-- The class with most pixels, the lowest on a tie. -/
def FindComp.cls (c : FindComp) : Nat :=
  ((c.classes.foldl (fun (b : Nat × Nat) x => if b.2 < x.2 || (b.2 == x.2 && x.1 < b.1) then x else b) (0, 0))).1

/-- The union of two boxes. -/
def joinBox : Option (Nat × Nat × Nat × Nat) → Option (Nat × Nat × Nat × Nat) → Option (Nat × Nat × Nat × Nat)
  | some (a, b, c, d), some (a', b', c', d') => some (min a a', max b b', min c c', max d d')
  | none, x => x
  | x, none => x

/-- A component with one more pixel. -/
def FindComp.add (c : FindComp) (row x k : Nat) : FindComp :=
  { c with
    pixels := c.pixels + 1, classes := addClass c.classes k 1, xmin := min c.xmin x, xmax := max c.xmax x
    lastRow := row, box := joinBox c.box (some (row, row, x, x)) }

/-- The survivor of two components that a pixel joins, and the absorbed one (R226). -/
def survivor (a b : FindComp) : FindComp × FindComp :=
  if a.reported != b.reported then (if a.reported then (a, b) else (b, a))
  else if a.before b then (a, b) else (b, a)

/-- The survivor with what it takes from the absorbed one. -/
def FindComp.absorb (v a : FindComp) : FindComp :=
  let f := if v.before a then v else a
  { v with
    row := f.row, col := f.col, pixels := v.pixels + a.pixels
    classes := a.classes.foldl (fun l c => addClass l c.1 c.2) v.classes
    xmin := min v.xmin a.xmin, xmax := max v.xmax a.xmax, lastRow := max v.lastRow a.lastRow, box := joinBox v.box a.box }

/-! ## Rows -/

/-- What a step of the finder has come to. A label is a column, a class, and the first pixel of its component. -/
structure FindAcc where
  comps : List FindComp
  prev : List (Nat × Nat × Nat × Nat)
  /-- The present row, latest pixel first. -/
  cur : List (Nat × Nat × Nat × Nat) := []
  /-- Absorbed reported components, with the survivor's identifier, in order. -/
  merged : List (FindComp × Option (Nat × Nat)) := []
  closed : List FindComp := []
  dropped : Nat := 0
  overload : Nat := 0
  /-- Identifiers taken. -/
  taken : List Nat := []

/-- Two components become one. -/
def FindAcc.merge (a : FindAcc) (k j : Nat × Nat) : FindAcc × (Nat × Nat) :=
  match a.comps.find? (fun c => (c.row, c.col) == k), a.comps.find? (fun c => (c.row, c.col) == j) with
  | some x, some y =>
    let p := survivor x y
    let v := p.1.absorb p.2
    let key := (v.row, v.col)
    let re (l : Nat × Nat × Nat × Nat) := if l.2.2 == k || l.2.2 == j then (l.1, l.2.1, key) else l
    ({ a with
        comps := a.comps.filter (fun c => (c.row, c.col) != k && (c.row, c.col) != j) ++ [v]
        prev := a.prev.map re, cur := a.cur.map re
        merged := if x.reported && y.reported then a.merged ++ [(p.2, p.1.ident)] else a.merged }, key)
  | _, _ => (a, k)

/-- A foreground pixel of class `k` at column `x` of row `row`. -/
def FindAcc.pixel (F : FindSet) (a : FindAcc) (row x k : Nat) : FindAcc :=
  let ok (l : Nat × Nat × Nat × Nat) := F.join || l.2.1 == k
  let left := (a.cur.take 1).filter (fun l => l.1 + 1 == x && ok l)
  let above := a.prev.filter (fun l => ok l && (l.1 == x || (!F.four && (l.1 + 1 == x || l.1 == x + 1))))
  match ((left ++ above).map (fun l => l.2.2)).eraseDups with
  | [] =>
    if F.maxOpen ≤ a.comps.length then { a with overload := a.overload + 1 }
    else
      let c : FindComp := {
        row := row, col := x, ident := none, reported := false, fresh := false, ovf := false, pixels := 0, classes := []
        xmin := x, xmax := x, lastRow := row, boxes := 0, box := none }
      { a with comps := a.comps ++ [c.add row x k], cur := (x, k, (row, x)) :: a.cur }
  | k0 :: ks =>
    let m := ks.foldl (fun (acc : FindAcc × (Nat × Nat)) j => acc.1.merge acc.2 j) (a, k0)
    let b := m.1
    { b with
      comps := b.comps.map (fun c => if (c.row, c.col) == m.2 then c.add row x k else c)
      cur := (x, k, m.2) :: b.cur }

/-- A component of a row's end is reported, with an identifier if one is staged (R226, R353, R475). -/
def State.findReport (s : State) (replay : Bool) (a : FindAcc) (c : FindComp) : State × FindAcc :=
  let put (s : State) (f : FindComp → FindComp) (taken : List Nat) : State × FindAcc :=
    (s, { a with comps := a.comps.map (fun x => if (x.row, x.col) == (c.row, c.col) then f x else x), taken := a.taken ++ taken })
  match s.trk.staged with
  | [] => put s (fun x => { x with reported := true, fresh := true, ovf := true }) []
  | id :: ids =>
    if replay then put s (fun x => { x with reported := true, fresh := true, ovf := true }) []
    else
      put (s.modTrk (fun t => TrkState.fill { t with staged := ids } 64))
        (fun x => { x with reported := true, fresh := true, ident := some (id, s.genOf id) }) [id]

/-- The end of a row: components are reported, and those without a pixel in it close (R226). -/
def State.findRowEnd (s : State) (F : FindSet) (replay : Bool) (row : Nat) (a : FindAcc) : State × FindAcc :=
  let l := sortComps (a.comps.filter (fun c => !c.reported && F.least ≤ c.pixels))
  let r := l.foldl (fun (x : State × FindAcc) c => x.1.findReport replay x.2 c) (s, a)
  let b := r.2
  let gone := b.comps.filter (fun c => c.lastRow < row)
  (r.1, { b with
    comps := b.comps.filter (fun c => row ≤ c.lastRow)
    closed := b.closed ++ gone.filter (fun c => c.reported)
    dropped := b.dropped + (gone.filter (fun c => !c.reported)).length
    prev := b.cur.reverse, cur := [] })

/-- One map row, as its codes. -/
def State.findRow (s : State) (F : FindSet) (replay : Bool) (row : Nat) (codes : List Nat) (a : FindAcc) : State × FindAcc :=
  s.findRowEnd F replay row (codes.zipIdx.foldl (fun a x => if F.isFg x.1 then a.pixel F row x.2 x.1 else a) a)

/-! ## Positions (R227) -/

/-- The position of a line row counted from the window reset. -/
def CtxWin.position (w : CtxWin) (lines q : Nat) : Int :=
  let L := max 1 lines
  match w.marks.find? (fun m => m.index == q / L) with
  | some m => m.pos.getD (q % L) 0
  | none => match w.marks.getLast? with
    | none => 0
    | some m =>
      let ql : Int := (m.index * L + L - 1 : Nat)
      m.pos.getD (L - 1) 0 + fdiv (((q : Int) - ql) * (m.e - m.s)) L

/-- The positions of the first line row of map row `a` and the last of map row `b`. -/
def CtxWin.mapSpan (w : CtxWin) (lines : Nat) (F : FindSet) (a b : Nat) : Int × Int :=
  (w.position lines (a * F.sa), w.position lines (b * F.sa + F.sa - 1))

/-! ## Lists -/

/-- The part list entry of a component. -/
def FindComp.entry (c : FindComp) (F : FindSet) (ctx kind : Nat) (cut : Bool) (into : Nat) (span : Int × Int) : PartEntry :=
  { ctx := ctx, kind := kind, cut := cut, ovf := c.ident.isNone, cls := c.cls, id := (c.ident.map (fun i => i.1)).getD 0
    gen := (c.ident.map (fun i => i.2)).getD 0, into := into, first := span.1, last := span.2
    colFirst := c.xmin * F.sc % 2 ^ 16, colLast := (c.xmax * F.sc + F.sc - 1) % 2 ^ 16, pixels := c.pixels % 2 ^ 32 }

/-- The 32 bytes of an entry. -/
def PartEntry.bytes (x : PartEntry) : List Nat :=
  leBytes 4 (x.kind + b2n x.cut * 2 ^ 4 + b2n x.ovf * 2 ^ 5 + x.cls * 2 ^ 8 + x.id * 2 ^ 16) ++
  leBytes 4 (x.gen + x.into * 2 ^ 16) ++ leBytes 8 (toU 64 x.first) ++ leBytes 8 (toU 64 x.last) ++
  leBytes 2 x.colFirst ++ leBytes 2 x.colLast ++ leBytes 4 x.pixels

/-- The 32 bytes of a box entry (R228): rows and columns of the box, counted from the step's first map row. -/
def boxBytes (F : FindSet) (c : FindComp) (first : Nat) : List Nat :=
  match c.ident, c.box with
  | some (id, gen), some (y0, y1, x0, x1) =>
    leBytes 4 (id + gen * 2 ^ 12) ++ leBytes 4 0 ++ leBytes 4 ((y0 - first) * 2 ^ 16) ++
    leBytes 4 ((y1 + 1 - first) * 2 ^ 16) ++ leBytes 4 (x0 * 2 ^ 16) ++ leBytes 4 ((x1 + 1) * 2 ^ 16) ++
    leBytes 2 (c.boxes * F.tok) ++ leBytes 2 0 ++ leBytes 4 0
  | _, _ => List.replicate 32 0

/-- What a step of PART_FIND comes to, before anything is written. -/
structure FindOut where
  entries : List PartEntry
  boxes : List (List Nat)
  dropped : Nat
  overload : Nat
  taken : List Nat
  finder : Finder

/-- The labelling state of a descriptor. -/
def CtxWin.finder (w : CtxWin) (idx : Nat) : Finder := (w.finders.find? (fun f => f.desc == idx)).getD ⟨idx, 0, [], []⟩

/-- Run the finder over the map rows `lo` to `hi` of a step. -/
def State.findRun (s : State) (e : Env) (idx d lo hi : Nat) (replay : Bool) : State × FindOut :=
  let F := findSet d
  let t := e.plan.tensor (dIn0 d)
  let f := e.win.finder idx
  let a : FindAcc := { comps := f.comps.map (fun c => { c with fresh := false, box := none }), prev := f.prev }
  let r := (List.range (hi - lo)).foldl (fun (x : State × FindAcc) i =>
    x.1.findRow F replay (lo + i) ((List.range t.W).map (fun c => s.code? e t (lo + i) c 0)) x.2) (s, a)
  let a := r.2
  let span (c : FindComp) := e.win.mapSpan e.lines F c.row c.lastRow
  let cuts := (e.win.cuts.filter (fun c => c.desc == idx)).map (fun c => c.comp.entry F e.ctx 2 true 0 (c.first, c.last))
  let merged := a.merged.map (fun m => m.1.entry F e.ctx 4 false ((m.2.map (fun i => i.1)).getD 0) (span m.1))
  let excess := if a.overload = 0 then [] else
    let p := e.win.mapSpan e.lines F lo (hi - 1)
    [{ ctx := e.ctx, kind := 5, cut := false, ovf := false, cls := 0, id := 0, gen := 0, into := 0, first := p.1, last := p.2
       colFirst := 0, colLast := (t.W * F.sc - 1) % 2 ^ 16, pixels := a.overload % 2 ^ 32 : PartEntry }]
  let shown := sortComps (a.comps.filter (fun c => c.reported && c.box.isSome) ++ a.closed)
  let kind (c : FindComp) := if a.closed.any (fun x => (x.row, x.col) == (c.row, c.col)) then (if c.fresh then 3 else 2)
    else (if c.fresh then 0 else 1)
  let boxed := shown.filter (fun c => c.ident.isSome && c.box.isSome)
  let cap := if dAux d = 0 then 0 else (e.plan.tensor (dAux d)).H
  let given := boxed.take cap
  let keep := a.comps.map (fun c => if given.any (fun g => (g.row, g.col) == (c.row, c.col)) then { c with boxes := c.boxes + 1 } else c)
  (r.1, { entries := cuts ++ merged ++ excess ++ shown.map (fun c => c.entry F e.ctx (kind c) false 0 (span c))
          boxes := given.map (fun c => boxBytes F c lo), dropped := a.dropped, overload := a.overload, taken := a.taken
          finder := { desc := idx, rows := hi, comps := keep.map (fun c => { c with fresh := false, box := none }), prev := a.prev } })

/-- The part list's header and entries (R227). -/
def FindOut.listBytes (o : FindOut) (cap ctx no step : Nat) : List Nat :=
  let n := min cap o.entries.length
  leBytes 4 n ++ leBytes 4 ctx ++ leBytes 4 no ++ leBytes 4 o.dropped ++ leBytes 4 o.overload ++
  leBytes 4 (o.entries.length - n) ++ leBytes 8 step ++ (o.entries.take n).flatMap PartEntry.bytes

/-- The same with identifier, generation, into and ovf read as zero, for the digest (R472). -/
def FindOut.digestBytes (o : FindOut) (cap ctx no step : Nat) : List Nat :=
  FindOut.listBytes { o with entries := o.entries.map (fun x => { x with id := 0, gen := 0, into := 0, ovf := false }) } cap ctx no step

/-- Write a LIST tensor whole. -/
def State.putList (s : State) (e : Env) (t : Tensor) (bs : List Nat) : State :=
  let s := s.tensorBytes e t 0 0 bs
  if t.space = 0 then s.jobLines e (e.base s + t.addr) bs.length else s

/-- The box list's header and entries. -/
def boxListBytes (l : List (List Nat)) : List Nat := leBytes 4 l.length ++ List.replicate 28 0 ++ l.flatMap id

/-- PART_FIND over the map rows of a step (R226 to R229): the lists are written, and the entries go to TRK unless the stripe
is a replay (R119). Answers the new streaming state and the bytes of its digest. -/
def State.partFind (s : State) (e : Env) (idx d lo hi no : Nat) (replay : Bool) : State × CtxWin × List Nat :=
  let r := s.findRun e idx d lo hi replay
  let o := r.2
  let out := e.plan.tensor (dOut d)
  let s := r.1.putList e out (o.listBytes out.H e.ctx no e.step)
  let s := if dAux d = 0 then s else s.putList e (e.plan.tensor (dAux d)) (boxListBytes o.boxes)
  let s := if replay then s else s.modTrk (fun t => { t with entries := t.entries ++ o.entries })
  (s, { e.win with finders := e.win.finders.filter (fun f => f.desc != idx) ++ [o.finder]
                   cuts := e.win.cuts.filter (fun c => c.desc != idx) }, o.digestBytes out.H e.ctx no e.step)

/-- A step is aborted while its finder runs: the identifiers it took return to the queue (R353). -/
def State.findAbort (s : State) (e : Env) (idx d lo hi : Nat) (replay : Bool) : State :=
  let r := s.findRun e idx d lo hi replay
  r.1.forEach r.2.taken (fun s id => (s.bumpGen id).giveId id)

/-- A window reset (R229): reported components are cut, the rest are dropped. -/
def CtxWin.cutAll (w : CtxWin) (lines : Nat) (descs : List Nat) : List CutEntry :=
  w.cuts ++ w.finders.flatMap (fun f =>
    let F := findSet (descs.getD f.desc 0)
    (sortComps (f.comps.filter (fun c => c.reported))).map (fun c =>
      let p := w.mapSpan lines F c.row c.lastRow
      { desc := f.desc, comp := c, first := p.1, last := p.2 }))

end Sys2Proof.Machine
end

