-- ==== Sys2Proof/Machine/Operators.lean ====
section
/-!
DEFINITION. Machine/Operators.lean: what each operator computes of one output element (R208 to R224, R240 to R252, R457 to
R460): the elements it reads, the reduction sequence, and the value before conversion.
-/
namespace Sys2Proof.Machine

/-- One place of a reduction sequence (R199, R209): its chunk, its accumulator, and the elements it reads. -/
structure Red where
  key : Nat
  run : Nat
  taps : List Tap

/-- What an element comes to before the output converter: a binary32 value, or a code that is copied (R238, R239). -/
inductive Res where
  | y (v : Nat)
  | code (v : Nat)
  deriving DecidableEq, Repr

/-- How one output element is formed. -/
structure Elem where
  /-- The reduction sequence, and how many accumulators it feeds. -/
  red : List Red := []
  runs : Nat := 1
  /-- The accumulators are exact integers (R240). -/
  int : Bool := false
  /-- A term, as an integer. -/
  termI : List Nat → Int := fun _ => 0
  /-- A term, as a binary32 value. -/
  termF : List Nat → Nat := fun _ => 0
  /-- Further reads. -/
  extra : List Tap := []
  /-- The result, from the accumulators (integers, or binary32 patterns) and the codes of the further reads. -/
  fin : List Int → List Nat → Res

/-! ## Accumulation (R209, R240, R241) -/

/-- The accumulators of a part of the reduction sequence. -/
def Elem.accum (el : Elem) (s : State) (e : Env) (l : List Red) : List Int :=
  (List.range el.runs).map (fun r =>
    let l := l.filter (fun x => x.run == r)
    if el.int then l.foldl (fun t x => t + el.termI (x.taps.map (s.tap e))) 0
    else (chunkedSum (l.map (fun x => (x.key, el.termF (x.taps.map (s.tap e))))) : Nat))

/-- Part `i` of a reduction sequence cut into `n` parts (R199). -/
def cutPart {α : Type} (l : List α) (n i : Nat) : List α :=
  let k := ceilDiv l.length (max 1 n)
  (l.drop (i * k)).take k

/-- One addition of partials (R177). -/
def addAcc (int : Bool) (a b : List Int) : List Int :=
  (a.zip b).map (fun x => if int then x.1 + x.2 else (f32Add x.1.toNat x.2.toNat : Nat))

/-! ## Small pieces -/

/-- The binary32 scale, 1.0 for NONE. -/
def scaleOr1 (s : Option Nat) : Nat := s.getD f32One

/-- The integer value of a code of an integer format. -/
def intCode (fmt code : Nat) : Int := if fmt = 0 then sext 8 code else if fmt = 1 then (code % 256 : Nat) else sext 32 code

/-- Element `k` of a tensor read as a vector. -/
def vecTap (t : Tensor) (k : Nat) : Tap :=
  if t.layout = layMAT then .elem t (k / max 1 t.C) (k % max 1 t.C) 0 else .elem t 0 0 k

/-- The activations (R208). -/
def activation (act param y : Nat) : Nat :=
  match act with
  | 1 => f32Max y 0
  | 2 => f32Min (f32Max y 0) 0x40C00000
  | 3 => if f32Le 0 y then y else f32Mul y param
  | 4 => f32Div (f32Mul (f32Min (f32Max (f32Add y 0x40400000) 0) 0x40C00000) y) 0x40C00000
  | _ => y

/-- Is an element (code, value) taken in place of another: integer formats compare codes, the others values (R214, R235)? -/
def beats (isMax : Bool) (fmt : Nat) (b x : Nat × Nat) : Bool :=
  if !fmtIsFlt fmt then (if isMax then intCode fmt b.1 < intCode fmt x.1 else intCode fmt x.1 < intCode fmt b.1)
  else if fIsNaN b.2 then true
  else if fIsNaN x.2 then false
  else if fIsZero b.2 && fIsZero x.2 then fNeg b.2 == isMax
  else if isMax then f32Lt b.2 x.2 else f32Lt x.2 b.2

/-- The maximum or minimum of elements: channel, code and value of one of them (R214, R239). -/
def pickBy (isMax : Bool) (fmt : Nat) (l : List (Nat × Nat × Nat)) : Option (Nat × Nat × Nat) :=
  l.foldl (fun best x => match best with
    | none => some x
    | some b => if beats isMax fmt b.2 x.2 then some x else some b) none

/-- May codes be copied from a tensor to the output (R239)? -/
def Env.copies (e : Env) (t out : Tensor) (ct co : Nat) : Bool :=
  t.fmt == out.fmt && t.scaleMode == out.scaleMode && scaleOr1 (e.inScale t ct) == scaleOr1 (e.outScale out co)

/-- The result of an operator that takes one of its elements: its code, or its value (R239); of several that are all NaN, the canonical
NaN (R235). -/
def takeOne (e : Env) (t out : Tensor) (co : Nat) (isMax : Bool) (l : List (Nat × Nat × Nat)) : Res :=
  match pickBy isMax t.fmt l with
  | none => .y 0
  | some b =>
    let nan := fIsNaN b.2.2
    if e.copies t out b.1 co then .code (if nan && 1 < l.length then (if t.fmt = 6 then f32NaN else fmtNaN t.fmt) else b.2.1)
    else .y (if nan then f32NaN else b.2.2)

/-! ## Kernel geometry (R210) -/

/-- Kernel, stride, dilation and padding of a descriptor. -/
structure Kern where
  kh : Nat
  kw : Nat
  sh : Nat
  sw : Nat
  dh : Nat
  dw : Nat
  top : Nat
  bottom : Nat
  left : Nat
  right : Nat

/-- The kernel fields of CONV and the pooling operators. -/
def kernOf (d : Nat) : Kern :=
  ⟨dByte d 0x30, dByte d 0x31, dByte d 0x32, dByte d 0x33, dByte d 0x34, dByte d 0x35, dByte d 0x36, dByte d 0x37,
    dByte d 0x38, dByte d 0x39⟩

/-- An input element at a row and column that may lie outside: `none` there. -/
def insideTap (t : Tensor) (stream : Bool) (row col : Int) (c : Nat) : Option Tap :=
  if row < 0 || col < 0 || (t.W : Int) ≤ col || (!stream && (t.H : Int) ≤ row) then none
  else some (.elem t row.toNat col.toNat c)

/-! ## The operand pairs (R211, R245 to R251) -/

/-- Is the operand pair an integer one? -/
def intPair (t : Tensor) : Bool := t.fmt ≤ 1

/-- The group scale of a WGT_LUT output channel and group (R246). -/
def groupScale (p : Plan) (t : Tensor) (co gr : Nat) : Nat := leAt (p.table (4 * t.aux + 1)) ((co * ceilDiv t.C 128 + gr) * 32 + 16) 4

/-- The codebook value of a WGT_LUT code (R246). -/
def bookValue (p : Plan) (t : Tensor) (co gr k : Nat) : Int :=
  sext 8 ((p.table (4 * t.aux + 1)).getD ((co * ceilDiv t.C 128 + gr) * 32 + k) 0)

/-- The run of a group: how often the group scale has changed before it (R251). -/
def runOf (p : Plan) (t : Tensor) (co gr : Nat) : Nat :=
  ((List.range gr).filter (fun g => groupScale p t co g != groupScale p t co (g + 1))).length

/-- Runs of an output channel, and the group scale of each. -/
def runScales (p : Plan) (t : Tensor) (co : Nat) : List Nat :=
  if t.layout != layLUT then [f32One]
  else
    let G := ceilDiv t.C 128
    ((List.range G).filter (fun g => g = 0 || groupScale p t co (g - 1) != groupScale p t co g)).map (groupScale p t co)

/-- The outlier set of a descriptor: channel indices, activation and weight tensors (R249). -/
def outliers (p : Plan) (d : Nat) : Option (List Nat × Tensor × Tensor) :=
  if dAux d = 0 || !(dOp d == 1 || dOp d == 2) then none
  else
    let l := p.table (4 * dAux d + 2)
    some ((List.range (leAt l 0 4)).map (fun j => leAt l (32 + 4 * j) 2), p.tensor (leAt l 8 8), p.tensor (leAt l 16 8))

/-- The epilogue of CONV and MATMUL (R208, R251): from the accumulators, then outlier sum and bias code. -/
def epilogue (e : Env) (d : Nat) (t0 t1 : Tensor) (co wIdx : Nat) (int : Bool) (accs : List Int) (o : Option Nat)
    (bias : Option Nat) : Nat :=
  let m := f32Mul (scaleOr1 (e.inScale t0 0)) (scaleOr1 (e.inScale t1 wIdx))
  let y :=
    if int then
      (((accs.zip (runScales e.plan t1 co)).foldl (fun acc x =>
        let t := f32Mul (f32OfInt x.1) (f32Mul m x.2)
        match acc with
        | none => some t
        | some y => some (f32Add y t)) none).getD 0)
    else f32Mul ((accs.headD 0).toNat) m
  let y := match o with
    | some v => f32Add y v
    | none => y
  let y := match bias with
    | some b => f32Add y (if dBiasFmt d = 1 then fCanon b else f32Mul (f32OfInt (sext 32 b)) m)
    | none => y
  activation (dAct d) (dActParam d) y

/-- One product of CONV or MATMUL: chunk, run, weight group, activation, weight. -/
structure Pair where
  key : Nat
  run : Nat
  group : Nat
  x : Tap
  w : Tap

/-- CONV and MATMUL from their reduction sequence, outlier products (chunk, activation, weight) and bias (R208, R240,
R241, R250). -/
def pairElem (e : Env) (d : Nat) (t0 t1 : Tensor) (co : Nat) (l : List Pair) (oTaps : Option (List (Nat × Tap × Tap)))
    (bias : Option Tap) : Elem where
  red := l.map (fun p => { key := p.key, run := p.run, taps := [p.x, p.w, .const p.group] })
  runs := (runScales e.plan t1 co).length
  int := intPair t0
  termI := fun k =>
    intCode t0.fmt (k.headD 0) *
      (if t1.layout = layLUT then bookValue e.plan t1 co (k.getD 2 0) (k.getD 1 0) else intCode t1.fmt (k.getD 1 0))
  termF := fun k => f32Mul (widen t0.fmt (k.headD 0)) (widen t1.fmt (k.getD 1 0))
  extra := (oTaps.getD []).flatMap (fun x => [x.2.1, x.2.2]) ++ bias.toList
  fin := fun accs k =>
    let n := 2 * (oTaps.getD []).length
    let ov := oTaps.map (fun o => chunkedSum (o.zipIdx.map (fun x =>
      (x.1.1, f32Mul (widenFlt 4 (k.getD (2 * x.2) 0)) (widenFlt 4 (k.getD (2 * x.2 + 1) 0))))))
    .y (epilogue e d t0 t1 co co (intPair t0) accs ov (if bias.isSome then some (k.getD n 0) else none))

/-- The bias element of an output channel. -/
def biasTap (e : Env) (d co : Nat) : Option Tap :=
  if dBiasFmt d = 0 then none else some (vecTap (e.plan.tensor (dIn2 d)) co)

/-- CONV (R210, R211). -/
def convElem (e : Env) (d h w co : Nat) : Elem :=
  let t0 := e.plan.tensor (dIn0 d)
  let t1 := e.plan.tensor (dIn1 d)
  let out := e.plan.tensor (dOut d)
  let K := kernOf d
  let groups := max 1 (dField d 0x3C 15 0)
  let Cg := t1.C
  let q := co / max 1 (out.C / groups)
  let pad := dField d 0x40 15 0 % 2 ^ (8 * t0.e)
  let os := outliers e.plan d
  let skip := (os.map (fun o => o.1)).getD []
  let row (ky : Nat) : Int := ((h * K.sh + ky * K.dh : Nat) : Int) - K.top
  let col (kx : Nat) : Int := ((w * K.sw + kx * K.dw : Nat) : Int) - K.left
  let l := (List.range (ceilDiv Cg 32)).flatMap (fun cb => (List.range K.kh).flatMap (fun ky =>
    (List.range K.kw).flatMap (fun kx => (List.range (min 32 (Cg - 32 * cb))).filterMap (fun i =>
      let ci := 32 * cb + i
      if skip.contains (q * Cg + ci) then none
      else some ({ key := (cb * K.kh + ky) * K.kw + kx, run := if t1.layout = layLUT then runOf e.plan t1 co (ci / 128) else 0
                   group := ci / 128
                   x := (insideTap t0 (dStream d) (row ky) (col kx) (q * Cg + ci)).getD (.const pad)
                   w := .elem t1 co (ky * K.kw + kx) ci } : Pair)))))
  let oTaps := os.map (fun o => (List.range K.kh).flatMap (fun ky => (List.range K.kw).flatMap (fun kx =>
    (List.range o.1.length).map (fun j =>
      (ky * K.kw + kx, (insideTap o.2.1 (dStream d) (row ky) (col kx) j).getD (.const 0), Tap.elem o.2.2 co (ky * K.kw + kx) j)))))
  pairElem e d t0 t1 co l oTaps (biasTap e d co)

/-- MATMUL (R212): row `b * M + m`, column `n`. -/
def matmulElem (e : Env) (d row n : Nat) : Elem :=
  let A := e.plan.tensor (dIn0 d)
  let B := e.plan.tensor (dIn1 d)
  let bb := if bit (dVariant d) 1 then 0 else row / max 1 A.W
  let os := outliers e.plan d
  let skip := (os.map (fun o => o.1)).getD []
  let wTap (k : Nat) : Tap :=
    if B.layout != layMAT then .elem B n 0 k
    else if bit (dVariant d) 0 then .elem B (bb * B.W + n) k 0
    else .elem B (bb * B.W + k) n 0
  let l := (List.range A.C).filterMap (fun k => if skip.contains k then none
    else some ({ key := k / 32, run := if B.layout = layLUT then runOf e.plan B n (k / 128) else 0, group := k / 128
                 x := .elem A row k 0, w := wTap k } : Pair))
  let oTaps := os.map (fun o => (List.range o.1.length).map (fun j => (0, Tap.elem o.2.1 row j 0, Tap.elem o.2.2 n 0 j)))
  pairElem e d A B n l oTaps (biasTap e d n)

/-! ## Pooling and resizing (R213 to R218) -/

/-- The positions of a pooling window in order, `none` for padding. -/
def windowTaps (d h w c : Nat) (t : Tensor) : List (Option Tap) :=
  let K := kernOf d
  (List.range K.kh).flatMap (fun ky => (List.range K.kw).map (fun kx =>
    insideTap t (dStream d) (((h * K.sh + ky : Nat) : Int) - K.top) (((w * K.sw + kx : Nat) : Int) - K.left) c))

/-- MAXPOOL (R214). -/
def maxpoolElem (e : Env) (d h w c : Nat) : Elem :=
  let t := e.plan.tensor (dIn0 d)
  let out := e.plan.tensor (dOut d)
  { extra := (windowTaps d h w c t).filterMap id
    fin := fun _ l => takeOne e t out c true (l.map (fun x => (c, x, e.value t h w c x))) }

/-- A mean: exact integer or chunked sum, divided, times the scale (R215, R216). -/
def meanElem (e : Env) (t : Tensor) (c : Nat) (taps : List Tap) (d : Nat) : Elem :=
  { red := taps.zipIdx.map (fun x => { key := x.2 / 32, run := 0, taps := [x.1] })
    int := !fmtIsFlt t.fmt
    termI := fun l => intCode t.fmt (l.headD 0)
    termF := fun l => widen t.fmt (l.headD 0)
    fin := fun acc _ =>
      let S := if fmtIsFlt t.fmt then (acc.headD 0).toNat else f32OfInt (acc.headD 0)
      .y (f32Mul (f32Div S (f32OfInt d)) (scaleOr1 (e.inScale t c))) }

/-- AVGPOOL (R215). -/
def avgpoolElem (e : Env) (d h w c : Nat) : Elem :=
  let t := e.plan.tensor (dIn0 d)
  let win := windowTaps d h w c t
  let n := if bit (dWord d 0x3C) 0 then win.length else (win.filter (fun x => x.isSome)).length
  meanElem e t c (win.map (fun x => x.getD (.const 0))) n

/-- GPOOL (R216). -/
def gpoolElem (e : Env) (d c : Nat) : Elem :=
  let t := e.plan.tensor (dIn0 d)
  let out := e.plan.tensor (dOut d)
  let taps := (List.range t.H).flatMap (fun h => (List.range t.W).map (fun w => Tap.elem t h w c))
  if bit (dVariant d) 0 then meanElem e t c taps taps.length
  else { extra := taps, fin := fun _ l => takeOne e t out c true (l.map (fun x => (c, x, e.value t 0 0 c x))) }

/-- The two indices and the fraction of a coordinate along an axis; `len` is none for an unbounded axis (R150, R217). -/
def axisTaps (u : Int) (len : Option Nat) : Nat × Nat × Nat :=
  let i := sra u 16
  if u < 0 then (0, 0, 0)
  else match len with
    | some n => if (n : Int) - 1 ≤ i then (n - 1, n - 1, 0) else (i.toNat, i.toNat + 1, (u % 65536).toNat)
    | none => (i.toNat, i.toNat + 1, (u % 65536).toNat)

/-- The bilinear sample of four codes (R217): integer inputs. -/
def bilinearInt (c00 c01 c10 c11 : Int) (F G : Nat) (scale : Nat) : Nat :=
  let hj := c00 * 65536 + (c01 - c00) * F
  let hk := c10 * 65536 + (c11 - c10) * F
  f32Mul (f32Mul (f32OfInt (hj * 65536 + (hk - hj) * G)) 0x2F800000) scale

/-- The bilinear sample of four values (R217): floating inputs. -/
def bilinearFlt (v00 v01 v10 v11 F G : Nat) : Nat :=
  let f := f32Ratio F 16
  let hj := f32Fma (f32Sub v01 v00) f v00
  let hk := f32Fma (f32Sub v11 v10) f v10
  f32Fma (f32Sub hk hj) (f32Ratio G 16) hj

/-- A sample of a feature map between two rows and two columns (R217). -/
def sampleElem (e : Env) (t : Tensor) (c : Nat) (r x : Nat × Nat × Nat) : Elem :=
  { extra := [.elem t r.1 x.1 c, .elem t r.1 x.2.1 c, .elem t r.2.1 x.1 c, .elem t r.2.1 x.2.1 c]
    fin := fun _ l =>
      let k (i : Nat) := l.getD i 0
      if fmtIsFlt t.fmt then
        let v (i : Nat) := e.value t r.1 x.1 c (k i)
        .y (bilinearFlt (v 0) (v 1) (v 2) (v 3) x.2.2 r.2.2)
      else
        let v (i : Nat) := intCode t.fmt (k i)
        .y (bilinearInt (v 0) (v 1) (v 2) (v 3) x.2.2 r.2.2 (scaleOr1 (e.inScale t c))) }

/-- The row coordinate of an output row of RESIZE. -/
def resizeRow (d y : Nat) : Int := sext 32 (dWord d 0x30) + (y * dWord d 0x34 : Nat)

/-- RESIZE (R217). -/
def resizeElem (e : Env) (d h w c : Nat) : Elem :=
  let t := e.plan.tensor (dIn0 d)
  let out := e.plan.tensor (dOut d)
  let r := axisTaps (resizeRow d h) (if dStream d then none else some t.H)
  let x := axisTaps (sext 32 (dWord d 0x38) + (w * dWord d 0x3C : Nat)) (some t.W)
  if bit (dVariant d) 0 then sampleElem e t c r x
  else
    let near (a : Nat × Nat × Nat) := if 0x8000 ≤ a.2.2 then a.2.1 else a.1
    { extra := [.elem t (near r) (near x) c]
      fin := fun _ l => takeOne e t out c true [(c, l.headD 0, e.value t 0 0 c (l.headD 0))] }

/-- The rows of a feature map that CROP_RESIZE may read: the first held, and the end; and the first row of the step. -/
structure CropRows where
  lo : Nat
  hi : Nat
  first : Nat

/-- A needed row, moved to the nearest that is held (R218), and whether it moved. -/
def CropRows.near (r : CropRows) (x : Nat) : Nat × Bool :=
  if x < r.lo then (r.lo, true) else if r.hi ≤ x then (r.hi - 1, true) else (x, false)

/-- The row and column coordinates of token `t` of a box (R218). -/
def cropPoint (d : Nat) (box : List Nat) (t : Nat) : Int × Int :=
  let oh : Int := max 1 (dByte d 0x30)
  let ow : Int := max 1 (dByte d 0x31)
  let at' (off : Nat) (ratio : Nat) : Int := sra (sext 32 (leAt box off 4) * ratio) 16
  let Y0 := at' 0x08 (dWord d 0x34)
  let Y1 := at' 0x0C (dWord d 0x34)
  let X0 := at' 0x10 (dWord d 0x38)
  let X1 := at' 0x14 (dWord d 0x38)
  let i : Int := (t / max 1 (dByte d 0x31) : Nat)
  let k : Int := (t % max 1 (dByte d 0x31) : Nat)
  (Y0 + fdiv ((2 * i + 1) * (Y1 - Y0)) (2 * oh) - 0x8000, X0 + fdiv ((2 * k + 1) * (X1 - X0)) (2 * ow) - 0x8000)

/-- The two rows of a token, as held, and whether one was replaced. -/
def cropRows (rows : CropRows) (v : Int) (len : Option Nat) : (Nat × Nat × Nat) × Bool :=
  let a := axisTaps (v + (rows.first * 65536 : Nat)) len
  let p := rows.near a.1
  let q := rows.near a.2.1
  ((p.1, q.1, a.2.2), p.2 || (q.2 && a.2.2 != 0))

/-- CROP_RESIZE (R218): row `j * W + token` of out, channel `c`. -/
def cropElem (s : State) (e : Env) (d : Nat) (rows : CropRows) (row c : Nat) : Elem :=
  let t := e.plan.tensor (dIn0 d)
  let n := max 1 (dByte d 0x30 * dByte d 0x31)
  let box := s.listEntry e (e.plan.tensor (dIn1 d)) (row / n)
  let p := cropPoint d box (row % n)
  sampleElem e t c (cropRows rows p.1 (if t.window then none else some t.H)).1 (axisTaps p.2 (some t.W))

/-! ## Elementwise, reductions, softmax, normalisation, argmax (R219, R221 to R224) -/

/-- One operation of an ELTWISE chain (R219). -/
def eltOp (op a b : Nat) : Nat :=
  match op with
  | 1 => f32Add a b
  | 2 => f32Sub a b
  | 3 => f32Sub b a
  | 4 => f32Mul a b
  | 5 => f32Div a b
  | 6 => f32Max a b
  | 7 => f32Min a b
  | 8 => f32Abs a
  | 9 => f32Neg a
  | 10 => f32Sqrt a
  | 11 => f32Div f32One a
  | 12 => exp2 a
  | 13 => f32Div f32One (f32Add f32One (exp2 (f32Mul (f32Neg a) 0x3FB8AA3B)))
  | 14 => if fIsNaN a then f32NaN else if fIsInf a || fIsZero a then a
          else
            let f := fdiv (fInt a) (2 ^ 149 : Nat)
            if f = 0 then fSign (fNeg a) 0 else f32OfInt f
  | 15 => f32Max a 0
  | _ => a

/-- A tensor operand of ELTWISE, broadcast along axes of size 1. -/
def broadTap (t : Tensor) (window : Bool) (h w c : Nat) : Tap :=
  let h' := if t.H = 1 && !window then 0 else h
  let w' := if t.W = 1 then 0 else w
  if t.layout = layMAT then .elem t h w 0 else .elem t h' w' c

/-- The same for a MAT operand: batches and rows broadcast. -/
def broadMat (t out : Tensor) (row k : Nat) : Tap :=
  let W := max 1 out.W
  let b := if t.H = 1 then 0 else row / W
  let r := if t.W = 1 then 0 else row % W
  .elem t (b * t.W + r) k 0

/-- ELTWISE (R219). -/
def eltwiseElem (e : Env) (d h w c : Nat) : Elem :=
  let t0 := e.plan.tensor (dIn0 d)
  let t1 := e.plan.tensor (dIn1 d)
  let t2 := e.plan.tensor (dIn2 d)
  let out := e.plan.tensor (dOut d)
  let ops := ((List.range 8).map (fun k => (dByte d (0x30 + k), k))).takeWhile (fun x => x.1 % 32 != 0)
  let tapOf (t : Tensor) : Tap := if out.layout = layMAT then broadMat t out h w else broadTap t t.window h w c
  let ch := if out.layout = layMAT then w else c
  let src (x : Nat × Nat) : List Tap :=
    if 8 ≤ x.1 % 32 && x.1 % 32 ≤ 15 then []
    else match bits x.1 6 5 with
      | 1 => [tapOf t1]
      | 2 => [tapOf t2]
      | 3 => [vecTap t2 ch]
      | _ => []
  { extra := tapOf t0 :: ops.flatMap src
    fin := fun _ l =>
      let a := e.value t0 h w c (l.headD 0)
      let r := ops.foldl (fun (acc : Nat × List Nat) x =>
        let b := match src x with
          | [] => (dWord d (0x38 + 4 * x.2), acc.2)
          | _ :: _ =>
            let k := acc.2.headD 0
            (match bits x.1 6 5 with
              | 1 => e.value t1 h w c k
              | 2 => e.value t2 h w c k
              | _ => fCanon k, acc.2.drop 1)
        (eltOp (x.1 % 32) acc.1 b.1, b.2)) (a, l.drop 1)
      .y r.1 }

/-- The elements along the axis of a REDUCE (R221). -/
def reduceTaps (t : Tensor) (axis h w c : Nat) : List Tap :=
  if t.layout = layMAT then
    match axis with
    | 0 => (List.range t.C).map (fun k => .elem t h k 0)
    | 1 => (List.range t.W).map (fun r => .elem t (h * t.W + r) w 0)
    | _ => (List.range t.H).map (fun b => .elem t (b * t.W + h) w 0)
  else
    match axis with
    | 0 => (List.range t.C).map (fun k => .elem t h w k)
    | 1 => (List.range t.W).map (fun x => .elem t h x c)
    | _ => (List.range t.H).map (fun y => .elem t y w c)

/-- The value of a tap's code. -/
def tapValue (e : Env) : Tap → Nat → Nat
  | .elem t h w c, k => e.value t h w c k
  | .const _, k => k

/-- The channel whose scale an element of a tensor has; `ch` for a constant. -/
def tapChannel (t : Tensor) (ch : Nat) : Tap → Nat
  | .elem _ h w c => t.scaleIdx h w c
  | .const _ => ch

/-- REDUCE (R221). -/
def reduceElem (e : Env) (d h w c : Nat) : Elem :=
  let t := e.plan.tensor (dIn0 d)
  let out := e.plan.tensor (dOut d)
  let axis := bits (dVariant d) 1 0
  let op := bits (dVariant d) 4 2
  let taps := reduceTaps t axis h w c
  let ch := if t.layout = layMAT then w else c
  if op = 2 || op = 3 then
    { extra := taps
      fin := fun _ l =>
        takeOne e t out ch (op == 2) ((taps.zip l).map (fun x => (tapChannel t ch x.1, x.2, tapValue e x.1 x.2))) }
  else
    { red := taps.zipIdx.map (fun x => { key := x.2 / 32, run := 0, taps := [x.1, .const x.2] })
      termF := fun l =>
        let v := tapValue e (taps.getD (l.getD 1 0) (.const 0)) (l.headD 0)
        if op = 4 then f32Mul v v else v
      fin := fun acc _ =>
        let S := (acc.headD 0).toNat
        .y (if op = 1 then f32Div S (f32OfInt taps.length) else S) }

/-- The elements along C of a row. -/
def rowTaps (t : Tensor) (h w : Nat) : List Tap :=
  (List.range t.C).map (fun c => if t.layout = layMAT then .elem t h c 0 else .elem t h w c)

/-- The softmax of values at index `i` (R222). -/
def softmaxAt (xs : List Nat) (i : Nat) : Nat :=
  let m := (xs.drop 1).foldl f32Max (xs.headD 0)
  let es := xs.map (fun x => exp2 (f32Mul (f32Sub x m) 0x3FB8AA3B))
  f32Div (es.getD i 0) (sum32 es)

/-- SOFTMAX (R222). -/
def softmaxElem (e : Env) (d h w c : Nat) : Elem :=
  let t := e.plan.tensor (dIn0 d)
  let taps := rowTaps t h w
  { extra := taps
    fin := fun _ l => .y (softmaxAt ((taps.zip l).map (fun x => tapValue e x.1 x.2)) (if t.layout = layMAT then w else c)) }

/-- NORM (R223). -/
def normElem (e : Env) (d h w c : Nat) : Elem :=
  let t := e.plan.tensor (dIn0 d)
  let g := e.plan.tensor (dIn1 d)
  let i := if t.layout = layMAT then w else c
  let taps := rowTaps t h w
  let rms := bit (dVariant d) 0
  { extra := taps ++ [vecTap g i, vecTap g (t.C + i)].take (if rms then 1 else 2)
    fin := fun _ l =>
      let xs := (taps.zip l).map (fun x => tapValue e x.1 x.2)
      let n := f32OfInt t.C
      let eps := dWord d 0x30
      let gamma := fCanon (l.getD t.C 0)
      if rms then
        let r := f32Div f32One (f32Sqrt (f32Add (f32Div (sum32 (xs.map (fun x => f32Mul x x))) n) eps))
        .y (f32Mul (f32Mul (xs.getD i 0) r) gamma)
      else
        let mu := f32Div (sum32 xs) n
        let ds := xs.map (fun x => f32Sub x mu)
        let v := f32Div (sum32 (ds.map (fun x => f32Mul x x))) n
        let r := f32Div f32One (f32Sqrt (f32Add v eps))
        .y (f32Add (f32Mul (f32Mul (ds.getD i 0) r) gamma) (fCanon (l.getD (t.C + 1) 0))) }

/-- The lowest index of the largest value, NaN never the largest (R224). -/
def argmax (xs : List Nat) : Nat :=
  ((xs.zipIdx.foldl (fun (best : Option (Nat × Nat)) x =>
    if fIsNaN x.1 then best
    else match best with
      | none => some x
      | some b => if f32Lt b.1 x.1 then some x else some b) none).map (fun b => b.2)).getD 0

/-- ARGMAX (R224). -/
def argmaxElem (e : Env) (d h w : Nat) : Elem :=
  let t := e.plan.tensor (dIn0 d)
  let taps := (List.range t.C).map (fun c => Tap.elem t h w c)
  { extra := taps, fin := fun _ l => .code (argmax ((taps.zip l).map (fun x => tapValue e x.1 x.2))) }

/-! ## Training (R457 to R459) -/

/-- A reduction of products of values in the given order and chunks. -/
def prodElem (e : Env) (l : List (Nat × Tap × Tap)) : Elem :=
  { red := l.zipIdx.map (fun x => { key := x.1.1, run := 0, taps := [x.1.2.1, x.1.2.2, .const x.2] })
    termF := fun k =>
      let x := l.getD (k.getD 2 0) (0, .const 0, .const 0)
      f32Mul (tapValue e x.2.1 (k.headD 0)) (tapValue e x.2.2 (k.getD 1 0))
    fin := fun acc _ => .y (acc.headD 0).toNat }

/-- Rows per sample of CONV_WGRAD and CONV_DGRAD. -/
def sampleRows (d rows : Nat) : Nat := if dWord d 0x44 = 0 then rows else dWord d 0x44

/-- CONV_WGRAD (R457): weight (co, ky * kw + kx, ci). -/
def convWgradElem (e : Env) (d co kyx ci : Nat) : Elem :=
  let X := e.plan.tensor (dIn0 d)
  let dY := e.plan.tensor (dIn1 d)
  let out := e.plan.tensor (dOut d)
  let K := kernOf d
  let groups := max 1 (dField d 0x3C 15 0)
  let Hs := max 1 (sampleRows d X.H)
  let B := X.H / Hs
  let Ho := dY.H / max 1 B
  let q := co / max 1 (out.H / groups)
  let ky := kyx / max 1 K.kw
  let kx := kyx % max 1 K.kw
  let pad := widen X.fmt (dField d 0x40 15 0 % 2 ^ (8 * X.e))
  let l := (List.range B).flatMap (fun b => (List.range Ho).flatMap (fun o => (List.range dY.W).map (fun x =>
    let r : Int := ((o * K.sh + ky * K.dh : Nat) : Int) - K.top
    let c : Int := ((x * K.sw + kx * K.dw : Nat) : Int) - K.left
    (Tap.elem dY (b * Ho + o) x co,
      if r < 0 || (Hs : Int) ≤ r || c < 0 || (X.W : Int) ≤ c then Tap.const pad
      else Tap.elem X (b * Hs + r.toNat) c.toNat (q * out.C + ci)))))
  prodElem e (l.zipIdx.map (fun x => (x.2 / 32, x.1.1, x.1.2)))

/-- CONV_DGRAD (R457): input element (row, column, channel). -/
def convDgradElem (e : Env) (d h w c : Nat) : Elem :=
  let dY := e.plan.tensor (dIn0 d)
  let Wt := e.plan.tensor (dIn1 d)
  let out := e.plan.tensor (dOut d)
  let K := kernOf d
  let groups := max 1 (dField d 0x3C 15 0)
  let Hs := max 1 (sampleRows d out.H)
  let B := max 1 (out.H / Hs)
  let Ho := dY.H / B
  let Cg := max 1 Wt.C
  let q := c / Cg
  let Cog := Wt.H / groups
  let b := h / Hs
  let l := (List.range (ceilDiv Cog 32)).flatMap (fun cb => (List.range K.kh).flatMap (fun ky => (List.range K.kw).flatMap
    (fun kx => (List.range (min 32 (Cog - 32 * cb))).filterMap (fun i =>
      let co := q * Cog + 32 * cb + i
      let r : Int := ((h % Hs + K.top : Nat) : Int) - (ky * K.dh : Nat)
      let x : Int := ((w + K.left : Nat) : Int) - (kx * K.dw : Nat)
      let o := fdiv r K.sh
      let xo := fdiv x K.sw
      if r % K.sh = 0 && x % K.sw = 0 && 0 ≤ o && o < Ho && 0 ≤ xo && xo < dY.W then
        some ((cb * K.kh + ky) * K.kw + kx, Tap.elem dY (b * Ho + o.toNat) xo.toNat co, Tap.elem Wt co (ky * K.kw + kx) (c % Cg))
      else none))))
  prodElem e l

/-- MM_WGRAD (R458): element (k, n) of dB. -/
def mmWgradElem (e : Env) (d k n : Nat) : Elem :=
  let A := e.plan.tensor (dIn0 d)
  let dY := e.plan.tensor (dIn1 d)
  prodElem e ((List.range (A.H * A.W)).map (fun r => (r / 32, Tap.elem A r k 0, Tap.elem dY r n 0)))

/-- MM_DGRAD (R458): row `b * M + m`, column `k`. -/
def mmDgradElem (e : Env) (d row k : Nat) : Elem :=
  let dY := e.plan.tensor (dIn0 d)
  let B := e.plan.tensor (dIn1 d)
  let trans := bit (dVariant d) 0
  let bb := if bit (dVariant d) 1 then 0 else row / max 1 dY.W
  prodElem e ((List.range dY.C).map (fun n => (n / 32, Tap.elem dY row n 0,
    if B.layout = layMAT then (if trans then Tap.elem B (bb * B.W + n) k 0 else Tap.elem B (bb * B.W + k) n 0) else Tap.elem B n 0 k)))

/-- The label of a row of XENT. -/
def labelTap (t : Tensor) (row : Nat) : Tap := .elem t row 0 0

/-- The gradient of XENT at column `i` (R459). -/
def xentElem (e : Env) (d row i : Nat) : Elem :=
  let t := e.plan.tensor (dIn0 d)
  let taps := rowTaps t row 0
  { extra := taps ++ [labelTap (e.plan.tensor (dIn1 d)) row]
    fin := fun _ l =>
      let lab := sext 32 (l.getD t.C 0)
      if lab < 0 || (t.C : Int) ≤ lab then .y 0
      else
        let p := softmaxAt ((taps.zip l).map (fun x => tapValue e x.1 x.2)) i
        .y (f32Mul (f32Sub p (if lab = i then f32One else 0)) (dWord d 0x30)) }

/-- The probability that XENT writes to in2 (R459). -/
def xentProb (s : State) (e : Env) (d row : Nat) : Nat :=
  let t := e.plan.tensor (dIn0 d)
  let lab := sext 32 (s.tap e (labelTap (e.plan.tensor (dIn1 d)) row))
  if lab < 0 || (t.C : Int) ≤ lab then 0xBF800000
  else softmaxAt ((rowTaps t row 0).map (fun x => tapValue e x (s.tap e x))) lab.toNat

/-- The update of one element by OPT_STEP (R460): weight, first and second state. -/
def optStep (d step grad w m v : Nat) : Nat × Nat × Nat :=
  let lr := dWord d 0x30
  let b1 := dWord d 0x34
  let b2 := dWord d 0x38
  let wd := dWord d 0x40
  let g := f32Mul grad (dWord d 0x44)
  let w := if fIsZero wd then w else f32Sub w (f32Mul (f32Mul lr wd) w)
  match dVariant d with
  | 1 =>
    let m := f32Add (f32Mul b1 m) g
    (f32Sub w (f32Mul lr m), m, v)
  | 2 =>
    let t := max 1 ((step : Int) - dField d 0x48 63 0 + 1).toNat
    let m := f32Add (f32Mul b1 m) (f32Mul (f32Sub f32One b1) g)
    let v := f32Add (f32Mul b2 v) (f32Mul (f32Sub f32One b2) (f32Mul g g))
    let c1 := f32Sub f32One (f32PowNat 64 b1 t f32One)
    let c2 := f32Sub f32One (f32PowNat 64 b2 t f32One)
    (f32Sub w (f32Mul lr (f32Div (f32Div m c1) (f32Add (f32Sqrt (f32Div v c2)) (dWord d 0x3C)))), m, v)
  | _ => (f32Sub w (f32Mul lr g), m, v)

/-! ## One element -/

/-- The element of out at (h, w, c) that a descriptor forms; `rows` serves CROP_RESIZE. -/
def elemOf (s : State) (e : Env) (d : Nat) (rows : CropRows) (h w c : Nat) : Elem :=
  match dOp d with
  | 0x01 => convElem e d h w c
  | 0x02 => matmulElem e d h w
  | 0x03 => maxpoolElem e d h w c
  | 0x04 => avgpoolElem e d h w c
  | 0x05 => gpoolElem e d c
  | 0x06 => resizeElem e d h w c
  | 0x07 => cropElem s e d rows h w
  | 0x08 => eltwiseElem e d h w c
  | 0x0B => reduceElem e d h w c
  | 0x0C => softmaxElem e d h w c
  | 0x0D => normElem e d h w c
  | 0x0E => argmaxElem e d h w
  | 0x20 => convWgradElem e d h w c
  | 0x21 => convDgradElem e d h w c
  | 0x22 =>
    let out := e.plan.tensor (dOut d)
    if out.layout = layMAT then (if bit (dVariant d) 0 then mmWgradElem e d w h else mmWgradElem e d h w) else mmWgradElem e d c h
  | 0x23 => mmDgradElem e d h w
  | 0x24 => xentElem e d h w
  | _ => { fin := fun _ _ => .y 0 }

/-- The output conversion of an element (R238, R239): code, magnitude for R254, and whether it saturated. -/
def convertRes (e : Env) (out : Tensor) (h w c : Nat) : Res → Nat × Nat × Bool
  | .code k => (k, 0, false)
  | .y v =>
    let r := outputConvert out.fmt v (e.outScale out (out.scaleIdx h w c))
    (r.1, if fIsNaN v then 0 else f32Abs v, r.2)

/-- The elements that form an element of out, all together. -/
def Elem.taps (el : Elem) : List Tap := el.red.flatMap (fun r => r.taps) ++ el.extra

end Sys2Proof.Machine
end

