-- ==== Sys2Proof/Machine/Sha.lean ====
section
/-!
DEFINITION. Machine/Sha.lean: SHA-256, which the spec names for plan digests, firmware and reports (R185, R492, R506).
-/
namespace Sys2Proof.Machine

/-- Rotate a 32-bit word right. -/
def rotr (n x : Nat) : Nat := (x >>> n) ||| (x <<< (32 - n)) % 2 ^ 32

/-- The round constants of SHA-256. -/
def shaK : List Nat :=
  [0x428a2f98, 0x71374491, 0xb5c0fbcf, 0xe9b5dba5, 0x3956c25b, 0x59f111f1, 0x923f82a4, 0xab1c5ed5, 0xd807aa98, 0x12835b01,
   0x243185be, 0x550c7dc3, 0x72be5d74, 0x80deb1fe, 0x9bdc06a7, 0xc19bf174] ++
  [0xe49b69c1, 0xefbe4786, 0x0fc19dc6, 0x240ca1cc, 0x2de92c6f, 0x4a7484aa, 0x5cb0a9dc, 0x76f988da, 0x983e5152, 0xa831c66d,
   0xb00327c8, 0xbf597fc7, 0xc6e00bf3, 0xd5a79147, 0x06ca6351, 0x14292967] ++
  [0x27b70a85, 0x2e1b2138, 0x4d2c6dfc, 0x53380d13, 0x650a7354, 0x766a0abb, 0x81c2c92e, 0x92722c85, 0xa2bfe8a1, 0xa81a664b,
   0xc24b8b70, 0xc76c51a3, 0xd192e819, 0xd6990624, 0xf40e3585, 0x106aa070] ++
  [0x19a4c116, 0x1e376c08, 0x2748774c, 0x34b0bcb5, 0x391c0cb3, 0x4ed8aa4a, 0x5b9cca4f, 0x682e6ff3, 0x748f82ee, 0x78a5636f,
   0x84c87814, 0x8cc70208, 0x90befffa, 0xa4506ceb, 0xbef9a3f7, 0xc67178f2]

/-- The initial hash value. -/
def shaInit : List Nat :=
  [0x6a09e667, 0xbb67ae85, 0x3c6ef372, 0xa54ff53a, 0x510e527f, 0x9b05688c, 0x1f83d9ab, 0x5be0cd19]

/-- Extend the message schedule; `w` holds the latest 16 words, latest first. -/
def shaSchedule : Nat → List Nat → List Nat
  | 0, _ => []
  | n + 1, w =>
    let a := w.getD 1 0
    let b := w.getD 14 0
    let s1 := rotr 17 a ^^^ rotr 19 a ^^^ (a >>> 10)
    let s0 := rotr 7 b ^^^ rotr 18 b ^^^ (b >>> 3)
    let x := (s1 + w.getD 6 0 + s0 + w.getD 15 0) % 2 ^ 32
    x :: shaSchedule n (x :: w.take 15)

/-- One round with `k + w`. -/
def shaRound (h : List Nat) (kw : Nat) : List Nat :=
  match h with
  | [a, b, c, d, e, f, g, hh] =>
    let t1 := hh + (rotr 6 e ^^^ rotr 11 e ^^^ rotr 25 e) + ((e &&& f) ^^^ ((2 ^ 32 - 1 - e) &&& g)) + kw
    let t2 := (rotr 2 a ^^^ rotr 13 a ^^^ rotr 22 a) + ((a &&& b) ^^^ (a &&& c) ^^^ (b &&& c))
    [(t1 + t2) % 2 ^ 32, a, b, c, (d + t1) % 2 ^ 32, e, f, g]
  | _ => h

/-- One 64-byte block, as 16 big-endian words. -/
def shaBlock (h ws : List Nat) : List Nat :=
  let w := ws ++ shaSchedule 48 ws.reverse
  let h' := ((shaK.zip w).map (fun x => x.1 + x.2)).foldl shaRound h
  (h.zip h').map (fun x => (x.1 + x.2) % 2 ^ 32)

/-- A big-endian value. -/
def ofBe (bs : List Nat) : Nat := bs.foldl (fun n b => n * 256 + b % 256) 0

/-- The low `n` bytes of a value, highest first. -/
def beBytes (n v : Nat) : List Nat := (leBytes n v).reverse

/-- Hash `n` blocks of padded bytes. -/
def shaBlocks : Nat → List Nat → List Nat → List Nat
  | 0, h, _ => h
  | n + 1, h, bs => shaBlocks n (shaBlock h ((List.range 16).map (fun i => ofBe ((bs.drop (4 * i)).take 4)))) (bs.drop 64)

/-- The SHA-256 digest of a byte string, 32 bytes. -/
def sha256 (bs : List Nat) : List Nat :=
  let n := (bs.length + 9 + 63) / 64
  let padded := bs ++ [0x80] ++ List.replicate (64 * n - bs.length - 9) 0 ++ beBytes 8 (8 * bs.length)
  (shaBlocks n shaInit padded).flatMap (beBytes 4)

end Sys2Proof.Machine
end

