-- ==== Sys2Proof/Machine/Plans.lean ====
section
/-!
DEFINITION. Machine/Plans.lean: plan images (R183 to R185, R201), views of tensors (R220), the geometry of streaming layers
(R172 to R174, R207), and the checks of a load (R178, R184, R194 to R196, R200 to R207, R220, R232, R249, R253, R260, R306
to R309, R412, R414, R437, R461).
-/
namespace Sys2Proof.Machine

/-! ## The image (R183) -/

/-- A field of the plan header. -/
def hField (h off hi lo : Nat) : Nat := dField h off hi lo

/-- Is the header well formed (R183, code 0x41)? -/
def headerOk (h : Nat) : Bool :=
  hField h 0 31 0 == 0x4E4C5052 && hField h 4 7 0 == 1 && hField h 4 31 11 == 0 && hField h 0xC 31 7 == 0 &&
  hField h 0x10 63 22 == 0 && (h >>> 256) % 2 ^ 256 == 0 && 1 ≤ hField h 8 31 0 && hField h 8 31 0 ≤ 65536

/-- The tensor headers that a descriptor names. -/
def dTensors (d : Nat) : List Nat := [dIn0 d, dIn1 d, dIn2 d, dOut d, dAux d].filter (fun x => x != 0)

/-- Offset and length of each device copy of a table that a tensor or a descriptor names, with its key (R236, R246, R249,
R451). -/
def Tensor.copies (t : Tensor) : List (Nat × Nat × Nat) :=
  (if t.scaleMode = 2 then [(4 * (t.off + 0x40), t.off + 0x40, 4 * t.channels)] else []) ++
  (if t.layout = layLUT then [(4 * t.aux + 1, t.aux, t.H * ceilDiv t.C 128 * 32)] else [])

/-- Does a descriptor name an outlier set (R249)? -/
def hasOutliers (d : Nat) : Bool := dAux d != 0 && (dOp d == 1 || dOp d == 2)

/-- The plan that lies in an image, with the device's copies of its headers and tables (R201). -/
def State.readPlan (s : State) (p base size : Nat) : Plan :=
  let rb := s.regionBase p
  let bs := s.devRead base size
  let h := ofLe (bs.take 128)
  let ds := (List.range ((size - 128) / 128)).map (fun i => ofLe ((bs.drop (128 + 128 * i)).take 128))
  let hdr (off : Nat) : Nat := s.devNat (rb + off) 64
  let named := (ds.flatMap dTensors).eraseDups
  let lists := (ds.filter hasOutliers).map (fun d => tensorOf (dAux d) (hdr (dAux d)))
  let listData (t : Tensor) : List Nat := s.devRead (rb + t.addr) (32 + 4 * min 128 (s.devNat (rb + t.addr) 4))
  let more := lists.flatMap (fun t => let l := listData t; [leAt l 8 8, leAt l 16 8])
  let heads := ((named ++ more).eraseDups).map (fun o => (o, hdr o))
  let tabs := heads.flatMap (fun x => (tensorOf x.1 x.2).copies.map (fun c => (c.1, s.devRead (rb + c.2.1) c.2.2)))
  let outl := lists.map (fun t => (4 * t.off + 2, listData t))
  let augs := ((ds.filter (fun d => dOp d == 0x28 && dField d 0x30 63 0 != 0)).map (fun d => dField d 0x30 63 0)).map
    (fun a => (4 * a + 3, s.devRead (rb + a) 128))
  { base := base, size := size, batch := bit (hField h 4 31 0) 8, fawn := bit (hField h 4 31 0) 9, frc := bit (hField h 4 31 0) 10
    clusters := hField h 0xC 6 0, need := hField h 0x10 21 0, ctxs := hField h 0x18 63 0, descs := ds, headers := heads
    tables := tabs ++ outl ++ augs, digest := ofLe (sha256 bs) }

/-! ## Which descriptors run where -/

/-- Is a context bound? -/
def Plan.binds (P : Plan) (c : Nat) : Bool := bit P.ctxs c

/-- The contexts whose steps run a descriptor (R197). -/
def Plan.ctxsOf (P : Plan) (d : Nat) : List Nat :=
  if dCtxAny d then onesOf 64 P.ctxs else [dCtx d].filter P.binds

/-- Does a descriptor run in the steps of a context? -/
def runsIn (d c : Nat) : Bool := dCtxAny d || dCtx d == c

/-! ## Views (R220) -/

/-- The whole of which a tensor is declared a view: its header, the axis and the offset. -/
def Plan.viewOf (P : Plan) (off : Nat) : Option (Nat × Nat × Nat) :=
  (P.descs.filterMap (fun d =>
    let ax := dField d 0x30 1 0
    if dOp d = 9 && dIn0 d = off then some (dOut d, ax, dWord d 0x34)
    else if dOp d = 9 && dIn1 d = off then some (dOut d, ax, dWord d 0x38)
    else if dOp d = 10 && dOut d = off then some (dIn0 d, ax, dWord d 0x34)
    else none)).head?

/-- The whole tensor that a tensor is part of, and the row of it that row `h` is; `fuel` bounds the chain of views. -/
def Plan.rootRow (P : Plan) : Nat → Nat → Nat → Nat × Nat
  | 0, off, h => (off, h)
  | fuel + 1, off, h =>
    match P.viewOf off with
    | none => (off, h)
    | some (w, ax, o) =>
      let t := P.tensor off
      let r := P.tensor w
      let h' :=
        if r.layout = layMAT then
          let b := h / max 1 t.W
          let y := h % max 1 t.W
          if ax = 1 then b * r.W + y + o else if ax = 2 then (b + o) * r.W + y else b * r.W + y
        else if ax = 2 then h + o else h
      P.rootRow fuel w h'

/-- The whole tensor that a tensor is part of. -/
def Plan.root (P : Plan) (off : Nat) : Nat := (P.rootRow 8 off 0).1

/-- The unit of dependency in which a row of a tensor lies (R198, R306). -/
def Plan.depRow (P : Plan) (off h : Nat) : Nat × Nat :=
  let r := P.rootRow 8 off h
  let t := P.tensor r.1
  if t.layout = laySC32 then (r.1, if t.codec = 1 || t.codec = 2 then r.2 / 8 else r.2)
  else if t.layout = layMAT then r
  else (r.1, 0)

/-! ## Streaming geometry (R172, R173, R207) -/

/-- Reach of a kernel along the track, its stride and its top padding; (0, 1, 0) without one. -/
def trackOf (d : Nat) : Nat × Nat × Nat :=
  let K := kernOf d
  match dOp d with
  | 1 => ((K.kh - 1) * K.dh, K.sh, K.top)
  | 3 | 4 => (K.kh - 1, K.sh, K.top)
  | _ => (0, 1, 0)

/-- How many output rows of a streaming descriptor are computable from `avail` input rows (R172, R207). -/
def rowsFrom (d avail : Nat) : Nat :=
  if dOp d = 6 then
    if avail = 0 then 0
    else (((avail - 1) * 65536 : Nat) - sext 32 (dWord d 0x30) + (dWord d 0x34 : Int) - 1).toNat / max 1 (dWord d 0x34)
  else
    let k := trackOf d
    let n : Int := (avail : Int) - 1 + k.2.2 - k.1
    if n < 0 then 0 else (n / max 1 k.2.1).toNat + 1

/-- Does a streaming descriptor that produces output row `o` next still need input row `i` (R173)? -/
def needsRow (d o i : Nat) : Bool :=
  if dOp d = 6 then (if resizeRow d o < 0 then 0 else resizeRow d o / 65536) ≤ (i : Int)
  else
    let k := trackOf d
    ((o * k.2.1 : Nat) : Int) - k.2.2 ≤ i

/-- Input rows that a reader keeps live after a step (R207). -/
def keptRows (d : Nat) : Nat := if dOp d = 6 then 1 else (trackOf d).1

/-- The tensors a streaming descriptor reads row by row. -/
def streamInputs (P : Plan) (d : Nat) : List Nat :=
  let wide (o : Nat) : Bool := o != 0 && ((P.tensor o).window || (P.tensor o).space == 2)
  let l := dIn0 d :: (if dOp d = 8 then [dIn1 d, dIn2 d] else [])
  let l := l ++ (match outliers P d with
    | some o => [o.2.1.off]
    | none => [])
  l.filter wide

/-- The descriptors that write a tensor or a view of its whole, streaming. -/
def Plan.writers (P : Plan) (off : Nat) : List Nat :=
  (List.range P.descs.length).filter (fun i =>
    let d := P.descs.getD i 0
    dStream d && dOp d != 9 && dOp d != 10 && dOut d != 0 && P.root (dOut d) == P.root off)

/-- The along-track stride between the line buffer and a tensor as a ratio (R207). -/
def Plan.strideTo (P : Plan) : Nat → Nat → Nat × Nat
  | 0, _ => (1, 1)
  | fuel + 1, off =>
    if (P.tensor off).space = 2 then (1, 1)
    else match P.writers off with
      | [] => (1, 1)
      | i :: _ =>
        let d := P.descs.getD i 0
        let r := P.strideTo fuel (dIn0 d)
        if dOp d = 6 then (r.1 * dWord d 0x34, r.2 * 65536) else (r.1 * (trackOf d).2.1, r.2)

/-- Rows of a stripe of a context. -/
def State.ctxLines (s : State) (c : Nat) : Nat := s.get .CAP_STRIPE_CFG_lines c

/-- The least window_rows of a window tensor (R207). -/
def State.windowNeed (s : State) (P : Plan) (off : Nat) : Nat :=
  let readers := P.descs.filter (fun d => dStream d && (streamInputs P d).any (fun o => P.root o == P.root off))
  let live := (readers.map keptRows).foldl max 0
  let per (i : Nat) : Nat :=
    let d := P.descs.getD i 0
    let L := ((P.ctxsOf d).map s.ctxLines).foldl max 0
    let S := P.strideTo 64 (dOut d)
    ceilDiv (L * S.2) (max 1 S.1) + (if dFawn d then 1 else dTileA d)
  live + ((P.writers off).map per).foldl max 0

/-- Line-buffer slots that a descriptor needs for stripes of `lines` rows (R174). -/
def slotsNeeded (d lines : Nat) : Nat :=
  let k := trackOf d
  let reach := if dOp d = 6 then 1 else k.1
  if reach ≤ k.2.2 then 1 else 1 + ceilDiv (reach - k.2.2) (max 1 lines)

/-- The line-buffer tensors of a descriptor. -/
def lbInputs (P : Plan) (d : Nat) : List Tensor := ((dTensors d).map P.tensor).filter (fun t => t.space == 2)

/-- Does a plan's use of a context's line buffer break R174 or R204, given slots, width, channels (if they are known) and
format? -/
def Plan.lbFits (P : Plan) (c slots lines width : Nat) (channels : Option Nat) (fmt : Nat) : Bool :=
  P.descs.all (fun d => (lbInputs P d).all (fun t => t.ctx != c ||
    (slotsNeeded d lines ≤ slots && t.W == width && t.fmt == fmt && (match channels with
      | some n => t.C == n
      | none => true))))

/-- The channels that a context delivers, if its settings fix them: a MEMORY or PEER context's stripes carry their own. -/
def State.knownChannels (s : State) (c : Nat) : Option Nat :=
  if s.get .CAP_CTX_SRC_kind c ≤ 1 then some (s.sourceChannels c) else none

/-- Does a plan's use of a context stand with the context's active settings? -/
def State.planFits (s : State) (P : Plan) (c : Nat) : Bool :=
  let set := s.lnpActive c
  P.lbFits c (s.get .LNP_LB_CFG_slots c) (s.ctxLines c) set.width (s.knownChannels c) (lnpFormat set.outFmt)

/-! ## Headers and tensors (R200 to R206, R232, R249, R253, R260) -/

/-- Bytes that a tensor takes from its address, in one cluster for SRAM. -/
def Tensor.extent (t : Tensor) (n : Nat) : Nat :=
  let sp := t.space = 1 && t.split != 0
  if t.layout = laySC32 then
    let rows := if t.window then t.winRows else if sp && t.split = 1 then splitLen n t.blk t.H else t.H
    let W := if sp && t.split = 2 then splitLen n t.blk t.W else t.W
    let C := if sp && t.split = 3 then splitLen n t.blk t.C else t.C
    if rows = 0 then 0 else (rows - 1) * t.stride + ceilDiv C (sc32Group t.C) * W * sc32Group t.C * t.e
  else if t.layout = layMAT then
    if t.H * t.W = 0 then 0 else ((if sp && t.split = 1 then splitLen n t.blk (t.H * t.W) else t.H * t.W) - 1) * t.stride +
      (if sp && t.split = 2 then splitLen n t.blk t.C else t.C) * t.e
  else if t.layout = layWGT then ceilDiv t.H 64 * t.W * ceilDiv t.C 32 * 2048 * t.e
  else if t.layout = layLUT then ceilDiv t.H 64 * t.W * ceilDiv t.C 32 * 256 * codeBits t.fmt
  else 32 + t.H * t.C

/-- A finite binary32 value above zero. -/
def posFinite (x : Nat) : Bool := fIsFin x && !fNeg x && !fIsZero x

/-- The lengths that qualify for a header in the region, aligned and outside the image. -/
def State.headerPlaced (s : State) (p : Nat) (P : Plan) (off : Nat) : Bool :=
  let rb := s.regionBase p
  off % 64 == 0 && off + 64 ≤ s.regionSize p && (rb + off + 64 ≤ P.base || P.base + P.size ≤ rb + off) &&
  !s.hasBad (rb + off) 64

/-- The checks of one tensor that do not depend on the descriptor. -/
def State.tensorOk (s : State) (p : Nat) (P : Plan) (n lb : Nat) (off : Nat) : Bool :=
  let t := P.tensor off
  let rb := s.regionBase p
  let isCode := 8 ≤ t.fmt
  s.headerPlaced p P off && t.fmt ≤ 10 && t.layout ≤ 4 && t.space ≤ 2 && t.scaleMode ≤ 2 &&
  (isCode == (t.layout == layLUT)) &&
  (t.layout == layWGT || t.layout == layLUT || t.layout == layLIST || t.space == 2 || t.codec == 1 || t.codec == 2 || t.stride % 64 == 0) &&
  -- codecs (R232, R303, R307, R309)
  (t.codec == 0 || (t.space == 0 && (if t.codec == 3 then !isCode && t.addr % 64 == 0 else t.fmt == 0 && t.layout == laySC32))) &&
  -- SRAM and splits (R161, R206)
  (t.space != 1 || t.addr + t.extent n ≤ (3072 - lb) * 1024) &&
  (t.space != 1 || t.split == 0 || (t.blk != 0 && (t.layout == laySC32 || (t.layout == layMAT && t.split != 3)) &&
    (t.split != 3 || t.blk % sc32Group t.C == 0))) &&
  -- windows (R202, R206, R207)
  (!t.window || (t.space == 1 && t.layout == laySC32 && !t.dyn && t.split != 1 && !P.batch && s.windowNeed P off ≤ t.winRows)) &&
  -- line buffer (R204)
  (t.space != 2 || (t.layout == laySC32 && P.binds t.ctx)) &&
  -- scales (R232, R236, R253, R260)
  (t.layout != layLIST || t.scaleMode == 0) &&
  (!(t.scaleMode == 1 && (!t.dyn || t.pinned)) || posFinite t.scaleA) &&
  (t.scaleMode != 2 || (t.sreg + t.channels ≤ 8192 && !s.hasBad (rb + off + 0x40) (4 * t.channels) &&
    (List.range t.channels).all (fun c => posFinite (P.channelScale t c)))) &&
  (!t.dyn || (t.scaleMode == 1 && t.fmt ≤ 3 &&
    (P.descs.filter (fun d => dOut d == off)).length ≤ 1)) &&
  -- codebooks (R246, R260)
  (t.layout != layLUT || (t.aux % 64 == 0 && t.aux + t.H * ceilDiv t.C 128 * 32 ≤ s.regionSize p &&
    !s.hasBad (rb + t.aux) (t.H * ceilDiv t.C 128 * 32) &&
    (List.range t.H).all (fun co => (List.range (ceilDiv t.C 128)).all (fun g => posFinite (groupScale P t co g)))))

/-! ## Descriptors: fields (R194 to R196, R232) -/

/-- The operator fields of an opcode: 32-bit words and the bits assigned in each. -/
def opFields (op : Nat) : List (Nat × Nat) :=
  let full := 0xFFFFFFFF
  let conv := [(0x30, full), (0x34, full), (0x38, 0xFFFF), (0x3C, 0xFFFF), (0x40, 0xFFFF)]
  match op with
  | 0x01 => conv
  | 0x03 => [(0x30, full), (0x34, full), (0x38, 0xFFFF)]
  | 0x04 => [(0x30, full), (0x34, full), (0x38, 0xFFFF), (0x3C, 1)]
  | 0x06 => [(0x30, full), (0x34, full), (0x38, full), (0x3C, full)]
  | 0x07 => [(0x30, 0xFFFF), (0x34, full), (0x38, full)]
  | 0x08 => [(0x30, 0x7F7F7F7F), (0x34, 0x7F7F7F7F)] ++ (List.range 8).map (fun k => (0x38 + 4 * k, full))
  | 0x09 | 0x0A => [(0x30, 3), (0x34, full), (0x38, full)]
  | 0x0D => [(0x30, full)]
  | 0x0F => [(0x30, full), (0x34, full), (0x38, 3), (0x3C, full), (0x40, 0xFFFF), (0x44, 0xFF), (0x48, 0x7FF)]
  | 0x10 => [(0x30, 0xFFFFFF)]
  | 0x11 => [(0x30, 0xFFFFFF), (0x34, full), (0x38, 0xFF)]
  | 0x20 | 0x21 => conv ++ [(0x44, full)]
  | 0x24 => [(0x30, full)]
  | 0x25 => (List.range 8).map (fun k => (0x30 + 4 * k, full))
  | 0x28 => [(0x30, full), (0x34, full), (0x38, full), (0x3C, full), (0x40, full), (0x48, full), (0x4C, full), (0x50, 3)]
  | 0x29 => [(0x30, 0xFFFF)]
  | _ => []

/-- The variants of an opcode are `0` to this. -/
def maxVariant (op : Nat) : Nat :=
  match op with
  | 0x02 | 0x22 | 0x23 => 3
  | 0x05 | 0x06 | 0x0D | 0x12 => 1
  | 0x0B => 31
  | 0x25 => 2
  | _ => 0

/-- Are all reserved bits of a descriptor zero (R194)? -/
def reservedOk (d : Nat) : Bool :=
  dField d 0 31 21 == 0 && dField d 8 31 17 == 0 && dField d 0xC 6 6 == 0 && dField d 0xC 31 8 == 0 &&
  dField d 0x68 31 14 == 0 && dWord d 0x74 == 0 && dVariant d ≤ maxVariant (dOp d) &&
  (List.range 12).all (fun k =>
    let off := 0x30 + 4 * k
    let m := ((opFields (dOp d)).find? (fun x => x.1 == off)).map (fun x => x.2)
    dWord d off &&& (0xFFFFFFFF ^^^ m.getD 0) == 0)

/-- Is the opcode assigned, and are unit, stream and non_preempt allowed (R195, R196, R437)? -/
def opAllowed (P : Plan) (d : Nat) : Bool :=
  let op := dOp d
  (op ≤ 0x12 || (0x20 ≤ op && op ≤ 0x25) || op == 0x28 || op == 0x29) &&
  (!dFawn d || op == 1 || op == 0x0E || op == 0x0F || op == 9 || op == 10) &&
  (!dStream d || (!P.batch && (op == 1 || op == 3 || op == 4 || op == 6 || op == 8 || op == 9 || op == 10 || op == 0x0C ||
    op == 0x0D || op == 0x0E || op == 0x0F || (op == 0x0B && bits (dVariant d) 1 0 == 0)))) &&
  (op != 0x0F || dStream d) &&
  (!dNonPreempt d || op == 0x10 || op == 0x0F || op == 0x12 || op == 0x25 || op == 0x29) &&
  ((op != 0x28 && op != 0x29) || P.batch)

/-- Are the tile fields used (R199)? -/
def tiled (d : Nat) : Bool :=
  !dFawn d && (match dOp d with
    | 0 | 9 | 10 | 0x0F | 0x10 | 0x11 | 0x12 | 0x28 | 0x29 => false
    | _ => true)

/-! ## Descriptors: shapes -/

/-- An output size under R210. -/
def convOut (len pad ext stride : Nat) : Nat := if len + pad < ext + 1 then 0 else (len + pad - ext - 1) / max 1 stride + 1

/-- Are kernel fields in range (R210, R213)? -/
def kernOk (K : Kern) (pool : Bool) : Bool :=
  [K.kh, K.kw, K.sh, K.sw, K.dh, K.dw].all (fun x => 1 ≤ x && x ≤ 16) &&
  (!pool || (K.dh == 1 && K.dw == 1 && K.top < K.kh && K.bottom < K.kh && K.left < K.kw && K.right < K.kw))

/-- Is a tensor a number format, SC32 or MAT? -/
def isMap (t : Tensor) : Bool := t.layout == laySC32 && t.fmt ≤ 7
def isMat (t : Tensor) : Bool := t.layout == layMAT && t.fmt ≤ 7

/-- Same shape. -/
def sameShape (a b : Tensor) : Bool := a.layout == b.layout && a.H == b.H && a.W == b.W && a.C == b.C

/-- Same shape but for the rows of a streaming form. -/
def sameBut (d : Nat) (a b : Tensor) : Bool := a.layout == b.layout && (dStream d || a.H == b.H) && a.W == b.W && a.C == b.C

/-- A streaming form reads and writes windows, or the line buffer (R207, R211). -/
def streamShaped (d : Nat) (t out : Tensor) : Bool :=
  !dStream d || (t.layout == laySC32 && (t.window || t.space == 2) && (dOp d == 0x0F || out.window))

/-- A vector of `n` elements of a format. -/
def isVec (t : Tensor) (fmt n : Nat) : Bool := t.fmt == fmt && (t.layout == layMAT || t.layout == laySC32) && t.H * t.W * t.C == n

/-- A list of 32-byte entries. -/
def isList (t : Tensor) (bytes : Nat) : Bool := t.layout == layLIST && t.C == bytes && t.space ≤ 1

/-- The operand pairs of R211. -/
def pairOk (a b : Tensor) : Bool :=
  if a.fmt ≤ 1 then b.fmt == 0 || b.layout == layLUT
  else if a.fmt ≤ 3 then b.fmt == 2 || b.fmt == 3
  else (a.fmt == 4 || a.fmt == 5) && b.fmt == a.fmt

/-- Is the pad value a code of a format, extended (R210)? -/
def padOk (t : Tensor) (v : Nat) : Bool := t.e != 1 || v < 256 || 0xFF80 ≤ v

/-- Is the outlier set well formed (R249)? `n` input channels. -/
def State.outlierOk (s : State) (p : Nat) (P : Plan) (N lb d : Nat) (t0 t1 : Tensor) (chans : Nat) : Bool :=
  if dAux d = 0 then true
  else
    let t := P.tensor (dAux d)
    let l := P.table (4 * dAux d + 2)
    let n := leAt l 0 4
    let ao := leAt l 8 8
    let wo := leAt l 16 8
    let a := P.tensor ao
    let w := P.tensor wo
    let ix := (List.range n).map (fun j => leAt l (32 + 4 * j) 2)
    intPair t0 && t1.layout != layMAT && (dOp d == 2 || dField d 0x3C 15 0 == 1) &&
    t.layout == layLIST && t.C == 4 && t.space == 0 && t.scaleMode == 0 && 1 ≤ n && n ≤ 128 &&
    !s.hasBad (s.regionBase p + t.addr) (32 + 4 * n) &&
    leAt l 4 4 == 0 && leAt l 24 8 == 0 && (ix.zip (ix.drop 1)).all (fun x => x.1 < x.2) && ix.all (fun x => x < chans) &&
    s.tensorOk p P N lb ao && s.tensorOk p P N lb wo && a.fmt == 4 && a.scaleMode == 0 && a.C == n &&
    (dStream d || a.H == t0.H) && a.W == t0.W &&
    (if dOp d == 1 then a.layout == laySC32 && streamShaped d a (P.tensor (dOut d)) else a.layout == layMAT) &&
    w.fmt == 4 && w.layout == layWGT && w.scaleMode == 0 && w.H == t1.H && w.W == t1.W && w.C == n

/-- CONV (R210, R211, R260). -/
def State.convOk (s : State) (p : Nat) (P : Plan) (n lb d : Nat) : Bool :=
  let t0 := P.tensor (dIn0 d)
  let t1 := P.tensor (dIn1 d)
  let out := P.tensor (dOut d)
  let K := kernOf d
  let g := dField d 0x3C 15 0
  dIn1 d != 0 && kernOk K false && g != 0 && isMap t0 && isMap out && (t1.layout == layWGT || t1.layout == layLUT) && pairOk t0 t1 &&
  t0.C % g == 0 && out.C % g == 0 && t1.H == out.C && t1.W == K.kh * K.kw && t1.C * g == t0.C && padOk t0 (dField d 0x40 15 0) &&
  out.W == convOut t0.W (K.left + K.right) (K.dw * (K.kw - 1)) K.sw &&
  (dStream d || out.H == convOut t0.H (K.top + K.bottom) (K.dh * (K.kh - 1)) K.sh) && t0.scaleMode != 2 &&
  (!intPair t0 || t1.C * K.kh * K.kw ≤ 65536) &&
  (dBiasFmt d == 0 || (dIn2 d != 0 && isVec (P.tensor (dIn2 d)) (if dBiasFmt d == 1 then 6 else 7) out.C)) &&
  (dBiasFmt d != 2 || intPair t0) && s.outlierOk p P n lb d t0 t1 t0.C &&
  (!dFawn d || (min t0.C out.C ≤ 16 && max t0.C out.C ≤ 256 && K.kh ≤ 7 && K.kw ≤ 7))

/-- MATMUL (R212, R260). -/
def State.matmulOk (s : State) (p : Nat) (P : Plan) (n lb d : Nat) : Bool :=
  let A := P.tensor (dIn0 d)
  let B := P.tensor (dIn1 d)
  let out := P.tensor (dOut d)
  let trans := bit (dVariant d) 0
  dIn1 d != 0 && isMat A && isMat out && pairOk A B && out.H == A.H && out.W == A.W && A.scaleMode != 2 &&
  (if B.layout == layMAT then
    (if trans then B.W == out.C && B.C == A.C else B.W == A.C && B.C == out.C) &&
    B.H == (if bit (dVariant d) 1 then 1 else A.H) && !(trans && B.scaleMode == 2)
   else (B.layout == layWGT || B.layout == layLUT) && B.H == out.C && B.C == A.C && B.W == 1) &&
  (!intPair A || A.C ≤ 65536) &&
  (dBiasFmt d == 0 || (dIn2 d != 0 && isVec (P.tensor (dIn2 d)) (if dBiasFmt d == 1 then 6 else 7) out.C)) &&
  (dBiasFmt d != 2 || intPair A) && s.outlierOk p P n lb d A B A.C

/-- MAXPOOL and AVGPOOL (R213). -/
def poolOk (P : Plan) (d : Nat) : Bool :=
  let t := P.tensor (dIn0 d)
  let out := P.tensor (dOut d)
  let K := kernOf d
  kernOk K true && isMap t && isMap out && out.C == t.C && out.W == convOut t.W (K.left + K.right) (K.kw - 1) K.sw &&
  (dStream d || out.H == convOut t.H (K.top + K.bottom) (K.kh - 1) K.sh)

/-- ELTWISE (R219). -/
def eltOk (P : Plan) (d : Nat) : Bool :=
  let out := P.tensor (dOut d)
  let ops := ((List.range 8).map (fun k => dByte d (0x30 + k))).takeWhile (fun x => x % 32 != 0)
  let uses (k : Nat) := ops.any (fun x => x % 32 < 8 && bits x 6 5 == k)
  let fits (t : Tensor) := t.layout == out.layout && t.fmt ≤ 7 && (dStream d || t.H == out.H || t.H == 1) &&
    (t.W == out.W || t.W == 1) && t.C == out.C
  (out.layout == laySC32 || out.layout == layMAT) && out.fmt ≤ 7 && fits (P.tensor (dIn0 d)) && ops.all (fun x => x % 32 ≤ 15) &&
  (!uses 1 || (dIn1 d != 0 && fits (P.tensor (dIn1 d)))) && (!uses 2 || (dIn2 d != 0 && fits (P.tensor (dIn2 d)))) &&
  (!uses 3 || (dIn2 d != 0 && isVec (P.tensor (dIn2 d)) 6 out.C))

/-- One view of a whole (R220). -/
def viewOk (v w : Tensor) (axis off : Nat) : Bool :=
  let g := sc32Group w.C
  v.fmt == w.fmt && v.layout == w.layout && v.space == w.space && v.split == w.split && v.stride == w.stride && v.codec == 0 && w.codec == 0 &&
  v.space != 2 && v.window == w.window &&
  (if w.layout == laySC32 then
    match axis with
    | 0 => off % g == 0 && sc32Group v.C == g && v.addr == w.addr + off / g * w.W * g * w.e && off + v.C ≤ w.C && v.W == w.W
    | 1 => ceilDiv w.C g == 1 && v.addr == w.addr + off * g * w.e && off + v.W ≤ w.W && v.C == w.C
    | 2 => !w.window && v.addr == w.addr + off * w.stride && off + v.H ≤ w.H && v.W == w.W && v.C == w.C
    | _ => false
   else w.layout == layMAT && (match axis with
    | 0 => v.addr == w.addr + off * w.e && off + v.C ≤ w.C && v.W == w.W && v.H == w.H
    | 1 => v.addr == w.addr + off * w.stride && off + v.W ≤ w.W && v.C == w.C && v.H == w.H
    | 2 => v.addr == w.addr + off * w.W * w.stride && off + v.H ≤ w.H && v.W == w.W && v.C == w.C
    | _ => false))

/-- The length of a view along an axis. -/
def axisLen (t : Tensor) (axis : Nat) : Nat := if axis = 0 then t.C else if axis = 1 then t.W else t.H

/-- The views of a whole declared by a plan: view, axis, offset. -/
def Plan.viewsOf (P : Plan) (w : Nat) : List (Nat × Nat × Nat) :=
  P.descs.flatMap (fun d =>
    let ax := dField d 0x30 1 0
    if dOp d = 9 && dOut d = w then
      [(dIn0 d, ax, dWord d 0x34)] ++ (if dIn1 d = 0 then [] else [(dIn1 d, ax, dWord d 0x38)])
    else if dOp d = 10 && dIn0 d = w then [(dOut d, ax, dWord d 0x34)] else [])

/-- CONCAT and SPLIT (R220). -/
def viewsOk (P : Plan) (d : Nat) : Bool :=
  let w := if dOp d = 9 then dOut d else dIn0 d
  let W := P.tensor w
  let all := (P.viewsOf w).eraseDups
  all.all (fun v => viewOk (P.tensor v.1) W v.2.1 v.2.2) &&
  all.all (fun a => all.all (fun b => a == b || a.2.1 != b.2.1 || a.2.2 + axisLen (P.tensor a.1) a.2.1 ≤ b.2.2 ||
    b.2.2 + axisLen (P.tensor b.1) b.2.1 ≤ a.2.2))

/-- REDUCE (R221). -/
def reduceOk (P : Plan) (d : Nat) : Bool :=
  let t := P.tensor (dIn0 d)
  let out := P.tensor (dOut d)
  let ax := bits (dVariant d) 1 0
  (isMap t || isMat t) && out.fmt ≤ 7 && out.layout == t.layout && ax ≤ 2 && bits (dVariant d) 4 2 ≤ 4 &&
  out.C == (if ax == 0 then 1 else t.C) && out.W == (if ax == 1 then 1 else t.W) && (dStream d || out.H == (if ax == 2 then 1 else t.H))

/-- PART_FIND (R226, R232). -/
def findOk (P : Plan) (d : Nat) : Bool :=
  let t := P.tensor (dIn0 d)
  let F := sizes d
  t.fmt == 1 && t.layout == laySC32 && t.C == 1 && isList (P.tensor (dOut d)) 32 &&
  (dAux d == 0 || isList (P.tensor (dAux d)) 32) && 1 ≤ dWord d 0x3C && 1 ≤ F.1 && 1 ≤ F.2.1 && 1 ≤ F.2.2 && F.2.2 ≤ 1024 &&
  (dAux d == 0 || P.descs.all (fun c => dOp c != 7 || dIn1 c != dAux d || dByte c 0x30 == dByte d 0x44))
where
  /-- sa, sc and max_open. -/
  sizes (d : Nat) : Nat × Nat × Nat := (dByte d 0x40, dByte d 0x41, dField d 0x48 10 0)

/-- KV_APPEND and ATTN (R230, R231). -/
def kvOk (P : Plan) (d : Nat) : Bool :=
  let a := P.tensor (dIn0 d)
  let heads := dByte d 0x30
  let dk := dByte d 0x31
  let dv := dByte d 0x32
  1 ≤ heads && 1 ≤ dk && 1 ≤ dv && isMat a && a.C == heads * dk && dIn2 d != 0 && isList (P.tensor (dIn2 d)) 32 &&
  a.H == (P.tensor (dIn2 d)).H &&
  (if dOp d == 0x10 then
    let b := P.tensor (dIn1 d)
    dIn1 d != 0 && isMat b && b.C == heads * dv && b.W == a.W && b.H == a.H
   else
    let out := P.tensor (dOut d)
    dOut d != 0 && isMat out && out.C == heads * dv && out.W == a.W && out.H == a.H && bits (dWord d 0x38) 3 1 ≤ 3 &&
    1 ≤ bits (dWord d 0x38) 7 4 && bits (dWord d 0x38) 7 4 ≤ 8)

/-- A floating training input, a training output (R457). -/
def trainIn (t : Tensor) : Bool := t.fmt == 4 || t.fmt == 5 || t.fmt == 6
def trainOut (t : Tensor) : Bool := (t.fmt == 6 || t.fmt == 4) && t.scaleMode == 0

/-- CONV_WGRAD and CONV_DGRAD (R457). -/
def convGradOk (P : Plan) (d : Nat) : Bool :=
  let t0 := P.tensor (dIn0 d)
  let t1 := P.tensor (dIn1 d)
  let out := P.tensor (dOut d)
  let K := kernOf d
  let g := dField d 0x3C 15 0
  let W := dOp d == 0x20
  let X := if W then t0 else out
  let dY := if W then t1 else t0
  let Wt := if W then out else t1
  let Hs := sampleRows d X.H
  dIn1 d != 0 && kernOk K false && g != 0 && Hs != 0 && X.H % Hs == 0 && trainIn t0 && trainIn t1 && trainOut out &&
  X.layout == laySC32 && dY.layout == laySC32 && Wt.layout == layWGT && X.C % g == 0 && dY.C % g == 0 && Wt.H == dY.C &&
  Wt.W == K.kh * K.kw && Wt.C * g == X.C && dY.W == convOut X.W (K.left + K.right) (K.dw * (K.kw - 1)) K.sw &&
  dY.H == X.H / Hs * convOut Hs (K.top + K.bottom) (K.dh * (K.kh - 1)) K.sh

/-- MM_WGRAD and MM_DGRAD (R458). -/
def mmGradOk (P : Plan) (d : Nat) : Bool :=
  let t0 := P.tensor (dIn0 d)
  let t1 := P.tensor (dIn1 d)
  let out := P.tensor (dOut d)
  let W := dOp d == 0x22
  let A := if W then t0 else out
  let dY := if W then t1 else t0
  let B := if W then out else t1
  dIn1 d != 0 && trainIn t0 && trainIn t1 && trainOut out && A.layout == layMAT && dY.layout == layMAT && A.H == dY.H && A.W == dY.W &&
  (if B.layout == layMAT then
    (if bit (dVariant d) 0 then B.W == dY.C && B.C == A.C else B.W == A.C && B.C == dY.C) &&
    (if W || bit (dVariant d) 1 then B.H == 1 else B.H == A.H)
   else B.layout == layWGT && B.H == dY.C && B.C == A.C && B.W == 1)

/-- XENT (R459). -/
def xentOk (P : Plan) (d : Nat) : Bool :=
  let t := P.tensor (dIn0 d)
  let lab := P.tensor (dIn1 d)
  let R := t.H * t.W
  dIn1 d != 0 && dIn2 d != 0 && t.layout == layMAT && trainIn t && 2 ≤ t.C && t.C ≤ 8192 && lab.layout == layMAT && lab.fmt == 7 && lab.H == 1 &&
  lab.W == R && lab.C == 1 && sameShape (P.tensor (dOut d)) t && trainOut (P.tensor (dOut d)) && isVec (P.tensor (dIn2 d)) 6 R

/-- OPT_STEP (R460). -/
def optOk (P : Plan) (d : Nat) : Bool :=
  let out := P.tensor (dOut d)
  let f (off : Nat) : Bool := off != 0 && (P.tensor off).fmt == 6 && sameShape (P.tensor off) out
  f (dIn0 d) && f (dIn1 d) && (dVariant d == 0 || f (dIn2 d)) && (dVariant d != 2 || f (dAux d)) && out.fmt ≤ 7 && !out.dyn

/-- The augmentation block (R451). -/
def augOk (l : List Nat) : Bool :=
  let w (o : Nat) := leAt l o 4
  let lo (o : Nat) := fIsFin (w o)
  w 0 < 512 && w 4 == 0 && (List.range 15).all (fun k => w (0x44 + 4 * k) == 0) && w 8 ≤ 65536 && w 0xC ≤ 65536 && w 0x10 ≤ 65536 &&
  (!bit (w 0) 3 || (posFinite (w 0x14) && f32Le (w 0x14) (w 0x18) && f32Le (w 0x18) f32One)) &&
  (!bit (w 0) 4 || (f32Le 0 (w 0x1C) && f32Le (w 0x1C) 0x3E800000 && f32Le 0 (w 0x20) && f32Le (w 0x20) 0x3E800000)) &&
  (!bit (w 0) 5 || (lo 0x24 && lo 0x28)) && (!bit (w 0) 6 || (lo 0x2C && lo 0x30)) &&
  (!bit (w 0) 7 || (posFinite (w 0x34) && posFinite (w 0x38))) &&
  (!bit (w 0) 8 || (f32Le 0 (w 0x3C) && f32Le 0 (w 0x40) && lo 0x3C && lo 0x40))

/-- DEC_FETCH and DEC_COMMIT (R454, R461). -/
def State.decOk (s : State) (p : Nat) (P : Plan) (idx d : Nat) : Bool :=
  let out := P.tensor (dOut d)
  if dOp d = 0x28 then
    let B := dField d 0x38 15 0
    let aug := dField d 0x30 63 0
    isList (P.tensor (dIn0 d)) 32 && isMap out && out.space == 0 && 1 ≤ B && B ≤ 4096 && out.H == B * dField d 0x38 31 16 &&
    1 ≤ out.C && out.C ≤ 4 && dField d 0x48 63 0 + 64 * dWord d 0x40 ≤ s.regionSize p &&
    (dAux d == 0 || (let l := P.tensor (dAux d); l.layout == layMAT && l.fmt == 7 && l.H == 1 && l.W == B && l.C == 1)) &&
    (aug == 0 || (aug % 64 == 0 && aug + 128 ≤ s.regionSize p && !s.hasBad (s.regionBase p + aug) 128 && augOk (P.table (4 * aug + 3))))
  else
    let f := dField d 0x30 15 0
    isList out 16 && f < idx && dOp (P.descs.getD f 0) == 0x28 &&
    ((List.range (idx - f)).map (fun i => P.descs.getD (f + i) 0)).all (fun x => !dStepEnd x)

/-- The checks of an opcode's own section. -/
def State.shapeOk (s : State) (p : Nat) (P : Plan) (n lb idx d : Nat) : Bool :=
  let t := P.tensor (dIn0 d)
  let out := P.tensor (dOut d)
  match dOp d with
  | 0x00 => true
  | 0x01 => s.convOk p P n lb d
  | 0x02 => s.matmulOk p P n lb d
  | 0x03 | 0x04 => poolOk P d
  | 0x05 => isMap t && isMap out && out.H == 1 && out.W == 1 && out.C == t.C
  | 0x06 => isMap t && isMap out && out.C == t.C && (!dStream d || 1 ≤ dWord d 0x34)
  | 0x07 => dIn1 d != 0 && isMap t && isMat out && isList (P.tensor (dIn1 d)) 32 && 1 ≤ dByte d 0x30 && dByte d 0x30 ≤ 32 &&
    1 ≤ dByte d 0x31 && dByte d 0x31 ≤ 32 && out.W == dByte d 0x30 * dByte d 0x31 && out.C == t.C && out.H == (P.tensor (dIn1 d)).H
  | 0x08 => eltOk P d
  | 0x09 | 0x0A => viewsOk P d
  | 0x0B => reduceOk P d
  | 0x0C => (isMap t || isMat t) && sameBut d t out && out.fmt ≤ 7
  | 0x0D => dIn1 d != 0 && (isMap t || isMat t) && sameBut d t out && out.fmt ≤ 7 &&
    isVec (P.tensor (dIn1 d)) 6 (if bit (dVariant d) 0 then t.C else 2 * t.C)
  | 0x0E => isMap t && t.C ≤ 256 && out.layout == laySC32 && out.fmt == 1 && out.C == 1 && out.W == t.W && (dStream d || out.H == t.H)
  | 0x0F => findOk P d
  | 0x10 | 0x11 => kvOk P d
  | 0x12 => dIn1 d != 0 && isMat t && 2 ≤ t.C && t.C ≤ 16 && isList (P.tensor (dIn1 d)) 32 && t.H * t.W == (P.tensor (dIn1 d)).H
  | 0x20 | 0x21 => convGradOk P d
  | 0x22 | 0x23 => mmGradOk P d
  | 0x24 => xentOk P d
  | 0x25 => optOk P d
  | _ => s.decOk p P idx d

/-- Do the tiles of an output keep to its storage blocks, and to FRC and ZRC lines (R206, R232, R306, R308)? -/
def tilesOk (d : Nat) (out : Tensor) : Bool :=
  let mat := out.layout == layMAT
  let rows := if mat then out.H * out.W else out.H
  let cols := if mat then out.C else out.W
  let ta := dTileA d
  let tb := dTileB d
  let tc := if mat || dTileC d == 0 then max 1 out.C else dTileC d
  let within (len tile : Nat) := (List.range (ceilDiv len (max 1 tile))).all (fun i =>
    i * tile / max 1 out.blk == (min len ((i + 1) * tile) - 1) / max 1 out.blk)
  (out.space != 1 || out.split == 0 ||
    (if out.split == 1 then dStream d || within rows ta
     else if out.split == 2 then within cols tb else within out.C tc)) &&
  (out.codec == 0 || out.space != 0 ||
    (if out.codec == 3 then
      let whole (bytes total : Nat) := bytes % 64 == 0 || total ≤ bytes
      if mat then whole (tb * out.e) (if out.stride == out.C * out.e then 0 else out.stride) && (tb * out.e % 64 == 0 || cols ≤ tb)
      else
        let g := sc32Group out.C
        (cols ≤ tb || tb * g * out.e % 64 == 0) && (out.C ≤ tc || tc % g == 0) && (out.W * g * out.e % 64 == 0 || (out.C ≤ tc && cols ≤ tb))
     else ta % 8 == 0 && (tb % 8 == 0 || cols ≤ tb)))

/-- Do two CHANNEL tensors of a descriptor share registers (R260)? -/
def sregClash (P : Plan) (d : Nat) : Bool :=
  let l := (((dTensors d).eraseDups).map P.tensor).filter (fun t => t.scaleMode == 2)
  l.any (fun a => l.any (fun b => a.off != b.off && a.sreg < b.sreg + b.channels && b.sreg < a.sreg + a.channels))

/-- Does a descriptor pass its checks (R232)? -/
def State.descOk (s : State) (p : Nat) (P : Plan) (n lb idx : Nat) : Bool :=
  let d := P.descs.getD idx 0
  let op := dOp d
  let out := P.tensor (dOut d)
  let noIn := op == 0 || op == 0x29
  let noOut := op == 0 || op == 0x10 || op == 0x12
  opAllowed P d && reservedOk d && dAct d ≤ 4 && dBiasFmt d ≤ 2 && (op == 1 || op == 2 || (dAct d == 0 && dBiasFmt d == 0)) &&
  (noIn || dIn0 d != 0) && (noOut || dOut d != 0) &&
  (dTensors d).all (fun o => s.tensorOk p P n lb o) &&
  (noOut || out.space != 2) && (noOut || op == 9 || out.fmt ≤ 7) &&
  ((lbInputs P d).isEmpty || (dStream d && (P.tensor (dIn0 d)).space == 2)) &&
  streamShaped d (P.tensor (dIn0 d)) out && (!dStream d || (op != 1 && op != 3 && op != 4) || (kernOf d).bottom == 0) &&
  (noOut || !out.dyn || (posFinite (dFloor d) && posFinite (dCeil d) && f32Le (dFloor d) (dCeil d))) &&
  (!tiled d || (1 ≤ dTileA d && 1 ≤ dTileB d && tilesOk d out)) &&
  (!(op == 1 || op == 2) || dFawn d || dTileC d % 64 == 0) &&
  !sregClash P d && s.shapeOk p P n lb idx d

/-- The first descriptor that fails its checks, or contradicts a flag of the header (R184, R232). -/
def State.badDesc (s : State) (p : Nat) (P : Plan) (n lb : Nat) : Option Nat :=
  let isFrc (d : Nat) := (dTensors d).any (fun o => (P.tensor o).codec == 1 || (P.tensor o).codec == 2)
  let ix := List.range P.descs.length
  let f := ix.any (fun i => dFawn (P.descs.getD i 0))
  let r := ix.any (fun i => isFrc (P.descs.getD i 0))
  let last := P.descs.length - 1
  ix.find? (fun i =>
    let d := P.descs.getD i 0
    !s.descOk p P n lb i || (!P.fawn && dFawn d) || (!P.frc && isFrc d) || (i == last && ((P.fawn && !f) || (P.frc && !r))))

/-! ## The whole check (R184, R412, R414) -/

/-- The attention engines of a partition (R412). -/
def State.enginesOf (s : State) (p : Nat) : Nat :=
  if s.partIsBe p then
    0xFF ^^^ ((List.range 8).foldl (fun m q => if s.partExists q && !s.partIsBe q then m ||| s.get .CMD_PART_CFG_atn 0 q else m) 0)
  else s.get .CMD_PART_CFG_atn 0 p

/-- Does the BE partition's save area break R414? -/
def State.saveBreaks (s : State) (p n : Nat) : Bool :=
  let stride := s.get .CMD_SAVE_STRIDE p
  let base := s.get .CMD_SAVE_BASE p
  s.partIsBe p && (stride < n * 3104 * 1024 || base % 4096 != 0 ||
    s.regionSize p < base + s.get .CMD_PART_CFG_jobs 0 p * stride)

/-- The Fawn partition (R180). -/
def State.fawnPart (s : State) : Option Nat := if s.isOn .FWN_CFG_lc_valid then some (s.get .FWN_CFG_lc_part) else none

/-- The code that refuses a load into a slot, with a descriptor index for 0x4A; `others` are the bound contexts of the
partition's other slots. -/
def State.planRefused (s : State) (p slot base size : Nat) (others : Nat) : Option (Nat × Nat) :=
  let P := s.readPlan p base size
  let h := s.devNat base 128
  let n := (s.partList p).length
  let lb := s.partLb p
  let cs := onesOf 64 P.ctxs
  if s.hasBad base size || !headerOk h then some (0x41, 0)
  else if size != 128 + 128 * hField h 8 31 0 || base % 4096 != 0 || !s.inRegion p base size then some (0x42, 0)
  else if P.clusters != n then some (0x43, 0)
  else if (3072 - lb) * 1024 < P.need then some (0x44, 0)
  else if !P.batch && (P.ctxs &&& others != 0 || cs.any (fun c => s.owner (lnpPage c) != some p || !s.planFits P c)) then some (0x45, 0)
  else if P.fawn && s.fawnPart != some p && !s.partIsBe p then some (0x46, 0)
  else if P.frc && 16 < n then some (0x47, 0)
  else if (s.partList p).any (fun k => s.get .CLU_SRAM_CFG_lb_kib ((s.physOf k).getD 0) != lb) then some (0x48, 0)
  else if P.batch == (P.ctxs != 0) then some (0x49, 0)
  else match s.badDesc p P n lb with
    | some i => some (0x4A, i)
    | none =>
      if P.descs.any (fun d => dOp d == 0x10 || dOp d == 0x11) && s.enginesOf p == 0 then some (0x4B, 0)
      else if (!s.partIsBe p && (slot != 0 || P.batch)) || s.saveBreaks p n then some (0x4C, 0)
      else none

end Sys2Proof.Machine
end

