-- ==== Sys2Proof/Machine/Pwr.lean ====
section
/-!
DEFINITION. Machine/Pwr.lean: operating points, learned currents, the clock choice of BOOST mode and its voltage frames
(R516 to R519, R557, R558).
-/
namespace Sys2Proof.Machine

/-- The voltage of an operating point in millivolts (R516). -/
def pointMv (k : Nat) : Nat := 600 + ceilDiv (150 * k) 110 * 5

/-- The VID code of an operating point (R557). -/
def pointCode (k : Nat) : Nat := (pointMv k - 500) / 5

/-- The frame that carries a code to every group (R557). -/
def vidFrame (code : Nat) : Nat := 15 * 2 ^ 12 + code * 2 ^ 4 + (15 ^^^ (code / 16) ^^^ (code % 16))

/-- A code is sent, twice (R557). -/
def State.sendVid (s : State) (code : Nat) : State :=
  ((s.emit (.vid (vidFrame code))).emit (.vid (vidFrame code))) |> fun s => { s with pwr := { s.pwr with code := code } }

/-- The clock goes to a point: down at once and then the code, up by the code and then a wait (R516, R558). -/
def State.toPoint (s : State) (k : Nat) : State :=
  if k < s.pwr.point then
    ({ s with pwr := { s.pwr with point := k, raise := none } }).sendVid (pointCode k)
  else if k = s.pwr.point then { s with pwr := { s.pwr with raise := none } }
  else if s.pwr.raise = some k then s
  else ({ s with pwr := { s.pwr with raise := some k } }).sendVid (pointCode k)

/-- Ceilings of the descriptor classes in microamperes (R516 to R518). -/
def classCeiling (c : Nat) : Nat :=
  match c with
  | 1 => 14200000 | 2 => 13600000 | 3 => 13800000 | 4 => 12400000 | 5 => 6100000 | 6 => 12800000 | _ => 3000000

/-- A phase: partition, slot and descriptor class. -/
abbrev Phase := Nat × Nat × Nat

/-- The learned value of a phase (R518). -/
def State.learnedOf (s : State) (ph : Phase) : Nat :=
  ((s.pwr.learned.find? (fun x => x.1 == ph)).map (fun x => x.2)).getD (classCeiling ph.2.2)

/-- A plan becomes active in a slot: its phases start at their ceilings (R518). -/
def State.forgetSlot (s : State) (p k : Nat) : State :=
  { s with pwr := { s.pwr with learned := s.pwr.learned.filter (fun x => x.1.1 != p || x.1.2.1 != k) } }

/-- A descriptor of a phase ends: the learned value follows what was observed (R518). -/
def State.learn (s : State) (ph : Phase) : State :=
  let top := classCeiling ph.2.2
  let old := s.learnedOf ph
  let seen := min top (freeCurrent s.draws)
  let new := if old ≤ seen then seen else max seen (old - (old - seen) / 16)
  let rest := s.pwr.learned.filter (fun x => x.1 != ph)
  { s with draws := s.draws + 1, pwr := { s.pwr with learned := if new = top then rest else rest ++ [(ph, new)] } }

/-- Does every rail group stand at point `k`, given the load of each physical cluster in microamperes (R519)? -/
def State.pointFits (s : State) (load : Nat → Nat) (k : Nat) : Bool :=
  (List.range 8).all (fun j =>
    let sum := ((List.range 9).map (fun i => if s.cluDisabled (9 * j + i) then 0 else load (9 * j + i))).foldl (· + ·) 0
    100 * sum * (16 + k) * pointMv k ≤ 95 * s.get .PWR_RAIL_LIMIT * 1000000 * 38 * 750)

/-- The operating point chosen before a descriptor's first tile (R517, R519). -/
def State.choosePoint (s : State) (load : Nat → Nat) : Nat :=
  if s.isOn .MGT_MODE_freq_mode then 17
  else
    let lo := s.get .PWR_FREQ_min_step
    let hi := s.get .PWR_FREQ_max_step
    (((List.range (hi + 1 - lo)).map (fun i => hi - i)).find? (fun k => s.pointFits load k)).getD lo

/-- The clock choice (R519), from the phase that each partition runs next. -/
def State.clockChoice (s : State) (phase : Nat → Option Phase) : State :=
  s.toPoint (s.choosePoint (fun k =>
    match (s.cluPart k).bind phase with
    | some ph => s.learnedOf ph
    | none => 1200000))

/-- The wait for a raised voltage ends (R558): the clock rises when every group is within its limits, else the frame is
sent again. -/
def State.voltageWait (s : State) (reached : Bool) : State :=
  match s.pwr.raise with
  | none => s
  | some k => if reached then { s with pwr := { s.pwr with point := k, raise := none } } else s.sendVid (pointCode k)

end Sys2Proof.Machine
end

