-- ==== Sys2Proof/Machine/Queues.lean ====
section
/-!
DEFINITION. Machine/Queues.lean: plan slots, job contexts and the clusters' schedule as named data (R410, R414, R417), completion
queues and their messages (R418, R422, R423), submission entries (R419, R421), and the digest ring (R473, R474).
-/
namespace Sys2Proof.Machine

/-! ## Slots, jobs, schedules -/

/-- The page of a partition. -/
def cmdPage (p : Nat) : PageId := ⟨.cmdPart, p⟩

/-- A plan slot. -/
def State.slotSt (s : State) (p k : Nat) : PlanSt := (s.cmd.slots.getD p []).getD k {}

/-- A plan slot, changed. -/
def State.modSlot (s : State) (p k : Nat) (f : PlanSt → PlanSt) : State :=
  { s with cmd := { s.cmd with slots := listMod s.cmd.slots p (fun l => listMod l k f) } }

/-- A job context that is not FREE. -/
def State.job (s : State) (n : Nat) : Option Job := s.cmd.jobs.find? (fun j => j.no == n)

/-- A job context, changed. -/
def State.modJob (s : State) (n : Nat) (f : Job → Job) : State :=
  { s with cmd := { s.cmd with jobs := s.cmd.jobs.map (fun j => if j.no == n then f j else j) } }

/-- A job context becomes FREE. -/
def State.freeJob (s : State) (n : Nat) : State := { s with cmd := { s.cmd with jobs := s.cmd.jobs.filter (fun j => j.no != n) } }

/-- The STREAM job of a slot, if it is not FREE. -/
def State.streamJob (s : State) (p k : Nat) : Option Job :=
  s.cmd.jobs.find? (fun j => j.part == p && j.slot == k && !j.batch)

/-- The jobs of a partition. -/
def State.partJobs (s : State) (p : Nat) : List Job := s.cmd.jobs.filter (fun j => j.part == p)

/-- The schedule of a partition's clusters. -/
def State.sch (s : State) (p : Nat) : Sched := s.cmd.sched.getD p {}

/-- The schedule of a partition's clusters, changed. -/
def State.modSched (s : State) (p : Nat) (f : Sched → Sched) : State :=
  { s with cmd := { s.cmd with sched := listMod s.cmd.sched p f } }

/-- The lowest number below a bound that a list does not hold. -/
def lowestFree (bound : Nat) (l : List Nat) : Nat := ((List.range bound).find? (fun n => !l.contains n)).getD 0

/-- Is the partition's quota of job contexts used up (R420)? -/
def State.quotaFull (s : State) (p : Nat) : Bool := s.get .CMD_PART_CFG_jobs 0 p ≤ (s.partJobs p).length

/-- The registers of a slot's STREAM job (R435). -/
def State.showJob (s : State) (p k : Nat) : State :=
  match s.streamJob p k with
  | some j => (((s.set .CMD_PLAN_JOB_ctx p k j.no).set .CMD_PLAN_JOB_valid p k 1).set .CMD_PLAN_JOB_save p k j.save).set
      .CMD_PLAN_STEP p k j.step
  | none => ((s.set .CMD_PLAN_JOB_ctx p k 0).set .CMD_PLAN_JOB_valid p k 0).set .CMD_PLAN_JOB_save p k 0

/-- A line-buffer slot of a context returns its credit (R24, R173). -/
def State.creditBack (s : State) (c : Nat) : State := s.modLnp c (fun x => { x with returning := x.returning + 1 })

/-! ## Completion queues (R418, R422, R423) -/

/-- The 32 bytes of a completion entry, but for its phase (R422). -/
def completionBytes (tag job : Nat) (refused : Bool) (sq status step ran desc time : Nat) : List Nat :=
  leBytes 4 tag ++ leBytes 4 (job + b2n refused * 2 ^ 11 + sq * 2 ^ 12 + status * 2 ^ 16) ++ leBytes 8 step ++ leBytes 4 ran ++
  leBytes 4 (desc % 2 ^ 16) ++ leBytes 8 time

/-- Entries of a ring. -/
def State.cqSize (s : State) (p c : Nat) : Nat := 2 ^ s.get .CMD_CQ_CFG_size_log2 p c

/-- Is a completion queue full? -/
def State.cqFull (s : State) (p c : Nat) : Bool :=
  s.cqSize p c ≤ (s.get .CMD_CQ_TAIL p c + 2 ^ 16 - s.get .CMD_CQ_HEAD p c) % 2 ^ 16

/-- The message of a completion queue (R423). -/
def State.cqMessage (s : State) (p c : Nat) : State :=
  ({ s with cmd := { s.cmd with cqs := s.cmd.cqs.filter (fun x => !(x.part == p && x.cq == c)) } }).sendMsix (p + 1) (32 + c)

/-- An entry has been written that no message has signalled (R423). -/
def State.cqSignal (s : State) (p c : Nat) : State :=
  if !s.isOn .CMD_CQ_CFG_irq p c then s
  else
    let old := s.cmd.cqs.find? (fun x => x.part == p && x.cq == c)
    let w : CqWait := match old with
      | some x => { x with unsig := x.unsig + 1 }
      | none => ⟨p, c, 1, s.tick⟩
    let s := { s with cmd := { s.cmd with cqs := s.cmd.cqs.filter (fun x => !(x.part == p && x.cq == c)) ++ [w] } }
    if max 1 (s.get .CMD_CQ_CFG_coal_n p c) ≤ w.unsig then s.cqMessage p c else s

/-- Write a completion and advance the tail; its job becomes FREE (R417, R422). -/
def State.cqWrite (s : State) (x : Completion) : State :=
  let p := x.part
  let c := x.cq
  let tail := s.get .CMD_CQ_TAIL p c
  let phase := 1 - tail / s.cqSize p c % 2
  let s := s.hostOut (.hostWrite (s.get .CMD_CQ_BASE p c + tail % s.cqSize p c * 32) (listMod x.bytes 7 (fun b => b + 128 * phase)))
  let s := s.countWrap .CMD_CQ_TAIL p c 1
  let s := match x.job with
    | some n => s.freeJob n
    | none => s
  s.cqSignal p c

/-- Write the completions that wait for a queue, as long as it has room. -/
def State.cqFlush (s : State) (p c : Nat) : State :=
  s.forEach (s.cmd.waiting.filter (fun x => x.part == p && x.cq == c)) (fun s x =>
    if s.isOn .CMD_CQ_CFG_enable p c && !s.cqFull p c then
      ({ s with cmd := { s.cmd with waiting := s.cmd.waiting.erase x } }).cqWrite x
    else s)

/-- Does a completion wait for a queue? -/
def State.cqWaits (s : State) (p c : Nat) : Bool := s.cmd.waiting.any (fun x => x.part == p && x.cq == c)

/-- A completion is ready: it is written, or it waits; the first to find the queue full raises CQ_FULL (R423). -/
def State.complete (s : State) (x : Completion) : State :=
  let p := x.part
  let c := x.cq
  let full := s.isOn .CMD_CQ_CFG_enable p c && s.cqFull p c && !s.cqWaits p c
  let s := if full then s.raise (cmdPage p) 7 else s
  ({ s with cmd := { s.cmd with waiting := s.cmd.waiting ++ [x] } }).cqFlush p c

/-- The queue's head advances: waiting completions follow, and a queue that is full again raises CQ_FULL (R423). -/
def State.cqHead (s : State) (p c v : Nat) : State :=
  let s := s.set .CMD_CQ_HEAD p c v
  let n := s.cmd.waiting.length
  let s := s.cqFlush p c
  if s.cmd.waiting.length < n && s.cqWaits p c then s.raise (cmdPage p) 7 else s

/-- The completion queue of a submission queue. -/
def State.cqOf (s : State) (p q : Nat) : Nat := s.get .CMD_SQ_CFG_cq p q

/-- A completion of an entry of a submission queue. -/
def State.completion (s : State) (p q : Nat) (bytes : List Nat) (job : Option Nat) : State :=
  s.complete { part := p, cq := s.cqOf p q, bytes := bytes, job := job, sq := q }

/-! ## Submission entries (R419) -/

def sqOpcode (e : Nat) : Nat := bits e 7 0
def sqSlot (e : Nat) : Nat := bits e 10 8
def sqWaitPrev (e : Nat) : Bool := bit e 16
def sqAbort (e : Nat) : Bool := bit e 17
def sqTag (e : Nat) : Nat := dField e 4 31 0
def sqS0 (e : Nat) : Nat := dField e 8 63 0
def sqSteps (e : Nat) : Nat := dField e 0x10 31 0
def sqSlice (e : Nat) : Nat := dField e 0x14 13 0
def sqSeed (e : Nat) : Nat := dField e 0x18 63 0
def sqEpoch (e : Nat) : Nat := dField e 0x20 31 0
def sqJob (e : Nat) : Nat := dField e 0x28 9 0

/-- Are all bits that the table does not assign zero (R419)? -/
def sqBitsOk (e : Nat) : Bool :=
  dField e 0 31 0 &&& (0xFFFFFFFF ^^^ 0x307FF) == 0 && dField e 0x14 31 14 == 0 && dField e 0x24 31 0 == 0 && dField e 0x28 31 10 == 0 &&
  (e >>> (8 * 0x2C)) % 2 ^ 160 == 0

/-- May CMD take the next entry of a submission queue (R406, R420)? -/
def State.sqReady (s : State) (p q : Nat) : Bool :=
  s.linkUp && s.isOn .CMD_SQ_CFG_enable p q && s.get .CMD_SQ_HEAD p q != s.get .CMD_SQ_TAIL p q &&
  !s.cmd.sqs.any (fun x => x.part == p && x.sq == q)

/-- The next entry of a submission queue has been fetched. -/
def State.sqFetched (s : State) (p q : Nat) : State := s.countWrap .CMD_SQ_HEAD p q 1

/-- A refused entry (R421). -/
def State.sqRefuse (s : State) (p q e status : Nat) : State :=
  s.completion p q (completionBytes (sqTag e) 0 true q status 0 0 0 s.t64) none

/-- A queue stops with an error (R418, R435). -/
def State.sqError (s : State) (p q code : Nat) : State :=
  (((s.set .CMD_SQ_CFG_enable p q 0).set .CMD_SQ_STATUS_err p q 1).set .CMD_SQ_STATUS_err_code p q code).raise (cmdPage p) 6

/-- The doorbell (R418). -/
def State.sqDoorbell (s : State) (p q tail : Nat) : State :=
  let s := s.pmc 0x38 (p + 1) 1 (some p)
  if s.isOn .CMD_SQ_CFG_enable p q && 2 ^ s.get .CMD_SQ_CFG_size_log2 p q < (tail + 2 ^ 16 - s.get .CMD_SQ_HEAD p q) % 2 ^ 16 then
    s.sqError p q 1
  else s.set .CMD_SQ_TAIL p q tail

/-! ## The digest ring (R473, R474) -/

/-- The digest of a completed descriptor. -/
def State.digestEntry (s : State) (p : Nat) (j : Job) (idx : Nat) (bytes : List Nat) : State :=
  if !s.isOn .CMD_DIG_CFG_enable p then s
  else
    let seq := s.get .CMD_DIG_SEQ p
    let size := 2 ^ s.get .CMD_DIG_CFG_size_log2 p
    let head := s.get .CMD_DIG_HEAD p
    let used := (head + 2 ^ 32 - s.get .CMD_DIG_TAIL p) % 2 ^ 32
    let s := s.countWrap .CMD_DIG_SEQ p 0 1
    if !s.isOn .CMD_DIG_CFG_overwrite p && size ≤ used then (s.count .CMD_DIG_LOST p 0 1).raise (cmdPage p) 8
    else
      let entry := leBytes 8 j.step ++ leBytes 8 (crc64 bytes) ++
        leBytes 4 (idx % 2 ^ 16 + j.no * 2 ^ 16 + j.slot * 2 ^ 26 + b2n j.relaxed * 2 ^ 29) ++ leBytes 4 seq ++
        leBytes 4 (bytes.length % 2 ^ 32) ++ leBytes 4 0
      let a := s.regionBase p + s.get .CMD_DIG_BASE p + head % size * 32
      let s := if s.inRegion p a 32 then (s.devWriteFor (some p) a entry).bwRequest p 1 true else s
      let s := s.countWrap .CMD_DIG_HEAD p 0 1
      if s.get .CMD_DIG_CFG_wm p != 0 && (used + 1) % 2 ^ 32 == s.get .CMD_DIG_CFG_wm p then s.raise (cmdPage p) 9 else s

end Sys2Proof.Machine
end

