-- ==== Sys2Proof/Machine/Steps.lean ====
section
/-!
DEFINITION. Machine/Steps.lean: the beginning and the end of jobs and steps: window resets (R175, R229), plan switches (R186,
R415), job contexts (R417, R420), the rows of a step (R172, R173), dynamic scales (R254 to R259), step boundaries (R169 to R171,
R468).
-/
namespace Sys2Proof.Machine

/-! ## Where a step runs -/

/-- The plan that a job runs. -/
def State.planOf (s : State) (j : Job) : Option Plan := (s.slotSt j.part j.slot).active

/-- A context's streaming state after a window reset. -/
def freshWin (c : Nat) : CtxWin :=
  { ctx := c, last := 0, stripes := 0, holding := [], prod := [], finders := [], cuts := [], marks := [] }

/-- The streaming state of a context in a slot, if it has one. -/
def State.win? (s : State) (p k c : Nat) : Option CtxWin := (s.slotSt p k).wins.find? (fun w => w.ctx == c)

/-- The streaming state of a context in a slot. -/
def State.win (s : State) (p k c : Nat) : CtxWin := (s.win? p k c).getD (freshWin c)

/-- The streaming state of a context, replaced. -/
def State.setWin (s : State) (p k : Nat) (w : CtxWin) : State :=
  s.modSlot p k (fun x => { x with wins := x.wins.filter (fun y => y.ctx != w.ctx) ++ [w] })

/-- The context of a step; 0 in a BATCH plan. -/
def StepRun.ctx (r : StepRun) : Nat := (r.ready.map (fun x => x.ctx)).getD 0

/-- What the tiles of a descriptor depend on. -/
def State.envOf (s : State) (j : Job) (P : Plan) (r : StepRun) (idx : Nat) : Env :=
  { part := j.part, plan := P, ctx := r.ctx, win := s.win j.part j.slot r.ctx, lines := s.ctxLines r.ctx
    n := (s.partList j.part).length, step := j.step, seed := j.seed, epoch := j.epoch
    before := (r.descs.map (fun x => x.idx)).takeWhile (fun i => i != idx) }

/-- The job on a partition's clusters, its plan and its step. -/
def State.current (s : State) (p : Nat) : Option (Job × Plan × StepRun) :=
  match (s.sch p).running.bind s.job with
  | none => none
  | some j => match s.planOf j, j.run with
    | some P, some r => some (j, P, r)
    | _, _ => none

/-- The step of a job, changed. -/
def State.modRun (s : State) (n : Nat) (f : StepRun → StepRun) : State := s.modJob n (fun j => { j with run := j.run.map f })

/-- A descriptor of a job's step, changed. -/
def State.modDesc (s : State) (n idx : Nat) (f : DescRun → DescRun) : State :=
  s.modRun n (fun r => { r with descs := r.descs.map (fun x => if x.idx == idx then f x else x) })

/-! ## Window resets (R175, R229) -/

/-- The event of a window reset. -/
def State.windowReset (s : State) (p c : Nat) : State :=
  let k := s.posPhys p 0
  (s.raise ⟨.clu, k⟩ 2 c).count .CLU_CNT_WRESET k 0 1

/-- The line-buffer slots that a context holds return their credits. -/
def State.dropHolding (s : State) (w : CtxWin) : State := s.forEach w.holding (fun s _ => s.creditBack w.ctx)

/-- A context's windows are discarded: its open components are cut (R229), its line-buffer slots return. -/
def State.resetWin (s : State) (p k : Nat) (w : CtxWin) (cuts : List CutEntry) : State :=
  ((s.dropHolding w).setWin p k { freshWin w.ctx with cuts := cuts }).windowReset p w.ctx

/-! ## Job contexts (R417, R420) -/

/-- A job context in its first state. -/
def freshJob (no part slot : Nat) (batch : Bool) (save s0 seed : Nat) (relaxed : Bool) : Job :=
  { no := no, part := part, slot := slot, batch := batch, state := .idle, save := save, s0 := s0, step := s0, steps := 0, ran := 0
    seed := seed, epoch := 0, slice := 0, debt := 0, tag := 0, sq := 0, stops := [], ending := false, relaxed := relaxed
    started := false, order := 0, next := 0, run := none, loaded := [], status := 0, desc := 0, time := 0, kfmt := [], saved := [] }

/-- A job takes the lowest free context and save index (R417). -/
def State.takeJob (s : State) (p k : Nat) (batch : Bool) (s0 seed : Nat) : State × Nat :=
  let n := lowestFree 1024 (s.cmd.jobs.map (fun j => j.no))
  let sv := lowestFree 1024 ((s.partJobs p).map (fun j => j.save))
  ({ s with cmd := { s.cmd with jobs := s.cmd.jobs ++ [freshJob n p k batch sv s0 seed (s.isOn .MGT_MODE_det_mode)] } }, n)

/-- A job becomes READY; its first time gives its place in the rotation (R425). -/
def State.makeReady (s : State) (n : Nat) : State :=
  match s.job n with
  | none => s
  | some j =>
    if j.order = 0 then
      let o := s.cmd.orders + 1
      ({ s with cmd := { s.cmd with orders := o } }).modJob n (fun j => { j with state := .ready, order := o })
    else s.modJob n (fun j => { j with state := .ready })

/-- IDLE jobs with a stripe-ready of a bound context become READY (R417). -/
def State.refreshReady (s : State) : State :=
  s.forEach s.cmd.jobs (fun s j =>
    match s.planOf j with
    | none => s
    | some P => if j.state == .idle && !j.batch && s.cmd.ready.any (fun r => P.binds r.ctx) then s.makeReady j.no else s)

/-- Start the BATCH job of a RUN entry whose checks passed; the slot is looked at again after a wait (R420, R421). -/
def State.startBatch (s : State) (p q e : Nat) : State :=
  let k := sqSlot e
  match (s.slotSt p k).active with
  | none => s.sqRefuse p q e 7
  | some P =>
    if !P.batch || s.get .CMD_PLAN_STATUS_state p k != 1 then s.sqRefuse p q e 7
    else
      let r := s.takeJob p k true (sqS0 e) (sqSeed e)
      (r.1.modJob r.2 (fun j => { j with steps := sqSteps e, epoch := sqEpoch e, slice := sqSlice e * 1000, tag := sqTag e, sq := q })).makeReady r.2

/-- Must a RUN entry wait (R420)? -/
def State.runWaits (s : State) (p q e : Nat) : Bool :=
  s.quotaFull p || (sqWaitPrev e && s.cmd.jobs.any (fun j => j.part == p && j.batch && j.sq == q && j.state != .ended))

/-- Must a FENCE entry wait (R420)? -/
def State.fenceWaits (s : State) (p q : Nat) : Bool :=
  s.cmd.jobs.any (fun j => j.part == p && ((j.batch && j.sq == q) || j.stops.any (fun x => x.1 == q))) ||
  s.cmd.waiting.any (fun x => x.part == p && x.sq == q)

/-- Take up an entry that passed its checks, or hold its queue with it (R420). -/
def State.sqTake (s : State) (p q e : Nat) : State :=
  let wait := if sqOpcode e = 1 then s.runWaits p q e else s.fenceWaits p q
  if wait then { s with cmd := { s.cmd with sqs := s.cmd.sqs ++ [⟨p, q, e⟩] } }
  else if sqOpcode e = 1 then s.startBatch p q e
  else s.completion p q (completionBytes (sqTag e) 0 false q 0 0 0 0 s.t64) none

/-- Entries that hold their queues are tried again. -/
def State.sqPump (s : State) (p : Nat) : State :=
  s.forEach (s.cmd.sqs.filter (fun x => x.part == p)) (fun s x =>
    ({ s with cmd := { s.cmd with sqs := s.cmd.sqs.filter (fun y => y != x) } }).sqTake p x.sq x.entry)

/-- A job's clusters are without a job. -/
def State.leaveClusters (s : State) (p n : Nat) : State :=
  s.modSched p (fun x => { x with running := if x.running == some n then none else x.running
                                  switchTo := if x.switchTo == some n then none else x.switchTo
                                  ending := if x.running == some n then false else x.ending })

/-- A job has ENDED (R417, R420, R422): its completion and those of the STOP entries that name it. -/
def State.endJob (s : State) (n status desc : Nat) : State :=
  match s.job n with
  | none => s
  | some j =>
    if j.state == .ended then s
    else
      let now := s.t64
      let s := (s.modJob n (fun j => { j with state := .ended, status := status, desc := desc, time := now, run := none, stops := [] })).leaveClusters j.part n
      let s := if j.batch then
          s.completion j.part j.sq (completionBytes j.tag n false j.sq status j.step j.ran (if status = 2 || status = 3 then desc else 0) now) (some n)
        else (s.freeJob n).showJob j.part j.slot
      let s := s.forEach j.stops (fun s x =>
        s.completion j.part x.1 (completionBytes x.2 n false x.1 0 j.step j.ran 0 now) none)
      s.sqPump j.part

/-! ## Plan slots (R186, R414, R415) -/

/-- The STREAM job of a slot ends, and the line-buffer slots it holds return. -/
def State.endStream (s : State) (p k status : Nat) : State :=
  let s := s.forEach (s.slotSt p k).wins (fun s w => (s.dropHolding w).setWin p k { w with holding := [] })
  match s.streamJob p k with
  | some j => s.endJob j.no status 0
  | none => s

/-- Components cut in the old plan go out with the first part list of the new one (R229). -/
def cutsFor (P : Plan) (c : Nat) (l : List CutEntry) : List CutEntry :=
  match (List.range P.descs.length).find? (fun i => dOp (P.descs.getD i 0) == 0x0F && runsIn (P.descs.getD i 0) c) with
  | none => []
  | some i => l.map (fun x => { x with desc := i })

/-- What contexts without a plan keep of their streaming state: the components to be cut when a plan next takes them (R182, R229). -/
def State.leftCuts (s : State) (ws : List CtxWin) (descs : List Nat) : List CtxWin :=
  (ws.map (fun w => { freshWin w.ctx with cuts := w.cutAll (s.ctxLines w.ctx) descs })).filter (fun w => !w.cuts.isEmpty)

/-- A plan becomes active in a slot (R186, R417, R518). -/
def State.activate (s : State) (p k : Nat) (P : Plan) (s0 seed : Nat) : State :=
  let old := s.slotSt p k
  let olds := (old.active.map (fun P => P.descs)).getD []
  let s := (s.endStream p k 1).forgetSlot p k
  let left := s.leftCuts (old.wins.filter (fun w => !P.binds w.ctx)) olds
  let s := s.modSlot p k (fun x => { x with active := some P, load := none, unloading := false, wins := left })
  let s := s.forEach (old.wins.filter (fun w => P.binds w.ctx)) (fun s w =>
    s.resetWin p k { w with holding := [] } (cutsFor P w.ctx (w.cutAll (s.ctxLines w.ctx) olds)))
  let s := s.forEach (s.partJobs p) (fun s j =>
    if j.slot == k && j.batch && j.state != .ended then
      (if P.batch then s.modJob j.no (fun j => { j with next := 0 }) else s.endJob j.no 1 0)
    else s)
  let s := ((((s.set .CMD_PLAN_STATUS_state p k 1).set .CMD_PLAN_STATUS_load p k 0).set .CMD_PLAN_STATUS_code p k 0).set
    .CMD_PLAN_STATUS_mode p k (b2n P.batch)).set .CMD_PLAN_DIGEST p k P.digest
  let s := if P.batch then s else (s.takeJob p k false s0 seed).1
  (s.showJob p k).refreshReady

/-- Is a step in progress in a slot? -/
def State.slotBusy (s : State) (p k : Nat) : Bool := (s.partJobs p).any (fun j => j.slot == k && j.run.isSome)

/-- May a pending plan become active in its slot now: released, no step in progress, and a job context for its STREAM job? -/
def State.switchDue (s : State) (p k : Nat) : Option Plan :=
  match (s.slotSt p k).load with
  | none => none
  | some l =>
    match l.plan with
    | none => none
    | some P =>
      let jobs := (s.partJobs p).filter (fun j => !(j.slot == k && !j.batch))
      if l.hold || s.slotBusy p k || (!P.batch && s.get .CMD_PART_CFG_jobs 0 p ≤ jobs.length) then none else some P

/-- The switch of a slot at a partition step boundary (R186). -/
def State.switchSlot (s : State) (p k : Nat) : State :=
  match s.switchDue p k with
  | none => s
  | some P => (s.activate p k P (s.get .CMD_PLAN_S0 p k) (s.get .CMD_PLAN_SEED p k)).raise (cmdPage p) 0

/-- A slot becomes EMPTY (R415). -/
def State.emptySlot (s : State) (p k : Nat) : State :=
  let old := s.slotSt p k
  let s := s.endStream p k 1
  let left := s.leftCuts old.wins ((old.active.map (fun P => P.descs)).getD [])
  let s := s.modSlot p k (fun _ => { wins := left })
  (((s.set .CMD_PLAN_STATUS_state p k 0).set .CMD_PLAN_STATUS_load p k 0).set .CMD_PLAN_DIGEST p k 0).showJob p k

/-- A partition step boundary: unloads and switches that wait for it (R171, R186, R415). -/
def State.boundary (s : State) (p : Nat) : State :=
  s.forEach (List.range 8) (fun s k =>
    if (s.slotSt p k).unloading && !s.slotBusy p k then s.emptySlot p k else s.switchSlot p k)

/-! ## Beginning a step (R169 to R175, R204, R256) -/

/-- The rows of a tensor that exist for a streaming reader: those before this step's writer runs, and those after; `prod` gives
the rows of each descriptor before the step, `runs` those of earlier descriptors of the step. -/
def Plan.rowsOf (P : Plan) (w : CtxWin) (lines : Nat) (runs : List DescRun) (off : Nat) : Nat × Nat :=
  let t := P.tensor off
  if t.space = 2 then ((w.stripes - 1) * lines, w.stripes * lines)
  else
    let ws := (P.writers off).filter (fun i => runsIn (P.descs.getD i 0) w.ctx)
    let of (i : Nat) : Nat × Nat := match runs.find? (fun r => r.idx == i) with
      | some r => (r.rowLo, r.rowHi)
      | none =>
        let n := ((w.prod.find? (fun x => x.1 == i)).map (fun x => x.2)).getD 0
        (n, n)
    match ws with
    | [] => (0, 0)
    | i :: is => is.foldl (fun a j => (min a.1 (of j).1, min a.2 (of j).2)) (of i)

/-- Does a descriptor's reduction split under ksplit (R199)? -/
def hasRed (d : Nat) : Bool :=
  match dOp d with
  | 0x01 | 0x02 | 0x04 | 0x20 | 0x21 | 0x22 | 0x23 => true
  | 0x05 => bit (dVariant d) 0
  | 0x0B => bits (dVariant d) 4 2 != 2 && bits (dVariant d) 4 2 != 3
  | _ => false

/-- Rows, columns and channels that the tiles of a descriptor cut, and its first row (R199). -/
def tileSpan (P : Plan) (d lo hi : Nat) : Nat × Nat × Nat × Nat :=
  let t := P.tensor (dOut d)
  if t.layout = layMAT then (0, t.H * t.W, t.C, 1)
  else if dStream d then (lo, hi - lo, t.W, t.C)
  else (0, t.H, t.W, t.C)

/-- Tile sizes: rows, columns, channels. -/
def tileSize (P : Plan) (d : Nat) : Nat × Nat × Nat :=
  let t := P.tensor (dOut d)
  (max 1 (dTileA d), max 1 (dTileB d), if t.layout = layMAT || dTileC d = 0 then max 1 t.C else dTileC d)

/-- Units of work of a descriptor: tiles times the parts of a split reduction; samples for DEC_FETCH; one where the descriptor cuts
its own work; none for NOP, CONCAT, SPLIT and a streaming descriptor without rows. -/
def unitsOf (P : Plan) (d n lo hi : Nat) : Nat × Nat :=
  let op := dOp d
  if op = 0 || op = 9 || op = 10 || (dStream d && hi ≤ lo) then (0, 1)
  else if op = 0x28 then (dField d 0x38 15 0, 1)
  else if !tiled d then (1, 1)
  else
    let sp := tileSpan P d lo hi
    let z := tileSize P d
    let k := if dKsplit d && hasRed d then max 1 n else 1
    (ceilDiv sp.2.1 z.1 * ceilDiv sp.2.2.1 z.2.1 * ceilDiv sp.2.2.2 z.2.2 * k, k)

/-- The descriptors of a step with their rows. -/
def stepDescs (P : Plan) (w : CtxWin) (lines n : Nat) (ix : List Nat) : List DescRun :=
  ix.foldl (fun runs i =>
    let d := P.descs.getD i 0
    let lo := if dStream d then ((w.prod.find? (fun x => x.1 == i)).map (fun x => x.2)).getD 0 else 0
    let av := (streamInputs P d).map (fun o => (P.rowsOf w lines runs o).2)
    let hi := if dStream d then max lo (rowsFrom d ((av.drop 1).foldl min (av.headD 0))) else 0
    let u := unitsOf P d n lo hi
    runs ++ [{ idx := i, units := u.1, parts := u.2, assigned := 0, done := [], complete := false, rowLo := lo, rowHi := hi, partials := []
               codes := [], extra := [], amax := 0, sat := 0, written := 0, first := none }]) []

/-- The descriptors that a BATCH step from `first` takes (R169). -/
def Plan.batchStep (P : Plan) (first : Nat) : List Nat :=
  let l := (List.range P.descs.length).drop first
  let a := l.takeWhile (fun i => !dStepEnd (P.descs.getD i 0))
  a ++ (l.drop a.length).take 1

/-- The slot header of a line-buffer slot: flags, and the stripe's mark (R155). -/
def State.slotMark (s : State) (p c slot index lines : Nat) : Nat × StripeMark :=
  let b := s.lbSlot c slot
  (ofLe (s.lbRead p (b + 8) 4),
   { index := index, s := sext 64 (ofLe (s.lbRead p (b + 0x20) 8)), e := sext 64 (ofLe (s.lbRead p (b + 0x28) 8))
     pos := (List.range lines).map (fun r => sext 64 (ofLe (s.lbRead p (b + 0x80 + 8 * r) 8))) })

/-- The tensors with a dynamic scale that a plan produces. -/
def Plan.dynOuts (P : Plan) : List Nat :=
  ((P.descs.filter (fun d => dOp d != 9 && dOp d != 10 && dOut d != 0)).map dOut).eraseDups.filter (fun o => (P.tensor o).dyn)

/-- A plan with new scale slots in its copy of a header (R201). -/
def Plan.setScales (P : Plan) (off a ga b gb : Nat) : Plan :=
  { P with headers := P.headers.map (fun h => if h.1 == off then
      (h.1, putBits h.2 (8 * 0x20) 128 (a + ga * 2 ^ 32 + b * 2 ^ 64 + gb * 2 ^ 96)) else h) }

/-- The device changes the scale slots of its copy and writes them back to memory (R201, R256). -/
def State.putScales (s : State) (p k off a ga b gb : Nat) : State :=
  let s := s.modSlot p k (fun x => { x with active := x.active.map (fun P => P.setScales off a ga b gb) })
  let at' := s.regionBase p + off + 0x20
  if s.inRegion p at' 16 then
    (s.devWriteFor (some p) at' (leBytes 4 a ++ leBytes 4 ga ++ leBytes 4 b ++ leBytes 4 gb)).bwRequest p 1 true
  else s

/-- At the first step of a job its dynamic scales start from scale_a (R256). -/
def State.initScales (s : State) (j : Job) (P : Plan) : State :=
  s.forEach P.dynOuts (fun s o =>
    let a := (P.tensor o).scaleA
    s.putScales j.part j.slot o a (j.step % 2 ^ 32) a ((j.step + 2 ^ 32 - 1) % 2 ^ 32))

/-- The stripe-ready that a STREAM job takes next (R171). -/
def State.nextReady (s : State) (P : Plan) : Option Ready :=
  (s.cmd.ready.filter (fun r => P.binds r.ctx)).foldl (fun best r => match best with
    | none => some r
    | some b => if r.time < b.time || (r.time == b.time && r.ctx < b.ctx) then some r else some b) none

/-- Is the partition free of tiles for the 20 µs before a tick (R468)? -/
def State.startsIdle (s : State) (p t : Nat) : Bool := (s.sch p).lastTile = 0 || (s.sch p).lastTile + 8000 ≤ t + 1

/-- The step of a stripe begins (R171 to R175). -/
def State.beginStream (s : State) (j : Job) (P : Plan) (r : Ready) : State :=
  let p := j.part
  let k := j.slot
  let c := r.ctx
  let lines := s.ctxLines c
  let s := { s with cmd := { s.cmd with ready := s.cmd.ready.erase r } }
  let s := match s.win? p k c with
    | none => (s.setWin p k (freshWin c)).windowReset p c
    | some w => if w.stripes != 0 && (w.last + 1) % 2 ^ 32 != r.no then s.resetWin p k w (w.cutAll lines P.descs) else s
  let w := s.win p k c
  let m := s.slotMark p c r.slot w.stripes lines
  let w := { w with last := r.no, stripes := w.stripes + 1, holding := w.holding ++ [(w.stripes, r.slot)], marks := w.marks ++ [m.2] }
  let s := s.setWin p k w
  let ix := (List.range P.descs.length).filter (fun i => runsIn (P.descs.getD i 0) c)
  let ds := stepDescs P w lines (s.partList p).length ix
  let idle := s.startsIdle p r.time
  s.modJob j.no (fun j => { j with run := some {
    ready := some r, start := r.time, descs := ds, tiles := [], seq := 0, idle := idle, fixed := s.isOn .MGT_MODE_freq_mode, refresh := 0
    replays := 0, replay := bit m.1 4 } })

/-- The next step of a job begins, if it has work (R169, R170). -/
def State.beginStep (s : State) (n : Nat) : State :=
  match s.job n with
  | none => s
  | some j =>
    match s.planOf j with
    | none => s
    | some P =>
      if j.run.isSome || j.state != .running then s
      else if j.batch then
        let s := if j.ran = 0 then s.initScales j P else s
        let ds := stepDescs P (freshWin 0) 1 (s.partList j.part).length (P.batchStep j.next)
        s.modJob n (fun j => { j with run := some {
          ready := none, start := s.tick, descs := ds, tiles := [], seq := 0, idle := false, fixed := s.isOn .MGT_MODE_freq_mode, refresh := 0
          replays := 0, replay := false } })
      else match s.nextReady P with
        | none => s
        | some r =>
          let s := if j.ran = 0 then s.initScales j P else s
          match s.planOf j with
          | none => s
          | some P => s.beginStream j P r

/-! ## The end of a step (R169, R254 to R259, R468) -/

/-- The largest magnitude of a dynamic format (R253). -/
def qmax (fmt : Nat) : Nat := if fmt = 0 then 127 else if fmt = 1 then 255 else if fmt = 2 then 448 else 57344

/-- The grid values g(k) for `k = 4 * e + i`, in units of 2^-149, scaled by 2^64 (R255). -/
def gridUnits (e : Int) (i : Nat) : Nat :=
  let m := [0x800000, 0x9837F0, 0xB504F3, 0xD744FD].getD i 0
  let sh := e + 126 + 64
  if sh < 0 then m / 2 ^ (-sh).toNat else m * 2 ^ sh.toNat

/-- The smallest grid value at or above a finite value (R255); 0 for 0. -/
def gridAbove (x : Nat) : Nat :=
  if fUnits x = 0 then 0
  else
    let L : Int := (Nat.log2 (fUnits x) : Int) - 149
    let k := ((List.range 5).find? (fun k => fUnits x * 2 ^ 64 ≤ gridUnits (L + (k / 4 : Nat)) (k % 4))).getD 4
    f32OfScaled ([0x800000, 0x9837F0, 0xB504F3, 0xD744FD].getD (k % 4) 0 : Nat) (L + (k / 4 : Nat) - 23)

/-- The next dynamic scale (R255). -/
def nextDyn (d fmt old amax written : Nat) : Nat :=
  if written = 0 || fIsZero amax then old
  else
    let x := f32Mul (f32Div amax (f32OfInt (qmax fmt))) (f32OfScaled (256 + dMargin d : Nat) (-8))
    let s1 := if fIsInf amax then f32Inf else gridAbove x
    let s2 := f32Min (f32Max s1 (f32Mul old 0x3F000000)) (f32Mul old 0x40000000)
    f32Min (f32Max s2 (dFloor d)) (dCeil d)

/-- A descriptor's dynamic output at the step boundary (R255, R256, R258, R259). -/
def State.rotateScale (s : State) (j : Job) (P : Plan) (r : DescRun) : State :=
  let d := P.descs.getD r.idx 0
  let t := P.tensor (dOut d)
  if dOut d = 0 || dOp d = 9 || dOp d = 10 || !t.dyn then s
  else
    let g := j.step % 2 ^ 32
    let g1 := (j.step + 1) % 2 ^ 32
    let new := if t.pinned then t.scaleA else nextDyn d t.fmt t.nextScale r.amax r.written
    let s := if t.nextIsA then s.putScales j.part j.slot (dOut d) t.nextScale g new g1
      else s.putScales j.part j.slot (dOut d) new g1 t.nextScale g
    if dSatThr d < r.sat && dSatThr d != 0xFFFFFFFF then s.raise (cmdPage j.part) 5 (r.idx % 2 ^ 16) else s

/-- The marks of stripes that the part finder may still refer to (R227). -/
def CtxWin.prune (w : CtxWin) (descs : List Nat) (lines : Nat) : CtxWin :=
  let first (f : Finder) : Nat :=
    (f.comps.foldl (fun m c => min m c.row) f.rows) * (findSet (descs.getD f.desc 0)).sa / max 1 lines
  let keep := w.finders.foldl (fun m f => min m (first f)) (w.stripes - 1)
  { w with marks := w.marks.filter (fun m => keep ≤ m.index) }

/-- Line-buffer slots of a context that every reader has released return their credits (R173); `next` gives each descriptor's next
output row. -/
def State.release (s : State) (p k : Nat) (P : Plan) (w : CtxWin) (next : Nat → Nat) (last : Bool) : State :=
  let lines := s.ctxLines w.ctx
  let readers := (List.range P.descs.length).filter (fun i =>
    let d := P.descs.getD i 0
    runsIn d w.ctx && (lbInputs P d).any (fun t => t.ctx == w.ctx))
  let free (x : Nat × Nat) : Bool :=
    if readers.isEmpty then last
    else readers.all (fun i => !needsRow (P.descs.getD i 0) (next i) (x.1 * lines + lines - 1))
  (s.setWin p k { w with holding := w.holding.filter (fun x => !free x) }).dropHolding { w with holding := w.holding.filter free }

/-- The rows that a streaming descriptor has produced, in a step in progress. -/
def nextRow (w : CtxWin) (runs : List DescRun) (i : Nat) : Nat :=
  match runs.find? (fun r => r.idx == i) with
  | some r => if r.complete then r.rowHi else r.rowLo
  | none => ((w.prod.find? (fun x => x.1 == i)).map (fun x => x.2)).getD 0

/-- The registers of a measured step (R468). -/
def State.measureStep (s : State) (j : Job) (r : StepRun) : State :=
  if s.partIsBe j.part || j.batch then s
  else
    let lat := if r.fixed && s.isOn .MGT_MODE_freq_mode then min ((s.tick - r.start) * 33 / 8) (2 ^ 32 - 1) else 0
    ((((s.set .CMD_STEP_MEAS j.part 0 j.step).set .CMD_STEP_LAT j.part 0 lat).set .CMD_STEP_REFRESH j.part 0 (min r.refresh 0xFFFF)).set
      .CMD_STEP_REPLAY j.part 0 (min r.replays 0xFFFF)).set .CMD_STEP_IDLE j.part 0 (b2n r.idle)

/-- The context of a finished step: rows produced, marks, line-buffer slots. -/
def State.closeWin (s : State) (j : Job) (P : Plan) (r : StepRun) : State :=
  match r.ready with
  | none => s
  | some x =>
    let w := s.win j.part j.slot x.ctx
    let made : List (Nat × Nat) := (r.descs.filter (fun y => dStream (P.descs.getD y.idx 0))).map (fun y => (y.idx, y.rowHi))
    let w := { w with prod := w.prod.filter (fun (y : Nat × Nat) => !made.any (fun (z : Nat × Nat) => z.1 == y.1)) ++ made }
    let w := w.prune P.descs (s.ctxLines x.ctx)
    s.release j.part j.slot P w (nextRow w []) true

/-- Every descriptor of a job's step has completed: the step boundary (R169 to R171, R186, R255, R417). -/
def State.endStep (s : State) (n : Nat) : State :=
  match s.job n with
  | none => s
  | some j =>
    match s.planOf j, j.run with
    | some P, some r =>
      let p := j.part
      let s := s.closeWin j P r
      let s := s.forEach r.descs (fun s x => s.rotateScale j P x)
      let s := (s.measureStep j r).pmc 0x15 0 1 (some p)
      let s := { s with dec := s.dec.filter (fun x => x.job != n) }
      let last := ((r.descs.map (fun x => x.idx)).getLast?).getD 0
      let s := s.modJob n (fun j => { j with
        run := none, step := (j.step + 1) % 2 ^ 64, ran := (j.ran + 1) % 2 ^ 32
        next := if last + 1 < P.descs.length then last + 1 else 0 })
      let s := s.showJob p j.slot
      let s := if j.batch && j.steps != 0 && j.ran + 1 == j.steps then s.endJob n 0 0
        else if j.ending then
          (if j.batch then s.endJob n 1 0 else (s.endStream p j.slot 1).set .CMD_PLAN_STATUS_state p j.slot 2)
        else s
      let s := s.boundary p
      match s.job n with
      | none => s
      | some j =>
        if j.batch || j.state != .running || s.cmd.ready.any (fun x => P.binds x.ctx) then s
        else (s.modJob n (fun j => { j with state := .idle })).leaveClusters p n
    | _, _ => s

end Sys2Proof.Machine
end

