-- ==== Sys2Proof/Machine/Tiles.lean ====
section
/-!
DEFINITION. Machine/Tiles.lean: units of work within a step: the elements of a tile and where it runs (R199), its dependencies (R197,
R198), its reads (R166), its results (R168, R177, R208 to R225, R459, R460), and the completion of descriptors (R173, R242, R428,
R472, R518, R519).
-/
namespace Sys2Proof.Machine

/-! ## Elements and places (R199) -/

/-- The elements of tile `t` of a descriptor: channels vary fastest, then columns, then rows. -/
def tileElems (P : Plan) (d lo hi t : Nat) : List (Nat × Nat × Nat) :=
  let sp := tileSpan P d lo hi
  let z := tileSize P d
  let nk := max 1 (ceilDiv sp.2.2.2 z.2.2)
  let nc := max 1 (ceilDiv sp.2.2.1 z.2.1)
  let k0 := t % nk * z.2.2
  let c0 := t / nk % nc * z.2.1
  let r0 := t / nk / nc * z.1
  (List.range (min z.1 (sp.2.1 - r0))).flatMap (fun r => (List.range (min z.2.1 (sp.2.2.1 - c0))).flatMap (fun c =>
    (List.range (min z.2.2 (sp.2.2.2 - k0))).map (fun k => (sp.1 + r0 + r, c0 + c, k0 + k))))

/-- Every element that a descriptor writes in its step. -/
def allElems (P : Plan) (d lo hi : Nat) : List (Nat × Nat × Nat) :=
  let sp := tileSpan P d lo hi
  (List.range sp.2.1).flatMap (fun r => (List.range sp.2.2.1).flatMap (fun c => (List.range sp.2.2.2).map (fun k => (sp.1 + r, c, k))))

/-- The elements of a unit; CROP_RESIZE leaves the rows beyond the list's count (R218). -/
def State.unitElems (s : State) (e : Env) (d : Nat) (x : DescRun) (u : Nat) : List (Nat × Nat × Nat) :=
  let l := if tiled d then tileElems e.plan d x.rowLo x.rowHi (u / max 1 x.parts) else allElems e.plan d x.rowLo x.rowHi
  if dOp d = 7 then
    let n := s.listCount e (e.plan.tensor (dIn1 d)) * max 1 (dByte d 0x30 * dByte d 0x31)
    l.filter (fun y => y.1 < n)
  else l

/-- The position at which a unit runs. -/
def State.unitPos (s : State) (e : Env) (d : Nat) (x : DescRun) (u : Nat) : Nat :=
  let out := e.plan.tensor (dOut d)
  let n := max 1 e.n
  if 1 < x.parts then u % x.parts
  else if !tiled d then 0
  else if out.space = 1 && out.split != 0 then
    match s.unitElems e d x u with
    | [] => u % n
    | y :: _ => (out.place e.n y.1 y.2.1 y.2.2).1
  else u % n

/-- The rows of a feature map that CROP_RESIZE may read in its step (R218). -/
def Env.cropRows (e : Env) (runs : List DescRun) (d : Nat) : CropRows :=
  let t := e.plan.tensor (dIn0 d)
  if t.window then
    let r := e.plan.rowsOf e.win e.lines runs (dIn0 d)
    { lo := r.2 - t.winRows, hi := r.2, first := r.1 }
  else { lo := 0, hi := t.H, first := 0 }

/-! ## Dependencies (R198) -/

/-- Every row of a tensor. -/
def Plan.allRows (P : Plan) (off : Nat) : List (Nat × Nat) :=
  if off = 0 then []
  else
    let t := P.tensor off
    ((List.range (if t.layout = layMAT then t.H * t.W else if t.layout = laySC32 then t.H else 1)).map (fun h => P.depRow off h)).eraseDups

/-- The row of an element that a tap reads. -/
def Plan.tapRow (P : Plan) : Tap → List (Nat × Nat)
  | .elem t h _ _ => [P.depRow t.off h]
  | .const _ => []

/-- Rows of tensors that a unit reads. -/
def State.unitReads (s : State) (e : Env) (runs : List DescRun) (d : Nat) (x : DescRun) (u : Nat) : List (Nat × Nat) :=
  let P := e.plan
  match dOp d with
  | 0x0F => (List.range (x.rowHi - x.rowLo)).map (fun i => P.depRow (dIn0 d) (x.rowLo + i))
  | 0x10 => P.allRows (dIn0 d) ++ P.allRows (dIn1 d) ++ P.allRows (dIn2 d)
  | 0x11 => P.allRows (dIn0 d) ++ P.allRows (dIn2 d)
  | 0x12 => P.allRows (dIn0 d) ++ P.allRows (dIn1 d)
  | 0x28 => P.allRows (dIn0 d)
  | 0x29 => []
  | 0x25 => (((s.unitElems e d x u).map (fun y => y.1)).eraseDups).flatMap (fun h =>
      ([dIn0 d, dIn1 d, dIn2 d, dAux d].filter (fun o => o != 0)).map (fun o => P.depRow o h))
  | op =>
    let rows := e.cropRows runs d
    (((s.unitElems e d x u).flatMap (fun y => (elemOf s e d rows y.1 y.2.1 y.2.2).taps.flatMap P.tapRow)) ++
      (if op = 7 then P.allRows (dIn1 d) else [])).eraseDups

/-- Rows of tensors that a unit writes. -/
def State.unitWrites (s : State) (e : Env) (d : Nat) (x : DescRun) (u : Nat) : List (Nat × Nat) :=
  let P := e.plan
  let rows := ((s.unitElems e d x u).map (fun y => y.1)).eraseDups
  match dOp d with
  | 0x0F => P.allRows (dOut d) ++ P.allRows (dAux d)
  | 0x10 | 0x12 => []
  | 0x11 | 0x29 => P.allRows (dOut d)
  | 0x28 =>
    let Ho := dField d 0x38 31 16
    (List.range Ho).map (fun i => P.depRow (dOut d) (u * Ho + i)) ++ (if dAux d = 0 then [] else [P.depRow (dAux d) u])
  | 0x24 => rows.flatMap (fun h => [P.depRow (dOut d) h] ++ (P.tapRow (vecTap (P.tensor (dIn2 d)) h)))
  | 0x25 => rows.flatMap (fun h => ([dOut d, dIn1 d, dIn2 d, dAux d].filter (fun o => o != 0)).map (fun o => P.depRow o h))
  | _ => (rows.map (fun h => P.depRow (dOut d) h)).eraseDups

/-- Do two sets of rows meet? -/
def rowsMeet (a b : List (Nat × Nat)) : Bool := a.any (fun x => b.contains x)

/-- Must a unit wait for a unit of an earlier descriptor of its step (R198)? -/
def State.blocked (s : State) (e : Env) (r : StepRun) (idx u : Nat) : Bool :=
  match r.descs.find? (fun x => x.idx == idx) with
  | none => true
  | some x =>
    let early := (r.descs.takeWhile (fun y => y.idx != idx)).filter (fun y => !y.complete)
    if early.isEmpty then false
    else
      let d := e.plan.descs.getD idx 0
      let rd := s.unitReads e r.descs d x u
      let wr := s.unitWrites e d x u
      early.any (fun y =>
        let dy := e.plan.descs.getD y.idx 0
        ((List.range y.units).filter (fun v => !y.done.contains v)).any (fun v =>
          rowsMeet (s.unitWrites e dy y v) (rd ++ wr) || rowsMeet (s.unitReads e r.descs dy y v) wr))

/-- Has every earlier descriptor been assigned whole, and completed where a barrier asks it (R197)? -/
def StepRun.inTurn (r : StepRun) (P : Plan) (idx : Nat) : Bool :=
  let early := r.descs.takeWhile (fun y => y.idx != idx)
  early.all (fun y => y.assigned == y.units && (!dBarrier (P.descs.getD idx 0) || y.complete))

/-! ## Values -/

/-- Accumulators of each element from part `i` of its reduction sequence. -/
def State.partAccs (s : State) (e : Env) (d : Nat) (rows : CropRows) (n i : Nat) (l : List (Nat × Nat × Nat)) : List (List Int) :=
  l.map (fun y => let el := elemOf s e d rows y.1 y.2.1 y.2.2; el.accum s e (cutPart el.red n i))

/-- Partials of positions combined section by section (R177): position and accumulators, positions ascending. -/
def sectionSum (sect : Nat → Nat) (int : Bool) (l : List (Nat × List Int)) : List Int :=
  let secs := (l.map (fun x => sect x.1)).eraseDups
  let sum (l : List (List Int)) : List Int := (l.drop 1).foldl (addAcc int) (l.headD [])
  sum (secs.map (fun j => sum ((l.filter (fun x => sect x.1 == j)).map (fun x => x.2))))

/-- The accumulators of every element of a tile from its partials: by sections, or in order of completion (R168, R177). -/
def State.combine (s : State) (e : Env) (d : Nat) (rows : CropRows) (relaxed : Bool) (l : List (Nat × Nat × Nat))
    (parts : List (Nat × List (List Int))) : List (List Int) :=
  l.zipIdx.map (fun y =>
    let int := (elemOf s e d rows y.1.1 y.1.2.1 y.1.2.2).int
    let mine := parts.map (fun x => (x.1, x.2.getD y.2 []))
    if relaxed then (mine.drop 1).foldl (fun a x => addAcc int a x.2) ((mine.map (fun x => x.2)).headD [])
    else
      let n := parts.length
      sectionSum (fun i => s.posPhys e.part i / 9) int ((List.range n).filterMap (fun i => mine.find? (fun x => x.1 == i))))

/-- The codes of elements from their accumulators, with magnitude and saturation. -/
def State.finish (s : State) (e : Env) (d : Nat) (rows : CropRows) (l : List (Nat × Nat × Nat)) (accs : List (List Int)) :
    List (Cell × Nat × Bool) :=
  let out := e.plan.tensor (dOut d)
  (l.zip accs).map (fun y =>
    let el := elemOf s e d rows y.1.1 y.1.2.1 y.1.2.2
    let r := convertRes e out y.1.1 y.1.2.1 y.1.2.2 (el.fin y.2 (el.extra.map (s.tap e)))
    ((y.1, r.1), r.2))

/-- What the output converter tracks, and the codes for a digest (R254, R472). -/
def DescRun.track (x : DescRun) (d : Nat) (l : List (Cell × Nat × Bool)) : DescRun :=
  { x with
    amax := l.foldl (fun m y => max m y.2.1) x.amax, sat := x.sat + (l.filter (fun y => y.2.2)).length
    written := x.written + l.length, codes := if dDigest d then x.codes ++ l.map (fun y => y.1) else x.codes }

/-- XENT writes the probability at the label with the tile of the first column (R459). -/
def State.xentRows (s : State) (e : Env) (d : Nat) (l : List (Nat × Nat × Nat)) : State :=
  let t := e.plan.tensor (dIn2 d)
  let probs := (l.filter (fun y => y.2.1 == 0)).map (fun y => (y.1, xentProb s e d y.1))
  s.putTile e t (probs.filterMap (fun y => match vecTap t y.1 with
    | .elem _ h w c => some ((h, w, c), y.2)
    | .const _ => none))

/-- OPT_STEP on elements (R460): the state tensors are updated in place, and the working weights converted. -/
def State.optUnit (s : State) (e : Env) (d : Nat) (l : List (Nat × Nat × Nat)) : State × List (Cell × Nat × Bool) :=
  let P := e.plan
  let rd (off : Nat) (y : Nat × Nat × Nat) : Nat :=
    if off = 0 then 0
    else
      let t := P.tensor off
      e.value t y.1 y.2.1 y.2.2 (s.code? e t y.1 y.2.1 y.2.2)
  let new := l.map (fun y => (y, optStep d e.step (rd (dIn0 d) y) (rd (dIn1 d) y) (rd (dIn2 d) y) (rd (dAux d) y)))
  let out := P.tensor (dOut d)
  let res := new.map (fun y =>
    let r := convertRes e out y.1.1 y.1.2.1 y.1.2.2 (.y y.2.1)
    ((y.1, r.1), r.2))
  let s := s.putTile e (P.tensor (dIn1 d)) (new.map (fun y => (y.1, y.2.1)))
  let s := if dVariant d = 0 then s else s.putTile e (P.tensor (dIn2 d)) (new.map (fun y => (y.1, y.2.2.1)))
  let s := if dVariant d = 2 then s.putTile e (P.tensor (dAux d)) (new.map (fun y => (y.1, y.2.2.2))) else s
  (s.putTile e out (res.map (fun y => y.1)), res)

/-- CROP_RESIZE sets CLAMP in the entries of boxes for which it replaced a row (R218, R228). -/
def State.cropFlags (s : State) (e : Env) (d : Nat) (rows : CropRows) (l : List (Nat × Nat × Nat)) : State :=
  let t := e.plan.tensor (dIn0 d)
  let b := e.plan.tensor (dIn1 d)
  let n := max 1 (dByte d 0x30 * dByte d 0x31)
  let hit := l.filter (fun y =>
    (cropRows rows (cropPoint d (s.listEntry e b (y.1 / n)) (y.1 % n)).1 (if t.window then none else some t.H)).2)
  s.forEach ((hit.map (fun y => y.1 / n)).eraseDups) (fun s j =>
    let off := 32 + j * b.C + 3
    let s := s.tensorBytes e b 0 off [putBit ((s.listBytes e b off 1).headD 0) 0 true]
    if b.space = 0 then s.jobLines e (e.base s + b.addr + off) 1 else s)

/-- The 16 bytes of a verdict entry (R365). -/
def verdictBytes (id gen cls : Nat) (final : Bool) (digest : Nat) : List Nat :=
  leBytes 4 (id + gen * 2 ^ 12 + cls * 2 ^ 20 + b2n final * 2 ^ 24) ++ [0, 0, 0, 0] ++ leBytes 8 digest

/-- A verdict of a local descriptor reaches TRK: it waits there, or is sent to the linked device (R365). -/
def State.giveVerdict (s : State) (v : VerdictMsg) : State :=
  if s.isOn .TRK_PEER_send_en then
    s.peerSend (s.get .TRK_PEER_send_group) 2 (v.id + v.gen * 2 ^ 12) (verdictBytes v.id v.gen v.cls v.final v.digest)
  else s.modTrk (fun x => { x with verdicts := x.verdicts ++ [v] })

/-- VERDICT (R225): the verdicts go to TRK in list order. -/
def State.verdicts (s : State) (e : Env) (d : Nat) : State × List Nat :=
  let t := e.plan.tensor (dIn0 d)
  let b := e.plan.tensor (dIn1 d)
  let final := bit (dVariant d) 0
  let l := (List.range (min (s.listCount e b) (t.H * t.W))).map (fun j =>
    let box := s.listEntry e b j
    let taps := rowTaps t j 0
    let codes := taps.map (s.tap e)
    ({ id := leAt box 0 4 % 2 ^ 12, gen := bits (leAt box 0 4) 19 12, cls := argmax ((taps.zip codes).map (fun x => tapValue e x.1 x.2))
       final := final, digest := crc64 (codes.flatMap (leBytes t.e)) } : VerdictMsg))
  (s.forEach l State.giveVerdict, l.flatMap (fun v => verdictBytes 0 0 v.cls v.final v.digest))

/-- The work of one unit of a descriptor that the array or Fawn runs: its results are written (R165). -/
def State.runUnit (s : State) (j : Job) (r : StepRun) (e : Env) (x : DescRun) (u : Nat) : State × DescRun :=
  let d := e.plan.descs.getD x.idx 0
  let x := { x with done := x.done ++ [u] }
  match dOp d with
  | 0x0F =>
    let no := (r.ready.map (fun y => y.no)).getD 0
    let q := s.partFind e x.idx d x.rowLo x.rowHi no r.replay
    (q.1.setWin j.part j.slot q.2.1, { x with extra := q.2.2 })
  | 0x12 =>
    let q := s.verdicts e d
    (q.1, { x with extra := q.2 })
  | 0x25 =>
    let q := s.optUnit e d (s.unitElems e d x u)
    (q.1, x.track d q.2)
  | op =>
    let rows := e.cropRows r.descs d
    let l := s.unitElems e d x u
    let n := max 1 x.parts
    let mine := s.partAccs e d rows n (if n = 1 then 0 else u % n) l
    let held := x.partials ++ [(u, mine)]
    let tile := (held.filter (fun y => y.1 / n == u / n)).map (fun y => (y.1 % n, y.2))
    if tile.length < n then (s, { x with partials := held })
    else
      let cells := s.finish e d rows l (if n = 1 then mine else s.combine e d rows j.relaxed l tile)
      let s := if op = 0x24 then s.xentRows e d l else s
      let s := s.putTile e (e.plan.tensor (dOut d)) (cells.map (fun y => y.1))
      let s := if op = 7 then s.cropFlags e d rows l else s
      (s, { x with partials := held.filter (fun y => y.1 / n != u / n) }.track d cells)

/-- Every element of a MAT tensor. -/
def allTaps (P : Plan) (off : Nat) : List Tap :=
  let t := P.tensor off
  (List.range (t.H * t.W)).flatMap (fun h => rowTaps t h 0)

/-- The taps of a unit. -/
def State.unitTaps (s : State) (e : Env) (runs : List DescRun) (d : Nat) (x : DescRun) (u : Nat) : List Tap :=
  match dOp d with
  | 0x0F => (List.range (x.rowHi - x.rowLo)).flatMap (fun i =>
      (List.range (e.plan.tensor (dIn0 d)).W).map (fun w => Tap.elem (e.plan.tensor (dIn0 d)) (x.rowLo + i) w 0))
  | 0x12 => (List.range ((e.plan.tensor (dIn0 d)).H * (e.plan.tensor (dIn0 d)).W)).flatMap (fun h => rowTaps (e.plan.tensor (dIn0 d)) h 0)
  | 0x10 => allTaps e.plan (dIn0 d) ++ allTaps e.plan (dIn1 d)
  | 0x11 => allTaps e.plan (dIn0 d)
  | 0x25 => (s.unitElems e d x u).flatMap (fun y =>
      ([dIn0 d, dIn1 d, dIn2 d, dAux d].filter (fun o => o != 0)).map (fun o => Tap.elem (e.plan.tensor o) y.1 y.2.1 y.2.2))
  | _ =>
    let rows := e.cropRows runs d
    let n := max 1 x.parts
    (s.unitElems e d x u).flatMap (fun y =>
      let el := elemOf s e d rows y.1 y.2.1 y.2.2
      if n = 1 then el.taps else (cutPart el.red n (u % n)).flatMap (fun z => z.taps) ++ el.extra)

/-- The LIST that a unit reads in HBM: address and length. -/
def State.unitList (s : State) (e : Env) (d : Nat) : List (Nat × Nat) :=
  let off := match dOp d with
    | 7 | 0x12 => dIn1 d
    | 0x10 | 0x11 => dIn2 d
    | 0x28 => dIn0 d
    | _ => 0
  let t := e.plan.tensor off
  if off != 0 && t.space = 0 then [(e.base s + t.addr, 32 + min t.H (s.listCount e t) * t.C)] else []

/-- Consume what a unit reads (R310, R313): the state after the events, and whether its job is aborted. -/
def State.unitBad (s : State) (e : Env) (runs : List DescRun) (d : Nat) (x : DescRun) (u : Nat) : State × Bool :=
  let taps := s.unitTaps e runs d x u
  let keys := ((taps.flatMap (s.tapRuns e) ++ s.unitList e d).flatMap (fun r => s.badKeys r.1 r.2)).eraseDups
  let codec := taps.any (s.tapBadCodec e)
  let s := s.forEach keys (fun s k => s.ueFound k false)
  let s := if codec then (s.count .MEM_CNT_CODEC_BAD e.part 0 1).raise ⟨.memPart, e.part⟩ 1 else s
  (s, !keys.isEmpty || codec)

/-! ## The class of a descriptor and its phase (R517 to R519) -/

/-- The class of a descriptor. -/
def descClass (P : Plan) (d : Nat) : Nat :=
  match dOp d with
  | 0x01 | 0x02 =>
    let a := P.tensor (dIn0 d)
    if (P.tensor (dIn1 d)).layout = layLUT then 2 else if a.fmt ≤ 1 then 1 else if a.fmt ≤ 3 then 3 else 4
  | 0x03 | 0x04 | 0x05 | 0x06 | 0x07 | 0x08 | 0x0B | 0x0C | 0x0D | 0x0E => 5
  | 0x20 | 0x21 | 0x22 | 0x23 | 0x24 | 0x25 => 6
  | _ => 7

/-- The phase that a partition runs next: that of its first descriptor with a unit to assign. -/
def State.phaseOf (s : State) (p : Nat) : Option Phase :=
  match s.current p with
  | none => none
  | some (j, P, r) => (r.descs.find? (fun x => x.assigned < x.units)).map (fun x => (p, j.slot, descClass P (P.descs.getD x.idx 0)))

/-! ## The completion of a descriptor -/

/-- Codes by row, column and channel, in that order. -/
def sortCodes (l : List Cell) : List Cell :=
  let hs := (l.map (fun x => x.1.1)).eraseDups
  let asc (k : List Nat) : List Nat := k.foldl (fun a x => a.takeWhile (· < x) ++ [x] ++ a.dropWhile (· < x)) []
  (asc hs).flatMap (fun h =>
    let row := l.filter (fun x => x.1.1 == h)
    (asc ((row.map (fun x => x.1.2.1)).eraseDups)).flatMap (fun w =>
      let px := row.filter (fun x => x.1.2.1 == w)
      (asc (px.map (fun x => x.1.2.2))).flatMap (fun c => px.filter (fun x => x.1.2.2 == c))))

/-- The bytes that a descriptor's digest covers (R472). -/
def DescRun.digestBytes (x : DescRun) (e : Env) (d : Nat) : List Nat :=
  let out := e.plan.tensor (dOut d)
  let body := match dOp d with
    | 0x0F | 0x10 | 0x12 | 0x29 => x.extra
    | _ => (sortCodes x.codes).flatMap (fun y => leBytes out.e y.2)
  if dOut d != 0 && out.dyn then body ++ leBytes 4 ((e.outScale out 0).getD 0) else body

/-- The last unit of a descriptor has completed (R173, R197, R426, R473, R518). -/
def State.descDone (s : State) (n idx : Nat) : State :=
  match s.job n with
  | none => s
  | some j =>
    match s.planOf j, j.run with
    | some P, some r =>
      match r.descs.find? (fun x => x.idx == idx) with
      | none => s
      | some x =>
        let d := P.descs.getD idx 0
        let p := j.part
        let e := s.envOf j P r idx
        let bytes := x.digestBytes e d
        let s := (s.modDesc n idx (fun x => { x with complete := true, codes := [], partials := [] })).pmc 0x14 0 1 (some p)
        let s := if x.units != 0 then s.learn (p, j.slot, descClass P d) else s
        let s := if dDigest d && dOp d != 0 && dOp d != 9 && dOp d != 10 then s.digestEntry p j idx bytes else s
        let s := match r.ready with
          | none => s
          | some y => match (s.job n).bind (fun j => j.run) with
            | none => s
            | some r => s.release p j.slot P (s.win p j.slot y.ctx) (nextRow (s.win p j.slot y.ctx) r.descs) false
        let sc := s.sch p
        if dNonPreempt d && sc.ending && sc.running == some n then
          (s.modJob n (fun j => { j with debt := j.debt + (s.nowNs - sc.sliceEnd) })).count .CMD_CNT_OVERRUN p 0 1
        else s
    | _, _ => s

/-- Descriptors without units complete in their turn, and a step whose descriptors have all completed ends. -/
def State.advance (s : State) (n : Nat) : State :=
  match (s.job n).bind (fun j => j.run) with
  | none => s
  | some r =>
    let s := s.forEach r.descs (fun s x =>
      match s.job n with
      | none => s
      | some j => match s.planOf j, j.run with
        | some P, some r => if x.units = 0 && !x.complete && r.inTurn P x.idx then s.descDone n x.idx else s
        | _, _ => s)
    match (s.job n).bind (fun j => j.run) with
    | none => s
    | some r => if r.descs.all (fun x => x.complete) then s.endStep n else s

/-- Is a non-preemptible descriptor with its first unit assigned unfinished (R426)? -/
def StepRun.holdsOn (r : StepRun) (P : Plan) : Bool :=
  r.descs.any (fun x => dNonPreempt (P.descs.getD x.idx 0) && 0 < x.assigned && !x.complete)

/-- A job whose slice is over gives up its clusters when nothing of it is left on them (R425 to R427). -/
def State.drain (s : State) (p : Nat) : State :=
  let sc := s.sch p
  match sc.running with
  | none => s
  | some n =>
    if !sc.ending then s
    else
      let busy := match s.current p with
        | none => false
        | some (_, P, r) => !r.tiles.isEmpty || r.holdsOn P
      if busy || s.fwn.any (fun x => x.job == n) || s.attn.any (fun x => x.job == n) then s
      else (s.modJob n (fun j => if j.state == .running then { j with state := .ready } else j)).leaveClusters p n

/-- A unit of a descriptor has completed: the descriptor, the step and the slice follow. -/
def State.unitDone (s : State) (p n : Nat) (x : DescRun) : State :=
  let s := s.modDesc n x.idx (fun _ => x)
  let s := if x.done.length = x.units then s.descDone n x.idx else s
  (s.advance n).drain p

/-! ## Scale registers (R242, R243) -/

/-- The scale register ranges that a descriptor names: first register, count, header. -/
def sregsOf (P : Plan) (d : Nat) : List (Nat × Nat × Nat) :=
  ((((dTensors d).eraseDups).map P.tensor).filter (fun t => t.scaleMode == 2)).map (fun t => (t.sreg, t.channels, t.off))

/-- Does every register of a range hold a tensor's table? -/
def holdsRange (l : List (Nat × Nat × Nat)) (x : Nat × Nat × Nat) : Bool :=
  (List.range x.2.1).all (fun i =>
    match l.find? (fun y => y.1 ≤ x.1 + i && x.1 + i < y.1 + y.2.1) with
    | some y => y.2.2 == x.2.2
    | none => false)

/-- Do two ranges overlap? -/
def rangesMeet (a b : Nat × Nat × Nat) : Bool := a.1 < b.1 + b.2.1 && b.1 < a.1 + a.2.1

/-- The ranges held after a load. -/
def loadRange (l : List (Nat × Nat × Nat)) (x : Nat × Nat × Nat) : List (Nat × Nat × Nat) :=
  x :: l.filter (fun y => !(x.1 ≤ y.1 && y.1 + y.2.1 ≤ x.1 + x.2.1))

/-- Load the scale registers for a descriptor; `none` while an earlier descriptor that uses an overlapping range is unfinished. -/
def State.loadScales (s : State) (j : Job) (P : Plan) (r : StepRun) (idx : Nat) : Option State :=
  let need := (sregsOf P (P.descs.getD idx 0)).filter (fun x => !holdsRange j.loaded x)
  let early := (r.descs.takeWhile (fun y => y.idx != idx)).filter (fun y => !y.complete)
  if need.any (fun x => early.any (fun y => (sregsOf P (P.descs.getD y.idx 0)).any (rangesMeet x))) then none
  else some (s.modJob j.no (fun j => { j with loaded := need.foldl loadRange j.loaded }))

/-! ## Tiles (R165 to R167) -/

/-- Does a partition work at all: it exists and none of its clusters is retired (R189)? -/
def State.partWorks (s : State) (p : Nat) : Bool :=
  s.partExists p && !(s.partList p).any (fun k => s.cluRetired ((s.physOf k).getD 0))

/-- The tiles in flight on a partition's clusters. -/
def State.tilesOf (s : State) (p : Nat) : List TileRun :=
  match s.current p with
  | some (_, _, r) => r.tiles
  | none => []

/-- Outstanding HBM reads of the whole device. -/
def State.readsOut (s : State) : Nat :=
  ((List.range 8).flatMap s.tilesOf).foldl (fun n t => n + t.reads.length) 0

/-- The pseudo-channel that serves a line. -/
def State.linePc (s : State) (l : Nat × Nat) : Option Nat := (s.keyOf l.1).map (fun k => k / 2 ^ 30)

/-- Reads that a pseudo-channel queues (R291). -/
def State.pcQueued (s : State) (pc : Nat) : Nat :=
  ((List.range 8).flatMap s.tilesOf).foldl (fun n t => n + (t.reads.filter (fun l => s.linePc l == some pc)).length) 0

/-- Of some reads, in order, how many find room in their pseudo-channels' queues of 256 before one does not (R291). -/
def State.roomFor (s : State) (l : List (Nat × Nat)) : Nat :=
  ((List.range l.length).find? (fun i => match s.linePc (l.getD i (0, 0)) with
    | some pc => 256 ≤ s.pcQueued pc + ((l.take i).filter (fun x => s.linePc x == some pc)).length
    | none => false)).getD l.length

/-- Issue the reads of a tile that the limits allow (R166, R291), none while the partition's memory page is quiesced (R47). -/
def State.issueReads (s : State) (p n seq : Nat) : State :=
  match (s.tilesOf p).find? (fun t => t.seq == seq) with
  | none => s
  | some t =>
    let clu := ((s.tilesOf p).filter (fun x => x.pos == t.pos)).foldl (fun n x => n + x.reads.length) 0
    let k := if s.isOn (.CTRL_quiesce .memPart) p then 0 else min (min (4 - t.reads.length) (512 - clu)) (16384 - s.readsOut)
    let k := s.roomFor (t.left.take k)
    let go := t.left.take k
    let phys := s.posPhys p t.pos
    let s := s.forEach go (fun s l => (s.jobLine p false l).pmcClu phys 0x20 1)
    s.modRun n (fun r => { r with tiles := r.tiles.map (fun x =>
      if x.seq == seq then { x with reads := x.reads ++ go, left := x.left.drop k } else x) })

/-- May a slice that is over still assign units of this descriptor (R426)? -/
def State.mayAssign (s : State) (p : Nat) (d : Nat) (x : DescRun) : Bool :=
  !(s.sch p).ending || (dNonPreempt d && 0 < x.assigned)

/-- The units that this row assigns to tile threads: not Fawn's, ATN's or DEC's. -/
def onArray (d : Nat) : Bool :=
  !dFawn d && !(dOp d == 0x10 || dOp d == 0x11 || dOp d == 0x28 || dOp d == 0x29)

/-- Before a descriptor's first unit: scale registers, operating point, the time of its start (R242, R428, R519). -/
def State.firstUnit (s : State) (j : Job) (P : Plan) (r : StepRun) (x : DescRun) : Option State :=
  if 0 < x.assigned then some s
  else (s.loadScales j P r x.idx).map (fun s =>
    let s := if s.isOn .MGT_MODE_freq_mode then s else s.clockChoice s.phaseOf
    s.modDesc j.no x.idx (fun x => { x with first := some s.tick }))

/-- The next unit of the job on a partition's clusters goes to a tile thread (R165 to R167, R197, R199). -/
def State.assignTile (s : State) (p : Nat) : State :=
  if !s.partWorks p then s
  else
    let s := match (s.sch p).running with
      | some n => if (s.sch p).ending then s else (s.beginStep n).advance n
      | none => s
    match s.current p with
    | none => s
    | some (j, P, r) =>
      match r.descs.find? (fun x => x.assigned < x.units) with
      | none => s
      | some x =>
        let d := P.descs.getD x.idx 0
        let e := s.envOf j P r x.idx
        let pos := s.unitPos e d x x.assigned
        let here := (r.tiles.filter (fun t => t.pos == pos)).length
        if !onArray d || !s.mayAssign p d x || !r.inTurn P x.idx || 256 ≤ here then s
        else match s.firstUnit j P r x with
          | none => s
          | some s =>
            let n := j.no
            let lines := s.tapLines e (s.unitTaps e r.descs d x x.assigned) ++ (s.unitList e d).flatMap (fun l => runLines l.1 l.2)
            let phys := s.posPhys p pos
            let s := s.modRun n (fun r => { r with
              seq := r.seq + 1, tiles := r.tiles ++ [{ seq := r.seq, desc := x.idx, unit := x.assigned, pos := pos, reads := [], left := lines }] })
            let s := s.modDesc n x.idx (fun x => { x with assigned := x.assigned + 1 })
            let s := s.set .CLU_THREADS_peak phys 0 (max (s.get .CLU_THREADS_peak phys) (here + 1))
            s.issueReads p n r.seq

/-- Reads that waited for a limit are issued, partition by partition (R166, R291). -/
def State.issueWaiting (s : State) : State :=
  s.forEach (List.range 8) (fun s p => match (s.sch p).running with
    | some n => s.forEach (((s.tilesOf p).filter (fun t => !t.left.isEmpty)).map (fun t => t.seq)) (fun s q => s.issueReads p n q)
    | none => s)

/-- The oldest outstanding read of a tile returns, and reads that waited for a limit are issued (R165, R166, R291). -/
def State.readReturns (s : State) (p seq : Nat) : State :=
  match (s.sch p).running with
  | none => s
  | some n =>
    (s.modRun n (fun r => { r with tiles := r.tiles.map (fun x =>
      if x.seq == seq then { x with reads := x.reads.drop 1 } else x) })).issueWaiting

/-- The tile that may complete: in RUN, with nothing to wait for (R165, R198). -/
def State.tileToEnd (s : State) (p seq : Nat) : Option (Job × Plan × StepRun × TileRun × DescRun) :=
  match s.current p with
  | none => none
  | some (j, P, r) =>
    match r.tiles.find? (fun t => t.seq == seq) with
    | none => none
    | some t =>
      match r.descs.find? (fun x => x.idx == t.desc) with
      | none => none
      | some x =>
        if t.reads.isEmpty && t.left.isEmpty && !s.blocked (s.envOf j P r t.desc) r t.desc t.unit then some (j, P, r, t, x) else none

/-- A tile's results are written and its thread is FREE (R165). -/
def State.endTile (s : State) (p : Nat) (j : Job) (P : Plan) (r : StepRun) (t : TileRun) (x : DescRun) : State :=
  let n := j.no
  let phys := s.posPhys p t.pos
  let s := s.modRun n (fun r => { r with tiles := r.tiles.filter (fun y => y.seq != t.seq) })
  let s := s.modSched p (fun c => { c with lastTile := s.tick + 1 })
  let s := ((s.count .CLU_TILES_DONE phys 0 1).pmc 0x10 ((s.logicalOf phys).getD 0) 1 (some p)).pmcClu phys 0x10 1
  let q := s.runUnit j r { s.envOf j P r t.desc with clu := some phys } x t.unit
  q.1.unitDone p n q.2

/-! ## Fawn (R179 to R181) -/

/-- The descriptors of the next Fawn pass of a step: the run of Fawn's descriptors, with those without units between them. -/
def passOf (P : Plan) (r : StepRun) : List Nat :=
  let l := r.descs.dropWhile (fun x => x.assigned == x.units)
  let run := l.takeWhile (fun x => x.units == 0 || dFawn (P.descs.getD x.idx 0))
  let cut := match run with
    | [] => []
    | x :: xs => x :: xs.takeWhile (fun y => !dBarrier (P.descs.getD y.idx 0))
  (cut.filter (fun x => x.units != 0)).map (fun x => x.idx)

/-- A pass takes its place: passes of the Fawn partition before those of the BE partition, each in order of readiness (R181). -/
def State.queuePass (s : State) (x : FwnPass) : State :=
  if x.be then { s with fwn := s.fwn ++ [x] }
  else
    let s := match s.fwn with
      | y :: ys => if y.be then { s.count .FWN_SUSPENDS 0 0 1 with fwn := { y with suspended := true } :: ys } else s
      | [] => s
    { s with fwn := s.fwn.filter (fun y => !y.be) ++ [x] ++ s.fwn.filter (fun y => y.be) }

/-- A Fawn pass of the job on a partition's clusters becomes ready (R181). -/
def State.fawnReady (s : State) (p : Nat) : State :=
  if !s.partWorks p then s
  else
    let s := match (s.sch p).running with
      | some n => if (s.sch p).ending then s else (s.beginStep n).advance n
      | none => s
    match s.current p with
    | none => s
    | some (j, P, r) =>
      let l := passOf P r
      match l with
      | [] => s
      | i :: _ =>
        let waits := l.any (fun k => s.blocked (s.envOf j P r k) { r with descs := r.descs.filter (fun x => !l.contains x.idx || x.idx == k) } k 0)
        if (s.sch p).ending || 8 ≤ s.fwn.length || !r.inTurn P i || waits then s
        else
          let s := s.forEach l (fun s k => match s.job j.no with
            | none => s
            | some j => match j.run.bind (fun r => r.descs.find? (fun x => x.idx == k)) with
              | none => s
              | some x => ((s.firstUnit j P r x).getD s).modDesc j.no k (fun x => { x with assigned := 1 }))
          s.queuePass { part := p, job := j.no, descs := l, be := s.partIsBe p }

/-- The results of one descriptor of a Fawn pass are written; `bad` when it consumed an uncorrectable word. -/
def State.fawnDesc (s : State) (n idx : Nat) : State × Bool :=
  match s.job n with
  | none => (s, false)
  | some j =>
    match s.planOf j, j.run with
    | some P, some r =>
      match r.descs.find? (fun x => x.idx == idx) with
      | none => (s, false)
      | some x =>
        let e := s.envOf j P r idx
        let b := s.unitBad e r.descs (P.descs.getD idx 0) x 0
        if b.2 then b
        else
          let q := b.1.runUnit j r e x 0
          (q.1.unitDone j.part n q.2, false)
    | _, _ => (s, false)

end Sys2Proof.Machine
end

