-- ==== Sys2Proof/Machine/Jobs.lean ====
section
/-!
DEFINITION. Machine/Jobs.lean: aborts and restarts (R428, R431), the scheduler, slices and switches (R424 to R427), submission entries
(R418 to R421), plan loads and unloads (R184 to R187, R414, R415), and the configuration of partitions (R410, R411).
-/
namespace Sys2Proof.Machine

/-! ## Aborts (R188, R189, R353, R361, R431) -/

/-- An ATTN descriptor lets go of its tables and of the local pages that took replies (R266, R284). -/
def State.attnDrop (s : State) (x : AttnRun) : State :=
  let s := s.forEach (x.boxes.filterMap (fun b => b.table)) (fun s id => s.modTable id (fun t => { t with readers := t.readers - 1 }))
  let s := s.forEach x.reqs (fun s q => match q.dest with
    | some l => s.freeLocal q.pool l
    | none => s)
  { s with attn := s.attn.erase x }

/-- The part finder descriptors of an aborted step that were running: their identifiers return (R353). -/
def State.findersAborted (s : State) (j : Job) : State :=
  match s.planOf j, j.run with
  | some P, some r =>
    s.forEach (r.descs.filter (fun x => dOp (P.descs.getD x.idx 0) == 0x0F && 0 < x.assigned && !x.complete)) (fun s x =>
      s.findAbort (s.envOf j P r x.idx) x.idx (P.descs.getD x.idx 0) x.rowLo x.rowHi r.replay)
  | _, _ => s

/-- Abort a job (R431): `status` is its completion's, `idx` the descriptor, `reason` the bit that TRK sets, `again` whether
auto_restart applies. -/
def State.abortJob (s : State) (n status idx reason : Nat) (again : Bool) : State :=
  match s.job n with
  | none => s
  | some j =>
    if j.state == .ended then s
    else
      let p := j.part
      let k := j.slot
      let s := s.findersAborted j
      let s := { s with fwn := s.fwn.filter (fun x => x.job != n), dec := s.dec.filter (fun x => x.job != n) }
      let s := s.forEach (s.attn.filter (fun x => x.job == n)) (fun s x => s.attnDrop x)
      let P := (s.planOf j)
      let s := if j.batch then s else s.trkAbort ((P.map (fun P => onesOf 64 P.ctxs)).getD []) reason
      let s := (s.raise (cmdPage p) 2 (if status = 2 then idx % 2 ^ 16 else 0)).count .CMD_CNT_ABORT p 0 1
      if j.batch then s.endJob n status idx
      else
        let s := s.forEach (s.slotSt p k).wins (fun s w => (s.dropHolding w).setWin p k { w with holding := [] })
        let s := (s.endJob n status idx).set .CMD_PLAN_STATUS_state p k 2
        match P with
        | none => s
        | some P =>
          if again && s.isOn .CMD_PART_CFG_auto_restart 0 p then
            let load := (s.slotSt p k).load
            let st := s.get .CMD_PLAN_STATUS_load p k
            let s := s.activate p k P ((j.step + 1) % 2 ^ 64) (s.get .CMD_PLAN_SEED p k)
            let s := (s.modSlot p k (fun x => { x with load := load })).set .CMD_PLAN_STATUS_load p k st
            (s.raise (cmdPage p) 3).count .CMD_CNT_RESTART p 0 1
          else s

/-- A job consumes an uncorrectable word or a bad line: ABORTED_MEMERR, reason MEMERR (R188, R313). -/
def State.abortMem (s : State) (n idx : Nat) : State := s.abortJob n 3 idx 1 true

/-- Every job of a partition is aborted because a cluster of it retired (R189). -/
def State.abortRetired (s : State) (p : Nat) : State :=
  s.forEach (s.partJobs p) (fun s j => s.abortJob j.no 5 0 4 false)

/-- A cluster is permanent (R189); the events of its page go where its owner now is (R59). -/
def State.cluRetire (s : State) (k : Nat) : State :=
  let part := s.cluPart k
  let s := ((s.rerouted (s.set (.STATUS_retired .clu) k 0 1)).raise ⟨.clu, k⟩ 3).channelRetired 2 k
  match part with
  | some p => s.abortRetired p
  | none => s

/-- An upset of a cluster (R188, R502). -/
def State.cluUpset (s : State) (k : Nat) : State :=
  if s.cluRetired k then s
  else
    let r := s.addUpset 2 k
    if r.2 then r.1.cluRetire k else r.1

/-- A tile ends: it consumes what it read, which may abort its job, or its results are written (R165, R313). -/
def State.completeTile (s : State) (p seq : Nat) : State :=
  match s.tileToEnd p seq with
  | none => s
  | some (j, P, r, t, x) =>
    let b := s.unitBad (s.envOf j P r t.desc) r.descs (P.descs.getD t.desc 0) x t.unit
    if b.2 then b.1.abortMem j.no t.desc else b.1.endTile p j P r t x

/-- The pass that Fawn runs ends: the results of its descriptors are written (R181). -/
def State.fawnDone (s : State) : State :=
  match s.fwn with
  | [] => s
  | x :: xs =>
    let s := { s with fwn := xs }
    let r := x.descs.foldl (fun (a : State × Bool) i => if a.2 then a else
      let b := a.1.fawnDesc x.job i
      if b.2 then (b.1.abortMem x.job i, true) else (b.1, false)) (s, false)
    (r.1.count .FWN_PASSES 0 0 1).drain x.part

/-! ## The scheduler (R424 to R427) -/

/-- A job's slice in nanoseconds (R425). -/
def State.sliceOf (s : State) (j : Job) : Nat := if j.batch then j.slice else s.get .CMD_PLAN_SLICE_US j.part j.slot * 1000

/-- A job takes its partition's clusters; in the BE partition a slice begins, shortened by its debt (R425, R426). -/
def State.beginSlice (s : State) (p n : Nat) : State :=
  match s.job n with
  | none => s
  | some j =>
    let len := s.sliceOf j - j.debt
    let s := s.modJob n (fun j => { j with state := .running, started := true, debt := 0 })
    let s := s.modSched p (fun x => { x with running := some n, sliceEnd := s.nowNs + len, ending := false, switchTo := none, last := some n })
    ((s.beginStep n).advance n).drain p

/-- The next READY job in the rotation (R425). -/
def State.nextInTurn (s : State) (p : Nat) : Option Job :=
  let l := (s.partJobs p).filter (fun j => j.state == .ready)
  let first (l : List Job) : Option Job := l.foldl (fun best j => match best with
    | none => some j
    | some b => if j.order < b.order then some j else some b) none
  match first (l.filter (fun j => (s.sch p).turn < j.order)) with
  | some j => some j
  | none => first l

/-- Give the turn to a job whose debt is less than its slice; the others give theirs up (R426). -/
def State.giveTurn (s : State) (p : Nat) : Nat → State × Option Job
  | 0 => (s, none)
  | fuel + 1 =>
    match s.nextInTurn p with
    | none => (s, none)
    | some j =>
      let s := s.modSched p (fun x => { x with turn := j.order })
      if s.sliceOf j ≤ j.debt then (s.modJob j.no (fun j => { j with debt := j.debt - s.sliceOf j })).giveTurn p fuel
      else (s, some j)

/-- The scheduler of a partition (R417, R424, R425). -/
def State.schedule (s : State) (p : Nat) : State :=
  if !s.partWorks p then s
  else
    let s := s.refreshReady
    match (s.sch p).running with
    | some n => if (s.sch p).ending then s.drain p else (s.beginStep n).advance n
    | none =>
      if (s.sch p).switchTo.isSome then s
      else if !s.partIsBe p then
        match s.streamJob p 0 with
        | some j => if j.state == .ready then s.beginSlice p j.no else s
        | none => s
      else
        let r := s.giveTurn p (4 * (s.partJobs p).length)
        match r.2 with
        | none => r.1
        | some j =>
          let last := (s.sch p).last
          let out := (last.bind s.job).isSome
          if last == some j.no || (!out && !j.started) then r.1.beginSlice p j.no
          else r.1.modSched p (fun x => { x with switchTo := some j.no })

/-- Save a job's SRAM and scale registers in its image (R427): the layout of the image is the device's own. -/
def State.saveJob (s : State) (p n : Nat) : State :=
  match s.job n with
  | none => s
  | some j =>
    match s.planOf j with
    | none => s
    | some P =>
      let npos := (s.partList p).length
      let mem := (List.range npos).map (fun i => s.sramRead (s.posPhys p i) 0 P.need)
      let s := s.modJob n (fun j => { j with saved := mem })
      let len := 32768 + P.need
      let at' (i : Nat) : Nat := s.regionBase p + s.get .CMD_SAVE_BASE p + j.save * s.get .CMD_SAVE_STRIDE p + i * 3104 * 1024
      let s := s.forEach (List.range npos) (fun s i =>
        let img := (List.range len).map (fun q => freeImage (s.draws + q) % 256)
        let s := { s with draws := s.draws + len }
        if s.inRegion p (at' i) len then (s.devWrite (at' i) img).forEach (runLines (at' i) len) (fun s l => s.jobLine p true l) else s)
      s

/-- Restore a job that has run before (R427). -/
def State.restoreJob (s : State) (p n : Nat) : State :=
  match s.job n with
  | none => s
  | some j =>
    if !j.started then s
    else s.forEach j.saved.zipIdx (fun s x =>
      let len := 32768 + x.1.length
      let at' := s.regionBase p + s.get .CMD_SAVE_BASE p + j.save * s.get .CMD_SAVE_STRIDE p + x.2 * 3104 * 1024
      (s.sramWrite (s.posPhys p x.2) 0 x.1).forEach (runLines at' len) (fun s l => s.jobLine p false l))

/-- The switch between two jobs is complete: the incoming job's slice begins (R425, R427). -/
def State.switchDone (s : State) (p : Nat) : State :=
  match (s.sch p).switchTo with
  | none => s
  | some n =>
    let s := match (s.sch p).last with
      | some m => if m == n then s else s.saveJob p m
      | none => s
    ((s.restoreJob p n).pmc 0x16 0 1 (some p)).beginSlice p n

/-- The slice of the running BE job ends (R425, R426). -/
def State.sliceEnds (s : State) (p : Nat) : State :=
  let s := s.refreshReady
  let sc := s.sch p
  match sc.running.bind s.job with
  | none => s
  | some j =>
    if !s.partIsBe p || sc.ending || s.nowNs < sc.sliceEnd then s
    else if (s.partJobs p).any (fun x => x.state == .ready) then (s.modSched p (fun x => { x with ending := true })).drain p
    else
      let len := max 1 (s.sliceOf j)
      (s.modSched p (fun x => { x with sliceEnd := x.sliceEnd + (len - j.debt % len) })).modJob j.no (fun j => { j with debt := 0 })

/-- The non-preemptible descriptor that a partition runs, and the tick of its first unit (R428). -/
def State.watched (s : State) (p : Nat) : Option (Nat × Nat × Nat) :=
  match s.current p with
  | none => none
  | some (j, P, r) =>
    (r.descs.find? (fun x => dNonPreempt (P.descs.getD x.idx 0) && !x.complete && x.first.isSome)).map
      (fun x => (j.no, x.idx, x.first.getD 0))

/-- The watchdog of a partition (R428): 200 µs are 80,000 ticks. -/
def State.watchdogAbort (s : State) (p : Nat) : State :=
  match s.watched p with
  | none => s
  | some (n, idx, first) => if s.tick < first + 80000 then s else s.abortJob n 2 idx 4 true

/-! ## Submission entries (R419 to R421) -/

/-- RUN (R420, R421). -/
def State.sqRun (s : State) (p q e : Nat) : State :=
  if !s.sqReady p q || sqOpcode e != 1 then s
  else
    let s := s.sqFetched p q
    let active := s.get .CMD_PLAN_STATUS_state p (sqSlot e) == 1 && (((s.slotSt p (sqSlot e)).active).map (fun P => P.batch)) == some true
    if !s.partIsBe p || !active then s.sqRefuse p q e 7
    else if !sqBitsOk e || sqSlice e < 100 || 10000 < sqSlice e then s.sqRefuse p q e 8
    else s.sqTake p q e

/-- STOP of a job (R417, R420): at once, at its next step boundary, or by an abort; its completion follows the job's end. -/
def State.stopJob (s : State) (p q e : Nat) (j : Job) : State :=
  if j.state == .ended then
    s.completion p q (completionBytes (sqTag e) j.no false q 0 j.step j.ran 0 s.t64) none
  else
    let s := s.modJob j.no (fun j => { j with stops := j.stops ++ [(q, sqTag e)] })
    if sqAbort e then s.abortJob j.no 4 0 4 false
    else if j.run.isSome then s.modJob j.no (fun j => { j with ending := true })
    else if j.batch then s.endJob j.no 1 0
    else (s.endStream p j.slot 1).set .CMD_PLAN_STATUS_state p j.slot 2

/-- STOP (R420, R421). -/
def State.sqStop (s : State) (p q e : Nat) : State :=
  if !s.sqReady p q || sqOpcode e != 2 then s
  else
    let s := s.sqFetched p q
    match s.job (sqJob e) with
    | none => s.sqRefuse p q e 8
    | some j => if !sqBitsOk e || j.part != p then s.sqRefuse p q e 8 else s.stopJob p q e j

/-- FENCE (R420, R421). -/
def State.sqFence (s : State) (p q e : Nat) : State :=
  if !s.sqReady p q || sqOpcode e != 3 then s
  else
    let s := s.sqFetched p q
    if !sqBitsOk e then s.sqRefuse p q e 8 else s.sqTake p q e

/-- An entry with an unknown opcode (R421). -/
def State.sqUnknown (s : State) (p q e : Nat) : State :=
  if !s.sqReady p q || (1 ≤ sqOpcode e && sqOpcode e ≤ 3) then s
  else (s.sqFetched p q).sqRefuse p q e 6

/-- A read of a submission queue fails: the queue stops (R435). -/
def State.sqReadFails (s : State) (p q : Nat) : State := if s.sqReady p q then s.sqError p q 2 else s

/-- A completion queue's timer runs out (R423): `coal_us` µs are 400 ticks each. -/
def State.cqTimer (s : State) (p c : Nat) : State :=
  match s.cmd.cqs.find? (fun x => x.part == p && x.cq == c) with
  | none => s
  | some x =>
    let us := s.get .CMD_CQ_CFG_coal_us p c
    if us = 0 || s.tick < x.since + 400 * us then s else s.cqMessage p c

/-! ## Plans (R184 to R187, R414, R415) -/

/-- CMD_PLAN_LOAD.go (R187): the waiting load, if any, is replaced. -/
def State.planGo (s : State) (p k : Nat) (hold : Bool) : State :=
  let s := s.set .CMD_PLAN_LOAD_hold p k (b2n hold)
  let s := s.modSlot p k (fun x => { x with load := some {
    base := s.get .CMD_PLAN_BASE p k, size := s.get .CMD_PLAN_SIZE p k, hold := hold, plan := none } })
  (s.set .CMD_PLAN_STATUS_load p k 1).set .CMD_PLAN_STATUS_code p k 0

/-- The contexts bound by the other slots of a partition. -/
def State.otherCtxs (s : State) (p k : Nat) : Nat :=
  (List.range 8).foldl (fun m q =>
    if q = k then m
    else
      let x := s.slotSt p q
      let a := ((x.active.map (fun P => P.ctxs)).getD 0)
      let b := ((x.load.bind (fun l => l.plan)).map (fun P => P.ctxs)).getD 0
      m ||| a ||| b) 0

/-- The checks of a load have finished (R184, R186, R189). -/
def State.planChecked (s : State) (p k : Nat) : State :=
  match (s.slotSt p k).load with
  | none => s
  | some l =>
    if l.plan.isSome then s
    else
      let retired := (s.partList p).any (fun n => s.cluRetired ((s.physOf n).getD 0))
      let bad := if retired then some (0x43, 0) else s.planRefused p k l.base l.size (s.otherCtxs p k)
      match bad with
      | some c =>
        let s := if s.inRegion p l.base l.size then s.consumeBad l.base l.size else s
        let s := s.modSlot p k (fun x => { x with load := none })
        ((s.set .CMD_PLAN_STATUS_load p k 3).set .CMD_PLAN_STATUS_code p k c.1).raise (cmdPage p) 1
          (c.1 + if c.1 = 0x4A then c.2 % 2 ^ 16 * 2 ^ 8 else 0)
      | none =>
        let P := s.readPlan p l.base l.size
        (s.modSlot p k (fun x => { x with load := some { l with plan := some P } })).set .CMD_PLAN_STATUS_load p k 2

/-- The release of loads that were written with hold (R52, R186). -/
def State.releaseLoads (s : State) (p : Nat) : State :=
  s.forEach (List.range 8) (fun s k => s.modSlot p k (fun x => { x with load := x.load.map (fun l => { l with hold := false }) }))

/-- May a slot be unloaded (R415)? -/
def State.mayUnload (s : State) (p k : Nat) : Bool :=
  let cs := ((s.slotSt p k).active.map (fun P => onesOf 64 P.ctxs)).getD []
  !cs.any (fun c => s.isOn (.CTRL_enable .capCtx) c || s.isOn (.CTRL_enable .lnpCtx) c) &&
  !(s.partJobs p).any (fun j => j.slot == k && j.batch)

/-- CMD_PLAN_LOAD.unload (R415). -/
def State.planUnload (s : State) (fn p k off : Nat) : State :=
  if !s.mayUnload p k then s.code (cmdPage p) fn off 0xC4
  else
    let s := (s.modSlot p k (fun x => { x with load := none })).set .CMD_PLAN_STATUS_load p k 0
    if s.slotBusy p k then s.modSlot p k (fun x => { x with unloading := true }) else s.emptySlot p k

/-! ## Partition configuration (R410, R411) -/

/-- Is every slot of a partition EMPTY, and no CAP or LNP context that it owns enabled? -/
def State.partQuiet (s : State) (p : Nat) : Bool :=
  (List.range 8).all (fun k => s.get .CMD_PLAN_STATUS_state p k == 0) &&
  (List.range 64).all (fun c =>
    !(s.owner (capPage c) == some p && s.isOn (.CTRL_enable .capCtx) c) &&
    !(s.owner (lnpPage c) == some p && s.isOn (.CTRL_enable .lnpCtx) c))

/-- The code that refuses a write to the block of partition `p` that leads from `s` to `t` (R411). -/
def partRefused (s t : State) (p : Nat) : Option Nat :=
  let ps := (List.range 8).filter t.partExists
  let lc := ps.filter (fun q => !t.partIsBe q)
  let mask := t.get .CMD_PART_CLU 0 p
  let others := (lc.filter (fun q => q != p)).foldl (fun m q => m ||| t.get .CMD_PART_CLU 0 q) 0
  let n := t.enabledClu.length
  let be := (List.range 8).find? (fun q => t.partExists q && t.partIsBe q)
  if !s.partQuiet p then some 0xC0
  else if !t.partIsBe p && ((onesOf 64 mask).any (fun k => n ≤ k || t.cluRetired ((t.physOf k).getD 0)) || mask &&& others != 0 ||
      (t.partExists p && mask == 0)) then some 0xC1
  else if 1 < (ps.filter t.partIsBe).length || 1024 < ps.foldl (fun m q => m + t.get .CMD_PART_CFG_jobs 0 q) 0 ||
      ps.any (fun q => t.get .CMD_PART_CFG_jobs 0 q == 0) ||
      lc.any (fun q => lc.any (fun r => q != r && t.get .CMD_PART_CFG_atn 0 q &&& t.get .CMD_PART_CFG_atn 0 r != 0)) then some 0xC2
  else match be with
    | some q => if q != p && s.partExists q && s.beClusters != t.beClusters && !s.partQuiet q then some 0xC3 else none
    | none => none

/-- The fields of a partition's block that R411 guards. -/
def partFlds : List Fld :=
  [.CMD_PART_CFG_enable, .CMD_PART_CFG_class, .CMD_PART_CFG_auto_restart, .CMD_PART_CFG_atn, .CMD_PART_CFG_jobs, .CMD_PART_CLU]

/-- A write to the block of a partition that leads to `t` (R411): discarded with a code, or taken. -/
def State.partWrite (s : State) (fn p off : Nat) (t : State) : State :=
  if partFlds.all (fun f => s.get f 0 p == t.get f 0 p) then t
  else match partRefused s t p with
    | some c => s.code ⟨.cmd, 0⟩ fn off c
    | none => t

end Sys2Proof.Machine
end

