-- ==== Sys2Proof/Machine/Attention.lean ====
section
/-!
DEFINITION. Machine/Attention.lean: the appending of keys and values to pages (R262 to R270), attention over them (R271 to R280),
and pages across linked devices (R283 to R285).
-/
namespace Sys2Proof.Machine

/-! ## Stored codes (R262, R268, R269) -/

/-- The binary32 form of a stored code, before its page scale. -/
def kvWiden (fmt code : Nat) : Nat :=
  if fmt = 0 then widen 4 code else if fmt = 1 then widen 2 code else if fmt = 2 then widen 0 code else f32OfInt (sext 4 code)

/-- The stored code of `x` with page scale `s`, and whether it counts as saturated. -/
def kvStore (fmt x s : Nat) : Nat × Bool :=
  if fmt = 0 then outputConvert 4 x (some f32One)
  else if fmt = 1 then outputConvert 2 x (some s)
  else if fmt = 2 then outputConvert 0 x (some s)
  else
    let t := f32Div x s
    if fIsNaN t then (0, true)
    else if fIsInf t then (toU 4 (if fNeg t then -8 else 7), true)
    else
      let v := f32ToInt t
      if v < -8 then (8, true) else if 7 < v then (7, true) else (toU 4 v, false)

/-- Bytes of codes in store order; INT4 packs two to a byte. -/
def kvPack (fmt : Nat) (codes : List Nat) : List Nat :=
  if fmt = 0 then codes.flatMap (leBytes 2)
  else if fmt = 3 then (List.range (codes.length / 2)).map (fun i => codes.getD (2 * i) 0 % 16 + codes.getD (2 * i + 1) 0 % 16 * 16)
  else codes.map (fun c => c % 256)

/-- The page scale of one head from the values that the opening append writes: twice the largest magnitude by qmax,
with one rounding, and not below the floor (R268). -/
def kvScale (fmt smin : Nat) (xs : List Nat) : Nat :=
  if fmt = 0 then f32One
  else
    let amax := xs.foldl (fun m x => if fIsNaN x then m else f32Max m (f32Abs x)) 0
    let s := f32Div amax (if fmt = 1 then 0x43600000 else if fmt = 2 then 0x427E0000 else 0x40600000)
    if f32Lt s smin then smin else s

/-! ## Rotary positions (R270) -/

/-- Rotate one token of one head. -/
def rotate (rope : List Nat) (h dk along across : Nat) (xs : List Nat) : List Nat :=
  (List.range (dk / 2)).flatMap (fun p =>
    let pos := if p < dk / 4 then along else across
    let phi := pos * rope.getD (h * 64 + p) 0 % 2 ^ 32
    let k := (phi + 2 ^ 17) / 2 ^ 18 % 16384
    let a := xs.getD (2 * p) 0
    let b := xs.getD (2 * p + 1) 0
    [f32Sub (f32Mul a (ropeCos k)) (f32Mul b (ropeSin k)), f32Add (f32Mul a (ropeSin k)) (f32Mul b (ropeCos k))])

/-- The values of token `t` of row `b` of a MAT tensor, head `h` of width `w`. -/
def State.tokenAt (s : State) (e : Env) (t : Tensor) (b tok h w : Nat) : List Nat :=
  (List.range w).map (fun i =>
    let r := b * t.W + tok
    let c := h * w + i
    e.value t r c 0 (s.code? e t r c 0))

/-- The same, rotated when the pool says so. -/
def State.rotated (s : State) (e : Env) (q : Nat) (t : Tensor) (b tok h w along across : Nat) : List Nat :=
  let xs := s.tokenAt e t b tok h w
  if s.isOn .ATN_POOL_FMT_rope q then rotate (s.pool q).rope h w along across xs else xs

/-- The position of a token of a box (R228, R267). -/
def tokenPos (box : List Nat) (grid tok : Nat) : Nat × Nat := (leAt box 0x18 2 + tok / grid, leAt box 0x1A 2 + tok % grid)

/-! ## Pages (R263) -/

/-- The header of a page without its valid count. -/
def State.pageHeader (s : State) (q : Nat) (t : AtnTable) (entry step : Nat) (scales : List (Nat × Nat)) : List Nat :=
  let w0 := 1 + s.get .ATN_POOL_FMT_page_log2 q * 2 ^ 8 + s.get .ATN_POOL_FMT_kfmt q * 2 ^ 12 + s.get .ATN_POOL_FMT_vfmt q * 2 ^ 16 +
    s.get .ATN_POOL_FMT_heads_m1 q * 2 ^ 20
  let w4 := s.get .ATN_POOL_DIM_dk q + s.get .ATN_POOL_DIM_dv q * 2 ^ 8
  let h := leBytes 4 w0 ++ leBytes 4 w4 ++ leBytes 4 (t.id + t.gen * 2 ^ 12 + entry * 2 ^ 24) ++ leBytes 4 0 ++ leBytes 4 step ++
    leBytes 4 q ++ List.replicate 40 0 ++ scales.flatMap (fun x => leBytes 4 x.1 ++ leBytes 4 x.2)
  h ++ List.replicate (256 - h.length) 0

/-- Write bytes of a local page for a partition's job. -/
def State.pageWrite (s : State) (p q page off : Nat) (bs : List Nat) : State :=
  let a := s.pageAddr q page + off
  (s.devWrite a bs).forEach (runLines a bs.length) (fun s l => s.jobLine p true l)

/-- The image of a local page. -/
def State.pageImage (s : State) (q page : Nat) : List Nat := s.devRead (s.pageAddr q page) (s.poolStride q)

/-! ## KV_APPEND (R265 to R269, R283) -/

/-- What the append of one box has done so far. -/
structure BoxAcc where
  table : AtnTable
  /-- REMOTE: the local page of each entry that is not at home. -/
  locals : List (Nat × Nat)
  /-- Tokens stored. -/
  stored : Nat
  extra : List Nat
  deriving DecidableEq, Repr

/-- The local page of an entry. -/
def BoxAcc.page (a : BoxAcc) (remote : Bool) (entry : Nat) : Nat :=
  if remote then ((a.locals.find? (fun x => x.1 == entry)).map (fun x => x.2)).getD 0 else a.table.entries.getD entry 0

/-- Take the pages of a new entry: its number in the table, and the local page that holds it (R265, R283). -/
def State.newEntry (s : State) (q : Nat) (a : BoxAcc) : State × Option BoxAcc :=
  let entry := a.table.entries.length
  if s.poolRole q == 2 then
    let h := s.takeHome q
    let l := h.1.takeLocal q
    match h.2, l.2 with
    | some x, some y => (l.1, some { a with table := { a.table with entries := a.table.entries ++ [x] }, locals := a.locals ++ [(entry, y)] })
    | _, _ => (s, none)
  else match s.takeLocal q with
    | (s, some x) => (s, some { a with table := { a.table with entries := a.table.entries ++ [x] } })
    | (s, none) => (s, none)

/-- Open a page with the scales that the tokens `tok` to `hi - 1` of a box give it (R263, R268). -/
def State.openPage (s : State) (e : Env) (d q b tok hi : Nat) (box : List Nat) (a : BoxAcc) : State × BoxAcc :=
  let heads := s.poolHeads q
  let dk := s.get .ATN_POOL_DIM_dk q
  let dv := s.get .ATN_POOL_DIM_dv q
  let smin := s.get .ATN_POOL_SMIN q
  let toks := (List.range (hi - tok)).map (fun i => tok + i)
  let scales := (List.range heads).map (fun h =>
    let ks := toks.flatMap (fun t =>
      let pos := tokenPos box (s.get .ATN_POOL_FMT_grid_w q) t
      s.rotated e q (e.plan.tensor (dIn0 d)) b t h dk pos.1 pos.2)
    let vs := toks.flatMap (fun t => s.tokenAt e (e.plan.tensor (dIn1 d)) b t h dv)
    (kvScale (s.get .ATN_POOL_FMT_kfmt q) smin ks, kvScale (s.get .ATN_POOL_FMT_vfmt q) smin vs))
  let entry := a.table.entries.length - 1
  let s := s.pageWrite e.part q (a.page (s.poolRole q == 2) entry) 0 (s.pageHeader q a.table entry (e.step % 2 ^ 32) scales)
  (s, { a with extra := a.extra ++ scales.flatMap (fun x => leBytes 4 x.1 ++ leBytes 4 x.2) })

/-- Store one token in its page (R262, R263, R267, R269). -/
def State.storeToken (s : State) (e : Env) (d q b tok index : Nat) (box : List Nat) (a : BoxAcc) : State × BoxAcc :=
  let P := s.poolTokens q
  let heads := s.poolHeads q
  let dk := s.get .ATN_POOL_DIM_dk q
  let dv := s.get .ATN_POOL_DIM_dv q
  let kf := s.get .ATN_POOL_FMT_kfmt q
  let vf := s.get .ATN_POOL_FMT_vfmt q
  let page := a.page (s.poolRole q == 2) (index / P)
  let slot := index % P
  let head := s.devRead (s.pageAddr q page) 256
  let pos := tokenPos box (s.get .ATN_POOL_FMT_grid_w q) tok
  let ks := (List.range heads).flatMap (fun h =>
    (s.rotated e q (e.plan.tensor (dIn0 d)) b tok h dk pos.1 pos.2).map (fun x => kvStore kf x (leAt head (0x40 + 8 * h) 4)))
  let vs := (List.range heads).flatMap (fun h =>
    (s.tokenAt e (e.plan.tensor (dIn1 d)) b tok h dv).map (fun x => kvStore vf x (leAt head (0x44 + 8 * h) 4)))
  let word := leBytes 4 (pos.1 % 2 ^ 20 + pos.2 % 2 ^ 12 * 2 ^ 20)
  let kb := kvPack kf (ks.map (fun x => x.1))
  let vb := kvPack vf (vs.map (fun x => x.1))
  let sat := ((ks ++ vs).filter (fun x => x.2)).length
  let s := s.pageWrite e.part q page (0x100 + 4 * slot) word
  let s := s.pageWrite e.part q page (0x100 + 4 * P + slot * kb.length) kb
  let s := s.pageWrite e.part q page (0x100 + 4 * P + s.poolKBytes q + slot * vb.length) vb
  (s.count .ATN_POOL_SAT q 0 sat, { a with stored := a.stored + 1, extra := a.extra ++ word ++ kb ++ vb })

/-- A token finds no entry: the table is cut there (R265). -/
def State.cutTable (s : State) (q ev : Nat) (a : BoxAcc) : State × BoxAcc :=
  (s.raise (poolPage q) ev, { a with table := { a.table with trunc := true } })

/-- Append token `tok` of a box, if the table still takes tokens. -/
def State.appendToken (s : State) (e : Env) (d q b w : Nat) (box : List Nat) (a : BoxAcc) (tok : Nat) : State × BoxAcc :=
  if a.table.trunc then (s.count .ATN_POOL_DROP q 0 1, a)
  else
    let P := s.poolTokens q
    let index := a.table.tokens + tok
    if index / P < a.table.entries.length then s.storeToken e d q b tok index box a
    else if 256 ≤ index / P then
      let r := s.cutTable q 3 a
      (r.1.count .ATN_POOL_DROP q 0 1, r.2)
    else match s.newEntry q a with
      | (s, none) =>
        let r := s.cutTable q 2 a
        (r.1.count .ATN_POOL_DROP q 0 1, r.2)
      | (s, some a) =>
        let r := s.openPage e d q b tok (min w (tok + (P - index % P))) box a
        r.1.storeToken e d q b tok index box r.2

/-- A box whose tokens are all stored: they become valid, and full pages of a REMOTE pool go home (R267, R283). -/
def State.boxStored (s : State) (e : Env) (q w : Nat) (a : BoxAcc) : State × BoxAcc :=
  let P := s.poolTokens q
  let remote := s.poolRole q == 2
  let lo := a.table.tokens
  let hi := lo + w
  let s := s.forEach ((List.range a.table.entries.length).filter (fun i => lo < (i + 1) * P && i * P < hi)) (fun s i =>
    s.pageWrite e.part q (a.page remote i) 0xC (leBytes 4 (min P (hi - i * P))))
  let a := { a with table := { a.table with tokens := hi } }
  if !remote then (s, a)
  else
    let full := a.locals.filter (fun x => (x.1 + 1) * P ≤ hi)
    let s := s.forEach full (fun s x =>
      let g := s.get .ATN_POOL_ROLE_group q
      let tag := s.get .ATN_POOL_ROLE_peer_pool q + a.table.entries.getD x.1 0 * 2 ^ 16
      let s := s.peerSend g 3 tag (s.pageImage q x.2)
      s.modPool q (fun p => { p with pushes := p.pushes ++ [⟨x.2, g, tag⟩] }))
    (s.reapPushes, { a with locals := a.locals.filter (fun x => hi < (x.1 + 1) * P) })

/-- A box whose tokens were not all stored: no token of it counts, and local pages of new entries of a REMOTE pool are
free again. -/
def State.boxCut (s : State) (q old : Nat) (a : BoxAcc) : State × BoxAcc :=
  (s.forEach (a.locals.filter (fun x => old ≤ x.1)) (fun s x => s.freeLocal q x.2), { a with locals := a.locals.filter (fun x => x.1 < old) })

/-- Does the descriptor's shape differ from the pool's (R267, R271)? -/
def State.shapeDiffers (s : State) (d w q : Nat) : Bool :=
  dByte d 0x30 != s.poolHeads q || dByte d 0x31 != s.get .ATN_POOL_DIM_dk q || dByte d 0x32 != s.get .ATN_POOL_DIM_dv q ||
  w % max 1 (s.get .ATN_POOL_FMT_grid_w q) != 0

/-- Identifier and generation of a box entry (R228). -/
def boxPart (box : List Nat) : Nat × Nat := (leAt box 0 4 % 2 ^ 12, bits (leAt box 0 4) 19 12)

/-- The table that a box may use: OPEN and of its generation. -/
def State.boxTable (s : State) (box : List Nat) : Option AtnTable :=
  (s.table (boxPart box).1).filter (fun t => !t.releasing && t.gen == (boxPart box).2)

/-- Count a box that is skipped in the pool of its identifier's table. -/
def State.skipBox (s : State) (box : List Nat) : State :=
  match (s.table (boxPart box).1).bind (fun t => t.pool) with
  | some q => s.count .ATN_POOL_SKIP q 0 1
  | none => s

/-- Append one box (R267); the bytes that a digest covers. -/
def State.appendBox (s : State) (e : Env) (d b : Nat) : State × List Nat :=
  let box := s.listEntry e (e.plan.tensor (dIn2 d)) b
  let w := (e.plan.tensor (dIn0 d)).W
  match s.boxTable box with
  | none => (s.skipBox box, [])
  | some t =>
    match t.pool with
    | none => (s.count .ATN_CNT_NOPOOL 0 0 w, [])
    | some q =>
      if !s.poolOn q then (s.skipBox box, [])
      else if s.shapeDiffers d w q then ((s.raise (poolPage q) 5).skipBox box, [])
      else
        let old := t.entries.length
        let locals := match t.localPage with
          | some l => [(t.tokens / s.poolTokens q, l)]
          | none => []
        let r := (List.range w).foldl (fun (x : State × BoxAcc) tok => x.1.appendToken e d q b w box x.2 tok)
          (s, { table := t, locals := locals, stored := 0, extra := [] })
        let r := if r.2.stored = w then r.1.boxStored e q w r.2 else r.1.boxCut q old r.2
        (r.1.modTable t.id (fun _ => { r.2.table with localPage := (r.2.locals.getLast?).map (fun x => x.2) }), r.2.extra)

/-- The next descriptor of the job on a partition's clusters, when it may be issued to ATN or DEC now. -/
def State.toIssue (s : State) (p op : Nat) : Option (State × Job × Plan × StepRun × DescRun) :=
  if !s.partWorks p then none
  else
    let s := match (s.sch p).running with
      | some n => if (s.sch p).ending then s else (s.beginStep n).advance n
      | none => s
    match s.current p with
    | none => none
    | some (j, P, r) =>
      match r.descs.find? (fun x => x.assigned < x.units) with
      | none => none
      | some x =>
        let d := P.descs.getD x.idx 0
        if dOp d != op || !s.mayAssign p d x || !r.inTurn P x.idx || s.blocked (s.envOf j P r x.idx) r x.idx 0 then none
        else (s.firstUnit j P r x).bind (fun s => (s.current p).map (fun c => (s.modDesc j.no x.idx (fun x => { x with assigned := x.units }), c.1, P, c.2.2,
          ((c.2.2.descs.find? (fun y => y.idx == x.idx)).getD x))))

/-- The lines that a unit reads are requested. -/
def State.requestReads (s : State) (e : Env) (r : StepRun) (d : Nat) (x : DescRun) : State :=
  s.forEach (s.tapLines e (s.unitTaps e r.descs d x 0) ++ (s.unitList e d).flatMap (fun l => runLines l.1 l.2)) (fun s l => s.jobLine e.part false l)

/-- ATN takes a KV_APPEND descriptor (R267). -/
def State.kvAppend (s : State) (p : Nat) : State :=
  match s.toIssue p 0x10 with
  | none => s
  | some (s, j, P, r, x) =>
    let d := P.descs.getD x.idx 0
    let e := s.envOf j P r x.idx
    let x := { x with assigned := x.units }
    let b := (s.requestReads e r d x).unitBad e r.descs d x 0
    if b.2 then b.1.abortMem j.no x.idx
    else
      let t := P.tensor (dIn2 d)
      let q := (List.range (min (b.1.listCount e t) t.H)).foldl (fun (a : State × List Nat) i =>
        let r := a.1.appendBox e d i
        (r.1, a.2 ++ r.2)) (b.1, [])
      q.1.unitDone p j.no { x with done := [0], extra := q.2 }

/-! ## Reading pages (R277, R278, R284) -/

/-- Is a page whose header reads `img` masked: a scale zero or not finite (R278)? -/
def pageMasked (img : List Nat) (heads : Nat) : Bool :=
  (List.range heads).any (fun h => [leAt img (0x40 + 8 * h) 4, leAt img (0x44 + 8 * h) 4].any (fun x => fIsZero x || !fIsFin x))

/-- A page has been read for a descriptor: the events of its header (R277, R278), and the image, empty when it is masked. -/
def State.pageRead (s : State) (n idx d q page : Nat) (img : List Nat) : State × List Nat :=
  let kf := bits (leAt img 0 4) 13 12
  let first := match s.job n with
    | some j => !j.kfmt.contains q
    | none => false
  let s := if kf != bits (dWord d 0x38) 3 1 && first then
      (s.modJob n (fun j => { j with kfmt := q :: j.kfmt })).raise (poolPage q) 0 (idx % 2 ^ 16 + kf * 2 ^ 16)
    else s
  if pageMasked img (s.poolHeads q) then ((s.raise (poolPage q) 1 (page % 2 ^ 16)).count .ATN_POOL_MASKED q 0 1, []) else (s, img)

/-- Does a reply fail the check of R284? -/
def State.replyBad (s : State) (q : Nat) (t : AtnTable) (entry : Nat) (img : List Nat) : Bool :=
  let h := s.pageHeader q t entry 0 []
  let w0 := leAt img 0 4
  let v0 := leAt h 0 4
  bits w0 7 0 != 1 || bits w0 13 12 != bits v0 13 12 || bits w0 17 16 != bits v0 17 16 || bits w0 23 20 != bits v0 23 20 ||
  (img.drop 4).take 2 != (h.drop 4).take 2 || (img.drop 8).take 4 != (h.drop 8).take 4

/-! ## Scores and sums (R272 to R276) -/

/-- An exact product of a binary32 value and a scaled code, rounded once (R274). -/
def mulScaled (x code scale : Nat) : Nat :=
  if fIsFin x && fIsFin code && fIsFin scale then
    f32Pack ((fNeg x != fNeg code) != fNeg scale) (fUnits x * fUnits code * fUnits scale) (-447)
  else f32Mul (f32Mul x code) scale

/-- Element `n` of a run of codes of a format at an offset of a page image. -/
def kvElem (img : List Nat) (fmt off n : Nat) : Nat :=
  kvWiden fmt (if fmt = 0 then leAt img (off + 2 * n) 2
    else if fmt = 3 then (img.getD (off + n / 2) 0 >>> (4 * (n % 2))) % 16
    else img.getD (off + n) 0)

/-- A valid key as one head sees it: its index, its along position, its K and V codes with their scales. -/
structure KeyVal where
  index : Nat
  along : Nat
  ks : List Nat
  kscale : Nat
  vs : List Nat
  vscale : Nat
  deriving DecidableEq, Repr

/-- The valid keys of a box for head `h`, in key order (R273). -/
def keyVals (P heads dk dv h keys : Nat) (pages : List (List Nat)) : List KeyVal :=
  (List.range keys).filterMap (fun i =>
    let img := pages.getD (i / P) []
    if img.isEmpty then none
    else
      let slot := i % P
      let kf := bits (leAt img 0 4) 13 12
      let vf := bits (leAt img 0 4) 17 16
      let kOff := 0x100 + 4 * P
      let vOff := kOff + P * heads * dk * kvHalfBytes kf / 2
      some { index := i, along := leAt img (0x100 + 4 * slot) 4 % 2 ^ 20
             ks := (List.range dk).map (fun x => kvElem img kf kOff ((slot * heads + h) * dk + x)), kscale := leAt img (0x40 + 8 * h) 4
             vs := (List.range dv).map (fun x => kvElem img vf vOff ((slot * heads + h) * dv + x)), vscale := leAt img (0x44 + 8 * h) 4 })

/-- The state of a run for one query (R275): m, l, acc, and whether it saw a key. -/
structure RunAcc where
  m : Nat
  l : Nat
  acc : List Nat
  saw : Bool
  deriving DecidableEq, Repr

/-- The score of a query and a key (R274). -/
def keyScore (q : List Nat) (c : Nat) (k : KeyVal) : Nat :=
  f32Mul (sum32 ((q.zip k.ks).map (fun x => mulScaled x.1 x.2 k.kscale))) c

/-- One key block of a run (R275); `ks` are the keys that the query may attend, with their scores. -/
def runBlock (dv : Nat) (a : RunAcc) (ks : List (KeyVal × Nat)) : RunAcc :=
  match ks with
  | [] => a
  | k :: rest =>
    let mb := rest.foldl (fun m x => f32Max m x.2) k.2
    let a := if f32Lt a.m mb then
        let alpha := exp2 (f32Sub a.m mb)
        { a with m := mb, l := f32Mul a.l alpha, acc := a.acc.map (fun x => f32Mul x alpha) }
      else a
    let es := ks.map (fun x => (x.1, exp2 (f32Sub x.2 a.m)))
    let chunk (f : KeyVal → Nat → Nat) : Nat := chunkedSum (es.map (fun x => (x.1.index % 128 / 32, f x.1 x.2)))
    { a with l := f32Add a.l (chunk (fun _ x => x)), saw := true
             acc := (List.range dv).map (fun i => f32Add (a.acc.getD i 0) (chunk (fun k x => mulScaled x (k.vs.getD i 0) k.vscale))) }

/-- The output of one query of one head: the split runs and their merge (R275, R276); `none` without a valid key. -/
def attend (q : List Nat) (along : Nat) (causal : Bool) (c S dv nb : Nat) (keys : List KeyVal) : Option (List Nat) :=
  let ok := (keys.filter (fun k => !causal || k.along ≤ along)).map (fun k => (k, keyScore q c k))
  if ok.isEmpty then none
  else
    let per := ceilDiv nb (max 1 S)
    let runs := (List.range S).map (fun r =>
      (List.range per).foldl (fun a b => runBlock dv a (ok.filter (fun k => k.1.index / 128 == r * per + b)))
        { m := fSign true f32Inf, l := 0, acc := List.replicate dv 0, saw := false })
    let seen := runs.filter (fun a => a.saw)
    let M := (seen.drop 1).foldl (fun m a => f32Max m a.m) ((seen.headD ⟨0, 0, [], false⟩).m)
    let r := seen.foldl (fun (x : Nat × List Nat) a =>
      let w := exp2 (f32Sub a.m M)
      (f32Add x.1 (f32Mul a.l w), (x.2.zip a.acc).map (fun y => f32Add y.1 (f32Mul y.2 w)))) (0, List.replicate dv 0)
    some (r.2.map (fun x => f32Div x r.1))

/-- The output values of one box by token, head and dimension, and the query tokens without a valid key. -/
def State.boxOut (s : State) (e : Env) (d : Nat) (b : AttnBox) : List (List Nat) × Nat :=
  let heads := dByte d 0x30
  let dk := dByte d 0x31
  let dv := dByte d 0x32
  let t := e.plan.tensor (dIn0 d)
  let box := s.listEntry e (e.plan.tensor (dIn2 d)) b.box
  let f := dWord d 0x38
  let c := f32Mul (dWord d 0x34) 0x3FB8AA3B
  let P := s.poolTokens b.pool
  let vals := (List.range heads).map (fun h => keyVals P heads dk dv h b.keys b.pages)
  let rows := (List.range t.W).map (fun tok =>
    let pos := tokenPos box (max 1 (s.get .ATN_POOL_FMT_grid_w b.pool)) tok
    (List.range heads).map (fun h =>
      attend (if b.keys = 0 then [] else s.rotated e b.pool t b.box tok h dk pos.1 pos.2) (pos.1 % 2 ^ 20) (bit f 0) c (bits f 7 4) dv
        (ceilDiv b.keys 128) (vals.getD h [])))
  (rows.map (fun r => r.flatMap (fun x => x.getD (List.replicate dv 0))), (rows.filter (fun r => r.any Option.isNone)).length)

/-! ## Work units (R280, R281) -/

/-- The bucket of a part. -/
def bucketOf (keys : Nat) : Nat := max 4 (clog2 keys)

/-- The boxes in the order of their buckets, the largest first. -/
def byBucket (l : List AttnBox) : List AttnBox :=
  (List.range 33).reverse.flatMap (fun k => l.filter (fun b => bucketOf b.keys == k))

/-- Groups of boxes that share work units: small ones are packed, the others stand alone. -/
def packBoxes (w : Nat) (l : List AttnBox) : List (List AttnBox) :=
  l.foldl (fun (acc : List (List AttnBox)) b =>
    match acc.getLast? with
    | some g =>
      let small (x : AttnBox) : Bool := x.keys ≤ 64 && w ≤ 32
      if small b && g.all small && (g.map (fun x => x.keys)).foldl (· + ·) b.keys ≤ 128 && (g.length + 1) * w ≤ 32 then acc.dropLast ++ [g ++ [b]]
      else acc ++ [[b]]
    | none => [[b]]) []

/-- The work units of an ATTN descriptor. -/
def unitsFor (heads w S : Nat) (l : List AttnBox) : List AtnUnit :=
  (packBoxes w (byBucket (l.filter (fun b => 0 < b.keys)))).flatMap (fun g =>
    let nb := (g.map (fun b => ceilDiv b.keys 128)).foldl max 0
    let per := ceilDiv nb (max 1 S)
    (List.range S).flatMap (fun r =>
      let blocks := min nb ((r + 1) * per) - r * per
      if blocks = 0 then []
      else (List.range heads).flatMap (fun h => (List.range (if 1 < g.length then 1 else ceilDiv w 32)).map (fun k =>
        { boxes := g.map (fun b => b.box), run := r, head := h, group := k, blocks := blocks, engine := none }))))

/-- Attention in progress, changed. -/
def State.modAttn (s : State) (which : AttnRun → Bool) (f : AttnRun → AttnRun) : State :=
  { s with attn := s.attn.map (fun x => if which x then f x else x) }

/-- The engines that run a work unit, as a mask. -/
def State.engBusy (s : State) : Nat := maskOf (s.attn.flatMap (fun a => a.units.filterMap (fun u => u.engine)))

/-- Free engines take the next work units of their partitions, the lowest-numbered first (R280, R412). -/
def State.giveUnits (s : State) : State :=
  s.forEach (List.range 8) (fun s k =>
    if bit s.engBusy k then s
    else match s.attn.find? (fun a => bit (s.enginesOf a.part) k && a.units.any (fun u => u.engine.isNone)) with
      | none => s
      | some a =>
        let i := (a.units.findIdx? (fun u => u.engine.isNone)).getD 0
        s.modAttn (fun x => x == a) (fun x => { x with units := listMod x.units i (fun u => { u with engine := some k }) }))

/-! ## ATTN (R271 to R280) -/

/-- Send the requests that found no local page free (R284). -/
def State.sendReqs (s : State) : State :=
  s.forEach s.attn (fun s a =>
    s.forEach (a.reqs.filter (fun q => q.dest.isNone && !q.missing)) (fun s q =>
      match s.takeLocal q.pool with
      | (_, none) => s
      | (s, some l) =>
        let new := { q with dest := some l, since := s.tick }
        let s := s.modAttn (fun x => x.job == a.job && x.desc == a.desc) (fun x => { x with reqs := x.reqs.map (fun y => if y == q then new else y) })
        s.peerSend q.group 4 (s.get .ATN_POOL_ROLE_peer_pool q.pool + q.page * 2 ^ 16) []))

/-- What the box of an ATTN descriptor reads: the box as issued, its requests, and whether it met an uncorrectable word. -/
def State.readBox (s : State) (e : Env) (n idx d i : Nat) : State × AttnBox × List PageReq × Bool :=
  let box := s.listEntry e (e.plan.tensor (dIn2 d)) i
  let none' : AttnBox := { box := i, table := none, pool := 0, keys := 0, pages := [] }
  match s.boxTable box with
  | none => (s, none', [], false)
  | some t =>
    match t.pool with
    | none => (s, none', [], false)
    | some q =>
      if !s.poolOn q then (s.skipBox box, none', [], false)
      else if s.shapeDiffers d (e.plan.tensor (dIn0 d)).W q then ((s.raise (poolPage q) 5).skipBox box, none', [], false)
      else if !t.lost.isEmpty || t.tokens = 0 then (s, none', [], false)
      else
        let P := s.poolTokens q
        let remote := s.poolRole q == 2
        let away (k : Nat) : Bool := remote && (k + 1) * P ≤ t.tokens
        let s := s.modTable t.id (fun t => { t with readers := t.readers + 1 })
        let r := (List.range (ceilDiv t.tokens P)).foldl (fun (a : State × List (List Nat) × Bool) k =>
          if away k then (a.1, a.2.1 ++ [[]], a.2.2)
          else
            let page := if remote then t.localPage.getD 0 else t.entries.getD k 0
            let addr := a.1.pageAddr q page
            let len := a.1.poolStride q
            let s := a.1.forEach (runLines addr len) (fun s l => s.jobLine e.part false l)
            let bad := !(s.badKeys addr len).isEmpty
            let x := (s.consumeBad addr len).pageRead n idx d q page (a.1.pageImage q page)
            (x.1, a.2.1 ++ [x.2], a.2.2 || bad)) (s, [], false)
        let reqs := ((List.range (ceilDiv t.tokens P)).filter away).map (fun k =>
          ({ pool := q, table := t.id, entry := k, page := t.entries.getD k 0, group := s.get .ATN_POOL_ROLE_group q, dest := none
             since := 0, arrived := false, missing := false } : PageReq))
        (r.1, { box := i, table := some t.id, pool := q, keys := t.tokens, pages := r.2.1 }, reqs, r.2.2)

/-- Every unit of an ATTN descriptor is done: its results are written (R274 to R276). -/
def State.attnWrite (s : State) (a : AttnRun) : State :=
  let s := s.attnDrop a
  match s.job a.job with
  | none => s
  | some j =>
    match s.planOf j, j.run with
    | some P, some r =>
      match r.descs.find? (fun x => x.idx == a.desc) with
      | none => s
      | some x =>
        let d := P.descs.getD a.desc 0
        let e := s.envOf j P r a.desc
        let out := P.tensor (dOut d)
        let outs := a.boxes.map (fun b => (b.box, s.boxOut e d b))
        let cells := outs.flatMap (fun o => o.2.1.zipIdx.flatMap (fun row => row.1.zipIdx.map (fun v =>
          let h := o.1 * out.W + row.2
          let c := convertRes e out h v.2 0 (.y v.1)
          (((h, v.2, 0), c.1), c.2))))
        let s := s.count .ATN_CNT_EMPTYQ 0 0 ((outs.map (fun o => o.2.2)).foldl (· + ·) 0)
        let s := s.putTile e out (cells.map (fun y => y.1))
        s.unitDone a.part a.job ({ x with done := [0] }.track d cells)
    | _, _ => s

/-- The boxes of a list are read in order: what each holds, the pages to ask for, and whether one proved bad. -/
def State.readBoxes (s : State) (e : Env) (no idx d n : Nat) (bad : Bool) : State × List AttnBox × List PageReq × Bool :=
  (List.range (min n 65536)).foldl (fun (a : State × List AttnBox × List PageReq × Bool) i =>
    let r := a.1.readBox e no idx d i
    (r.1, a.2.1 ++ [r.2.1], a.2.2.1 ++ r.2.2.1.filter (fun y => !a.2.2.1.any (fun z => z.table == y.table && z.entry == y.entry)), a.2.2.2 || r.2.2.2))
    (s, [], [], bad)

/-- An ATTN descriptor whose boxes have been read goes on: aborted, finished, or with its units given out. -/
def State.attnStart (s : State) (a : AttnRun) (bad : Bool) : State :=
  let s := { s with attn := s.attn ++ [a] }
  if bad then s.abortMem a.job a.desc
  else if a.units.isEmpty then s.attnWrite a
  else s.sendReqs.giveUnits

/-- ATN takes an ATTN descriptor (R271). -/
def State.attnIssue (s : State) (p : Nat) : State :=
  match s.toIssue p 0x11 with
  | none => s
  | some (s, j, P, r, x) =>
    let d := P.descs.getD x.idx 0
    let e := s.envOf j P r x.idx
    let b := (s.requestReads e r d x).unitBad e r.descs d x 0
    let t := P.tensor (dIn2 d)
    let n := if b.2 then 0 else min (b.1.listCount e t) t.H
    let q := b.1.readBoxes e j.no x.idx d n b.2
    let s := q.1.forEach (List.range (n - 65536)) (fun s i => s.skipBox (s.listEntry e t (65536 + i)))
    s.attnStart { part := p, job := j.no, desc := x.idx, boxes := q.2.1, reqs := q.2.2.1
                  units := unitsFor (dByte d 0x30) (P.tensor (dIn0 d)).W (bits (dWord d 0x38) 7 4) q.2.1 } q.2.2.2

/-- Has every page that a unit needs arrived, or been given up? -/
def AttnRun.settled (a : AttnRun) (u : AtnUnit) : Bool :=
  a.reqs.all (fun q => q.arrived || q.missing || !a.boxes.any (fun b => u.boxes.contains b.box && b.table == some q.table))

/-- An attention engine finishes its work unit (R280). -/
def State.unitEnds (s : State) (k : Nat) : State :=
  match s.attn.find? (fun a => a.units.any (fun u => u.engine == some k)) with
  | none => s
  | some a =>
    match a.units.find? (fun u => u.engine == some k) with
    | none => s
    | some u =>
      if !a.settled u then s
      else
        let new := { a with units := a.units.erase u }
        let s := s.modAttn (fun x => x == a) (fun _ => new)
        let s := (s.count .ATN_BLOCKS 0 0 u.blocks).pmc 0x19 k u.blocks (some a.part)
        let s := if new.units.isEmpty then ((s.attnWrite new).drain a.part) else s
        s.sendReqs.giveUnits

/-! ## Pages across linked devices (R283 to R285) -/

/-- A page that a descriptor asked for is missing (R284). -/
def State.pageMissing (s : State) (a : AttnRun) (q : PageReq) : State :=
  let s := s.modAttn (fun x => x == a) (fun x => { x with reqs := x.reqs.map (fun y => if y == q then { y with missing := true } else y) })
  (s.raise (poolPage q.pool) 4).count .ATN_POOL_MISSING q.pool 0 1

/-- The oldest request sent and not answered. -/
def State.openReq (s : State) (ok : PageReq → Bool) : Option (AttnRun × PageReq) :=
  let l := s.attn.flatMap (fun a => (a.reqs.filter (fun q => q.dest.isSome && !q.arrived && !q.missing && ok q)).map (fun q => (a, q)))
  l.foldl (fun best x => match best with
    | none => some x
    | some b => if x.2.since < b.2.since then some x else some b) none

/-- A reply to a request arrives (R284). -/
def State.pageReply (s : State) (a : AttnRun) (q : PageReq) (img : List Nat) : State :=
  match s.table q.table with
  | none => s.pageMissing a q
  | some t =>
    if s.replyBad q.pool t q.entry img then s.pageMissing a q
    else match s.job a.job with
      | none => s
      | some j =>
        let d := match s.planOf j with
          | some P => P.descs.getD a.desc 0
          | none => 0
        let bs := img.take (s.poolStride q.pool)
        let s := s.pageWrite a.part q.pool (q.dest.getD 0) 0 bs
        let r := s.pageRead a.job a.desc d q.pool q.page bs
        let fill (b : AttnBox) : AttnBox := if b.table == some q.table then { b with pages := listSet b.pages q.entry r.2 } else b
        r.1.modAttn (fun x => x == a) (fun x =>
          { x with boxes := x.boxes.map fill, reqs := x.reqs.map (fun y => if y == q then { y with arrived := true } else y) })

/-- The HOME pool that takes a message of a group whose tag names pool `q` (R285). -/
def State.homeTakes (s : State) (g q : Nat) : Bool :=
  s.poolOn q && s.poolRole q == 1 && bit (s.get .ATN_POOL_ROLE_home_groups q) g

/-- A KVPAGE message arrives: the answer to a request, or a page to store (R284, R285). -/
def State.kvPage (s : State) (g : Nat) (m : PeerMsg) : State :=
  let q := m.tag % 8
  let page := bits m.tag 31 16
  match s.openReq (fun y => y.group == g && s.get .ATN_POOL_ROLE_peer_pool y.pool == q && y.page == page) with
  | some (a, y) => (s.pageReply a y m.payload).sendReqs
  | none =>
    if !s.homeTakes g q then s
    else if s.get .ATN_POOL_PAGES q ≤ page || s.poolStride q < m.payload.length then s.count .ATN_POOL_SKIP q 0 1
    else
      let s := s.devWriteFor (s.owner (poolPage q)) (s.pageAddr q page) m.payload
      s.modPool q (fun p => { p with stored := if p.stored.contains page then p.stored else p.stored ++ [page] })

/-- A KVREQ message arrives: a HOME pool answers (R285, R313). -/
def State.kvReq (s : State) (g : Nat) (m : PeerMsg) : State :=
  let q := m.tag % 8
  let page := bits m.tag 31 16
  if !s.homeTakes g q then s
  else if s.get .ATN_POOL_PAGES q ≤ page then s.count .ATN_POOL_SKIP q 0 1
  else if !(s.pool q).stored.contains page then s.peerSend g 3 m.tag (List.replicate 256 0)
  else
    let a := s.pageAddr q page
    let len := s.poolStride q
    let bad := !(s.badKeys a len).isEmpty
    let img := s.pageImage q page
    let s := (s.countRd a len (s.owner (poolPage q))).consumeBad a len
    s.peerSend g 3 m.tag (if bad then List.replicate 256 0 else img)

/-- A request has waited for its reply as long as it may (R284). -/
def State.peerReadTimeout (s : State) : State :=
  match s.openReq (fun _ => true) with
  | none => s
  | some (a, q) => s.pageMissing a q

end Sys2Proof.Machine
end

