-- ==== Sys2Proof/Machine/Jpeg.lean ====
section
/-!
DEFINITION. Machine/Jpeg.lean: the JPEG frames that DEC decodes (R440, R441), with the symbol budget and truncation of R447
and R448.
-/
namespace Sys2Proof.Machine

/-- How the decoding of a picture ends. -/
inductive DecEnd where
  /-- Complete. -/
  | whole
  /-- The data ended before the picture was complete (R448). -/
  | cut
  /-- The next symbol would have passed the budget (R447). -/
  | spent
  deriving DecidableEq, Repr

/-- May one more symbol be decoded (R447)? A budget of 0 sets no limit. -/
def budgetOk (budget symbols : Nat) : Bool := budget == 0 || symbols + 1 ≤ budget

/-! ## Headers (R440) -/

/-- A Huffman table: codes of each length, and symbols. -/
structure Huff where
  counts : List Nat
  syms : List Nat
  deriving DecidableEq, Repr

/-- A component of the frame. -/
structure JpegComp where
  id : Nat
  hf : Nat
  vf : Nat
  tq : Nat
  /-- Tables that its scan names. -/
  td : Nat
  ta : Nat
  deriving DecidableEq, Repr

/-- What the headers of a JPEG file say. -/
structure JpegHead where
  /-- Quantisation tables by number, in zig-zag order. -/
  quant : List (Nat × List Nat) := []
  /-- Huffman tables by class × 4 + number. -/
  huff : List (Nat × Huff) := []
  restart : Nat := 0
  /-- A frame header that DEC accepts has been read. -/
  frame : Bool := false
  prec : Nat := 8
  w : Nat := 0
  h : Nat := 0
  comps : List JpegComp := []
  /-- What follows the frame header is not a scan that DEC accepts. -/
  bad : Bool := false
  /-- The entropy-coded data. -/
  data : List Nat := []
  deriving DecidableEq, Repr

/-- A big-endian 16-bit value. -/
def be16 (l : List Nat) (i : Nat) : Nat := l.getD i 0 * 256 + l.getD (i + 1) 0

/-- The tables of a DQT segment. -/
def readDqt : Nat → List Nat → List (Nat × List Nat)
  | 0, _ => []
  | _, [] => []
  | fuel + 1, p :: l =>
    let wide := p / 16 != 0
    let n := if wide then 128 else 64
    (p % 16, (List.range 64).map (fun i => if wide then be16 l (2 * i) else l.getD i 0)) :: readDqt fuel (l.drop n)

/-- The tables of a DHT segment. -/
def readDht : Nat → List Nat → List (Nat × Huff)
  | 0, _ => []
  | _, [] => []
  | fuel + 1, p :: l =>
    let counts := (List.range 16).map (fun i => l.getD i 0)
    let n := counts.foldl (· + ·) 0
    (p / 16 % 2 * 4 + p % 4, ⟨counts, (l.drop 16).take n⟩) :: readDht fuel (l.drop (16 + n))

/-- The components of a frame header. -/
def readComps (n : Nat) (l : List Nat) : List JpegComp :=
  (List.range n).map (fun i =>
    { id := l.getD (3 * i) 0, hf := l.getD (3 * i + 1) 0 / 16, vf := l.getD (3 * i + 1) 0 % 16, tq := l.getD (3 * i + 2) 0, td := 0, ta := 0 })

/-- A frame header: its kind is accepted, or the file is none that DEC decodes. -/
def readFrame (m : Nat) (l : List Nat) (x : JpegHead) : Option JpegHead :=
  let prec := l.getD 0 0
  let n := l.getD 5 0
  let comps := readComps n (l.drop 6)
  if x.frame || !(prec == 8 || (m == 0xC1 && prec == 12)) || n < 1 || 4 < n || l.length < 6 + 3 * n ||
      !comps.all (fun c => (c.hf == 1 || c.hf == 2) && (c.vf == 1 || c.vf == 2)) then none
  else some { x with frame := true, prec := prec, h := be16 l 1, w := be16 l 3, comps := comps }

/-- A scan header: it must name every component of the frame, and tables that exist. -/
def readScan (l data : List Nat) (x : JpegHead) : JpegHead :=
  let n := l.getD 0 0
  let sel (c : JpegComp) := (List.range n).find? (fun i => l.getD (1 + 2 * i) 0 == c.id)
  let comps := x.comps.map (fun c => match sel c with
    | some i => { c with td := l.getD (2 + 2 * i) 0 / 16, ta := l.getD (2 + 2 * i) 0 % 16 }
    | none => c)
  let ok := n == x.comps.length && x.comps.all (fun c => (sel c).isSome) &&
    comps.all (fun c => x.quant.any (fun q => q.1 == c.tq) && x.huff.any (fun t => t.1 == c.td) && x.huff.any (fun t => t.1 == 4 + c.ta))
  { x with comps := comps, bad := !ok, data := data }

/-- Read marker segments up to the scan; `none` for a file that is no JPEG frame that DEC accepts. -/
def readMarkers : Nat → List Nat → JpegHead → Option JpegHead
  | 0, _, _ => none
  | fuel + 1, l, x =>
    let stop : Option JpegHead := if x.frame then some { x with bad := true } else none
    match l with
    | 0xFF :: 0xFF :: rest => readMarkers fuel (0xFF :: rest) x
    | 0xFF :: m :: rest =>
      let len := be16 rest 0
      let body := (rest.drop 2).take (len - 2)
      let more := rest.drop len
      if len < 2 || rest.length < len then stop
      else if m == 0xDB then readMarkers fuel more { x with quant := readDqt 16 body ++ x.quant }
      else if m == 0xC4 then readMarkers fuel more { x with huff := readDht 16 body ++ x.huff }
      else if m == 0xDD then readMarkers fuel more { x with restart := be16 body 0 }
      else if m == 0xC0 || m == 0xC1 then (match readFrame m body x with
        | some y => readMarkers fuel more y
        | none => stop)
      else if m == 0xDA then (if x.frame then some (readScan body more x) else none)
      else if (0xE0 ≤ m && m ≤ 0xEF) || m == 0xFE || m == 0xCC then readMarkers fuel more x
      else stop
    | _ => stop

/-- The headers of a JPEG file. -/
def readJpeg (l : List Nat) : Option JpegHead :=
  match l with
  | 0xFF :: 0xD8 :: rest => readMarkers l.length rest {}
  | _ => none

/-! ## Entropy-coded data -/

/-- The runs of data between restart markers, each with the marker that ends it (8 for any other end). -/
def jpegSegs : Bool → List Nat → List Nat → List (List Nat × Nat)
  | _, cur, [] => [(cur.reverse, 8)]
  | true, cur, b :: l =>
    if b = 0 then jpegSegs false (0xFF :: cur) l
    else if b = 0xFF then jpegSegs true cur l
    else if 0xD0 ≤ b && b ≤ 0xD7 then (cur.reverse, b - 0xD0) :: jpegSegs false [] l
    else [(cur.reverse, 8)]
  | false, cur, b :: l => if b = 0xFF then jpegSegs true cur l else jpegSegs false (b :: cur) l

/-- The bits of bytes, most significant first. -/
def msbBits (l : List Nat) : List Bool := l.flatMap (fun b => (List.range 8).map (fun i => bit b (7 - i)))

/-- The value of bits, most significant first. -/
def ofBits (l : List Bool) : Nat := l.foldl (fun n b => 2 * n + b2n b) 0

/-- Decode one symbol. -/
def huffGo : List Nat → List Nat → Nat → Nat → Nat → List Bool → Option (Nat × List Bool)
  | [], _, _, _, _, _ => none
  | _ :: _, _, _, _, _, [] => none
  | c :: cs, syms, code, first, index, b :: l =>
    let code := 2 * code + b2n b
    if code < first + c then some (syms.getD (index + (code - first)) 0, l)
    else huffGo cs syms code (2 * (first + c)) (index + c) l

/-- Decode one symbol with a table. -/
def huffSym (t : Huff) (l : List Bool) : Option (Nat × List Bool) := huffGo t.counts t.syms 0 0 0 l

/-- The value of `n` additional bits. -/
def extend (n : Nat) (l : List Bool) : Int :=
  let v := ofBits (l.take n)
  if n = 0 then 0 else if v < 2 ^ (n - 1) then (v : Int) - (2 ^ n - 1 : Nat) else v

/-- A block on its way: coefficients in zig-zag order, the bits left, the symbols counted, and how it ended. -/
structure BlockAcc where
  coefs : List (Nat × Int)
  bits : List Bool
  symbols : Nat
  fin : DecEnd
  deriving DecidableEq, Repr

/-- The AC coefficients of a block from index `k`. -/
def acGo (t : Huff) (budget : Nat) : Nat → Nat → BlockAcc → BlockAcc
  | 0, _, a => a
  | fuel + 1, k, a =>
    if 64 ≤ k then a
    else match huffSym t a.bits with
      | none => { a with fin := .cut }
      | some (rs, l) =>
        if !budgetOk budget a.symbols then { a with fin := .spent }
        else
          let a := { a with bits := l, symbols := a.symbols + 1 }
          let r := rs / 16
          let n := rs % 16
          if n = 0 then
            if r = 0 then a
            else if r = 15 then (if 64 ≤ k + 16 then { a with fin := .cut } else acGo t budget fuel (k + 16) a)
            else { a with fin := .cut }
          else if 64 ≤ k + r || l.length < n then { a with fin := .cut }
          else acGo t budget fuel (k + r + 1) { a with bits := l.drop n, coefs := (k + r, extend n l) :: a.coefs }

/-- One block: its DC difference, then its AC coefficients. -/
def readBlock (dc ac : Huff) (budget : Nat) (pred : Int) (bits : List Bool) (symbols : Nat) : BlockAcc :=
  let a : BlockAcc := { coefs := [], bits := bits, symbols := symbols, fin := .cut }
  match huffSym dc bits with
  | none => a
  | some (n, l) =>
    if !budgetOk budget symbols then { a with fin := .spent }
    else
      let a := { a with symbols := symbols + 1 }
      if 15 < n || l.length < n then a
      else acGo ac budget 64 1 { a with bits := l.drop n, coefs := [(0, pred + extend n l)], fin := .whole }

/-! ## The inverse transform (R441) -/

/-- Natural position of each zig-zag index. -/
def zigzag : List Nat :=
  [0, 1, 8, 16, 9, 2, 3, 10, 17, 24, 32, 25, 18, 11, 4, 5, 12, 19, 26, 33, 40, 48, 41, 34, 27, 20, 13, 6, 7, 14, 21, 28,
   35, 42, 49, 56, 57, 50, 43, 36, 29, 22, 15, 23, 30, 37, 44, 51, 58, 59, 52, 45, 38, 31, 39, 46, 53, 60, 61, 54, 47, 55, 62, 63]

/-- The integer nearest 2^12 × cos(k π / 16), for k from 0 to 8. -/
def cosTab : List Int := [4096, 4017, 3784, 3406, 2896, 2276, 1567, 799, 0]

/-- 2^12 × cos(k π / 16) for any k, rounded. -/
def cosAt (k : Nat) : Int :=
  let k := k % 32
  let k := if 16 < k then 32 - k else k
  if k ≤ 8 then cosTab.getD k 0 else -(cosTab.getD (16 - k) 0)

/-- A[x][u]. -/
def idctA (x u : Nat) : Int := if u = 0 then 2896 else cosAt ((2 * x + 1) * u)

/-- The samples of a block from its dequantised coefficients in natural order. -/
def idct (prec : Nat) (F : List Int) : List Nat :=
  let sum8 (g : Nat → Int) : Int := (List.range 8).foldl (fun t i => t + g i) 0
  let r := (List.range 64).map (fun k => sra (sum8 (fun u => idctA (k % 8) u * F.getD (k / 8 * 8 + u) 0) + 1024) 11)
  (List.range 64).map (fun k =>
    let v := sra (sum8 (fun v => idctA (k / 8) v * r.getD (v * 8 + k % 8) 0) + 16384) 15 + (2 ^ (prec - 1) : Nat)
    (min (2 ^ prec - 1 : Int) (max 0 v)).toNat)
where
  /-- Arithmetic shift. -/
  sra (x : Int) (n : Nat) : Int := fdiv x (2 ^ n : Nat)

/-- A block's coefficients, dequantised and in natural order. -/
def dequantBlock (q : List Nat) (coefs : List (Nat × Int)) : List Int :=
  (List.range 64).map (fun pos => match coefs.find? (fun c => zigzag.getD c.1 0 == pos) with
    | some c => c.2 * (q.getD c.1 0 : Nat)
    | none => 0)

/-! ## Pictures -/

/-- The decoding of a scan in progress. -/
structure ScanAcc where
  /-- Segments left, the first one without what has been read of it. -/
  segs : List (List Nat × Nat)
  bits : List Bool
  preds : List Int
  /-- Minimum coded units decoded. -/
  units : Nat
  symbols : Nat
  fin : DecEnd
  /-- Blocks: component, block row, block column, samples. -/
  blocks : List ((Nat × Nat × Nat) × List Nat)
  deriving DecidableEq, Repr

/-- The blocks of each minimum coded unit of a scan. -/
def JpegHead.mcus (x : JpegHead) : List (List (Nat × Nat × Nat)) :=
  match x.comps with
  | [_] => (List.range (ceilDiv x.h 8)).flatMap (fun y => (List.range (ceilDiv x.w 8)).map (fun c => [(0, y, c)]))
  | cs =>
    let hm := (cs.map (fun c => c.hf)).foldl max 1
    let vm := (cs.map (fun c => c.vf)).foldl max 1
    (List.range (ceilDiv x.h (8 * vm))).flatMap (fun my => (List.range (ceilDiv x.w (8 * hm))).map (fun mx =>
      cs.zipIdx.flatMap (fun c => (List.range c.1.vf).flatMap (fun v => (List.range c.1.hf).map (fun h => (c.2, my * c.1.vf + v, mx * c.1.hf + h))))))

/-- Decode one block of a scan. -/
def JpegHead.block (x : JpegHead) (budget : Nat) (a : ScanAcc) (b : Nat × Nat × Nat) : ScanAcc :=
  if a.fin != .whole then a
  else match x.comps[b.1]? with
    | none => a
    | some c =>
      let tab (k : Nat) : Huff := ((x.huff.find? (fun t => t.1 == k)).map (fun t => t.2)).getD ⟨[], []⟩
      let r := readBlock (tab c.td) (tab (4 + c.ta)) budget (a.preds.getD b.1 0) a.bits a.symbols
      let dc := ((r.coefs.find? (fun k => k.1 == 0)).map (fun k => k.2)).getD 0
      let q := ((x.quant.find? (fun t => t.1 == c.tq)).map (fun t => t.2)).getD []
      let a := { a with bits := r.bits, symbols := r.symbols, fin := r.fin }
      if r.fin != .whole then a
      else { a with preds := listSet a.preds b.1 dc, blocks := (b, idct x.prec (dequantBlock q r.coefs)) :: a.blocks }

/-- Decode one unit, past a restart marker where one stands before it. -/
def JpegHead.mcu (x : JpegHead) (budget : Nat) (a : ScanAcc) (u : List (Nat × Nat × Nat)) : ScanAcc :=
  if a.fin != .whole then a
  else
    let a := if x.restart != 0 && a.units != 0 && a.units % x.restart = 0 then
        match a.segs with
        | (_, m) :: (d, k) :: rest =>
          if m == (a.units / x.restart - 1) % 8 then
            { a with segs := (d, k) :: rest, bits := msbBits d, preds := [0, 0, 0, 0] }
          else { a with fin := .cut }
        | _ => { a with fin := .cut }
      else a
    { u.foldl (x.block budget) a with units := a.units + 1 }

/-- Decode the whole scan. -/
def JpegHead.decode (x : JpegHead) (budget : Nat) : ScanAcc :=
  let segs := jpegSegs false [] x.data
  x.mcus.foldl (x.mcu budget)
    { segs := segs, bits := msbBits ((segs.map (fun s => s.1)).headD []), preds := [0, 0, 0, 0], units := 0, symbols := 0, fin := .whole, blocks := [] }

/-- The sample of component `c` at a pixel: chroma is upsampled by replication, and blocks not decoded read the middle code. -/
def JpegHead.pixel (x : JpegHead) (blocks : List ((Nat × Nat × Nat) × List Nat)) (c row col : Nat) : Nat :=
  let hm := (x.comps.map (fun c => c.hf)).foldl max 1
  let vm := (x.comps.map (fun c => c.vf)).foldl max 1
  match x.comps[c]? with
  | none => 0
  | some k =>
    let y := row * k.vf / vm
    let z := col * k.hf / hm
    match blocks.find? (fun b => b.1 == (c, y / 8, z / 8)) with
    | some b => b.2.getD (y % 8 * 8 + z % 8) 0
    | none => 2 ^ (x.prec - 1)

/-- The colour conversion of R440 on one pixel. -/
def yccPixel (prec : Nat) (px : List Nat) : List Nat :=
  let m : Int := (2 ^ (prec - 1) : Nat)
  let y : Int := px.getD 0 0
  let cb : Int := (px.getD 1 0 : Nat) - m
  let cr : Int := (px.getD 2 0 : Nat) - m
  let sr (x : Int) : Int := fdiv x 65536
  [y + sr (91881 * cr + 32768), y - sr (22554 * cb + 46802 * cr + 32768), y + sr (116130 * cb + 32768)].map
    (fun v => (min (2 ^ prec - 1 : Int) (max 0 v)).toNat)

end Sys2Proof.Machine
end

