-- ==== Sys2Proof/Machine/Samples.lean ====
section
/-!
DEFINITION. Machine/Samples.lean: the samples of a table (R438, R439), the stripe codec (R443 to R445), ring slots (R442), the
checks, budgets and truncation of R446 to R448, and augmentation (R451 to R453).
-/
namespace Sys2Proof.Machine

/-! ## Sample entries (R437) -/

def entOff (l : List Nat) : Nat := leAt l 0 8
def entLen (l : List Nat) : Nat := leAt l 8 4
def entKind (l : List Nat) : Nat := leAt l 0xC 4 % 4
def entMember (l : List Nat) : Nat := bits (leAt l 0xC 4) 5 4
def entIndex (l : List Nat) : Nat := leAt l 0x10 4
def entLabel (l : List Nat) : Nat := leAt l 0x14 4

/-- The ROI of an entry in a picture: x0, y0, width, height; 0 stands for "to the edge" (R439). -/
def entRoi (l : List Nat) (w h : Nat) : Nat × Nat × Nat × Nat :=
  let x := leAt l 0x18 2
  let y := leAt l 0x1A 2
  let rw := leAt l 0x1C 2
  let rh := leAt l 0x1E 2
  (x, y, if rw = 0 then w - x else rw, if rh = 0 then h - y else rh)

/-- A picture before its ROI is taken: its size, and its decoding under a budget into codes by row, column and channel,
with the symbols counted and how it ended. -/
structure Picture where
  w : Nat
  h : Nat
  chans : Nat
  prec : Nat
  /-- Something after the dimensions makes it a sample that DEC does not accept. -/
  bad : Bool
  decode : Nat → (Nat → Nat → Nat → Nat) × Nat × DecEnd

/-! ## JPEG (R440) -/

/-- The picture of a JPEG file. -/
def jpegPicture (bs : List Nat) : Option Picture :=
  (readJpeg bs).map (fun x =>
    { w := x.w, h := x.h, chans := x.comps.length, prec := x.prec, bad := x.bad
      decode := fun budget =>
        let a := x.decode budget
        (fun r c k => x.pixel a.blocks k r c, a.symbols, a.fin) })

/-! ## Ring slots and the stripe codec (R442 to R445) -/

/-- The member that a sample of kind STRIPE or RAW_SLOT names: channels, width, sample bits, data offset and row bytes;
`none` where the header is none that DEC accepts. -/
def slotPick (bs : List Nat) (m : Nat) : Option (Nat × Nat × Nat × Nat × Nat) :=
  let b := 0x40 + m * 0x20
  let w0 := leAt bs b 4
  let ch := bits w0 7 4
  let code := bits w0 10 8
  if bs.length < 0x100 || leAt bs 0 1 != 1 || bits (leAt bs 0 4) 10 8 ≤ m || 4 < code || ch < 1 || 4 < ch then none
  else some (ch, leAt bs (b + 4) 2, sampleBits code, leAt bs (b + 8) 4, leAt bs (b + 12) 4)

/-- The picture of a ring slot (R442): rows that lie beyond the sample's bytes read the middle code. -/
def rawPicture (bs : List Nat) (m : Nat) : Option Picture :=
  (slotPick bs m).map (fun (ch, w, P, off, rb) =>
    let lines := leAt bs 0xC 4
    { w := w, h := lines, chans := ch, prec := P, bad := false
      decode := fun budget =>
        let n := lines * w * ch
        let have' := min lines ((bs.length - off) / max 1 rb)
        let rows := (List.range have').map (fun r => unpackSamples P (w * ch) ((bs.drop (off + r * rb)).take rb))
        let got := have' * w * ch
        (fun r c k => ((rows[r]?).map (fun x => x.getD (c * ch + k) 0)).getD (2 ^ (P - 1)),
         if budget = 0 then got else min budget got,
         if budget != 0 && budget < got then .spent else if got < n then .cut else .whole) })

/-- Median prediction of R444. -/
def predict (P r c : Nat) (a bb cc : Nat) : Nat :=
  if r = 0 && c = 0 then 2 ^ (P - 1)
  else if r = 0 then a
  else if c = 0 then bb
  else if max a bb ≤ cc then min a bb
  else if cc ≤ min a bb then max a bb
  else a + bb - cc

/-- A row of the stripe codec on its way. -/
structure CodedRow where
  pos : Nat
  k : Nat
  /-- Samples, latest first. -/
  out : List Nat
  symbols : Nat
  fin : DecEnd
  deriving DecidableEq, Repr

/-- Decode sample `i` of a row whose bits are `v`, `n` of them (R444, R445). -/
def codedSample (P ch budget r : Nat) (prev : List Nat) (v n : Nat) (a : CodedRow) (i : Nat) : CodedRow :=
  if a.fin != .whole then a
  else
    let head := i % 32 = 0
    let k := if head then bits (v >>> a.pos) 3 0 else a.k
    let pos := if head then a.pos + 4 else a.pos
    if n < pos || P < k then { a with fin := .cut }
    else
      let q := ((List.range 20).takeWhile (fun j => bit v (pos + j))).length
      let len := if q < 20 then q + 1 + k else 20 + P
      let z := if q < 20 then q * 2 ^ k + (v >>> (pos + q + 1)) % 2 ^ k else (v >>> (pos + 20)) % 2 ^ P
      if n < pos + len then { a with fin := .cut }
      else if !budgetOk budget a.symbols then { a with fin := .spent }
      else
        let c := i / ch
        let e : Int := if z % 2 = 0 then ((z / 2 : Nat) : Int) else -(((z + 1) / 2 : Nat) : Int)
        let pr := predict P r c (a.out.getD (ch - 1) 0) (prev.getD i 0) (if c = 0 then 0 else prev.getD (i - ch) 0)
        { pos := pos + len, k := k, out := toU P (pr + e) :: a.out, symbols := a.symbols + 1, fin := .whole }

/-- Decode the rows of a member in order: rows decoded, the symbols counted, and how it ended. -/
def codedRows (P ch w budget : Nat) (bs : List Nat) (table : List Nat) : List (List Nat) × Nat × DecEnd :=
  (List.range (table.length - 1)).foldl (fun (x : List (List Nat) × Nat × DecEnd) r =>
    if x.2.2 != .whole then x
    else
      let lo := table.getD r 0
      let row := (bs.drop lo).take (table.getD (r + 1) 0 - lo)
      let a := (List.range (w * ch)).foldl (codedSample P ch budget r ((x.1.getLast?).getD []) (ofLe row) (8 * row.length))
        { pos := 0, k := 0, out := [], symbols := x.2.1, fin := .whole }
      if a.fin = .whole then (x.1 ++ [a.out.reverse], a.symbols, .whole) else (x.1, a.symbols, a.fin)) ([], 0, .whole)

/-- The picture of an archived stripe (R443). -/
def stripePicture (bs : List Nat) (m : Nat) : Option Picture :=
  (slotPick bs m).bind (fun (ch, w, P, off, _) =>
    let lines := leAt bs 0xC 4
    let table := (List.range (lines + 1)).map (fun r => leAt bs (off + 4 * r) 4)
    let fits := off % 4 == 0 && off + 4 * (lines + 1) ≤ bs.length && leAt bs 0xE0 4 == 0x31435253 &&
      (List.range lines).all (fun r => table.getD r 0 < table.getD (r + 1) 0) && table.getD lines 0 ≤ bs.length
    if leAt bs 0xE0 4 != 0x31435253 then none
    else some {
      w := w, h := lines, chans := ch, prec := P, bad := !fits
      decode := fun budget =>
        let a := codedRows P ch w budget bs table
        (fun r c k => ((a.1[r]?).map (fun x => x.getD (c * ch + k) 0)).getD (2 ^ (P - 1)), a.2.1, a.2.2) })

/-! ## One sample (R446 to R448) -/

/-- A sample that is rejected. -/
def rejected (l : List Nat) (status symbols w h : Nat) : DecImage :=
  { entry := l, status := status, trunc := false, hit := false, symbols := symbols, w := w, h := h, chans := 0, prec := 8, codes := [] }

/-- Bytes of a code. -/
def codeBytes (prec : Nat) : Nat := if prec ≤ 8 then 1 else 2

/-- Does the header of a picture reject the sample (R446)? -/
def headerBad (l : List Nat) (resv w h chans prec : Nat) : Bool :=
  let (x, y, rw, rh) := entRoi l w h
  w == 0 || h == 0 || 16384 * 16384 < w * h || w < x + rw || h < y + rh || rw == 0 || rh == 0 || resv < rw * rh * chans * codeBytes prec

/-- Decode the sample of an entry from its bytes under a budget (R446 to R448). -/
def decodeSample (l bs : List Nat) (resv budget : Nat) : DecImage :=
  let pic := match entKind l with
    | 0 => jpegPicture bs
    | 1 => stripePicture bs (entMember l)
    | 2 => rawPicture bs (entMember l)
    | _ => none
  match pic with
  | none => rejected l 3 0 0 0
  | some p =>
    let (x, y, w, h) := entRoi l p.w p.h
    if headerBad l resv p.w p.h p.chans p.prec then rejected l 2 0 w h
    else if p.bad then rejected l 3 0 w h
    else
      let d := p.decode budget
      if d.2.2 = .spent then rejected l 1 budget w h
      else { entry := l, status := 0, trunc := d.2.2 == .cut, hit := false, symbols := d.2.1, w := w, h := h, chans := p.chans, prec := p.prec
             codes := (List.range h).flatMap (fun r => (List.range w).flatMap (fun c => (List.range p.chans).map (fun k => d.1 (y + r) (x + c) k))) }

/-! ## Augmentation (R451 to R453) -/

/-- U(w) of R451, exact. -/
def drawU (w : Nat) : Nat := f32Ratio (w / 256 : Nat) 24

/-- A draw in [lo, hi]. -/
def drawIn (w lo hi : Nat) : Nat := f32Add lo (f32Mul (drawU w) (f32Sub hi lo))

/-- A finite value in Q16.16, ties to even. -/
def toQ16 (x : Nat) : Int :=
  let m : Int := shrRne (fUnits x) 133 false
  if fNeg x then -m else m

/-- The floor of a finite value that is not negative. -/
def floorNat (x : Nat) : Nat := fUnits x / 2 ^ 149

/-- What the augmentation of one sample draws. -/
structure Augment where
  fh : Bool
  fv : Bool
  rk : Nat
  cw : Nat
  ch : Nat
  ox : Nat
  oy : Nat
  sx : Int
  sy : Int
  hx : Int
  hy : Int
  bri : Option Nat
  con : Option Nat
  gam : Option Nat
  sig : Option Nat
  deriving DecidableEq, Repr

/-- The draws of a sample (R451); `blk` is the augmentation block, empty for none. -/
def drawAugment (blk : List Nat) (index epoch seed w h : Nat) : Augment :=
  let on (k : Nat) : Bool := bit (leAt blk 0 4) k
  let f (o : Nat) : Nat := leAt blk o 4
  let d (k : Nat) := philox index epoch k 0 seed
  let fires (k o : Nat) : Bool := on k && (d k).1 / 2 ^ 16 < f o % 2 ^ 17
  let s := drawIn (d 3).1 (f 0x14) (f 0x18)
  let cw := if on 3 then max 1 (floorNat (f32Mul (f32OfInt (w : Nat)) s)) else w
  let ch := if on 3 then max 1 (floorNat (f32Mul (f32OfInt (h : Nat)) s)) else h
  let one (x : Nat) : Int := toQ16 (drawIn x (f32Sub f32One (f 0x1C)) (f32Add f32One (f 0x1C)))
  let sh (x : Nat) : Int := toQ16 (drawIn x (f32Neg (f 0x20)) (f 0x20))
  { fh := fires 0 0x8, fv := fires 1 0xC, rk := if fires 2 0x10 then 1 + (d 2).2.1 * 3 / 2 ^ 32 else 0
    cw := cw, ch := ch
    ox := if on 3 then (d 3).2.1 * (w - cw + 1) / 2 ^ 32 else 0
    oy := if on 3 then (d 3).2.2.1 * (h - ch + 1) / 2 ^ 32 else 0
    sx := if on 4 then one (d 4).1 else 65536, sy := if on 4 then one (d 4).2.2.2 else 65536
    hx := if on 4 then sh (d 4).2.1 else 0, hy := if on 4 then sh (d 4).2.2.1 else 0
    bri := if on 5 then some (drawIn (d 5).1 (f 0x24) (f 0x28)) else none
    con := if on 6 then some (drawIn (d 6).1 (f 0x2C) (f 0x30)) else none
    gam := if on 7 then some (drawIn (d 7).1 (f 0x34) (f 0x38)) else none
    sig := if on 8 then some (drawIn (d 8).1 (f 0x3C) (f 0x40)) else none }

/-- The source position (v, u) of an output position (R452). -/
def Augment.source (g : Augment) (Wo Ho y x : Nat) : Int × Int :=
  let sr (x : Int) : Int := fdiv x 65536
  let X : Int := (x * 65536 + 32768 : Nat) - (Wo * 32768 : Nat)
  let Y : Int := (y * 65536 + 32768 : Nat) - (Ho * 32768 : Nat)
  let X1 := sr (g.sx * X + g.hx * Y)
  let Y1 := sr (g.hy * X + g.sy * Y)
  let (X2, Y2) := match g.rk with
    | 0 => (X1, Y1)
    | 1 => (Y1, -X1)
    | 2 => (-X1, -Y1)
    | _ => (-Y1, X1)
  let X3 := if g.fh then -X2 else X2
  let Y3 := if g.fv then -Y2 else Y2
  let odd := g.rk % 2 == 1
  let zx : Nat := g.cw * 65536 / max 1 (if odd then Ho else Wo)
  let zy : Nat := g.ch * 65536 / max 1 (if odd then Wo else Ho)
  ((g.oy * 65536 + g.ch * 32768 : Nat) - 32768 + sr (Y3 * zy), (g.ox * 65536 + g.cw * 32768 : Nat) - 32768 + sr (X3 * zx))

/-- The photometric operations on a value (R453); `noise` gives the four words of this element's draw. -/
def Augment.photo (g : Augment) (noise : Nat × Nat × Nat × Nat) (t : Nat) : Nat :=
  let t := match g.bri with
    | some b => f32Add t b
    | none => t
  let t := match g.con with
    | some c => f32Add (f32Mul (f32Sub t 0x3F000000) c) 0x3F000000
    | none => t
  let t := match g.gam with
    | some gm =>
      let t := f32Min f32One (f32Max 0 t)
      let p := f32Mul t 0x43800000
      let i := min 255 (floorNat p)
      let a := powTab i gm
      f32Fma (f32Sub (powTab (i + 1) gm) a) (f32Sub p (f32OfInt (i : Nat))) a
    | none => t
  match g.sig with
  | some sg =>
    let sum : Int := (noise.1 + noise.2.1 + noise.2.2.1 + noise.2.2.2 : Nat) - (2 ^ 33 : Nat)
    f32Add t (f32Mul sg (f32Mul (f32Mul (f32OfInt sum) 0x2F800000) 0x3FDDB3D7))
  | none => t

/-- The value that DEC writes at (y, x) of channel `c` of a sample's output, before conversion; `px` gives the picture's codes. -/
def augmented (g : Augment) (px : Nat → Nat → Nat → Nat) (img : DecImage) (index epoch seed Wo Ho C y x c : Nat) : Nat :=
  let src := g.source Wo Ho y x
  let r := axisTaps src.1 (some img.h)
  let k := axisTaps src.2 (some img.w)
  let v (a b : Nat) : Nat := f32Div (f32OfInt (px a b c : Nat)) (f32OfInt (2 ^ img.prec - 1 : Nat))
  let t := bilinearFlt (v r.1 k.1) (v r.1 k.2.1) (v r.2.1 k.1) (v r.2.1 k.2.1) k.2.2 r.2.2
  let e := (y * Wo + x) * C + c
  g.photo (philox index epoch 8 (e + 1) seed) t

end Sys2Proof.Machine
end

