-- ==== Sys2Proof/Machine/Dec.lean ====
section
/-!
DEFINITION. Machine/Dec.lean: DEC_FETCH and DEC_COMMIT (R437, R438, R449, R450, R454) and the epoch cache (R455, R456).
-/
namespace Sys2Proof.Machine

def decPage : PageId := ⟨.dec, 0⟩

/-! ## The epoch cache (R455, R456) -/

/-- The device address of the cache slot of a sample index in a partition's region, and its bytes; `none` without a cache. -/
def State.cacheSlot (s : State) (p index : Nat) : Option (Nat × Nat) :=
  let n := s.get .DEC_CACHE_CFG_slots
  let size := s.get .DEC_CACHE_CFG_slot_kib * 1024
  if n = 0 then none else some (s.regionBase p + s.get .DEC_CACHE_BASE + index % n * size, size)

/-- An entry with its label zeroed. -/
def entryTag (l : List Nat) : List Nat := l.take 0x14 ++ [0, 0, 0, 0] ++ (l.drop 0x18).take 8

/-- The tag of a picture in its slot, with the number of the start that writes it (R456). -/
def cacheTag (d : DecImage) (job start : Nat) : List Nat :=
  let t := entryTag d.entry ++ leBytes 4 d.symbols ++ [b2n d.trunc, d.chans, d.prec, 0] ++ leBytes 2 d.w ++ leBytes 2 d.h ++ leBytes 2 job ++
    [0, 0] ++ leBytes 8 start
  t ++ List.replicate (64 - t.length) 0

/-- Byte of a tag that holds `valid`. -/
def tagValid : Nat := 0x27

/-- Was a tag written in the present start? Every start invalidates every slot (R456). -/
def State.tagNow (s : State) (t : List Nat) : Bool := leAt t 0x30 8 == s.mgt.resets % 2 ^ 64

/-- The picture that the cache holds for an entry (R455). -/
def State.cacheHit (s : State) (p : Nat) (l : List Nat) : Option DecImage :=
  (s.cacheSlot p (entIndex l)).bind (fun (a, size) =>
    let t := s.devRead a 64
    if t.getD tagValid 0 != 1 || !s.tagNow t || t.take 32 != entryTag l then none
    else
      let w := leAt t 0x28 2
      let h := leAt t 0x2A 2
      let ch := t.getD 0x25 0
      let P := t.getD 0x26 0
      let k := codeBytes P
      let bs := s.devRead (a + 64) (min (size - 64) (w * h * ch * k))
      some { entry := l, status := 0, trunc := t.getD 0x24 0 == 1, hit := true, symbols := leAt t 0x20 4, w := w, h := h, chans := ch, prec := P
             codes := (List.range (w * h * ch)).map (fun i => leAt bs (k * i) k) })

/-- Write a delivered picture into its slot, not yet valid (R456). -/
def State.cacheFill (s : State) (p job : Nat) (d : DecImage) : State :=
  match s.cacheSlot p (entIndex d.entry) with
  | none => s
  | some (a, size) =>
    let k := codeBytes d.prec
    if size < 64 + d.codes.length * k then s
    else (s.devWriteFor (some p) a (cacheTag d job s.mgt.resets)).devWriteFor (some p) (a + 64) (d.codes.flatMap (leBytes k))

/-- Set valid in the slots that still name a job's context and its fetch's entries (R456). -/
def State.cacheCommit (s : State) (p job : Nat) (entries : List (List Nat)) : State :=
  s.forEach entries (fun s l => match s.cacheSlot p (entIndex l) with
    | none => s
    | some (a, _) =>
      let t := s.devRead a 64
      if s.tagNow t && t.take 32 == entryTag l && leAt t 0x2C 2 == job then s.devWriteFor (some p) (a + tagValid) [1] else s)

/-- The BE partition. -/
def State.bePart (s : State) : Option Nat := (List.range 8).find? (fun p => s.partExists p && s.partIsBe p)

/-- Invalidate every slot of the cache (R456). -/
def State.cacheFlush (s : State) : State :=
  match s.bePart with
  | none => s
  | some p => s.forEach (List.range (s.get .DEC_CACHE_CFG_slots)) (fun s i => match s.cacheSlot p i with
    | none => s
    | some (a, _) => s.devWriteFor (some p) (a + tagValid) [0])

/-! ## DEC_FETCH (R438, R449) -/

/-- DEC in progress, changed. -/
def State.modDec (s : State) (x : DecFetch) (f : DecFetch → DecFetch) : State :=
  { s with dec := s.dec.map (fun y => if y.job == x.job && y.desc == x.desc then f y else y) }

/-- The engines that decode, as a mask. -/
def State.decBusy (s : State) : Nat := maskOf (s.dec.flatMap (fun x => x.running.map (fun r => r.2)))

/-- Free engines take the next slots, the lowest-numbered first (R449). -/
def State.giveSlots (s : State) : State :=
  s.forEach (List.range 32) (fun s k =>
    if bit s.decBusy k then s
    else match s.dec.find? (fun x => x.next < x.entries.length) with
      | none => s
      | some x =>
        if x.next < x.delivered + 64 then
          s.modDec x (fun x => { x with next := x.next + 1, running := x.running ++ [(x.next, k)] })
        else s)

/-- DEC takes a DEC_FETCH descriptor: the sample entries of its slots are those of this step (R438). -/
def State.decFetch (s : State) (p : Nat) : State :=
  match s.toIssue p 0x28 with
  | none => s
  | some (s, j, P, r, x) =>
    let d := P.descs.getD x.idx 0
    let e := s.envOf j P r x.idx
    let t := P.tensor (dIn0 d)
    let lines := (s.unitList e d).flatMap (fun l => runLines l.1 l.2)
    let keys := ((s.unitList e d).flatMap (fun r => s.badKeys r.1 r.2)).eraseDups
    let s := (s.forEach lines (fun s l => s.jobLine p false l)).forEach keys (fun s k => s.ueFound k false)
    if !keys.isEmpty then s.abortMem j.no x.idx
    else
      let B := dField d 0x38 15 0
      let N := min (s.listCount e t) t.H
      let entries := (List.range B).map (fun b => if N = 0 then none else some (s.listEntry e t ((e.step * B + b) % N)))
      let f : DecFetch := { part := p, job := j.no, desc := x.idx, entries := entries, next := 0, delivered := 0, running := [], decoded := [], status := [] }
      ({ s with dec := s.dec ++ [f] }).giveSlots

/-- The descriptor, plan and environment of a fetch. -/
def State.fetchEnv (s : State) (x : DecFetch) : Option (Job × Plan × StepRun × DescRun × Nat) :=
  match s.job x.job with
  | none => none
  | some j => match s.planOf j, j.run with
    | some P, some r => (r.descs.find? (fun y => y.idx == x.desc)).map (fun y => (j, P, r, y, P.descs.getD x.desc 0))
    | _, _ => none

/-- Decode the sample of one slot: the picture, the bytes that were read, and whether it looked into the cache (R446, R449, R455). -/
def State.decodeSlot (s : State) (p d : Nat) (l : List Nat) : DecImage × Option (Nat × Nat) × Bool :=
  let budget := dWord d 0x3C
  let resv := dWord d 0x40
  let cache := bit (dWord d 0x50) 1 && (s.cacheSlot p (entIndex l)).isSome
  match (if cache then s.cacheHit p l else none) with
  | some c =>
    if resv < c.w * c.h * c.chans * codeBytes c.prec then (rejected l 2 0 c.w c.h, none, true)
    else if budget != 0 && budget < c.symbols then ({ rejected l 1 budget c.w c.h with hit := true }, none, true)
    else (c, none, true)
  | none =>
    if s.regionSize p < entOff l + entLen l || entKind l == 3 then (rejected l 3 0 0 0, none, cache)
    else
      let a := s.regionBase p + entOff l
      (decodeSample l (s.devRead a (entLen l)) resv budget, some (a, entLen l), cache)

/-- An engine finishes decoding its slot (R447, R449). -/
def State.sampleDecoded (s : State) (k : Nat) : State :=
  match s.dec.find? (fun x => x.running.any (fun r => r.2 == k)) with
  | none => s
  | some x =>
    match x.running.find? (fun r => r.2 == k), s.fetchEnv x with
    | some (slot, _), some (j, _, _, _, d) =>
      match (x.entries.getD slot none) with
      | none => (s.modDec x (fun x => { x with running := x.running.filter (fun r => r.2 != k), decoded := x.decoded ++ [(slot, rejected [] 3 0 0 0)] })).giveSlots
      | some l =>
        let r := s.decodeSlot x.part d l
        let keys := match r.2.1 with
          | some (a, n) => s.badKeys a n
          | none => []
        let s := match r.2.1 with
          | some (a, n) => s.forEach (runLines a n) (fun s l => s.jobLine x.part false l)
          | none => s
        let s := s.forEach keys (fun s k => s.ueFound k false)
        if !keys.isEmpty then s.abortMem j.no x.desc
        else
          let s := if r.1.hit then s.count .DEC_CNT_HIT 0 0 1 else if r.2.2 then s.count .DEC_CNT_MISS 0 0 1 else s
          let s := if r.1.hit then s else (s.count .DEC_SYMBOLS 0 0 r.1.symbols).pmc 0x28 k r.1.symbols (some x.part)
          (s.modDec x (fun x => { x with running := x.running.filter (fun r => r.2 != k), decoded := x.decoded ++ [(slot, r.1)] })).giveSlots
    | _, _ => s

/-! ## Delivery (R450 to R454) -/

/-- Every row, column and channel of one sample's output. -/
def sampleCells (slot Ho Wo C : Nat) : List (Nat × Nat × Nat) :=
  (List.range Ho).flatMap (fun y => (List.range Wo).flatMap (fun x => (List.range C).map (fun c => (slot * Ho + y, x, c))))

/-- The codes that a sample writes (R452, R453), with magnitude and saturation. -/
def State.sampleCodes (e : Env) (d slot : Nat) (out : Tensor) (img : DecImage) : List (Cell × Nat × Bool) :=
  let Ho := dField d 0x38 31 16
  let cells := sampleCells slot Ho out.W out.C
  if img.status != 0 then cells.map (fun y => ((y, 0), 0, false))
  else
    let aug := dField d 0x30 63 0
    let index := entIndex img.entry
    let g := drawAugment (if aug = 0 then [] else e.plan.table (4 * aug + 3)) index e.epoch e.seed img.w img.h
    let ycc := bit (dWord d 0x50) 0 && img.chans == 3 && entKind img.entry == 0
    let raw (r c k : Nat) : Nat := img.codes.getD ((r * img.w + c) * img.chans + k) 0
    let px (r c k : Nat) : Nat := if ycc then (yccPixel img.prec [raw r c 0, raw r c 1, raw r c 2]).getD k 0 else raw r c k
    cells.map (fun y =>
      if img.chans ≤ y.2.2 then ((y, 0), 0, false)
      else
        let v := augmented g px img index e.epoch e.seed out.W Ho out.C (y.1 - slot * Ho) y.2.1 y.2.2
        let c := convertRes e out y.1 y.2.1 y.2.2 (.y v)
        ((y, c.1), c.2))

/-- The status entry of a sample (R454). -/
def statusEntry (img : DecImage) : List Nat :=
  leBytes 4 (entIndex img.entry) ++ leBytes 4 (img.status + b2n img.trunc * 2 ^ 8 + b2n img.hit * 2 ^ 9) ++ leBytes 4 img.symbols ++
  leBytes 2 (img.w % 65536) ++ leBytes 2 (img.h % 65536)

/-- The events and counts of a delivered sample (R454, R462). -/
def State.sampleEvents (s : State) (job slot : Nat) (img : DecImage) : State :=
  let detail := job + slot * 2 ^ 10
  let s := s.count .DEC_CNT_SAMPLES 0 0 1
  let s := match img.status with
    | 1 => (s.count .DEC_CNT_BUDGET 0 0 1).raise decPage 0 detail
    | 2 => (s.count .DEC_CNT_HEADER 0 0 1).raise decPage 1 detail
    | 3 => (s.count .DEC_CNT_FORMAT 0 0 1).raise decPage 2 detail
    | _ => s
  if img.trunc then (s.count .DEC_CNT_TRUNC 0 0 1).raise decPage 3 detail else s

/-- The next slot of a fetch in order is delivered, when it is decoded and its rows may be written (R198, R450, R456). -/
def State.deliver (s : State) (x : DecFetch) (img : DecImage) : State :=
  match s.fetchEnv x with
  | none => s
  | some (j, P, r, dr, d) =>
    let slot := x.delivered
    let e := s.envOf j P r x.desc
    if s.blocked e r x.desc slot then s
    else
      let out := P.tensor (dOut d)
      let codes := State.sampleCodes e d slot out img
      let s := s.putTile e out (codes.map (fun y => y.1))
      let s := if dAux d = 0 then s
        else s.putTile e (P.tensor (dAux d)) [((slot, 0, 0), if img.status = 0 then entLabel img.entry else 2 ^ 32 - 1)]
      let cache := bit (dWord d 0x50) 1
      let s := if cache && img.status == 0 && !img.hit then s.cacheFill x.part x.job img else s
      let st := if img.entry.isEmpty then
          leBytes 4 (freeStatus s.draws) ++ leBytes 4 3 ++ leBytes 4 0 ++ leBytes 4 (freeStatus (s.draws + 1))
        else if img.status = 3 && img.w = 0 then (statusEntry img).take 12 ++ leBytes 4 (freeStatus s.draws)
        else statusEntry img
      let s := { s with draws := s.draws + 2 }
      let s := s.sampleEvents x.job slot img
      let s := s.modDec x (fun x => { x with delivered := slot + 1, decoded := x.decoded.filter (fun y => y.1 != slot), status := x.status ++ [st] })
      (s.giveSlots).unitDone x.part x.job ({ dr with done := dr.done ++ [slot] }.track d codes)

/-- Is the next slot of a fetch decoded? -/
def DecFetch.readySlot (x : DecFetch) : Option DecImage :=
  if x.delivered < x.entries.length then (x.decoded.find? (fun y => y.1 == x.delivered)).map (fun y => y.2) else none

/-- The oldest fetch with a decoded slot to deliver delivers it (R450). -/
def State.sampleDelivered (s : State) : State :=
  match s.dec.find? (fun x => x.readySlot.isSome) with
  | none => s
  | some x => match x.readySlot with
    | some img => s.deliver x img
    | none => s

/-- DEC takes a DEC_COMMIT descriptor: the status list, and the cache's valid bits (R454, R456). -/
def State.decCommit (s : State) (p : Nat) : State :=
  match s.toIssue p 0x29 with
  | none => s
  | some (t, j, P, r, x) =>
    let d := P.descs.getD x.idx 0
    match t.dec.find? (fun y => y.job == j.no && y.desc == dField d 0x30 15 0) with
    | none => s
    | some f =>
      if f.delivered < f.entries.length then s
      else
        let e := t.envOf j P r x.idx
        let list := leBytes 4 f.status.length ++ List.replicate 28 0 ++ f.status.flatMap id
        let shown := leBytes 4 f.status.length ++ List.replicate 28 0 ++
          f.status.flatMap (fun l => l.take 4 ++ leBytes 4 (putBit (leAt l 4 4) 9 false) ++ l.drop 8)
        let t := t.putList e (P.tensor (dOut d)) list
        let t := if bit (dWord (P.descs.getD f.desc 0) 0x50) 1 then t.cacheCommit p j.no (f.entries.filterMap id) else t
        t.unitDone p j.no { x with assigned := x.units, done := [0], extra := shown }

/-- DEC_CACHE_CTRL.flush is written: every slot is invalidated and the bit clears (R456, R462). -/
def State.flushWrite (s : State) : State := s.cacheFlush

end Sys2Proof.Machine
end

