-- ==== Sys2Proof/Machine/Tick.lean ====
section
/-!
DEFINITION. Machine/Tick.lean: the passing of IOCLK ticks: what the counters sample on each of them (R531 to R535, R540), and
the running of the clock to the end of an interval.
-/
namespace Sys2Proof.Machine

/-! ## What there is to sample (R531) -/

/-- A contribution to an event: instance, partition it is attributed to, amount. -/
abbrev Share := Nat × Option Nat × Nat

/-- The tile threads of the clusters that run jobs: logical cluster, partition, and the tile. -/
def State.threads (s : State) : List (Nat × Nat × TileRun) :=
  (List.range 8).flatMap (fun p => (s.tilesOf p).map (fun t => ((s.partList p).getD t.pos 0, p, t)))

/-- Is a tile in WAIT_MEM (R166)? -/
def TileRun.waits (t : TileRun) : Bool := !t.reads.isEmpty || !t.left.isEmpty

/-- The occupancy events: what each instance holds now; `none` for an event of kind COUNT. -/
def State.occupancy (s : State) (code : Nat) : Option (List Share) :=
  match code with
  | 0x0B => some ((List.range 64).map (fun c =>
      (c, s.owner (capPage c), ((s.lnpCtx c).stripes.filter (fun x => !x.credit && !x.spilled)).length)))
  | 0x11 => some (s.threads.map (fun t => (t.1, some t.2.1, 1)))
  | 0x12 => some ((s.threads.filter (fun t => t.2.2.waits)).map (fun t => (t.1, some t.2.1, 1)))
  | 0x1A => some (s.attn.flatMap (fun a => a.units.filterMap (fun u => u.engine.map (fun k => (k, some a.part, 1)))))
  | 0x22 => some (s.threads.flatMap (fun t => t.2.2.reads.filterMap (fun l => (s.keyOf l.1).map (fun k => (k / 2 ^ 30, some t.2.1, 1)))))
  | 0x30 => some [(0, none, (s.trk.recs.filter (fun r => !r.span)).length)]
  | 0x32 => some [(0, none, s.queueUsed)]
  | _ => none

/-- The events of kind COUNT that occur on a tick by what is in progress then. -/
def State.perTick (s : State) (code : Nat) : List Share :=
  match code with
  | 0x08 => match s.lnp.busy with
    | some b => [(b.ctx, s.owner (lnpPage b.ctx), 1)]
    | none => []
  | 0x13 => ((s.threads.filter (fun t => !t.2.2.waits)).map (fun t => (t.1, some t.2.1, 1))).eraseDups
  | 0x18 => match s.fwn with
    | x :: _ => [(0, some x.part, 1)]
    | [] => []
  | _ => []

/-- The part of an event that counter `n` takes (R531, R533). -/
def State.pmcShare (s : State) (n code : Nat) (l : List Share) : Nat :=
  (l.filter (fun x =>
    (pmcNoInstance.contains code || s.isOn .PMC_CNT_SEL_inst_any 0 n || s.get .PMC_CNT_SEL_instance 0 n == x.1) &&
    (!s.isOn .PMC_CNT_SEL_part_en 0 n || x.2.1 == some (s.get .PMC_CNT_SEL_part 0 n)))).foldl (fun t x => t + x.2.2) 0

/-- What counter `n` adds on each tick while nothing changes, and the occupancy it samples. -/
def State.pmcRate (s : State) (n : Nat) : Nat × Option Nat :=
  if !s.isOn .PMC_CNT_SEL_enable 0 n || s.pmcChained n then (0, none)
  else
    let code := s.get .PMC_CNT_SEL_event 0 n
    let mode := s.get .PMC_CNT_SEL_mode 0 n
    match s.occupancy code with
    | some l =>
      let v := s.pmcShare n code l
      (if mode = 1 then v else if mode = 2 && s.get .PMC_CNT_THR_thr 0 n ≤ v then 1 else 0, some v)
    | none => (if mode != 0 then 0 else if code = 1 then 1 else s.pmcShare n code (s.perTick code), none)

/-- The crossing detector of counter `n` sees an occupancy (R534). -/
def State.pmcDetect (s : State) (n v : Nat) : State :=
  let thr := s.get .PMC_CNT_THR_thr 0 n
  if thr = 0 then s
  else if v < thr then s.set .PMCX_DISARMED 0 n 0
  else if s.isOn .PMCX_DISARMED 0 n then s
  else
    let s := (s.set .PMCX_DISARMED 0 n 1).set .PMC_XING 0 0 (putBit (s.get .PMC_XING) n true)
    if s.isOn .PMC_CNT_SEL_xing_irq 0 n then s.raise ⟨.pmc, 0⟩ 1 n else s

/-- Counter `n` over `k` ticks. -/
def State.pmcTicks (s : State) (k n : Nat) : State :=
  let r := s.pmcRate n
  let s := if r.1 = 0 then s else s.pmcAdd n (k * r.1)
  match r.2 with
  | none => s
  | some v =>
    let s := if s.get .PMC_CNT_SEL_mode 0 n = 0 && v != s.get .PMCX_LAST 0 n then s.pmcAdd n 1 else s
    (s.set .PMCX_LAST 0 n v).pmcDetect n v

/-- The counters of a CLU page over `k` ticks (R540). -/
def State.pmcCluTicks (s : State) (k phys : Nat) : State :=
  match s.logicalOf phys with
  | none => s
  | some lg =>
    s.forEach (List.range 4) (fun s c =>
      if !s.isOn .CLU_PMC_SEL_enable phys c then s
      else
        let code := s.get .CLU_PMC_SEL_event phys c
        let mode := s.get .CLU_PMC_SEL_mode phys c
        let mine (l : List Share) : Nat := (l.filter (fun x => x.1 == lg)).foldl (fun t x => t + x.2.2) 0
        let add (s : State) (amt : Nat) : State :=
          let v := s.get .CLU_PMC_CNT phys c + amt
          let s := s.set .CLU_PMC_CNT phys c v
          if v < 2 ^ 32 then s else s.raise ⟨.clu, phys⟩ 4 c
        if code = 0x11 || code = 0x12 then
          let v := mine ((s.occupancy code).getD [])
          let s := if mode = 1 then add s (k * v) else if mode = 0 && v != s.get .CLUX_PMC_LAST phys c then add s 1 else s
          s.set .CLUX_PMC_LAST phys c v
        else if code = 0x13 && mode = 0 then add s (k * mine (s.perTick code))
        else s)

/-- Every counter over `k` ticks during which nothing else happens (R536). -/
def State.pmcSample (s : State) (k : Nat) : State :=
  if k = 0 || s.isOn .PMC_CTRL_frozen || s.isOn .MGTX_STOPPED then s
  else (s.forEach (List.range 32) (fun s n => s.pmcTicks k n)).forEach (List.range 72) (fun s c => s.pmcCluTicks k c)

/-! ## Running the clock -/

/-- `k` IOCLK ticks pass: the counters count them and the device time advances. -/
def State.runTicks (s : State) (k : Nat) : State := if k = 0 then s else (s.pmcSample k).pass k

/-- The clock runs to a tick; one that has passed changes nothing. -/
def State.runTo (s : State) (tick : Nat) : State := s.runTicks (tick - s.tick)

/-- The clock runs to the first tick whose time is at or after a device time. -/
def State.runToTime (s : State) (sec ns : Nat) : State := s.runTicks (s.ticksTo sec ns)

/-- The clock runs to a device time in nanoseconds. -/
def State.runToNs (s : State) (t : Nat) : State := s.runToTime (t / 10 ^ 9) (t % 10 ^ 9)

end Sys2Proof.Machine
end

