-- ==== Sys2Proof/Machine/Enc.lean ====
section
/-!
DEFINITION. Machine/Enc.lean: the encoder ports: enable, incremental edges, index latches, absolute frames, sine and cosine samples
(R325 to R334), speed windows and the belt speed (R335, R369), the choice of the belt port (R336 to R339), and the retirement of
a port (R340).
-/
namespace Sys2Proof.Machine

/-- The page of encoder port `e`. -/
def encPage (e : Nat) : PageId := ⟨.enc, e⟩

/-- Is a port enabled? -/
def State.encOn (s : State) (e : Nat) : Bool := s.isOn (.CTRL_enable .enc) e

/-- Is a port retired (R340)? -/
def State.encGone (s : State) (e : Nat) : Bool := s.isOn (.STATUS_retired .enc) e

/-- Does a port take new counts and requests: enabled, not quiesced (R47), and not retired (R340)? -/
def State.encLive (s : State) (e : Nat) : Bool := s.encOn e && !s.isOn (.CTRL_quiesce .enc) e && !s.encGone e

/-- Why an enable of a port is refused (R325). -/
def State.encRefused (s : State) (e : Nat) : Bool :=
  let out (f : Fld) (lo hi : Nat) : Bool := s.get f e < lo || hi < s.get f e
  out .ENC_CFG_mode 0 2 || out .ENC_CFG_fault_n 1 255 || out .ENC_ABS_bits 8 48 || out .ENC_ABS_CLK_div 40 4000 || out .ENC_ABS_REQ_tm_us 1 255 ||
  out .ENC_SC_k 2 10 || out .ENC_SC_nominal 1 8191 || s.get .ENC_SC_WIN_hi e ≤ s.get .ENC_SC_WIN_lo e

/-- Enable a port (R325, R326, R335). -/
def State.encEnable (s : State) (fn e : Nat) : State :=
  if s.encOn e then s
  else if s.encRefused e then s.code (encPage e) fn 0x8 0x92
  else
    let p := toU 64 (sext 48 (s.get .ENC_PRESET e))
    let w := s.get .ENC_SPEED_CFG_window_us e
    let s := ((s.set (.CTRL_enable .enc) e 0 1).set .ENC_RAW e 0 p).set .ENC_POS e 0 p
    let s := s.clearFlds e [.ENC_STATUS_dir, .ENC_STATUS_held, .ENC_STATUS_sc_out, .ENCX_AVALID, .ENCX_WVALID, .ENCX_RUN, .ENCX_COUNT, .ENCX_WIDX,
      .ENCX_BUSY, .ENCX_LAST]
    (s.set .ENCX_WLEN e 0 w).set .ENCX_WEND e 0 (s.tick + 400 * w)

/-! ## Retirement (R337, R338, R340, R384) -/

/-- May the backup take over (R337)? -/
def State.backupReady (s : State) : Bool :=
  s.isOn .ENC_SEL_backup_en && !s.isOn .ENC_SEL_on_backup && s.encOn (s.get .ENC_SEL_backup) &&
  !s.encGone (s.get .ENC_SEL_backup)

/-- The active port is gone: the belt position goes over to the backup, or is lost (R337, R338). -/
def State.activeGone (s : State) : State :=
  if !s.isOn .ENC_SEL_belt_ok then s
  else if s.backupReady then (((s.set .ENC_SEL_on_backup 0 0 1).raise (encPage 0) 8).trkBackup).capPosition
  else
    let p := s.beltPos
    (((s.set .ENC_BELT_POS 0 0 (toU 64 p)).set .ENC_SEL_belt_ok 0 0 0).raise (encPage 0) 9).beltAbandon

/-- A port is permanent (R340). -/
def State.encRetire (s : State) (e : Nat) : State :=
  let active := s.activePort
  let s := ((s.set (.STATUS_retired .enc) e 0 1).raise (encPage e) 4).channelRetired 3 e
  if active = e then s.activeGone else s

/-- An upset of a port (R327, R340, R502). -/
def State.encUpset (s : State) (e : Nat) : State :=
  if s.encGone e then s
  else
    let r := s.addUpset 3 e
    if r.2 then r.1.encRetire e else r.1

/-! ## Counts (R326, R333, R336, R337) -/

/-- A port takes raw counts on one tick; the delta to the backup follows the belt port, and CAP the belt position. -/
def State.encTaken (s : State) (e : Nat) (delta : Int) : State :=
  let s := s.encCounts e delta
  let s := if e = s.get .ENC_SEL_belt && !s.isOn .ENC_SEL_on_backup && s.isOn .ENC_SEL_belt_ok then
      (s.set .ENC_BACKUP_DELTA 0 0 (toU 64 (s.encPos e - s.encPos (s.get .ENC_SEL_backup)))).set .ENCX_DELTA_SET 0 0 1
    else s
  if e = s.activePort && s.isOn .ENC_SEL_belt_ok then s.capPosition else s

/-! ## Incremental inputs (R327, R334) -/

/-- Place of a state of A and B in the order of rising counts. -/
def quadIndex (a b : Bool) : Nat := if a then (if b then 2 else 1) else if b then 3 else 0

/-- Accepted levels of A and B (R327). -/
def State.encEdge (s : State) (e : Nat) (a b : Bool) : State :=
  let old := s.get .ENC_STATUS_abz e
  let s := s.set .ENC_STATUS_abz e 0 (b2n a + 2 * b2n b + old / 4 * 4)
  if !s.encLive e || s.get .ENC_CFG_mode e != 0 then s
  else match (quadIndex a b + 4 - quadIndex (bit old 0) (bit old 1)) % 4 with
    | 0 => s
    | 1 => s.encTaken e 1
    | 3 => s.encTaken e (-1)
    | _ => ((s.count .ENC_CNT_QUAD e 0 1).raise (encPage e) 1).encUpset e

/-- An accepted level of Z; a rising edge may be an index event (R334, R347). -/
def State.encIndex (s : State) (e : Nat) (high : Bool) : State :=
  let old := s.get .ENC_STATUS_abz e
  let s := s.set .ENC_STATUS_abz e 0 (old % 4 + 4 * b2n high)
  let gate := !s.isOn .ENC_CFG_z_gate e || old % 4 == 3
  if !s.encLive e || s.get .ENC_CFG_mode e != 0 || !high || bit old 2 || !gate then s
  else
    let s := s.set .ENC_IDX_PREV_RAW e 0 (s.get .ENC_IDX_RAW e)
    let s := (s.set .ENC_IDX_RAW e 0 (s.get .ENC_RAW e)).set .ENC_IDX_POS e 0 (s.get .ENC_POS e)
    let s := (s.set .ENC_IDX_SEC e 0 s.sec).set .ENC_IDX_NS e 0 s.ns
    let s := (s.countWrap .ENC_IDX_SEQ e 0 1).raise (encPage e) 0
    s.timCapture 4 e true s.sec s.ns s.beltPos

/-! ## Good and bad samples (R340) -/

/-- A bad frame or sample. -/
def State.encBad (s : State) (e : Nat) : State :=
  let n := s.get .ENCX_RUN e + 1
  let s := (s.count .ENC_CNT_BAD e 0 1).set .ENCX_RUN e 0 n
  let s := if n = 1 then (s.raise (encPage e) 2).encUpset e else s
  if s.get .ENC_CFG_fault_n e < n && !s.encGone e then s.encRetire e else s

/-! ## Absolute frames (R328 to R330) -/

/-- The CRC register after bits (R329). -/
def absCrc (l : List Bool) : Nat :=
  l.foldl (fun r b => if bit r 5 != b then (2 * r) % 64 ^^^ 3 else (2 * r) % 64) 0

/-- The value of bits, most significant first. -/
def bitsVal (l : List Bool) : Nat := l.foldl (fun n b => 2 * n + b2n b) 0

/-- A Gray word in binary (R329). -/
def grayDecode (l : List Bool) : List Bool := (l.foldl (fun (a : List Bool × Bool) b => (a.1 ++ [a.2 != b], a.2 != b)) ([], false)).1

/-- The data word and the status bits of a frame's samples, numbered from 1; `none` for a bad frame. -/
def State.absFrame (s : State) (e : Nat) (samples : List Bool) : Option (List Bool × List Bool) :=
  match (samples.take (s.get .ENC_ABS_wait_max e + 1)).findIdx? id with
  | none => none
  | some i =>
    let at' (k n : Nat) : List Bool := (List.range n).map (fun j => samples.getD (i + 1 + k + j) false)
    let n := s.get .ENC_ABS_bits e
    let m := s.get .ENC_ABS_status_bits e
    if s.isOn .ENC_ABS_crc e && bitsVal (at' (n + m) 6) != 63 - absCrc (at' 0 (n + m)) then none
    else some (at' 0 n, at' n m)

/-- A frame's last sample is taken (R329, R330, R340). -/
def State.absComplete (s : State) (e : Nat) (samples : List Bool) : State :=
  if s.get .ENC_CFG_mode e != 1 || !s.isOn .ENCX_BUSY e then s
  else
    let s := (s.set .ENCX_BUSY e 0 0).set .ENCX_LAST e 0 (s.tick + 1)
    if s.encGone e then s
    else match s.absFrame e samples with
      | none => s.encBad e
      | some (d, st) =>
        let n := s.get .ENC_ABS_bits e
        let w := bitsVal (if s.isOn .ENC_ABS_gray e then grayDecode d else d)
        let first := !s.isOn .ENCX_WVALID e
        let prev := s.get .ENCX_WPREV e
        let s := s.set .ENC_STATUS_abs_stat e 0 (bitsVal st)
        let s := ((s.set .ENCX_RUN e 0 0).set .ENCX_WVALID e 0 1).set .ENCX_WPREV e 0 w
        if first then
          let s := (s.set .ENC_RAW e 0 (toU 64 (sext n w))).set .ENC_POS e 0 (toU 64 (sext n w))
          s.encTaken e 0
        else s.encTaken e (sext n ((w + 2 ^ n - prev) % 2 ^ n))

/-! ## Sine and cosine samples (R331, R332) -/

/-- Is an angle in [0, pi)? -/
def upperHalf (sn cs : Int) : Bool := 0 < sn || (sn = 0 && 0 < cs)

/-- Where an angle stands against the odd multiple `j` of 2 pi / 2^(k+1): beyond it 2, on it 1, before it 0. -/
def angleVs (k j : Nat) (sn cs : Int) : Nat :=
  let i := (2 * j + 1) * 2 ^ (13 - k)
  let b := cosSin i
  let up := i < 8192
  if upperHalf sn cs != up then (if up then 2 else 0)
  else
    let x : Int := if k = 2 then
        (if i = 2048 then sn - cs else if i = 6144 then -sn - cs else if i = 10240 then cs - sn else sn + cs)
      else b.1 * sn - b.2 * cs
    if 0 < x then 2 else if x = 0 then 1 else 0

/-- The angle code of signed codes (R331): round half even, modulo 2^k. -/
def angleCode (k : Nat) (sn cs : Int) : Nat :=
  let pos := (List.range (2 ^ k)).map (fun j => (j, angleVs k j sn cs))
  let below := (pos.filter (fun x => x.2 == 2)).length
  match pos.find? (fun x => x.2 == 1) with
  | some (j, _) => (if j % 2 = 0 then j else j + 1) % 2 ^ k
  | none => below % 2 ^ k

/-- A conversion's counts are ready (R331, R332, R340). -/
def State.scSample (s : State) (e : Nat) (sn cs : Int) : State :=
  if s.get .ENC_CFG_mode e != 2 || !s.isOn .ENCX_BUSY e then s
  else
    let s := (s.runTo (s.get .ENCX_LAST e - 1 + 176)).set .ENCX_BUSY e 0 0
    let s := (s.set .ENC_SC_LAST_s e 0 (toU 14 sn)).set .ENC_SC_LAST_c e 0 (toU 14 cs)
    if s.encGone e then s
    else
      let x := sext 14 (toU 14 sn) - sext 14 (s.get .ENC_SC_OFF_off_s e)
      let y := sext 14 (toU 14 cs) - sext 14 (s.get .ENC_SC_OFF_off_c e)
      let A : Int := s.get .ENC_SC_nominal e
      let m := 100 * (x * x + y * y)
      if m < (s.get .ENC_SC_WIN_lo e : Int) * (A * A) || (s.get .ENC_SC_WIN_hi e : Int) * (A * A) < m then
        (s.set .ENC_STATUS_sc_out e 0 1).encBad e
      else
        let k := s.get .ENC_SC_k e
        let a := if x = 0 && y = 0 then freeAngle s.draws % 2 ^ k else angleCode k x y
        let s := { s with draws := s.draws + 1 }
        let s := (s.set .ENC_STATUS_sc_out e 0 0).set .ENCX_RUN e 0 0
        let first := !s.isOn .ENCX_AVALID e
        let prev := s.get .ENCX_APREV e
        let s := (s.set .ENCX_AVALID e 0 1).set .ENCX_APREV e 0 a
        s.encTaken e (if first then 0 else sext k ((a + 2 ^ k - prev) % 2 ^ k))

/-- A compare match asks a port for a frame or a conversion (R330, R331). -/
def State.encRequest (s : State) (e unit : Nat) : State :=
  if !s.encLive e then s
  else
    let mode := s.get .ENC_CFG_mode e
    let last := s.get .ENCX_LAST e
    let since := s.tick + 1 - last
    if mode = 1 && s.get .ENC_ABS_REQ_cmp e = unit then
      if s.isOn .ENCX_BUSY e || (last != 0 && since < 400 * s.get .ENC_ABS_REQ_tm_us e) then (s.count .ENC_CNT_REQ_SKIP e 0 1).raise (encPage e) 3
      else s.set .ENCX_BUSY e 0 1
    else if mode = 2 && s.get .ENC_SC_cmp e = unit then
      if last != 0 && since < 200 then (s.count .ENC_CNT_REQ_SKIP e 0 1).raise (encPage e) 3
      else (s.set .ENCX_BUSY e 0 1).set .ENCX_LAST e 0 (s.tick + 1)
    else s

/-! ## Speed (R335, R369) -/

/-- A quotient of integers rounded once to binary32. -/
def f32Quot (n : Int) (d : Nat) : Nat :=
  let m := n.natAbs * 2 ^ 64
  let q := m / max 1 d
  f32Pack (n < 0) (4 * q + (if m % max 1 d = 0 then 0 else 1)) (-66)

/-- EJT takes the speed of the active port's window (R369). -/
def State.ejtSpeed (s : State) (rate : Nat) : State :=
  let lo := s.get .EJT_SPEED_MIN
  let hi := s.get .EJT_SPEED_MAX
  let out := f32Lt rate lo || f32Lt hi rate
  let v := if s.isOn .EJT_SPEED_CFG_pin then s.get .EJT_SPEED_FIX else f32Min (f32Max rate lo) hi
  let was := s.isOn .EJTX_BOUND
  let s := (s.set .EJT_SPEED_USED 0 0 v).set .EJTX_BOUND 0 0 (b2n out)
  let s := if out && !was then s.raise ⟨.ejt, 0⟩ 1 else s
  s.reserveAll

/-- A speed window of a port ends. -/
def State.speedEnd (s : State) (e : Nat) : State :=
  if !s.encOn e then s
  else
    let s := s.runTo (s.get .ENCX_WEND e)
    let n := sext 64 (s.get .ENCX_COUNT e)
    let rate := f32Quot (n * 1000000) (s.get .ENCX_WLEN e)
    let w := s.get .ENC_SPEED_CFG_window_us e
    let s := ((s.set .ENC_SPEED_CNT e 0 (toU 32 n)).set .ENC_SPEED_WIN e 0 (s.get .ENCX_WIDX e)).set .ENC_SPEED_RATE e 0 rate
    let s := ((s.set .ENCX_WIDX e 0 (s.get .ENCX_WIDX e + 1)).set .ENCX_COUNT e 0 0).set .ENCX_WLEN e 0 w
    let s := s.set .ENCX_WEND e 0 (s.get .ENCX_WEND e + 400 * w)
    if e = s.activePort then s.ejtSpeed rate else s

/-! ## The belt port (R339) -/

/-- Does an enabled CAP context take a camera in ENCODER mode? -/
def State.encoderCapture (s : State) : Bool :=
  (List.range 64).any (fun c => (s.capCtx c).running && (s.capCtx c).kind ≤ 1 && (s.capCtx c).mode == 1)

/-- A write of ENC_SEL. -/
def State.encSelect (s : State) (fn belt backup : Nat) (en : Bool) : State :=
  if s.encoderCapture || s.isOn (.CTRL_enable .ejt) || (en && backup = belt) then s.code (encPage 0) fn 0x200 0x91
  else
    let s := ((s.set .ENC_SEL_belt 0 0 belt).set .ENC_SEL_backup 0 0 backup).set .ENC_SEL_backup_en 0 0 (b2n en)
    ((s.set .ENC_SEL_on_backup 0 0 0).set .ENC_SEL_belt_ok 0 0 1).set .ENCX_DELTA_SET 0 0 0

end Sys2Proof.Machine
end

