-- ==== Sys2Proof/Machine/Clock.lean ====
section
/-!
DEFINITION. Machine/Clock.lean: compare units and their consumers (R345, R346), setting and adjusting the device time (R342), the PPS
input (R342, R347), the loss of the reference (R343), and the tick that passes when nothing is commanded.
-/
namespace Sys2Proof.Machine

/-- The page of TIM. -/
def timPage : PageId := ⟨.tim, 0⟩

/-- The device time in nanoseconds, without its fraction. -/
def State.timeNs (s : State) : Nat := s.sec * 10 ^ 9 + s.ns

/-! ## Compare units -/

/-- The target of a compare unit in nanoseconds. -/
def State.cmpTarget (s : State) (n : Nat) : Nat := s.get .TIM_CMP_NEXT_SEC 0 n * 10 ^ 9 + s.get .TIM_CMP_NEXT_NS 0 n

/-- A compare unit with a new target, modulo 2^64 seconds. -/
def State.setTarget (s : State) (n t : Nat) : State :=
  (s.set .TIM_CMP_NEXT_SEC 0 n (t / 10 ^ 9)).set .TIM_CMP_NEXT_NS 0 n (t % 10 ^ 9)

/-- Arm a compare unit (R346): a rise of `arm` loads the target. -/
def State.cmpArm (s : State) (n : Nat) : State :=
  if s.isOn .TIM_CMP_CTRL_arm 0 n then s
  else ((s.set .TIM_CMP_NEXT_SEC 0 n (s.get .TIM_CMP_SEC 0 n)).set .TIM_CMP_NEXT_NS 0 n (s.get .TIM_CMP_NS 0 n)).set .TIM_CMP_CTRL_arm 0 n 1

/-- A compare unit goes on after a match (R345): a one-shot unit disarms; a periodic one moves its target past the tick time, and
each addition after the first is a skip. -/
def State.cmpAdvance (s : State) (n : Nat) : State :=
  let p := s.get .TIM_CMP_PER 0 n
  let t := s.cmpTarget n
  if p = 0 then s.set .TIM_CMP_CTRL_arm 0 n 0
  else
    let k := (s.timeNs - t) / p + 1
    let s := s.setTarget n (t + k * p)
    if k = 1 then s else (s.count .TIM_CMP_CTRL_skips 0 n (k - 1)).raise timPage 3

/-- What names a compare unit and acts at its match (R99, R330, R331, R346, R536); during a stop only TIM runs (R525). -/
def State.cmpServe (s : State) (n : Nat) : State :=
  let s := if s.isOn .TIM_CMP_CTRL_irq 0 n then s.raise timPage (15 + n) else s
  if s.isOn .MGTX_STOPPED then s
  else
    let s := s.forEach (List.range 4) (fun s e => s.encRequest e n)
    let s := s.capTimeTrigger n
    if s.isOn .PMC_FRZ_SRC_cmp_en && s.get .PMC_FRZ_SRC_cmp == n then s.pmcFreezeNow else s

/-- A compare unit matches if it is armed and the tick time has reached its target (R345). -/
def State.cmpFire (s : State) (n : Nat) : State :=
  if s.isOn .TIM_CMP_CTRL_arm 0 n && s.cmpTarget n ≤ s.timeNs then (s.cmpAdvance n).cmpServe n else s

/-- Every compare unit whose target the time has reached matches. -/
def State.cmpDue (s : State) : State := s.forEach (List.range 16) (fun s n => s.cmpFire n)

/-- The clock runs to the target of an armed compare unit, which matches (R345). -/
def State.cmpMatch (s : State) (n : Nat) : State :=
  if s.isOn .TIM_CMP_CTRL_arm 0 n then (s.runToTime (s.get .TIM_CMP_NEXT_SEC 0 n) (s.get .TIM_CMP_NEXT_NS 0 n)).cmpFire n else s

/-- One IOCLK tick passes. -/
def State.tickOne (s : State) : State := (s.runTicks 1).cmpDue

/-! ## Setting the time (R342) -/

/-- TIM_SET_SEC and TIM_SET_NS become the time. -/
def State.timeLoad (s : State) : State :=
  ({ s with sec := s.get .TIM_SET_SEC, ns := s.get .TIM_SET_NS, frac := 0 }).raise timPage 1

/-- A write of the TIM_SET word: `at`, then `cancel`, then `go`. -/
def State.timeSet (s : State) (fn v : Nat) : State :=
  let waits := s.isOn .TIM_SET_go
  let at' := bits v 5 4
  let s := if at' = s.get .TIM_SET_at || !Fld.TIM_SET_at.accepts at' then s
    else if waits then s.code timPage fn 0x124 0x9B
    else s.set .TIM_SET_at 0 0 at'
  let s := if bit v 1 then s.set .TIM_SET_go 0 0 0 else s
  if !bit v 0 || waits then s
  else if s.isOn .TIM_SET_at then s.set .TIM_SET_go 0 0 1
  else s.timeLoad.cmpDue

/-- A write of TIM_ADJ. -/
def State.timeAdjust (s : State) (fn v : Nat) : State :=
  let d := sext 32 v
  if 999999999 < d.natAbs then s.code timPage fn 0x128 0x9A
  else
    let t := (s.timeNs : Int) + d
    if t < 0 then ({ s with sec := 0, ns := 0, frac := 0 }).code timPage fn 0x128 0x9C |>.cmpDue
    else ({ s with sec := t.toNat / 10 ^ 9 % 2 ^ 64, ns := t.toNat % 10 ^ 9 }).cmpDue

/-- A write of TIM_SET_SEC or TIM_SET_NS while a set waits for its edge is refused. -/
def State.timeSetHeld (s : State) (fn off : Nat) (act : State → State) : State :=
  if s.isOn .TIM_SET_go then s.code timPage fn off 0x9B else act s

/-- An edge of PPS_IN (R342, R347): a rising one loads the time that waits. -/
def State.ppsEdge (s : State) (rising : Bool) : State :=
  let loads := rising && s.isOn .TIM_SET_go
  let s := if loads then (s.set .TIM_SET_go 0 0 0).timeLoad else s
  let s := s.timCapture 1 0 rising s.sec s.ns s.beltPos
  if loads then s.cmpDue else s

/-- The clock runs to the next carry into the seconds (R348). -/
def State.secondEnds (s : State) : State := s.runToTime (s.sec + 1) 0

/-! ## The reference (R343) -/

/-- REFCLK_TIME is lost: the held rate deviates by at most 20 ppm of 2^32. -/
def State.refLost (s : State) : State :=
  if !s.isOn .TIM_STATUS_ref_ok then s
  else
    let s := (s.set .TIM_STATUS_ref_ok 0 0 0).set .TIMX_DRIFT 0 0 (freeDrift s.draws % 171799)
    ({ s with draws := s.draws + 1 }).raise timPage 2

/-- REFCLK_TIME is back. -/
def State.refBack (s : State) : State :=
  if s.isOn .TIM_STATUS_ref_ok then s else (s.set .TIM_STATUS_ref_ok 0 0 1).set .TIMX_DRIFT 0 0 85899

end Sys2Proof.Machine
end

