-- ==== Sys2Proof/Machine/Fio.lean ====
section
/-!
DEFINITION. Machine/Fio.lean: field inputs (R392 to R395), direct outputs and their readback (R396, R397), the safe state and its
watchdog (R398 to R401).
-/
namespace Sys2Proof.Machine

/-- The page of FIO. -/
def fioPage : PageId := ⟨.fio, 0⟩

/-- Enable FIO (R392, R393): every input's counters and filtered state start again. -/
def State.fioEnable (s : State) : State :=
  if s.isOn (.CTRL_enable .fio) then s
  else
    let s := ((s.set (.CTRL_enable .fio) 0 0 1).set .FIO_IN_LEVEL 0 0 0).set .FIO_IN_BROKEN 0 0 0
    let s := s.forEach (List.range 32) (fun s i =>
      ((s.set .FIO_IN_STAT_state 0 i 0).set .FIO_IN_STAT_q 0 i 0).set .FIO_IN_STAT_b 0 i 0)
    s.forEach (List.range 16) (fun s k => s.set .FIOX_MISMATCH 0 k 0)

/-! ## Inputs -/

/-- The filtered state of an input. -/
def State.setLevel (s : State) (i : Nat) (on : Bool) : State :=
  (s.set .FIO_IN_STAT_state 0 i (b2n on)).set .FIO_IN_LEVEL 0 0 (putBit (s.get .FIO_IN_LEVEL) i on)

/-- An input is permanent (R395). -/
def State.fioRetire (s : State) (i : Nat) : State :=
  let s := (s.set .FIO_RETIRED 0 0 (putBit (s.get .FIO_RETIRED) i true)).setLevel i false
  (s.raise fioPage 5).channelRetired 5 i

/-- An edge of an input's filtered state (R394, R347). -/
def State.fioEdge (s : State) (i : Nat) (rising : Bool) : State :=
  let s := ((s.setLevel i rising).set .FIO_IN_DECIDE 0 i s.t64).set .FIO_IN_START 0 i (s.get .FIOX_RUN 0 i)
  let s := ((s.set .FIO_IN_EDGE_rising 0 i (b2n rising)).countWrap .FIO_IN_SEQ 0 i 1).count .FIO_CNT_EDGE 0 0 1
  let extra := if bit (s.get .FIO_EDGE_PEND) i then 2 else 0
  let s := if s.isOn (if rising then .FIO_IN_CFG_irq_rise else .FIO_IN_CFG_irq_fall) 0 i then
      (s.set .FIO_EDGE_PEND 0 0 (putBit (s.get .FIO_EDGE_PEND) i true)).raiseMask fioPage (1 + extra) 0 false
    else if extra = 0 then s
    else s.raiseMask fioPage extra 0 false
  s.timCapture 2 i rising s.sec s.ns s.beltPos

/-- The break flag of an input sets (R395). -/
def State.fioBroken (s : State) (i : Nat) : State :=
  let s := ((s.set .FIO_IN_BROKEN 0 0 (putBit (s.get .FIO_IN_BROKEN) i true)).count .FIO_CNT_BREAK 0 0 1).raise fioPage 2
  if bit (s.get .FIO_RETIRED) i then s
  else
    let r := s.addUpset 5 i
    if r.2 then r.1.fioRetire i else r.1

/-- The state counter of an input takes a sample (R393, R394). -/
def State.fioCount (s : State) (i : Nat) (on : Bool) : State :=
  let n := s.get .FIO_IN_CFG_n 0 i
  let q := s.get .FIO_IN_STAT_q 0 i
  let q' := if on then min n (q + 1) else min n (q - 1)
  let s := if (on && q == 0) || (!on && n ≤ q) then s.set .FIOX_RUN 0 i s.t64 else s
  let s := s.set .FIO_IN_STAT_q 0 i q'
  if bit (s.get .FIO_RETIRED) i then s
  else if on && q' == n && !s.isOn .FIO_IN_STAT_state 0 i then s.fioEdge i true
  else if !on && q' == 0 && s.isOn .FIO_IN_STAT_state 0 i then s.fioEdge i false
  else s

/-- The break counter of an input takes a sample (R393, R395). -/
def State.fioBreak (s : State) (i : Nat) (broken : Bool) : State :=
  let n := s.get .FIO_IN_CFG_n 0 i
  let b := s.get .FIO_IN_STAT_b 0 i
  let b' := if !s.isOn .FIO_IN_CFG_break_en 0 i then 0 else if broken then min n (b + 1) else min n (b - 1)
  let s := s.set .FIO_IN_STAT_b 0 i b'
  let flag := bit (s.get .FIO_IN_BROKEN) i
  if broken && s.isOn .FIO_IN_CFG_break_en 0 i && b' == n && !flag then s.fioBroken i
  else if b' == 0 && flag then s.set .FIO_IN_BROKEN 0 0 (putBit (s.get .FIO_IN_BROKEN) i false)
  else s

/-- One input takes a sample of its band: BROKEN 0, OFF 1, ON 2. -/
def State.fioInput (s : State) (i band : Nat) : State :=
  ((s.set .FIO_IN_STAT_band 0 i band).fioCount i (band == 2)).fioBreak i (band == 0)

/-- One output's readback is compared with the level it drives (R397). -/
def State.fioReadback (s : State) (k : Nat) : State :=
  let changed := s.get .FIOX_CHANGED 0 k
  if !bit (s.get .FIO_RB_CFG_enable) k then s
  else if changed != 0 && s.tick + 1 < changed + 400 * s.get .FIO_RB_CFG_settle_us then s
  else if bit (s.get .FIO_OUT_PIN_readback) k == bit (s.get .FIO_OUT_PIN_drive) k then s.set .FIOX_MISMATCH 0 k 0
  else if s.get .FIOX_MISMATCH 0 k < 3 then s.set .FIOX_MISMATCH 0 k (s.get .FIOX_MISMATCH 0 k + 1)
  else
    let s := (s.set .FIOX_MISMATCH 0 k 0).set .FIO_RB_ERR 0 0 (putBit (s.get .FIO_RB_ERR) k true)
    (s.count .FIO_CNT_RB_ERR 0 0 1).raise fioPage 3

/-- A sample of every input and readback on the sampling grid (R392): `on` and `broken` are the masks of the inputs in those bands,
`rb` the readback levels. -/
def State.fioSample (s : State) (on broken rb : Nat) : State :=
  if !s.isOn (.CTRL_enable .fio) || s.isOn (.CTRL_quiesce .fio) then s
  else
    let s := s.forEach (List.range 32) (fun s i => s.fioInput i (if bit broken i then 0 else if bit on i then 2 else 1))
    let s := s.set .FIO_OUT_PIN_readback 0 0 rb
    s.forEach (List.range 16) (fun s k => s.fioReadback k)

/-! ## Outputs, the watchdog and the safe state -/

/-- A write of FIO_OUT_SET (R396). -/
def State.outputSet (s : State) (v : Nat) : State := (s.set .FIO_OUT_SET 0 0 v).foUpdate

/-- FIO holds the outputs in their safe state (R383, R398, R401): a stop's cause stays. -/
def State.safeHold (s : State) (cause : Nat) : State :=
  let stop := s.isOn .FIO_SAFE_held && s.get .FIO_SAFE_cause == 3
  let s := (s.set .FIO_SAFE_held 0 0 1).set .FIO_SAFE_cause 0 0 (if stop then 3 else cause)
  s.foUpdate.markSafeHeld

/-- The watchdog period in ticks. -/
def State.wdogTicks (s : State) : Nat := s.get .FIO_WDOG_period_ms * 400000

/-- The watchdog expires (R399). -/
def State.wdogExpire (s : State) : State :=
  let s := s.safeHold 2
  let s := ((s.count .FIO_CNT_WDOG 0 0 1).raise fioPage 4).set .FIOX_KICKED 0 0 0
  s.set .FIOX_WD_END 0 0 (s.tick + s.wdogTicks)

/-- The period of the running watchdog ends without a kick (R399). -/
def State.wdogEnds (s : State) : State :=
  if s.isOn .FIO_WDOG_enable then (s.runTo (s.get .FIOX_WD_END)).wdogExpire else s

/-- A write of the FIO_WDOG word (R399): a period is taken while held and in range. -/
def State.wdogWord (s : State) (fn v : Nat) : State :=
  let p := bits v 13 0
  let s := if p = s.get .FIO_WDOG_period_ms then s
    else if !s.isOn .FIO_SAFE_held then s.code fioPage fn 0x130 0xB1
    else if 1 ≤ p && p ≤ 10000 then s.set .FIO_WDOG_period_ms 0 0 p
    else s
  if bit v 31 && !s.isOn .FIO_WDOG_enable then
    let s := ((s.set .FIO_WDOG_enable 0 0 1).set .FIOX_KICKED 0 0 0).set .FIOX_KICK 0 0 0
    s.set .FIOX_WD_END 0 0 (s.tick + s.wdogTicks)
  else s

/-- A write of FIO_WDOG_KICK (R399): valid when it is one of the two values, not the one before, and not too late. -/
def State.wdogKick (s : State) (v : Nat) : State :=
  let k := if v % 2 ^ 16 = 0xA5A5 then 1 else if v % 2 ^ 16 = 0x5A5A then 2 else 0
  if !s.isOn .FIO_WDOG_enable then s
  else if k = 0 || k = s.get .FIOX_KICK || s.get .FIOX_WD_END ≤ s.tick then s.wdogExpire
  else ((s.set .FIOX_KICK 0 0 k).set .FIOX_KICKED 0 0 1).set .FIOX_WD_END 0 0 (s.tick + s.wdogTicks)

/-- A write of 1 to FIO_SAFE.release (R400): each output follows its command from the first tick on which the two are equal. -/
def State.safeRelease (s : State) (fn : Nat) : State :=
  if !s.isOn .FIO_WDOG_enable || !s.isOn .FIOX_KICKED || s.get .FIO_SAFE_cause == 3 then s.code fioPage fn 0x138 0xB2
  else if !s.isOn .FIO_SAFE_held then s
  else
    let s := (s.set .FIO_SAFE_held 0 0 0).set .FIOX_FOLLOW_FO 0 0 0
    (s.forEach (List.range 4) (fun s n => s.set .FIOX_FOLLOW_VP 0 n 0)).foUpdate

end Sys2Proof.Machine
end

