-- ==== Sys2Proof/Machine/Hoof.lean ====
section
/-!
DEFINITION. Machine/Hoof.lean: the enable of EJT and the valve-port frames (R375, R381, R382), the points that the belt reaches (R370,
R377), the times of valves (R378, R379), the deadline check (R429) and the freeing of tables (R266, R354).
-/
namespace Sys2Proof.Machine

/-- The page of EJT. -/
def ejtPage : PageId := ⟨.ejt, 0⟩

/-- IOCLK ticks of a valve-port frame (R381). -/
def frameTicks : Nat := 1440

/-- Enable EJT (R375, R381, R384). -/
def State.ejtEnable (s : State) (fn : Nat) : State :=
  if s.isOn (.CTRL_enable .ejt) then s
  else if !(List.range 8).any (fun b => s.isOn .EJT_BANK_CFG_enable 0 b) then s.code ejtPage fn 0x8 0xA2
  else
    let s := s.set (.CTRL_enable .ejt) 0 0 1
    let s := if s.isOn .ENC_SEL_belt_ok then s.set .EJTX_LOST 0 0 0 else s
    let s := (s.set .EJTX_VP_FRAMES 0 0 0).set .EJTX_VP_NEXT 0 0 (s.tick + frameTicks)
    s.reserveAll

/-! ## Valve-port frames (R381, R382, R398, R400) -/

/-- A port is permanent (R382). -/
def State.portRetire (s : State) (n : Nat) : State := ((s.portLost n).raise ejtPage 5).channelRetired 4 n

/-- Bit `i` of the clock periods of a frame `cur` sent after a frame `prev`, counted from the start of `cur`: bit `i` is valve
127 - i, and a negative place lies in `prev`. -/
def driven (prev cur : Nat) (i : Int) : Bool := if 0 ≤ i then bit cur (127 - i).toNat else bit prev (-1 - i).toNat

/-- Do the samples of VP_RET during a frame differ from the bits driven `len` periods earlier? The first `len` samples after enable
are not checked. -/
def frameBad (prev cur len ret : Nat) (first : Bool) : Bool :=
  (List.range 128).any (fun i => (len ≤ i || !first) && bit ret i != driven prev cur ((i : Int) - len))

/-- The check of the frame that ends on port `n`. -/
def State.frameCheck (s : State) (n ret : Nat) : State :=
  let sent := s.get .EJTX_VP_FRAMES
  if sent = 0 || !s.isOn .EJT_VP_LEN_check 0 n then s
  else if frameBad (s.get .EJTX_VP_PREV 0 n) (s.get .EJTX_VP_CUR 0 n) (s.get .EJT_VP_LEN_len 0 n) ret (sent == 1) then
    let s := (s.count .EJT_CNT_VP_ERR 0 0 1).raise ejtPage 4
    if bit (s.get .EJTX_VP_SAFE) n then s
    else
      let r := s.addUpset 4 n
      if r.2 then r.1.portRetire n else r.1
  else s

/-- The frame that begins on port `n`: the safe states while FIO holds the outputs or the port is retired; else each valve's
command, from the first boundary after the release at which it equals the safe state. -/
def State.frameBegin (s : State) (n : Nat) : State :=
  let cmd := s.get .EJT_VALVES_VP 0 n
  let safe := s.get .FIO_SAFE_VP 0 n
  let all := 2 ^ 128 - 1
  let hold := s.isOn .FIO_SAFE_held || bit (s.get .EJTX_VP_SAFE) n
  let fol := if hold then 0 else s.get .FIOX_FOLLOW_VP 0 n ||| (all - (cmd ^^^ safe))
  let v := if hold then safe else (cmd &&& fol) ||| (safe &&& (all - fol))
  let s := (s.set .EJTX_VP_LATCHED 0 n (s.get .EJTX_VP_CUR 0 n)).set .EJTX_VP_PREV 0 n (s.get .EJTX_VP_CUR 0 n)
  (s.set .FIOX_FOLLOW_VP 0 n fol).set .EJTX_VP_CUR 0 n v

/-- A frame boundary of the valve ports (R381), with what VP_RET of each port showed during the frame that ends. -/
def State.frameBoundary (s : State) (rets : List Nat) : State :=
  if !s.isOn (.CTRL_enable .ejt) then s
  else
    let s := s.runTo (s.get .EJTX_VP_NEXT)
    let s := s.forEach (List.range 4) (fun s n => s.frameCheck n (rets.getD n 0))
    let s := s.forEach (List.range 4) (fun s n => s.frameBegin n)
    (s.set .EJTX_VP_FRAMES 0 0 (min 3 (s.get .EJTX_VP_FRAMES + 1))).set .EJTX_VP_NEXT 0 0 (s.tick + frameTicks)

/-! ## Points that the belt reaches -/

/-- A record commits if it is early and the belt has reached its commit point (R370). -/
def State.commitDue (s : State) (span : Bool) (id : Nat) : State :=
  match s.partRec span id with
  | some r => if r.early && s.atCommit r then s.recCommit r else s
  | none => s

/-- A firing goes on if the belt has reached its on point (R377). -/
def State.onDue (s : State) (span : Bool) (id bank : Nat) : State :=
  match s.firing span id bank with
  | some f => if f.phase == 0 && s.beltRuns && f.start - s.leadFor f.path f.mech ≤ s.beltPos then s.firingOn f else s
  | none => s

/-- A firing goes off if the belt has reached its off point (R377). -/
def State.offDue (s : State) (span : Bool) (id bank : Nat) : State :=
  match s.firing span id bank with
  | some f => if f.phase == 1 && s.beltRuns && f.stop - s.leadFor f.path f.mech ≤ s.beltPos then s.firingOff f else s
  | none => s

/-- A minimum time of a valve ends (R378). -/
def State.holdEnds (s : State) (path num : Nat) : State :=
  match s.valve path num with
  | some v => if v.owed = 0 then s else (s.runTo v.due).valveDue v
  | none => s

/-- The limit of a valve in ticks: the least of the firings that have gone on over it; 0 is none (R379). -/
def State.valveLimit (s : State) (path num : Nat) : Nat :=
  let l := ((s.firingsOn path num).filter (fun f => f.phase != 0 && f.maxOn != 0)).map (fun f => f.maxOn)
  match l with
  | [] => 0
  | x :: xs => xs.foldl min x * 400000

/-- A valve has been on for its limit (R379). -/
def State.limitEnds (s : State) (path num : Nat) : State :=
  match s.valve path num with
  | some v =>
    if !v.on || s.valveLimit path num = 0 then s
    else (s.runTo (v.since + s.valveLimit path num)).valveMaxOn path num
  | none => s

/-- The LC partition whose STREAM plan binds a context and that checks deadlines (R429). -/
def State.deadlinePart (s : State) (ctx : Nat) : Option Nat :=
  (List.range 8).find? (fun p => s.partExists p && !s.partIsBe p && s.get .CMD_PART_DEADLINE 0 p != 0 &&
    (s.cmd.slots.getD p []).any (fun k => match k.active with
      | some P => !P.batch && P.binds ctx
      | none => false))

/-- The belt reaches a record's deadline point (R429): the check is made once. -/
def State.deadlineCheck (s : State) (id : Nat) : State :=
  match s.partRec false id with
  | none => s
  | some r =>
    match s.deadlinePart r.ctx with
    | none => s
    | some p =>
      if r.deadline || !s.beltRuns || s.beltPos < s.commitPoint r - s.get .CMD_PART_DEADLINE 0 p then s
      else
        let s := s.modRec false id (fun r => { r with deadline := true })
        if r.held == 2 || !r.early then s else (s.count .CMD_CNT_DEADLINE p 0 1).raise ⟨.cmdPart, p⟩ 4 id

/-! ## Freed tables -/

/-- The last reader of a releasing table has finished (R266, R354): its pages return and the identifier may be used again. -/
def State.tableFreed (s : State) (id : Nat) : State :=
  match s.table id with
  | none => s
  | some t =>
    if !t.releasing || t.readers != 0 then s
    else
      let s := s.tablePages t
      let s := { s with tables := s.tables.filter (fun x => x.id != id) }
      let s := s.modTrk (fun k => { k with recs := k.recs.filter (fun r => r.span || r.id != id) })
      (s.bumpGen id).giveId id

end Sys2Proof.Machine
end

