-- ==== Sys2Proof/Machine/Faults.lean ====
section
/-!
DEFINITION. Machine/Faults.lean: upsets and permanent lanes (R78, R79), the 1 ms windows (R567), SRAM errors (R188, R193, R286), errors
of HBM by consumer (R312 to R317), and fault classification (R501 to R505).
-/
namespace Sys2Proof.Machine

/-! ## Lanes -/

/-- A lane is permanent (R79): a peer group that contains it goes down. -/
def State.laneFail (s : State) (l : Nat) : State :=
  let s := ((s.laneRetire l).channelRetired 1 l).peerFollow l
  if s.laneInPeer l then s.peerDown (l / 4) else s

/-- An upset of a lane (R78, R502). -/
def State.laneUpset (s : State) (l : Nat) : State :=
  if s.laneRetired l then s
  else
    let r := s.addUpset 1 l
    if r.2 then r.1.laneFail l else r.1

/-- A code or disparity error on a lane (R78). -/
def State.codeError (s : State) (l : Nat) : State :=
  if s.laneMode l == 0 || s.get .LAN_STATUS_rx_now l == 2 then s
  else
    let n := s.get .LANX_WIN_ERRORS l + 1
    let s := ((s.count .LAN_ERR_CODE l 0 1).pmc 0x02 l 1 none).set .LANX_WIN_ERRORS l 0 n
    if s.get .LAN_BURST_CFG_threshold l ≤ n && !s.isOn .LANX_BURST l then
      ((s.set .LANX_BURST l 0 1).raise (lanePage l) evCodeBurst).laneUpset l
    else s

/-! ## Windows (R567) -/

/-- IOCLK ticks of an error window. -/
def windowTicks : Nat := 400000

/-- The tick at which the present error window ends, once the fuses are loaded. -/
def State.windowEnd (s : State) : Option Nat :=
  s.mgt.fuseTick.map (fun t => t + ((s.tick - t) / windowTicks + 1) * windowTicks)

/-- The counts of an error window start again. -/
def State.windowClear (s : State) : State :=
  let s := s.forEach (List.range 24) (fun s l => s.clearFlds l [.LANX_WIN_ERRORS, .LANX_BURST])
  let s := s.forEach (List.range 64) (fun s k => s.clearFlds k [.PCX_WIN_CE, .PCX_CE_DONE])
  let s := s.forEach (List.range 72) (fun s k => s.clearFlds k [.CLUX_WIN_CE, .CLUX_CE_DONE])
  s.clearFlds 0 [.FWNX_WIN_CE, .FWNX_CE_DONE, .ATNX_WIN_CE, .ATNX_CE_DONE]

/-- The clock runs to the end of the present error window. -/
def State.windowEnds (s : State) : State :=
  match s.windowEnd with
  | some t => (s.runTo t).windowClear
  | none => s

/-! ## SRAM errors -/

/-- A corrected SRAM error: counted, and SRAM_CE_THR once a window. -/
def State.sramCount (s : State) (p : PageId) (cnt win done thr : Fld) (ev : Nat) : State :=
  let n := s.get win p.inst + 1
  let s := (s.count cnt p.inst 0 1).set win p.inst 0 n
  if s.get thr p.inst ≤ n && !s.isOn done p.inst then (s.set done p.inst 0 1).raise p ev else s

/-- A corrected SRAM error at a site (R188, R193, R286). -/
def State.sramCorrected (s : State) (site : SramSite) (addr : Nat) : State :=
  match site with
  | .cluster k =>
    if s.cluDisabled k then s
    else
      let s := (s.set .CLU_ECC_ADDR_addr k 0 addr).set .CLU_ECC_ADDR_ue k 0 0
      s.sramCount ⟨.clu, k⟩ .CLU_ECC_CE .CLUX_WIN_CE .CLUX_CE_DONE .CLU_CE_THR 0
  | .fawn => s.sramCount ⟨.fwn, 0⟩ .FWN_ECC_CE .FWNX_WIN_CE .FWNX_CE_DONE .FWN_CE_THR 0
  | .table _ _ => s.sramCount ⟨.atn, 0⟩ .ATN_ECC_CE .ATNX_WIN_CE .ATNX_CE_DONE .ATN_CE_THR 1

/-- The job whose tiles run on a partition's clusters. -/
def State.runningJob (s : State) (p : Nat) : Option Job := ((s.cmd.sched.getD p {}).running).bind s.job

/-- The descriptor that a job's oldest tile belongs to; 0 without one. -/
def Job.tileDesc (j : Job) : Nat := ((j.run.bind (fun r => r.tiles.head?)).map (fun t => t.desc)).getD 0

/-- The job that runs on a partition's clusters is aborted for what it consumed (R188, R313). -/
def State.abortRunning (s : State) (p : Nat) : State :=
  match s.runningJob p with
  | some j => s.abortMem j.no j.tileDesc
  | none => s

/-- An uncorrectable SRAM error at a site (R188, R286). -/
def State.sramBad (s : State) (site : SramSite) (addr : Nat) : State :=
  match site with
  | .cluster k =>
    if s.cluDisabled k then s
    else
      let s := ((s.set .CLU_ECC_ADDR_addr k 0 addr).set .CLU_ECC_ADDR_ue k 0 1).count .CLU_ECC_UE k 0 1
      let s := s.raise ⟨.clu, k⟩ 1
      let s := match s.cluPart k with
        | some p => s.abortRunning p
        | none => s
      s.cluUpset k
  | .fawn =>
    let s := (s.count .FWN_ECC_UE 0 0 1).raise ⟨.fwn, 0⟩ 1
    match s.fwn with
    | x :: _ => s.abortMem x.job (x.descs.headD 0)
    | [] => s
  | .table id e =>
    let s := (s.count .ATN_ECC_UE 0 0 1).raise ⟨.atn, 0⟩ 2
    let s := s.modTable id (fun t => { t with trunc := true, lost := if t.lost.contains e.val then t.lost else t.lost ++ [e.val] })
    match s.attn.find? (fun x => x.boxes.any (fun b => b.table == some id.val)) with
    | some x => s.abortMem x.job x.desc
    | none => s

/-! ## Errors of HBM -/

/-- The 64-bit words of a pseudo-channel: 12,582,912 lines of 8 (R317). -/
def pcWords : Nat := 12582912 * 8

/-- The HBM key of a word of a pseudo-channel. -/
def wordKey (pc word : Nat) : Nat := pc * 2 ^ 30 + word % pcWords * 8

/-- A word has become uncorrectable (R311). -/
def State.markBad (s : State) (key : Nat) : State :=
  let w := key / 8
  { s with hbm := { s.hbm with bad := if s.hbm.bad.contains w then s.hbm.bad else s.hbm.bad ++ [w] } }

/-- LNP consumes an uncorrectable word for a stripe of a context (R138, R313): the stripe in the pipeline, or the one it takes next. -/
def State.lnpConsumes (s : State) (c : Nat) : State :=
  match s.lnp.busy with
  | some b => if b.ctx = c then s.loseStripe c b.stripe 0 else s
  | none => match (s.lnpCtx c).stripes.head? with
    | some x => s.loseStripe c x 0
    | none => s

/-- CMD consumes an uncorrectable word at a plan load (R184, R313): 0x41 within the image, else 0x4A. -/
def State.loadConsumes (s : State) (p k key : Nat) : State :=
  match (s.slotSt p k).load with
  | some l =>
    if l.plan.isSome then s
    else
      let inImage := (s.badKeys l.base l.size).contains key
      let code := if inImage then 0x41 else 0x4A
      let s := s.modSlot p k (fun x => { x with load := none })
      ((s.set .CMD_PLAN_STATUS_load p k 3).set .CMD_PLAN_STATUS_code p k code).raise (cmdPage p) 1 code
  | none => s

/-- CAP consumes an uncorrectable word of its oldest queued slot (R123, R313). -/
def State.replayConsumes (s : State) (c : Nat) : State :=
  match (s.capCtx c).replay with
  | [] => s
  | _ :: rest =>
    let s := (s.modCtx c (fun x => { x with replay := rest })).raise (capPage c) 5
    if rest.isEmpty then s.raise (capPage c) 4 else s

/-- A function reads an uncorrectable word through BAR2 (R313). -/
def State.hostUe (s : State) (fn : Nat) : State :=
  if fn = 0 then s else (s.count .MEM_CNT_HOST_UE (fn - 1) 0 1).raise ⟨.memPart, fn - 1⟩ 0

/-- A word proves uncorrectable when a consumer reads it (R313). -/
def State.wordConsumed (s : State) (pc word : Nat) (by' : Consumer) : State :=
  let key := wordKey pc word
  let s := s.markBad key
  match by' with
  | .job p => (s.ueFound key false).abortRunning p
  | .lnp c => (s.ueFound key false).lnpConsumes c
  | .plan p k => (s.ueFound key false).loadConsumes p k key
  | .replay c => (s.ueFound key false).replayConsumes c
  | .home => s.ueFound key false
  | .host fn => (s.ueFound key false).hostUe fn
  | .scrubber => s.ueFound key true

/-- The scrubber reads one line of each pseudo-channel (R317). -/
def State.scrubLine (s : State) : State :=
  if !s.isOn .MEM_SCRUB_mode then s
  else
    let line := s.get .MEM_SCRUB_POS
    let s := s.forEach (List.range 64) (fun s pc =>
      let key := pc * 2 ^ 30 + line * 64
      let s := if s.hbm.soft.contains (key / 64) then s.ceFound key else s
      s.forEach (s.hbm.bad.filter (fun w => w / 8 == key / 64)) (fun s w => s.ueFound (w * 8) true))
    if line + 1 < 12582912 then s.set .MEM_SCRUB_POS 0 0 (line + 1)
    else ((s.set .MEM_SCRUB_POS 0 0 0).count .MEM_SCRUB_PASSES 0 0 1).raise ⟨.mem, 0⟩ 0

/-! ## Classification (R501 to R505) -/

/-- An instance of a channel type becomes permanent: the handling of its type (R503). -/
def State.permanent (s : State) (t i : Nat) : State :=
  match t with
  | 0 => if s.isOn (.STATUS_retired .memPc) i then s else s.pcRetire i
  | 1 => if s.laneRetired i then s else s.laneFail i
  | 2 => if s.cluRetired i then s else s.cluRetire i
  | 3 => if s.isOn (.STATUS_retired .enc) i then s else s.encRetire i
  | 4 => if bit (s.get .EJTX_VP_SAFE) i then s else s.portRetire i
  | 5 => if bit (s.get .FIO_RETIRED) i then s else s.fioRetire i
  | _ => s

/-- A write of MGT_FLT_FORCE (R503). -/
def State.faultForce (s : State) (fn v : Nat) : State :=
  let t := bits v 10 8
  let i := bits v 6 0
  if bit v 31 && faultCount t ≤ i then s.code ⟨.mgt, 0⟩ fn 0x1A0 0xE6
  else
    let s := s.plainWrite ⟨.mgt, 0⟩ 0x1A0 v
    if bit v 31 then s.permanent t i else s

/-- Ticks of a leak window of a type. -/
def State.leakTicks (s : State) (t : Nat) : Nat := s.get .MGT_FLT_CFG_leak_ms 0 t * 400000

/-- The present leak window of a type ends (R502): a new length takes effect. -/
def State.leakWindow (s : State) (t : Nat) : State :=
  if s.mgt.fuseTick.isNone then s
  else
    let s := (s.runTo (s.flt.leakEnds.getD t 0)).leak t
    { s with flt := { s.flt with leakEnds := listSet s.flt.leakEnds t (s.tick + s.leakTicks t) } }

/-- The copy of the retirement record in force (R504). -/
def Velvet.record (v : Velvet) : Nat × RetireRec :=
  match v.recs with
  | [a, b] => if sext 32 (b.seq + 2 ^ 32 - a.seq) ≤ 0 then (0, a) else (1, b)
  | l => (0, l.headD {})

/-- Velvet with its retirement record changed: the other copy is written, with the next sequence. -/
def Velvet.putRec (v : Velvet) (f : RetireRec → RetireRec) : Velvet :=
  let r := v.record
  { v with recs := listSet v.recs (1 - r.1) { f r.2 with seq := (r.2.seq + 1) % 2 ^ 32 } }

/-- The oldest permanent instance that the record does not hold is written to it (R494, R504). -/
def State.recordRetired (s : State) : State :=
  match s.flt.unrecorded with
  | [] => s
  | (t, i, b) :: rest =>
    if s.isOn .RET_STATUS_busy then s
    else
      let v := s.velvet.putRec (fun r => { r with
        marks := if r.marks.contains (t, i) then r.marks else r.marks ++ [(t, i)]
        ring := (⟨t, i, b, s.velvet.starts⟩ :: r.ring).take 64 })
      { s with flt := { s.flt with unrecorded := rest }, velvet := v }

/-- A write of RET_RETIRE_CLR (R505). -/
def State.retireClear (s : State) (fn v : Nat) : State :=
  let t := bits v 10 8
  let i := bits v 6 0
  if bit v 31 && faultCount t ≤ i then s.code ⟨.ret, 0⟩ fn 0x148 0xE6
  else
  let s := s.plainWrite ⟨.ret, 0⟩ 0x148 v
  if !bit v 31 || !s.velvet.record.2.marks.contains (t, i) then s
  else { s with velvet := s.velvet.putRec (fun r => { r with marks := r.marks.filter (fun x => x != (t, i)) }) }

end Sys2Proof.Machine
end

