-- ==== Sys2Proof/Machine/Rsa.lean ====
section
/-!
DEFINITION. Machine/Rsa.lean: RSASSA-PSS verification as R492 uses it: RSA-3072, exponent 65,537, SHA-256, MGF1 with SHA-256, a
32-byte salt (RFC 8017).
-/
namespace Sys2Proof.Machine

/-- `x ^ (2 ^ k) mod n`. -/
def squareMod : Nat → Nat → Nat → Nat
  | 0, x, n => x % n
  | k + 1, x, n => squareMod k (x * x % n) n

/-- `x ^ 65537 mod n`. -/
def rsaPublic (x n : Nat) : Nat := squareMod 16 (x % n) n * x % n

/-- MGF1 with SHA-256. -/
def mgf1 (seed : List Nat) (len : Nat) : List Nat :=
  ((List.range ((len + 31) / 32)).flatMap (fun i => sha256 (seed ++ beBytes 4 i))).take len

/-- Bytes, combined by exclusive or. -/
def xorBytes (a b : List Nat) : List Nat := (a.zip b).map (fun x => x.1 ^^^ x.2)

/-- EMSA-PSS verification of an encoded message of 3,071 bits. -/
def pssCheck (msg em : List Nat) : Bool :=
  let masked := em.take 351
  let h := (em.drop 351).take 32
  let db := match xorBytes masked (mgf1 h 351) with
    | [] => []
    | b :: bs => b % 128 :: bs
  let salt := db.drop 319
  em.length == 384 && em.getD 383 0 == 0xBC && em.headD 0 < 128 &&
  (db.take 318).all (fun b => b == 0) && db.getD 318 0 == 1 &&
  h == sha256 (List.replicate 8 0 ++ sha256 msg ++ salt)

/-- RSASSA-PSS verification with a modulus and a signature given as octet strings. -/
def rsaVerify (modulus msg sig : List Nat) : Bool :=
  let n := ofBe modulus
  let s := ofBe sig
  decide (s < n) && pssCheck msg (beBytes 384 (rsaPublic s n))

end Sys2Proof.Machine
end

