-- ==== Sys2Proof/Machine/Mgmt.lean ====
section
/-!
DEFINITION. Machine/Mgmt.lean: the management controller: start OK (R489), the patch bundle (R491, R492), the settings snapshot (R495 to
R499), attestation (R506, R507), stops (R524, R525), and resets and the steps of a start (R482 to R490, R526, R552, R553).
-/
namespace Sys2Proof.Machine

/-- The pages of MGT, SEC and RET. -/
def mgtPage : PageId := ⟨.mgt, 0⟩
def secPage : PageId := ⟨.sec, 0⟩
def retPage : PageId := ⟨.ret, 0⟩

/-- The management state, changed. -/
def State.modMgt (s : State) (f : MgtState → MgtState) : State := { s with mgt := f s.mgt }

/-- Has the device stopped (R525)? -/
def State.stopped (s : State) : Bool := s.isOn .MGTX_STOPPED

/-- Do the blocks other than MGT, HLK and TIM work: no stop and no reset holds them (R525, R552)? -/
def State.awake (s : State) : Bool := !s.stopped && !s.mgt.inReset

/-- An effect of a block that a stop or a reset holds still. -/
def State.whenAwake (s : State) (act : State → State) : State := if s.awake then act s else s

/-! ## Start OK (R489) -/

/-- IOCLK ticks of the start OK window: 10 s. -/
def okTicks : Nat := 4000000000

/-- A write of 1 to MGT_START_OK. -/
def State.startOk (s : State) (fn : Nat) : State :=
  let ready := s.isOn .MGT_STATUS_ready
  if ready && !s.mgt.okEnded && s.tick < s.mgt.readyTick + okTicks then
    if s.mgt.okTaken then s
    else ({ s with velvet := { s.velvet with fails := 0 } }.set .MGT_START_FAILS 0 0 0).modMgt (fun m => { m with okTaken := true })
  else
    let s := s.code mgtPage fn 0x110 0xE2
    if ready && !s.mgt.okTaken && !s.mgt.late then (s.raise mgtPage 1).modMgt (fun m => { m with late := true }) else s

/-- The start OK window ends. -/
def State.okWindowEnds (s : State) : State :=
  if s.isOn .MGT_STATUS_ready && !s.mgt.okEnded then
    (s.runTo (s.mgt.readyTick + okTicks)).modMgt (fun m => { m with okEnded := true })
  else s

/-! ## Snapshot (R495 to R499) -/

/-- The retained header fields that have effect on a kind of page (R45). -/
def retainedHeader (k : PageKind) : List Fld :=
  (if k.ownEnable then [.CTRL_enable k] else []) ++ [.EVT_ENABLE k] ++
  (if k.boundaries.isEmpty then [] else [.COMMIT_boundary k, .COMMIT_cmp k]) ++
  (if k.assignable then [.OWNER_partition k, .OWNER_valid k] else []) ++ [.LOCK_locked k]

/-- The retained fields of a kind of page. -/
def retainedFlds (k : PageKind) : List Fld := retainedHeader k ++ (blockFlds k).filter (fun f => f.ret)

/-- The words of a page that hold a retained field, ascending. -/
def retainedWords (k : PageKind) : List Nat :=
  ((List.range 1024).map (fun i => 4 * i)).filter (fun w => !(fieldsAt (retainedFlds k) w).isEmpty)

/-- The bits that a field's value gives to the word at `woff`. -/
def fieldPart (f : Fld) (j woff v : Nat) : Nat :=
  if f.lo + f.width ≤ 32 then v % 2 ^ f.width * 2 ^ f.lo else bits v (8 * (woff - f.word j) + 31) (8 * (woff - f.word j))

/-- The word at `woff` of a page as its listed fields stand, shadows left aside. -/
def State.activeWord (s : State) (l : List Fld) (p : PageId) (woff : Nat) : Nat :=
  (fieldsAt l woff).foldl (fun v fj => v ||| fieldPart fj.1 fj.2 woff (s.get fj.1 p.inst fj.2)) 0

/-- What a snapshot captures (R496): every word that holds a retained field, by BAR0 offset. -/
def State.captured (s : State) : List (Nat × Nat) :=
  (allPages.filter (fun p => !(p.kind == .clu && s.cluDisabled p.inst))).flatMap (fun p =>
    (retainedWords p.kind).map (fun w => (p.base + w, s.activeWord (retainedFlds p.kind) p w)))

/-- The bytes of snapshot entries. -/
def entryBytes (l : List (Nat × Nat)) : List Nat := l.flatMap (fun e => leBytes 4 e.1 ++ leBytes 4 e.2)

/-- A write of 1 to RET_CTRL.snap (R496, R525). -/
def State.snapGo (s : State) (fn : Nat) : State :=
  if s.stopped then s.code retPage fn 0x100 0xE3
  else if !s.isOn .MGT_STATUS_ready || s.isOn .RET_STATUS_busy then (s.set .RET_STATUS_last 0 0 2).code retPage fn 0x100 0xE3
  else if !s.commits.isEmpty then (s.set .RET_STATUS_last 0 0 2).code retPage fn 0x100 0xE0
  else { (s.set .RET_STATUS_busy 0 0 1).modMgt (fun m => { m with capture := some s.captured }) with held := some [] }

/-- A copy with a header for entries. -/
def State.snapCopy (s : State) (es : List (Nat × Nat)) : SnapCopy :=
  { magic := 0x53564C56, version := 1, seq := (s.get .RET_SNAP_SEQ + 1) % 2 ^ 32, count := es.length, rom := s.get .MGT_ROM_VERSION,
    patch := s.get .MGT_PATCH_VERSION, digest := ofLe (sha256 (entryBytes es)), entries := es }

/-- The Velvet write of a snapshot commits or fails (R497). -/
def State.snapDone (s : State) (ok : Bool) : State :=
  match s.mgt.capture with
  | none => s
  | some es =>
    if s.held.isSome then s
    else
      let dst := 1 - s.velvet.last
      let s := (s.set .RET_STATUS_busy 0 0 0).modMgt (fun m => { m with capture := none })
      if ok then
        let c := s.snapCopy es
        let s := { s with velvet := { s.velvet with copies := listSet s.velvet.copies dst c, last := dst } }
        ((((s.set .RET_STATUS_last 0 0 1).set .RET_STATUS_copy 0 0 dst).set .RET_SNAP_SEQ 0 0 c.seq).set .RET_SNAP_ENTRIES 0 0 c.count).raise
          retPage 0
      else
        let s := { s with velvet := { s.velvet with copies := listMod s.velvet.copies dst (fun c => { c with magic := 0 }) } }
        (s.set .RET_STATUS_last 0 0 3).raise retPage 1

/-- A write of 1 to RET_CTRL.erase (R498). -/
def State.velvetErase (s : State) (fn : Nat) : State :=
  if s.isOn .RET_STATUS_busy then s.code retPage fn 0x100 0xE3
  else { s with velvet := { s.velvet with copies := s.velvet.copies.map (fun c => { c with magic := 0 }) } }

/-- Is a copy valid (R499), apart from uncorrectable words? -/
def SnapCopy.ok (c : SnapCopy) : Bool :=
  c.magic == 0x53564C56 && c.version == 1 && c.count ≤ 524280 && c.count == c.entries.length &&
  c.digest == ofLe (sha256 (entryBytes c.entries))

/-- The valid copy with the later sequence (R499), given which copies hold uncorrectable words. -/
def Velvet.best (v : Velvet) (ue0 ue1 : Bool) : Option (Nat × SnapCopy) :=
  match v.copies with
  | [a, b] =>
    let okA := a.ok && !ue0
    let okB := b.ok && !ue1
    if okA && okB then (if 0 < sext 32 (b.seq + 2 ^ 32 - a.seq) then some (1, b) else some (0, a))
    else if okA then some (0, a) else if okB then some (1, b) else none
  | _ => none

/-- The value that a retained field takes from the last committed snapshot, if it holds one; else its factory value (R15, R48). -/
def State.startVal (s : State) (f : Fld) (i j : Nat) : Nat :=
  if !f.ret then f.resetAt j
  else match s.velvet.best false false with
    | none => f.resetAt j
    | some (_, c) =>
      let base := (PageId.mk f.kind i).base + f.word j
      let get (w : Nat) : Option Nat := (c.entries.find? (fun e => e.1 == base + 4 * w)).map (fun e => e.2)
      match get 0 with
      | none => f.resetAt j
      | some v => bits (v + (List.range ((f.lo + f.width - 1) / 32)).foldl (fun t w => t + (get (w + 1)).getD 0 * 2 ^ (32 * (w + 1))) 0)
          (f.lo + f.width - 1) f.lo

/-! ## Attestation (R506, R507) -/

/-- The plan entries of a report, by place: partition, slot, state, class and digest. -/
def State.planEntries (s : State) : List (List Nat) :=
  ((List.range 8).flatMap (fun p => (List.range 8).map (fun k => (p, k)))).filterMap (fun x =>
    let st := s.get .CMD_PLAN_STATUS_state x.1 x.2
    if st = 0 then none
    else some (leBytes 4 (x.1 + x.2 * 2 ^ 8 + st * 2 ^ 16 + b2n (s.partIsBe x.1) * 2 ^ 24) ++ List.replicate 12 0 ++
      leBytes 32 (s.get .CMD_PLAN_DIGEST x.1 x.2)))

/-- MGT_CAPS.block (R510): the enabled cluster count and the grade. -/
def State.capsBlock (s : State) : Nat := s.enabledClu.length % 2 ^ 7 + b2n s.fuses.gradeB * 2 ^ 7

/-- MGT_MODE as a word. -/
def State.modeWord (s : State) : Nat := s.get .MGT_MODE_freq_mode + s.get .MGT_MODE_det_mode * 2 ^ 4

/-- A run of bytes placed at an offset over zeros. -/
def placed (total : Nat) (l : List (Nat × List Nat)) : List Nat := (memRead (l.foldl (fun m x => memWrite m x.1 x.2) []) 0 total)

/-- A write of 1 to SEC_ATT_CTRL.go. -/
def State.attestGo (s : State) (fn : Nat) : State :=
  if s.get .SEC_ATT_STATUS_state == 1 || s.get .SEC_ATT_ADDR % 64 != 0 then s.code secPage fn 0x188 0xE5
  else
    let es := s.planEntries.take 16
    let fixed := (0x018, leBytes 4 s.capsBlock ++ leBytes 4 s.modeWord) :: (0x090, leBytes 4 es.length) ::
      es.zipIdx.map (fun x => (0x100 + 48 * x.2, x.1))
    (s.set .SEC_ATT_STATUS_state 0 0 1).modMgt (fun m => { m with attest := fixed })

/-- MGT_RESET_CAUSE as a word. -/
def State.causeWord (s : State) : Nat :=
  s.activeWord [.MGT_RESET_CAUSE_power_on, .MGT_RESET_CAUSE_pin, .MGT_RESET_CAUSE_software, .MGT_RESET_CAUSE_coolant, .MGT_RESET_CAUSE_thermal,
    .MGT_RESET_CAUSE_warm, .MGT_RESET_CAUSE_hbm_kept, .MGT_RESET_CAUSE_scrubbed, .MGT_RESET_CAUSE_minimal] mgtPage 0x108

/-- The report without its signature: bytes 0x000 to 0x6FF. -/
def State.reportBody (s : State) : List Nat :=
  placed 0x700 ([
    (0x000, leBytes 4 0x54544152 ++ leBytes 4 1), (0x008, leBytes 4 2176), (0x010, leBytes 8 s.fuses.serial),
    (0x020, leBytes 32 (s.get .SEC_ATT_NONCE)),
    (0x040, leBytes 4 (s.get .MGT_ROM_VERSION) ++ leBytes 4 (s.get .MGT_PATCH_VERSION) ++
      leBytes 4 (s.get .SEC_PATCH_STATUS_result + s.get .SEC_PATCH_STATUS_window * 2 ^ 8) ++ leBytes 4 s.mgt.patchSvn),
    (0x050, leBytes 32 (s.get .MGT_PATCH_DIGEST)),
    (0x070, leBytes 4 (b2n s.fuses.debugLocked + s.fuses.svnMin * 2 ^ 16) ++ leBytes 4 (s.get .SEC_ATT_STATUS_count) ++ leBytes 4 s.causeWord),
    (0x080, leBytes 16 s.fuses.disabled), (0x400, leBytes 384 (freeIdentity 0)), (0x580, leBytes 384 (freeIdentity 1))] ++ s.mgt.attest)

/-- SEC writes the report, or fails. -/
def State.attestDone (s : State) : State :=
  if s.get .SEC_ATT_STATUS_state != 1 then s
  else if !s.linkUp then
    ((s.hostOut (.hostWrite (s.get .SEC_ATT_ADDR) [])).set .SEC_ATT_STATUS_state 0 0 3).raise secPage 3
  else
    let report := s.reportBody ++ leBytes 384 (freeSignature s.draws)
    let s := { s with draws := s.draws + 1 }
    let s := (s.hostOut (.hostWrite (s.get .SEC_ATT_ADDR) report)).set .SEC_ATT_STATUS_state 0 0 2
    (s.set .SEC_ATT_STATUS_count 0 0 (s.get .SEC_ATT_STATUS_count + 1)).raise secPage 2

/-- A write of SEC_ATT_NONCE or SEC_ATT_ADDR while a report is in the making is refused. -/
def State.attestHeld (s : State) (fn off : Nat) (act : State → State) : State :=
  if s.get .SEC_ATT_STATUS_state == 1 then s.code secPage fn off 0xE5 else act s

/-! ## Steps of a start (R484 to R490) -/

/-- The number of the first step that is not complete (R510). -/
def State.stepNow (s : State) : Nat :=
  let m := s.mgt
  if m.fuseTick.isNone then 1 else if !m.velvetOk then 2 else if !m.linkOk then 3 else if !m.hbmOk then 5
  else if !m.patchOk then 6 else if !m.scrubOk then 7 else 8

/-- Are steps 1 to 7 complete? -/
def State.mayRestore (s : State) : Bool := s.stepNow == 8 && !s.isOn .MGT_STATUS_ready

/-- The end of the settings restore (R352, R398, R484): the outputs take their safe levels, TRK works, and the device is ready. -/
def State.startEnds (s : State) : State :=
  let s := (s.set .FIOX_SAFE_LOW 0 0 0).foUpdate
  let s := s.modTrk (fun t => TrkState.fill t 64)
  let s := (s.set .MGT_STATUS_ready 0 0 1).modMgt (fun m => { m with readyTick := s.tick, kept := [] })
  s.raise mgtPage 0

/-- After a step completes: STATUS.step, and the end of a minimal start, which has no step 8 (R490). -/
def State.startMoves (s : State) : State :=
  let s := if s.isOn .MGT_STATUS_ready then s else s.set .MGT_STATUS_step 0 0 s.stepNow
  if s.mayRestore && s.isOn .MGT_RESET_CAUSE_minimal then (s.set .RET_STATUS_source 0 0 3).startEnds else s

/-- The fuses are loaded (R57, R481, R502, R567). -/
def State.fusesLoaded (s : State) : State :=
  if s.mgt.inReset || s.mgt.fuseTick.isSome then s
  else
    let s := s.modMgt (fun m => { m with fuseTick := some s.tick })
    let s := { s with flt := { s.flt with leakEnds := (List.range 6).map (fun t => s.tick + s.leakTicks t) } }
    s.startMoves

/-- A recorded instance takes the permanent handling of its type at a start (R505). -/
def State.retiredAtStart (s : State) (t i : Nat) : State :=
  match t with
  | 0 => ((s.set (.STATUS_retired .memPc) i 0 1).set .MEM_RETIRED 0 0 (putBit (s.get .MEM_RETIRED) i true)).raise ⟨.memPc, i⟩ 4
  | 1 => s.laneRetire i
  | 2 => (s.set (.STATUS_retired .clu) i 0 1).raise ⟨.clu, i⟩ 3
  | 3 => (s.set (.STATUS_retired .enc) i 0 1).raise (encPage i) 4
  | 4 => (s.set .EJTX_VP_SAFE 0 0 (putBit (s.get .EJTX_VP_SAFE) i true)).raise ejtPage 5
  | 5 => (s.set .FIO_RETIRED 0 0 (putBit (s.get .FIO_RETIRED) i true)).raise fioPage 5
  | _ => s

/-- The retirement record without the copies that hold an uncorrectable word (R493, R504). -/
def Velvet.checked (v : Velvet) (ue0 ue1 : Bool) : Velvet :=
  match v.recs with
  | [a, b] =>
    let before (r : RetireRec) : RetireRec := { seq := (r.seq + 2 ^ 32 - 1) % 2 ^ 32 }
    { v with recs := if ue0 && ue1 then [{}, {}] else if ue0 then [before b, b] else if ue1 then [a, before a] else [a, b] }
  | _ => v

/-- The patch window opens (R491). -/
def State.windowOpens (s : State) : State :=
  if s.mgt.patchOk then s else (s.set .SEC_PATCH_STATUS_window 0 0 1).modMgt (fun m => { m with windowTick := s.tick })

/-- Steps 3 to 5 begin (R484, R526): the host link counts as trained while it is up. -/
def State.stepThree (s : State) : State :=
  let s := s.modMgt (fun m => { m with velvetOk := true, coolantWait := false, thermStop := false })
  (if s.linkUp then (s.modMgt (fun m => { m with linkOk := true })).windowOpens else s).startMoves

/-- Step 2 ends (R488, R490, R493, R505, R526): whether COOLANT_OK is high, and which parts of Velvet hold an uncorrectable word. -/
def State.velvetChecked (s : State) (coolant dirUe recUe0 recUe1 : Bool) : State :=
  if s.mgt.inReset || s.mgt.fuseTick.isNone || s.mgt.velvetOk || s.mgt.coolantWait then s
  else
    let v := s.velvet.checked recUe0 recUe1
    let r := v.record.2
    let n := if dirUe then 0 else v.fails
    let starts := (if dirUe then (r.ring.map (fun e => e.start)).foldl max 0 else v.starts) + 1
    let due := if dirUe then freeScrubDue s.draws % 2 == 1 else v.scrubDue
    let fails := min (n + 1) 255
    let s := { s with draws := s.draws + 1, velvet := { v with fails := fails, starts := starts % 2 ^ 32, scrubDue := due } }
    let s := (s.set .MGT_START_FAILS 0 0 fails).set .MGT_START_COUNT 0 0 starts
    let s := if dirUe || recUe0 || recUe1 then s.raise retPage 3 else s
    let s := s.forEach r.marks (fun s m => s.retiredAtStart m.1 m.2)
    let s := s.modMgt (fun m => { m with scrubWanted := m.scrubWanted || due })
    let s := if 3 ≤ n then
        ((s.set .MGT_RESET_CAUSE_minimal 0 0 1).set .SEC_PATCH_STATUS_result 0 0 9).modMgt (fun m => { m with patchOk := true })
      else s
    if coolant then s.stepThree else (s.modMgt (fun m => { m with coolantWait := true })).startMoves

/-- COOLANT_OK rises during the wait of step 2 (R526). -/
def State.coolantRises (s : State) : State := if s.mgt.coolantWait then s.stepThree else s

/-- HBM is trained, or keeps its training values (R483 to R485). -/
def State.hbmTrained (s : State) (kept : Bool) : State :=
  if !s.mgt.velvetOk || s.mgt.hbmOk then s
  else
    let performed := s.mgt.cold || !s.isOn .MGT_RESET_CAUSE_hbm_kept || !kept
    let scrub := s.mgt.cold || s.mgt.scrubWanted || performed
    (s.modMgt (fun m => { m with hbmOk := true, scrubOk := !scrub, selfRefresh := false })).startMoves

/-- The start scrub has written every line (R318, R485). -/
def State.scrubbed (s : State) : State :=
  if !s.mgt.hbmOk || s.mgt.scrubOk then s
  else
    let s := { s with hbm := {}, velvet := { s.velvet with scrubDue := false } }
    ((s.set .MGT_RESET_CAUSE_scrubbed 0 0 1).modMgt (fun m => { m with scrubOk := true })).startMoves

/-! ## The host link (R405, R406, R491, R565) -/

/-- The page of HLK. -/
def hlkPage : PageId := ⟨.hlk, 0⟩

/-- The host link goes down. -/
def State.linkFalls (s : State) : State :=
  if !s.linkUp then s
  else
    let s := ((s.set .HLK_LINK_STATUS_up 0 0 0).set .HLK_LINK_STATUS_modules 0 0 0).count .HLK_CNT_DOWN 0 0 1
    s.raise hlkPage 3

/-- The host link is trained and comes up, at a rate, on `modules` modules, with `repaired` lanes repaired. -/
def State.linkRises (s : State) (rate modules repaired : Nat) : State :=
  if s.linkUp || modules = 0 || 2 < modules || s.mgt.inReset then s
  else
    let r := min rate (s.get .HLK_LINK_CFG_max_rate)
    let s := ((s.set .HLK_LINK_STATUS_up 0 0 1).set .HLK_LINK_STATUS_rate 0 0 r).set .HLK_LINK_STATUS_modules 0 0 modules
    let s := s.set .HLK_LINK_STATUS_repaired 0 0 repaired
    let s := s.raiseMask hlkPage (2 ^ 2 + (if modules = 1 then 2 ^ 4 else 0) + (if s.mgt.wrLost then 2 ^ 5 else 0)) 0 false
    let s := s.modMgt (fun m => { m with wrLost := false })
    if s.mgt.velvetOk && !s.mgt.linkOk then ((s.modMgt (fun m => { m with linkOk := true })).windowOpens).startMoves else s

/-! ## The patch bundle (R491, R492) -/

/-- The window closes, and step 6 is complete when nothing is fetched. -/
def State.windowCloses (s : State) (fetch : Bool) : State :=
  let s := s.set .SEC_PATCH_STATUS_window 0 0 0
  (s.modMgt (fun m => { m with fetching := fetch, patchOk := !fetch })).startMoves

/-- A write of SEC_PATCH_CTRL. -/
def State.patchCtrl (s : State) (fn v : Nat) : State :=
  if !s.isOn .SEC_PATCH_STATUS_window then s.code secPage fn 0x14C 0xE4
  else if bit v 0 then (s.set .SEC_PATCH_CTRL_go 0 0 1).windowCloses true
  else if bit v 1 then s.windowCloses false
  else s

/-- The window has been open for 5 s. -/
def State.windowTimesOut (s : State) : State :=
  if s.isOn .SEC_PATCH_STATUS_window then (s.runTo (s.mgt.windowTick + 2000000000)).windowCloses false else s

/-- A write of a SEC_PATCH register outside the window is refused. -/
def State.patchHeld (s : State) (fn off : Nat) (act : State → State) : State :=
  if s.isOn .SEC_PATCH_STATUS_window then act s else s.code secPage fn off 0xE4

/-- The status of a bundle (R492); 1 is ACCEPTED. -/
def State.bundleStatus (s : State) (b : List Nat) : Nat :=
  let at' (off n : Nat) : Nat := ofLe ((b.drop off).take n)
  let zero (lo hi : Nat) : Bool := ((b.drop lo).take (hi - lo)).all (fun x => x == 0)
  let len := at' 0x008 4
  let pay := at' 0x018 4
  let form := 0x400 ≤ b.length && at' 0 4 == 0x4B524B50 && at' 4 4 == 1 && len ≤ 1048576 && len == 0x400 + pay + 384 && b.length == len &&
    zero 0x016 0x018 && zero 0x01C 0x020 && zero 0x040 0x100 && zero 0x284 0x400
  let modulus := (b.drop 0x100).take 384
  if !form then 2
  else if at' 0x00C 4 != s.get .MGT_ROM_VERSION then 3
  else if ofLe (sha256 modulus) != s.fuses.vkeyHash || at' 0x280 4 != 65537 then 4
  else if at' 0x014 2 < s.fuses.svnMin then 5
  else if !rsaVerify modulus (b.take (len - 384)) (b.drop (len - 384)) then 6
  else if sha256 ((b.drop 0x400).take pay) != (b.drop 0x020).take 32 then 7
  else 1

/-- The bundle has been fetched and checked, or its fetch failed. -/
def State.patchChecked (s : State) (b : List Nat) (fetched : Bool) : State :=
  if !s.mgt.fetching then s
  else
    let r := if fetched then s.bundleStatus b else 8
    let s := (s.set .SEC_PATCH_STATUS_result 0 0 r).set .SEC_PATCH_CTRL_go 0 0 0
    let s := if r = 1 then
        ((s.set .MGT_PATCH_VERSION 0 0 (ofLe ((b.drop 0x010).take 4))).set .MGT_PATCH_DIGEST 0 0 (ofLe (sha256 b))).modMgt (fun m =>
          { m with patchSvn := ofLe ((b.drop 0x014).take 2) })
      else s
    let s := s.raise secPage (if r = 1 then 0 else 1)
    (s.modMgt (fun m => { m with fetching := false, patchOk := true })).startMoves

/-! ## Stops (R524, R525, R483, R558) -/

/-- A stop begins, or a second cause arises on its tick. -/
def State.stopNow (s : State) (coolant : Bool) : State :=
  let mark (s : State) : State := s.modMgt (fun m => { m with next :=
    if coolant then { m.next with coolant := true } else { m.next with thermal := true } })
  if s.mgt.inReset || (coolant && !s.mgt.velvetOk) then s
  else if s.stopped then (if s.mgt.stopTick == some s.tick then mark s else s)
  else
    let s := (mark s).modMgt (fun m => { m with stopTick := some s.tick, thermStop := true, selfRefresh := true })
    let s := s.safeHold 3
    let s := s.forEach (List.range 24) (fun s l => s.laneSleep l)
    let s := if s.isOn (.CTRL_enable .ejt) then s.forEach (List.range 4) (fun s n =>
        (s.set .EJTX_VP_CUR 0 n (s.get .FIO_SAFE_VP 0 n)).set .EJTX_VP_LATCHED 0 n (s.get .FIO_SAFE_VP 0 n)) else s
    let jobs := s.cmd.jobs.map (fun j => { j with run := j.run.map (fun r => { r with tiles := [] }) })
    let attn := s.attn.map (fun a => { a with units := a.units.map (fun u => { u with engine := none }) })
    let dec := s.dec.map (fun d => { d with running := [] })
    let s := { s with cmd := { s.cmd with jobs := jobs }, attn := attn, dec := dec }
    let s := (s.sendVid 20).set .MGTX_STOPPED 0 0 1
    { s with pwr := { s.pwr with raise := none, throttled := 0 } }

/-! ## Resets (R482, R483, R486, R552, R553, R561) -/

/-- The values that a lane runs with. -/
def State.laneRan (s : State) (l : Nat) : List Nat :=
  [s.get .LAN_MODE_mode l, s.get .LAN_MODE_cam l, s.get .LAN_MODE_width l, s.get .LAN_MODE_index l, s.get .LAN_RATE_cxp_speed l,
    s.get .LAN_RATE_raw_mbps l]

/-- The cells of a lane that keeps its lock (R486). -/
def laneKeeps : List Fld :=
  [.LAN_STATUS_locked, .LAN_STATUS_rx_now, .LAN_STATUS_speed, .LANX_RX_TARGET, .LAN_POL_rx_inverted, .LAN_STATUS_train_match,
    .LAN_STATUS_train_match_inv, .LANX_EQ_CTLE, .LANX_EQ_DFE]

/-- Velvet after a reset: a snapshot write that it interrupts has zeroed the magic of the copy it was writing (R497). -/
def State.velvetCut (s : State) : Velvet :=
  if s.mgt.capture.isSome && s.held.isNone then
    { s.velvet with copies := listMod s.velvet.copies (1 - s.velvet.last) (fun c => { c with magic := 0 }) }
  else s.velvet

/-- The dies are reset: what is left is Velvet, the fuses, HBM, the SRAM, the lanes that keep their lock through a warm reset, and
the host link when the host die is not reset. -/
def State.wiped (s : State) (next : NextStart) (keepLink : Bool) : State :=
  let next := { next with coolant := s.mgt.next.coolant, thermal := s.mgt.next.thermal }
  let cold := next.cold && !(next.coolant || next.thermal)
  let lanes := if cold then [] else (List.range 24).filter (fun l => s.isOn .LAN_STATUS_locked l)
  let t : State := { State.reset with
    fuses := s.fuses, regs := [], hbm := s.hbm, sram := s.sram, velvet := s.velvetCut, tick := s.tick, out := s.out, draws := s.draws,
    pending := s.pending
    mgt := { resetLow := s.mgt.resetLow, inReset := true, next := { next with cold := cold }, cold := cold, selfRefresh := !cold
             kept := lanes.map (fun l => ⟨l, s.laneRan l⟩), resets := s.mgt.resets + 1 } }
  let t := t.forEach lanes (fun t l => t.forEach laneKeeps (fun t f => t.set f l 0 (s.get f l)))
  let t := t.set .TIM_STATUS_ref_mhz 0 0 (s.get .TIM_STATUS_ref_mhz)
  if keepLink && s.linkUp then
    (((t.set .HLK_LINK_STATUS_up 0 0 1).set .HLK_LINK_STATUS_rate 0 0 (s.get .HLK_LINK_STATUS_rate)).set .HLK_LINK_STATUS_modules 0 0
      (s.get .HLK_LINK_STATUS_modules)).set .HLK_LINK_STATUS_repaired 0 0 (s.get .HLK_LINK_STATUS_repaired)
  else t

/-- A start begins: its cause and kind are recorded (R482), and device time counts from here (R487). -/
def State.startBegins (s : State) : State :=
  let n := s.mgt.next
  let s := { s with sec := 0, ns := 0, frac := 0 }
  let s := (((s.set .MGT_RESET_CAUSE_power_on 0 0 (b2n n.powerOn)).set .MGT_RESET_CAUSE_pin 0 0 (b2n n.pin)).set
    .MGT_RESET_CAUSE_software 0 0 (b2n n.software)).set .MGT_RESET_CAUSE_coolant 0 0 (b2n n.coolant)
  let s := ((s.set .MGT_RESET_CAUSE_thermal 0 0 (b2n n.thermal)).set .MGT_RESET_CAUSE_warm 0 0 (b2n !n.cold)).set .MGT_RESET_CAUSE_hbm_kept 0 0
    (b2n (!n.cold && n.hbmKept))
  (s.modMgt (fun m => { m with inReset := false, next := {}, cold := n.cold, scrubWanted := n.scrub, thermStop := true })).startMoves

/-- RESET_N falls (R483, R552). -/
def State.resetFalls (s : State) : State := s.modMgt (fun m => { m with resetLow := true, selfRefresh := true, thermStop := true })

/-- RESET_N has been low for 1 µs (R552). -/
def State.resetTaken (s : State) : State :=
  if s.mgt.resetLow && !s.mgt.inReset then s.wiped { pin := true, hbmKept := true } false else s

/-- RESET_N rises (R551, R552): a start begins, or work continues. -/
def State.resetRises (s : State) (refsel : Bool) : State :=
  if !s.mgt.resetLow then s
  else
    let s := s.modMgt (fun m => { m with resetLow := false })
    if s.mgt.inReset then (s.set .TIM_STATUS_ref_mhz 0 0 (b2n refsel)).startBegins
    else if s.stopped then s
    else s.modMgt (fun m => { m with selfRefresh := false, thermStop := !m.velvetOk })

/-- Power comes (R482, R559): RESET_N is low. -/
def State.powerRises (s : State) : State :=
  let s := (s.modMgt (fun m => { m with next := {} })).wiped { powerOn := true, cold := true } false
  ({ s with sram := [] }).modMgt (fun m => { m with resetLow := true })

/-- A rail has been below its tolerance for 2 µs while RESET_N is high (R561). -/
def State.railFalls (s : State) : State :=
  if s.mgt.resetLow || s.mgt.inReset then s
  else (s.modMgt (fun m => { m with next := {} })).wiped { powerOn := true, cold := true } false |>.modMgt (fun m => { m with resetLow := true })

/-- A write of MGT_RESET (R483). -/
def State.resetWrite (s : State) (fn v : Nat) : State :=
  if bit v 0 && bits v 31 16 != 0xC0DE then s.code mgtPage fn 0x10C 0xE1
  else
    let s := ((s.set .MGT_RESET_kind 0 0 (b2n (bit v 4))).set .MGT_RESET_scrub 0 0 (b2n (bit v 8))).set .MGT_RESET_key 0 0 (bits v 31 16)
    if bit v 0 && s.mgt.request.isNone then
      (s.set .MGT_RESET_go 0 0 1).modMgt (fun m => { m with request := some (bit v 4, bit v 8) })
    else s

/-- The requested reset takes place once no Velvet write is in progress (R483, R494, R553). After a stop it is warm, and the host link
stays up (R482, R484). -/
def State.resetRuns (s : State) : State :=
  match s.mgt.request with
  | none => s
  | some (cold, scrub) =>
    if s.isOn .RET_STATUS_busy || !s.flt.unrecorded.isEmpty then s
    else
      let s := s.wiped { software := true, cold := cold, scrub := scrub, hbmKept := !cold || s.stopped } (!cold || s.stopped)
      s.startBegins

end Sys2Proof.Machine
end

