-- ==== Sys2Proof/Machine/ArrayRows.lean ====
section
/-!
DEFINITION. Machine/ArrayRows.lean: what happens on the array, Fawn and their memories (R165 to R199), in CMD (R184 to R187, R417 to R429),
in memory (R297, R311 to R317, R567), in ATN (R266 to R284) and in DEC (R438 to R456).
-/
namespace Sys2Proof.Machine

/-! ## Effects -/

/-- A CQ's coalescing time passes: the clock runs to its end (R423). -/
def State.cqTimerEnds (s : State) (p c : Nat) : State :=
  match s.cmd.cqs.find? (fun x => x.part == p && x.cq == c) with
  | none => s
  | some x => if s.get .CMD_CQ_CFG_coal_us p c = 0 then s else (s.runTo (x.since + 400 * s.get .CMD_CQ_CFG_coal_us p c)).cqTimer p c

/-- A BE job's slice passes: the clock runs to its end (R425). -/
def State.slicePasses (s : State) (p : Nat) : State :=
  let sc := s.sch p
  if !s.partIsBe p || sc.running.isNone || sc.ending then s else (s.runToNs sc.sliceEnd).sliceEnds p

/-- A non-preemptible descriptor has run for 200 µs: the clock runs to there (R428). -/
def State.watchdogPasses (s : State) (p : Nat) : State :=
  match s.watched p with
  | none => s
  | some (_, _, first) => (s.runTo (first + 80000)).watchdogAbort p

/-- A refresh occurrence of a pseudo-channel (R316): counted, and in each step with a read outstanding there (R468). -/
def State.refreshOf (s : State) (pc : Nat) : State :=
  if s.mgt.selfRefresh then s
  else
    let s := (s.count .MEM_PC_REFRESH pc 0 1).pmc 0x26 pc 1 none
    let here (t : TileRun) : Bool := t.reads.any (fun l => (s.keyOf l.1).map (fun k => k / 2 ^ 30) == some pc)
    { s with cmd := { s.cmd with jobs := s.cmd.jobs.map (fun j => { j with
        run := j.run.map (fun r => if r.tiles.any here then { r with refresh := r.refresh + 1 } else r) }) } }

/-- A read finds a correctable error in a line of a pseudo-channel (R312); in a page of an enabled pool it is a page read (R286). -/
def State.correctableIn (s : State) (pc line : Nat) : State :=
  if 12582912 ≤ line then s
  else
    let key := pc * 2 ^ 30 + line * 64
    let t := s.ceFound key
    if s.pageLine key then t.sramCount ⟨.atn, 0⟩ .ATN_ECC_CE .ATNX_WIN_CE .ATNX_CE_DONE .ATN_CE_THR 1 else t

/-- A window of the bandwidth regulators starts in every enabled region (R297). -/
def State.bwWindows (s : State) : State :=
  s.forEach ((List.range 8).filter (fun p => s.isOn (.CTRL_enable .memPart) p)) (fun s p => s.bwWindow p)

/-- The request that waits longest for its reply times out: the clock runs to there (R284). -/
def State.peerReadPasses (s : State) : State :=
  match s.openReq (fun _ => true) with
  | none => s
  | some (_, q) => (s.runTo (q.since + 400 * s.get .ATN_PEER_TMO)).peerReadTimeout

/-! ## Array and Fawn -/

/-- JOB_SCHEDULE (R417, R424, R425). -/
def execJobSchedule (part : Part) (s : State) : Host.Outcome State Fault Refusal := .next (s.whenAwake (fun s => s.schedule part))

/-- TILE_ASSIGN (R165 to R167, R197, R199). -/
def execTileAssign (part : Part) (s : State) : Host.Outcome State Fault Refusal := .next (s.whenAwake (fun s => s.assignTile part))

/-- MEMORY_READ_RETURN (R165, R166). -/
def execMemoryReadReturn (part : Part) (seq : Nat) (s : State) : Host.Outcome State Fault Refusal :=
  .next (s.whenAwake (fun s => s.readReturns part seq))

/-- TILE_COMPLETE (R165). -/
def execTileComplete (part : Part) (seq : Nat) (s : State) : Host.Outcome State Fault Refusal :=
  .next (s.whenAwake (fun s => s.completeTile part seq))

/-- FAWN_PASS_READY (R181). -/
def execFawnPassReady (part : Part) (s : State) : Host.Outcome State Fault Refusal := .next (s.whenAwake (fun s => s.fawnReady part))

/-- FAWN_PASS_DONE (R181). -/
def execFawnPassDone (s : State) : Host.Outcome State Fault Refusal := .next (s.whenAwake (fun s => s.fawnDone))

/-- SRAM_CORRECTED (R188, R193, R286). -/
def execSramCorrected (site : SramSite) (addr : Nat) (s : State) : Host.Outcome State Fault Refusal :=
  .next (s.whenAwake (fun s => s.sramCorrected site addr))

/-- SRAM_UE (R188, R193, R286). -/
def execSramUe (site : SramSite) (addr : Nat) (s : State) : Host.Outcome State Fault Refusal :=
  .next (s.whenAwake (fun s => s.sramBad site addr))

/-! ## CMD -/

/-- DEADLINE_POINT (R429). -/
def execDeadlinePoint (id : PartId) (s : State) : Host.Outcome State Fault Refusal := .next (s.whenAwake (fun s => s.deadlineCheck id))

/-- PLAN_CHECK_DONE (R184, R186). -/
def execPlanCheckDone (part : Part) (slot : PlanSlot) (s : State) : Host.Outcome State Fault Refusal :=
  .next (s.whenAwake (fun s => s.planChecked part slot))

/-- PLAN_SWITCH (R186). -/
def execPlanSwitch (part : Part) (slot : PlanSlot) (s : State) : Host.Outcome State Fault Refusal :=
  .next (s.whenAwake (fun s => s.switchSlot part slot))

/-- SQ_RUN (R420, R421). -/
def execSqRun (part : Part) (sq : Unit16) (entry : BitVec 512) (s : State) : Host.Outcome State Fault Refusal :=
  .next (s.whenAwake (fun s => s.sqRun part sq entry.toNat))

/-- SQ_STOP (R420, R421). -/
def execSqStop (part : Part) (sq : Unit16) (entry : BitVec 512) (s : State) : Host.Outcome State Fault Refusal :=
  .next (s.whenAwake (fun s => s.sqStop part sq entry.toNat))

/-- SQ_FENCE (R420, R421). -/
def execSqFence (part : Part) (sq : Unit16) (entry : BitVec 512) (s : State) : Host.Outcome State Fault Refusal :=
  .next (s.whenAwake (fun s => s.sqFence part sq entry.toNat))

/-- REFUSED_OPCODE (R421). -/
def execRefusedOpcode (part : Part) (sq : Unit16) (entry : BitVec 512) (s : State) : Host.Outcome State Fault Refusal :=
  .next (s.whenAwake (fun s => s.sqUnknown part sq entry.toNat))

/-- HOST_READ_FAILED (R435). -/
def execHostReadFailed (part : Part) (sq : Unit16) (s : State) : Host.Outcome State Fault Refusal :=
  .next (s.whenAwake (fun s => s.sqReadFails part sq))

/-- CQ_COALESCE_TIMER (R423). -/
def execCqCoalesceTimer (part : Part) (cq : Unit32) (s : State) : Host.Outcome State Fault Refusal :=
  .next (s.whenAwake (fun s => s.cqTimerEnds part cq))

/-- SLICE_END (R425, R426). -/
def execSliceEnd (part : Part) (s : State) : Host.Outcome State Fault Refusal := .next (s.whenAwake (fun s => s.slicePasses part))

/-- JOB_SWITCH_DONE (R425, R427). -/
def execJobSwitchDone (part : Part) (s : State) : Host.Outcome State Fault Refusal := .next (s.whenAwake (fun s => s.switchDone part))

/-- NONPREEMPT_WATCHDOG (R428). -/
def execNonpreemptWatchdog (part : Part) (s : State) : Host.Outcome State Fault Refusal :=
  .next (s.whenAwake (fun s => s.watchdogPasses part))

/-! ## Memory -/

/-- UNCORRECTABLE_READ (R313). -/
def execUncorrectableRead (pc : Pc) (word : Nat) (consumer : Consumer) (s : State) : Host.Outcome State Fault Refusal :=
  .next (s.whenAwake (fun s => s.wordConsumed pc word consumer))

/-- CORRECTABLE_READ (R312). -/
def execCorrectableRead (pc : Pc) (line : Nat) (s : State) : Host.Outcome State Fault Refusal :=
  .next (s.whenAwake (fun s => s.correctableIn pc line))

/-- ECC_WRITEBACK (R312). -/
def execEccWriteback (pc : Pc) (s : State) : Host.Outcome State Fault Refusal := .next (s.whenAwake (fun s => s.writeBack pc))

/-- BW_WINDOW_START (R297, R301). -/
def execBwWindowStart (s : State) : Host.Outcome State Fault Refusal := .next (s.whenAwake (fun s => s.bwWindows))

/-- REFRESH (R316). -/
def execRefresh (pc : Pc) (s : State) : Host.Outcome State Fault Refusal := .next (s.whenAwake (fun s => s.refreshOf pc))

/-- SCRUB_READ (R317). -/
def execScrubRead (s : State) : Host.Outcome State Fault Refusal := .next (s.whenAwake (fun s => s.scrubLine))

/-- ERROR_WINDOW_END (R567). -/
def execErrorWindowEnd (s : State) : Host.Outcome State Fault Refusal := .next (s.whenAwake (fun s => s.windowEnds))

/-! ## ATN -/

/-- KV_APPEND_ISSUE (R267). -/
def execKvAppendIssue (part : Part) (s : State) : Host.Outcome State Fault Refusal := .next (s.whenAwake (fun s => s.kvAppend part))

/-- ATTN_ISSUE (R271). -/
def execAttnIssue (part : Part) (s : State) : Host.Outcome State Fault Refusal := .next (s.whenAwake (fun s => s.attnIssue part))

/-- ATN_WORK_UNIT_DONE (R280). -/
def execAtnWorkUnitDone (engine : Engine) (s : State) : Host.Outcome State Fault Refusal := .next (s.whenAwake (fun s => s.unitEnds engine))

/-- PEER_READ_TIMEOUT (R284). -/
def execPeerReadTimeout (s : State) : Host.Outcome State Fault Refusal := .next (s.whenAwake (fun s => s.peerReadPasses))

/-- TABLE_FREED (R266, R354). -/
def execTableFreed (id : PartId) (s : State) : Host.Outcome State Fault Refusal := .next (s.whenAwake (fun s => s.tableFreed id))

/-! ## DEC -/

/-- DEC_FETCH_ISSUE (R438, R449). -/
def execDecFetchIssue (part : Part) (s : State) : Host.Outcome State Fault Refusal := .next (s.whenAwake (fun s => s.decFetch part))

/-- DEC_SAMPLE_DECODED (R447, R449). -/
def execDecSampleDecoded (engine : Unit32) (s : State) : Host.Outcome State Fault Refusal :=
  .next (s.whenAwake (fun s => s.sampleDecoded engine))

/-- DEC_SAMPLE_DELIVERED (R450). -/
def execDecSampleDelivered (s : State) : Host.Outcome State Fault Refusal := .next (s.whenAwake (fun s => s.sampleDelivered))

/-- DEC_COMMIT_ISSUE (R454, R456). -/
def execDecCommitIssue (part : Part) (s : State) : Host.Outcome State Fault Refusal := .next (s.whenAwake (fun s => s.decCommit part))

end Sys2Proof.Machine
end

