-- ==== Sys2Proof/Machine/BeltRows.lean ====
section
/-!
DEFINITION. Machine/BeltRows.lean: what happens in TRK and EJT (R352 to R390), at the encoder ports (R326 to R340), in TIM (R341 to R348)
and in FIO (R392 to R401). A row that names the end of a stated time runs the clock to it.
-/
namespace Sys2Proof.Machine

/-! ## Part lists and verdicts -/

/-- Kind of an OPEN entry (R227). -/
def kindOpen : Nat := 0
/-- Kind of a CONT entry (R227). -/
def kindCont : Nat := 1
/-- Kind of a CLOSE entry (R227). -/
def kindClose : Nat := 2
/-- Kind of an OPEN_CLOSE entry (R227). -/
def kindOpenClose : Nat := 3
/-- Kind of a MERGED entry (R227). -/
def kindMerged : Nat := 4
/-- Kind of a SPAN entry (R227). -/
def kindSpan : Nat := 5

/-- TRK takes the oldest part list entry, when it goes to overflow spans (R357, R362). -/
def State.takeSpan (s : State) : State :=
  match s.trk.entries with
  | [] => s
  | e :: rest => if e.ovf || e.kind == kindSpan then (s.modTrk (fun t => { t with entries := rest })).spanTake e.ctx e.first e.last else s

/-- TRK takes the oldest part list entry, when it is of a kind and does not go to overflow spans (R357). -/
def State.takeEntry (s : State) (kind : Nat) (act : State → PartEntry → State) : State :=
  match s.trk.entries with
  | [] => s
  | e :: rest => if !e.ovf && e.kind == kind then act (s.modTrk (fun t => { t with entries := rest })) e else s

/-- TRK takes the oldest verdict of the array, when it is of a mode (R363). -/
def State.takeVerdict (s : State) (final : Bool) : State :=
  match s.trk.verdicts with
  | [] => s
  | v :: rest => if v.final == final then (s.modTrk (fun t => { t with verdicts := rest })).trkVerdict v false else s

/-- PART_OPEN (R357). -/
def execPartOpen (s : State) : Host.Outcome State Fault Refusal :=
  .next (s.whenAwake (fun s => s.takeEntry kindOpen (fun s e => s.recOpen e 1)))

/-- PART_OPEN_CLOSE (R356, R357). -/
def execPartOpenClose (s : State) : Host.Outcome State Fault Refusal :=
  .next (s.whenAwake (fun s => s.takeEntry kindOpenClose (fun s e => s.recOpen e 2)))

/-- PART_CONT (R357). -/
def execPartCont (s : State) : Host.Outcome State Fault Refusal :=
  .next (s.whenAwake (fun s => s.takeEntry kindCont (fun s e => s.recUpdate e false)))

/-- PART_CLOSE (R357). -/
def execPartClose (s : State) : Host.Outcome State Fault Refusal :=
  .next (s.whenAwake (fun s => s.takeEntry kindClose (fun s e => s.recUpdate e true)))

/-- PART_MERGED (R358). -/
def execPartMerged (s : State) : Host.Outcome State Fault Refusal :=
  .next (s.whenAwake (fun s => s.takeEntry kindMerged (fun s e => s.recMerge e)))

/-- PART_SPAN (R362). -/
def execPartSpan (s : State) : Host.Outcome State Fault Refusal := .next (s.whenAwake (fun s => s.takeSpan))

/-- VERDICT_ARM (R363, R364). -/
def execVerdictArm (s : State) : Host.Outcome State Fault Refusal := .next (s.whenAwake (fun s => s.takeVerdict false))

/-- VERDICT_FINAL (R363, R364). -/
def execVerdictFinal (s : State) : Host.Outcome State Fault Refusal := .next (s.whenAwake (fun s => s.takeVerdict true))

/-! ## Commit points and firings -/

/-- RECORD_COMMIT (R370, R371). -/
def execRecordCommit (span : Bool) (id : PartId) (s : State) : Host.Outcome State Fault Refusal :=
  .next (s.whenAwake (fun s => s.commitDue span id))

/-- FIRING_ON (R377). -/
def execFiringOn (span : Bool) (id : PartId) (bank : Bank) (s : State) : Host.Outcome State Fault Refusal :=
  .next (s.whenAwake (fun s => s.onDue span id bank))

/-- FIRING_OFF (R377). -/
def execFiringOff (span : Bool) (id : PartId) (bank : Bank) (s : State) : Host.Outcome State Fault Refusal :=
  .next (s.whenAwake (fun s => s.offDue span id bank))

/-- MIN_TIME_HOLD_END (R378). -/
def execMinTimeHoldEnd (path : ValvePath) (valve : ValveNo) (s : State) : Host.Outcome State Fault Refusal :=
  .next (s.whenAwake (fun s => s.holdEnds path valve))

/-- MAX_ON_EXPIRY (R379). -/
def execMaxOnExpiry (path : ValvePath) (valve : ValveNo) (s : State) : Host.Outcome State Fault Refusal :=
  .next (s.whenAwake (fun s => s.limitEnds path valve))

/-- VP_FRAME_BOUNDARY (R381). -/
def execVpFrameBoundary (ret0 ret1 ret2 ret3 : BitVec 128) (s : State) : Host.Outcome State Fault Refusal :=
  .next (s.whenAwake (fun s => s.frameBoundary [ret0.toNat, ret1.toNat, ret2.toNat, ret3.toNat]))

/-! ## Encoder ports -/

/-- ENCODER_EDGE (R327). -/
def execEncoderEdge (port : EncPort) (a b : Bool) (s : State) : Host.Outcome State Fault Refusal :=
  .next (s.whenAwake (fun s => s.encEdge port a b))

/-- INDEX_EDGE (R334, R347). -/
def execIndexEdge (port : EncPort) (high : Bool) (s : State) : Host.Outcome State Fault Refusal :=
  .next (s.whenAwake (fun s => s.encIndex port high))

/-- ABS_FRAME_COMPLETE (R329, R330, R340). -/
def execAbsFrameComplete (port : EncPort) (samples : List Bool) (s : State) : Host.Outcome State Fault Refusal :=
  .next (s.whenAwake (fun s => s.absComplete port samples))

/-- SINCOS_SAMPLE (R331, R332, R340): signed 14-bit codes. -/
def execSincosSample (port : EncPort) (sn cs : BitVec 14) (s : State) : Host.Outcome State Fault Refusal :=
  .next (s.whenAwake (fun s => s.scSample port sn.toInt cs.toInt))

/-- SPEED_WINDOW_END (R335). -/
def execSpeedWindowEnd (port : EncPort) (s : State) : Host.Outcome State Fault Refusal := .next (s.whenAwake (fun s => s.speedEnd port))

/-! ## Device time -/

/-- PPS_EDGE (R342, R347). -/
def execPpsEdge (rising : Bool) (s : State) : Host.Outcome State Fault Refusal := .next (s.ppsEdge rising)

/-- SECONDS_ROLLOVER (R348). -/
def execSecondsRollover (s : State) : Host.Outcome State Fault Refusal := .next (s.secondEnds)

/-- COMPARE_MATCH (R345, R346). -/
def execCompareMatch (unit : Unit16) (s : State) : Host.Outcome State Fault Refusal := .next (s.cmpMatch unit)

/-- REF_LOST (R343). -/
def execRefLost (s : State) : Host.Outcome State Fault Refusal := .next (s.refLost)

/-- REF_RETURN (R343). -/
def execRefReturn (s : State) : Host.Outcome State Fault Refusal := .next (s.refBack)

/-! ## Field signals -/

/-- FIELD_INPUT_SAMPLE (R392 to R397). -/
def execFieldInputSample (on broken : BitVec 32) (readback : BitVec 16) (s : State) : Host.Outcome State Fault Refusal :=
  .next (s.whenAwake (fun s => s.fioSample on.toNat broken.toNat readback.toNat))

/-- WATCHDOG_EXPIRY (R399). -/
def execWatchdogExpiry (s : State) : Host.Outcome State Fault Refusal := .next (s.whenAwake (fun s => s.wdogEnds))

end Sys2Proof.Machine
end

