-- ==== Sys2Proof/Machine/Reads.lean ====
section
/-!
DEFINITION. Machine/Reads.lean: what a host read of a register shows (R9, R10, R12, R18, R41, R45, R55, R60, R487): the
stored fields, and the fields whose value follows from the rest of the state.
-/
namespace Sys2Proof.Machine

/-! ## Work in progress (R45, R47) -/

/-- STATUS.active of a page: work in progress, as each block has it. DEDUCED: the chapters name the work of a CAP context (R125)
and an LNP context (R137) only. -/
def State.active (s : State) (p : PageId) : Bool :=
  match p.kind with
  | .lan => s.isOn .LAN_MBX_CTRL_send p.inst || s.isOn .LAN_STATUS_waking p.inst
  | .lanPeer => !(s.peer p.inst).unacked.isEmpty || !(s.peer p.inst).waiting.isEmpty
  | .capCtx => s.capActive p.inst
  | .cap => (List.range 64).any s.capActive
  | .lnpCtx => !s.lnpIdle p.inst
  | .lnp => s.lnp.busy.isSome
  | .clu => match s.logicalOf p.inst with
    | some n => s.threads.any (fun t => t.1 == n)
    | none => false
  | .arr => !s.threads.isEmpty
  | .fwn => !s.fwn.isEmpty
  | .atn => s.engBusy != 0
  | .atnPool => !(s.pool p.inst).pushes.isEmpty ||
      s.attn.any (fun a => a.reqs.any (fun r => r.pool == p.inst && !r.arrived) ||
        a.boxes.any (fun b => b.table.isSome && b.pool == p.inst))
  | .memPart => (s.tilesOf p.inst).any (fun t => !t.reads.isEmpty)
  | .memPc => s.hbm.writeBacks.any (fun l => l * 64 / 2 ^ 30 == p.inst) ||
      ((s.occupancy 0x22).getD []).any (fun o => o.1 == p.inst)
  | .mem => !s.hbm.writeBacks.isEmpty || s.readsOut != 0
  | .dec => s.decBusy != 0
  | .enc => s.isOn .ENCX_BUSY p.inst
  | .cmd => s.cmd.jobs.any (fun j => j.run.isSome)
  | .cmdPart => (s.partJobs p.inst).any (fun j => j.run.isSome)
  | .trk => !s.trk.recs.isEmpty
  | .ejt => !s.trk.firings.isEmpty
  | .ret => s.isOn .RET_STATUS_busy
  | .sec => s.get .SEC_ATT_STATUS_state == 1 || s.mgt.fetching
  | .mgt | .pwr | .hlk | .tim | .fio | .pmc => false

/-- STATUS.quiesced of a page (R45, R566). -/
def State.quiesced (s : State) (p : PageId) : Bool :=
  p.kind.ownEnable && s.isOn (.CTRL_quiesce p.kind) p.inst && !s.active p

/-- CTRL.enable as it reads (R18, R566). -/
def State.enableShown (s : State) (p : PageId) : Bool :=
  if p.kind.ownEnable then s.isOn (.CTRL_enable p.kind) p.inst else !(p.kind == .clu && s.cluDisabled p.inst)

/-- Does a commit wait on a page (R45)? -/
def State.commitPending (s : State) (p : PageId) : Bool := s.commits.any (fun c => c.page == p)

/-! ## Header fields -/

/-- The header fields whose value follows from the rest of the state, by offset and lowest bit (R45). -/
def State.headerShown (s : State) (p : PageId) (off lo : Nat) : Option Nat :=
  let k := p.kind
  match off, lo with
  | 0x0, 24 => some k.code
  | 0x0, 16 => some p.inst
  | 0x0, 8 => some 1
  | 0x0, 0 => some 0
  | 0x4, 31 => some (b2n ((blockFlds k).any (fun f => f.acc == .rws)))
  | 0x4, 30 => some (b2n ((blockFlds k).any (fun f => f.ret)))
  | 0x4, 29 => some (b2n k.assignable)
  | 0x4, 23 => some (maskOf k.boundaries)
  | 0x4, 0 => some (if k == .mgt then s.capsBlock else 0)
  | 0x8, 0 => some (b2n (s.enableShown p))
  | 0xC, 0 => some (b2n (s.active p))
  | 0xC, 1 => some (b2n (s.quiesced p))
  | 0xC, 3 => some (b2n (s.commitPending p))
  | 0xC, 4 => some (b2n (s.evtPending p))
  | 0x20, 0 => some (b2n (s.commitPending p))
  | 0x28, 0 => some ((s.owner p).getD (s.get (.OWNER_partition k) p.inst))
  | 0x28, 7 => some (b2n (s.owner p).isSome)
  | 0x2C, 0 => some (b2n (s.isOn (.LOCK_locked k) p.inst || s.isOn (.LOCK_sticky k) p.inst))
  | _, _ => none

/-! ## Block fields -/

/-- The position of a physical cluster in its partition (R162, R410). -/
def State.cluPosition (s : State) (k : Nat) : Option (Nat × Nat) :=
  (s.cluPart k).bind (fun p => (s.logicalOf k).bind (fun n => ((s.partList p).findIdx? (· == n)).map (fun x => (p, x))))

/-- The tiles on the threads of a physical cluster. -/
def State.cluThreads (s : State) (k : Nat) : List (Nat × Nat × TileRun) :=
  match s.logicalOf k with
  | some n => s.threads.filter (fun t => t.1 == n)
  | none => []

/-- Fields of CLU and ARR pages (R190, R191). -/
def State.arrayShown (s : State) (p : PageId) (off lo : Nat) : Option Nat :=
  match p.kind, off, lo with
  | .clu, 0x100, 0 => some ((s.logicalOf p.inst).getD 0)
  | .clu, 0x100, 8 => some (p.inst / 9)
  | .clu, 0x100, 12 => some (((s.cluPosition p.inst).map (fun x => x.1)).getD 0)
  | .clu, 0x100, 15 => some (b2n (s.cluPart p.inst).isSome)
  | .clu, 0x100, 16 => some (((s.cluPosition p.inst).map (fun x => x.2)).getD 0)
  | .clu, 0x108, 0 => some (s.cluThreads p.inst).length
  | .clu, 0x10C, 0 => some ((s.cluThreads p.inst).foldl (fun n t => n + t.2.2.reads.length) 0)
  | .arr, 0x100, _ => some s.enabledClu.length
  | .arr, 0x104, _ => some ((List.range 8).foldl (fun v j => v + (s.enabledClu.filter (fun k => k / 9 == j)).length * 2 ^ (4 * j)) 0)
  | .arr, 0x108, _ => some (maskOf ((List.range s.enabledClu.length).filter (fun n => s.cluRetired ((s.physOf n).getD 0))))
  | .fwn, 0x104, 0 => some ((s.fwn.head?.map (fun x => x.part)).getD 0)
  | .fwn, 0x104, 7 => some (b2n (!s.fwn.isEmpty))
  | .fwn, 0x104, 8 => some (b2n ((s.fwn.drop 1).any (fun x => x.suspended)))
  | _, _, _ => none

/-- The table that ATN_TBL_SEL selects (R287). -/
def State.shownTable (s : State) : Option AtnTable := s.table (s.get .ATN_TBL_SEL)

/-- Fields of ATN pages (R287, R288). -/
def State.atnShown (s : State) (p : PageId) (off lo : Nat) : Option Nat :=
  match p.kind, off, lo with
  | .atn, 0x100, _ => some 8
  | .atn, 0x104, _ => some s.engBusy
  | .atn, 0x10C, 0 => some (match s.shownTable with
    | some t => if t.releasing then 2 else 1
    | none => 0)
  | .atn, 0x10C, 4 => some ((s.shownTable.bind (fun t => t.pool)).getD 0)
  | .atn, 0x10C, 7 => some (b2n (s.shownTable.bind (fun t => t.pool)).isSome)
  | .atn, 0x10C, 8 => some ((s.shownTable.map (fun t => t.gen)).getD 0)
  | .atn, 0x10C, 16 => some ((s.shownTable.map (fun t => t.entries.length)).getD 0)
  | .atn, 0x10C, 28 => some (b2n (s.shownTable.any (fun t => t.trunc)))
  | .atn, 0x110, _ => some ((s.shownTable.map (fun t => t.tokens)).getD 0)
  | .atn, 0x114, _ => some s.tables.length
  | .atnPool, 0x114, _ => some (s.poolStride p.inst)
  | .atnPool, 0x130, _ => some (s.poolFree p.inst)
  | .atnPool, 0x134, _ => some (s.poolRfree p.inst)
  | .dec, 0x100, _ => some 32
  | .dec, 0x104, _ => some s.decBusy
  | _, _, _ => none

/-- Fields of MEM pages (R321 to R323). -/
def State.memShown (s : State) (p : PageId) (off lo : Nat) : Option Nat :=
  match p.kind, off, lo with
  | .memPc, 0x100, 0 => some (p.inst / 32)
  | .memPc, 0x100, 1 => some (p.inst / 2 % 16)
  | .memPc, 0x100, 5 => some (p.inst % 2)
  | .memPc, 0x100, 8 => some (maskOf ((List.range 8).filter (fun q => s.regionOn q && bit (s.get .MEM_PART_MASK q) p.inst)))
  | .mem, 0x100, 0 => some 64
  | .mem, 0x100, 8 => some ((List.range 64).filter (fun k => !s.isOn (.STATUS_retired .memPc) k)).length
  | .mem, 0x118, _ => some s.readsOut
  | .memPart, 0x118, _ => some (s.regionSize p.inst)
  | _, _, _ => none

/-- The oldest spilled stripe of a context that is not caught up (R27): the one furthest behind the next number. -/
def State.oldestSpill (s : State) (c : Nat) : Option Nat :=
  let age (n : Nat) : Nat := (s.get .CAP_STRIPE_NO c + 2 ^ 32 - n) % 2 ^ 32
  ((s.capCtx c).ring.filter (fun x => x.spilled)).foldl (fun o x => match o with
    | none => some x.no
    | some n => if age n < age x.no then some x.no else some n) none

/-- Fields of CAP, LNP, ENC, TIM, TRK, EJT and FIO pages. -/
def State.lineShown (s : State) (p : PageId) (off lo j : Nat) : Option Nat :=
  match p.kind, off, lo with
  | .cap, 0x118, 8 => some (s.settleLeft j)
  | .capCtx, 0x144, _ => some ((s.oldestSpill p.inst).getD 0)
  | .capCtx, 0x148, _ => some (b2n (s.oldestSpill p.inst).isSome)
  | .capCtx, 0x15C, _ => some (16 - (s.capCtx p.inst).replay.length)
  | .lnp, 0x100, _ => some s.intakeFree
  | .enc, 0x200, 8 => some s.activePort
  | .enc, 0x208, _ => some (toU 64 s.beltPos)
  | .tim, 0x100, _ => some s.sec
  | .tim, 0x108, _ => some s.ns
  | .trk, 0x108, 0 => some (s.trk.recs.filter (fun r => !r.span)).length
  | .trk, 0x108, 16 => some s.trk.free
  | .trk, 0x10C, _ => some (s.trk.recs.filter (fun r => r.span)).length
  | .ejt, 0x128, 0 => some s.queueUsed
  | .fio, 0x13C, _ => some (if s.isOn .FIO_WDOG_enable then (s.get .FIOX_WD_END - s.tick) / 400 else 0)
  | _, _, _ => none

/-- Fields of MGT, SEC, RET, HLK and CMD pages. -/
def State.mgmtShown (s : State) (p : PageId) (off lo : Nat) : Option Nat :=
  let r := s.velvet.record.2
  let marks (t : Nat) : Nat := maskOf ((r.marks.filter (fun m => m.1 == t)).map (fun m => m.2))
  match p.kind, off, lo with
  | .mgt, 0x120, _ => some s.fuses.disabled
  | .mgt, 0x130, _ => some s.fuses.serial
  | .mgt, 0x1A8, _ => some (s.bucket (s.get .MGT_FLT_SEL_type) (s.get .MGT_FLT_SEL_instance))
  | .sec, 0x100, 0 => some (b2n s.fuses.debugLocked)
  | .sec, 0x100, 16 => some s.fuses.svnMin
  | .sec, 0x110, _ => some s.fuses.vkeyHash
  | .ret, 0x120, _ => some (marks 0)
  | .ret, 0x128, _ => some (marks 1)
  | .ret, 0x12C, 0 => some (marks 3)
  | .ret, 0x12C, 8 => some (marks 4)
  | .ret, 0x130, _ => some (marks 5)
  | .ret, 0x138, _ => some (marks 2)
  | .ret, 0x154, _ => some r.ring.length
  | .ret, 0x158, _ => some (((r.ring[s.get .RET_LOG_SEL]?).map (fun e =>
      e.typ + e.inst * 2 ^ 8 + e.bucket * 2 ^ 16 + e.start * 2 ^ 32)).getD 0)
  | .cmd, 0x200, _ => some s.beClusters
  | .cmd, 0x208, _ => some (1024 - s.cmd.jobs.length)
  | .cmdPart, 0x100, 0 => some (s.partList p.inst).length
  | .cmdPart, 0x100, 8 => some (b2n (s.partIsBe p.inst))
  | .cmdPart, 0x100, 9 => some (b2n (s.partExists p.inst))
  | .cmdPart, 0x100, 16 => some (s.partJobs p.inst).length
  | _, _, _ => none

/-- The calibrated equaliser settings of a lane, shown while they are not pinned (R75). -/
def State.laneShown (s : State) (p : PageId) (off lo : Nat) : Option Nat :=
  if off != 0x140 || s.isOn .LAN_EQ_pin p.inst then none
  else match lo with
    | 4 => some (s.get .LANX_EQ_CTLE p.inst)
    | 16 => some (s.get .LANX_EQ_DFE p.inst)
    | _ => none

/-- What a software read shows of a field. -/
def State.shown (s : State) (p : PageId) (f : Fld) (j : Nat) : Nat :=
  let v := if f.off < 0x100 then s.headerShown p f.off f.lo
    else match p.kind with
      | .clu | .arr | .fwn => s.arrayShown p f.off f.lo
      | .atn | .atnPool | .dec => s.atnShown p f.off f.lo
      | .memPc | .mem | .memPart => s.memShown p f.off f.lo
      | .cap | .capCtx | .lnp | .enc | .tim | .trk | .ejt | .fio => s.lineShown p f.off f.lo j
      | .mgt | .sec | .ret | .cmd | .cmdPart => s.mgmtShown p f.off f.lo
      | .lan => s.laneShown p f.off f.lo
      | .pwr | .hlk | .lanPeer | .lnpCtx | .pmc => none
  match v, f.acc with
  | some x, _ => x
  | none, .rws => s.getShadow f p.inst j
  | none, .wo => 0
  | none, _ => s.get f p.inst j

/-! ## Words that are no fields -/

/-- The summary bitmap of a kind of page, as a function sees it (R60). -/
def State.summary (s : State) (fn : Nat) (k : PageKind) : Nat :=
  maskOf ((List.range k.count).filter (fun i => s.sees fn ⟨k, i⟩ && s.evtPending ⟨k, i⟩))

/-- The summary word at an offset of HLK's page (R60). -/
def State.summaryAt (s : State) (fn woff : Nat) : Nat :=
  let word (k : PageKind) (w : Nat) : Nat := bits (s.summary fn k) (32 * w + 31) (32 * w)
  match woff with
  | 0x200 => word .lan 0
  | 0x204 => word .lanPeer 0
  | 0x208 => word .capCtx 0
  | 0x20C => word .capCtx 1
  | 0x210 => word .lnpCtx 0
  | 0x214 => word .lnpCtx 1
  | 0x218 => word .clu 0
  | 0x21C => word .clu 1
  | 0x220 => word .clu 2
  | 0x228 => word .atnPool 0
  | 0x230 => word .memPc 0
  | 0x234 => word .memPc 1
  | 0x238 => word .enc 0
  | 0x23C => word .cmdPart 0
  | 0x240 => word .memPart 0
  | _ => 0

/-- CMD_PMC_VIEW `v` of a partition (R538). -/
def State.pmcView (s : State) (p v : Nat) : Nat :=
  match (List.range 32).find? (fun n => s.isOn .PMC_CNT_THR_view_en 0 n && s.isOn .PMC_CNT_SEL_part_en 0 n &&
      s.get .PMC_CNT_SEL_part 0 n == p && s.get .PMC_CNT_THR_view 0 n == v) with
  | none => 0
  | some n =>
    if n % 2 == 0 && s.pmcChained (n + 1) then s.get .PMC_CNT 0 n + 2 ^ 32 * s.get .PMC_CNT 0 (n + 1) else s.get .PMC_CNT 0 n

/-- The record that TRK_REC shows (R355): a FREE identifier shows itself and its generation. -/
def State.recShown (s : State) : List Nat :=
  let id := s.get .TRK_REC_SEL_index
  let span := s.isOn .TRK_REC_SEL_span
  match s.partRec span (if span then id % 64 else id) with
  | some r => recBytes (if r.early then { r with cls := s.effClass r } else r)
  | none => leBytes 4 (if span then id % 64 + 2 ^ 23 else id + s.genOf id * 2 ^ 12) ++ List.replicate 60 0

/-- A word of a page that no field describes: summary bitmaps, counter views, the selected record and table entries. -/
def State.windowWord (s : State) (fn : Nat) (p : PageId) (woff : Nat) : Nat :=
  match p.kind with
  | .hlk => s.summaryAt fn woff
  | .cmdPart =>
    if 0x180 ≤ woff && woff < 0x1C0 then
      bits (s.pmcView p.inst ((woff - 0x180) / 8)) (8 * (woff % 8) + 31) (8 * (woff % 8))
    else 0
  | .trk => if 0x140 ≤ woff && woff < 0x180 then ofLe ((s.recShown.drop (woff - 0x140)).take 4) else 0
  | .atn =>
    if 0x400 ≤ woff && woff < 0x600 then
      let e (n : Nat) : Nat := ((s.shownTable.bind (fun t => t.entries[n]?)).getD 0xFFFF) % 2 ^ 16
      e ((woff - 0x400) / 2) + 2 ^ 16 * e ((woff - 0x400) / 2 + 1)
    else 0
  | _ => 0

/-- Do the block registers at an offset exist on this instance (R18, R349)? -/
def State.wordExists (s : State) (p : PageId) (woff : Nat) : Bool :=
  woff < 0x100 || !((p.kind == .clu && s.cluDisabled p.inst) || (p.kind == .enc && p.inst != 0 && 0x200 ≤ woff))

/-- The word at `woff` of a page, as a function that sees the page reads it. -/
def State.pageWord (s : State) (fn : Nat) (p : PageId) (woff : Nat) : Nat :=
  if !s.wordExists p woff then 0
  else
    (fieldsAt (headerFlds p.kind ++ blockFlds p.kind) woff).foldl (fun v fj =>
      v ||| fieldPart fj.1 fj.2 woff (s.shown p fj.1 fj.2)) (s.windowWord fn p woff)

/-- The word at a BAR0 offset, as a function reads it (R41, R44, R487). -/
def State.bar0Word (s : State) (fn off : Nat) : Nat :=
  match pageAt off with
  | none => 0
  | some p =>
    let woff := off - p.base
    if !s.isOn .MGT_STATUS_ready && !mgmtPage p.kind then 0
    else if !(s.sees fn p || summaryWord p woff) then 0
    else s.pageWord fn p (woff / 4 * 4)

/-- A 64-bit register whose low word stands at a BAR0 offset (R9); the combined counters of a pair and the summary bitmaps with
their high words count as such. -/
def State.lowOf (s : State) (off : Nat) : Bool :=
  match pageAt off with
  | none => false
  | some p =>
    let woff := off - p.base
    (match wide64 (blockFlds p.kind) woff with
      | some x => x.2.2 == woff
      | none => false) ||
    (p.kind == .hlk && [0x208, 0x210, 0x230].contains woff) || (p.kind == .cmdPart && 0x180 ≤ woff && woff < 0x1C0 && woff % 8 == 0) ||
    (p.kind == .pmc && 0x400 ≤ woff && woff < 0x480 && woff % 8 == 0 && s.pmcChained ((woff - 0x400) / 4 + 1))

/-- The words that a read of a low word latches: its high word (R9), and TIM_NOW_NS beside the seconds (R344). -/
def latchedBy (off : Nat) : List Nat := if off = timPage.base + 0x100 then [off + 4, off + 8] else [off + 4]

/-- A 32-bit read of BAR0 (R9, R344, R565): a low word latches its high word, and the next read of the high word returns it. -/
def State.hostRead (s : State) (fn off : Nat) : State :=
  if !s.linkUp then s.emit (.readData fn off (2 ^ 32 - 1))
  else if off % 4 != 0 then s.emit (.readData fn off 0)
  else match s.highReads.find? (fun h => h.1 == off) with
    | some h => { s with highReads := s.highReads.filter (fun x => x.1 != off), out := s.out ++ [.readData fn off h.2] }
    | none =>
      let ks := latchedBy off
      let latch := ks.map (fun k => (k, s.bar0Word fn k)) ++ s.highReads.filter (fun x => !ks.contains x.1)
      let s := if s.lowOf off then { s with highReads := latch } else s
      s.emit (.readData fn off (s.bar0Word fn off))

end Sys2Proof.Machine
end

