-- ==== Sys2Proof/Machine/Control.lean ====
section
/-!
DEFINITION. Machine/Control.lean: the words of the common page header that software writes: CTRL with enable, quiesce and soft
reset (R45, R47, R48, R566), the event registers (R45, R46, R59), OWNER (R54) and LOCK (R55).
-/
namespace Sys2Proof.Machine

/-! ## Enable (R93, R97, R133, R174, R261, R292, R325, R375, R392) -/

/-- The active plans that a context of a partition's contexts takes part in. -/
def State.plansOn (s : State) (c : Nat) : List Plan :=
  match s.owner (lnpPage c) with
  | none => []
  | some p => ((List.range 8).filterMap (fun k => (s.slotSt p k).active)).filter (fun P => P.binds c)

/-- The code that discards an enable of a CAP context, if a check fails (R97, R120, R155, R174). -/
def State.capEnableCode (s : State) (c : Nat) : Option Nat :=
  match s.capRefused c with
  | some x => some x
  | none =>
    if s.isOn (.CTRL_enable .lnpCtx) c && !s.slotFits c (s.lnpActive c) then some 0x22
    else if (s.plansOn c).any (fun P => !s.planFits P c) then some 0x22
    else none

/-- The code that discards an enable of an LNP context, if a check fails (R133, R154, R155, R163, R174). -/
def State.lnpEnableCode (s : State) (c : Nat) : Option Nat :=
  match s.lnpRefused c with
  | some x => some x
  | none => if (s.plansOn c).any (fun P => !s.planFits P c) then some 0x30 else none

/-- CTRL.enable of a page that is off is set to 1. -/
def State.enableRise (s : State) (fn : Nat) (p : PageId) : State :=
  match p.kind with
  | .lan => s.enableLane p.inst
  | .capCtx =>
    match s.capEnableCode p.inst with
    | some x => s.code p fn 0x8 x
    | none =>
      let s := s.capEnable p.inst
      if s.isOn (.CTRL_quiesce .capCtx) p.inst then s.capStop p.inst else s
  | .lnpCtx =>
    match s.lnpEnableCode p.inst with
    | some x => s.code p fn 0x8 x
    | none => s.lnpEnable p.inst
  | .atnPool => s.poolEnable fn p.inst
  | .memPart => s.regionEnable fn p.inst
  | .enc => s.encEnable fn p.inst
  | .ejt => s.ejtEnable fn
  | .fio => s.fioEnable
  | _ => s

/-- Is a partition's region in use (R292): a job runs, a plan is loaded, or a context or pool that the partition owns is enabled? -/
def State.regionBusy (s : State) (p : Nat) : Bool :=
  !s.partQuiet p || (s.partJobs p).any (fun j => j.run.isSome) ||
  (List.range 8).any (fun q => s.owner (poolPage q) == some p && s.poolOn q)

/-- CTRL.enable of a page that is on is set to 0 (R47): work in progress completes as for quiesce. -/
def State.enableFall (s : State) (fn : Nat) (p : PageId) : State :=
  if p.kind == .memPart && s.regionBusy p.inst then s.code p fn 0x8 0x81
  else
    let s := if s.active p then s.code p fn 0x8 0x01 else s
    match p.kind with
    | .lan => (s.disableLane p.inst).peerFollow p.inst
    | .capCtx => (s.capStop p.inst).set (.CTRL_enable .capCtx) p.inst 0 0
    | .lnpCtx => (s.spillAll p.inst).set (.CTRL_enable .lnpCtx) p.inst 0 0
    | .ejt => (s.set (.CTRL_enable .ejt) 0 0 0).reserveAll
    | k => s.set (.CTRL_enable k) p.inst 0 0

/-- A write of CTRL.enable (R47, R566). -/
def State.enableWrite (s : State) (fn : Nat) (p : PageId) (on : Bool) : State :=
  if !p.kind.ownEnable || s.isOn (.CTRL_enable p.kind) p.inst == on then s
  else if on then s.enableRise fn p else s.enableFall fn p

/-! ## Quiesce (R47, R125, R137) -/

/-- CTRL.quiesce of a page is set to 1. DEDUCED beside R125 and R137: an EJT bank that is quiesced takes no new firing. -/
def State.quiesceRise (s : State) (p : PageId) : State :=
  let s := s.set (.CTRL_quiesce p.kind) p.inst 0 1
  match p.kind with
  | .capCtx => s.capStop p.inst
  | .lnpCtx => s.spillAll p.inst
  | .ejt => s.reserveAll
  | _ => s

/-- CTRL.quiesce of a page is set to 0. DEDUCED: work that waited is taken up again, but a CAP context stays idle until it is
disabled and enabled. -/
def State.quiesceFall (s : State) (p : PageId) : State :=
  let s := s.set (.CTRL_quiesce p.kind) p.inst 0 0
  match p.kind with
  | .lnpCtx => s.assignCredits p.inst
  | .ejt => s.reserveAll
  | .memPart => s.issueWaiting
  | _ => s

/-- A write of CTRL.quiesce (R47, R566). -/
def State.quiesceWrite (s : State) (p : PageId) (on : Bool) : State :=
  if !p.kind.ownEnable || s.isOn (.CTRL_quiesce p.kind) p.inst == on then s
  else if on then s.quiesceRise p else s.quiesceFall p

/-! ## Soft reset (R48) -/

/-- Fields that a soft reset leaves: what is sensed, and the watchdog of R399, which runs until the next start. -/
def softKept : List Fld :=
  [.LAN_POL_rx_inverted, .LAN_STATUS_locked, .LAN_STATUS_waking, .LAN_STATUS_rx_now, .LAN_STATUS_tx_now, .LAN_STATUS_speed,
   .LAN_STATUS_train_match, .LAN_STATUS_train_match_inv, .LAN_RAW_WORD, .MEM_BW_USED_last, .MEM_BW_USED_borrowed, .ENC_STATUS_abz,
   .EJT_VALVES_VP, .EJT_VALVES_FO, .FIO_RETIRED, .FIO_OUT_PIN_drive, .FIO_OUT_PIN_readback, .FIO_IN_STAT_band, .FIO_WDOG_enable]

/-- The block registers of an instance take their start values, active and shadow. -/
def State.startRegs (s : State) (p : PageId) : State :=
  s.forEach ((blockFlds p.kind).filter (fun f => f.off < 0x1000 && !softKept.contains f)) (fun s f =>
    s.forEach (List.range f.count) (fun s j =>
      let v := s.startVal f p.inst j
      if f.acc == .rws then (s.set f p.inst j v).setShadow f p.inst j v else s.set f p.inst j v))

/-- A soft reset of a page that is disabled (R48). -/
def State.softReset (s : State) (p : PageId) : State :=
  let s := if p.kind == .lnpCtx then s.keepGen p.inst else s
  let s := s.startRegs p
  let s := s.set (.EVT_ENABLE p.kind) p.inst 0 (s.startVal (.EVT_ENABLE p.kind) p.inst 0)
  let s := s.clearFlds p.inst [.EVT_STATUS p.kind, .ERR_INFO_valid p.kind, .ERR_INFO_overflow p.kind, .ERR_INFO_forced p.kind,
    .ERR_INFO_event p.kind, .ERR_INFO_detail p.kind]
  let s := s.countWrap (.GEN p.kind) p.inst 0 1
  match p.kind with
  | .lan => if s.isOn .LAN_STATUS_locked p.inst then s.dropLock p.inst else s
  | .capCtx => s.modCtx p.inst (fun x => { x with replay := [] })
  | .lnpCtx => s.dropGens p.inst
  | .ejt => s.reserveAll
  | .fio => s.safeHold 1
  | _ => s

/-- A write of 1 to CTRL.soft_reset (R47, R566). -/
def State.softResetWrite (s : State) (fn : Nat) (p : PageId) : State :=
  if s.enableShown p then s.code p fn 0x8 0x02 else s.softReset p

/-- A write of the CTRL word: soft_reset is judged by enable as it stands, then quiesce and enable take their values. -/
def State.ctrlWrite (s : State) (fn : Nat) (p : PageId) (v : Nat) : State :=
  let s := if bit v 1 then s.softResetWrite fn p else s
  (s.quiesceWrite p (bit v 2)).enableWrite fn p (bit v 0)

/-! ## Events (R45, R46, R59) -/

/-- A write of EVT_ENABLE (R45, R58, R59). -/
def State.evtEnableWrite (s : State) (p : PageId) (v : Nat) : State :=
  let before := s.vecOr (s.route p) p.kind.vector
  (s.set (.EVT_ENABLE p.kind) p.inst 0 (v &&& p.events)).signal p before

/-- A write of EVT_FORCE (R45, R46). -/
def State.evtForceWrite (s : State) (p : PageId) (v : Nat) : State :=
  if v &&& p.events == 0 then s else s.raiseMask p (v &&& p.events) 0 true

/-- A write of ERR_INFO (R45). -/
def State.errInfoWrite (s : State) (p : PageId) (v : Nat) : State :=
  if bit v 31 then (s.set (.ERR_INFO_valid p.kind) p.inst 0 0).set (.ERR_INFO_overflow p.kind) p.inst 0 0
  else if bit v 30 then s.set (.ERR_INFO_overflow p.kind) p.inst 0 0
  else s

/-! ## OWNER and LOCK (R54, R55) -/

/-- A write of OWNER (R54): PF0 alone, on an assignable page without work that is disabled. -/
def State.ownerSet (s : State) (fn : Nat) (p : PageId) (v : Nat) : State :=
  if fn != 0 || !p.kind.assignable || s.active p || s.isOn (.CTRL_enable p.kind) p.inst then s.code p fn 0x28 0x04
  else s.rerouted ((s.set (.OWNER_partition p.kind) p.inst 0 (bits v 2 0)).set (.OWNER_valid p.kind) p.inst 0 (b2n (bit v 7)))

/-- A write of LOCK (R55): locked is plain, sticky sets. -/
def State.lockSet (s : State) (p : PageId) (v : Nat) : State :=
  let s := s.set (.LOCK_locked p.kind) p.inst 0 (b2n (bit v 0))
  if bit v 1 then s.set (.LOCK_sticky p.kind) p.inst 0 1 else s

end Sys2Proof.Machine
end

