-- ==== Sys2Proof/Machine/Commit.lean ====
section
/-!
DEFINITION. Machine/Commit.lean: shadows and commits (R50 to R53): the write of COMMIT, the check and activation at the boundary by
kind of page (R62, R93, R98, R99, R140, R141, R154, R298, R368, R369, R391, R430), and the two releases (R52, R186).
-/
namespace Sys2Proof.Machine

/-! ## The go write (R50, R51, R52) -/

/-- Every shadowed field of a page with its elements. -/
def shadowed (p : PageId) : List (Fld × Nat) :=
  ((blockFlds p.kind).filter (fun f => f.acc == .rws)).flatMap (fun f => (List.range f.count).map (fun j => (f, j)))

/-- The shadow values of a page as they stand. -/
def State.shadows (s : State) (p : PageId) : List (RegKey × Nat) :=
  (shadowed p).map (fun fj => (fj.1.key p.inst fj.2, s.getShadow fj.1 p.inst fj.2))

/-- A write of the COMMIT word (R50, R51). -/
def State.commitWrite (s : State) (fn : Nat) (p : PageId) (v : Nat) : State :=
  let b := bits v 15 8
  let s := if b ≤ 5 then s.set (.COMMIT_boundary p.kind) p.inst 0 b else s
  let s := (s.set (.COMMIT_cmp p.kind) p.inst 0 (bits v 20 16)).set (.COMMIT_hold p.kind) p.inst 0 (b2n (bit v 24))
  if !bit v 0 || s.commitPending p then s
  else if !p.kind.boundaries.contains b then s.code p fn 0x20 0x03
  else { s with commits := s.commits ++ [⟨p, fn, b, bits v 20 16, !bit v 24, s.shadows p, false⟩] }

/-! ## Checks at the boundary -/

/-- The value that a commit gives a field. -/
def State.newVal (s : State) (r : CommitRec) (f : Fld) (j : Nat := 0) : Nat :=
  (cellGet r.vals (f.key r.page.inst j)).getD (s.get f r.page.inst j)

/-- Does a commit change one of these fields? -/
def State.commitChanges (s : State) (r : CommitRec) (l : List (Fld × Nat)) : Bool :=
  l.any (fun fj => s.newVal r fj.1 fj.2 != s.get fj.1 r.page.inst fj.2)

/-- The shadowed fields of a CAP context that are no source settings (R98). -/
def capLive : List Fld := [.CAP_STRIPE_CFG_settle_stripes, .CAP_GRP_ALIGN_align_us]

/-- Does a commit on the CAP shared page break R99, and with which code? -/
def State.trigCode (s : State) (r : CommitRec) : Option Nat :=
  let cams := List.range 12
  let set (n : Nat) : Bool := s.commitChanges r [(.CAP_TRIG_MODE_mode, n), (.CAP_TRIG_PERIOD, n), (.CAP_TRIG_ORIGIN_low, n), (.CAP_TRIG_ORIGIN_high, n)]
  if cams.any (fun n => set n && !(s.camEnabledIn n).isEmpty) then some 0x20
  else if cams.any (fun n => s.newVal r .CAP_TRIG_MODE_mode n != 0 && s.camRaw n) then some 0x22
  else none

/-- Does an enabled bank break R368? -/
def State.bankBreaks (s : State) (r : CommitRec) (b : Nat) : Bool :=
  let last := s.newVal r .EJT_BANK_CFG_first b + s.newVal r .EJT_BANK_CFG_count b
  s.newVal r .EJT_BANK_CFG_enable b != 0 &&
  ((if bit (s.newVal r .EJT_OUT_PATH) b then s.newVal r .EJT_VP_LEN_len (s.newVal r .EJT_BANK_CFG_port b) < last else 16 < last) ||
    s.newVal r .EJT_BANK_PITCH b == 0)

/-- Do the speed bounds of a commit break R369? -/
def State.boundsBreak (s : State) (r : CommitRec) : Bool :=
  let lo := s.newVal r .EJT_SPEED_MIN
  let hi := s.newVal r .EJT_SPEED_MAX
  !posFinite lo || !posFinite hi || !posFinite (s.newVal r .EJT_SPEED_FIX) || f32Lt hi lo

/-- The code with which a commit is discarded at its boundary, if a check fails. -/
def State.commitCode (s : State) (r : CommitRec) : Option Nat :=
  let i := r.page.inst
  match r.page.kind with
  | .lan =>
    if s.newVal r .LAN_MODE_mode == 1 &&
      s.connRefused i (s.newVal r .LAN_MODE_cam) (s.newVal r .LAN_MODE_width) (s.newVal r .LAN_MODE_index) then some 0x10 else none
  | .capCtx =>
    if s.isOn (.CTRL_enable .capCtx) i && s.commitChanges r ((shadowed r.page).filter (fun fj => !capLive.contains fj.1)) then some 0x22
    else none
  | .cap => s.trigCode r
  | .lnpCtx =>
    if (List.range 16).any (fun k => !fIsFin (s.newVal r .LNP_CH_MUL k)) then some 0x31
    else if s.lnpSetBreaks i (lnpSetOf (fun f j => s.newVal r f j)) then some 0x30
    else none
  | .memPart =>
    let res := s.newVal r .MEM_BW_RES
    if s.bwBreaks i (s.get .MEM_PART_MASK i) (min res 25600) (min (s.newVal r .MEM_BW_CEIL) 25600) (s.regionOn i) || (s.partIsBe i && res != 0)
    then some 0x82 else none
  | .ejt => if (List.range 8).any (fun b => s.bankBreaks r b) then some 0xA0 else if s.boundsBreak r then some 0xA1 else none
  | .fio => if s.newVal r .FIO_THR_on ≤ s.newVal r .FIO_THR_broken then some 0xB0 else none
  | _ => none

/-! ## Activation (R53, R93, R141, R373) -/

/-- The captured values become active together. -/
def State.putVals (s : State) (r : CommitRec) : State :=
  s.forEach (shadowed r.page) (fun s fj => s.set fj.1 r.page.inst fj.2 (s.newVal r fj.1 fj.2))

/-- A commit whose checks have passed becomes active: the block takes the values and GEN counts. -/
def State.activateCommit (s : State) (r : CommitRec) : State :=
  let i := r.page.inst
  let moved := s.commitChanges r (shadowed r.page)
  let s := if r.page.kind == .lnpCtx then s.keepGen i else s
  let s := (s.putVals r).countWrap (.GEN r.page.kind) i 0 1
  match r.page.kind with
  | .lan => if moved then (s.dropLock i).peerFollow i else s
  | .lnpCtx => s.dropGens i
  | .memPart => if r.boundary = 2 then s.set .BWX_CEIL i 0 (s.bwReg .MEM_BW_CEIL i) else s
  | .ejt => s.reserveAll
  | _ => s

/-- A released commit of a page reaches its boundary (R50 to R53): it is discarded whole with a code, waits for a settings set
(R141), or becomes active. -/
def State.commitReached (s : State) (p : PageId) : State :=
  match s.commits.find? (fun r => r.page == p && r.released) with
  | none => s
  | some r =>
    let t := { s with commits := s.commits.filter (fun c => c.page != p) }
    match s.commitCode r with
    | some c => t.code p r.fn 0x20 c
    | none =>
      if !(p.kind == .lnpCtx && s.gensFull p.inst) then t.activateCommit r
      else if r.waits then s
      else ({ s with commits := s.commits.map (fun x => if x.page == p then { x with waits := true } else x) } : State).raise p 3

/-! ## Releases (R52, R186) -/

/-- The held commits of some pages are released. -/
def State.releaseCommits (s : State) (ok : PageId → Bool) : State :=
  { s with commits := s.commits.map (fun r => if ok r.page then { r with released := true } else r) }

/-- A write of 1 to MGT_COMMIT_RELEASE. -/
def State.releaseEverything (s : State) : State :=
  (s.releaseCommits (fun _ => true)).forEach (List.range 8) (fun s p => s.releaseLoads p)

/-- A write of 1 to CMD_COMMIT_RELEASE of a partition's page. -/
def State.releasePart (s : State) (p : Nat) : State :=
  (s.releaseCommits (fun g => s.owner g == some p)).releaseLoads p

end Sys2Proof.Machine
end

