-- ==== Sys2Proof/Machine/PageWrites.lean ====
section
/-!
DEFINITION. Machine/PageWrites.lean: what a word write does on each kind of page beyond the access codes of its fields: the writes that
command, the writes that are refused with a code (R49) and the counter clears, page by page.
-/
namespace Sys2Proof.Machine

/-! ## Words and 64-bit registers (R9, R10) -/

/-- The low and high words of the trigger origin of a camera form one 64-bit register (R9, R126). -/
def originPair (p : PageId) (woff : Nat) : Option (Nat × Bool) :=
  if p.kind != .cap then none
  else match fieldsAt [Fld.CAP_TRIG_ORIGIN_low] woff, fieldsAt [Fld.CAP_TRIG_ORIGIN_high] woff with
    | (_, j) :: _, _ => some (j, false)
    | _, (_, j) :: _ => some (j, true)
    | _, _ => none

/-- The high word of a trigger origin is written: both halves take effect. -/
def State.originWrite (s : State) (p : PageId) (j v : Nat) : State :=
  let low := p.base + Fld.CAP_TRIG_ORIGIN_low.word j
  let x := s.joinHigh low (s.getShadow .CAP_TRIG_ORIGIN_low 0 j) v
  ((s.dropLow low).setShadow .CAP_TRIG_ORIGIN_low 0 j x).setShadow .CAP_TRIG_ORIGIN_high 0 j v

/-- A value for a whole field, by its access code (R10). -/
def State.writeWhole (s : State) (i : Nat) (f : Fld) (j x : Nat) : State :=
  if !f.accepts x then s else if f.acc == .rws then s.setShadow f i j x else s.set f i j x

/-- May software write the field at once or to its shadow? -/
def Fld.plain (f : Fld) : Bool := f.acc == .rw || f.acc == .rws

/-- A word write with no effect beyond the access codes (R9, R10): the low word of a 64-bit register waits for its high word. -/
def State.regWord (s : State) (p : PageId) (woff v : Nat) : State :=
  match originPair p woff with
  | some (_, false) => s.latchLow (p.base + woff) v
  | some (j, true) => s.originWrite p j v
  | none =>
    match wide64 ((blockFlds p.kind).filter Fld.plain) woff with
    | none => s.plainWrite p woff v
    | some (f, j, low) =>
      if woff == low then s.latchLow (p.base + low) v
      else
        let cur := if f.acc == .rws then s.getShadow f p.inst j else s.get f p.inst j
        (s.dropLow (p.base + low)).writeWhole p.inst f j (s.joinHigh (p.base + low) cur v % 2 ^ f.width)

/-- A word write that a condition refuses with a code. -/
def State.regGuard (s : State) (fn : Nat) (p : PageId) (woff v : Nat) (bad : Bool) (code : Nat) : State :=
  if bad then s.code p fn woff code else s.regWord p woff v

/-- The value that a word write gives a field, unless its range keeps the field as it is. -/
def State.written (s : State) (i : Nat) (f : Fld) (j woff v : Nat) : Nat :=
  let x := mergeWord f j (s.get f i j) woff v
  if f.accepts x then x else s.get f i j

/-- Does a word write change one of these fields? -/
def State.writeChanges (s : State) (i : Nat) (l : List Fld) (j woff v : Nat) : Bool :=
  l.any (fun f => s.written i f j woff v != s.get f i j)

/-- Element and offset within it of a word in an array of registers. -/
def inArray (woff base stride count : Nat) : Option (Nat × Nat) :=
  if base ≤ woff && woff < base + stride * count then some ((woff - base) / stride, (woff - base) % stride) else none

/-! ## Lanes and peer groups (R74, R76, R68, R62, R80, R82) -/

/-- The value of a power field of a LAN_PWR word; 3 names no state and leaves the field (R14). -/
def powerField (v lo cur : Nat) : Nat := if bits v (lo + 1) lo == 3 then cur else bits v (lo + 1) lo

/-- A write of 1 to LAN_SLIP (R74, R84). -/
def State.slip (s : State) (l : Nat) : State := s.countWrap .LANX_SLIPS l 0 1

/-- A word of a lane page. -/
def State.lanWord (s : State) (fn l woff v : Nat) : State :=
  let p := lanePage l
  if woff = 0x100 then
    if bits v 1 0 = 3 then (s.code p fn woff 0x11).regWord p woff (putBits v 0 2 (s.getShadow .LAN_MODE_mode l)) else s.regWord p woff v
  else if woff = 0x110 then
    let t := s.writePower fn l (powerField v 0 (s.get .LAN_PWR_rx l)) (powerField v 4 (s.get .LAN_PWR_tx l))
    if t.get .LAN_STATUS_rx_now l == 2 then t.peerFollow l else t
  else if woff = 0x118 then (if bit v 0 then s.slip l else s)
  else if woff = 0x13C then
    if bit v 0 then s.clearFlds l [.LAN_ERR_CODE, .LAN_ERR_CRC, .LAN_LOCK_LOSS, .LAN_TRIG_LOST] else s
  else if woff = 0x180 then (if bit v 0 then s.mailboxSend fn l else s)
  else if 0x600 ≤ woff && woff < 0x800 && s.isOn .LAN_MBX_CTRL_send l then s
  else s.regWord p woff v

/-- A word of a peer group page. -/
def State.peerWord (s : State) (fn g woff v : Nat) : State :=
  if woff = 0x100 then
    let on := s.isOn .LAN_PEER_CTRL_enable g
    let s := if bit v 0 && !on then s.peerEnable fn g else if !bit v 0 && on then s.peerDisable g else s
    if bit v 1 then s.peerTrainWrite g else s
  else if woff = 0x13C then
    if bit v 0 then s.clearFlds g [.LAN_PEER_TX, .LAN_PEER_RX, .LAN_PEER_REPLAY, .LAN_PEER_DROP, .LAN_PEER_CRC] else s
  else s.regWord (peerPage g) woff v

/-! ## Capture and line correction (R117, R123, R155, R163) -/

/-- A word of the shared CAP page. -/
def State.capWord (s : State) (woff v : Nat) : State :=
  match inArray woff 0x100 0x20 12 with
  | some (n, 0x18) => if bit v 0 then s.settleArm n else s
  | _ => s.regWord capShared woff v

/-- A word of a CAP context page. -/
def State.capCtxWord (s : State) (fn c woff v : Nat) : State :=
  if woff = 0x158 then (if bit v 0 then s.replayPush fn c else s)
  else if woff = 0x17C then
    if bit v 0 then
      s.clearFlds c [.CAP_CNT_STRIPES, .CAP_CNT_SHORT, .CAP_CNT_LONG, .CAP_CNT_STALE, .CAP_CNT_DISCARD, .CAP_CNT_AFTER_SHORT]
    else s
  else s.regWord (capPage c) woff v

/-- A word of the LNP global page. -/
def State.lnpWord (s : State) (woff v : Nat) : State :=
  if woff = 0x11C then (if bit v 0 then s.clearFlds 0 [.LNP_BUSY, .LNP_CNT_SWITCH, .LNP_CNT_INTAKE_FULL] else s)
  else s.regWord ⟨.lnp, 0⟩ woff v

/-- A word of an LNP context page. -/
def State.lnpCtxWord (s : State) (fn c woff v : Nat) : State :=
  if woff = 0x120 || woff = 0x124 then s.regGuard fn (lnpPage c) woff v (s.isOn (.CTRL_enable .lnpCtx) c) 0x30
  else if woff = 0x17C then
    if bit v 0 then s.clearFlds c [.LNP_CNT_STRIPES, .LNP_CNT_SPILL, .LNP_CNT_DEFECT_OPEN, .LNP_CNT_DYN, .LNP_CNT_LOST] else s
  else s.regWord (lnpPage c) woff v

/-! ## Array (R163, R190, R192, R537, R538, R540) -/

/-- Do the clusters of a partition hold a line-buffer share in use: a job runs, or an LNP context that it owns is enabled? -/
def State.sharesUsed (s : State) (k : Nat) : Bool :=
  match s.cluPart k with
  | none => false
  | some p => (s.partJobs p).any (fun j => j.run.isSome) ||
      (List.range 64).any (fun c => s.owner (lnpPage c) == some p && s.isOn (.CTRL_enable .lnpCtx) c)

/-- A write of CLU_SRAM_CFG.lb_kib: a multiple of 64 KiB up to 1,536 KiB (R14, R163). -/
def State.shareWrite (s : State) (fn k woff v : Nat) : State :=
  let x := bits v 10 0
  if x % 64 != 0 || 1536 < x then s else s.regGuard fn ⟨.clu, k⟩ woff v (s.sharesUsed k) 0x40

/-- A write of CLU_PMC_SEL (R537, R538). -/
def State.cluSelect (s : State) (fn k c woff v : Nat) : State :=
  let p : PageId := ⟨.clu, k⟩
  if fn != 0 && !bit (s.get .PMC_CTRL_part_cfg) (fn - 1) then s.code p fn woff 0x62
  else
    s.regGuard fn p woff v (s.isOn .CLU_PMC_SEL_enable k c && s.writeChanges k [.CLU_PMC_SEL_event, .CLU_PMC_SEL_mode] c woff v) 0x60

/-- A word of a cluster page. -/
def State.cluWord (s : State) (fn k woff v : Nat) : State :=
  let p : PageId := ⟨.clu, k⟩
  if woff = 0x104 then s.shareWrite fn k woff v
  else if woff = 0x12C then
    if bit v 0 then
      (s.clearFlds k [.CLU_ECC_CE, .CLU_ECC_UE, .CLU_TILES_DONE, .CLU_CNT_WRESET]).set .CLU_THREADS_peak k 0 (s.cluThreads k).length
    else s
  else match inArray woff 0x200 4 8 with
    | some (c, _) =>
      if c < 4 then s.cluSelect fn k c woff v
      else s.regGuard fn p woff v (s.isOn .CLU_PMC_SEL_enable k (c - 4) && !s.isOn .PMC_CTRL_frozen) 0x60
    | none => s.regWord p woff v

/-- Does an LC partition hold a plan with Fawn descriptors? -/
def State.fawnHeld (s : State) : Bool :=
  (List.range 8).any (fun p => s.partExists p && !s.partIsBe p && (List.range 8).any (fun k =>
    ((s.slotSt p k).active.any (fun P => P.fawn)) || ((s.slotSt p k).load.any (fun l => l.plan.any (fun P => P.fawn)))))

/-- A word of the Fawn page (R192). -/
def State.fwnWord (s : State) (fn woff v : Nat) : State :=
  if woff = 0x100 then s.regGuard fn ⟨.fwn, 0⟩ woff v s.fawnHeld 0x50
  else if woff = 0x11C then (if bit v 0 then s.clearFlds 0 [.FWN_PASSES, .FWN_SUSPENDS, .FWN_ECC_CE, .FWN_ECC_UE] else s)
  else s.regWord ⟨.fwn, 0⟩ woff v

/-! ## Part attention (R261, R287, R288) -/

/-- A word of the ATN global page. -/
def State.atnWord (s : State) (woff v : Nat) : State :=
  if woff = 0x13C then (if bit v 0 then s.clearFlds 0 [.ATN_ECC_CE, .ATN_ECC_UE, .ATN_CNT_NOPOOL, .ATN_CNT_EMPTYQ, .ATN_BLOCKS] else s)
  else s.regWord ⟨.atn, 0⟩ woff v

/-- A word of a pool page. -/
def State.poolWord (s : State) (fn q woff v : Nat) : State :=
  if 0x100 ≤ woff && woff ≤ 0x12C then s.regGuard fn (poolPage q) woff v (s.isOn (.CTRL_enable .atnPool) q) 0x71
  else if woff = 0x15C then
    if bit v 0 then s.clearFlds q [.ATN_POOL_SAT, .ATN_POOL_DROP, .ATN_POOL_MASKED, .ATN_POOL_MISSING, .ATN_POOL_SKIP] else s
  else s.regWord (poolPage q) woff v

/-! ## Memory (R295, R321 to R323) -/

/-- A word of a pseudo-channel page. -/
def State.memPcWord (s : State) (k woff v : Nat) : State :=
  if woff = 0x13C then
    if bit v 0 then
      s.clearFlds k [.MEM_PC_CE, .MEM_PC_UE, .MEM_PC_LATENT, .MEM_PC_WB, .MEM_PC_RD, .MEM_PC_WR, .MEM_PC_REFRESH]
    else s
  else s.regWord ⟨.memPc, k⟩ woff v

/-- A word of the MEM global page. -/
def State.memWord (s : State) (woff v : Nat) : State :=
  if woff = 0x11C then (if bit v 0 then s.clearFlds 0 [.MEM_SCRUB_PASSES] else s) else s.regWord ⟨.mem, 0⟩ woff v

/-- A word of a MEM partition page, for a writer that may write it. -/
def State.memPartWord (s : State) (fn p woff v : Nat) : State :=
  if 0x100 ≤ woff && woff ≤ 0x114 then s.regGuard fn ⟨.memPart, p⟩ woff v (s.regionOn p) 0x81
  else if woff = 0x140 then (if bit v 0 then s.clearFlds p [.MEM_CNT_HOST_UE, .MEM_CNT_CODEC_BAD, .MEM_BW_WAIT] else s)
  else s.regWord ⟨.memPart, p⟩ woff v

/-! ## Decoding (R455, R456, R462) -/

/-- Is a plan slot of the BE partition ACTIVE? -/
def State.beActive (s : State) : Bool :=
  match s.bePart with
  | some p => (List.range 8).any (fun k => s.get .CMD_PLAN_STATUS_state p k == 1)
  | none => false

/-- Does the cache of a state lie outside the BE partition's enabled region? -/
def State.cacheOutside (s : State) : Bool :=
  match s.bePart with
  | some p => s.regionOn p && !s.inRegion p (s.regionBase p + s.get .DEC_CACHE_BASE) 1
  | none => false

/-- A word of the decoder's cache registers: refused while a BE plan is active, or when the base would lie outside the region; a write
that takes effect flushes the cache (R456, R462). -/
def State.cacheWord (s : State) (fn woff v : Nat) : State :=
  let p : PageId := ⟨.dec, 0⟩
  if s.beActive then s.code p fn woff 0xD0
  else
    let t := s.regWord p woff v
    if woff = 0x108 then t
    else if woff = 0x10C && t.cacheOutside then (s.dropLow (p.base + 0x108)).code p fn woff 0xD1
    else t.cacheFlush

/-- A word of the DEC page. -/
def State.decWord (s : State) (fn woff v : Nat) : State :=
  if woff = 0x108 || woff = 0x10C || woff = 0x110 then s.cacheWord fn woff v
  else if woff = 0x114 then (if bit v 0 then s.flushWrite else s)
  else if woff = 0x140 then
    if bit v 0 then
      s.clearFlds 0 [.DEC_CNT_SAMPLES, .DEC_CNT_HIT, .DEC_CNT_MISS, .DEC_CNT_BUDGET, .DEC_CNT_HEADER, .DEC_CNT_FORMAT, .DEC_CNT_TRUNC,
        .DEC_SYMBOLS]
    else s
  else s.regWord ⟨.dec, 0⟩ woff v

/-! ## Position and time (R325, R335, R339, R341, R342, R346) -/

/-- A word of an encoder port page. -/
def State.encWord (s : State) (fn e woff v : Nat) : State :=
  let p := encPage e
  if woff ≤ 0x118 || woff = 0x120 || woff = 0x124 then s.regGuard fn p woff v (s.isOn (.CTRL_enable .enc) e) 0x90
  else if woff = 0x140 then s.regGuard fn p woff v (bits v 16 0 < 10 || 100000 < bits v 16 0) 0x92
  else if woff = 0x18C then (if bit v 0 then s.clearFlds e [.ENC_CNT_QUAD, .ENC_CNT_BAD, .ENC_CNT_REQ_SKIP] else s)
  else if woff = 0x200 && e = 0 then s.encSelect fn (bits v 1 0) (bits v 5 4) (bit v 6)
  else if 0x200 ≤ woff then s
  else s.regWord p woff v

/-- A word of compare unit `n`: its target and period are fixed while it is armed (R346). -/
def State.cmpWord (s : State) (fn n rel woff v : Nat) : State :=
  let armed := s.isOn .TIM_CMP_CTRL_arm 0 n
  if rel = 0x10 then
    let s := s.set .TIM_CMP_CTRL_irq 0 n (b2n (bit v 1))
    if bit v 0 then s.cmpArm n else s.set .TIM_CMP_CTRL_arm 0 n 0
  else if rel < 0x10 && armed then s.code timPage fn woff 0x98
  else if rel = 0x8 then s.regGuard fn timPage woff v (10 ^ 9 ≤ bits v 29 0) 0x9D
  else if rel = 0xC then s.regGuard fn timPage woff v (1 ≤ v && v < 100) 0x9E
  else s.regWord timPage woff v

/-- A word of the TIM page. -/
def State.timWord (s : State) (fn woff v : Nat) : State :=
  if woff = 0x110 then s.regGuard fn timPage woff v (2 ^ 22 < (sext 32 v).natAbs) 0x99
  else if woff = 0x118 || woff = 0x11C then s.timeSetHeld fn woff (fun s => s.regWord timPage woff v)
  else if woff = 0x120 then s.timeSetHeld fn woff (fun s => s.regGuard fn timPage woff v (10 ^ 9 ≤ bits v 29 0) 0x9D)
  else if woff = 0x124 then s.timeSet fn v
  else if woff = 0x128 then s.timeAdjust fn v
  else match inArray woff 0x200 0x20 16 with
    | some (n, rel) => s.cmpWord fn n rel woff v
    | none => s.regWord timPage woff v

/-! ## Tracking, ejection and field wiring (R365, R368, R388, R396, R398 to R400) -/

/-- A word of the TRK page; the default class may move reservations (R373). -/
def State.trkWord (s : State) (woff v : Nat) : State :=
  let p : PageId := ⟨.trk, 0⟩
  if woff = 0x1BC then
    if bit v 0 then
      s.clearFlds 0 [.TRK_CNT_OPENED, .TRK_CNT_SPAN, .TRK_CNT_SPAN_LOST, .TRK_CNT_STALE, .TRK_CNT_LATE, .TRK_CNT_LOG_LOST,
        .TRK_CNT_NOTICE_DROP, .TRK_CNT_ARM_IGNORED]
    else s
  else if woff = 0x100 then (s.regWord p woff v).reserveAll
  else s.regWord p woff v

/-- A word of the EJT page. -/
def State.ejtWord (s : State) (woff v : Nat) : State :=
  if woff = 0x19C then
    if bit v 0 then
      (s.clearFlds 0 [.EJT_CNT_FIRE, .EJT_CNT_LATE_CHANGE, .EJT_CNT_STRETCH, .EJT_CNT_QFULL, .EJT_CNT_MAXON, .EJT_CNT_VP_ERR]).set
        .EJT_QUEUE_peak 0 0 s.queueUsed
    else s
  else s.regWord ejtPage woff v

/-- A word of the FIO page. -/
def State.fioWord (s : State) (fn woff v : Nat) : State :=
  if woff = 0x118 || woff = 0x124 || (0x300 ≤ woff && woff < 0x340) then (s.regWord fioPage woff v).foUpdate
  else if woff = 0x11C then s.outputSet (bits v 15 0)
  else if woff = 0x130 then s.wdogWord fn v
  else if woff = 0x134 then s.wdogKick v
  else if woff = 0x138 then (if bit v 1 then s.safeRelease fn else s)
  else if woff = 0x15C then (if bit v 0 then s.clearFlds 0 [.FIO_CNT_EDGE, .FIO_CNT_BREAK, .FIO_CNT_RB_ERR, .FIO_CNT_WDOG] else s)
  else s.regWord fioPage woff v

/-! ## The host link (R405, R407) -/

/-- A word of the HLK page. -/
def State.hlkWord (s : State) (woff v : Nat) : State :=
  if woff = 0x104 then (if bit v 0 then s.linkFalls else s)
  else if woff = 0x120 then (if bit v 0 then s.clearFlds 0 [.HLK_CNT_REPLAY, .HLK_CNT_DOWN, .HLK_CNT_WR_LOST] else s)
  else s.regWord hlkPage woff v

/-! ## Command processor (R52, R59, R409, R411, R415, R418, R435, R477) -/

/-- The page of CMD. -/
def cmdGlobal : PageId := ⟨.cmd, 0⟩

/-- A write to the block of a partition (R411), with the messages of pages whose owner changes. -/
def State.partWord (s : State) (fn p woff v : Nat) : State :=
  s.rerouted (s.partWrite fn p woff (s.regWord cmdGlobal woff v))

/-- The vector whose message a function's MSI-X table entry unmasks: a pending one whose OR is still 1, or one of a completion queue
(R59, R409). -/
def State.unmasked (s : State) (fn vec : Nat) : State :=
  if !bit (s.msixPba fn) vec || bit (s.msixWord fn vec 3) 0 then s
  else
    let s := s.setPba fn (putBit (s.msixPba fn) vec false)
    if vec < 32 && !s.vecOr fn vec then s else s.sendMsix fn vec

/-- A word of a function's MSI-X table. -/
def State.msixTableWord (s : State) (p : PageId) (fn idx woff v : Nat) : State :=
  (s.regWord p woff v).unmasked fn (idx / 4)

/-- A word of the CMD global page. -/
def State.cmdWord (s : State) (fn woff v : Nat) : State :=
  match inArray woff 0x100 0x20 8, inArray woff 0x800 4 256 with
  | some (p, _), _ => s.partWord fn p woff v
  | _, some (i, _) => s.msixTableWord cmdGlobal 0 i woff v
  | _, _ => s.regWord cmdGlobal woff v

/-- A word of a plan slot's block (R187, R414, R415). -/
def State.planWord (s : State) (fn p k rel woff v : Nat) : State :=
  if rel = 0xC then
    let s := s.set .CMD_PLAN_LOAD_hold p k (b2n (bit v 1))
    let s := if bit v 0 then s.planGo p k (bit v 1) else s
    if bit v 2 then s.planUnload fn p k woff else s
  else s.regWord (cmdPage p) woff v

/-- A word of a submission queue's block (R418, R435). -/
def State.sqWord (s : State) (fn p q rel woff v : Nat) : State :=
  let pg := cmdPage p
  let on := s.isOn .CMD_SQ_CFG_enable p q
  if rel < 8 then s.regGuard fn pg woff v on 0xC6
  else if rel = 8 then
    if on && s.writeChanges p [.CMD_SQ_CFG_size_log2, .CMD_SQ_CFG_cq] q woff v then s.code pg fn woff 0xC6
    else
      let s := s.regWord pg woff v
      if bit v 16 then (s.set .CMD_SQ_STATUS_err p q 0).set .CMD_SQ_STATUS_err_code p q 0 else s
  else if rel = 0xC then s.sqDoorbell p q (bits v 15 0)
  else s.regWord pg woff v

/-- A word of a completion queue's block (R418, R423, R435). -/
def State.cqWord (s : State) (fn p c rel woff v : Nat) : State :=
  let pg := cmdPage p
  let on := s.isOn .CMD_CQ_CFG_enable p c
  if rel < 8 then s.regGuard fn pg woff v on 0xC6
  else if rel = 8 then
    if on && s.writeChanges p [.CMD_CQ_CFG_size_log2, .CMD_CQ_CFG_irq, .CMD_CQ_CFG_coal_n, .CMD_CQ_CFG_coal_us] c woff v then
      s.code pg fn woff 0xC6
    else (s.regWord pg woff v).cqFlush p c
  else if rel = 0xC then s.cqHead p c (bits v 15 0)
  else s.regWord pg woff v

/-- Does the digest ring that a word enables lie in the partition's region (R473, R477)? -/
def State.digFits (s : State) (p size : Nat) : Bool := 4 ≤ size && s.inRegion p (s.regionBase p + s.get .CMD_DIG_BASE p) (2 ^ size * 32)

/-- A write of CMD_DIG_CFG (R477): the size is fixed while the ring is enabled. -/
def State.digWord (s : State) (fn p woff v : Nat) : State :=
  let pg := cmdPage p
  let on := s.isOn .CMD_DIG_CFG_enable p
  let size := s.written p .CMD_DIG_CFG_size_log2 0 woff v
  let t := if on && size != s.get .CMD_DIG_CFG_size_log2 p then
      (s.code pg fn woff 0xC7).regWord pg woff (putBits v 0 5 (s.get .CMD_DIG_CFG_size_log2 p))
    else s.regWord pg woff v
  if !on && bit v 8 && !s.digFits p size then (t.set .CMD_DIG_CFG_enable p 0 0).code pg fn woff 0xC8 else t

/-- A word of a CMD partition page. -/
def State.cmdPartWord (s : State) (fn p woff v : Nat) : State :=
  let pg := cmdPage p
  if woff = 0x104 then (if bit v 0 then s.releasePart p else s)
  else if woff = 0x12C then
    if bit v 0 then s.clearFlds p [.CMD_CNT_DEADLINE, .CMD_CNT_ABORT, .CMD_CNT_RESTART, .CMD_CNT_OVERRUN, .CMD_DIG_LOST] else s
  else if woff = 0x140 || woff = 0x144 then s.regGuard fn pg woff v (s.isOn .CMD_DIG_CFG_enable p) 0xC7
  else if woff = 0x148 then s.digWord fn p woff v
  else match inArray woff 0x200 0x40 8, inArray woff 0x400 0x20 16, inArray woff 0x600 0x20 32, inArray woff 0xB00 4 256 with
    | some (k, rel), _, _, _ => s.planWord fn p k rel woff v
    | _, some (q, rel), _, _ => s.sqWord fn p q rel woff v
    | _, _, some (c, rel), _ => s.cqWord fn p c rel woff v
    | _, _, _, some (i, _) => if fn == p + 1 then s.msixTableWord pg fn i woff v else s
    | _, _, _, _ => s.regWord pg woff v

/-! ## Counters (R535 to R539) -/

/-- The page of PMC. -/
def pmcPage : PageId := ⟨.pmc, 0⟩

/-- PMC_CTRL.freeze and unfreeze (R536): a freeze wins. -/
def State.pmcControl (s : State) (freeze unfreeze : Bool) : State :=
  if freeze then s.pmcFreezeNow else if unfreeze then s.set .PMC_CTRL_frozen 0 0 0 else s

/-- May counter `n` be written (R537)? -/
def State.pmcOpen (s : State) (n : Nat) : Bool := s.isOn .PMC_CTRL_frozen || !s.isOn .PMC_CNT_SEL_enable 0 n

/-- A write of PMC_CLR (R537): a bit of a counter that runs is discarded. -/
def State.pmcClear (s : State) (fn mask : Nat) : State :=
  let s' := s.forEach ((onesOf 32 mask).filter s.pmcOpen) (fun s n => s.set .PMC_CNT 0 n 0)
  if (onesOf 32 mask).any (fun n => !s.pmcOpen n) then s'.code pmcPage fn 0x110 0x60 else s'

/-- The fields that a write may not change while the counter runs (R537). -/
def pmcFixed : List Fld :=
  [.PMC_CNT_SEL_event, .PMC_CNT_SEL_mode, .PMC_CNT_SEL_instance, .PMC_CNT_SEL_inst_any, .PMC_CNT_SEL_part, .PMC_CNT_SEL_part_en]

/-- A counter that is enabled or takes another event starts from the occupancy of the present tick, with its detector armed. -/
def State.pmcStart (s : State) (n : Nat) : State := (s.set .PMCX_LAST 0 n ((s.pmcRate n).2.getD 0)).set .PMCX_DISARMED 0 n 0

/-- A write of PMC_CNTn_SEL (R535, R537). -/
def State.pmcSelect (s : State) (fn n woff v : Nat) : State :=
  let changes := s.writeChanges 0 pmcFixed n woff v
  let on := s.isOn .PMC_CNT_SEL_enable 0 n
  if on && changes then s.code pmcPage fn woff 0x60
  else
    let evenChain := n % 2 == 0 && bit v 25
    let t := s.regWord pmcPage woff (if evenChain then putBit v 25 false else v)
    let t := if changes || (!on && bit v 24) then t.pmcStart n else t
    if evenChain then t.code pmcPage fn woff 0x61 else t

/-- A word of the PMC page. -/
def State.pmcWord (s : State) (fn woff v : Nat) : State :=
  if woff = 0x100 then (s.regWord pmcPage woff v).pmcControl (bit v 1) (bit v 3)
  else if woff = 0x110 then s.pmcClear fn v
  else match inArray woff 0x200 8 32, inArray woff 0x400 4 32 with
    | some (n, 0), _ => s.pmcSelect fn n woff v
    | _, some (n, _) => s.regGuard fn pmcPage woff v (!s.pmcOpen n) 0x60
    | _, _ => s.regWord pmcPage woff v

/-! ## Power, management, security, retention (R491, R496, R503 to R506, R509 to R512, R528) -/

/-- A word of the PWR page (R528). -/
def State.pwrWord (s : State) (fn woff v : Nat) : State :=
  let p : PageId := ⟨.pwr, 0⟩
  let bad :=
    if woff = 0x100 then bits v 4 0 = 0 || 16 < bits v 4 0
    else if woff = 0x104 then 22 < bits v 4 0 || 22 < bits v 12 8 || bits v 12 8 < bits v 4 0
    else if woff = 0x108 then bits v 6 0 < 40 || 120 < bits v 6 0
    else false
  s.regGuard fn p woff v bad 0xF0

/-- A write of MGT_MODE (R464, R517): a step that runs stays as its beginning found it only under the mode it began with, and FIXED
takes the clock to point 17 at once. -/
def State.modeWord' (s : State) (woff v : Nat) : State :=
  let was := s.get .MGT_MODE_freq_mode
  let s := s.regWord mgtPage woff v
  if s.get .MGT_MODE_freq_mode == was then s
  else
    let s := if s.isOn .MGT_MODE_freq_mode && !s.stopped then s.toPoint 17 else s
    { s with cmd := { s.cmd with jobs := s.cmd.jobs.map (fun j => { j with run := j.run.map (fun r => { r with fixed := false }) }) } }

/-- A word of the MGT page. -/
def State.mgtWord (s : State) (fn woff v : Nat) : State :=
  if woff = 0x100 then s.modeWord' woff v
  else if woff = 0x104 then (if bit v 0 then s.releaseEverything else s)
  else if woff = 0x10C then s.resetWrite fn v
  else if woff = 0x110 then (if bit v 0 then s.startOk fn else s)
  else if woff = 0x1A0 then s.faultForce fn v
  else s.regWord mgtPage woff v

/-- A word of the SEC page. -/
def State.secWord (s : State) (fn woff v : Nat) : State :=
  if 0x140 ≤ woff && woff ≤ 0x148 then s.patchHeld fn woff (fun s => s.regWord secPage woff v)
  else if woff = 0x14C then s.patchCtrl fn v
  else if 0x160 ≤ woff && woff ≤ 0x184 then s.attestHeld fn woff (fun s => s.regWord secPage woff v)
  else if woff = 0x188 then (if bit v 0 then s.attestGo fn else s)
  else s.regWord secPage woff v

/-- A write of RET_CTRL: `snap`, then `erase`. -/
def State.retCtrl (s : State) (fn v : Nat) : State :=
  let s := if bit v 0 then s.snapGo fn else s
  if bit v 1 then s.velvetErase fn else s

/-- A word of the RET page. -/
def State.retWord (s : State) (fn woff v : Nat) : State :=
  if woff = 0x100 then s.retCtrl fn v
  else if woff = 0x148 then s.retireClear fn v
  else s.regWord retPage woff v

/-! ## Every page -/

/-- A word write to the block registers of a page. -/
def State.blockWord (s : State) (fn : Nat) (p : PageId) (woff v : Nat) : State :=
  match p.kind with
  | .lan => s.lanWord fn p.inst woff v
  | .lanPeer => s.peerWord fn p.inst woff v
  | .cap => s.capWord woff v
  | .capCtx => s.capCtxWord fn p.inst woff v
  | .lnp => s.lnpWord woff v
  | .lnpCtx => s.lnpCtxWord fn p.inst woff v
  | .clu => s.cluWord fn p.inst woff v
  | .arr => s.regWord p woff v
  | .fwn => s.fwnWord fn woff v
  | .atn => s.atnWord woff v
  | .atnPool => s.poolWord fn p.inst woff v
  | .memPc => s.memPcWord p.inst woff v
  | .mem => s.memWord woff v
  | .memPart => s.memPartWord fn p.inst woff v
  | .dec => s.decWord fn woff v
  | .enc => s.encWord fn p.inst woff v
  | .tim => s.timWord fn woff v
  | .trk => s.trkWord woff v
  | .ejt => s.ejtWord woff v
  | .fio => s.fioWord fn woff v
  | .hlk => s.hlkWord woff v
  | .cmd => s.cmdWord fn woff v
  | .cmdPart => s.cmdPartWord fn p.inst woff v
  | .pmc => s.pmcWord fn woff v
  | .pwr => s.pwrWord fn woff v
  | .mgt => s.mgtWord fn woff v
  | .sec => s.secWord fn woff v
  | .ret => s.retWord fn woff v

/-- A word write to the common header of a page (R45). -/
def State.headerWord (s : State) (fn : Nat) (p : PageId) (woff v : Nat) : State :=
  if woff = 0x8 then s.ctrlWrite fn p v
  else if woff = 0x10 then s.set (.EVT_STATUS p.kind) p.inst 0 (s.get (.EVT_STATUS p.kind) p.inst &&& (2 ^ 32 - 1 - v % 2 ^ 32))
  else if woff = 0x14 then s.evtEnableWrite p v
  else if woff = 0x18 then s.evtForceWrite p v
  else if woff = 0x1C then s.errInfoWrite p v
  else if woff = 0x20 then s.commitWrite fn p v
  else if woff = 0x28 then s.ownerSet fn p v
  else if woff = 0x2C then s.lockSet p v
  else s

/-- The words of its MEM partition page that a partition function may write (R295). -/
def memPartOpen (woff : Nat) : Bool := woff = 0x10 || woff = 0x14 || woff = 0x1C || woff = 0x140

/-- A word write that nothing turns away but the limits of the MEM partition pages (R295). -/
def State.hostWord (s : State) (fn : Nat) (p : PageId) (woff v : Nat) : State :=
  if p.kind == .memPart && fn != 0 && !memPartOpen woff then (s.code p fn woff 0x83).count (.LOCK_denied .memPart) p.inst 0 1
  else if woff < 0x100 then s.headerWord fn p woff v
  else s.blockWord fn p woff v

end Sys2Proof.Machine
end

