-- ==== Sys2Proof/WellFormed.lean ====
section
/-!
DEFINITION. WellFormed.lean: the commands that can arrive: an access inside its window, operands that fit their fields, pages that exist
(R9, R42, R43); and the pages that a command names.
-/
namespace Sys2Proof

/-- The bytes of a function's BAR0 (R42). -/
def bar0Size : Nat := 2 ^ 26

/-- The bytes of a function's BAR2 (R42). -/
def bar2Size : Nat := 2 ^ 36

/-- Is the access an aligned 32-bit or 64-bit one inside BAR0 (R9)? -/
def accessOk (off size : Nat) : Bool := (size == 4 || size == 8) && off % size == 0 && off < bar0Size

/-- Does a valve exist: 128 on a valve port, 16 direct outputs (R366)? -/
def valveOk (path : ValvePath) (valve : ValveNo) : Bool := path.val < 4 || valve.val < 16

/-- Do a peer frame's fields fit their bytes (R86)? -/
def PeerFrame.wf (f : PeerFrame) : Bool :=
  f.typ < 2 ^ 8 && f.seq < 2 ^ 16 && f.length < 2 ^ 16 && f.ackSeq < 2 ^ 16 && f.tag < 2 ^ 64

/-- Can the command arrive? -/
def Instr.wf (i : Instr) : Bool :=
  match i with
  | .registerWrite _ off size value => accessOk off size && value.toNat < 2 ^ (8 * size)
  | .lowWordRead _ off => off % 4 == 0 && off < bar0Size
  | .bar2Write _ off data => !data.isEmpty && off + data.length ≤ bar2Size
  | .bar2Read _ off len => len != 0 && off + len ≤ bar2Size
  | .evtForce _ page _ => page.ok
  | .softReset _ page => page.ok
  | .quiesce _ page => page.ok
  | .enableClear _ page => page.ok
  | .laneEnable _ _ => true
  | .capContextEnable _ _ => true
  | .lnpContextEnable _ _ => true
  | .atnPoolEnable _ _ => true
  | .memRegionEnable _ _ => true
  | .encPortEnable _ _ => true
  | .ejtEnable _ => true
  | .fioEnable _ => true
  | .commitGo _ page _ _ _ => page.ok
  | .commitApply page => page.ok
  | .mgtCommitRelease _ => true
  | .cmdCommitRelease _ _ => true
  | .ownerWrite _ page _ _ => page.ok
  | .lockSticky _ page => page.ok
  | .msixUnmask _ _ => true
  | .errorWindowEnd => true
  | .streamPacket _ _ _ _ => true
  | .controlPacketReceived _ _ _ => true
  | .mailboxSend _ _ => true
  | .mbxTxDone _ => true
  | .cxpDiscoveryStep _ => true
  | .lanePowerWrite _ _ _ _ => true
  | .lockGained _ => true
  | .lockTimeout _ => true
  | .lockLost _ => true
  | .codeError _ => true
  | .polFlip _ => true
  | .laneSlip _ _ => true
  | .trainMatch _ word => word < 2 ^ 20
  | .peerGroupEnable _ _ => true
  | .peerTrain _ _ => true
  | .peerBlockLock _ => true
  | .peerLockTimeout _ => true
  | .peerMarkersFound _ order _ => order.length == 4 && order.all (fun x => x < 4)
  | .helloSend _ => true
  | .helloFrame _ frame crc => frame.wf && crc < 2 ^ 32
  | .helloTimeout _ => true
  | .peerLaneLockLost _ _ => true
  | .peerRetrainDelay _ => true
  | .peerStripeFrame _ frame crc => frame.wf && crc < 2 ^ 32
  | .peerVerdictFrame _ frame crc => frame.wf && crc < 2 ^ 32
  | .kvpageFrame _ frame crc => frame.wf && crc < 2 ^ 32
  | .kvreqFrame _ frame crc => frame.wf && crc < 2 ^ 32
  | .ackFrame _ frame crc => frame.wf && crc < 2 ^ 32
  | .nakFrame _ frame crc => frame.wf && crc < 2 ^ 32
  | .creditFrame _ frame crc => frame.wf && crc < 2 ^ 32
  | .creditSend _ => true
  | .ackTimer _ => true
  | .replayTimeout _ => true
  | .lineArrival _ _ _ => true
  | .pairingWindowExpiry _ => true
  | .lineComplete _ samples => samples.all (fun x => x < 65536)
  | .groupAlignTimeout _ => true
  | .ringWriteDone _ => true
  | .settleForce _ _ => true
  | .replayPush _ _ => true
  | .replaySlotRead _ => true
  | .lnpNotice _ => true
  | .creditReturn _ => true
  | .holdLimitExpiry _ => true
  | .lnpStripeBegin => true
  | .tableBlockArrived _ => true
  | .lnpStripeDone => true
  | .uncorrectableRead _ word _ => word < 100663296
  | .correctableRead _ line => line < 12582912
  | .eccWriteback _ => true
  | .jobSchedule _ => true
  | .tileAssign _ => true
  | .memoryReadReturn _ _ => true
  | .tileComplete _ _ => true
  | .fawnPassReady _ => true
  | .fawnPassDone => true
  | .sramCorrected _ _ => true
  | .sramUe _ _ => true
  | .partOpen => true
  | .partOpenClose => true
  | .partCont => true
  | .partClose => true
  | .partMerged => true
  | .partSpan => true
  | .verdictArm => true
  | .verdictFinal => true
  | .recordCommit _ _ => true
  | .deadlinePoint _ => true
  | .firingOn _ _ _ => true
  | .firingOff _ _ _ => true
  | .tableFreed _ => true
  | .minTimeHoldEnd path valve => valveOk path valve
  | .maxOnExpiry path valve => valveOk path valve
  | .vpFrameBoundary _ _ _ _ => true
  | .kvAppendIssue _ => true
  | .attnIssue _ => true
  | .atnWorkUnitDone _ => true
  | .peerReadTimeout => true
  | .planLoadGo _ _ _ _ => true
  | .planCheckDone _ _ => true
  | .planSwitch _ _ => true
  | .planUnload _ _ _ => true
  | .partitionConfigWrite _ _ _ => true
  | .sqDoorbell _ _ _ _ => true
  | .sqRun _ _ _ => true
  | .sqStop _ _ _ => true
  | .sqFence _ _ _ => true
  | .cqHeadWrite _ _ _ _ => true
  | .cqCoalesceTimer _ _ => true
  | .sliceEnd _ => true
  | .jobSwitchDone _ => true
  | .nonpreemptWatchdog _ => true
  | .bwWindowStart => true
  | .refresh _ => true
  | .scrubRead => true
  | .encoderEdge _ _ _ => true
  | .indexEdge _ _ => true
  | .absFrameComplete _ _ => true
  | .sincosSample _ _ _ => true
  | .speedWindowEnd _ => true
  | .encSelWrite _ _ _ _ => true
  | .timeSetImmediate _ => true
  | .timeSetAtPps _ => true
  | .timeSetCancel _ => true
  | .timeAdjust _ _ => true
  | .ppsEdge _ => true
  | .secondsRollover => true
  | .compareArm _ _ => true
  | .compareMatch _ => true
  | .refLost => true
  | .refReturn => true
  | .fieldInputSample _ _ _ => true
  | .outputSetWrite _ _ => true
  | .watchdogEnable _ => true
  | .watchdogKick _ _ => true
  | .watchdogExpiry => true
  | .safeRelease _ => true
  | .linkDown => true
  | .linkUp _ _ _ => true
  | .linkRetrain _ => true
  | .powerOn => true
  | .resetNFall => true
  | .resetRecognised => true
  | .resetNRise _ => true
  | .railUndervoltage => true
  | .mgtReset _ _ _ _ => true
  | .mgtResetExecute => true
  | .startCoolantWaitEnd => true
  | .memoryScrubDone => true
  | .patchGo _ => true
  | .patchNone _ => true
  | .patchWindowTimeout => true
  | .patchCheckDone _ _ => true
  | .settingsRestore _ _ => true
  | .startOk _ => true
  | .startOkWindowEnd => true
  | .coolantStop => true
  | .thermalStop => true
  | .faultForce _ _ _ => true
  | .classifierLeak _ => true
  | .retirementRecorded => true
  | .retireClear _ _ _ => true
  | .snapshot _ => true
  | .snapshotCaptured => true
  | .snapshotDone _ => true
  | .velvetErase _ => true
  | .attestGo _ => true
  | .attestDone => true
  | .voltageWaitEnd _ => true
  | .railThrottleOn _ => true
  | .railThrottleOff _ => true
  | .pmcFreeze _ => true
  | .pmcUnfreeze _ => true
  | .pmcClear _ _ => true
  | .pmcWrap _ => true
  | .pmcCrossing _ => true
  | .decFetchIssue _ => true
  | .decSampleDecoded _ => true
  | .decSampleDelivered => true
  | .decCommitIssue _ => true
  | .decCacheFlush _ => true
  | .laneWakeEnd _ => true
  | .fuseLoadDone => true
  | .velvetCheckDone _ _ _ _ => true
  | .hbmTrainingDone _ => true
  | .hostReadFailed _ _ => true
  | .refusedOpcode _ _ _ => true

/-- The pages that a command names: those of the page map on which it writes, or whose block it is an event of. -/
def Instr.pages (i : Instr) : List PageId :=
  match i with
  | .registerWrite _ off _ _ => (pageAt off).toList
  | .lowWordRead _ off => (pageAt off).toList
  | .bar2Write _ _ _ => []
  | .bar2Read _ _ _ => []
  | .evtForce _ page _ => [page]
  | .softReset _ page => [page]
  | .quiesce _ page => [page]
  | .enableClear _ page => [page]
  | .laneEnable _ lane => [⟨.lan, lane⟩]
  | .capContextEnable _ ctx => [⟨.capCtx, ctx⟩]
  | .lnpContextEnable _ ctx => [⟨.lnpCtx, ctx⟩]
  | .atnPoolEnable _ pool => [⟨.atnPool, pool⟩]
  | .memRegionEnable _ part => [⟨.memPart, part⟩]
  | .encPortEnable _ port => [⟨.enc, port⟩]
  | .ejtEnable _ => [⟨.ejt, 0⟩]
  | .fioEnable _ => [⟨.fio, 0⟩]
  | .commitGo _ page _ _ _ => [page]
  | .commitApply page => [page]
  | .mgtCommitRelease _ => [⟨.mgt, 0⟩]
  | .cmdCommitRelease _ part => [⟨.cmdPart, part⟩]
  | .ownerWrite _ page _ _ => [page]
  | .lockSticky _ page => [page]
  | .msixUnmask _ _ => []
  | .errorWindowEnd => []
  | .streamPacket lane _ _ _ => [⟨.lan, lane⟩]
  | .controlPacketReceived lane _ _ => [⟨.lan, lane⟩]
  | .mailboxSend _ lane => [⟨.lan, lane⟩]
  | .mbxTxDone lane => [⟨.lan, lane⟩]
  | .cxpDiscoveryStep lane => [⟨.lan, lane⟩]
  | .lanePowerWrite _ lane _ _ => [⟨.lan, lane⟩]
  | .lockGained lane => [⟨.lan, lane⟩]
  | .lockTimeout lane => [⟨.lan, lane⟩]
  | .lockLost lane => [⟨.lan, lane⟩]
  | .codeError lane => [⟨.lan, lane⟩]
  | .polFlip lane => [⟨.lan, lane⟩]
  | .laneSlip _ lane => [⟨.lan, lane⟩]
  | .trainMatch lane _ => [⟨.lan, lane⟩]
  | .peerGroupEnable _ grp => [⟨.lanPeer, grp⟩]
  | .peerTrain _ grp => [⟨.lanPeer, grp⟩]
  | .peerBlockLock grp => [⟨.lanPeer, grp⟩]
  | .peerLockTimeout grp => [⟨.lanPeer, grp⟩]
  | .peerMarkersFound grp _ _ => [⟨.lanPeer, grp⟩]
  | .helloSend grp => [⟨.lanPeer, grp⟩]
  | .helloFrame grp _ _ => [⟨.lanPeer, grp⟩]
  | .helloTimeout grp => [⟨.lanPeer, grp⟩]
  | .peerLaneLockLost grp _ => [⟨.lanPeer, grp⟩]
  | .peerRetrainDelay grp => [⟨.lanPeer, grp⟩]
  | .peerStripeFrame grp _ _ => [⟨.lanPeer, grp⟩]
  | .peerVerdictFrame grp _ _ => [⟨.lanPeer, grp⟩]
  | .kvpageFrame grp _ _ => [⟨.lanPeer, grp⟩]
  | .kvreqFrame grp _ _ => [⟨.lanPeer, grp⟩]
  | .ackFrame grp _ _ => [⟨.lanPeer, grp⟩]
  | .nakFrame grp _ _ => [⟨.lanPeer, grp⟩]
  | .creditFrame grp _ _ => [⟨.lanPeer, grp⟩]
  | .creditSend grp => [⟨.lanPeer, grp⟩]
  | .ackTimer grp => [⟨.lanPeer, grp⟩]
  | .replayTimeout grp => [⟨.lanPeer, grp⟩]
  | .lineArrival _ _ _ => [⟨.cap, 0⟩]
  | .pairingWindowExpiry _ => [⟨.cap, 0⟩]
  | .lineComplete _ _ => [⟨.cap, 0⟩]
  | .groupAlignTimeout ctx => [⟨.capCtx, ctx⟩]
  | .ringWriteDone ctx => [⟨.capCtx, ctx⟩]
  | .settleForce _ _ => [⟨.cap, 0⟩]
  | .replayPush _ ctx => [⟨.capCtx, ctx⟩]
  | .replaySlotRead ctx => [⟨.capCtx, ctx⟩]
  | .lnpNotice ctx => [⟨.lnpCtx, ctx⟩]
  | .creditReturn ctx => [⟨.lnpCtx, ctx⟩]
  | .holdLimitExpiry ctx => [⟨.lnpCtx, ctx⟩]
  | .lnpStripeBegin => [⟨.lnp, 0⟩]
  | .tableBlockArrived ctx => [⟨.lnpCtx, ctx⟩]
  | .lnpStripeDone => [⟨.lnp, 0⟩]
  | .uncorrectableRead pc _ _ => [⟨.memPc, pc⟩]
  | .correctableRead pc _ => [⟨.memPc, pc⟩]
  | .eccWriteback pc => [⟨.memPc, pc⟩]
  | .jobSchedule part => [⟨.cmdPart, part⟩]
  | .tileAssign part => [⟨.cmdPart, part⟩]
  | .memoryReadReturn part _ => [⟨.cmdPart, part⟩]
  | .tileComplete part _ => [⟨.cmdPart, part⟩]
  | .fawnPassReady part => [⟨.cmdPart, part⟩]
  | .fawnPassDone => [⟨.fwn, 0⟩]
  | .sramCorrected _ _ => []
  | .sramUe _ _ => []
  | .partOpen => [⟨.trk, 0⟩]
  | .partOpenClose => [⟨.trk, 0⟩]
  | .partCont => [⟨.trk, 0⟩]
  | .partClose => [⟨.trk, 0⟩]
  | .partMerged => [⟨.trk, 0⟩]
  | .partSpan => [⟨.trk, 0⟩]
  | .verdictArm => [⟨.trk, 0⟩]
  | .verdictFinal => [⟨.trk, 0⟩]
  | .recordCommit _ _ => [⟨.trk, 0⟩]
  | .deadlinePoint _ => [⟨.trk, 0⟩]
  | .firingOn _ _ _ => [⟨.ejt, 0⟩]
  | .firingOff _ _ _ => [⟨.ejt, 0⟩]
  | .tableFreed _ => [⟨.atn, 0⟩]
  | .minTimeHoldEnd _ _ => [⟨.ejt, 0⟩]
  | .maxOnExpiry _ _ => [⟨.ejt, 0⟩]
  | .vpFrameBoundary _ _ _ _ => [⟨.ejt, 0⟩]
  | .kvAppendIssue part => [⟨.cmdPart, part⟩]
  | .attnIssue part => [⟨.cmdPart, part⟩]
  | .atnWorkUnitDone _ => [⟨.atn, 0⟩]
  | .peerReadTimeout => [⟨.atn, 0⟩]
  | .planLoadGo _ part _ _ => [⟨.cmdPart, part⟩]
  | .planCheckDone part _ => [⟨.cmdPart, part⟩]
  | .planSwitch part _ => [⟨.cmdPart, part⟩]
  | .planUnload _ part _ => [⟨.cmdPart, part⟩]
  | .partitionConfigWrite _ _ _ => [⟨.cmd, 0⟩]
  | .sqDoorbell _ part _ _ => [⟨.cmdPart, part⟩]
  | .sqRun part _ _ => [⟨.cmdPart, part⟩]
  | .sqStop part _ _ => [⟨.cmdPart, part⟩]
  | .sqFence part _ _ => [⟨.cmdPart, part⟩]
  | .cqHeadWrite _ part _ _ => [⟨.cmdPart, part⟩]
  | .cqCoalesceTimer part _ => [⟨.cmdPart, part⟩]
  | .sliceEnd part => [⟨.cmdPart, part⟩]
  | .jobSwitchDone part => [⟨.cmdPart, part⟩]
  | .nonpreemptWatchdog part => [⟨.cmdPart, part⟩]
  | .bwWindowStart => []
  | .refresh pc => [⟨.memPc, pc⟩]
  | .scrubRead => [⟨.mem, 0⟩]
  | .encoderEdge port _ _ => [⟨.enc, port⟩]
  | .indexEdge port _ => [⟨.enc, port⟩]
  | .absFrameComplete port _ => [⟨.enc, port⟩]
  | .sincosSample port _ _ => [⟨.enc, port⟩]
  | .speedWindowEnd port => [⟨.enc, port⟩]
  | .encSelWrite _ _ _ _ => [⟨.enc, 0⟩]
  | .timeSetImmediate _ => [⟨.tim, 0⟩]
  | .timeSetAtPps _ => [⟨.tim, 0⟩]
  | .timeSetCancel _ => [⟨.tim, 0⟩]
  | .timeAdjust _ _ => [⟨.tim, 0⟩]
  | .ppsEdge _ => [⟨.tim, 0⟩]
  | .secondsRollover => [⟨.tim, 0⟩]
  | .compareArm _ _ => [⟨.tim, 0⟩]
  | .compareMatch _ => [⟨.tim, 0⟩]
  | .refLost => [⟨.tim, 0⟩]
  | .refReturn => [⟨.tim, 0⟩]
  | .fieldInputSample _ _ _ => [⟨.fio, 0⟩]
  | .outputSetWrite _ _ => [⟨.fio, 0⟩]
  | .watchdogEnable _ => [⟨.fio, 0⟩]
  | .watchdogKick _ _ => [⟨.fio, 0⟩]
  | .watchdogExpiry => [⟨.fio, 0⟩]
  | .safeRelease _ => [⟨.fio, 0⟩]
  | .linkDown => [⟨.hlk, 0⟩]
  | .linkUp _ _ _ => [⟨.hlk, 0⟩]
  | .linkRetrain _ => [⟨.hlk, 0⟩]
  | .powerOn => []
  | .resetNFall => []
  | .resetRecognised => []
  | .resetNRise _ => []
  | .railUndervoltage => []
  | .mgtReset _ _ _ _ => [⟨.mgt, 0⟩]
  | .mgtResetExecute => [⟨.mgt, 0⟩]
  | .startCoolantWaitEnd => []
  | .memoryScrubDone => []
  | .patchGo _ => [⟨.sec, 0⟩]
  | .patchNone _ => [⟨.sec, 0⟩]
  | .patchWindowTimeout => [⟨.sec, 0⟩]
  | .patchCheckDone _ _ => [⟨.sec, 0⟩]
  | .settingsRestore _ _ => [⟨.ret, 0⟩]
  | .startOk _ => [⟨.mgt, 0⟩]
  | .startOkWindowEnd => [⟨.mgt, 0⟩]
  | .coolantStop => []
  | .thermalStop => []
  | .faultForce _ _ _ => [⟨.mgt, 0⟩]
  | .classifierLeak _ => [⟨.mgt, 0⟩]
  | .retirementRecorded => [⟨.ret, 0⟩]
  | .retireClear _ _ _ => [⟨.ret, 0⟩]
  | .snapshot _ => [⟨.ret, 0⟩]
  | .snapshotCaptured => [⟨.ret, 0⟩]
  | .snapshotDone _ => [⟨.ret, 0⟩]
  | .velvetErase _ => [⟨.ret, 0⟩]
  | .attestGo _ => [⟨.sec, 0⟩]
  | .attestDone => [⟨.sec, 0⟩]
  | .voltageWaitEnd _ => [⟨.pwr, 0⟩]
  | .railThrottleOn _ => [⟨.pwr, 0⟩]
  | .railThrottleOff _ => [⟨.pwr, 0⟩]
  | .pmcFreeze _ => [⟨.pmc, 0⟩]
  | .pmcUnfreeze _ => [⟨.pmc, 0⟩]
  | .pmcClear _ _ => [⟨.pmc, 0⟩]
  | .pmcWrap _ => [⟨.pmc, 0⟩]
  | .pmcCrossing _ => [⟨.pmc, 0⟩]
  | .decFetchIssue part => [⟨.cmdPart, part⟩]
  | .decSampleDecoded _ => [⟨.dec, 0⟩]
  | .decSampleDelivered => [⟨.dec, 0⟩]
  | .decCommitIssue part => [⟨.cmdPart, part⟩]
  | .decCacheFlush _ => [⟨.dec, 0⟩]
  | .laneWakeEnd lane => [⟨.lan, lane⟩]
  | .fuseLoadDone => [⟨.mgt, 0⟩]
  | .velvetCheckDone _ _ _ _ => [⟨.mgt, 0⟩]
  | .hbmTrainingDone _ => []
  | .hostReadFailed part _ => [⟨.cmdPart, part⟩]
  | .refusedOpcode part _ _ => [⟨.cmdPart, part⟩]

end Sys2Proof
end

