-- ==== Sys2Proof/Machine/Host.lean ====
section
/-!
DEFINITION. Machine/Host.lean: host writes of BAR0 as whole accesses (R9, R41, R44, R55, R496, R565), and host writes and reads of BAR2
(R42, R185, R187, R294, R300, R313, R314).
-/
namespace Sys2Proof.Machine

/-! ## BAR0 -/

/-- The words of an access: offset and value. -/
def accessWords (off size v : Nat) : List (Nat × Nat) := (List.range (size / 4)).map (fun i => (off + 4 * i, bits v (32 * i + 31) (32 * i)))

/-- The words of an access that has reached its page: those that the lock exempts take effect; the others count as one denial (R55). -/
def State.lockedWords (s : State) (fn : Nat) (p : PageId) (ws : List (Nat × Nat)) : State :=
  let denied := ws.any (fun w => s.lockDenies fn p w.1)
  let t := s.forEach (ws.filter (fun w => !s.lockDenies fn p w.1)) (fun t w => t.hostWord fn p w.1 w.2)
  if denied then t.count (.LOCK_denied p.kind) p.inst 0 1 else t

/-- A BAR0 write that no snapshot holds. -/
def State.barWrite (s : State) (fn off size v : Nat) : State :=
  match pageAt off with
  | none => if s.stopped then s else s.deny 1 fn 0 off
  | some p => s.hostReach fn p (off - p.base) (fun s => s.lockedWords fn p (accessWords (off - p.base) size v))

/-- A host write of BAR0. -/
def State.bar0Write (s : State) (fn off size v : Nat) : State :=
  if !s.linkUp || !accessOk off size then s
  else match s.held with
    | some h => { s with held := some (h ++ [⟨fn, off, size, v⟩]) }
    | none => s.barWrite fn off size v

/-- A host write of the value `v` to one word of a page. -/
def State.hostRow (s : State) (fn : Nat) (p : PageId) (woff v : Nat) : State :=
  s.hostGate fn p woff 4 v (fun s => s.hostWord fn p woff v)

/-- The capture of a snapshot ends: the held writes take effect in order (R496). -/
def State.snapCaptured (s : State) : State :=
  match s.held with
  | none => s
  | some h => State.forEach { s with held := none } h (fun s w => s.barWrite w.fn w.off w.size w.value)

/-! ## BAR2 -/

/-- The images that are loaded, or whose load waits: device address and size (R185, R187). -/
def State.images (s : State) : List (Nat × Nat) :=
  s.cmd.slots.flatMap (fun l => l.flatMap (fun x =>
    (match x.active with
      | some P => [(P.base, P.size)]
      | none => []) ++
    (match x.load with
      | some w => [(w.base, w.size)]
      | none => [])))

/-- Does a byte of BAR2 take a write: inside the function's window and in no loaded image? -/
def State.bar2Takes (s : State) (fn off : Nat) : Bool :=
  match s.bar2Addr fn off with
  | none => false
  | some a => (s.regionOf a).isSome && !s.images.any (fun m => m.1 ≤ a && a < m.1 + m.2)

/-- The 64-bit words that a run of bytes touches, as offset and length of their touched parts. -/
def wordRuns (off n : Nat) : List (Nat × Nat) :=
  (List.range ((off % 8 + n + 7) / 8)).map (fun i =>
    let lo := max off ((off / 8 + i) * 8)
    (lo, min (off + n) ((off / 8 + i + 1) * 8) - lo))

/-- How many bytes from an offset on lie in a function's window, at most `n` (R42). -/
def State.bar2Span (s : State) (fn off n : Nat) : Nat := min n ((if fn = 0 then 48 * 2 ^ 30 else s.regionSize (fn - 1)) - off)

/-- The function's partition, for counting and bandwidth; PF0 has none (R300). -/
def fnPart (fn : Nat) : Option Nat := if fn = 0 then none else some (fn - 1)

/-- BAR2 traffic on the lines of a run at a device address: counted, and charged to the function's partition as borrowing (R300). -/
def State.bar2Traffic (s : State) (fn a n : Nat) (write : Bool) : State :=
  let s := if write then s.countWr a n (fnPart fn) else s.countRd a n (fnPart fn)
  match fnPart fn with
  | none => s
  | some p => s.forEach (runLines a n) (fun s l => s.bwRequest p l.2 false)

/-- The bytes of one 64-bit word that a BAR2 write brings, at a device address, with those that are taken: a part of an uncorrectable
word is discarded with WRITE_UE (R314). -/
def State.bar2Word (s : State) (a : Nat) (bytes : List (Nat × Bool)) : State :=
  let takes := bytes.zipIdx.filter (fun b => b.1.2)
  let whole := takes.length == 8
  match s.badKeys a bytes.length with
  | k :: _ =>
    if takes.isEmpty then s
    else if whole then s.devWrite a (bytes.map (fun b => b.1))
    else s.raise ⟨.memPc, k / 2 ^ 30⟩ 3 (k % 2 ^ 30 / 64)
  | [] => if whole then s.devWrite a (bytes.map (fun b => b.1)) else s.forEach takes (fun s b => s.devWrite (a + b.2) [b.1.1])

/-- A host write through BAR2 (R42): each byte is judged by its own offset, and one denial names the lowest discarded one. -/
def State.bar2Write (s : State) (fn off : Nat) (data : List Nat) : State :=
  if !s.linkUp || s.stopped || bar2Size < off + data.length then s
  else
    let takes := s.bar2Takes fn
    let t := s.forEach (wordRuns off data.length) (fun t w =>
      match s.bar2Addr fn w.1 with
      | none => t
      | some a => (t.bar2Word a (((data.drop (w.1 - off)).take w.2).zipIdx.map (fun b => (b.1, takes (w.1 + b.2))))))
    let t := match s.bar2Addr fn off with
      | some a => t.bar2Traffic fn a (s.bar2Span fn off data.length) true
      | none => t
    match ((List.range data.length).map (fun i => off + i)).find? (fun o => !takes o) with
    | some o => t.deny 0 fn 1 o
    | none => t

/-- What a BAR2 read returns for the bytes of one 64-bit word (R42, R294, R313). -/
def State.bar2Bytes (s : State) (fn off n : Nat) : List Nat :=
  match s.bar2Addr fn off with
  | none => List.replicate n 0
  | some a => if (s.badKeys a n).isEmpty then s.devRead a n else List.replicate n 255

/-- A host read through BAR2. -/
def State.bar2Read (s : State) (fn off n : Nat) : State :=
  if !s.linkUp then s.emit (.bar2Data fn off (List.replicate n 255))
  else if bar2Size < off + n then s.emit (.bar2Data fn off (List.replicate n 0))
  else
    let words := wordRuns off n
    let s := s.emit (.bar2Data fn off (words.flatMap (fun w => s.bar2Bytes fn w.1 w.2)))
    let s := match s.bar2Addr fn off with
      | some a => s.bar2Traffic fn a (s.bar2Span fn off n) false
      | none => s
    s.forEach words (fun s w => match s.bar2Addr fn w.1 with
      | none => s
      | some a => s.forEach (s.badKeys a w.2) (fun s k => (s.ueFound k false).hostUe fn))

end Sys2Proof.Machine
end

