-- ==== Sys2Proof/Machine/HostRows.lean ====
section
/-!
DEFINITION. Machine/HostRows.lean: the commands of the host (R9 to R14, R41 to R60): each names a function and what it writes or
reads. A row for one register writes that register's word, its other fields as they stand.
-/
namespace Sys2Proof.Machine

/-! ## Words that keep what a row does not name -/

/-- The CTRL word of a page as it reads. -/
def State.ctrlWord (s : State) (p : PageId) : Nat := b2n (s.isOn (.CTRL_enable p.kind) p.inst) + 4 * b2n (s.isOn (.CTRL_quiesce p.kind) p.inst)

/-- The write of CTRL.enable = 1 to a page. -/
def State.enableRow (s : State) (fn : Nat) (p : PageId) : State :=
  s.hostRow fn p 0x8 (1 + 4 * b2n (s.isOn (.CTRL_quiesce p.kind) p.inst))

/-- A row whose page is an operand: the page is one of the page map, or the access names none. -/
def pageRow (p : PageId) (t : State) : Host.Outcome State Fault Refusal :=
  if p.ok then .next t else .fault .noSuchInstance

/-- The function's MSI-X vector control word: its page, its offset and its table (R409). -/
def msixControl (fn vec : Nat) : PageId × Nat :=
  if fn = 0 then (cmdGlobal, 0x800 + vec * 16 + 12) else (cmdPage (fn - 1), 0xB00 + vec * 16 + 12)

/-- A write of a partition's block on the CMD page: offset, size and value. -/
def partRegWrite (part : Nat) : PartReg → Nat × Nat × Nat
  | .cfg v => (0x100 + part * 0x20, 4, v.toNat)
  | .clusters v => (0x108 + part * 0x20, 8, v.toNat)
  | .deadline v => (0x110 + part * 0x20, 4, v.toNat)

/-! ## Any register, and memory -/

/-- REGISTER_WRITE (R9, R10, R41). -/
def execRegisterWrite (fn : Fn) (off size : Nat) (value : BitVec 64) (s : State) : Host.Outcome State Fault Refusal :=
  .next (s.bar0Write fn off size value.toNat)

/-- LOW_WORD_READ (R9). -/
def execLowWordRead (fn : Fn) (off : Nat) (s : State) : Host.Outcome State Fault Refusal := .next (s.hostRead fn off)

/-- BAR2_WRITE (R42). -/
def execBar2Write (fn : Fn) (off : Nat) (data : List Byte) (s : State) : Host.Outcome State Fault Refusal :=
  .next (s.bar2Write fn off (data.map BitVec.toNat))

/-- BAR2_READ (R42). -/
def execBar2Read (fn : Fn) (off len : Nat) (s : State) : Host.Outcome State Fault Refusal := .next (s.bar2Read fn off len)

/-! ## Page headers -/

/-- EVT_FORCE (R46). -/
def execEvtForce (fn : Fn) (page : PageId) (mask : BitVec 32) (s : State) : Host.Outcome State Fault Refusal :=
  pageRow page (s.hostRow fn page 0x18 mask.toNat)

/-- SOFT_RESET (R48). -/
def execSoftReset (fn : Fn) (page : PageId) (s : State) : Host.Outcome State Fault Refusal :=
  pageRow page (s.hostRow fn page 0x8 (s.ctrlWord page + 2))

/-- QUIESCE (R47). -/
def execQuiesce (fn : Fn) (page : PageId) (s : State) : Host.Outcome State Fault Refusal :=
  pageRow page (s.hostRow fn page 0x8 (b2n (s.isOn (.CTRL_enable page.kind) page.inst) + 4))

/-- ENABLE_CLEAR (R47). -/
def execEnableClear (fn : Fn) (page : PageId) (s : State) : Host.Outcome State Fault Refusal :=
  pageRow page (s.hostRow fn page 0x8 (4 * b2n (s.isOn (.CTRL_quiesce page.kind) page.inst)))

/-- LANE_ENABLE (R93, R566). -/
def execLaneEnable (fn : Fn) (lane : Lane) (s : State) : Host.Outcome State Fault Refusal := .next (s.enableRow fn (lanePage lane))

/-- CAP_CONTEXT_ENABLE (R97, R98). -/
def execCapContextEnable (fn : Fn) (ctx : Ctx) (s : State) : Host.Outcome State Fault Refusal := .next (s.enableRow fn (capPage ctx))

/-- LNP_CONTEXT_ENABLE (R133, R139). -/
def execLnpContextEnable (fn : Fn) (ctx : Ctx) (s : State) : Host.Outcome State Fault Refusal := .next (s.enableRow fn (lnpPage ctx))

/-- ATN_POOL_ENABLE (R261). -/
def execAtnPoolEnable (fn : Fn) (pool : Pool) (s : State) : Host.Outcome State Fault Refusal := .next (s.enableRow fn (poolPage pool))

/-- MEM_REGION_ENABLE (R292). -/
def execMemRegionEnable (fn : Fn) (part : Part) (s : State) : Host.Outcome State Fault Refusal :=
  .next (s.enableRow fn ⟨.memPart, part⟩)

/-- ENC_PORT_ENABLE (R326). -/
def execEncPortEnable (fn : Fn) (port : EncPort) (s : State) : Host.Outcome State Fault Refusal := .next (s.enableRow fn (encPage port))

/-- EJT_ENABLE (R375). -/
def execEjtEnable (fn : Fn) (s : State) : Host.Outcome State Fault Refusal := .next (s.enableRow fn ejtPage)

/-- FIO_ENABLE (R392). -/
def execFioEnable (fn : Fn) (s : State) : Host.Outcome State Fault Refusal := .next (s.enableRow fn fioPage)

/-- COMMIT_GO (R50, R51). -/
def execCommitGo (fn : Fn) (page : PageId) (boundary : BitVec 3) (cmp : Unit16) (hold : Bool) (s : State) :
    Host.Outcome State Fault Refusal :=
  pageRow page (s.hostRow fn page 0x20 (1 + boundary.toNat * 2 ^ 8 + cmp * 2 ^ 16 + b2n hold * 2 ^ 24))

/-- COMMIT_APPLY (R50 to R53): the boundary of the page's released commit is reached. -/
def execCommitApply (page : PageId) (s : State) : Host.Outcome State Fault Refusal :=
  pageRow page (s.whenAwake (fun s => s.commitReached page))

/-- MGT_COMMIT_RELEASE (R52). -/
def execMgtCommitRelease (fn : Fn) (s : State) : Host.Outcome State Fault Refusal := .next (s.hostRow fn mgtPage 0x104 1)

/-- CMD_COMMIT_RELEASE (R52). -/
def execCmdCommitRelease (fn : Fn) (part : Part) (s : State) : Host.Outcome State Fault Refusal :=
  .next (s.hostRow fn (cmdPage part) 0x104 1)

/-- OWNER_WRITE (R54). -/
def execOwnerWrite (fn : Fn) (page : PageId) (part : Part) (valid : Bool) (s : State) : Host.Outcome State Fault Refusal :=
  pageRow page (s.hostRow fn page 0x28 (part + 128 * b2n valid))

/-- LOCK_STICKY (R55). -/
def execLockSticky (fn : Fn) (page : PageId) (s : State) : Host.Outcome State Fault Refusal :=
  pageRow page (s.hostRow fn page 0x2C (2 + b2n (s.isOn (.LOCK_locked page.kind) page.inst)))

/-- MSIX_UNMASK (R59, R409). -/
def execMsixUnmask (fn : Fn) (vec : Vec) (s : State) : Host.Outcome State Fault Refusal :=
  .next (s.hostRow fn (msixControl fn vec).1 (msixControl fn vec).2 (s.msixWord fn vec 3 / 2 * 2))

/-! ## Lanes, peer groups and capture -/

/-- MAILBOX_SEND (R68). -/
def execMailboxSend (fn : Fn) (lane : Lane) (s : State) : Host.Outcome State Fault Refusal := .next (s.hostRow fn (lanePage lane) 0x180 1)

/-- LANE_POWER_WRITE (R76, R77). -/
def execLanePowerWrite (fn : Fn) (lane : Lane) (rx tx : Power) (s : State) : Host.Outcome State Fault Refusal :=
  .next (s.hostRow fn (lanePage lane) 0x110 ((Power.code rx) + 16 * (Power.code tx)))

/-- LANE_SLIP (R74). -/
def execLaneSlip (fn : Fn) (lane : Lane) (s : State) : Host.Outcome State Fault Refusal := .next (s.hostRow fn (lanePage lane) 0x118 1)

/-- PEER_GROUP_ENABLE (R80). -/
def execPeerGroupEnable (fn : Fn) (grp : Group) (s : State) : Host.Outcome State Fault Refusal := .next (s.hostRow fn (peerPage grp) 0x100 1)

/-- PEER_TRAIN (R82). -/
def execPeerTrain (fn : Fn) (grp : Group) (s : State) : Host.Outcome State Fault Refusal :=
  .next (s.hostRow fn (peerPage grp) 0x100 (2 + b2n (s.isOn .LAN_PEER_CTRL_enable grp)))

/-- SETTLE_FORCE (R117). -/
def execSettleForce (fn : Fn) (cam : Cam) (s : State) : Host.Outcome State Fault Refusal :=
  .next (s.hostRow fn capShared (0x118 + cam * 0x20) 1)

/-- REPLAY_PUSH (R123). -/
def execReplayPush (fn : Fn) (ctx : Ctx) (s : State) : Host.Outcome State Fault Refusal := .next (s.hostRow fn (capPage ctx) 0x158 1)

/-! ## CMD -/

/-- PLAN_LOAD_GO (R187). -/
def execPlanLoadGo (fn : Fn) (part : Part) (slot : PlanSlot) (hold : Bool) (s : State) : Host.Outcome State Fault Refusal :=
  .next (s.hostRow fn (cmdPage part) (0x20C + slot * 0x40) (1 + 2 * b2n hold))

/-- PLAN_UNLOAD (R415). -/
def execPlanUnload (fn : Fn) (part : Part) (slot : PlanSlot) (s : State) : Host.Outcome State Fault Refusal :=
  .next (s.hostRow fn (cmdPage part) (0x20C + slot * 0x40) (4 + 2 * b2n (s.isOn .CMD_PLAN_LOAD_hold part slot)))

/-- PARTITION_CONFIG_WRITE (R410, R411, R434). -/
def execPartitionConfigWrite (fn : Fn) (part : Part) (reg : PartReg) (s : State) : Host.Outcome State Fault Refusal :=
  .next (s.bar0Write fn (cmdGlobal.base + (partRegWrite part reg).1) (partRegWrite part reg).2.1 (partRegWrite part reg).2.2)

/-- SQ_DOORBELL (R418). -/
def execSqDoorbell (fn : Fn) (part : Part) (sq : Unit16) (tail : BitVec 32) (s : State) : Host.Outcome State Fault Refusal :=
  .next (s.hostRow fn (cmdPage part) (0x40C + sq * 0x20) tail.toNat)

/-- CQ_HEAD_WRITE (R418). -/
def execCqHeadWrite (fn : Fn) (part : Part) (cq : Unit32) (head : BitVec 32) (s : State) : Host.Outcome State Fault Refusal :=
  .next (s.hostRow fn (cmdPage part) (0x60C + cq * 0x20) head.toNat)

/-! ## Encoders, time and field signals -/

/-- ENC_SEL_WRITE (R339). -/
def execEncSelWrite (fn : Fn) (belt backup : EncPort) (backupEn : Bool) (s : State) : Host.Outcome State Fault Refusal :=
  .next (s.hostRow fn (encPage 0) 0x200 (belt + 16 * backup + 64 * b2n backupEn))

/-- TIME_SET_IMMEDIATE (R342). -/
def execTimeSetImmediate (fn : Fn) (s : State) : Host.Outcome State Fault Refusal := .next (s.hostRow fn timPage 0x124 0x01)

/-- TIME_SET_AT_PPS (R342). -/
def execTimeSetAtPps (fn : Fn) (s : State) : Host.Outcome State Fault Refusal := .next (s.hostRow fn timPage 0x124 0x11)

/-- TIME_SET_CANCEL (R342). -/
def execTimeSetCancel (fn : Fn) (s : State) : Host.Outcome State Fault Refusal :=
  .next (s.hostRow fn timPage 0x124 (2 + 16 * (s.get .TIM_SET_at % 4)))

/-- TIME_ADJUST (R342). -/
def execTimeAdjust (fn : Fn) (value : BitVec 32) (s : State) : Host.Outcome State Fault Refusal :=
  .next (s.hostRow fn timPage 0x128 value.toNat)

/-- COMPARE_ARM (R346). -/
def execCompareArm (fn : Fn) (unit : Unit16) (s : State) : Host.Outcome State Fault Refusal :=
  .next (s.hostRow fn timPage (0x210 + unit * 0x20) (1 + 2 * b2n (s.isOn .TIM_CMP_CTRL_irq 0 unit)))

/-- OUTPUT_SET_WRITE (R396). -/
def execOutputSetWrite (fn : Fn) (value : BitVec 32) (s : State) : Host.Outcome State Fault Refusal :=
  .next (s.hostRow fn fioPage 0x11C value.toNat)

/-- WATCHDOG_ENABLE (R399). -/
def execWatchdogEnable (fn : Fn) (s : State) : Host.Outcome State Fault Refusal :=
  .next (s.hostRow fn fioPage 0x130 (s.get .FIO_WDOG_period_ms % 2 ^ 14 + 2 ^ 31))

/-- WATCHDOG_KICK (R399). -/
def execWatchdogKick (fn : Fn) (value : BitVec 32) (s : State) : Host.Outcome State Fault Refusal :=
  .next (s.hostRow fn fioPage 0x134 value.toNat)

/-- SAFE_RELEASE (R400). -/
def execSafeRelease (fn : Fn) (s : State) : Host.Outcome State Fault Refusal := .next (s.hostRow fn fioPage 0x138 2)

/-! ## Management -/

/-- LINK_RETRAIN (R405). -/
def execLinkRetrain (fn : Fn) (s : State) : Host.Outcome State Fault Refusal := .next (s.hostRow fn hlkPage 0x104 1)

/-- MGT_RESET (R483). -/
def execMgtReset (fn : Fn) (cold scrub : Bool) (key : BitVec 16) (s : State) : Host.Outcome State Fault Refusal :=
  .next (s.hostRow fn mgtPage 0x10C (1 + 16 * b2n cold + 256 * b2n scrub + 2 ^ 16 * key.toNat))

/-- PATCH_GO (R491). -/
def execPatchGo (fn : Fn) (s : State) : Host.Outcome State Fault Refusal := .next (s.hostRow fn secPage 0x14C 1)

/-- PATCH_NONE (R491). -/
def execPatchNone (fn : Fn) (s : State) : Host.Outcome State Fault Refusal := .next (s.hostRow fn secPage 0x14C 2)

/-- START_OK (R489). -/
def execStartOk (fn : Fn) (s : State) : Host.Outcome State Fault Refusal := .next (s.hostRow fn mgtPage 0x110 1)

/-- FAULT_FORCE (R503). -/
def execFaultForce (fn : Fn) (typ : BitVec 3) (inst : BitVec 7) (s : State) : Host.Outcome State Fault Refusal :=
  .next (s.hostRow fn mgtPage 0x1A0 (inst.toNat + 2 ^ 8 * typ.toNat + 2 ^ 31))

/-- RETIRE_CLEAR (R505). -/
def execRetireClear (fn : Fn) (typ : BitVec 3) (inst : BitVec 7) (s : State) : Host.Outcome State Fault Refusal :=
  .next (s.hostRow fn retPage 0x148 (inst.toNat + 2 ^ 8 * typ.toNat + 2 ^ 31))

/-- SNAPSHOT (R496). -/
def execSnapshot (fn : Fn) (s : State) : Host.Outcome State Fault Refusal := .next (s.hostRow fn retPage 0x100 1)

/-- VELVET_ERASE (R498). -/
def execVelvetErase (fn : Fn) (s : State) : Host.Outcome State Fault Refusal := .next (s.hostRow fn retPage 0x100 2)

/-- ATTEST_GO (R506). -/
def execAttestGo (fn : Fn) (s : State) : Host.Outcome State Fault Refusal := .next (s.hostRow fn secPage 0x188 1)

/-! ## Counters and the epoch cache -/

/-- PMC_FREEZE (R536). -/
def execPmcFreeze (fn : Fn) (s : State) : Host.Outcome State Fault Refusal :=
  .next (s.hostRow fn pmcPage 0x100 (2 + 2 ^ 8 * (s.get .PMC_CTRL_part_cfg % 2 ^ 8)))

/-- PMC_UNFREEZE (R536). -/
def execPmcUnfreeze (fn : Fn) (s : State) : Host.Outcome State Fault Refusal :=
  .next (s.hostRow fn pmcPage 0x100 (8 + 2 ^ 8 * (s.get .PMC_CTRL_part_cfg % 2 ^ 8)))

/-- PMC_CLEAR (R537). -/
def execPmcClear (fn : Fn) (mask : BitVec 32) (s : State) : Host.Outcome State Fault Refusal :=
  .next (s.hostRow fn pmcPage 0x110 mask.toNat)

/-- DEC_CACHE_FLUSH (R456). -/
def execDecCacheFlush (fn : Fn) (s : State) : Host.Outcome State Fault Refusal := .next (s.hostRow fn decPage 0x114 1)

end Sys2Proof.Machine
end

