-- ==== Sys2Proof/Machine/LaneRows.lean ====
section
/-!
DEFINITION. Machine/LaneRows.lean: the commands that arrive at camera lanes (R63 to R79): packets, lock, polarity, training words and
the ends of wakes.
-/
namespace Sys2Proof.Machine

/-! ## What happens on a lane -/

/-- The last character of a stream packet (R66): it passes, or it is discarded with the line it belongs to. `broke` says that lock was
lost or the receiver left ACTIVE during the packet. -/
def State.streamEnd (s : State) (l : Nat) (crcOk violation broke : Bool) : State :=
  if s.laneMode l != 1 then s
  else if crcOk && !violation && !broke && s.isOn .LAN_STATUS_locked l && s.get .LAN_STATUS_rx_now l == 0 then s
  else
    let s := ((s.count .LAN_ERR_CRC l 0 1).pmc 0x03 l 1 none).raise (lanePage l) evCrcErr
    s.lineDiscard (s.get .LAN_MODE_cam l)

/-- The last character of a mailbox packet has been sent (R68, R77, R117). -/
def State.mbxSent (s : State) (l : Nat) : State :=
  if !s.isOn .LAN_MBX_CTRL_send l then s
  else
    let write := s.mbxIsWrite l
    let s := (s.set .LAN_MBX_CTRL_send l 0 0).raise (lanePage l) evMbxTxDone
    let s := if s.get .LAN_STATUS_tx_now l < s.get .LANX_TX_TARGET l then s.set .LAN_STATUS_tx_now l 0 (s.get .LANX_TX_TARGET l) else s
    if write then s.settleArm (s.get .LAN_MODE_cam l) else s

/-- An AUTO receiver has been at a speed for 1 ms without alignment (R72): it tries the next. -/
def State.nextSpeed (s : State) (l : Nat) : State :=
  if s.laneMode l == 1 && s.get .LAN_RATE_cxp_speed l == 0 && !s.isOn .LAN_STATUS_locked l && s.get .LANX_RX_TARGET l < 2 then
    s.set .LANX_TRY_SPEED l 0 (if 1 ≤ s.get .LANX_TRY_SPEED l && s.get .LANX_TRY_SPEED l < 7 then s.get .LANX_TRY_SPEED l + 1 else 1)
  else s

/-- A receiver has not locked within 40 µs of its wake (R76): it keeps trying. -/
def State.lockLate (s : State) (l : Nat) : State :=
  if s.isOn .LAN_STATUS_waking l && !s.isOn .LAN_STATUS_locked l && s.get .LANX_RX_TARGET l < s.get .LAN_STATUS_rx_now l then
    s.raise (lanePage l) evLockTimeout
  else s

/-- A locked lane loses lock (R78, R82, R92): LOCK_LOST and an upset while its receiver is ACTIVE, and its peer group follows. -/
def State.loseLock (s : State) (l : Nat) : State :=
  if !s.isOn .LAN_STATUS_locked l then s
  else
    let s := s.dropLock l
    let s := if s.get .LAN_STATUS_rx_now l == 0 then ((s.count .LAN_LOCK_LOSS l 0 1).raise (lanePage l) evLockLost).peerFollow l
      else s.peerFollow l
    if s.get .LAN_STATUS_rx_now l == 0 then s.laneUpset l else s

/-- The receiver finds the polarity inverted (R73): the correction changes, with POL_FLIP while the lane is locked. -/
def State.flipPolarity (s : State) (l : Nat) : State :=
  if s.laneMode l == 0 || s.get .LAN_STATUS_rx_now l == 2 && s.get .LANX_RX_TARGET l == 2 || !s.isOn .LAN_POL_rx_auto l then s
  else
    let s := s.set .LAN_POL_rx_inverted l 0 (1 - s.get .LAN_POL_rx_inverted l)
    if s.isOn .LAN_STATUS_locked l then s.raise (lanePage l) evPolFlip else s

/-- A RAW word is delivered (R74); outside ACTIVE a receiver discards data (R76). -/
def State.rawWord (s : State) (l word : Nat) : State :=
  if s.laneMode l != 2 || s.get .LAN_STATUS_rx_now l != 0 then s
  else
    let n := 2 ^ s.get .LAN_RAW_CFG_word_bits l
    let w := word % n
    let t := s.get .LAN_RAW_TRAIN l % n
    let s := s.set .LAN_RAW_WORD l 0 w
    if w = t then (s.set .LAN_STATUS_train_match l 0 1).raise (lanePage l) evTrainMatch
    else if w = n - 1 - t then (s.set .LAN_STATUS_train_match_inv l 0 1).raise (lanePage l) evTrainMatch
    else s

/-- A transmitter's wake, or a receiver's from STANDBY, is complete (R76). -/
def State.wakeDone (s : State) (l : Nat) : State :=
  let tx := s.get .LANX_TX_TARGET l < s.get .LAN_STATUS_tx_now l
  let rx := s.get .LAN_STATUS_rx_now l == 1 && s.get .LANX_RX_TARGET l == 0 && s.isOn .LAN_STATUS_locked l
  if !tx && !rx then s
  else
    let s := if tx then s.set .LAN_STATUS_tx_now l 0 (s.get .LANX_TX_TARGET l) else s
    let s := if rx then s.set .LAN_STATUS_rx_now l 0 0 else s
    (s.wakeSettled l).raise (lanePage l) evWakeDone

/-! ## Commands -/

/-- STREAM_PACKET (R66). -/
def execStreamPacket (lane : Lane) (crcOk violation broke : Bool) (s : State) : Host.Outcome State Fault Refusal :=
  .next (s.whenAwake (fun s => s.streamEnd lane crcOk violation broke))

/-- CONTROL_PACKET_RECEIVED (R67, R69). -/
def execControlPacketReceived (lane : Lane) (kind : MbxKind) (payload : List Byte) (s : State) : Host.Outcome State Fault Refusal :=
  .next (s.whenAwake (fun s => s.mailboxReceive lane (MbxKind.code kind) (payload.map BitVec.toNat)))

/-- MBX_TX_DONE (R68). -/
def execMbxTxDone (lane : Lane) (s : State) : Host.Outcome State Fault Refusal := .next (s.whenAwake (fun s => s.mbxSent lane))

/-- CXP_DISCOVERY_STEP (R72). -/
def execCxpDiscoveryStep (lane : Lane) (s : State) : Host.Outcome State Fault Refusal := .next (s.whenAwake (fun s => s.nextSpeed lane))

/-- LOCK_GAINED (R72, R75, R76). -/
def execLockGained (lane : Lane) (s : State) : Host.Outcome State Fault Refusal := .next (s.whenAwake (fun s => s.gainLock lane))

/-- LOCK_TIMEOUT (R76). -/
def execLockTimeout (lane : Lane) (s : State) : Host.Outcome State Fault Refusal := .next (s.whenAwake (fun s => s.lockLate lane))

/-- LOCK_LOST (R78). -/
def execLockLost (lane : Lane) (s : State) : Host.Outcome State Fault Refusal := .next (s.whenAwake (fun s => s.loseLock lane))

/-- CODE_ERROR (R78). -/
def execCodeError (lane : Lane) (s : State) : Host.Outcome State Fault Refusal := .next (s.whenAwake (fun s => s.codeError lane))

/-- POL_FLIP (R73). -/
def execPolFlip (lane : Lane) (s : State) : Host.Outcome State Fault Refusal := .next (s.whenAwake (fun s => s.flipPolarity lane))

/-- TRAIN_MATCH (R74). -/
def execTrainMatch (lane : Lane) (word : Nat) (s : State) : Host.Outcome State Fault Refusal :=
  .next (s.whenAwake (fun s => s.rawWord lane word))

/-- LANE_WAKE_END (R76). -/
def execLaneWakeEnd (lane : Lane) (s : State) : Host.Outcome State Fault Refusal := .next (s.whenAwake (fun s => s.wakeDone lane))

end Sys2Proof.Machine
end

