-- ==== Sys2Proof/Machine/PeerRows.lean ====
section
/-!
DEFINITION. Machine/PeerRows.lean: the commands that arrive at peer groups (R82 to R91): training, HELLO, the four kinds of message and
the frames and timers of the transport.
-/
namespace Sys2Proof.Machine

/-! ## Training -/

/-- 64 consecutive valid training blocks on all four lanes (R82). -/
def State.peerBlocked (s : State) (g : Nat) : State :=
  if s.peerState g == 1 then (s.set .LAN_PEER_STATUS_lane_lock g 0 15).set .LAN_PEER_STATUS_state g 0 2 else s

/-- 10 ms in LOCK have passed (R82, R84). -/
def State.peerLockLate (s : State) (g : Nat) : State :=
  if s.peerState g == 1 && !s.isOn .LAN_PEER_CFG_manual_align g then s.peerFail g 2 else s

/-- 1 ms in HELLO has passed without a HELLO (R82). -/
def State.helloLate (s : State) (g : Nat) : State := if s.peerState g == 3 then s.peerFail g 4 else s

/-- A lane of a group loses lock (R78, R82): an UP group goes DOWN. -/
def State.peerLaneLost (s : State) (g lane : Nat) : State :=
  let s := s.loseLock (4 * g + lane)
  let s := s.set .LAN_PEER_STATUS_lane_lock g 0 (putBit (s.get .LAN_PEER_STATUS_lane_lock g) lane false)
  if s.peerIsUp g then s.peerDown g else s

/-- A group that went DOWN from UP starts again (R82). -/
def State.peerRetrain (s : State) (g : Nat) : State := if s.peerState g == 0 && s.peerTrainable g then s.peerLock g else s

/-! ## Messages -/

/-- A frame of one of the types 1 to 4 arrives; `act` takes the message that it completes. -/
def State.peerMessage (s : State) (g typ : Nat) (f : PeerFrame) (crc : Nat) (act : State → PeerMsg → State) : State :=
  if f.typ != typ then s
  else
    let r := s.peerReceive g f crc
    match r.2 with
    | some m => act r.1 m
    | none => r.1

/-- A VERDICT message (R365): from an accepted group it is a verdict. -/
def State.peerVerdict (s : State) (g : Nat) (m : PeerMsg) : State :=
  if !bit (s.get .TRK_PEER_accept) g then s
  else
    let w := ofLe (m.payload.take 4)
    s.trkVerdict { id := bits w 11 0, gen := bits w 19 12, cls := bits w 23 20, final := bit w 24, digest := ofLe ((m.payload.drop 8).take 8) } true

/-- The pages that acknowledged frames carried are free (R283, R284). -/
def State.pushesSettle (s : State) : State := s.reapPushes.sendReqs

/-- An unacknowledged frame has been waiting for 2 µs (R89). -/
def State.ackDue (s : State) (g : Nat) : State :=
  if s.peerIsUp g && !(s.peer g).drop && (s.peer g).sinceAck != 0 then s.peerAck g else s

/-- The acknowledgement has not advanced within replay_us (R89). -/
def State.replayDue (s : State) (g : Nat) : State :=
  if s.peerIsUp g && !(s.peer g).drop then s.peerResend g else s

/-! ## Commands -/

/-- PEER_BLOCK_LOCK (R82). -/
def execPeerBlockLock (grp : Group) (s : State) : Host.Outcome State Fault Refusal := .next (s.whenAwake (fun s => s.peerBlocked grp))

/-- PEER_LOCK_TIMEOUT (R82). -/
def execPeerLockTimeout (grp : Group) (s : State) : Host.Outcome State Fault Refusal := .next (s.whenAwake (fun s => s.peerLockLate grp))

/-- PEER_MARKERS_FOUND (R82, R83). -/
def execPeerMarkersFound (grp : Group) (order : List Nat) (skewPs : Nat) (s : State) : Host.Outcome State Fault Refusal :=
  .next (s.whenAwake (fun s => s.peerMarkers grp order skewPs))

/-- HELLO_SEND (R85). -/
def execHelloSend (grp : Group) (s : State) : Host.Outcome State Fault Refusal := .next (s.whenAwake (fun s => s.helloOut grp))

/-- HELLO_FRAME (R85). -/
def execHelloFrame (grp : Group) (frame : PeerFrame) (crc : Nat) (s : State) : Host.Outcome State Fault Refusal :=
  .next (s.whenAwake (fun s => s.helloIn grp frame crc))

/-- HELLO_TIMEOUT (R82). -/
def execHelloTimeout (grp : Group) (s : State) : Host.Outcome State Fault Refusal := .next (s.whenAwake (fun s => s.helloLate grp))

/-- PEER_LANE_LOCK_LOST (R82). -/
def execPeerLaneLockLost (grp : Group) (lane : Quad) (s : State) : Host.Outcome State Fault Refusal :=
  .next (s.whenAwake (fun s => s.peerLaneLost grp lane))

/-- PEER_RETRAIN_DELAY (R82). -/
def execPeerRetrainDelay (grp : Group) (s : State) : Host.Outcome State Fault Refusal := .next (s.whenAwake (fun s => s.peerRetrain grp))

/-- PEER_STRIPE_FRAME (R87 to R91, R122). -/
def execPeerStripeFrame (grp : Group) (frame : PeerFrame) (crc : Nat) (s : State) : Host.Outcome State Fault Refusal :=
  .next (s.whenAwake (fun s => s.peerMessage grp 1 frame crc (fun s m => s.peerStripe grp m)))

/-- PEER_VERDICT_FRAME (R365). -/
def execPeerVerdictFrame (grp : Group) (frame : PeerFrame) (crc : Nat) (s : State) : Host.Outcome State Fault Refusal :=
  .next (s.whenAwake (fun s => s.peerMessage grp 2 frame crc (fun s m => s.peerVerdict grp m)))

/-- KVPAGE_FRAME (R284, R285). -/
def execKvpageFrame (grp : Group) (frame : PeerFrame) (crc : Nat) (s : State) : Host.Outcome State Fault Refusal :=
  .next (s.whenAwake (fun s => s.peerMessage grp 3 frame crc (fun s m => s.kvPage grp m)))

/-- KVREQ_FRAME (R285). -/
def execKvreqFrame (grp : Group) (frame : PeerFrame) (crc : Nat) (s : State) : Host.Outcome State Fault Refusal :=
  .next (s.whenAwake (fun s => s.peerMessage grp 4 frame crc (fun s m => s.kvReq grp m)))

/-- ACK_FRAME (R89). -/
def execAckFrame (grp : Group) (frame : PeerFrame) (crc : Nat) (s : State) : Host.Outcome State Fault Refusal :=
  .next (s.whenAwake (fun s => s.peerCtl grp frame crc (fun s => (s.peerAcked grp frame.ackSeq).pushesSettle)))

/-- NAK_FRAME (R89). -/
def execNakFrame (grp : Group) (frame : PeerFrame) (crc : Nat) (s : State) : Host.Outcome State Fault Refusal :=
  .next (s.whenAwake (fun s => s.peerCtl grp frame crc (fun s => s.peerResend grp)))

/-- CREDIT_FRAME (R88). -/
def execCreditFrame (grp : Group) (frame : PeerFrame) (crc : Nat) (s : State) : Host.Outcome State Fault Refusal :=
  .next (s.whenAwake (fun s => s.peerCtl grp frame crc (fun s => s.peerCredited grp frame.tag)))

/-- CREDIT_SEND (R88). -/
def execCreditSend (grp : Group) (s : State) : Host.Outcome State Fault Refusal :=
  .next (s.whenAwake (fun s => if s.peerIsUp grp then s.peerCredit grp else s))

/-- ACK_TIMER (R89). -/
def execAckTimer (grp : Group) (s : State) : Host.Outcome State Fault Refusal := .next (s.whenAwake (fun s => s.ackDue grp))

/-- REPLAY_TIMEOUT (R89). -/
def execReplayTimeout (grp : Group) (s : State) : Host.Outcome State Fault Refusal := .next (s.whenAwake (fun s => s.replayDue grp))

end Sys2Proof.Machine
end

