-- ==== Sys2Proof/Machine/LineRows.lean ====
section
/-!
DEFINITION. Machine/LineRows.lean: the commands that arrive at CAP and LNP: lines and their windows (R103 to R117), ring writes and
reprocessing (R121 to R124), notices, credits and holds (R24, R129, R134), and the pipeline (R130, R136, R152).
-/
namespace Sys2Proof.Machine

/-- The least of some times, if there is one. -/
def earliest (l : List Nat) : Option Nat := l.foldl (fun m x => match m with
  | none => some x
  | some y => some (min y x)) none

/-! ## Intervals that end -/

/-- The oldest pairing window of a camera closes (R103): the clock runs to its end. -/
def State.windowCloses' (s : State) (n : Nat) : State :=
  match earliest ((s.cam n).wins.map (fun w => w.closes)) with
  | none => s
  | some t => (s.runToNs t).expireDue n

/-- A group's close time arrives (R114). -/
def State.groupCloses (s : State) (c : Nat) : State :=
  match s.groupDue c with
  | none => s
  | some (o, t) => (s.runTo t).groupTimeout c o

/-- The hold limit of the oldest stripe without a credit ends (R134, R135). -/
def State.holdExpires (s : State) (c : Nat) : State :=
  let wait := (s.lnpCtx c).stripes.filter (fun x => !x.credit && !x.spilled && !bit x.stripe.flags 4)
  match earliest (wait.map (fun x => x.notice + x.limit)) with
  | none => s
  | some t => (s.runToNs t).spillDue c

/-- CAP completes the oldest ring write of a context, header last; the stripe may be ready now (R122, R136). -/
def State.ringWritten (s : State) (c : Nat) : State :=
  match (s.capCtx c).writing with
  | [] => s
  | r :: rest => (((s.modCtx c (fun x => { x with writing := rest })).ringWrite r).ringReady c r.no).refreshReady

/-- CAP finishes reading the oldest queued slot of a MEMORY context that runs (R123). -/
def State.slotRead (s : State) (c : Nat) : State :=
  if (s.capCtx c).running && (s.capCtx c).kind == 2 then s.replayRead c else s

/-! ## Commands -/

/-- LINE_ARRIVAL (R103, R105, R106). -/
def execLineArrival (cam : Cam) (frameStart startOk : Bool) (s : State) : Host.Outcome State Fault Refusal :=
  .next (s.whenAwake (fun s => s.lineArrives cam frameStart startOk))

/-- PAIRING_WINDOW_EXPIRY (R103, R110). -/
def execPairingWindowExpiry (cam : Cam) (s : State) : Host.Outcome State Fault Refusal := .next (s.whenAwake (fun s => s.windowCloses' cam))

/-- LINE_COMPLETE (R109). -/
def execLineComplete (cam : Cam) (samples : List Nat) (s : State) : Host.Outcome State Fault Refusal :=
  .next (s.whenAwake (fun s => s.lineDone cam samples))

/-- GROUP_ALIGN_TIMEOUT (R114). -/
def execGroupAlignTimeout (ctx : Ctx) (s : State) : Host.Outcome State Fault Refusal := .next (s.whenAwake (fun s => s.groupCloses ctx))

/-- RING_WRITE_DONE (R122). -/
def execRingWriteDone (ctx : Ctx) (s : State) : Host.Outcome State Fault Refusal := .next (s.whenAwake (fun s => s.ringWritten ctx))

/-- REPLAY_SLOT_READ (R123). -/
def execReplaySlotRead (ctx : Ctx) (s : State) : Host.Outcome State Fault Refusal := .next (s.whenAwake (fun s => s.slotRead ctx))

/-- LNP_NOTICE (R129). -/
def execLnpNotice (ctx : Ctx) (s : State) : Host.Outcome State Fault Refusal := .next (s.whenAwake (fun s => s.notice ctx))

/-- CREDIT_RETURN (R24). -/
def execCreditReturn (ctx : Ctx) (s : State) : Host.Outcome State Fault Refusal := .next (s.whenAwake (fun s => s.creditArrives ctx))

/-- HOLD_LIMIT_EXPIRY (R134). -/
def execHoldLimitExpiry (ctx : Ctx) (s : State) : Host.Outcome State Fault Refusal := .next (s.whenAwake (fun s => s.holdExpires ctx))

/-- LNP_STRIPE_BEGIN (R130). -/
def execLnpStripeBegin (s : State) : Host.Outcome State Fault Refusal := .next (s.whenAwake (fun s => s.lnpBegin))

/-- TABLE_BLOCK_ARRIVED (R152). -/
def execTableBlockArrived (ctx : Ctx) (s : State) : Host.Outcome State Fault Refusal := .next (s.whenAwake (fun s => s.tableArrives ctx))

/-- LNP_STRIPE_DONE (R136). -/
def execLnpStripeDone (s : State) : Host.Outcome State Fault Refusal := .next (s.whenAwake (fun s => s.lnpDone.refreshReady))

end Sys2Proof.Machine
end

