-- ==== Sys2Proof/Machine/Start.lean ====
section
/-!
DEFINITION. Machine/Start.lean: the restore of the retained settings, step 8 of a start (R486, R493, R499, R500, R320).
-/
namespace Sys2Proof.Machine

/-- The retained fields that the first pass leaves out: the enables and LOCK.locked (R500). -/
def lateFlds (k : PageKind) : List Fld := [.CTRL_enable k, .LOCK_locked k, .CMD_PART_CFG_enable, .LAN_PEER_CTRL_enable]

/-- The fields of a word that the first pass restores. -/
def firstFlds (k : PageKind) (woff : Nat) : List (Fld × Nat) :=
  (fieldsAt (retainedFlds k) woff).filter (fun fj => !(lateFlds k).contains fj.1)

/-- The word that a software write would bring: the listed fields from `v`, every other field as it stands. -/
def State.mixedWord (s : State) (p : PageId) (woff v : Nat) (l : List (Fld × Nat)) : Nat :=
  (fieldsAt ((headerFlds p.kind ++ blockFlds p.kind).filter (fun f => f.acc == .rw)) woff).foldl (fun w fj =>
    w ||| fieldPart fj.1 fj.2 woff (if l.contains fj then mergeWord fj.1 fj.2 (s.get fj.1 p.inst fj.2) woff v else s.get fj.1 p.inst fj.2)) 0

/-- A restored field is set in its active and its shadow copy, as far as its range allows (R13, R500). -/
def State.restoreFld (s : State) (i : Nat) (f : Fld) (j woff v : Nat) : State :=
  let x := mergeWord f j (s.get f i j) woff v
  if !f.accepts x then s else if f.acc == .rws then (s.set f i j x).setShadow f i j x else s.set f i j x

/-- The first pass over one word: shadowed registers, header registers without checks and LAN_PWR are set; other registers take a
write as PF0 would make it. -/
def State.restoreWord (s : State) (p : PageId) (woff v : Nat) : State :=
  let l := firstFlds p.kind woff
  if l.isEmpty then s
  else if woff = 0x28 then s.ownerSet 0 p v
  else if woff = 0x14 then s.evtEnableWrite p v
  else if woff < 0x100 || l.any (fun fj => fj.1.acc == .rws) || (p.kind == .lan && woff == 0x110) then
    s.forEach l (fun s fj => s.restoreFld p.inst fj.1 fj.2 woff v)
  else s.blockWord 0 p woff (s.mixedWord p woff v l)

/-- Pass 1: every entry of the snapshot, in the order of the page map. -/
def State.restoreFirst (s : State) (es : List (Nat × Nat)) : State :=
  s.forEach es (fun s e => match pageAt e.1 with
    | none => s.count .RET_RESTORE_ignored 0 0 1
    | some p =>
      let woff := e.1 - p.base
      if (fieldsAt (retainedFlds p.kind) woff).isEmpty then s.count .RET_RESTORE_ignored 0 0 1 else s.restoreWord p woff e.2)

/-- The word of a snapshot at an offset of a page; 0 where it holds none. -/
def entryWord (es : List (Nat × Nat)) (p : PageId) (woff : Nat) : Nat :=
  ((es.find? (fun e => e.1 == p.base + woff)).map (fun e => e.2)).getD 0

/-- A refused enable is counted (R500). -/
def State.enableTried (s : State) (on : Bool) : State :=
  if on then s else (s.count .RET_RESTORE_refused 0 0 1).raise retPage 2

/-- CTRL.enable of a page is restored; a region that names a retired pseudo-channel stays off (R320). -/
def State.restoreEnable (s : State) (p : PageId) : State :=
  let gone := p.kind == .memPart && (s.regionPcs p.inst).any (fun k => s.isOn (.STATUS_retired .memPc) k)
  let s := if gone then s.code p 0 0x8 0x84 else s.enableWrite 0 p true
  s.enableTried (s.isOn (.CTRL_enable p.kind) p.inst)

/-- The order in which the second pass takes the pages with an enable of their own (R500), lanes before peer groups. -/
def enableKinds : List PageKind := [.enc, .lan, .lanPeer, .atnPool, .lnpCtx, .capCtx, .ejt, .fio]

/-- CMD_PART_CFG.enable of a partition is restored. -/
def State.restorePart (s : State) (es : List (Nat × Nat)) (p : Nat) : State :=
  let woff := 0x100 + p * 0x20
  if bit (entryWord es cmdGlobal woff) 0 then
    let s := s.partWord 0 p woff (s.activeWord (blockFlds .cmd) cmdGlobal woff ||| 1)
    s.enableTried (s.partExists p)
  else s

/-- LAN_PEER_CTRL.enable of a group is restored. -/
def State.restorePeer (s : State) (es : List (Nat × Nat)) (g : Nat) : State :=
  if bit (entryWord es (peerPage g) 0x100) 0 then
    let s := s.peerEnable 0 g
    s.enableTried (s.isOn .LAN_PEER_CTRL_enable g)
  else s

/-- The enables of the pages of one kind are restored. -/
def State.restoreKind (s : State) (es : List (Nat × Nat)) (k : PageKind) : State :=
  s.forEach (List.range k.count) (fun s i =>
    if k == .lanPeer then s.restorePeer es i
    else if bit (entryWord es ⟨k, i⟩ 0x8) 0 then s.restoreEnable ⟨k, i⟩ else s)

/-- Pass 2: the enables. -/
def State.restoreEnables (s : State) (es : List (Nat × Nat)) : State :=
  let s := s.restoreKind es .memPart
  let s := s.forEach (List.range 8) (fun s p => s.restorePart es p)
  s.forEach enableKinds (fun s k => s.restoreKind es k)

/-- Pass 3: LOCK.locked. -/
def State.restoreLocks (s : State) (es : List (Nat × Nat)) : State :=
  s.forEach allPages (fun s p => if bit (entryWord es p 0x2C) 0 then s.set (.LOCK_locked p.kind) p.inst 0 1 else s)

/-- The lanes that kept their lock through a warm reset (R486): one whose settings changed relocks, one that is not enabled sleeps. -/
def State.restoreLanes (s : State) : State :=
  s.forEach s.mgt.kept (fun s x =>
    let s := if s.laneRan x.lane == x.ran then s else s.dropLock x.lane
    if s.isOn (.CTRL_enable .lan) x.lane then s else s.laneSleep x.lane)

/-- The settings are restored from Velvet and the start ends; `ue0` and `ue1` say which copies hold an uncorrectable word. -/
def State.settingsRestored (s : State) (ue0 ue1 : Bool) : State :=
  if !s.mayRestore || s.isOn .MGT_RESET_CAUSE_minimal then s
  else
    let s := if ue0 || ue1 then s.raise retPage 3 else s
    match s.velvet.best ue0 ue1 with
    | none =>
      let blank := s.velvet.copies.all (fun c => c.magic == 0)
      ((s.set .RET_STATUS_source 0 0 (if blank then 1 else 2)).restoreLanes).startEnds
    | some (n, c) =>
      let s := { s with velvet := { s.velvet with last := n } }
      let s := ((s.set .RET_STATUS_copy 0 0 n).set .RET_SNAP_SEQ 0 0 c.seq).set .RET_SNAP_ENTRIES 0 0 c.count
      let s := ((s.restoreFirst c.entries).restoreEnables c.entries).restoreLocks c.entries
      s.restoreLanes.startEnds

end Sys2Proof.Machine
end

