-- ==== Sys2Proof/Machine/StartRows.lean ====
section
/-!
DEFINITION. Machine/StartRows.lean: the host link (R405), power, resets and the start (R482 to R500, R551 to R561), stops (R524 to R526),
fault classification (R502 to R504), the clock and its voltage (R519, R520, R558), and the wraps and crossings of counters (R534, R535).
-/
namespace Sys2Proof.Machine

/-! ## Effects -/

/-- A section's Tines begin or cease to be throttled (R520): issue is delayed, and nothing that is computed changes. -/
def State.throttle (s : State) (sect : Nat) (on : Bool) : State :=
  { s with pwr := { s.pwr with throttled := putBit s.pwr.throttled sect on } }

/-- Ticks until a value that grows by `rate` a tick wraps at 2^32 (R535). -/
def wrapTicks (v rate : Nat) : Nat := (2 ^ 32 - v + rate - 1) / rate

/-- The clock runs to the tick on which a counter wraps, if it counts on every tick (R535). -/
def State.wrapEnds (s : State) (n : Nat) : State :=
  let r := (s.pmcRate n).1
  if r = 0 || s.isOn .PMC_CTRL_frozen then s else s.runTicks (wrapTicks (s.get .PMC_CNT 0 n) r)

/-- The next tick samples an occupancy that has reached a counter's threshold (R534). -/
def State.crossNow (s : State) (n : Nat) : State :=
  match (s.pmcRate n).2 with
  | none => s
  | some v => if s.get .PMC_CNT_THR_thr 0 n ≤ v && !s.isOn .PMCX_DISARMED 0 n && s.get .PMC_CNT_THR_thr 0 n != 0 then s.runTicks 1 else s

/-! ## Host link -/

/-- LINK_DOWN (R405, R565). -/
def execLinkDown (s : State) : Host.Outcome State Fault Refusal := .next (s.linkFalls)

/-- LINK_UP (R405, R491). -/
def execLinkUp (rate : LinkRate) (modules : Modules) (repaired : Byte) (s : State) : Host.Outcome State Fault Refusal :=
  .next (s.linkRises rate modules repaired.toNat)

/-! ## Resets and the start -/

/-- POWER_ON (R482, R559). -/
def execPowerOn (s : State) : Host.Outcome State Fault Refusal := .next (s.powerRises)

/-- RESET_N_FALL (R483, R552). -/
def execResetNFall (s : State) : Host.Outcome State Fault Refusal := .next (s.resetFalls)

/-- RESET_RECOGNISED (R483, R552). -/
def execResetRecognised (s : State) : Host.Outcome State Fault Refusal := .next (s.resetTaken)

/-- RESET_N_RISE (R484, R551, R552). -/
def execResetNRise (refsel : Bool) (s : State) : Host.Outcome State Fault Refusal := .next (s.resetRises refsel)

/-- RAIL_UNDERVOLTAGE (R561). -/
def execRailUndervoltage (s : State) : Host.Outcome State Fault Refusal := .next (s.railFalls)

/-- MGT_RESET_EXECUTE (R483, R553). -/
def execMgtResetExecute (s : State) : Host.Outcome State Fault Refusal := .next (s.resetRuns)

/-- FUSE_LOAD_DONE (R57, R502, R567). -/
def execFuseLoadDone (s : State) : Host.Outcome State Fault Refusal := .next (s.fusesLoaded)

/-- VELVET_CHECK_DONE (R484, R488, R490, R493, R505). -/
def execVelvetCheckDone (coolant dirUe recUe0 recUe1 : Bool) (s : State) : Host.Outcome State Fault Refusal :=
  .next (s.velvetChecked coolant dirUe recUe0 recUe1)

/-- START_COOLANT_WAIT_END (R526). -/
def execStartCoolantWaitEnd (s : State) : Host.Outcome State Fault Refusal := .next (s.coolantRises)

/-- HBM_TRAINING_DONE (R484, R485). -/
def execHbmTrainingDone (kept : Bool) (s : State) : Host.Outcome State Fault Refusal := .next (s.hbmTrained kept)

/-- MEMORY_SCRUB_DONE (R318, R485). -/
def execMemoryScrubDone (s : State) : Host.Outcome State Fault Refusal := .next (s.scrubbed)

/-- PATCH_WINDOW_TIMEOUT (R491). -/
def execPatchWindowTimeout (s : State) : Host.Outcome State Fault Refusal := .next (s.windowTimesOut)

/-- PATCH_CHECK_DONE (R492). -/
def execPatchCheckDone (bundle : List Byte) (fetched : Bool) (s : State) : Host.Outcome State Fault Refusal :=
  .next (s.patchChecked (bundle.map BitVec.toNat) fetched)

/-- SETTINGS_RESTORE (R499, R500). -/
def execSettingsRestore (ue0 ue1 : Bool) (s : State) : Host.Outcome State Fault Refusal := .next (s.settingsRestored ue0 ue1)

/-- START_OK_WINDOW_END (R489). -/
def execStartOkWindowEnd (s : State) : Host.Outcome State Fault Refusal := .next (s.okWindowEnds)

/-- SNAPSHOT_CAPTURED (R496). -/
def execSnapshotCaptured (s : State) : Host.Outcome State Fault Refusal := .next (s.snapCaptured)

/-- SNAPSHOT_DONE (R497). -/
def execSnapshotDone (ok : Bool) (s : State) : Host.Outcome State Fault Refusal := .next (s.snapDone ok)

/-- ATTEST_DONE (R506). -/
def execAttestDone (s : State) : Host.Outcome State Fault Refusal := .next (s.attestDone)

/-! ## Stops and faults -/

/-- COOLANT_STOP (R524, R525). -/
def execCoolantStop (s : State) : Host.Outcome State Fault Refusal := .next (s.stopNow true)

/-- THERMAL_STOP (R524, R525). -/
def execThermalStop (s : State) : Host.Outcome State Fault Refusal := .next (s.stopNow false)

/-- CLASSIFIER_LEAK (R502). -/
def execClassifierLeak (typ : ChannelType) (s : State) : Host.Outcome State Fault Refusal := .next (s.leakWindow typ)

/-- RETIREMENT_RECORDED (R494, R504). -/
def execRetirementRecorded (s : State) : Host.Outcome State Fault Refusal := .next (s.recordRetired)

/-! ## Clock and counters -/

/-- VOLTAGE_WAIT_END (R558). -/
def execVoltageWaitEnd (reached : Bool) (s : State) : Host.Outcome State Fault Refusal := .next (s.whenAwake (fun s => s.voltageWait reached))

/-- RAIL_THROTTLE_ON (R520). -/
def execRailThrottleOn (sect : Sect) (s : State) : Host.Outcome State Fault Refusal := .next (s.whenAwake (fun s => s.throttle sect true))

/-- RAIL_THROTTLE_OFF (R520). -/
def execRailThrottleOff (sect : Sect) (s : State) : Host.Outcome State Fault Refusal := .next (s.whenAwake (fun s => s.throttle sect false))

/-- PMC_WRAP (R535, R536). -/
def execPmcWrap (counter : Unit32) (s : State) : Host.Outcome State Fault Refusal := .next (s.whenAwake (fun s => s.wrapEnds counter))

/-- PMC_CROSSING (R534). -/
def execPmcCrossing (counter : Unit32) (s : State) : Host.Outcome State Fault Refusal := .next (s.whenAwake (fun s => s.crossNow counter))

end Sys2Proof.Machine
end

