-- ==== Sys2Proof/Machine/Dispatch.lean ====
section
/-!
DEFINITION. Machine/Dispatch.lean: one arm for each command of the table.
-/
namespace Sys2Proof.Machine

/-- The effect of one command on everything but the queue. -/
def exec (i : Instr) (s : State) : Host.Outcome State Fault Refusal :=
  match i with
  | .registerWrite fn off size value => Sys2Proof.Machine.execRegisterWrite fn off size value s
  | .lowWordRead fn off => Sys2Proof.Machine.execLowWordRead fn off s
  | .bar2Write fn off data => Sys2Proof.Machine.execBar2Write fn off data s
  | .bar2Read fn off len => Sys2Proof.Machine.execBar2Read fn off len s
  | .evtForce fn page mask => Sys2Proof.Machine.execEvtForce fn page mask s
  | .softReset fn page => Sys2Proof.Machine.execSoftReset fn page s
  | .quiesce fn page => Sys2Proof.Machine.execQuiesce fn page s
  | .enableClear fn page => Sys2Proof.Machine.execEnableClear fn page s
  | .laneEnable fn lane => Sys2Proof.Machine.execLaneEnable fn lane s
  | .capContextEnable fn ctx => Sys2Proof.Machine.execCapContextEnable fn ctx s
  | .lnpContextEnable fn ctx => Sys2Proof.Machine.execLnpContextEnable fn ctx s
  | .atnPoolEnable fn pool => Sys2Proof.Machine.execAtnPoolEnable fn pool s
  | .memRegionEnable fn part => Sys2Proof.Machine.execMemRegionEnable fn part s
  | .encPortEnable fn port => Sys2Proof.Machine.execEncPortEnable fn port s
  | .ejtEnable fn => Sys2Proof.Machine.execEjtEnable fn s
  | .fioEnable fn => Sys2Proof.Machine.execFioEnable fn s
  | .commitGo fn page boundary cmp hold => Sys2Proof.Machine.execCommitGo fn page boundary cmp hold s
  | .commitApply page => Sys2Proof.Machine.execCommitApply page s
  | .mgtCommitRelease fn => Sys2Proof.Machine.execMgtCommitRelease fn s
  | .cmdCommitRelease fn part => Sys2Proof.Machine.execCmdCommitRelease fn part s
  | .ownerWrite fn page part valid => Sys2Proof.Machine.execOwnerWrite fn page part valid s
  | .lockSticky fn page => Sys2Proof.Machine.execLockSticky fn page s
  | .msixUnmask fn vec => Sys2Proof.Machine.execMsixUnmask fn vec s
  | .errorWindowEnd => Sys2Proof.Machine.execErrorWindowEnd s
  | .streamPacket lane crcOk violation broke => Sys2Proof.Machine.execStreamPacket lane crcOk violation broke s
  | .controlPacketReceived lane kind payload => Sys2Proof.Machine.execControlPacketReceived lane kind payload s
  | .mailboxSend fn lane => Sys2Proof.Machine.execMailboxSend fn lane s
  | .mbxTxDone lane => Sys2Proof.Machine.execMbxTxDone lane s
  | .cxpDiscoveryStep lane => Sys2Proof.Machine.execCxpDiscoveryStep lane s
  | .lanePowerWrite fn lane rx tx => Sys2Proof.Machine.execLanePowerWrite fn lane rx tx s
  | .lockGained lane => Sys2Proof.Machine.execLockGained lane s
  | .lockTimeout lane => Sys2Proof.Machine.execLockTimeout lane s
  | .lockLost lane => Sys2Proof.Machine.execLockLost lane s
  | .codeError lane => Sys2Proof.Machine.execCodeError lane s
  | .polFlip lane => Sys2Proof.Machine.execPolFlip lane s
  | .laneSlip fn lane => Sys2Proof.Machine.execLaneSlip fn lane s
  | .trainMatch lane word => Sys2Proof.Machine.execTrainMatch lane word s
  | .peerGroupEnable fn grp => Sys2Proof.Machine.execPeerGroupEnable fn grp s
  | .peerTrain fn grp => Sys2Proof.Machine.execPeerTrain fn grp s
  | .peerBlockLock grp => Sys2Proof.Machine.execPeerBlockLock grp s
  | .peerLockTimeout grp => Sys2Proof.Machine.execPeerLockTimeout grp s
  | .peerMarkersFound grp order skewPs => Sys2Proof.Machine.execPeerMarkersFound grp order skewPs s
  | .helloSend grp => Sys2Proof.Machine.execHelloSend grp s
  | .helloFrame grp frame crc => Sys2Proof.Machine.execHelloFrame grp frame crc s
  | .helloTimeout grp => Sys2Proof.Machine.execHelloTimeout grp s
  | .peerLaneLockLost grp lane => Sys2Proof.Machine.execPeerLaneLockLost grp lane s
  | .peerRetrainDelay grp => Sys2Proof.Machine.execPeerRetrainDelay grp s
  | .peerStripeFrame grp frame crc => Sys2Proof.Machine.execPeerStripeFrame grp frame crc s
  | .peerVerdictFrame grp frame crc => Sys2Proof.Machine.execPeerVerdictFrame grp frame crc s
  | .kvpageFrame grp frame crc => Sys2Proof.Machine.execKvpageFrame grp frame crc s
  | .kvreqFrame grp frame crc => Sys2Proof.Machine.execKvreqFrame grp frame crc s
  | .ackFrame grp frame crc => Sys2Proof.Machine.execAckFrame grp frame crc s
  | .nakFrame grp frame crc => Sys2Proof.Machine.execNakFrame grp frame crc s
  | .creditFrame grp frame crc => Sys2Proof.Machine.execCreditFrame grp frame crc s
  | .creditSend grp => Sys2Proof.Machine.execCreditSend grp s
  | .ackTimer grp => Sys2Proof.Machine.execAckTimer grp s
  | .replayTimeout grp => Sys2Proof.Machine.execReplayTimeout grp s
  | .lineArrival cam frameStart startOk => Sys2Proof.Machine.execLineArrival cam frameStart startOk s
  | .pairingWindowExpiry cam => Sys2Proof.Machine.execPairingWindowExpiry cam s
  | .lineComplete cam samples => Sys2Proof.Machine.execLineComplete cam samples s
  | .groupAlignTimeout ctx => Sys2Proof.Machine.execGroupAlignTimeout ctx s
  | .ringWriteDone ctx => Sys2Proof.Machine.execRingWriteDone ctx s
  | .settleForce fn cam => Sys2Proof.Machine.execSettleForce fn cam s
  | .replayPush fn ctx => Sys2Proof.Machine.execReplayPush fn ctx s
  | .replaySlotRead ctx => Sys2Proof.Machine.execReplaySlotRead ctx s
  | .lnpNotice ctx => Sys2Proof.Machine.execLnpNotice ctx s
  | .creditReturn ctx => Sys2Proof.Machine.execCreditReturn ctx s
  | .holdLimitExpiry ctx => Sys2Proof.Machine.execHoldLimitExpiry ctx s
  | .lnpStripeBegin => Sys2Proof.Machine.execLnpStripeBegin s
  | .tableBlockArrived ctx => Sys2Proof.Machine.execTableBlockArrived ctx s
  | .lnpStripeDone => Sys2Proof.Machine.execLnpStripeDone s
  | .uncorrectableRead pc word consumer => Sys2Proof.Machine.execUncorrectableRead pc word consumer s
  | .correctableRead pc line => Sys2Proof.Machine.execCorrectableRead pc line s
  | .eccWriteback pc => Sys2Proof.Machine.execEccWriteback pc s
  | .jobSchedule part => Sys2Proof.Machine.execJobSchedule part s
  | .tileAssign part => Sys2Proof.Machine.execTileAssign part s
  | .memoryReadReturn part seq => Sys2Proof.Machine.execMemoryReadReturn part seq s
  | .tileComplete part seq => Sys2Proof.Machine.execTileComplete part seq s
  | .fawnPassReady part => Sys2Proof.Machine.execFawnPassReady part s
  | .fawnPassDone => Sys2Proof.Machine.execFawnPassDone s
  | .sramCorrected site addr => Sys2Proof.Machine.execSramCorrected site addr s
  | .sramUe site addr => Sys2Proof.Machine.execSramUe site addr s
  | .partOpen => Sys2Proof.Machine.execPartOpen s
  | .partOpenClose => Sys2Proof.Machine.execPartOpenClose s
  | .partCont => Sys2Proof.Machine.execPartCont s
  | .partClose => Sys2Proof.Machine.execPartClose s
  | .partMerged => Sys2Proof.Machine.execPartMerged s
  | .partSpan => Sys2Proof.Machine.execPartSpan s
  | .verdictArm => Sys2Proof.Machine.execVerdictArm s
  | .verdictFinal => Sys2Proof.Machine.execVerdictFinal s
  | .recordCommit span id => Sys2Proof.Machine.execRecordCommit span id s
  | .deadlinePoint id => Sys2Proof.Machine.execDeadlinePoint id s
  | .firingOn span id bank => Sys2Proof.Machine.execFiringOn span id bank s
  | .firingOff span id bank => Sys2Proof.Machine.execFiringOff span id bank s
  | .tableFreed id => Sys2Proof.Machine.execTableFreed id s
  | .minTimeHoldEnd path valve => Sys2Proof.Machine.execMinTimeHoldEnd path valve s
  | .maxOnExpiry path valve => Sys2Proof.Machine.execMaxOnExpiry path valve s
  | .vpFrameBoundary ret0 ret1 ret2 ret3 => Sys2Proof.Machine.execVpFrameBoundary ret0 ret1 ret2 ret3 s
  | .kvAppendIssue part => Sys2Proof.Machine.execKvAppendIssue part s
  | .attnIssue part => Sys2Proof.Machine.execAttnIssue part s
  | .atnWorkUnitDone engine => Sys2Proof.Machine.execAtnWorkUnitDone engine s
  | .peerReadTimeout => Sys2Proof.Machine.execPeerReadTimeout s
  | .planLoadGo fn part slot hold => Sys2Proof.Machine.execPlanLoadGo fn part slot hold s
  | .planCheckDone part slot => Sys2Proof.Machine.execPlanCheckDone part slot s
  | .planSwitch part slot => Sys2Proof.Machine.execPlanSwitch part slot s
  | .planUnload fn part slot => Sys2Proof.Machine.execPlanUnload fn part slot s
  | .partitionConfigWrite fn part reg => Sys2Proof.Machine.execPartitionConfigWrite fn part reg s
  | .sqDoorbell fn part sq tail => Sys2Proof.Machine.execSqDoorbell fn part sq tail s
  | .sqRun part sq entry => Sys2Proof.Machine.execSqRun part sq entry s
  | .sqStop part sq entry => Sys2Proof.Machine.execSqStop part sq entry s
  | .sqFence part sq entry => Sys2Proof.Machine.execSqFence part sq entry s
  | .cqHeadWrite fn part cq head => Sys2Proof.Machine.execCqHeadWrite fn part cq head s
  | .cqCoalesceTimer part cq => Sys2Proof.Machine.execCqCoalesceTimer part cq s
  | .sliceEnd part => Sys2Proof.Machine.execSliceEnd part s
  | .jobSwitchDone part => Sys2Proof.Machine.execJobSwitchDone part s
  | .nonpreemptWatchdog part => Sys2Proof.Machine.execNonpreemptWatchdog part s
  | .bwWindowStart => Sys2Proof.Machine.execBwWindowStart s
  | .refresh pc => Sys2Proof.Machine.execRefresh pc s
  | .scrubRead => Sys2Proof.Machine.execScrubRead s
  | .encoderEdge port a b => Sys2Proof.Machine.execEncoderEdge port a b s
  | .indexEdge port high => Sys2Proof.Machine.execIndexEdge port high s
  | .absFrameComplete port samples => Sys2Proof.Machine.execAbsFrameComplete port samples s
  | .sincosSample port sn cs => Sys2Proof.Machine.execSincosSample port sn cs s
  | .speedWindowEnd port => Sys2Proof.Machine.execSpeedWindowEnd port s
  | .encSelWrite fn belt backup backupEn => Sys2Proof.Machine.execEncSelWrite fn belt backup backupEn s
  | .timeSetImmediate fn => Sys2Proof.Machine.execTimeSetImmediate fn s
  | .timeSetAtPps fn => Sys2Proof.Machine.execTimeSetAtPps fn s
  | .timeSetCancel fn => Sys2Proof.Machine.execTimeSetCancel fn s
  | .timeAdjust fn value => Sys2Proof.Machine.execTimeAdjust fn value s
  | .ppsEdge rising => Sys2Proof.Machine.execPpsEdge rising s
  | .secondsRollover => Sys2Proof.Machine.execSecondsRollover s
  | .compareArm fn unit => Sys2Proof.Machine.execCompareArm fn unit s
  | .compareMatch unit => Sys2Proof.Machine.execCompareMatch unit s
  | .refLost => Sys2Proof.Machine.execRefLost s
  | .refReturn => Sys2Proof.Machine.execRefReturn s
  | .fieldInputSample on broken readback => Sys2Proof.Machine.execFieldInputSample on broken readback s
  | .outputSetWrite fn value => Sys2Proof.Machine.execOutputSetWrite fn value s
  | .watchdogEnable fn => Sys2Proof.Machine.execWatchdogEnable fn s
  | .watchdogKick fn value => Sys2Proof.Machine.execWatchdogKick fn value s
  | .watchdogExpiry => Sys2Proof.Machine.execWatchdogExpiry s
  | .safeRelease fn => Sys2Proof.Machine.execSafeRelease fn s
  | .linkDown => Sys2Proof.Machine.execLinkDown s
  | .linkUp rate modules repaired => Sys2Proof.Machine.execLinkUp rate modules repaired s
  | .linkRetrain fn => Sys2Proof.Machine.execLinkRetrain fn s
  | .powerOn => Sys2Proof.Machine.execPowerOn s
  | .resetNFall => Sys2Proof.Machine.execResetNFall s
  | .resetRecognised => Sys2Proof.Machine.execResetRecognised s
  | .resetNRise refsel => Sys2Proof.Machine.execResetNRise refsel s
  | .railUndervoltage => Sys2Proof.Machine.execRailUndervoltage s
  | .mgtReset fn cold scrub key => Sys2Proof.Machine.execMgtReset fn cold scrub key s
  | .mgtResetExecute => Sys2Proof.Machine.execMgtResetExecute s
  | .startCoolantWaitEnd => Sys2Proof.Machine.execStartCoolantWaitEnd s
  | .memoryScrubDone => Sys2Proof.Machine.execMemoryScrubDone s
  | .patchGo fn => Sys2Proof.Machine.execPatchGo fn s
  | .patchNone fn => Sys2Proof.Machine.execPatchNone fn s
  | .patchWindowTimeout => Sys2Proof.Machine.execPatchWindowTimeout s
  | .patchCheckDone bundle fetched => Sys2Proof.Machine.execPatchCheckDone bundle fetched s
  | .settingsRestore ue0 ue1 => Sys2Proof.Machine.execSettingsRestore ue0 ue1 s
  | .startOk fn => Sys2Proof.Machine.execStartOk fn s
  | .startOkWindowEnd => Sys2Proof.Machine.execStartOkWindowEnd s
  | .coolantStop => Sys2Proof.Machine.execCoolantStop s
  | .thermalStop => Sys2Proof.Machine.execThermalStop s
  | .faultForce fn typ inst => Sys2Proof.Machine.execFaultForce fn typ inst s
  | .classifierLeak typ => Sys2Proof.Machine.execClassifierLeak typ s
  | .retirementRecorded => Sys2Proof.Machine.execRetirementRecorded s
  | .retireClear fn typ inst => Sys2Proof.Machine.execRetireClear fn typ inst s
  | .snapshot fn => Sys2Proof.Machine.execSnapshot fn s
  | .snapshotCaptured => Sys2Proof.Machine.execSnapshotCaptured s
  | .snapshotDone ok => Sys2Proof.Machine.execSnapshotDone ok s
  | .velvetErase fn => Sys2Proof.Machine.execVelvetErase fn s
  | .attestGo fn => Sys2Proof.Machine.execAttestGo fn s
  | .attestDone => Sys2Proof.Machine.execAttestDone s
  | .voltageWaitEnd reached => Sys2Proof.Machine.execVoltageWaitEnd reached s
  | .railThrottleOn sect => Sys2Proof.Machine.execRailThrottleOn sect s
  | .railThrottleOff sect => Sys2Proof.Machine.execRailThrottleOff sect s
  | .pmcFreeze fn => Sys2Proof.Machine.execPmcFreeze fn s
  | .pmcUnfreeze fn => Sys2Proof.Machine.execPmcUnfreeze fn s
  | .pmcClear fn mask => Sys2Proof.Machine.execPmcClear fn mask s
  | .pmcWrap counter => Sys2Proof.Machine.execPmcWrap counter s
  | .pmcCrossing counter => Sys2Proof.Machine.execPmcCrossing counter s
  | .decFetchIssue part => Sys2Proof.Machine.execDecFetchIssue part s
  | .decSampleDecoded engine => Sys2Proof.Machine.execDecSampleDecoded engine s
  | .decSampleDelivered => Sys2Proof.Machine.execDecSampleDelivered s
  | .decCommitIssue part => Sys2Proof.Machine.execDecCommitIssue part s
  | .decCacheFlush fn => Sys2Proof.Machine.execDecCacheFlush fn s
  | .laneWakeEnd lane => Sys2Proof.Machine.execLaneWakeEnd lane s
  | .fuseLoadDone => Sys2Proof.Machine.execFuseLoadDone s
  | .velvetCheckDone coolant dirUe recUe0 recUe1 => Sys2Proof.Machine.execVelvetCheckDone coolant dirUe recUe0 recUe1 s
  | .hbmTrainingDone kept => Sys2Proof.Machine.execHbmTrainingDone kept s
  | .hostReadFailed part sq => Sys2Proof.Machine.execHostReadFailed part sq s
  | .refusedOpcode part sq entry => Sys2Proof.Machine.execRefusedOpcode part sq entry s

end Sys2Proof.Machine
end

