-- ==== Sys2Proof/Safety.lean ====
section
/-!
DEFINITION. Safety.lean: what claims about runs speak of: the canonical form of the stores, what no command touches, what a command
leaves unchanged, and that a command answers a next state.
-/
namespace Sys2Proof.Machine

/-! ## Stores -/

/-- The canonical form of a register store: cells in strictly rising order. -/
def cellsWf : List (RegKey × Nat) → Bool
  | [] => true
  | [_] => true
  | c :: d :: cs => c.1.lt d.1 && cellsWf (d :: cs)

/-- Every store of the state is in its canonical form, so that equal contents are equal data. -/
def State.canonical (s : State) : Bool := cellsWf s.regs && cellsWf s.shadow && s.hbm.bytes.wf && s.sram.wf

/-! ## What a command leaves -/

/-- What a command leaves of the state before it: the queue and the fuses are as they were, the clock has not gone back, and what the
block had given to the outside stands, with more after it. -/
structure State.Follows (s t : State) : Prop where
  queue : t.pending = s.pending
  fuses : t.fuses = s.fuses
  clock : s.tick ≤ t.tick
  given : s.out <+: t.out

/-- Do two fields lie in different cells whatever their instances? -/
def Fld.diff (f g : Fld) : Bool := f.off != g.off || f.lo != g.lo || f.kind != g.kind

/-- A cell of the register store: field, page instance, element. -/
abbrev CellId := Fld × Nat × Nat

/-- Is a cell none of those listed? -/
def outside (l : List CellId) (f : Fld) (i j : Nat) : Bool := l.all (fun g => f.diff g.1 || i != g.2.1 || j != g.2.2)

/-- The header registers that only the host's own header writes, a commit and a reset change: CTRL, COMMIT, GEN, OWNER and LOCK
without its count of denials (R45, R50, R54, R55). -/
def Fld.calm (f : Fld) : Bool :=
  f.off == 0x8 || f.off == 0x20 || f.off == 0x24 || f.off == 0x28 || (f.off == 0x2C && f.lo ≤ 1)

/-- Fields that an interrupt message may change: the pending bits (R59) and the count of writes lost while the link is down (R406). -/
def msgFlds : List Fld := [.MSIX_PBA_PF0, .MSIX_PBA, .HLK_CNT_WR_LOST]

/-- Is a cell none of those listed, and none that a message may change? -/
def untouched (l : List CellId) (f : Fld) (i j : Nat) : Bool := msgFlds.all (fun g => f.diff g) && outside l f i j

/-- The cells of a page's event registers (R45, R46). -/
def evtCells (p : PageId) : List CellId :=
  [.EVT_STATUS p.kind, .ERR_INFO_valid p.kind, .ERR_INFO_forced p.kind, .ERR_INFO_event p.kind, .ERR_INFO_detail p.kind,
   .ERR_INFO_overflow p.kind].map (fun f => (f, p.inst, 0))

/-- Between two states nothing changed but the listed cells, what interrupt messages change, and the outputs. -/
structure State.Only (own : List CellId) (s t : State) : Prop where
  rest : t = { s with regs := t.regs, out := t.out, mgt := t.mgt }
  lost : t.mgt = { s.mgt with wrLost := t.mgt.wrLost }
  cells : ∀ f i j, untouched own f i j = true → t.get f i j = s.get f i j

/-- Is an event of a page recorded in its EVT_STATUS (R45)? -/
def State.event (s : State) (p : PageId) (n : Nat) : Bool := bit (s.get (.EVT_STATUS p.kind) p.inst) n

/-- Between two states a write of `fn` to offset `off` of a page was discarded with a code (R49): WRITE_CODE is recorded, ERR_INFO takes the
code, the function and the word while it is free, and nothing else changes. -/
structure State.Refuses (s t : State) (p : PageId) (fn off code : Nat) : Prop where
  event : t.event p 31 = true
  detail : s.isOn (.ERR_INFO_valid p.kind) p.inst = false → t.get (.ERR_INFO_event p.kind) p.inst = 31 ∧
    t.get (.ERR_INFO_detail p.kind) p.inst = (code + fn * 2 ^ 8 + off / 4 * 2 ^ 12) % 2 ^ 24
  only : State.Only (evtCells p) s t

/-- A command answers a next state, of which `P` holds. -/
def Answers (c : Instr) (s : State) (P : State → Prop) : Prop := ∃ t, exec c s = .next t ∧ P t

/-! ## Where a host command writes -/

/-- A write to a word takes its effect: the gate is open, and the word is none that its MEM partition page closes to its owner (R295). -/
def State.opens (s : State) (fn : Nat) (p : PageId) (off : Nat) : Bool :=
  s.gateOpen fn p off && !(p.kind == .memPart && fn != 0 && !memPartOpen off)

/-- The function, page and offset of the word that a command of the host writes; `none` for the others, and for the general accesses. -/
def target (i : Instr) : Option (Nat × PageId × Nat) :=
  match i with
  | .evtForce fn page _ => some (fn, page, 0x18)
  | .softReset fn page => some (fn, page, 0x8)
  | .quiesce fn page => some (fn, page, 0x8)
  | .enableClear fn page => some (fn, page, 0x8)
  | .laneEnable fn lane => some (fn, lanePage lane, 0x8)
  | .capContextEnable fn ctx => some (fn, capPage ctx, 0x8)
  | .lnpContextEnable fn ctx => some (fn, lnpPage ctx, 0x8)
  | .atnPoolEnable fn pool => some (fn, poolPage pool, 0x8)
  | .memRegionEnable fn part => some (fn, ⟨.memPart, part⟩, 0x8)
  | .encPortEnable fn port => some (fn, encPage port, 0x8)
  | .ejtEnable fn => some (fn, ejtPage, 0x8)
  | .fioEnable fn => some (fn, fioPage, 0x8)
  | .commitGo fn page _ _ _ => some (fn, page, 0x20)
  | .mgtCommitRelease fn => some (fn, mgtPage, 0x104)
  | .cmdCommitRelease fn part => some (fn, cmdPage part, 0x104)
  | .ownerWrite fn page _ _ => some (fn, page, 0x28)
  | .lockSticky fn page => some (fn, page, 0x2C)
  | .msixUnmask fn vec => some (fn, (msixControl fn vec).1, (msixControl fn vec).2)
  | .mailboxSend fn lane => some (fn, lanePage lane, 0x180)
  | .lanePowerWrite fn lane _ _ => some (fn, lanePage lane, 0x110)
  | .laneSlip fn lane => some (fn, lanePage lane, 0x118)
  | .peerGroupEnable fn grp => some (fn, peerPage grp, 0x100)
  | .peerTrain fn grp => some (fn, peerPage grp, 0x100)
  | .settleForce fn cam => some (fn, capShared, 0x118 + cam * 0x20)
  | .replayPush fn ctx => some (fn, capPage ctx, 0x158)
  | .planLoadGo fn part slot _ => some (fn, cmdPage part, 0x20C + slot * 0x40)
  | .planUnload fn part slot => some (fn, cmdPage part, 0x20C + slot * 0x40)
  | .sqDoorbell fn part sq _ => some (fn, cmdPage part, 0x40C + sq * 0x20)
  | .cqHeadWrite fn part cq _ => some (fn, cmdPage part, 0x60C + cq * 0x20)
  | .encSelWrite fn _ _ _ => some (fn, encPage 0, 0x200)
  | .timeSetImmediate fn => some (fn, timPage, 0x124)
  | .timeSetAtPps fn => some (fn, timPage, 0x124)
  | .timeSetCancel fn => some (fn, timPage, 0x124)
  | .timeAdjust fn _ => some (fn, timPage, 0x128)
  | .compareArm fn unit => some (fn, timPage, 0x210 + unit * 0x20)
  | .outputSetWrite fn _ => some (fn, fioPage, 0x11C)
  | .watchdogEnable fn => some (fn, fioPage, 0x130)
  | .watchdogKick fn _ => some (fn, fioPage, 0x134)
  | .safeRelease fn => some (fn, fioPage, 0x138)
  | .linkRetrain fn => some (fn, hlkPage, 0x104)
  | .mgtReset fn _ _ _ => some (fn, mgtPage, 0x10C)
  | .patchGo fn => some (fn, secPage, 0x14C)
  | .patchNone fn => some (fn, secPage, 0x14C)
  | .startOk fn => some (fn, mgtPage, 0x110)
  | .faultForce fn _ _ => some (fn, mgtPage, 0x1A0)
  | .retireClear fn _ _ => some (fn, retPage, 0x148)
  | .snapshot fn => some (fn, retPage, 0x100)
  | .velvetErase fn => some (fn, retPage, 0x100)
  | .attestGo fn => some (fn, secPage, 0x188)
  | .pmcFreeze fn => some (fn, pmcPage, 0x100)
  | .pmcUnfreeze fn => some (fn, pmcPage, 0x100)
  | .pmcClear fn _ => some (fn, pmcPage, 0x110)
  | .decCacheFlush fn => some (fn, decPage, 0x114)
  | _ => none

/-! ## Where a command reaches -/

/-- The kinds of page whose registers a command may change beside what messages change; `none` where no bound is claimed: the writes of the
host, and the commands that reset, restore or apply settings. -/
def reach (i : Instr) : Option (List PageKind) :=
  match i with
  | .registerWrite _ _ _ _ => none
  | .lowWordRead _ _ => some []
  | .bar2Write _ _ _ => some [.hlk, .memPc, .memPart, .pmc]
  | .bar2Read _ _ _ => some [.mgt, .memPc, .mem, .memPart, .pmc]
  | .evtForce _ _ _ => none
  | .softReset _ _ => none
  | .quiesce _ _ => none
  | .enableClear _ _ => none
  | .laneEnable _ _ => none
  | .capContextEnable _ _ => none
  | .lnpContextEnable _ _ => none
  | .atnPoolEnable _ _ => none
  | .memRegionEnable _ _ => none
  | .encPortEnable _ _ => none
  | .ejtEnable _ => none
  | .fioEnable _ => none
  | .commitGo _ _ _ _ _ => none
  | .commitApply _ => none
  | .mgtCommitRelease _ => none
  | .cmdCommitRelease _ _ => none
  | .ownerWrite _ _ _ _ => none
  | .lockSticky _ _ => none
  | .msixUnmask _ _ => none
  | .errorWindowEnd => some [.lan, .clu, .fwn, .atn, .memPc, .tim, .pmc]
  | .streamPacket _ _ _ _ => some [.lan, .capCtx, .trk, .ejt, .pmc]
  | .controlPacketReceived _ _ _ => some [.lan]
  | .mailboxSend _ _ => none
  | .mbxTxDone _ => some [.lan, .cap]
  | .cxpDiscoveryStep _ => some [.lan]
  | .lanePowerWrite _ _ _ _ => none
  | .lockGained _ => some [.lan, .lanPeer]
  | .lockTimeout _ => some [.lan]
  | .lockLost _ => some [.mgt, .lan, .lanPeer]
  | .codeError _ => some [.mgt, .lan, .lanPeer, .pmc]
  | .polFlip _ => some [.lan]
  | .laneSlip _ _ => none
  | .trainMatch _ _ => some [.lan]
  | .peerGroupEnable _ _ => none
  | .peerTrain _ _ => none
  | .peerBlockLock _ => some [.lanPeer]
  | .peerLockTimeout _ => some [.lanPeer]
  | .peerMarkersFound _ _ _ => some [.lanPeer]
  | .helloSend _ => some [.lanPeer]
  | .helloFrame _ _ _ => some [.lanPeer]
  | .helloTimeout _ => some [.lanPeer]
  | .peerLaneLockLost _ _ => some [.mgt, .lan, .lanPeer]
  | .peerRetrainDelay _ => some [.lanPeer]
  | .peerStripeFrame _ _ _ => some [.lanPeer, .capCtx, .trk, .ejt, .pmc]
  | .peerVerdictFrame _ _ _ => some [.lanPeer, .trk, .ejt]
  | .kvpageFrame _ _ _ => some [.lanPeer, .atnPool, .memPc, .memPart, .pmc]
  | .kvreqFrame _ _ _ => some [.mgt, .lanPeer, .atnPool, .memPc, .mem, .pmc]
  | .ackFrame _ _ _ => some [.lanPeer]
  | .nakFrame _ _ _ => some [.lanPeer]
  | .creditFrame _ _ _ => some [.lanPeer]
  | .creditSend _ => some [.lanPeer]
  | .ackTimer _ => some [.lanPeer]
  | .replayTimeout _ => some [.lanPeer]
  | .lineArrival _ _ _ => some [.capCtx, .tim, .trk, .ejt, .pmc]
  | .pairingWindowExpiry _ => some [.capCtx, .clu, .tim, .trk, .ejt, .pmc]
  | .lineComplete _ _ => some [.capCtx, .cap, .trk, .ejt, .pmc]
  | .groupAlignTimeout _ => some [.capCtx, .clu, .tim, .trk, .ejt, .pmc]
  | .ringWriteDone _ => some [.memPc, .pmc]
  | .settleForce _ _ => none
  | .replayPush _ _ => none
  | .replaySlotRead _ => some [.mgt, .capCtx, .memPc, .mem, .pmc]
  | .lnpNotice _ => some [.lnp, .lnpCtx, .trk, .ejt, .pmc]
  | .creditReturn _ => some [.lnp, .lnpCtx, .trk, .ejt, .pmc]
  | .holdLimitExpiry _ => some [.lnp, .lnpCtx, .clu, .tim, .trk, .ejt, .pmc]
  | .lnpStripeBegin => some [.mgt, .capCtx, .lnp, .lnpCtx, .memPc, .mem, .trk, .ejt, .pmc]
  | .tableBlockArrived _ => some []
  | .lnpStripeDone => some [.lnpCtx, .memPc, .pmc]
  | .uncorrectableRead _ _ _ => some [.mgt, .cmdPart, .capCtx, .lnpCtx, .clu, .memPc, .mem, .memPart, .trk, .ejt]
  | .correctableRead _ _ => some [.mgt, .atn, .memPc, .mem]
  | .eccWriteback _ => some [.memPc]
  | .jobSchedule _ => some [.cmdPart, .clu, .memPc, .memPart, .pmc]
  | .tileAssign _ => some [.cmdPart, .clu, .memPc, .memPart, .pmc]
  | .memoryReadReturn _ _ => some [.clu, .memPc, .memPart, .pmc]
  | .tileComplete _ _ => some [.mgt, .cmdPart, .lanPeer, .clu, .memPc, .mem, .memPart, .ejt, .pmc]
  | .fawnPassReady _ => some [.cmdPart, .clu, .fwn, .memPc, .memPart, .pmc]
  | .fawnPassDone => some [.mgt, .cmdPart, .lanPeer, .clu, .fwn, .memPc, .mem, .memPart, .ejt, .pmc]
  | .sramCorrected _ _ => some [.clu, .fwn, .atn]
  | .sramUe _ _ => some [.mgt, .cmdPart, .clu, .fwn, .atn, .ejt]
  | .partOpen => some [.atn, .trk, .ejt]
  | .partOpenClose => some [.atn, .trk, .ejt]
  | .partCont => some [.trk, .ejt]
  | .partClose => some [.trk, .ejt]
  | .partMerged => some [.trk, .ejt]
  | .partSpan => some [.trk, .ejt]
  | .verdictArm => some [.lanPeer, .trk, .ejt]
  | .verdictFinal => some [.lanPeer, .trk, .ejt]
  | .recordCommit _ _ => some [.capCtx, .trk, .ejt, .pmc]
  | .deadlinePoint _ => some [.cmdPart]
  | .firingOn _ _ _ => some [.ejt, .fio, .pmc]
  | .firingOff _ _ _ => some [.trk, .ejt, .fio, .pmc]
  | .tableFreed _ => some []
  | .minTimeHoldEnd _ _ => some [.clu, .tim, .trk, .ejt, .fio, .pmc]
  | .maxOnExpiry _ _ => some [.clu, .tim, .trk, .ejt, .fio, .pmc]
  | .vpFrameBoundary _ _ _ _ => some [.mgt, .clu, .tim, .trk, .ejt, .fio, .pmc]
  | .kvAppendIssue _ => some [.mgt, .cmdPart, .lanPeer, .clu, .atn, .atnPool, .memPc, .mem, .memPart, .ejt, .pmc]
  | .attnIssue _ => some [.mgt, .cmdPart, .lanPeer, .clu, .atn, .atnPool, .memPc, .mem, .memPart, .ejt, .pmc]
  | .atnWorkUnitDone _ => some [.cmdPart, .lanPeer, .clu, .atn, .memPc, .memPart, .pmc]
  | .peerReadTimeout => some [.clu, .atnPool, .tim, .pmc]
  | .planLoadGo _ _ _ _ => none
  | .planCheckDone _ _ => some [.mgt, .cmdPart, .memPc, .mem]
  | .planSwitch _ _ => some [.cmdPart, .clu]
  | .planUnload _ _ _ => none
  | .partitionConfigWrite _ _ _ => none
  | .sqDoorbell _ _ _ _ => none
  | .sqRun _ _ _ => some [.cmdPart]
  | .sqStop _ _ _ => some [.cmdPart, .clu, .ejt]
  | .sqFence _ _ _ => some [.cmdPart]
  | .cqHeadWrite _ _ _ _ => none
  | .cqCoalesceTimer _ _ => some [.clu, .tim, .pmc]
  | .sliceEnd _ => some [.clu, .tim, .pmc]
  | .jobSwitchDone _ => some [.cmdPart, .clu, .memPc, .memPart, .pmc]
  | .nonpreemptWatchdog _ => some [.cmdPart, .clu, .tim, .ejt, .pmc]
  | .bwWindowStart => some [.memPart, .pmc]
  | .refresh _ => some [.memPc, .pmc]
  | .scrubRead => some [.mgt, .memPc, .mem]
  | .encoderEdge _ _ _ => some [.mgt, .lan, .capCtx, .cap, .enc, .trk, .ejt, .fio, .pmc]
  | .indexEdge _ _ => some [.enc, .tim]
  | .absFrameComplete _ _ => some [.mgt, .lan, .capCtx, .cap, .enc, .trk, .ejt, .fio, .pmc]
  | .sincosSample _ _ _ => some [.mgt, .lan, .capCtx, .cap, .clu, .enc, .tim, .trk, .ejt, .fio, .pmc]
  | .speedWindowEnd _ => some [.clu, .enc, .tim, .ejt, .pmc]
  | .encSelWrite _ _ _ _ => none
  | .timeSetImmediate _ => none
  | .timeSetAtPps _ => none
  | .timeSetCancel _ => none
  | .timeAdjust _ _ => none
  | .ppsEdge _ => some [.lan, .capCtx, .cap, .enc, .tim, .trk, .ejt, .pmc]
  | .secondsRollover => some [.clu, .tim, .pmc]
  | .compareArm _ _ => none
  | .compareMatch _ => some [.lan, .capCtx, .cap, .clu, .enc, .tim, .trk, .ejt, .pmc]
  | .refLost => some [.tim]
  | .refReturn => some [.tim]
  | .fieldInputSample _ _ _ => some [.mgt, .tim, .fio]
  | .outputSetWrite _ _ => none
  | .watchdogEnable _ => none
  | .watchdogKick _ _ => none
  | .watchdogExpiry => some [.clu, .tim, .fio, .pmc]
  | .safeRelease _ => none
  | .linkDown => some [.hlk]
  | .linkUp _ _ _ => some [.mgt, .sec, .ret, .hlk, .fio]
  | .linkRetrain _ => none
  | .powerOn => none
  | .resetNFall => some []
  | .resetRecognised => none
  | .resetNRise _ => some [.mgt, .ret, .tim, .fio]
  | .railUndervoltage => none
  | .mgtReset _ _ _ _ => none
  | .mgtResetExecute => none
  | .startCoolantWaitEnd => some [.mgt, .sec, .ret, .fio]
  | .memoryScrubDone => some [.mgt, .ret, .fio]
  | .patchGo _ => none
  | .patchNone _ => none
  | .patchWindowTimeout => some [.mgt, .sec, .ret, .clu, .tim, .fio, .pmc]
  | .patchCheckDone _ _ => some [.mgt, .sec, .ret, .fio]
  | .settingsRestore _ _ => none
  | .startOk _ => none
  | .startOkWindowEnd => some [.clu, .tim, .pmc]
  | .coolantStop => some [.mgt, .lan, .ejt, .fio]
  | .thermalStop => some [.mgt, .lan, .ejt, .fio]
  | .faultForce _ _ _ => none
  | .classifierLeak _ => some [.clu, .tim, .pmc]
  | .retirementRecorded => some []
  | .retireClear _ _ _ => none
  | .snapshot _ => none
  | .snapshotCaptured => none
  | .snapshotDone _ => some [.ret]
  | .velvetErase _ => none
  | .attestGo _ => none
  | .attestDone => some [.sec]
  | .voltageWaitEnd _ => some []
  | .railThrottleOn _ => some []
  | .railThrottleOff _ => some []
  | .pmcFreeze _ => none
  | .pmcUnfreeze _ => none
  | .pmcClear _ _ => none
  | .pmcWrap _ => some [.clu, .tim, .pmc]
  | .pmcCrossing _ => some [.clu, .tim, .pmc]
  | .decFetchIssue _ => some [.mgt, .cmdPart, .clu, .memPc, .mem, .memPart, .ejt, .pmc]
  | .decSampleDecoded _ => some [.mgt, .cmdPart, .clu, .memPc, .mem, .memPart, .dec, .ejt, .pmc]
  | .decSampleDelivered => some [.cmdPart, .clu, .memPc, .memPart, .dec, .pmc]
  | .decCommitIssue _ => some [.cmdPart, .clu, .memPc, .memPart, .pmc]
  | .decCacheFlush _ => none
  | .laneWakeEnd _ => some [.lan]
  | .fuseLoadDone => some [.mgt, .ret, .fio]
  | .velvetCheckDone _ _ _ _ => some [.mgt, .sec, .ret, .lan, .clu, .memPc, .mem, .enc, .ejt, .fio]
  | .hbmTrainingDone _ => some [.mgt, .ret, .fio]
  | .hostReadFailed _ _ => some [.cmdPart]
  | .refusedOpcode _ _ _ => some [.cmdPart]

end Sys2Proof.Machine
end

