-- ==== Sys2Proof/Certificates/Slice0/Obligations.lean ====
section
/-!
DEFINITION. Certificates/Slice0/Obligations.lean: what is claimed of the model, for the provers. `Answers c s P` says that the command `c` at the
state `s` answers a next state of which `P` holds; `State.Only` names every register cell that a command may change beside what interrupt
messages change, and says that nothing else of the state changes.
-/
open Sys2Proof Sys2Proof.Machine

/-! ## Steps, reset and whole-machine rules -/

/-- A step runs the oldest waiting command on the state with the rest of the queue.
Choices of the model in it: assumption log 1. -/
def Obligations.StepRunsTheOldestCommand : Prop :=
  ∀ (s : State) (c : Instr) (rest : List Instr), s.pending = c :: rest → step s = exec c { s with pending := rest }

/-- A step of an empty queue lets time pass: the model's own choice.
Choices of the model in it: assumption log 1. -/
def Obligations.IdleStepMovesTheClockOn : Prop :=
  ∀ s : State, s.pending = [] → ∃ t, step s = .next t ∧ t.pending = [] ∧ s.tick < t.tick ∧ t.fuses = s.fuses

/-- What reset leaves: every register cell but the cause of the start at the value of its table, the cause POWER_ON, no command waiting, no
write held or latched, no commit, the host link down, the device not ready and every store in canonical form.
Choices of the model in it: assumption log 9, 11, 12. -/
def Obligations.ResetLeavesTheTableValues : Prop :=
  (∀ (f : Fld) (i j : Nat), f.key i j ≠ Fld.MGT_RESET_CAUSE_power_on.key 0 0 → State.reset.get f i j = f.resetAt j) ∧
  (∀ (f : Fld) (i j : Nat), State.reset.getShadow f i j = f.resetAt j) ∧
  State.reset.get .MGT_RESET_CAUSE_power_on = 1 ∧ State.reset.pending = [] ∧ State.reset.held = none ∧ State.reset.lowWrites = [] ∧
  State.reset.commits = [] ∧ State.reset.linkUp = false ∧ State.reset.isOn .MGT_STATUS_ready = false ∧ State.reset.out = []

/-- At reset every store is in its canonical form.
Choices of the model in it: assumption log 9, 11, 12. -/
def Obligations.ResetStoresAreCanonical : Prop := State.reset.canonical = true

/-- No step takes a store out of its canonical form, so that equal contents stay equal data. -/
def Obligations.EveryStepKeepsStoresCanonical : Prop :=
  ∀ s t : State, s.canonical = true → step s = .next t → t.canonical = true

/-- Every well-formed command answers a next state: it leaves the waiting queue and the fuses, does not turn the clock back, and
takes back nothing that was given to the outside.
Choices of the model in it: assumption log 2, 4, 6. -/
def Obligations.EveryWellFormedCommandAnswers : Prop :=
  ∀ (c : Instr) (s : State), c.wf = true → Answers c s (State.Follows s)

/-- A command that names a page outside the page map stops under that name.
Choices of the model in it: assumption log 2, 8. -/
def Obligations.AbsentPagesStop : Prop :=
  ∀ (c : Instr) (s : State) (fn : Fn) (p : PageId), p.ok = false →
    (c = .softReset fn p ∨ c = .quiesce fn p ∨ c = .enableClear fn p ∨ c = .lockSticky fn p ∨ c = .commitApply p ∨
      (∃ m, c = .evtForce fn p m) ∨ (∃ b k h, c = .commitGo fn p b k h) ∨ (∃ q v, c = .ownerWrite fn p q v)) →
    exec c s = .fault .noSuchInstance

/-- A command with a bound changes registers only on pages of the kinds that `reach` lists for it, beside what interrupt messages change:
pending bits and the count of lost messages.
Choices of the model in it: assumption log 2, 4. -/
def Obligations.CommandsStayWithinTheirReach : Prop :=
  ∀ (c : Instr) (s t : State) (l : List PageKind), reach c = some l → exec c s = .next t →
    ∀ (f : Fld) (i j : Nat), l.contains f.kind = false → msgFlds.all (fun g => f.diff g) = true → t.get f i j = s.get f i j

/-- No event, and no access that is no register write, changes CTRL, COMMIT, GEN, OWNER or the two LOCK bits of any page; `reach` gives
no bound for the writes of the host and for the commands that reset, restore or apply settings.
Choices of the model in it: assumption log 2, 4. -/
def Obligations.EventsLeaveTheHeaderSettings : Prop :=
  ∀ (c : Instr) (s t : State), (reach c).isSome = true → exec c s = .next t →
    ∀ (f : Fld) (i j : Nat), f.calm = true → t.get f i j = s.get f i j

/-! ## Access of the host -/

/-- While the host link is not up, writes of the host have no effect at all, and reads return all ones (R565). -/
def Obligations.LinkDownLosesHostAccesses : Prop :=
  ∀ s : State, s.linkUp = false →
    (∀ (c : Instr) (w : Nat × PageId × Nat), c.wf = true → target c = some w → exec c s = .next s) ∧
    (∀ (fn : Fn) (off size : Nat) (v : BitVec 64), exec (.registerWrite fn off size v) s = .next s) ∧
    (∀ (fn : Fn) (off : Nat) (d : List Byte), exec (.bar2Write fn off d) s = .next s) ∧
    (∀ (fn : Fn) (p : Part) (r : PartReg), exec (.partitionConfigWrite fn p r) s = .next s) ∧
    (∀ (fn : Fn) (off : Nat), exec (.lowWordRead fn off) s = .next { s with out := s.out ++ [.readData fn off 0xFFFFFFFF] }) ∧
    (∀ (fn : Fn) (off n : Nat), exec (.bar2Read fn off n) s = .next { s with out := s.out ++ [.bar2Data fn off (List.replicate n 255)] })

/-- Register writes of the host are held, in order, while a snapshot is captured (R496); before ready and during a stop, a write to a page
other than MGT, SEC and RET is discarded and changes nothing, events included (R487, R525).
Choices of the model in it: assumption log 24, 118. -/
def Obligations.HostWritesWait : Prop :=
  ∀ (c : Instr) (s : State) (fn off : Nat) (p : PageId), c.wf = true → target c = some (fn, p, off) → s.linkUp = true →
    (∀ h, s.held = some h → ∃ v, exec c s = .next { s with held := some (h ++ [⟨fn, p.base + off, 4, v⟩]) }) ∧
    (s.held = none → mgmtPage p.kind = false → (s.isOn .MGT_STATUS_ready = false ∨ s.stopped = true) → exec c s = .next s)

/-- A partition function's write to a page that it does not see raises OWN_DENY with the function and, when ERR_INFO takes it, the offset (R41,
R407); a write that LOCK turns away counts once in LOCK.denied (R55); a partition function's write to a closed word of its MEM
partition page records the code 0x83 and counts in LOCK.denied (R295). Nothing else changes.
Choices of the model in it: assumption log 29, 37. -/
def Obligations.HostWritesNeedTheirPage : Prop :=
  ∀ (c : Instr) (s : State) (fn off : Nat) (p : PageId), c.wf = true → target c = some (fn, p, off) → s.linkUp = true → s.held = none →
    (mgmtPage p.kind || (s.isOn .MGT_STATUS_ready && !s.stopped)) = true →
    (s.sees fn p = false → Answers c s (fun t => t.event ⟨.hlk, 0⟩ 0 = true ∧
      State.Only ((.HLK_DENY_OFFSET, 0, 0) :: evtCells ⟨.hlk, 0⟩) s t ∧
      (s.isOn (.ERR_INFO_valid .hlk) = false → t.get (.ERR_INFO_valid .hlk) = 1 ∧ t.get (.ERR_INFO_event .hlk) = 0 ∧
        t.get (.ERR_INFO_detail .hlk) = fn ∧ t.get .HLK_DENY_OFFSET = (p.base + off) % 2 ^ 64) ∧
      (s.isOn (.ERR_INFO_valid .hlk) = true → t.get .HLK_DENY_OFFSET = s.get .HLK_DENY_OFFSET ∧ t.get (.ERR_INFO_overflow .hlk) = 1))) ∧
    (s.sees fn p = true → (p.kind = .clu → s.cluDisabled p.inst = false) → s.lockDenies fn p off = true →
      Answers c s (fun t => t = s.count (.LOCK_denied p.kind) p.inst 0 1)) ∧
    (s.gateOpen fn p off = true → p.kind = .memPart → fn ≠ 0 → memPartOpen off = false → Answers c s (fun t =>
      t.event p 31 = true ∧ t.get (.LOCK_denied .memPart) p.inst = satAdd 16 (s.get (.LOCK_denied .memPart) p.inst) 1 ∧
      State.Only ((.LOCK_denied .memPart, p.inst, 0) :: evtCells p) s t))

/-! ## Page headers -/

/-- EVT_FORCE sets the written event bits that the page has, leaves the others, and captures the lowest as forced while ERR_INFO is free;
nothing changes but the page's event registers (R45, R46).
A write of EVT_STATUS clears exactly the bits written as 1 and changes nothing else (R10, R45): a write of a register by its address.
Choices of the model in it: assumption log 30. -/
def Obligations.EventBitsAreForcedAndCleared : Prop :=
  (∀ (fn : Fn) (p : PageId) (m : BitVec 32) (s : State), p.ok = true → s.opens fn p 0x18 = true →
      Answers (.evtForce fn p m) s (fun t => State.Only (evtCells p) s t ∧
        (∀ n, n < 32 → t.event p n = (s.event p n || bit (m.toNat &&& p.events) n)) ∧
        (∀ n l, onesOf 32 (m.toNat &&& p.events) = n :: l → s.isOn (.ERR_INFO_valid p.kind) p.inst = false →
          t.get (.ERR_INFO_valid p.kind) p.inst = 1 ∧ t.get (.ERR_INFO_forced p.kind) p.inst = 1 ∧ t.get (.ERR_INFO_event p.kind) p.inst = n))) ∧
  (∀ (fn : Fn) (p : PageId) (v : BitVec 64) (s : State), p.ok = true → v.toNat < 2 ^ 32 → s.opens fn p 0x10 = true →
      Answers (.registerWrite fn (p.base + 0x10) 4 v) s (fun t => State.Only [(.EVT_STATUS p.kind, p.inst, 0)] s t ∧
        ∀ n, n < 32 → t.event p n = (s.event p n && !bit v.toNat n)))

/-- SOFT_RESET of a page whose enable reads 0 counts GEN by one, leaves OWNER and LOCK, and clears the page's event registers where no
event follows from the reset itself; while enable reads 1 it is discarded with the code 0x02 (R47, R48, R566).
Choices of the model in it: assumption log 32. -/
def Obligations.SoftResetCountsAGeneration : Prop :=
  ∀ (fn : Fn) (p : PageId) (s : State), p.ok = true → s.opens fn p 0x8 = true →
    (s.enableShown p = false → Answers (.softReset fn p) s (fun t =>
      t.get (.GEN p.kind) p.inst = (s.get (.GEN p.kind) p.inst + 1) % 2 ^ 32 ∧
      (∀ f, f ∈ [Fld.OWNER_partition p.kind, .OWNER_valid p.kind, .LOCK_locked p.kind, .LOCK_sticky p.kind] → t.get f p.inst = s.get f p.inst) ∧
      (p.kind ∈ [.capCtx, .lnpCtx, .atnPool, .memPart, .enc] →
        ∀ f, f ∈ [Fld.EVT_STATUS p.kind, .ERR_INFO_valid p.kind, .ERR_INFO_overflow p.kind, .ERR_INFO_event p.kind] → t.get f p.inst = 0))) ∧
    (s.enableShown p = true → p.kind.ownEnable = false → Answers (.softReset fn p) s (fun t =>
      State.Refuses s t p fn 0x8 0x02))

/-- QUIESCE sets CTRL.quiesce of a page that has an enable of its own, and changes nothing on any other page (R47, R566).
ENABLE_CLEAR clears CTRL.enable of a page that has one; with work in progress ERR_INFO records the code 0x01; a MEM partition whose region is
in use is left with the code 0x81; other pages ignore the write (R47, R295, R566).
Choices of the model in it: assumption log 34, 35. -/
def Obligations.QuiesceAndEnableClearStopWork : Prop :=
  (∀ (fn : Fn) (p : PageId) (s : State), p.ok = true → s.opens fn p 0x8 = true →
      (p.kind.ownEnable = true → Answers (.quiesce fn p) s (fun t => t.isOn (.CTRL_quiesce p.kind) p.inst = true ∧
        t.isOn (.CTRL_enable p.kind) p.inst = s.isOn (.CTRL_enable p.kind) p.inst)) ∧
      (p.kind.ownEnable = false → exec (.quiesce fn p) s = .next s)) ∧
  (∀ (fn : Fn) (p : PageId) (s : State), p.ok = true → s.opens fn p 0x8 = true →
      (p.kind.ownEnable = true → (p.kind = .memPart → s.regionBusy p.inst = false) → Answers (.enableClear fn p) s (fun t =>
        t.isOn (.CTRL_enable p.kind) p.inst = false ∧
        (s.isOn (.CTRL_enable p.kind) p.inst = true → s.active p = true → p.kind ∈ [.atnPool, .memPart, .enc] → t.event p 31 = true))) ∧
      (p.kind = .memPart → s.isOn (.CTRL_enable .memPart) p.inst = true → s.regionBusy p.inst = true →
        Answers (.enableClear fn p) s (fun t => State.Refuses s t p fn 0x8 0x81)) ∧
      (p.kind.ownEnable = false → exec (.enableClear fn p) s = .next s))

/-- COMMIT_GO takes boundary, compare unit and hold, and, while no commit waits on the page, captures every shadow register of the page as it
stands, released at once unless hold is set; a boundary that the page does not accept is discarded with the code 0x03, and a go while one
waits has no further effect (R50, R51, R52).
Choices of the model in it: assumption log 31. -/
def Obligations.CommitGoCapturesTheShadows : Prop :=
  ∀ (fn : Fn) (p : PageId) (b : BitVec 3) (k : Unit16) (hold : Bool) (s : State), p.ok = true → s.opens fn p 0x20 = true →
    Answers (.commitGo fn p b k hold) s (fun t =>
      t.get (.COMMIT_cmp p.kind) p.inst = k ∧ t.get (.COMMIT_hold p.kind) p.inst = b2n hold ∧
      (b.toNat ≤ 5 → t.get (.COMMIT_boundary p.kind) p.inst = b.toNat) ∧
      (s.commitPending p = true → t.commits = s.commits) ∧
      (s.commitPending p = false → p.kind.boundaries.contains b.toNat = true →
        t.commits = s.commits ++ [⟨p, fn, b.toNat, k, !hold, s.shadows p, false⟩]) ∧
      (s.commitPending p = false → p.kind.boundaries.contains b.toNat = false → t.event p 31 = true ∧ t.commits = s.commits) ∧
      State.Only ((.COMMIT_boundary p.kind, p.inst, 0) :: (.COMMIT_cmp p.kind, p.inst, 0) :: (.COMMIT_hold p.kind, p.inst, 0) :: evtCells p)
        { s with commits := t.commits } t)

/-- A commit whose boundary comes and whose checks pass becomes active whole: every shadowed register of the page takes the captured value, GEN
counts by one, and the commit waits no more; one whose check fails is discarded whole with the check's code (R50 to R53, R98, R368).
Choices of the model in it: assumption log 31. -/
def Obligations.CommitApplyActivates : Prop :=
  ∀ (p : PageId) (s : State) (r : CommitRec), p.ok = true → s.awake = true →
    s.commits.find? (fun c => c.page == p && c.released) = some r →
    (s.commitCode r = none → (p.kind = .lnpCtx → s.gensFull p.inst = false) → Answers (.commitApply p) s (fun t =>
      t.get (.GEN p.kind) p.inst = (s.get (.GEN p.kind) p.inst + 1) % 2 ^ 32 ∧ t.commitPending p = false ∧
      (p.kind ≠ .ejt → ∀ f j, (f, j) ∈ shadowed p → t.get f p.inst j = s.newVal r f j % 2 ^ f.width))) ∧
    (∀ x, s.commitCode r = some x → Answers (.commitApply p) s (fun t => t.commitPending p = false ∧
      State.Refuses { s with commits := t.commits } t p r.fn 0x20 x))

/-- The two releases (R52, R186): a write of 1 to MGT_COMMIT_RELEASE releases every held commit and plan load of the device; one to a
partition's CMD_COMMIT_RELEASE releases those on the pages that it owns, and its loads. No register changes. -/
def Obligations.ReleasesFreeHeldCommits : Prop :=
  (∀ (fn : Fn) (s : State), s.opens fn mgtPage 0x104 = true → Answers (.mgtCommitRelease fn) s (fun t =>
    t.commits = s.commits.map (fun r => { r with released := true }) ∧ t.regs = s.regs ∧
    ∀ p k, p < 8 → k < 8 → (t.slotSt p k).load = ((s.slotSt p k).load).map (fun l => { l with hold := false }))) ∧
  (∀ (fn : Fn) (q : Part) (s : State), s.opens fn (cmdPage q) 0x104 = true → Answers (.cmdCommitRelease fn q) s (fun t =>
    t.commits = s.commits.map (fun r => if s.owner r.page == some q.val then { r with released := true } else r) ∧ t.regs = s.regs ∧
    ∀ k, k < 8 → (t.slotSt q k).load = ((s.slotSt q k).load).map (fun l => { l with hold := false })))

/-- OWNER_WRITE of PF0 on an assignable page without work that is disabled gives it the owner; any other is discarded with the code 0x04
(R54).
LOCK_STICKY sets LOCK.sticky and leaves LOCK.locked; from then on every function's write to the page is turned away, but for EVT_STATUS,
EVT_ENABLE and ERR_INFO (R55). -/
def Obligations.OwnersAndLocksAreSet : Prop :=
  (∀ (fn : Fn) (p : PageId) (q : Part) (v : Bool) (s : State), p.ok = true → s.opens fn p 0x28 = true →
      (fn = 0 → p.kind.assignable = true → s.active p = false → s.isOn (.CTRL_enable p.kind) p.inst = false →
        Answers (.ownerWrite fn p q v) s (fun t => t.get (.OWNER_partition p.kind) p.inst = q ∧ t.get (.OWNER_valid p.kind) p.inst = b2n v ∧
          State.Only [(.OWNER_partition p.kind, p.inst, 0), (.OWNER_valid p.kind, p.inst, 0)] s t)) ∧
      ((fn ≠ 0 ∨ p.kind.assignable = false ∨ s.active p = true ∨ s.isOn (.CTRL_enable p.kind) p.inst = true) →
        Answers (.ownerWrite fn p q v) s (fun t => State.Refuses s t p fn 0x28 0x04))) ∧
  (∀ (fn : Fn) (p : PageId) (s : State), p.ok = true → s.opens fn p 0x2C = true → Answers (.lockSticky fn p) s (fun t =>
      t.get (.LOCK_sticky p.kind) p.inst = 1 ∧ t.isOn (.LOCK_locked p.kind) p.inst = s.isOn (.LOCK_locked p.kind) p.inst ∧
      (∀ g off, lockExempt off = false → t.lockDenies g p off = true) ∧
      State.Only [(.LOCK_locked p.kind, p.inst, 0), (.LOCK_sticky p.kind, p.inst, 0)] s t))

/-- MSIX_UNMASK clears the mask bit of the vector; a pending message is then sent if the OR of its events still stands or it serves a completion
queue, and its pending bit clears; a pending bit whose OR has fallen stays clear without a message (R59, R409).
Choices of the model in it: assumption log 28. -/
def Obligations.MsixUnmaskSendsThePending : Prop :=
  ∀ (fn : Fn) (v : Vec) (s : State), s.opens fn (msixControl fn v).1 (msixControl fn v).2 = true → s.linkUp = true →
    Answers (.msixUnmask fn v) s (fun t => bit (t.msixWord fn v 3) 0 = false ∧
      (bit (s.msixPba fn) v = false → t.out = s.out ∧ t.msixPba fn = s.msixPba fn) ∧
      (bit (s.msixPba fn) v = true → bit (t.msixPba fn) v = false ∧
        ((32 ≤ v.val ∨ s.vecOr fn v = true) →
          t.out = s.out ++ [.msix fn v (s.msixWord fn v 0 + 2 ^ 32 * s.msixWord fn v 1) (s.msixWord fn v 2)]) ∧
        (v.val < 32 → s.vecOr fn v = false → t.out = s.out)))

/-! ## Enables -/

/-- The enables whose checks pass turn their page on, each with its first effect (R93, R98, R133, R155, R261, R292, R297, R326, R335, R375, R392): a lane
takes the power states of LAN_PWR as its targets unless it is retired, a capture context runs unless it is quiesced and counts stripes from
0, a line context has every slot free, a pool every page, a region starts with reserve and burst as tokens, a port takes its preset, FIO's
filtered levels are 0.
Choices of the model in it: assumption log 34. -/
def Obligations.EnablesTurnTheirPageOn : Prop :=
  ∀ (fn : Fn) (s : State),
    (∀ l : Lane, s.opens fn (lanePage l) 0x8 = true → s.isOn (.CTRL_enable .lan) l = false → Answers (.laneEnable fn l) s (fun t =>
      t.isOn (.CTRL_enable .lan) l = true ∧ (s.laneRetired l = false → t.get .LANX_RX_TARGET l = s.get .LAN_PWR_rx l % 4 ∧
        t.get .LANX_TX_TARGET l = s.get .LAN_PWR_tx l % 4))) ∧
    (∀ c : Ctx, s.opens fn (capPage c) 0x8 = true → s.isOn (.CTRL_enable .capCtx) c = false → s.capEnableCode c = none →
      Answers (.capContextEnable fn c) s (fun t => t.isOn (.CTRL_enable .capCtx) c = true ∧ (s.isOn (.CTRL_quiesce .capCtx) c = false →
        t.get .CAP_STRIPE_NO c = 0))) ∧
    (∀ c : Ctx, s.opens fn (lnpPage c) 0x8 = true → s.isOn (.CTRL_enable .lnpCtx) c = false → s.lnpEnableCode c = none →
      Answers (.lnpContextEnable fn c) s (fun t => t.isOn (.CTRL_enable .lnpCtx) c = true ∧
        t.get .LNP_CREDIT_free c = s.get .LNP_LB_CFG_slots c % 2 ^ Fld.LNP_CREDIT_free.width)) ∧
    (∀ q : Pool, s.opens fn (poolPage q) 0x8 = true → s.poolOn q = false → s.poolRefused q = false → Answers (.atnPoolEnable fn q) s (fun t =>
      t.isOn (.CTRL_enable .atnPool) q = true ∧ State.Only [(.CTRL_enable .atnPool, q, 0)] { s with pools := t.pools } t)) ∧
    (∀ p : Part, s.opens fn ⟨.memPart, p⟩ 0x8 = true → s.regionOn p = false → s.regionRefused p = false → Answers (.memRegionEnable fn p) s (fun t =>
      t.isOn (.CTRL_enable .memPart) p = true ∧
      t.get .BWX_TOKENS p = 2 * (s.bwReg .MEM_BW_RES p + s.bwReg .MEM_BW_BURST p) % 2 ^ Fld.BWX_TOKENS.width ∧
      State.Only [(.CTRL_enable .memPart, p, 0), (.BWX_TOKENS, p, 0), (.BWX_USED, p, 0), (.BWX_BORROWED, p, 0), (.BWX_DEFERRED, p, 0), (.BWX_CEIL, p, 0)] s t)) ∧
    (∀ e : EncPort, s.opens fn (encPage e) 0x8 = true → s.encOn e = false → s.encRefused e = false → Answers (.encPortEnable fn e) s (fun t =>
      t.isOn (.CTRL_enable .enc) e = true ∧ t.get .ENC_RAW e = toU 64 (sext 48 (s.get .ENC_PRESET e)) % 2 ^ Fld.ENC_RAW.width ∧
      t.get .ENC_POS e = toU 64 (sext 48 (s.get .ENC_PRESET e)) % 2 ^ Fld.ENC_POS.width)) ∧
    (s.opens fn ejtPage 0x8 = true → s.isOn (.CTRL_enable .ejt) = false → (List.range 8).any (fun b => s.isOn .EJT_BANK_CFG_enable 0 b) = true →
      Answers (.ejtEnable fn) s (fun t => t.isOn (.CTRL_enable .ejt) = true)) ∧
    (s.opens fn fioPage 0x8 = true → s.isOn (.CTRL_enable .fio) = false → Answers (.fioEnable fn) s (fun t =>
      t.isOn (.CTRL_enable .fio) = true ∧ t.get .FIO_IN_LEVEL = 0 ∧ t.get .FIO_IN_BROKEN = 0))

/-- An enable whose check fails is discarded with its code: 0x21 or 0x22 on a capture context, 0x30 or 0x32 on a line context, 0x70 on a pool, 0x80
on a region, 0x92 on a port, 0xA2 on EJT; an enable of a page that is on changes nothing (R47, R97, R133, R261, R292, R325, R375). -/
def Obligations.EnablesAreChecked : Prop :=
  ∀ (fn : Fn) (s : State),
    (∀ (c : Ctx) (x : Nat), s.opens fn (capPage c) 0x8 = true → s.isOn (.CTRL_enable .capCtx) c = false → s.capEnableCode c = some x →
      (x = 0x21 ∨ x = 0x22) ∧ Answers (.capContextEnable fn c) s (fun t => State.Refuses s t (capPage c) fn 0x8 x)) ∧
    (∀ (c : Ctx) (x : Nat), s.opens fn (lnpPage c) 0x8 = true → s.isOn (.CTRL_enable .lnpCtx) c = false → s.lnpEnableCode c = some x →
      (x = 0x30 ∨ x = 0x32) ∧ Answers (.lnpContextEnable fn c) s (fun t => State.Refuses s t (lnpPage c) fn 0x8 x)) ∧
    (∀ q : Pool, s.opens fn (poolPage q) 0x8 = true → s.poolOn q = false → s.poolRefused q = true →
      Answers (.atnPoolEnable fn q) s (fun t => State.Refuses s t (poolPage q) fn 0x8 0x70)) ∧
    (∀ p : Part, s.opens fn ⟨.memPart, p⟩ 0x8 = true → s.regionOn p = false → s.regionRefused p = true →
      Answers (.memRegionEnable fn p) s (fun t => State.Refuses s t ⟨.memPart, p⟩ fn 0x8 0x80)) ∧
    (∀ e : EncPort, s.opens fn (encPage e) 0x8 = true → s.encOn e = false → s.encRefused e = true →
      Answers (.encPortEnable fn e) s (fun t => State.Refuses s t (encPage e) fn 0x8 0x92)) ∧
    (s.opens fn ejtPage 0x8 = true → s.isOn (.CTRL_enable .ejt) = false → (List.range 8).any (fun b => s.isOn .EJT_BANK_CFG_enable 0 b) = false →
      Answers (.ejtEnable fn) s (fun t => State.Refuses s t ejtPage fn 0x8 0xA2)) ∧
    (∀ (c : Instr) (p : PageId), (c, p) ∈ ([(.ejtEnable fn, ejtPage), (.fioEnable fn, fioPage)] : List (Instr × PageId)) ∨
        (∃ l : Lane, c = .laneEnable fn l ∧ p = lanePage l) ∨ (∃ x : Ctx, c = .capContextEnable fn x ∧ p = capPage x) ∨
        (∃ x : Ctx, c = .lnpContextEnable fn x ∧ p = lnpPage x) ∨ (∃ q : Pool, c = .atnPoolEnable fn q ∧ p = poolPage q) ∨
        (∃ q : Part, c = .memRegionEnable fn q ∧ p = ⟨.memPart, q.val⟩) ∨ (∃ e : EncPort, c = .encPortEnable fn e ∧ p = encPage e) →
      s.opens fn p 0x8 = true → s.isOn (.CTRL_enable p.kind) p.inst = true → exec c s = .next s)

/-! ## Camera lanes -/

/-- LOCK_GAINED locks a working lane that is not asleep, with the speed of a camera connection, and its event; a wake of the receiver ends with
it. LOCK_TIMEOUT of a wake is one event and nothing else. LOCK_LOST drops lock and speed, and at an active receiver it counts and raises (R72, R75,
R76, R78).
Choices of the model in it: assumption log 4, 45, 46. -/
def Obligations.LanesLock : Prop :=
  ∀ (l : Lane) (s : State), s.awake = true →
    (s.isOn .LAN_STATUS_locked l = false → s.laneMode l ≠ 0 → s.laneRetired l = false →
      (s.get .LAN_STATUS_rx_now l ≠ 2 ∨ s.get .LANX_RX_TARGET l ≠ 2) → Answers (.lockGained l) s (fun t =>
        t.isOn .LAN_STATUS_locked l = true ∧ t.event (lanePage l) evLockGained = true ∧
        (s.laneMode l = 1 → s.get .LAN_RATE_cxp_speed l ≠ 0 → t.get .LAN_STATUS_speed l = s.get .LAN_RATE_cxp_speed l % 2 ^ Fld.LAN_STATUS_speed.width) ∧
        (s.get .LANX_RX_TARGET l < s.get .LAN_STATUS_rx_now l → t.event (lanePage l) evWakeDone = true ∧
          t.get .LAN_STATUS_rx_now l = s.get .LANX_RX_TARGET l % 2 ^ Fld.LAN_STATUS_rx_now.width))) ∧
    (s.isOn .LAN_STATUS_waking l = true → s.isOn .LAN_STATUS_locked l = false → s.get .LANX_RX_TARGET l < s.get .LAN_STATUS_rx_now l →
      Answers (.lockTimeout l) s (fun t => t.event (lanePage l) evLockTimeout = true ∧ State.Only (evtCells (lanePage l)) s t)) ∧
    (s.isOn .LAN_STATUS_locked l = true → Answers (.lockLost l) s (fun t =>
      t.isOn .LAN_STATUS_locked l = false ∧ t.get .LAN_STATUS_speed l = 0 ∧
      (s.get .LAN_STATUS_rx_now l = 0 → t.event (lanePage l) evLockLost = true ∧
        t.get .LAN_LOCK_LOSS l = satAdd Fld.LAN_LOCK_LOSS.width (s.get .LAN_LOCK_LOSS l) 1) ∧
      (s.get .LAN_STATUS_rx_now l ≠ 0 → t.get (.EVT_STATUS .lan) l = s.get (.EVT_STATUS .lan) l ∧
        t.get .LAN_LOCK_LOSS l = s.get .LAN_LOCK_LOSS l)))

/-- What a camera lane carries (R66 to R69): a sound stream packet of a locked, active lane changes nothing, and a bad one counts, raises, and
discards its line; a packet for a full mailbox raises MBX_OVF and keeps the mailbox; another fills the next slot and moves the head; MAILBOX_SEND with a
good length sends the buffer, with a bad one it is refused with 0x16, on a lane that cannot send with 0x12; the end of a send clears
LAN_MBX_CTRL.send.
Choices of the model in it: assumption log 5, 45. -/
def Obligations.LanesCarryPackets : Prop :=
  ∀ (l : Lane) (s : State),
    (s.awake = true → s.laneMode l = 1 → ∀ crcOk violation broke : Bool,
      (crcOk = true → violation = false → broke = false → s.isOn .LAN_STATUS_locked l = true → s.get .LAN_STATUS_rx_now l = 0 →
        exec (.streamPacket l crcOk violation broke) s = .next s) ∧
      ((crcOk = false ∨ violation = true ∨ broke = true ∨ s.isOn .LAN_STATUS_locked l = false ∨ s.get .LAN_STATUS_rx_now l ≠ 0) →
        Answers (.streamPacket l crcOk violation broke) s (fun t =>
          t.get .LAN_ERR_CRC l = satAdd Fld.LAN_ERR_CRC.width (s.get .LAN_ERR_CRC l) 1 ∧ t.event (lanePage l) evCrcErr = true))) ∧
    (s.awake = true → s.laneMode l = 1 → s.isOn .LAN_STATUS_locked l = true → s.get .LAN_STATUS_rx_now l = 0 →
      s.get .LAN_MODE_index l = 0 → ∀ (k : MbxKind) (d : List Byte),
      ((s.get .LAN_MBX_RXHEAD l + 8 - s.get .LAN_MBX_RXTAIL l) % 8 = 4 → Answers (.controlPacketReceived l k d) s (fun t =>
        t.event (lanePage l) evMbxOvf = true ∧ State.Only (evtCells (lanePage l)) s t)) ∧
      ((s.get .LAN_MBX_RXHEAD l + 8 - s.get .LAN_MBX_RXTAIL l) % 8 ≠ 4 → Answers (.controlPacketReceived l k d) s (fun t =>
        t.event (lanePage l) evMbxRx = true ∧ t.get .LAN_MBX_RXHEAD l = (s.get .LAN_MBX_RXHEAD l + 1) % 2 ^ Fld.LAN_MBX_RXHEAD.width ∧
        (∀ i, i < 128 → t.get .LAN_MBX_RX l (s.get .LAN_MBX_RXHEAD l % 4 * 128 + i) =
          (mbxSlot (MbxKind.code k) s.sec s.ns (d.map BitVec.toNat)).getD i 0 % 2 ^ 32)))) ∧
    (∀ fn : Fn, s.opens fn (lanePage l) 0x180 = true → s.isOn .LAN_MBX_CTRL_send l = false →
      (s.laneMode l = 1 → s.get .LAN_MODE_index l = 0 → s.get .LAN_STATUS_tx_now l = 0 → s.get .LANX_TX_TARGET l = 0 →
        (s.get .LAN_MBX_TXLEN l % 4 = 0 → 4 ≤ s.get .LAN_MBX_TXLEN l → s.get .LAN_MBX_TXLEN l ≤ 512 → Answers (.mailboxSend fn l) s (fun t =>
          t.isOn .LAN_MBX_CTRL_send l = true ∧ t.out = s.out ++ [.control l (s.mbxBody l (s.get .LAN_MBX_TXLEN l))] ∧
          State.Only [(.LAN_MBX_CTRL_send, l, 0)] s t)) ∧
        ((s.get .LAN_MBX_TXLEN l % 4 ≠ 0 ∨ s.get .LAN_MBX_TXLEN l < 4 ∨ 512 < s.get .LAN_MBX_TXLEN l) →
          Answers (.mailboxSend fn l) s (fun t => State.Refuses s t (lanePage l) fn 0x180 0x16))) ∧
      ((s.laneMode l ≠ 1 ∨ s.get .LAN_MODE_index l ≠ 0 ∨ s.get .LAN_STATUS_tx_now l ≠ 0 ∨ s.get .LANX_TX_TARGET l ≠ 0) →
        Answers (.mailboxSend fn l) s (fun t => State.Refuses s t (lanePage l) fn 0x180 0x12))) ∧
    (s.awake = true → s.isOn .LAN_MBX_CTRL_send l = true → Answers (.mbxTxDone l) s (fun t =>
      t.get .LAN_MBX_CTRL_send l = 0 ∧ t.event (lanePage l) evMbxTxDone = true))

/-- Power, polarity, training and speed of a lane (R72 to R77): LANE_POWER_WRITE stores the states and gives the lane its targets, and is refused with
0x14 on a lane that is retired or disabled; a wake that has ended is an event; a slip counts one; POL_FLIP inverts the correction and is an event
while the lane is locked; a RAW word of an active receiver is shown and compared with the training word; an AUTO receiver without lock goes on to the next speed.
Choices of the model in it: assumption log 2, 5, 46. -/
def Obligations.LanesAdapt : Prop :=
  ∀ (l : Lane) (s : State),
    (∀ (fn : Fn) (rx tx : Power), s.opens fn (lanePage l) 0x110 = true →
      (s.laneRetired l = false → s.isOn (.CTRL_enable .lan) l = true → Answers (.lanePowerWrite fn l rx tx) s (fun t =>
        t.get .LAN_PWR_rx l = Power.code rx ∧ t.get .LAN_PWR_tx l = Power.code tx ∧ t.get .LANX_RX_TARGET l = Power.code rx ∧
        t.get .LANX_TX_TARGET l = Power.code tx ∧ (s.get .LAN_STATUS_rx_now l < Power.code rx → t.get .LAN_STATUS_rx_now l = Power.code rx))) ∧
      ((s.laneRetired l = true ∨ s.isOn (.CTRL_enable .lan) l = false) →
        Answers (.lanePowerWrite fn l rx tx) s (fun t => State.Refuses s t (lanePage l) fn 0x110 0x14))) ∧
    (s.awake = true → s.get .LANX_TX_TARGET l < s.get .LAN_STATUS_tx_now l → Answers (.laneWakeEnd l) s (fun t =>
      t.event (lanePage l) evWakeDone = true ∧ t.get .LAN_STATUS_tx_now l = s.get .LANX_TX_TARGET l % 2 ^ Fld.LAN_STATUS_tx_now.width ∧
      State.Only ((.LAN_STATUS_tx_now, l.val, 0) :: (.LAN_STATUS_rx_now, l.val, 0) :: (.LAN_STATUS_waking, l.val, 0) :: evtCells (lanePage l)) s t)) ∧
    (∀ fn : Fn, s.opens fn (lanePage l) 0x118 = true → Answers (.laneSlip fn l) s (fun t =>
      t.get .LANX_SLIPS l = (s.get .LANX_SLIPS l + 1) % 2 ^ Fld.LANX_SLIPS.width ∧ State.Only [(.LANX_SLIPS, l, 0)] s t)) ∧
    (s.awake = true → s.laneMode l ≠ 0 → (s.get .LAN_STATUS_rx_now l ≠ 2 ∨ s.get .LANX_RX_TARGET l ≠ 2) → s.isOn .LAN_POL_rx_auto l = true →
      Answers (.polFlip l) s (fun t => t.get .LAN_POL_rx_inverted l = (1 - s.get .LAN_POL_rx_inverted l) % 2 ∧
        (s.isOn .LAN_STATUS_locked l = true → t.event (lanePage l) evPolFlip = true) ∧
        (s.isOn .LAN_STATUS_locked l = false → State.Only [(.LAN_POL_rx_inverted, l, 0)] s t))) ∧
    (s.awake = true → s.laneMode l = 2 → s.get .LAN_STATUS_rx_now l = 0 → ∀ w : Nat, Answers (.trainMatch l w) s (fun t =>
      let n := 2 ^ s.get .LAN_RAW_CFG_word_bits l
      t.get .LAN_RAW_WORD l = w % n % 2 ^ Fld.LAN_RAW_WORD.width ∧
      (w % n = s.get .LAN_RAW_TRAIN l % n → t.get .LAN_STATUS_train_match l = 1 ∧ t.event (lanePage l) evTrainMatch = true) ∧
      (w % n ≠ s.get .LAN_RAW_TRAIN l % n → w % n = n - 1 - s.get .LAN_RAW_TRAIN l % n →
        t.get .LAN_STATUS_train_match_inv l = 1 ∧ t.event (lanePage l) evTrainMatch = true) ∧
      (w % n ≠ s.get .LAN_RAW_TRAIN l % n → w % n ≠ n - 1 - s.get .LAN_RAW_TRAIN l % n → State.Only [(.LAN_RAW_WORD, l, 0)] s t))) ∧
    (s.awake = true → s.laneMode l = 1 → s.get .LAN_RATE_cxp_speed l = 0 → s.isOn .LAN_STATUS_locked l = false → s.get .LANX_RX_TARGET l < 2 →
      Answers (.cxpDiscoveryStep l) s (fun t => t.get .LANX_TRY_SPEED l =
        (if 1 ≤ s.get .LANX_TRY_SPEED l ∧ s.get .LANX_TRY_SPEED l < 7 then s.get .LANX_TRY_SPEED l + 1 else 1) ∧
        State.Only [(.LANX_TRY_SPEED, l, 0)] s t))

/-- CODE_ERROR counts on a working lane, and where the window's count reaches the threshold CODE_BURST is raised once in the window (R78); the end of an
error window starts every count of a window again (R567).
Choices of the model in it: assumption log 5, 6, 44. -/
def Obligations.ErrorWindowsCount : Prop :=
  (∀ (l : Lane) (s : State), s.awake = true → s.laneMode l ≠ 0 → s.get .LAN_STATUS_rx_now l ≠ 2 →
    (s.get .LANX_WIN_ERRORS l + 1 < s.get .LAN_BURST_CFG_threshold l ∨ s.isOn .LANX_BURST l = true → Answers (.codeError l) s (fun t =>
      t.get .LAN_ERR_CODE l = satAdd Fld.LAN_ERR_CODE.width (s.get .LAN_ERR_CODE l) 1 ∧
      t.get .LANX_WIN_ERRORS l = (s.get .LANX_WIN_ERRORS l + 1) % 2 ^ Fld.LANX_WIN_ERRORS.width ∧ t.get (.EVT_STATUS .lan) l = s.get (.EVT_STATUS .lan) l)) ∧
    (s.get .LAN_BURST_CFG_threshold l ≤ s.get .LANX_WIN_ERRORS l + 1 → s.isOn .LANX_BURST l = false → Answers (.codeError l) s (fun t =>
      t.event (lanePage l) evCodeBurst = true ∧ t.isOn .LANX_BURST l = true))) ∧
  (∀ s : State, s.awake = true → s.windowEnd.isSome = true → Answers .errorWindowEnd s (fun t =>
    s.tick ≤ t.tick ∧ (∀ l, l < 24 → t.get .LANX_WIN_ERRORS l = 0 ∧ t.get .LANX_BURST l = 0) ∧
    (∀ k, k < 64 → t.get .PCX_WIN_CE k = 0 ∧ t.get .PCX_CE_DONE k = 0) ∧ (∀ k, k < 72 → t.get .CLUX_WIN_CE k = 0 ∧ t.get .CLUX_CE_DONE k = 0) ∧
    t.get .FWNX_WIN_CE = 0 ∧ t.get .ATNX_WIN_CE = 0))

/-! ## Peer groups -/

/-- Enabling and training a peer group (R80, R82, R83): the enable is refused with 0x13 over a lane in use and with 0x15 over a third group, and else gives the
four lanes to the group; LOCK, ALIGN and HELLO follow each other, and lateness, disorder and a lost lane lead to FAIL or DOWN with
their events.
Choices of the model in it: assumption log 2, 4, 47. -/
def Obligations.PeerGroupsTrain : Prop :=
  ∀ (g : Group) (s : State),
    (∀ fn : Fn, s.opens fn (peerPage g) 0x100 = true → s.isOn .LAN_PEER_CTRL_enable g = false →
      ((∃ i, i < 4 ∧ s.get .LAN_MODE_mode (4 * g + i) ≠ 0) → Answers (.peerGroupEnable fn g) s (fun t => State.Refuses s t (peerPage g) fn 0x100 0x13)) ∧
      ((∀ i, i < 4 → s.get .LAN_MODE_mode (4 * g + i) = 0) → 3 ≤ ((List.range 6).filter (fun k => s.isOn .LAN_PEER_CTRL_enable k)).length →
        Answers (.peerGroupEnable fn g) s (fun t => State.Refuses s t (peerPage g) fn 0x100 0x15)) ∧
      ((∀ i, i < 4 → s.get .LAN_MODE_mode (4 * g + i) = 0) → ((List.range 6).filter (fun k => s.isOn .LAN_PEER_CTRL_enable k)).length < 3 →
        Answers (.peerGroupEnable fn g) s (fun t => t.isOn .LAN_PEER_CTRL_enable g = true ∧ (∀ i, i < 4 → t.get .LAN_MODE_mode (4 * g + i) = 3) ∧
          ((∀ i, i < 4 → s.laneRetired (4 * g + i) = false) → t.peerState g = 1)))) ∧
    (∀ fn : Fn, s.opens fn (peerPage g) 0x100 = true →
      ((s.peerState g = 0 ∨ s.peerState g = 5) → s.peerTrainable g = true → Answers (.peerTrain fn g) s (fun t => t.peerState g = 1 ∧
        State.Only [(.LAN_PEER_STATUS_state, g, 0), (.LAN_PEER_CTRL_train, g, 0), (.LAN_PEER_STATUS_reversed, g, 0),
          (.LAN_PEER_STATUS_lane_lock, g, 0)] { s with peers := t.peers } t)) ∧
      (s.peerState g ≠ 0 → s.peerState g ≠ 5 → exec (.peerTrain fn g) s = .next s)) ∧
    (s.awake = true →
      (s.peerState g = 1 → Answers (.peerBlockLock g) s (fun t => t.peerState g = 2 ∧ t.get .LAN_PEER_STATUS_lane_lock g = 15 ∧
        State.Only [(.LAN_PEER_STATUS_state, g, 0), (.LAN_PEER_STATUS_lane_lock, g, 0)] s t)) ∧
      (s.peerState g = 1 → s.isOn .LAN_PEER_CFG_manual_align g = false → Answers (.peerLockTimeout g) s (fun t =>
        t.peerState g = 5 ∧ t.event (peerPage g) 2 = true)) ∧
      (s.peerState g = 2 → ∀ (order : List Nat) (skew : Nat),
        (order = [0, 1, 2, 3] ∨ order = [3, 2, 1, 0] → skew ≤ 40000 → Answers (.peerMarkersFound g order skew) s (fun t => t.peerState g = 3 ∧
          t.get .LAN_PEER_STATUS_reversed g = (if order = [3, 2, 1, 0] then 1 else 0) ∧
          State.Only [(.LAN_PEER_STATUS_state, g, 0), (.LAN_PEER_STATUS_reversed, g, 0)] s t)) ∧
        ((order ≠ [0, 1, 2, 3] ∧ order ≠ [3, 2, 1, 0]) ∨ 40000 < skew → Answers (.peerMarkersFound g order skew) s (fun t =>
          t.peerState g = 5 ∧ t.event (peerPage g) 3 = true))) ∧
      (s.peerState g = 3 → Answers (.helloTimeout g) s (fun t => t.peerState g = 5 ∧ t.event (peerPage g) 4 = true)) ∧
      (s.peerState g = 0 → s.peerTrainable g = true → Answers (.peerRetrainDelay g) s (fun t => t.peerState g = 1)) ∧
      (s.peerState g = 4 → ∀ q : Quad, Answers (.peerLaneLockLost g q) s (fun t => t.peerState g = 0 ∧ t.event (peerPage g) 1 = true)))

/-- HELLO (R80, R85, R87): a group in the HELLO state sends its serial number, group, rate, error mode and version; a HELLO with a wrong CRC is counted;
one that agrees and comes from no device that another group reaches brings the group UP, any other FAIL.
Choices of the model in it: assumption log 2, 49. -/
def Obligations.PeerGroupsGreet : Prop :=
  ∀ (g : Group) (s : State), s.awake = true → s.peerState g = 3 →
    Answers (.helloSend g) s (fun t => t.get .LAN_PEER_TX g = satAdd Fld.LAN_PEER_TX.width (s.get .LAN_PEER_TX g) 1 ∧
      (∃ f : PeerFrame, t.out = s.out ++ [.peer g f (frameCrc f)] ∧ f.typ = 5 ∧ f.first = true ∧ f.last = true ∧ f.seq = 0 ∧ f.length = 16 ∧
        f.payload = (s.helloBytes g).map (BitVec.ofNat 8)) ∧
      State.Only [(.LAN_PEER_TX, g, 0)] s t) ∧
    ∀ (f : PeerFrame) (crc : Nat),
      (crc ≠ frameCrc f → Answers (.helloFrame g f crc) s (fun t =>
        t.get .LAN_PEER_CRC g = satAdd Fld.LAN_PEER_CRC.width (s.get .LAN_PEER_CRC g) 1 ∧ State.Only [(.LAN_PEER_CRC, g, 0)] s t)) ∧
      (let b := frameBytes f
       let agrees := b.getD 9 0 = s.get .LAN_PEER_CFG_rate g ∧ b.getD 10 0 = b2n (s.peer g).drop ∧ b.getD 11 0 = 1 ∧ s.peerTaken g (ofLe (b.take 8)) = false
       crc = frameCrc f → Answers (.helloFrame g f crc) s (fun t =>
        t.get .LAN_PEER_RX g = satAdd Fld.LAN_PEER_RX.width (s.get .LAN_PEER_RX g) 1 ∧
        t.get .LAN_PEER_REMOTE_serial g = ofLe (b.take 8) % 2 ^ Fld.LAN_PEER_REMOTE_serial.width ∧
        (agrees → t.peerState g = 4 ∧ t.event (peerPage g) 0 = true) ∧ (¬ agrees → t.peerState g = 5 ∧ t.event (peerPage g) 4 = true)))

/-- The four messages of a group (R86 to R90): a group that is not UP takes no frame; under RETRY a wrong CRC is counted and a frame in order that is not the last of its
message is counted and kept; under DROP a wrong CRC drops the frame; and the frame that completes a message gives it to the block
that the type names.
Choices of the model in it: assumption log 4, 48. -/
def Obligations.PeerMessagesArrive : Prop :=
  ∀ (g : Group) (f : PeerFrame) (crc : Nat) (s : State) (c : Instr) (act : State → PeerMsg → State), s.awake = true →
    ((c = .peerStripeFrame g f crc ∧ f.typ = 1 ∧ act = fun s m => s.peerStripe g m) ∨
      (c = .peerVerdictFrame g f crc ∧ f.typ = 2 ∧ act = fun s m => s.peerVerdict g m) ∨
      (c = .kvpageFrame g f crc ∧ f.typ = 3 ∧ act = fun s m => s.kvPage g m) ∨
      (c = .kvreqFrame g f crc ∧ f.typ = 4 ∧ act = fun s m => s.kvReq g m)) →
    (s.peerIsUp g = false → exec c s = .next s) ∧
    (s.peerIsUp g = true → (s.peer g).drop = false →
      (crc ≠ frameCrc f → Answers c s (fun t => t.get .LAN_PEER_CRC g = satAdd Fld.LAN_PEER_CRC.width (s.get .LAN_PEER_CRC g) 1 ∧
        State.Only [(.LAN_PEER_CRC, g, 0), (.LAN_PEER_TX, g, 0)] { s with peers := t.peers } t)) ∧
      (crc = frameCrc f → f.seq = (s.peer g).expect → f.last = false → Answers c s (fun t =>
        t.get .LAN_PEER_RX g = satAdd Fld.LAN_PEER_RX.width (s.get .LAN_PEER_RX g) 1 ∧
        State.Only [(.LAN_PEER_RX, g, 0), (.LAN_PEER_TX, g, 0)] { s with peers := t.peers } t))) ∧
    (s.peerIsUp g = true → (s.peer g).drop = true → crc ≠ frameCrc f → Answers c s (fun t =>
      t.get .LAN_PEER_DROP g = satAdd Fld.LAN_PEER_DROP.width (s.get .LAN_PEER_DROP g) 1 ∧ t.event (peerPage g) 7 = true ∧
      t.get .LAN_PEER_CRC g = satAdd Fld.LAN_PEER_CRC.width (s.get .LAN_PEER_CRC g) 1)) ∧
    (∀ m, (s.peerReceive g f crc).2 = some m → exec c s = .next (act (s.peerReceive g f crc).1 m))

/-- The frames and timers that carry no message (R88, R89): a wrong CRC is counted; an ACK ends the wait of the frames it covers; a NAK and a replay timeout
send every frame again that is not acknowledged, and the ninth in a row takes the group down; a CREDIT gives its counts; credits and
acknowledgements are sent as frames of their own.
Choices of the model in it: assumption log 4, 48. -/
def Obligations.PeerGroupsAcknowledge : Prop :=
  ∀ (g : Group) (s : State), s.awake = true → s.peerIsUp g = true →
    (∀ (f : PeerFrame) (crc : Nat) (c : Instr), (c = .ackFrame g f crc ∨ c = .nakFrame g f crc ∨ c = .creditFrame g f crc) → crc ≠ frameCrc f →
      Answers c s (fun t => t.get .LAN_PEER_CRC g = satAdd Fld.LAN_PEER_CRC.width (s.get .LAN_PEER_CRC g) 1 ∧
        State.Only [(.LAN_PEER_CRC, g, 0)] s t)) ∧
    (∀ f : PeerFrame, s.attn = [] → (s.peer g).waiting = [] → (unackedAfter (s.peer g).unacked f.ackSeq).length ≠ (s.peer g).unacked.length →
      Answers (.ackFrame g f (frameCrc f)) s (fun t =>
        t.peers = listMod s.peers g (fun p => { p with unacked := unackedAfter (s.peer g).unacked f.ackSeq, resends := 0 }) ∧
        t.get .LAN_PEER_RX g = satAdd Fld.LAN_PEER_RX.width (s.get .LAN_PEER_RX g) 1)) ∧
    (∀ (f : PeerFrame) (c : Instr), (c = .nakFrame g f (frameCrc f) ∨ (c = .replayTimeout g ∧ (s.peer g).drop = false)) → (s.peer g).unacked ≠ [] →
      ((s.peer g).resends < 8 → Answers c s (fun t => t.event (peerPage g) 5 = true ∧
        (s.peer g).unacked.map (fun f => Output.peer g f (frameCrc f)) <:+ t.out)) ∧
      (8 ≤ (s.peer g).resends → Answers c s (fun t => t.event (peerPage g) 6 = true ∧ t.event (peerPage g) 1 = true ∧ t.peerState g = 0))) ∧
    (∀ f : PeerFrame, (s.peer g).waiting = [] → Answers (.creditFrame g f (frameCrc f)) s (fun t =>
      t.peers = listMod s.peers g (fun p => { p with freedIn := leBytes 4 f.tag }) ∧
      State.Only [(.LAN_PEER_RX, g, 0)] { s with peers := t.peers } t)) ∧
    Answers (.creditSend g) s (fun t => let l := (s.peer g).freedOut
      t.out = s.out ++ [.peer g (bareFrame 10 0 (ofLe [l.getD 0 0, l.getD 1 0, l.getD 2 0, l.getD 3 0]))
        (frameCrc (bareFrame 10 0 (ofLe [l.getD 0 0, l.getD 1 0, l.getD 2 0, l.getD 3 0])))] ∧ State.Only [(.LAN_PEER_TX, g, 0)] s t) ∧
    ((s.peer g).drop = false → (s.peer g).sinceAck ≠ 0 → Answers (.ackTimer g) s (fun t =>
      let f := bareFrame 8 (((s.peer g).expect + 65535) % 65536) 0
      t.out = s.out ++ [.peer g f (frameCrc f)] ∧ t.peers = listMod s.peers g (fun p => { p with sinceAck := 0 }) ∧
      State.Only [(.LAN_PEER_TX, g, 0)] { s with peers := t.peers } t))

/-! ## Capture -/

/-- Lines of a camera (R19, R66, R103, R109, R111, R347): a camera that delivers no lines changes nothing; the capture units that name it take the time and the
position of an arrival; under triggers a line takes the tags of its open window and ends it, or belongs to none; a line of a wrong length is counted
once; and a line that no window expected is long in every context that takes the camera.
Choices of the model in it: assumption log 2, 4, 53. -/
def Obligations.LinesArriveAndComplete : Prop :=
  ∀ (n : Cam) (s : State), s.awake = true →
    (∀ fs ok : Bool, s.camDelivers n = false → exec (.lineArrival n fs ok) s = .next s) ∧
    (∀ fs ok : Bool, s.camDelivers n = true → Answers (.lineArrival n fs ok) s (fun t =>
      ∀ k, k < 16 → s.get .TIM_CAP_CFG_src 0 k = 3 → s.get .TIM_CAP_CFG_sel 0 k = n →
        t.get .TIM_CAP_SEC 0 k = s.sec % 2 ^ Fld.TIM_CAP_SEC.width ∧ t.get .TIM_CAP_NS 0 k = s.ns % 2 ^ Fld.TIM_CAP_NS.width)) ∧
    (∀ fs : Bool, s.camDelivers n = true → (s.camFeeds n).isEmpty = false → s.get .CAP_TRIG_MODE_mode 0 n ≠ 0 → (s.cam n).wins ≠ [] →
      (∀ w ∈ (s.cam n).wins, s.sec * 10 ^ 9 + s.ns < w.closes) → Answers (.lineArrival n fs true) s (fun t =>
        match (s.cam n).wins.find? (fun w => w.opens ≤ s.sec * 10 ^ 9 + s.ns) with
        | some w => (∃ ps, (t.cam n).line = some { tag := w.tag, places := ps, beyond := [], noWindow := false }) ∧
            (t.cam n).wins = (s.cam n).wins.erase w
        | none => (t.cam n).line = some { tag := ⟨s.beltPos, s.sec, s.ns⟩, places := [], beyond := [], noWindow := true } ∧
            (t.cam n).wins = (s.cam n).wins)) ∧
    (∀ l : List Nat, (s.cam n).line = none → exec (.lineComplete n l) s = .next s) ∧
    (∀ (l : List Nat) (x : LineIn), (s.cam n).line = some x →
      (l.length ≠ s.camWidth n * s.get .CAP_CAM_FMT_channels 0 n → Answers (.lineComplete n l) s (fun t =>
        t.get .CAP_CNT_BADLEN 0 n = satAdd Fld.CAP_CNT_BADLEN.width (s.get .CAP_CNT_BADLEN 0 n) 1)) ∧
      (l.length = s.camWidth n * s.get .CAP_CAM_FMT_channels 0 n → x.noWindow = true → x.beyond = [] → x.places = [] →
        Answers (.lineComplete n l) s (fun t => (t.cam n).line = none ∧ ∀ f ∈ s.camFeeds n, t.event (capPage f.1) 1 = true)))

/-- The intervals of CAP (R103, R114): a pairing window closes at its time and its slot is empty from then on; the close time of a group closes its oldest stripe whose
last slots are past. With nothing due both change nothing. The clock running to the interval's end is the model's choice (assumption log).
Choices of the model in it: assumption log 4, 6, 52. -/
def Obligations.CaptureIntervalsEnd : Prop :=
  (∀ (n : Cam) (s : State), s.awake = true →
    ((s.cam n).wins = [] → exec (.pairingWindowExpiry n) s = .next s) ∧
    (∀ w, earliest ((s.cam n).wins.map (fun x => x.closes)) = some w → exec (.pairingWindowExpiry n) s = .next ((s.runToNs w).expireDue n) ∧
      (∀ x ∈ (s.cam n).wins, w ≤ x.closes))) ∧
  (∀ (c : Ctx) (s : State), s.awake = true →
    (s.groupDue c = none → exec (.groupAlignTimeout c) s = .next s) ∧
    (∀ o k, s.groupDue c = some (o, k) → exec (.groupAlignTimeout c) s = .next ((s.runTo k).groupTimeout c o) ∧
      k = (o.parts.map (fun p => p.lastTick.getD 0)).foldl max 0 + s.get .CAP_GRP_ALIGN_align_us c * 400))

/-- Settling, reprocessing and the ring (R117, R121, R122, R123): SETTLE_FORCE arms settling with its event; REPLAY_PUSH queues the address, or is refused with 0x23 over 16;
a slot that does not pass the check is RP_BAD, a sound one is a stripe of the context and counts; RP_DONE follows the last; a ring write that is done leaves
the list of writes.
Choices of the model in it: assumption log 4. -/
def Obligations.CaptureRingAndReplay : Prop :=
  (∀ (fn : Fn) (n : Cam) (s : State), s.opens fn capShared (0x118 + n * 0x20) = true → Answers (.settleForce fn n) s (fun t =>
    t.event capShared 1 = true ∧ State.Only (evtCells capShared) { s with cap := t.cap } t)) ∧
  (∀ (fn : Fn) (c : Ctx) (s : State), s.opens fn (capPage c) 0x158 = true →
    ((s.capCtx c).replay.length < 16 → exec (.replayPush fn c) s =
      .next (s.modCtx c (fun x => { x with replay := x.replay ++ [s.get .CAP_RP_ADDR c] }))) ∧
    (16 ≤ (s.capCtx c).replay.length → Answers (.replayPush fn c) s (fun t => State.Refuses s t (capPage c) fn 0x158 0x23))) ∧
  (∀ (c : Ctx) (s : State), s.awake = true →
    ((s.capCtx c).running = false ∨ (s.capCtx c).kind ≠ 2 ∨ (s.capCtx c).replay = [] → exec (.replaySlotRead c) s = .next s) ∧
    ((s.capCtx c).running = true → (s.capCtx c).kind = 2 → ∀ a rest, (s.capCtx c).replay = a :: rest →
      (slotOk (s.devRead a 256) (s.get .CAP_RING_CFG_slot_kib c * 1024) = false → Answers (.replaySlotRead c) s (fun t =>
        t.event (capPage c) 5 = true ∧ (t.capCtx c).replay = rest ∧ (rest = [] → t.event (capPage c) 4 = true))) ∧
      (let r := slotParse (s.devRead a 256) (fun off n => s.devRead (a + off) n)
       slotOk (s.devRead a 256) (s.get .CAP_RING_CFG_slot_kib c * 1024) = true → s.hasBad a 256 = false → s.hasBad a r.size = false →
        Answers (.replaySlotRead c) s (fun t => (t.capCtx c).replay = rest ∧ t.lnp.notices = s.lnp.notices ++ [s.adopt c r 16] ∧
          t.get .CAP_STRIPE_NO c = (s.get .CAP_STRIPE_NO c + 1) % 2 ^ 32 ∧ (rest = [] → t.event (capPage c) 4 = true)))) ∧
    (∀ r rest, (s.capCtx c).writing = r :: rest → Answers (.ringWriteDone c) s (fun t => (t.capCtx c).writing = rest)) ∧
    ((s.capCtx c).writing = [] → exec (.ringWriteDone c) s = .next s))

/-! ## Line correction -/

/-- Notices and credits (R24, R129, R134): a notice leaves the notices, and one that the intake buffer does not hold is counted with its event; a credit that returns is free
when no stripe waits for it; the hold limit that ends first spills at its time (the clock runs there: the model's choice, assumption log).
Choices of the model in it: assumption log 4, 6, 52. -/
def Obligations.LineNoticesAndCredits : Prop :=
  ∀ (c : Ctx) (s : State), s.awake = true →
    (s.lnp.notices.find? (fun r => r.ctx == c.val) = none → exec (.lnpNotice c) s = .next s) ∧
    (∀ r, s.lnp.notices.find? (fun r => r.ctx == c.val) = some r → Answers (.lnpNotice c) s (fun t =>
      (s.intakeUsed + r.rowsBytes ≤ 8 * 2 ^ 20 → t.get .LNP_CNT_INTAKE_FULL = s.get .LNP_CNT_INTAKE_FULL) ∧
      (8 * 2 ^ 20 < s.intakeUsed + r.rowsBytes → t.get .LNP_CNT_INTAKE_FULL = satAdd Fld.LNP_CNT_INTAKE_FULL.width (s.get .LNP_CNT_INTAKE_FULL) 1 ∧
        t.event lnpGlobal 0 = true) ∧
      t.lnp.notices = s.lnp.notices.eraseP (fun y => y.ctx == c.val))) ∧
    ((s.lnpCtx c).returning = 0 → exec (.creditReturn c) s = .next s) ∧
    ((s.lnpCtx c).returning ≠ 0 → (s.lnpCtx c).stripes = [] → Answers (.creditReturn c) s (fun t =>
      (t.lnpCtx c).returning = (s.lnpCtx c).returning - 1 ∧ t.get .LNP_CREDIT_free c = (s.get .LNP_CREDIT_free c + 1) % 2 ^ Fld.LNP_CREDIT_free.width ∧
      State.Only [(.LNP_CREDIT_free, c, 0)] { s with lnp := t.lnp } t)) ∧
    (let wait := (s.lnpCtx c).stripes.filter (fun x => !x.credit && !x.spilled && !bit x.stripe.flags 4)
     (wait = [] → exec (.holdLimitExpiry c) s = .next s) ∧
     (∀ w, earliest (wait.map (fun x => x.notice + x.limit)) = some w → exec (.holdLimitExpiry c) s = .next ((s.runToNs w).spillDue c) ∧
       ∀ x ∈ wait, w ≤ x.notice + x.limit))

/-- The pipeline (R130, R131, R136, R139, R152): the table block goes to the context's oldest stripe with a credit; a stripe begins only while the pipeline is free and its table is
there; one whose settings set is gone is lost and counted; one that can be corrected makes the pipeline busy with it; a stripe that is
done is counted and shown, and the pipeline is free.
Choices of the model in it: assumption log 4, 54. -/
def Obligations.LinePipelineRuns : Prop :=
  (∀ (c : Ctx) (s : State), s.awake = true →
    ((s.lnpCtx c).stripes.find? (fun x => x.credit) = none → exec (.tableBlockArrived c) s = .next s) ∧
    (∀ x, (s.lnpCtx c).stripes.find? (fun x => x.credit) = some x →
      exec (.tableBlockArrived c) s = .next (s.modLnp c (fun y => { y with table := some x.gen })))) ∧
  (∀ s : State, s.awake = true →
    ((s.lnp.busy.isSome = true ∨ s.lnpNext = none) → exec .lnpStripeBegin s = .next s) ∧
    (∀ c x, s.lnp.busy = none → s.lnpNext = some (c, x) →
      ((s.lnpCtx c).table = none → exec .lnpStripeBegin s = .next s) ∧
      ((s.lnpCtx c).table.isSome = true → let u := s.modLnp c (fun y => { y with table := none })
        (u.lnpHeld c (u.lnpSource c x).1.lnpGen = none → exec .lnpStripeBegin s = .next (u.loseStripe c x 1)) ∧
        (∀ set, u.lnpHeld c (u.lnpSource c x).1.lnpGen = some set → (u.lnpSource c x).2 = false → u.hasBad set.tblBase (set.tblKib * 1024) = false →
          slotBytes set (u.lnpSource c x).1.lines (stripeChannels (u.lnpSource c x).1).length ≤ s.get .LNP_LB_CFG_slot_kib c * 1024 →
          Answers .lnpStripeBegin s (fun t => (∃ b, t.lnp.busy = some b ∧ b.ctx = c ∧ b.stripe.order = x.order) ∧ t.lnp.lastCtx = some c)))) ∧
    (∀ b, s.lnp.busy = some b → Answers .lnpStripeDone s (fun t => t.lnp.busy = none ∧
      t.get .LNP_CNT_STRIPES b.ctx = satAdd Fld.LNP_CNT_STRIPES.width (s.get .LNP_CNT_STRIPES b.ctx) 1 ∧
      t.get .LNP_STRIPE_DONE b.ctx = b.stripe.stripe.no % 2 ^ Fld.LNP_STRIPE_DONE.width)))

/-! ## Registers and memory as the host reaches them -/

/-- How registers take writes and give reads (R9, R10): the low word of a 64-bit register waits and its high word writes it whole, an access of 8
bytes writes it at once, a shadowed register takes the value in its shadow only; a read of a low word latches the high word, and the next
read of the high word returns the latched value.
Choices of the model in it: assumption log 19. -/
def Obligations.RegistersTakeWritesAndReads : Prop :=
  ∀ (fn : Fn) (c : Ctx) (s : State), s.opens fn (capPage c) 0x150 = true →
    (∀ v : BitVec 64, v.toNat < 2 ^ 32 → exec (.registerWrite fn ((capPage c).base + 0x150) 4 v) s =
      .next { s with lowWrites := ((capPage c).base + 0x150, v.toNat) :: s.lowWrites.filter (fun x => x.1 != (capPage c).base + 0x150) }) ∧
    (∀ (v : BitVec 64) (lo : Nat), v.toNat < 2 ^ 32 → lo < 2 ^ 32 →
      s.lowWrites.find? (fun x => x.1 == (capPage c).base + 0x150) = some ((capPage c).base + 0x150, lo) →
      Answers (.registerWrite fn ((capPage c).base + 0x154) 4 v) s (fun t => t.get .CAP_RP_ADDR c = lo + 2 ^ 32 * v.toNat ∧
        State.Only [(.CAP_RP_ADDR, c, 0)] { s with lowWrites := t.lowWrites } t)) ∧
    (∀ v : BitVec 64, Answers (.registerWrite fn ((capPage c).base + 0x150) 8 v) s (fun t => t.get .CAP_RP_ADDR c = v.toNat ∧
      State.Only [(.CAP_RP_ADDR, c, 0)] { s with lowWrites := t.lowWrites } t)) ∧
    (∀ v : BitVec 64, Answers (.registerWrite fn ((capPage c).base + 0x128) 8 v) s (fun t => t.getShadow .CAP_RING_BASE c = v.toNat ∧
      t.regs = s.regs ∧ t = { s with shadow := t.shadow, lowWrites := t.lowWrites })) ∧
    (∀ off, off % 4 = 0 →
      (∀ h, s.highReads.find? (fun x => x.1 == off) = some h → exec (.lowWordRead fn off) s =
        .next { s with highReads := s.highReads.filter (fun x => x.1 != off), out := s.out ++ [.readData fn off h.2] }) ∧
      (s.highReads.find? (fun x => x.1 == off) = none → s.lowOf off = true → exec (.lowWordRead fn off) s =
        .next { s with highReads := (latchedBy off).map (fun k => (k, s.bar0Word fn k)) ++
                         s.highReads.filter (fun x => !(latchedBy off).contains x.1)
                       out := s.out ++ [.readData fn off (s.bar0Word fn off)] }) ∧
      (s.highReads.find? (fun x => x.1 == off) = none → s.lowOf off = false → exec (.lowWordRead fn off) s =
        .next { s with out := s.out ++ [.readData fn off (s.bar0Word fn off)] })) ∧
    s.lowOf ((capPage c).base + 0x150) = true ∧ s.bar0Word fn ((capPage c).base + 0x150) = s.get .CAP_RP_ADDR c % 2 ^ 32 ∧
    s.bar0Word fn ((capPage c).base + 0x154) = s.get .CAP_RP_ADDR c / 2 ^ 32 % 2 ^ 32

/-- The block of a partition on the CMD page (R410, R411, R429): the deadline is a plain register; a change of the configuration or of the
cluster set whose check passes takes effect, and one that fails is discarded with its code, 0xC0 to 0xC3.
Choices of the model in it: assumption log 2, 20. -/
def Obligations.PartitionsAreConfigured : Prop :=
  ∀ (fn : Fn) (p : Part) (s : State), s.opens fn cmdGlobal (0x100 + p * 0x20) = true →
    (∀ v : BitVec 32, Answers (.partitionConfigWrite fn p (.deadline v)) s (fun t => t.get .CMD_PART_DEADLINE 0 p = v.toNat ∧
      State.Only [(.CMD_PART_DEADLINE, 0, p)] s t)) ∧
    (∀ v : BitVec 64,
      (partRefused s (s.set .CMD_PART_CLU 0 p v.toNat) p = none → Answers (.partitionConfigWrite fn p (.clusters v)) s (fun t =>
        t.get .CMD_PART_CLU 0 p = v.toNat ∧ State.Only [(.CMD_PART_CLU, 0, p)] { s with lowWrites := t.lowWrites } t)) ∧
      (∀ x, partRefused s (s.set .CMD_PART_CLU 0 p v.toNat) p = some x → s.get .CMD_PART_CLU 0 p ≠ v.toNat → 0xC0 ≤ x ∧ x ≤ 0xC3 ∧
        Answers (.partitionConfigWrite fn p (.clusters v)) s (fun t =>
          State.Refuses { s with lowWrites := t.lowWrites } t cmdGlobal fn (0x10C + p * 0x20) x))) ∧
    (∀ v : BitVec 32, 1 ≤ bits v.toNat 26 16 → bits v.toNat 26 16 ≤ 1024 →
      (partRefused s (s.plainWrite cmdGlobal (0x100 + p * 0x20) v.toNat) p = none → Answers (.partitionConfigWrite fn p (.cfg v)) s (fun t =>
        t.isOn .CMD_PART_CFG_enable 0 p = bit v.toNat 0 ∧ t.isOn .CMD_PART_CFG_class 0 p = bit v.toNat 1 ∧
        t.isOn .CMD_PART_CFG_auto_restart 0 p = bit v.toNat 2 ∧ t.get .CMD_PART_CFG_atn 0 p = bits v.toNat 15 8 ∧
        t.get .CMD_PART_CFG_jobs 0 p = bits v.toNat 26 16 ∧
        State.Only ([Fld.CMD_PART_CFG_enable, .CMD_PART_CFG_class, .CMD_PART_CFG_auto_restart, .CMD_PART_CFG_atn, .CMD_PART_CFG_jobs].map
          (fun f => (f, 0, p.val))) s t)) ∧
      (∀ x, partRefused s (s.plainWrite cmdGlobal (0x100 + p * 0x20) v.toNat) p = some x → s.isOn .CMD_PART_CFG_enable 0 p ≠ bit v.toNat 0 →
        0xC0 ≤ x ∧ x ≤ 0xC3 ∧ Answers (.partitionConfigWrite fn p (.cfg v)) s (fun t => State.Refuses s t cmdGlobal fn (0x100 + p * 0x20) x)))

/-- BAR2 reaches the function's window of HBM (R42, R294, R313, R314): a whole aligned word that is taken is read back, is no longer uncorrectable, and every byte
of HBM outside it stays; a write of no taken byte leaves HBM and raises OWN_DENY; a word is read as it stands, an uncorrectable one as ones and
counted for the function, one outside the window as 0. The data stand among the outputs right after those that were there.
Choices of the model in it: assumption log 24, 25, 26. -/
def Obligations.HostReachesItsMemory : Prop :=
  ∀ (fn : Fn) (off : Nat) (s : State), s.linkUp = true → off % 8 = 0 → off + 8 ≤ bar2Size →
    (∀ (data : List Byte) (a : Nat), s.stopped = false → data.length = 8 → s.bar2Addr fn off = some a → a % 8 = 0 →
      (∀ i, i < 8 → s.bar2Takes fn (off + i) = true) → Answers (.bar2Write fn off data) s (fun t =>
        t.devRead a 8 = data.map BitVec.toNat ∧ t.badKeys a 8 = [] ∧
        ∀ key, s.keyOf a = some key → ∀ x, (x < key ∨ key + 8 ≤ x) → memByte t.hbm.bytes x = memByte s.hbm.bytes x)) ∧
    (∀ data : List Byte, s.stopped = false → data ≠ [] → off + data.length ≤ bar2Size →
      (∀ i, i < data.length → s.bar2Takes fn (off + i) = false) →
      Answers (.bar2Write fn off data) s (fun t => t.hbm = s.hbm ∧ t.event hlkPage 0 = true)) ∧
    (∀ data : List Byte, s.stopped = true → exec (.bar2Write fn off data) s = .next s) ∧
    (s.bar2Addr fn off = none → exec (.bar2Read fn off 8) s = .next { s with out := s.out ++ [.bar2Data fn off (List.replicate 8 0)] }) ∧
    (∀ a, s.bar2Addr fn off = some a → s.badKeys a 8 = [] → Answers (.bar2Read fn off 8) s (fun t =>
      (s.out ++ [.bar2Data fn off (s.devRead a 8)]) <+: t.out ∧ t.hbm = s.hbm)) ∧
    (∀ a k, s.bar2Addr fn off = some a → s.badKeys a 8 = [k] → fn ≠ 0 → Answers (.bar2Read fn off 8) s (fun t =>
      (s.out ++ [.bar2Data fn off (List.replicate 8 255)]) <+: t.out ∧ t.hbm = s.hbm ∧ t.event ⟨.memPart, fn.val - 1⟩ 0 = true ∧
      t.get .MEM_CNT_HOST_UE (fn.val - 1) = satAdd Fld.MEM_CNT_HOST_UE.width (s.get .MEM_CNT_HOST_UE (fn.val - 1)) 1))

/-! ## HBM -/

/-- A word that proves uncorrectable is counted with its line, as UE or, for the scrubber, as UE_LATENT (R312, R313, R315), and the
consumer's part follows: a host read is counted for the function, a plan load fails, a replayed stripe is bad.
A correctable error is counted, its line queued for write-back, and CE_THR raised at the threshold once a window; the write-back of the oldest
line of a pseudo-channel is counted and ends its wait; without one nothing happens (R312, R315, R567).
Choices of the model in it: assumption log 2, 4, 83. -/
def Obligations.MemoryErrorsAreCounted : Prop :=
  (∀ (k : Pc) (word : Nat) (by' : Consumer) (s : State), s.awake = true → word < pcWords →
      (by' ≠ .scrubber → Answers (.uncorrectableRead k word by') s (fun t => t.event ⟨.memPc, k⟩ 1 = true ∧
        t.get .MEM_PC_UE k = satAdd Fld.MEM_PC_UE.width (s.get .MEM_PC_UE k) 1 ∧ t.get .MEM_PC_ERR_ADDR_line k = word / 8 ∧
        t.get .MEM_PC_ERR_ADDR_ue k = 1)) ∧
      (by' = .scrubber → Answers (.uncorrectableRead k word by') s (fun t => t.event ⟨.memPc, k⟩ 2 = true ∧
        t.get .MEM_PC_LATENT k = satAdd Fld.MEM_PC_LATENT.width (s.get .MEM_PC_LATENT k) 1 ∧ t.get .MEM_PC_UE k = s.get .MEM_PC_UE k ∧
        (wordKey k word / 8) ∈ t.hbm.bad ∧ t.hbm.bytes = s.hbm.bytes)) ∧
      (∀ fn : Fn, by' = .host fn → fn ≠ 0 → Answers (.uncorrectableRead k word by') s (fun t => t.event ⟨.memPart, fn.val - 1⟩ 0 = true ∧
        t.get .MEM_CNT_HOST_UE (fn.val - 1) = satAdd Fld.MEM_CNT_HOST_UE.width (s.get .MEM_CNT_HOST_UE (fn.val - 1)) 1 ∧
        (wordKey k word / 8) ∈ t.hbm.bad)) ∧
      (∀ (p : Part) (q : PlanSlot) (l : PlanLoad), by' = .plan p q → (s.slotSt p q).load = some l → l.plan = none →
        Answers (.uncorrectableRead k word by') s (fun t => t.event (cmdPage p) 1 = true ∧ t.get .CMD_PLAN_STATUS_load p q = 3 ∧
          (t.get .CMD_PLAN_STATUS_code p q = 0x41 ∨ t.get .CMD_PLAN_STATUS_code p q = 0x4A) ∧ (t.slotSt p q).load = none)) ∧
      (∀ (c : Ctx) x rest, by' = .replay c → (s.capCtx c).replay = x :: rest → Answers (.uncorrectableRead k word by') s (fun t =>
        t.event (capPage c) 5 = true ∧ (t.capCtx c).replay = rest ∧ (rest = [] → t.event (capPage c) 4 = true)))) ∧
  (∀ (k : Pc) (s : State), s.awake = true →
      (∀ line, line < 12582912 → Answers (.correctableRead k line) s (fun t =>
        t.get .MEM_PC_CE k = satAdd Fld.MEM_PC_CE.width (s.get .MEM_PC_CE k) 1 ∧ t.get .MEM_PC_ERR_ADDR_line k = line ∧
        t.get .MEM_PC_ERR_ADDR_ue k = 0 ∧ (k.val * 2 ^ 24 + line) ∈ t.hbm.writeBacks ∧ (k.val * 2 ^ 24 + line) ∉ t.hbm.soft ∧
        t.hbm.bytes = s.hbm.bytes ∧ t.hbm.bad = s.hbm.bad ∧
        (s.get .MEM_PC_CE_THR k ≤ s.get .PCX_WIN_CE k + 1 → s.isOn .PCX_CE_DONE k = false → t.event ⟨.memPc, k⟩ 0 = true) ∧
        (s.pageLine (k.val * 2 ^ 30 + line * 64) = true → t.get .ATN_ECC_CE = satAdd Fld.ATN_ECC_CE.width (s.get .ATN_ECC_CE) 1) ∧
        ((s.get .PCX_WIN_CE k + 1 < s.get .MEM_PC_CE_THR k ∨ s.isOn .PCX_CE_DONE k = true) → s.pageLine (k.val * 2 ^ 30 + line * 64) = false →
          State.Only [(.MEM_PC_CE, k, 0), (.MEM_PC_ERR_ADDR_line, k, 0), (.MEM_PC_ERR_ADDR_ue, k, 0), (.PCX_WIN_CE, k, 0)]
            { s with hbm := t.hbm } t))) ∧
      (∀ l, s.hbm.writeBacks.find? (fun x => x * 64 / 2 ^ 30 == k.val) = some l → Answers (.eccWriteback k) s (fun t =>
        t.get .MEM_PC_WB k = satAdd Fld.MEM_PC_WB.width (s.get .MEM_PC_WB k) 1 ∧
        t.hbm = { s.hbm with writeBacks := s.hbm.writeBacks.filter (fun x => x != l) } ∧
        State.Only [(.MEM_PC_WB, k, 0)] { s with hbm := t.hbm } t)) ∧
      (s.hbm.writeBacks.find? (fun x => x * 64 / 2 ^ 30 == k.val) = none → exec (.eccWriteback k) s = .next s))

/-- What runs on in memory (R297, R301, R316, R317): the scrubber goes on by one line, and after the last one starts a new pass with its event;
a window of the regulators shows what the last one used and refills tokens up to reserve and burst; a refresh is counted unless the memory refreshes itself.
Choices of the model in it: assumption log 4, 82. -/
def Obligations.MemoryRunsOn : Prop :=
  ∀ s : State, s.awake = true →
    (s.isOn .MEM_SCRUB_mode = false → exec .scrubRead s = .next s) ∧
    (s.isOn .MEM_SCRUB_mode = true → s.get .MEM_SCRUB_POS + 1 < 12582912 → Answers .scrubRead s (fun t =>
      t.get .MEM_SCRUB_POS = s.get .MEM_SCRUB_POS + 1 ∧ t.hbm.bytes = s.hbm.bytes ∧ t.hbm.bad = s.hbm.bad ∧
      ((∀ l ∈ s.hbm.soft, l % 2 ^ 24 ≠ s.get .MEM_SCRUB_POS) → (∀ w ∈ s.hbm.bad, w / 8 % 2 ^ 24 ≠ s.get .MEM_SCRUB_POS) →
        State.Only [(.MEM_SCRUB_POS, 0, 0)] s t))) ∧
    (s.isOn .MEM_SCRUB_mode = true → s.get .MEM_SCRUB_POS = 12582911 → Answers .scrubRead s (fun t => t.get .MEM_SCRUB_POS = 0 ∧
      t.get .MEM_SCRUB_PASSES = satAdd Fld.MEM_SCRUB_PASSES.width (s.get .MEM_SCRUB_PASSES) 1 ∧ t.event ⟨.mem, 0⟩ 0 = true)) ∧
    Answers .bwWindowStart s (fun t => ∀ p : Part,
      (s.regionOn p = true → t.get .MEM_BW_USED_last p = s.get .BWX_USED p / 2 % 2 ^ Fld.MEM_BW_USED_last.width ∧
        t.get .BWX_TOKENS p = min (s.get .BWX_TOKENS p + 2 * s.bwReg .MEM_BW_RES p) (2 * s.bwReg .MEM_BW_RES p + 2 * s.bwReg .MEM_BW_BURST p) %
          2 ^ Fld.BWX_TOKENS.width ∧
        t.get .BWX_USED p = min (s.get .BWX_DEFERRED p) (2 * s.bwReg .MEM_BW_CEIL p) % 2 ^ Fld.BWX_USED.width) ∧
      (s.regionOn p = false → ∀ f : Fld, f ∈ [Fld.MEM_BW_USED_last, .MEM_BW_USED_borrowed, .BWX_TOKENS, .BWX_USED, .BWX_DEFERRED] →
        t.get f p = s.get f p)) ∧
    (∀ k : Pc, (s.mgt.selfRefresh = false → Answers (.refresh k) s (fun t =>
        t.get .MEM_PC_REFRESH k = satAdd Fld.MEM_PC_REFRESH.width (s.get .MEM_PC_REFRESH k) 1 ∧ t.hbm = s.hbm)) ∧
      (s.mgt.selfRefresh = true → exec (.refresh k) s = .next s))

/-! ## The array -/

/-- A unit of the running job goes to a tile thread (R165 to R167): with nothing to begin or end first, TILE_ASSIGN of a descriptor in progress adds one
tile with the unit's lines, issued or still to issue, and counts the peak of its cluster; MEMORY_READ_RETURN ends the oldest read of a tile;
TILE_COMPLETE of a tile in RUN writes the results of its unit, or aborts its job when it consumed an uncorrectable word, and of any other does nothing.
Choices of the model in it: assumption log 4, 59, 60. -/
def Obligations.TilesRunOnClusters : Prop :=
  ∀ (p : Part) (s : State), s.awake = true →
    (∀ (n : Nat) (j : Job) (P : Plan) (r : StepRun) (x : DescRun), s.partWorks p = true → (s.sch p).running = some n → (s.sch p).ending = false →
      (s.beginStep n).advance n = s → s.current p = some (j, P, r) → r.descs.find? (fun y => y.assigned < y.units) = some x →
      onArray (P.descs.getD x.idx 0) = true → r.inTurn P x.idx = true → 0 < x.assigned → (∀ y ∈ r.tiles, y.seq ≠ r.seq) →
      ∀ e d pos, e = s.envOf j P r x.idx → d = P.descs.getD x.idx 0 → pos = s.unitPos e d x x.assigned →
      (r.tiles.filter (fun y => y.pos == pos)).length < 256 → Answers (.tileAssign p) s (fun t =>
        ∃ u, (t.job n).bind (fun j => j.run) = some u ∧ u.seq = r.seq + 1 ∧ u.tiles.length = r.tiles.length + 1 ∧
          u.descs = r.descs.map (fun y => if y.idx == x.idx then { y with assigned := y.assigned + 1 } else y) ∧
          (∃ y ∈ u.tiles, y.seq = r.seq ∧ y.desc = x.idx ∧ y.unit = x.assigned ∧ y.pos = pos ∧ y.reads ++ y.left =
            s.tapLines e (s.unitTaps e r.descs d x x.assigned) ++ (s.unitList e d).flatMap (fun l => runLines l.1 l.2)) ∧
          t.get .CLU_THREADS_peak (s.posPhys p pos) = max (s.get .CLU_THREADS_peak (s.posPhys p pos))
            ((r.tiles.filter (fun y => y.pos == pos)).length + 1) % 2 ^ Fld.CLU_THREADS_peak.width)) ∧
    (∀ n seq : Nat, (s.sch p).running = some n → (∀ j ∈ s.cmd.jobs, ∀ u, j.run = some u → ∀ y ∈ u.tiles, y.left = []) →
      exec (.memoryReadReturn p seq) s = .next (s.modRun n (fun u => { u with tiles := u.tiles.map (fun y =>
        if y.seq == seq then { y with reads := y.reads.drop 1 } else y) }))) ∧
    (∀ seq j P r y x, s.tileToEnd p seq = some (j, P, r, y, x) →
      ((s.unitBad (s.envOf j P r y.desc) r.descs (P.descs.getD y.desc 0) x y.unit).2 = false → exec (.tileComplete p seq) s =
        .next ((s.unitBad (s.envOf j P r y.desc) r.descs (P.descs.getD y.desc 0) x y.unit).1.endTile p j P r y x)) ∧
      ((s.unitBad (s.envOf j P r y.desc) r.descs (P.descs.getD y.desc 0) x y.unit).2 = true → exec (.tileComplete p seq) s =
        .next ((s.unitBad (s.envOf j P r y.desc) r.descs (P.descs.getD y.desc 0) x y.unit).1.abortMem j.no y.desc))) ∧
    (∀ seq, s.tileToEnd p seq = none → exec (.tileComplete p seq) s = .next s)

/-- Fawn takes passes in order of readiness, those of its LC partition before others (R180, R181): a ready pass joins the queue, a pass of the Fawn partition
suspends one of the BE partition; the end of the pass that runs is counted; with no pass nothing happens.
Choices of the model in it: assumption log 4, 59. -/
def Obligations.FawnRunsPasses : Prop :=
  ∀ s : State, s.awake = true →
    (∀ (p : Part) (n : Nat) (j : Job) (P : Plan) (r : StepRun) (i : Nat) (l : List Nat), s.partWorks p = true → (s.sch p).running = some n →
      (s.sch p).ending = false → (s.beginStep n).advance n = s → s.current p = some (j, P, r) → passOf P r = i :: l → s.fwn.length < 8 →
      r.inTurn P i = true → (i :: l).any (fun k => s.blocked (s.envOf j P r k)
        { r with descs := r.descs.filter (fun x => !(i :: l).contains x.idx || x.idx == k) } k 0) = false →
      Answers (.fawnPassReady p) s (fun t => (∃ x ∈ t.fwn, x.part = p ∧ x.job = n ∧ x.descs = i :: l) ∧ t.fwn.length = s.fwn.length + 1)) ∧
    (∀ x rest, s.fwn = x :: rest → Answers .fawnPassDone s (fun t =>
      t.get .FWN_PASSES = satAdd Fld.FWN_PASSES.width (s.get .FWN_PASSES) 1)) ∧
    (s.fwn = [] → exec .fawnPassDone s = .next s) ∧
    (∀ x : FwnPass, x.be = false → (∀ y rest, s.fwn = y :: rest → y.be = true →
      (s.queuePass x).get .FWN_SUSPENDS = satAdd Fld.FWN_SUSPENDS.width (s.get .FWN_SUSPENDS) 1) ∧
      ∃ a b, (s.queuePass x).fwn = a ++ x :: b ∧ (∀ y ∈ a, y.be = false) ∧ (∀ y ∈ b, y.be = true))

/-- Errors of SRAM (R188, R193, R286, R567): a corrected one is counted at its site, with the address of a cluster, and CE_THR is raised at the
threshold once a window; an uncorrectable one is counted, raised, and here, where nothing runs that consumes it and no threshold of
permanence is met, changes nothing more of the work; one of Table SRAM marks the entry of its table. A disabled cluster has no errors.
Choices of the model in it: assumption log 2, 4. -/
def Obligations.SramErrorsAreCounted : Prop :=
  ∀ (s : State) (addr : Nat), s.awake = true →
    (∀ k : Clu, s.cluDisabled k = true → exec (.sramCorrected (.cluster k) addr) s = .next s ∧ exec (.sramUe (.cluster k) addr) s = .next s) ∧
    (∀ k : Clu, s.cluDisabled k = false →
      Answers (.sramCorrected (.cluster k) addr) s (fun t => t.get .CLU_ECC_CE k = satAdd Fld.CLU_ECC_CE.width (s.get .CLU_ECC_CE k) 1 ∧
        t.get .CLU_ECC_ADDR_addr k = addr % 2 ^ Fld.CLU_ECC_ADDR_addr.width ∧ t.get .CLU_ECC_ADDR_ue k = 0 ∧
        (s.get .CLU_CE_THR k ≤ s.get .CLUX_WIN_CE k + 1 → s.isOn .CLUX_CE_DONE k = false → t.event ⟨.clu, k⟩ 0 = true) ∧
        (s.isOn .CLUX_CE_DONE k = true → State.Only
          [(.CLU_ECC_CE, k, 0), (.CLU_ECC_ADDR_addr, k, 0), (.CLU_ECC_ADDR_ue, k, 0), (.CLUX_WIN_CE, k, 0)] s t)) ∧
      ((∀ p, s.cluPart k = some p → s.runningJob p = none) → (s.cluRetired k = true ∨ (s.addUpset 2 k).2 = false) →
        Answers (.sramUe (.cluster k) addr) s (fun t => t.get .CLU_ECC_UE k = satAdd Fld.CLU_ECC_UE.width (s.get .CLU_ECC_UE k) 1 ∧
          t.event ⟨.clu, k⟩ 1 = true ∧ t.get .CLU_ECC_ADDR_addr k = addr % 2 ^ Fld.CLU_ECC_ADDR_addr.width ∧ t.get .CLU_ECC_ADDR_ue k = 1 ∧
          (s.cluRetired k = false → t.bucket 2 k = s.bucket 2 k + 1)))) ∧
    Answers (.sramCorrected .fawn addr) s (fun t => t.get .FWN_ECC_CE = satAdd Fld.FWN_ECC_CE.width (s.get .FWN_ECC_CE) 1 ∧
      (s.get .FWN_CE_THR ≤ s.get .FWNX_WIN_CE + 1 → s.isOn .FWNX_CE_DONE = false → t.event ⟨.fwn, 0⟩ 0 = true)) ∧
    (s.fwn = [] → Answers (.sramUe .fawn addr) s (fun t => t.get .FWN_ECC_UE = satAdd Fld.FWN_ECC_UE.width (s.get .FWN_ECC_UE) 1 ∧
      t.event ⟨.fwn, 0⟩ 1 = true ∧ State.Only ((.FWN_ECC_UE, 0, 0) :: evtCells ⟨.fwn, 0⟩) s t)) ∧
    (∀ (id : PartId) (e : Fin 256),
      Answers (.sramCorrected (.table id e) addr) s (fun t => t.get .ATN_ECC_CE = satAdd Fld.ATN_ECC_CE.width (s.get .ATN_ECC_CE) 1 ∧
        (s.get .ATN_CE_THR ≤ s.get .ATNX_WIN_CE + 1 → s.isOn .ATNX_CE_DONE = false → t.event ⟨.atn, 0⟩ 1 = true)) ∧
      (s.attn = [] → Answers (.sramUe (.table id e) addr) s (fun t => t.get .ATN_ECC_UE = satAdd Fld.ATN_ECC_UE.width (s.get .ATN_ECC_UE) 1 ∧
        t.event ⟨.atn, 0⟩ 2 = true ∧ (∀ x ∈ t.tables, x.id = id.val → x.trunc = true ∧ e.val ∈ x.lost) ∧
        State.Only ((.ATN_ECC_UE, 0, 0) :: evtCells ⟨.atn, 0⟩) { s with tables := t.tables } t)))

/-! ## Plans, queues and jobs -/

/-- The life of a plan in its slot (R184 to R187, R414, R415): a go takes base and size as they stand and replaces a waiting load; the end of the
checks leaves it PENDING or refused with a code and PLAN_REFUSED; a released one becomes active at a step boundary, with its digest and
PLAN_SWITCH; an unload leaves the slot EMPTY, waits for the step in progress, or is refused with 0xC4 where it may not be.
Choices of the model in it: assumption log 4, 68. -/
def Obligations.PlansComeAndGo : Prop :=
  ∀ (p : Part) (k : PlanSlot) (s : State),
    (∀ (fn : Fn) (hold : Bool), s.opens fn (cmdPage p) (0x20C + k * 0x40) = true → Answers (.planLoadGo fn p k hold) s (fun t =>
      t.get .CMD_PLAN_STATUS_load p k = 1 ∧ t.get .CMD_PLAN_STATUS_code p k = 0 ∧ t.get .CMD_PLAN_LOAD_hold p k = b2n hold ∧
      t.cmd = (s.modSlot p k (fun x =>
        { x with load := some ⟨s.get .CMD_PLAN_BASE p k, s.get .CMD_PLAN_SIZE p k, hold, none⟩ })).cmd ∧
      State.Only [(.CMD_PLAN_STATUS_load, p, k), (.CMD_PLAN_STATUS_code, p, k), (.CMD_PLAN_LOAD_hold, p, k)] { s with cmd := t.cmd } t)) ∧
    (∀ l : PlanLoad, s.awake = true → (s.slotSt p k).load = some l → l.plan = none →
      (s.partList p).any (fun n => s.cluRetired ((s.physOf n).getD 0)) = false →
      (s.planRefused p k l.base l.size (s.otherCtxs p k) = none → Answers (.planCheckDone p k) s (fun t =>
        t.get .CMD_PLAN_STATUS_load p k = 2 ∧ (t.slotSt p k).load = some { l with plan := some (s.readPlan p l.base l.size) } ∧
        State.Only [(.CMD_PLAN_STATUS_load, p, k)] { s with cmd := t.cmd } t)) ∧
      (∀ x d, s.planRefused p k l.base l.size (s.otherCtxs p k) = some (x, d) → Answers (.planCheckDone p k) s (fun t =>
        t.get .CMD_PLAN_STATUS_load p k = 3 ∧ t.get .CMD_PLAN_STATUS_code p k = x % 2 ^ 8 ∧ t.event (cmdPage p) 1 = true ∧
        (t.slotSt p k).load = none))) ∧
    (s.awake = true → (∀ P, s.switchDue p k = some P → Answers (.planSwitch p k) s (fun t => t.event (cmdPage p) 0 = true ∧
        t.get .CMD_PLAN_STATUS_state p k = 1 ∧ t.get .CMD_PLAN_STATUS_load p k = 0 ∧ t.isOn .CMD_PLAN_STATUS_mode p k = P.batch ∧
        t.get .CMD_PLAN_DIGEST p k = P.digest % 2 ^ 256)) ∧
      (s.switchDue p k = none → exec (.planSwitch p k) s = .next s)) ∧
    (∀ fn : Fn, s.opens fn (cmdPage p) (0x20C + k * 0x40) = true →
      (s.mayUnload p k = false → Answers (.planUnload fn p k) s (fun t => t.event (cmdPage p) 31 = true ∧
        (s.isOn (.ERR_INFO_valid .cmdPart) p = false → t.get (.ERR_INFO_detail .cmdPart) p % 2 ^ 8 = 0xC4) ∧
        State.Only ((.CMD_PLAN_LOAD_hold, p, k) :: evtCells (cmdPage p)) s t)) ∧
      (s.mayUnload p k = true → s.slotBusy p k = false → Answers (.planUnload fn p k) s (fun t => t.get .CMD_PLAN_STATUS_state p k = 0 ∧
        t.get .CMD_PLAN_STATUS_load p k = 0 ∧ t.get .CMD_PLAN_DIGEST p k = 0)) ∧
      (s.mayUnload p k = true → s.slotBusy p k = true → Answers (.planUnload fn p k) s (fun t => t.get .CMD_PLAN_STATUS_load p k = 0 ∧
        t.get .CMD_PLAN_STATUS_state p k = s.get .CMD_PLAN_STATUS_state p k ∧
        t.cmd = (s.modSlot p k (fun x => { x with load := none, unloading := true })).cmd)))

/-- A refused submission entry completes with its status (R419 to R422): RUN with 7 without an active BATCH plan in the BE partition and with 8 for
a bad field, STOP with 8 for a job that is not the partition's, FENCE with 8 for a bad field, an unknown opcode with 6. Where the completion queue
takes the entry, it is written to host memory with its phase, the queue's tail and the submission queue's head advance by 1, and nothing else changes.
Choices of the model in it: assumption log 2, 65. -/
def Obligations.RefusedEntriesComplete : Prop :=
  ∀ (p : Part) (q : Unit16) (e : BitVec 512) (c : Instr) (st : Nat) (s : State), s.awake = true → s.sqReady p q = true →
    ((c = .sqRun p q e ∧ sqOpcode e.toNat = 1 ∧ st = 7 ∧ (s.partIsBe p = false ∨ s.get .CMD_PLAN_STATUS_state p (sqSlot e.toNat) ≠ 1 ∨
        (s.slotSt p (sqSlot e.toNat)).active.map (fun P => P.batch) ≠ some true)) ∨
     (c = .sqRun p q e ∧ sqOpcode e.toNat = 1 ∧ st = 8 ∧ s.partIsBe p = true ∧ s.get .CMD_PLAN_STATUS_state p (sqSlot e.toNat) = 1 ∧
        (s.slotSt p (sqSlot e.toNat)).active.map (fun P => P.batch) = some true ∧
        (sqBitsOk e.toNat = false ∨ sqSlice e.toNat < 100 ∨ 10000 < sqSlice e.toNat)) ∨
     (c = .sqStop p q e ∧ sqOpcode e.toNat = 2 ∧ st = 8 ∧ (sqBitsOk e.toNat = false ∨ ∀ j, s.job (sqJob e.toNat) = some j → j.part ≠ p)) ∨
     (c = .sqFence p q e ∧ sqOpcode e.toNat = 3 ∧ st = 8 ∧ sqBitsOk e.toNat = false) ∨
     (c = .refusedOpcode p q e ∧ (sqOpcode e.toNat = 0 ∨ 3 < sqOpcode e.toNat) ∧ st = 6)) →
    ∀ x, x = s.cqOf p q → s.isOn .CMD_CQ_CFG_enable p x = true → s.cqFull p x = false → s.cqWaits p x = false → s.isOn .CMD_CQ_CFG_irq p x = false →
      Answers c s (fun t => t.get .CMD_SQ_HEAD p q = (s.get .CMD_SQ_HEAD p q + 1) % 2 ^ 16 ∧
        t.get .CMD_CQ_TAIL p x = (s.get .CMD_CQ_TAIL p x + 1) % 2 ^ 16 ∧ t.cmd = s.cmd ∧
        t.out = s.out ++ [.hostWrite (s.get .CMD_CQ_BASE p x + s.get .CMD_CQ_TAIL p x % s.cqSize p x * 32)
          (listMod (completionBytes (sqTag e.toNat) 0 true q st 0 0 0 s.t64) 7
            (fun b => b + 128 * (1 - s.get .CMD_CQ_TAIL p x / s.cqSize p x % 2)))] ∧
        State.Only [(.CMD_SQ_HEAD, p, q), (.CMD_CQ_TAIL, p, x)] s t)

/-- The queues of a partition (R418, R420, R423, R435): a doorbell moves the tail, one that outruns the ring or a read that fails stops the queue with its
error; a RUN that passes its checks makes a READY job of the entry, or holds its queue; so does a FENCE while a job or a completion of its queue is open, and
completes otherwise; a STOP goes to its job; a write of a completion queue's head moves it.
Choices of the model in it: assumption log 2, 61, 65. -/
def Obligations.QueuesTakeEntries : Prop :=
  ∀ (p : Part) (q : Unit16) (s : State),
    (∀ (fn : Fn) (tail : BitVec 32), s.opens fn (cmdPage p) (0x40C + q * 0x20) = true →
      (s.isOn .CMD_SQ_CFG_enable p q = true → 2 ^ s.get .CMD_SQ_CFG_size_log2 p q < (tail.toNat % 2 ^ 16 + 2 ^ 16 - s.get .CMD_SQ_HEAD p q) % 2 ^ 16 →
        Answers (.sqDoorbell fn p q tail) s (fun t => t.isOn .CMD_SQ_CFG_enable p q = false ∧ t.get .CMD_SQ_STATUS_err p q = 1 ∧
          t.get .CMD_SQ_STATUS_err_code p q = 1 ∧ t.event (cmdPage p) 6 = true ∧ t.get .CMD_SQ_TAIL p q = s.get .CMD_SQ_TAIL p q)) ∧
      ((s.isOn .CMD_SQ_CFG_enable p q = false ∨
          (tail.toNat % 2 ^ 16 + 2 ^ 16 - s.get .CMD_SQ_HEAD p q) % 2 ^ 16 ≤ 2 ^ s.get .CMD_SQ_CFG_size_log2 p q) →
        Answers (.sqDoorbell fn p q tail) s (fun t => t.get .CMD_SQ_TAIL p q = tail.toNat % 2 ^ 16 ∧ t.cmd = s.cmd ∧
          ∀ f ∈ [Fld.CMD_SQ_CFG_enable, .CMD_SQ_STATUS_err, .CMD_SQ_STATUS_err_code, .CMD_SQ_HEAD], t.get f p q = s.get f p q))) ∧
    (s.awake = true → s.sqReady p q = true → Answers (.hostReadFailed p q) s (fun t => t.isOn .CMD_SQ_CFG_enable p q = false ∧
      t.get .CMD_SQ_STATUS_err p q = 1 ∧ t.get .CMD_SQ_STATUS_err_code p q = 2 ∧ t.event (cmdPage p) 6 = true ∧ t.cmd = s.cmd)) ∧
    (∀ e : BitVec 512, s.awake = true → s.sqReady p q = true → sqBitsOk e.toNat = true →
      (sqOpcode e.toNat = 1 → s.partIsBe p = true → s.get .CMD_PLAN_STATUS_state p (sqSlot e.toNat) = 1 →
        (s.slotSt p (sqSlot e.toNat)).active.map (fun P => P.batch) = some true → 100 ≤ sqSlice e.toNat → sqSlice e.toNat ≤ 10000 →
        (s.runWaits p q e.toNat = true → exec (.sqRun p q e) s = .next { s.countWrap .CMD_SQ_HEAD p q 1 with
          cmd := { s.cmd with sqs := s.cmd.sqs ++ [⟨p, q, e.toNat⟩] } }) ∧
        (s.runWaits p q e.toNat = false → Answers (.sqRun p q e) s (fun t => t.get .CMD_SQ_HEAD p q = (s.get .CMD_SQ_HEAD p q + 1) % 2 ^ 16 ∧
          t.cmd.jobs.length = s.cmd.jobs.length + 1 ∧ ∃ j ∈ t.cmd.jobs, j.part = p ∧ j.slot = sqSlot e.toNat ∧ j.batch = true ∧ j.state = .ready ∧
            j.tag = sqTag e.toNat ∧ j.sq = q ∧ j.steps = sqSteps e.toNat ∧ j.slice = sqSlice e.toNat * 1000 ∧ j.s0 = sqS0 e.toNat))) ∧
      (sqOpcode e.toNat = 3 →
        (s.fenceWaits p q = true → exec (.sqFence p q e) s = .next { s.countWrap .CMD_SQ_HEAD p q 1 with
          cmd := { s.cmd with sqs := s.cmd.sqs ++ [⟨p, q, e.toNat⟩] } }) ∧
        (s.fenceWaits p q = false → exec (.sqFence p q e) s = .next ((s.countWrap .CMD_SQ_HEAD p q 1).completion p q
          (completionBytes (sqTag e.toNat) 0 false q 0 0 0 0 s.t64) none))) ∧
      (sqOpcode e.toNat = 2 → ∀ j, s.job (sqJob e.toNat) = some j → j.part = p → (j.state = .ended → exec (.sqStop p q e) s = .next
          ((s.countWrap .CMD_SQ_HEAD p q 1).completion p q (completionBytes (sqTag e.toNat) j.no false q 0 j.step j.ran 0 s.t64) none)) ∧
        (j.state ≠ .ended → sqAbort e.toNat = false → j.run.isSome = true → Answers (.sqStop p q e) s (fun t =>
          t.job (sqJob e.toNat) = some { j with stops := j.stops ++ [(q.val, sqTag e.toNat)], ending := true } ∧
          State.Only [(.CMD_SQ_HEAD, p, q)] { s with cmd := t.cmd } t)))) ∧
    (∀ (fn : Fn) (x : Unit32) (v : BitVec 32), s.opens fn (cmdPage p) (0x60C + x * 0x20) = true → Answers (.cqHeadWrite fn p x v) s (fun t =>
      t.get .CMD_CQ_HEAD p x = v.toNat % 2 ^ 16 ∧ (s.cqWaits p x = false → State.Only [(.CMD_CQ_HEAD, p, x)] s t)))

/-- Which job has a partition's clusters (R417, R423 to R428). JOB_SCHEDULE gives them to a READY STREAM job of an LC partition, and in the BE partition
starts the switch to the job whose turn comes; the switch done, its slice begins; a slice's end, the watchdog's 200 µs and the end of a coalescing time are
times to which the clock runs, and what then happens is asked of the state at that time. With no such job, slice or wait nothing happens.
Choices of the model in it: assumption log 4, 6, 109. -/
def Obligations.ClustersChangeHands : Prop :=
  ∀ (p : Part) (s : State), s.awake = true →
    (s.partWorks p = false → exec (.jobSchedule p) s = .next s) ∧
    (s.partWorks p = true → ∀ u, u = s.refreshReady → (u.sch p).running = none → (u.sch p).switchTo = none →
      (u.partIsBe p = false → ∀ j, u.streamJob p 0 = some j → j.state = .ready → exec (.jobSchedule p) s = .next (u.beginSlice p j.no)) ∧
      (u.partIsBe p = true → ∀ v j, u.giveTurn p (4 * (u.partJobs p).length) = (v, some j) → (u.sch p).last ≠ some j.no → j.started = true →
        exec (.jobSchedule p) s = .next (v.modSched p (fun x => { x with switchTo := some j.no })))) ∧
    ((s.sch p).switchTo = none → exec (.jobSwitchDone p) s = .next s) ∧
    (∀ n, (s.sch p).switchTo = some n → (s.sch p).last = none →
      exec (.jobSwitchDone p) s = .next (((s.restoreJob p n).pmc 0x16 0 1 (some p.val)).beginSlice p n)) ∧
    (∀ n m, (s.sch p).switchTo = some n → (s.sch p).last = some m → m ≠ n →
      exec (.jobSwitchDone p) s = .next ((((s.saveJob p m).restoreJob p n).pmc 0x16 0 1 (some p.val)).beginSlice p n)) ∧
    (s.partIsBe p = true → (s.sch p).running.isSome = true → (s.sch p).ending = false →
      exec (.sliceEnd p) s = .next ((s.runToNs (s.sch p).sliceEnd).sliceEnds p)) ∧
    ((s.partIsBe p = false ∨ (s.sch p).running = none ∨ (s.sch p).ending = true) → exec (.sliceEnd p) s = .next s) ∧
    (s.watched p = none → exec (.nonpreemptWatchdog p) s = .next s) ∧
    (∀ n i first, s.watched p = some (n, i, first) → exec (.nonpreemptWatchdog p) s = .next ((s.runTo (first + 80000)).watchdogAbort p) ∧
      ((s.runTo (first + 80000)).watched p = some (n, i, first) → first + 80000 ≤ (s.runTo (first + 80000)).tick →
        exec (.nonpreemptWatchdog p) s = .next ((s.runTo (first + 80000)).abortJob n 2 i 4 true))) ∧
    (∀ c : Unit32, (s.cmd.cqs.find? (fun x => x.part == p.val && x.cq == c.val) = none → exec (.cqCoalesceTimer p c) s = .next s) ∧
      (∀ x, s.cmd.cqs.find? (fun x => x.part == p.val && x.cq == c.val) = some x → s.get .CMD_CQ_CFG_coal_us p c ≠ 0 →
        exec (.cqCoalesceTimer p c) s = .next ((s.runTo (x.since + 400 * s.get .CMD_CQ_CFG_coal_us p c)).cqTimer p c)))

/-! ## Records, firings and valves -/

/-- TRK follows the parts of the oldest part list entry (R352 to R358, R362): OPEN and OPEN_CLOSE make a record of a FREE identifier, CONT and CLOSE move its
extent, CLOSE ends its view, MERGED ends it and widens the survivor, a span widens the open span of its context or opens one; an entry of a wrong
generation is counted as stale, and an entry of another kind than the command's stays.
Choices of the model in it: assumption log 4, 102. -/
def Obligations.RecordsFollowTheirParts : Prop :=
  ∀ (s : State) (e : PartEntry) (rest : List PartEntry), s.awake = true → s.trk.entries = e :: rest →
    (∀ c k st, (c, k, st) ∈ ([(.partOpen, kindOpen, 1), (.partOpenClose, kindOpenClose, 2)] : List (Instr × Nat × Nat)) →
      ((e.ovf = true ∨ e.kind ≠ k) → exec c s = .next s) ∧
      (e.ovf = false → e.kind = k → s.partRec false e.id = none →
        (e.gen = s.genOf e.id → Answers c s (fun t => t.trk.entries = rest ∧
          t.get .TRK_CNT_OPENED = satAdd Fld.TRK_CNT_OPENED.width (s.get .TRK_CNT_OPENED) 1 ∧ (∃ r, t.partRec false e.id = some r ∧ r.state = st ∧
            r.gen = e.gen ∧ r.ctx = e.ctx ∧ r.cls = e.cls % 16 ∧ r.first = e.first ∧ r.last = e.last ∧ r.pixels = e.pixels ∧ r.held = 0 ∧
            r.opened = s.t64 ∧ r.has flInView = (st == 1)) ∧ (∃ x ∈ t.tables, x.id = e.id ∧ x.gen = e.gen ∧ x.entries = []))) ∧
        (e.gen ≠ s.genOf e.id → Answers c s (fun t => t.get .TRK_CNT_STALE = satAdd Fld.TRK_CNT_STALE.width (s.get .TRK_CNT_STALE) 1 ∧
          t.trk = { s.trk with entries := rest } ∧ State.Only [(.TRK_CNT_STALE, 0, 0)] { s with trk := t.trk } t)))) ∧
    (∀ c k close, (c, k, close) ∈ ([(.partCont, kindCont, false), (.partClose, kindClose, true)] : List (Instr × Nat × Bool)) →
      ((e.ovf = true ∨ e.kind ≠ k) → exec c s = .next s) ∧
      (e.ovf = false → e.kind = k → ∀ r, s.partRec false e.id = some r → e.gen = r.gen → r.early = true → Answers c s (fun t =>
        t.trk.entries = rest ∧ ∃ u, t.partRec false e.id = some u ∧ u.first = e.first ∧ u.last = e.last ∧ u.pixels = e.pixels ∧
          u.colFirst = s.colOff r.ctx e.colFirst ∧ u.colLast = s.colOff r.ctx e.colLast ∧ u.held = r.held ∧ u.cls = r.cls ∧
          u.state = (if close && r.state == 1 then 2 else r.state) ∧ (close = true → u.has flInView = false ∧ (e.cut = true → u.has flCut = true)))) ∧
      (e.ovf = false → e.kind = k → (∀ r, s.partRec false e.id = some r → r.state = 7 ∨ e.gen ≠ r.gen) → Answers c s (fun t =>
        t.get .TRK_CNT_STALE = satAdd Fld.TRK_CNT_STALE.width (s.get .TRK_CNT_STALE) 1 ∧ t.trk = { s.trk with entries := rest } ∧
        State.Only [(.TRK_CNT_STALE, 0, 0)] { s with trk := t.trk } t))) ∧
    ((e.ovf = true ∨ e.kind ≠ kindMerged) → exec .partMerged s = .next s) ∧
    (e.ovf = false → e.kind = kindMerged → ∀ a v, s.partRec false e.id = some a → e.gen = a.gen → a.early = true → e.into ≠ e.id →
      s.partRec false e.into = some v → v.early = true → Answers .partMerged s (fun t =>
        (∃ u, t.partRec false e.id = some u ∧ u.state = 7 ∧ u.has flMerged = true ∧ u.resv = 0) ∧
        (∃ u, t.partRec false e.into = some u ∧ u.first = min v.first a.first ∧ u.last = max v.last a.last ∧
          u.pixels = (v.pixels + a.pixels) % 2 ^ 32 ∧ u.state = v.state))) ∧
    (e.ovf = false → e.kind ≠ kindSpan → exec .partSpan s = .next s) ∧
    ((e.ovf = true ∨ e.kind = kindSpan) →
      (∀ r, ((s.trk.recs.filter (fun x => x.span && x.ctx == e.ctx)).filter TrkRec.early).getLast? = some r → s.partRec true r.id = some r →
        e.first ≤ s.recEnd r + s.get .TRK_CFG_span_gap → Answers .partSpan s (fun t => t.trk.entries = rest ∧
          ∃ u, t.partRec true r.id = some u ∧ u.first = min r.first e.first ∧ u.last = max r.last e.last)) ∧
      (s.trk.recs.filter (fun x => x.span && x.ctx == e.ctx) = [] →
        (∀ n, (List.range 64).find? (fun x => (s.partRec true x).isNone) = some n → Answers .partSpan s (fun t => t.event ⟨.trk, 0⟩ 0 = true ∧
          t.get .TRK_CNT_SPAN = satAdd Fld.TRK_CNT_SPAN.width (s.get .TRK_CNT_SPAN) 1 ∧ ∃ u, t.partRec true n = some u ∧ u.state = 1 ∧
            u.ctx = e.ctx ∧ u.first = e.first ∧ u.last = e.last ∧ u.cls = s.get .TRK_CFG_default_class)) ∧
        ((List.range 64).find? (fun x => (s.partRec true x).isNone) = none → Answers .partSpan s (fun t => t.event ⟨.trk, 0⟩ 1 = true ∧
          t.get .TRK_CNT_SPAN_LOST = satAdd Fld.TRK_CNT_SPAN_LOST.width (s.get .TRK_CNT_SPAN_LOST) 1 ∧ t.trk = { s.trk with entries := rest }))))

/-- R364: a verdict whose generation differs from the record's, or whose record is FREE or DONE, is ignored, counted and raised with the identifier; of
this device's array and of a peer alike. -/
def Obligations.StaleVerdictsAreIgnored : Prop :=
  ∀ (s : State) (v : VerdictMsg), (∀ r, s.partRec false v.id = some r → r.state = 7 ∨ r.gen ≠ v.gen) →
    (∀ peer, (s.trkVerdict v peer).event ⟨.trk, 0⟩ 2 = true ∧
      (s.trkVerdict v peer).get .TRK_CNT_STALE = satAdd Fld.TRK_CNT_STALE.width (s.get .TRK_CNT_STALE) 1 ∧
      (s.isOn (.ERR_INFO_valid .trk) = false → (s.trkVerdict v peer).get (.ERR_INFO_detail .trk) = v.id % 2 ^ 24) ∧
      State.Only ((.TRK_CNT_STALE, 0, 0) :: evtCells ⟨.trk, 0⟩) s (s.trkVerdict v peer)) ∧
    (∀ rest, s.awake = true → s.trk.verdicts = v :: rest → Answers (if v.final then .verdictFinal else .verdictArm) s (fun t =>
      t.event ⟨.trk, 0⟩ 2 = true ∧ t.get .TRK_CNT_STALE = satAdd Fld.TRK_CNT_STALE.width (s.get .TRK_CNT_STALE) 1 ∧
      State.Only ((.TRK_CNT_STALE, 0, 0) :: evtCells ⟨.trk, 0⟩) { s with trk := { s.trk with verdicts := rest } } t))

/-- R375: while EJT has CTRL.enable = 0 no bank applies, TRK commits each record at first + TRK_HOLD and queues no firing; an EJT enable while no bank is
enabled is discarded with the code 0xA2.
Choices of the model in it: assumption log 4. -/
def Obligations.WithoutEjtNothingFires : Prop :=
  ∀ s : State, s.isOn (.CTRL_enable .ejt) = false →
    (∀ b, s.bankOn b = false) ∧ (∀ r, s.commitPoint r = r.first + s.get .TRK_HOLD) ∧
    (∀ (span : Bool) (id : PartId) r, s.awake = true → s.partRec span id = some r → r.early = true → s.beltRuns = true →
      (r.first + s.get .TRK_HOLD ≤ s.beltPos → Answers (.recordCommit span id) s (fun t => t.trk.firings = s.trk.firings ∧
        ∀ u, t.partRec span id = some u → 5 ≤ u.state ∧ u.commit = r.first + s.get .TRK_HOLD ∧ u.resv = 0)) ∧
      (s.beltPos < r.first + s.get .TRK_HOLD → exec (.recordCommit span id) s = .next s)) ∧
    (∀ fn : Fn, s.opens fn ejtPage 0x8 = true → (List.range 8).any (fun b => s.isOn .EJT_BANK_CFG_enable 0 b) = false →
      Answers (.ejtEnable fn) s (fun t => State.Refuses s t ejtPage fn 0x8 0xA2))

/-- A verdict decides and a commit fixes (R356, R363, R371 to R374): a verdict before the commit point arms or decides its record with class and digest, an
ARM after a FINAL is counted and ignored, one after the commit is a late change; a commit in view takes the class in force, and is counted as
late without a verdict; a missed deadline is counted once.
Choices of the model in it: assumption log 4, 7, 102. -/
def Obligations.VerdictsDecideAndCommitsFix : Prop :=
  ∀ s : State, s.awake = true →
    (∀ (v : VerdictMsg) rest r, s.trk.verdicts = v :: rest → s.partRec false v.id = some r → r.gen = v.gen → r.state ≠ 7 →
      ((5 ≤ r.state ∨ s.atCommit r = true) → Answers (if v.final then .verdictFinal else .verdictArm) s (fun t => t.event ⟨.ejt, 0⟩ 0 = true ∧
        t.get .EJT_CNT_LATE_CHANGE = satAdd Fld.EJT_CNT_LATE_CHANGE.width (s.get .EJT_CNT_LATE_CHANGE) 1 ∧
        ∃ u, t.partRec false v.id = some u ∧ u.cls = r.cls ∧ u.state = r.state ∧ bit u.reasons 8 = true ∧ u.lateCls = v.cls)) ∧
      (r.state < 5 → s.atCommit r = false → (v.final = true ∨ r.held ≠ 2) → Answers (if v.final then .verdictFinal else .verdictArm) s (fun t =>
        ∃ u, t.partRec false v.id = some u ∧ u.cls = v.cls ∧ u.digest = v.digest ∧ u.state = (if v.final then 4 else 3) ∧
          u.held = (if v.final then 2 else 1) ∧ u.tVerdict = s.t64 ∧ u.first = r.first ∧ u.last = r.last)) ∧
      (r.state < 5 → s.atCommit r = false → v.final = false → r.held = 2 → Answers .verdictArm s (fun t =>
        t.get .TRK_CNT_ARM_IGNORED = satAdd Fld.TRK_CNT_ARM_IGNORED.width (s.get .TRK_CNT_ARM_IGNORED) 1 ∧
        State.Only [(.TRK_CNT_ARM_IGNORED, 0, 0)] { s with trk := { s.trk with verdicts := rest } } t))) ∧
    (∀ (v : VerdictMsg) rest, s.trk.verdicts = v :: rest → exec (if v.final then .verdictArm else .verdictFinal) s = .next s) ∧
    (∀ (span : Bool) (id : PartId) r, s.partRec span id = some r → r.early = true →
      (s.atCommit r = true → r.has flInView = true → Answers (.recordCommit span id) s (fun t =>
        (∃ u, t.partRec span id = some u ∧ (u.state = 5 ∨ u.state = 6) ∧ u.cls = (s.commitClass r).1.cls ∧ u.commit = s.commitPoint r ∧
          u.tCommit = s.t64 ∧ u.resv = 0 ∧ u.has flFireTrunc = true) ∧
        ((s.commitClass r).2 = true → t.event ⟨.trk, 0⟩ 3 = true ∧ t.get .TRK_CNT_LATE = satAdd Fld.TRK_CNT_LATE.width (s.get .TRK_CNT_LATE) 1))) ∧
      (s.atCommit r = false → exec (.recordCommit span id) s = .next s)) ∧
    (∀ (id : PartId) r p, s.partRec false id = some r → s.deadlinePart r.ctx = some p →
      ((r.deadline = true ∨ s.beltRuns = false ∨ s.beltPos < s.commitPoint r - s.get .CMD_PART_DEADLINE 0 p) →
        exec (.deadlinePoint id) s = .next s) ∧
      (r.deadline = false → s.beltRuns = true → s.commitPoint r - s.get .CMD_PART_DEADLINE 0 p ≤ s.beltPos →
        ((r.held = 2 ∨ r.early = false) → exec (.deadlinePoint id) s = .next (s.modRec false id (fun r => { r with deadline := true }))) ∧
        (r.held ≠ 2 → r.early = true → Answers (.deadlinePoint id) s (fun t => t.event ⟨.cmdPart, p⟩ 4 = true ∧
          t.get .CMD_CNT_DEADLINE p = satAdd Fld.CMD_CNT_DEADLINE.width (s.get .CMD_CNT_DEADLINE p) 1 ∧
          t.trk = (s.modRec false id (fun r => { r with deadline := true })).trk))))

/-- Hoof drives the valves of the firings (R354, R377 to R382): at its on point a firing is on, and a valve that was never commanded goes on; at its off point, with no
minimum time to wait for and no other firing on over them, its valves go off and it leaves the queue; before those points nothing happens. A held command
and an on limit are times to which the clock runs. At a frame boundary a port shows the safe states while the outputs are held or it is retired, and its
commands once it follows them. A freed table frees its record, counts the generation and gives the identifier back.
Choices of the model in it: assumption log 2, 4, 6, 7, 103, 104. -/
def Obligations.FiringsDriveValves : Prop :=
  ∀ s : State, s.awake = true →
    (∀ (span : Bool) (id : PartId) (b : Bank) f, s.firing span id b = some f →
      (f.phase = 0 → s.beltRuns = true → f.start - s.leadFor f.path f.mech ≤ s.beltPos → Answers (.firingOn span id b) s (fun t =>
        (t.firing span id b).map (fun g => g.phase) = some 1 ∧ ∀ n, f.lo ≤ n → n ≤ f.hi → s.valve f.path n = none →
          ∃ v, t.valve f.path n = some v ∧ v.on = true ∧ v.since = s.tick)) ∧
      ((f.phase ≠ 0 ∨ s.beltRuns = false ∨ s.beltPos < f.start - s.leadFor f.path f.mech) → exec (.firingOn span id b) s = .next s) ∧
      (f.phase = 1 → s.beltRuns = true → f.stop - s.leadFor f.path f.mech ≤ s.beltPos →
        (∀ n, f.lo ≤ n → n ≤ f.hi → (∃ v, s.valve f.path n = some v ∧ v.on = true ∧ v.owed = 0 ∧ v.since + minTicks f.path (s.minOnUs f.path n) ≤ s.tick) ∧
          (s.firingsOn f.path n).all (fun g => g.phase != 1 || (g.span == span && g.id == id.val && g.bank == b.val)) = true) →
        Answers (.firingOff span id b) s (fun t => t.firing span id b = none ∧ ∀ n, f.lo ≤ n → n ≤ f.hi →
          ∃ v, t.valve f.path n = some v ∧ v.on = false ∧ v.since = s.tick)) ∧
      ((f.phase ≠ 1 ∨ s.beltRuns = false ∨ s.beltPos < f.stop - s.leadFor f.path f.mech) → exec (.firingOff span id b) s = .next s)) ∧
    (∀ (path : ValvePath) (n : ValveNo),
      (∀ v, s.valve path n = some v → v.owed ≠ 0 → exec (.minTimeHoldEnd path n) s = .next ((s.runTo v.due).valveDue v)) ∧
      ((∀ v, s.valve path n = some v → v.owed = 0) → exec (.minTimeHoldEnd path n) s = .next s) ∧
      (∀ v, s.valve path n = some v → v.on = true → s.valveLimit path n ≠ 0 →
        exec (.maxOnExpiry path n) s = .next ((s.runTo (v.since + s.valveLimit path n)).valveMaxOn path n)) ∧
      ((∀ v, s.valve path n = some v → v.on = false) → exec (.maxOnExpiry path n) s = .next s)) ∧
    (∀ r0 r1 r2 r3 : BitVec 128,
      (s.isOn (.CTRL_enable .ejt) = false → exec (.vpFrameBoundary r0 r1 r2 r3) s = .next s) ∧
      (s.isOn (.CTRL_enable .ejt) = true → ∀ u, u = s.runTo (s.get .EJTX_VP_NEXT) → (∀ n, n < 4 → u.isOn .EJT_VP_LEN_check 0 n = false) →
        Answers (.vpFrameBoundary r0 r1 r2 r3) s (fun t => ∀ n, n < 4 →
          t.get .EJTX_VP_PREV 0 n = u.get .EJTX_VP_CUR 0 n % 2 ^ 128 ∧
          ((u.isOn .FIO_SAFE_held = true ∨ bit (u.get .EJTX_VP_SAFE) n = true) → t.get .EJTX_VP_CUR 0 n = u.get .FIO_SAFE_VP 0 n % 2 ^ 128) ∧
          (u.isOn .FIO_SAFE_held = false → bit (u.get .EJTX_VP_SAFE) n = false → u.get .FIOX_FOLLOW_VP 0 n = 2 ^ 128 - 1 →
            t.get .EJTX_VP_CUR 0 n = u.get .EJT_VALVES_VP 0 n % 2 ^ 128)))) ∧
    (∀ (id : PartId) x, s.table id = some x →
      ((x.releasing = false ∨ x.readers ≠ 0) → exec (.tableFreed id) s = .next s) ∧
      (x.releasing = true → x.readers = 0 → Answers (.tableFreed id) s (fun t => t.table id = none ∧ t.partRec false id = none ∧
        t.genOf id = (s.genOf id + 1) % 256 ∧ t.regs = s.regs ∧ id.val ∈ t.trk.staged ++ t.trk.returned)))

/-! ## Attention and training samples -/

/-- Attention and DEC (R267, R271, R280, R284, R438, R449, R450, R454 to R456): a partition without a descriptor of the row's operation that may be issued is left
as it is. KV_APPEND with sound lists appends its boxes in order and ends, a bad word aborts its job, and a box without an open table, without
a pool, of a disabled pool or of another shape is skipped or counted. ATTN reads its boxes and begins, ends or aborts. A work unit that ends counts its blocks,
the last of a descriptor writes the results; a page without reply for ATN_PEER_TMO is missing. DEC_FETCH makes its slots; a decoded sample is counted as a hit or
by its symbols and kept; the next slot in order is delivered with its counts and events; DEC_COMMIT waits for the last slot; a flush clears every valid byte.
Choices of the model in it: assumption log 4, 6, 73, 74, 76, 90. -/
def Obligations.AttentionAndSamplesRun : Prop :=
  ∀ s : State,
    (s.awake = true → ∀ p : Part,
      (s.toIssue p 0x10 = none → exec (.kvAppendIssue p) s = .next s) ∧ (s.toIssue p 0x11 = none → exec (.attnIssue p) s = .next s) ∧
      (s.toIssue p 0x28 = none → exec (.decFetchIssue p) s = .next s) ∧ (s.toIssue p 0x29 = none → exec (.decCommitIssue p) s = .next s) ∧
      (∀ u j P r x d e y b q, s.toIssue p 0x10 = some (u, j, P, r, x) → d = P.descs.getD x.idx 0 → e = u.envOf j P r x.idx →
        y = { x with assigned := x.units } → b = (u.requestReads e r d y).unitBad e r.descs d y 0 →
        q = (List.range (min (b.1.listCount e (P.tensor (dIn2 d))) (P.tensor (dIn2 d)).H)).foldl (fun (a : State × List Nat) i =>
          ((a.1.appendBox e d i).1, a.2 ++ (a.1.appendBox e d i).2)) (b.1, []) →
        (b.2 = true → exec (.kvAppendIssue p) s = .next (b.1.abortMem j.no x.idx)) ∧
        (b.2 = false → exec (.kvAppendIssue p) s = .next (q.1.unitDone p j.no { y with done := [0], extra := q.2 }))) ∧
      (∀ u j P r x d e b n q, s.toIssue p 0x11 = some (u, j, P, r, x) → d = P.descs.getD x.idx 0 → e = u.envOf j P r x.idx →
        b = (u.requestReads e r d x).unitBad e r.descs d x 0 → n = (if b.2 then 0 else min (b.1.listCount e (P.tensor (dIn2 d))) (P.tensor (dIn2 d)).H) →
        q = b.1.readBoxes e j.no x.idx d n b.2 → n ≤ 65536 →
        ∀ a : AttnRun, a = { part := p, job := j.no, desc := x.idx, boxes := q.2.1, reqs := q.2.2.1, units := unitsFor (dByte d 0x30) (P.tensor (dIn0 d)).W (bits (dWord d 0x38) 7 4) q.2.1 } →
        (q.2.2.2 = true → exec (.attnIssue p) s = .next (({ q.1 with attn := q.1.attn ++ [a] }).abortMem j.no x.idx)) ∧
        (q.2.2.2 = false → a.units = [] → exec (.attnIssue p) s = .next (({ q.1 with attn := q.1.attn ++ [a] }).attnWrite a)) ∧
        (q.2.2.2 = false → a.units ≠ [] → exec (.attnIssue p) s = .next (({ q.1 with attn := q.1.attn ++ [a] }).sendReqs.giveUnits))) ∧
      (∀ u j P r x d e, s.toIssue p 0x28 = some (u, j, P, r, x) → d = P.descs.getD x.idx 0 → e = u.envOf j P r x.idx →
        (u.unitList e d).flatMap (fun l => u.badKeys l.1 l.2) = [] → Answers (.decFetchIssue p) s (fun t =>
          ∃ f ∈ t.dec, f.part = p.val ∧ f.job = j.no ∧ f.desc = x.idx ∧ f.entries.length = dField d 0x38 15 0 ∧ f.delivered = 0 ∧ f.decoded = [])) ∧
      (∀ u j P r x d, s.toIssue p 0x29 = some (u, j, P, r, x) → d = P.descs.getD x.idx 0 →
        (u.dec.find? (fun y => y.job == j.no && y.desc == dField d 0x30 15 0) = none → exec (.decCommitIssue p) s = .next s) ∧
        (∀ f, u.dec.find? (fun y => y.job == j.no && y.desc == dField d 0x30 15 0) = some f →
          (f.delivered < f.entries.length → exec (.decCommitIssue p) s = .next s) ∧
          (f.entries.length ≤ f.delivered → ∀ v, v = u.putList (u.envOf j P r x.idx) (P.tensor (dOut d))
              (leBytes 4 f.status.length ++ List.replicate 28 0 ++ f.status.flatMap id) →
            exec (.decCommitIssue p) s = .next ((if bit (dWord (P.descs.getD f.desc 0) 0x50) 1 then v.cacheCommit p j.no (f.entries.filterMap id) else v).unitDone
              p j.no { x with assigned := x.units, done := [0], extra := leBytes 4 f.status.length ++ List.replicate 28 0 ++
                f.status.flatMap (fun l => l.take 4 ++ leBytes 4 (putBit (leAt l 4 4) 9 false) ++ l.drop 8) }))))) ∧
    (∀ (e : Env) (d b : Nat) box w, box = s.listEntry e (e.plan.tensor (dIn2 d)) b → w = (e.plan.tensor (dIn0 d)).W →
      (s.boxTable box = none → s.appendBox e d b = (s.skipBox box, [])) ∧
      (∀ x, s.boxTable box = some x → x.pool = none → s.appendBox e d b = (s.count .ATN_CNT_NOPOOL 0 0 w, [])) ∧
      (∀ x q, s.boxTable box = some x → x.pool = some q → s.poolOn q = false → s.appendBox e d b = (s.skipBox box, [])) ∧
      (∀ x q, s.boxTable box = some x → x.pool = some q → s.poolOn q = true → s.shapeDiffers d w q = true →
        s.appendBox e d b = ((s.raise (poolPage q) 5).skipBox box, []))) ∧
    (s.awake = true →
      (∀ k : Engine, (s.attn.find? (fun a => a.units.any (fun u => u.engine == some k.val)) = none → exec (.atnWorkUnitDone k) s = .next s) ∧
        ∀ a u, s.attn.find? (fun a => a.units.any (fun u => u.engine == some k.val)) = some a → a.units.find? (fun u => u.engine == some k.val) = some u →
          (a.settled u = false → exec (.atnWorkUnitDone k) s = .next s) ∧
          (a.settled u = true → a.units.erase u ≠ [] → Answers (.atnWorkUnitDone k) s (fun t =>
            t.get .ATN_BLOCKS = satAdd Fld.ATN_BLOCKS.width (s.get .ATN_BLOCKS) u.blocks)) ∧
          (a.settled u = true → a.units.erase u = [] → ∀ v, v = ((s.modAttn (fun x => x == a) (fun _ => { a with units := [] })).count .ATN_BLOCKS 0 0
            u.blocks).pmc 0x19 k u.blocks (some a.part) →
            exec (.atnWorkUnitDone k) s = .next (((v.attnWrite { a with units := [] }).drain a.part).sendReqs.giveUnits))) ∧
      (s.openReq (fun _ => true) = none → exec .peerReadTimeout s = .next s) ∧
      (∀ a q, s.openReq (fun _ => true) = some (a, q) → Answers .peerReadTimeout s (fun t => t.event (poolPage q.pool) 4 = true ∧
        t.get .ATN_POOL_MISSING q.pool = satAdd Fld.ATN_POOL_MISSING.width (s.get .ATN_POOL_MISSING q.pool) 1 ∧
        q.since + 400 * s.get .ATN_PEER_TMO ≤ t.tick ∧ a ∈ s.attn)) ∧
      (∀ k : Unit32, (s.dec.find? (fun x => x.running.any (fun r => r.2 == k.val)) = none → exec (.decSampleDecoded k) s = .next s) ∧
        ∀ x slot g j P r y d l img where' looked, s.dec.find? (fun x => x.running.any (fun r => r.2 == k.val)) = some x →
          x.running.find? (fun r => r.2 == k.val) = some (slot, g) → s.fetchEnv x = some (j, P, r, y, d) → x.entries.getD slot none = some l →
          s.decodeSlot x.part d l = (img, where', looked) → (∀ a n, where' = some (a, n) → s.badKeys a n = []) →
          Answers (.decSampleDecoded k) s (fun t => (∃ f ∈ t.dec, f.job = x.job ∧ f.desc = x.desc ∧ (slot, img) ∈ f.decoded) ∧
            (img.hit = true → t.get .DEC_CNT_HIT = satAdd Fld.DEC_CNT_HIT.width (s.get .DEC_CNT_HIT) 1 ∧ t.get .DEC_SYMBOLS = s.get .DEC_SYMBOLS) ∧
            (img.hit = false → t.get .DEC_SYMBOLS = satAdd Fld.DEC_SYMBOLS.width (s.get .DEC_SYMBOLS) img.symbols))) ∧
      (s.dec.find? (fun x => x.readySlot.isSome) = none → exec .decSampleDelivered s = .next s) ∧
      (∀ x img j P r y d, s.dec.find? (fun x => x.readySlot.isSome) = some x → x.readySlot = some img → s.fetchEnv x = some (j, P, r, y, d) →
        (s.blocked (s.envOf j P r x.desc) r x.desc x.delivered = true → exec .decSampleDelivered s = .next s) ∧
        (s.blocked (s.envOf j P r x.desc) r x.desc x.delivered = false → Answers .decSampleDelivered s (fun t =>
          t.get .DEC_CNT_SAMPLES = satAdd Fld.DEC_CNT_SAMPLES.width (s.get .DEC_CNT_SAMPLES) 1 ∧
          (img.status = 1 → t.event decPage 0 = true ∧ t.get .DEC_CNT_BUDGET = satAdd Fld.DEC_CNT_BUDGET.width (s.get .DEC_CNT_BUDGET) 1) ∧
          (img.status = 2 → t.event decPage 1 = true ∧ t.get .DEC_CNT_HEADER = satAdd Fld.DEC_CNT_HEADER.width (s.get .DEC_CNT_HEADER) 1) ∧
          (img.status = 3 → t.event decPage 2 = true ∧ t.get .DEC_CNT_FORMAT = satAdd Fld.DEC_CNT_FORMAT.width (s.get .DEC_CNT_FORMAT) 1) ∧
          (img.trunc = true → t.event decPage 3 = true ∧ t.get .DEC_CNT_TRUNC = satAdd Fld.DEC_CNT_TRUNC.width (s.get .DEC_CNT_TRUNC) 1))))) ∧
    (∀ fn : Fn, s.opens fn decPage 0x114 = true → (s.bePart = none → exec (.decCacheFlush fn) s = .next s) ∧
      ∀ p, s.bePart = some p → Answers (.decCacheFlush fn) s (fun t => ∀ i a n, i < s.get .DEC_CACHE_CFG_slots →
        s.cacheSlot p i = some (a, n) → t.devRead (a + tagValid) 1 = [0]))

/-! ## Position, time and field signals -/

/-- The encoder ports (R326 to R340): accepted levels of A and B are shown; on a port that counts, a step by one moves the raw count wrapped to 48 bits and the
reported count by the hysteresis, and a step by two is counted as QUAD. A rising Z under its gate latches the index registers. A frame with a start bit and
a right CRC gives the position or a difference, another is counted as bad; a sample within the window gives the angle code, one outside it is bad. The
end of a speed window shows count, index and rate; the active port's rate sets the speed that EJT uses. ENC_SEL is refused with 0x91 while it is in use or where
backup and belt are one. A permanent active port gives the belt position to its backup or loses it.
Choices of the model in it: assumption log 2, 4, 6, 93, 95, 96. -/
def Obligations.EncodersFollowTheBelt : Prop :=
  ∀ s : State,
    (s.awake = true → ∀ e : EncPort,
      (∀ (a b : Bool) (old step : Nat) (d r : Int), old = s.get .ENC_STATUS_abz e →
        step = (quadIndex a b + 4 - quadIndex (bit old 0) (bit old 1)) % 4 →
        d = (if (step = 1 ↔ s.isOn .ENC_CFG_invert e = false) then 1 else -1) → r = wrap48 (s.encRaw e + d) →
        Answers (.encoderEdge e a b) s (fun t => t.get .ENC_STATUS_abz e = (b2n a + 2 * b2n b + old / 4 * 4) % 2 ^ Fld.ENC_STATUS_abz.width ∧
          ((s.encLive e = false ∨ s.get .ENC_CFG_mode e ≠ 0 ∨ step = 0) → State.Only [(.ENC_STATUS_abz, e, 0)] s t) ∧
          (s.encLive e = true → s.get .ENC_CFG_mode e = 0 → (step = 1 ∨ step = 3) → t.get .ENC_RAW e = toU 64 r ∧
            t.get .ENC_POS e = toU 64 (hysteresis r (s.encPos e) (s.isOn .ENC_STATUS_dir e) (s.isOn .ENC_STATUS_held e) (d < 0) 1).1) ∧
          (s.encLive e = true → s.get .ENC_CFG_mode e = 0 → step = 2 → t.event (encPage e) 1 = true ∧ t.get .ENC_RAW e = s.get .ENC_RAW e ∧
            t.get .ENC_CNT_QUAD e = satAdd Fld.ENC_CNT_QUAD.width (s.get .ENC_CNT_QUAD e) 1))) ∧
      (∀ (high : Bool) (old : Nat), old = s.get .ENC_STATUS_abz e → Answers (.indexEdge e high) s (fun t =>
        ((s.encLive e = false ∨ s.get .ENC_CFG_mode e ≠ 0 ∨ high = false ∨ bit old 2 = true ∨ (s.isOn .ENC_CFG_z_gate e = true ∧ old % 4 ≠ 3)) →
          State.Only [(.ENC_STATUS_abz, e, 0)] s t) ∧
        (s.encLive e = true → s.get .ENC_CFG_mode e = 0 → high = true → bit old 2 = false → (s.isOn .ENC_CFG_z_gate e = true → old % 4 = 3) →
          t.event (encPage e) 0 = true ∧ t.get .ENC_IDX_RAW e = s.get .ENC_RAW e % 2 ^ Fld.ENC_IDX_RAW.width ∧
          t.get .ENC_IDX_POS e = s.get .ENC_POS e % 2 ^ Fld.ENC_IDX_POS.width ∧
          t.get .ENC_IDX_PREV_RAW e = s.get .ENC_IDX_RAW e % 2 ^ Fld.ENC_IDX_PREV_RAW.width ∧
          t.get .ENC_IDX_SEC e = s.sec % 2 ^ Fld.ENC_IDX_SEC.width ∧ t.get .ENC_IDX_NS e = s.ns % 2 ^ Fld.ENC_IDX_NS.width ∧
          t.get .ENC_IDX_SEQ e = (s.get .ENC_IDX_SEQ e + 1) % 2 ^ Fld.ENC_IDX_SEQ.width))) ∧
      (∀ samples : List Bool,
        ((s.get .ENC_CFG_mode e ≠ 1 ∨ s.isOn .ENCX_BUSY e = false) → exec (.absFrameComplete e samples) s = .next s) ∧
        (s.get .ENC_CFG_mode e = 1 → s.isOn .ENCX_BUSY e = true → s.encGone e = false → Answers (.absFrameComplete e samples) s (fun t =>
          t.isOn .ENCX_BUSY e = false ∧
          (s.absFrame e samples = none → t.get .ENC_CNT_BAD e = satAdd Fld.ENC_CNT_BAD.width (s.get .ENC_CNT_BAD e) 1 ∧ t.get .ENC_RAW e = s.get .ENC_RAW e) ∧
          (∀ d st w, s.absFrame e samples = some (d, st) → w = bitsVal (if s.isOn .ENC_ABS_gray e then grayDecode d else d) →
            8 ≤ s.get .ENC_ABS_bits e → s.get .ENC_ABS_bits e ≤ 48 → t.get .ENC_STATUS_abs_stat e = bitsVal st % 2 ^ Fld.ENC_STATUS_abs_stat.width ∧
            t.get .ENCX_WPREV e = w % 2 ^ Fld.ENCX_WPREV.width ∧ t.isOn .ENCX_WVALID e = true ∧
            (s.isOn .ENCX_WVALID e = false → t.get .ENC_RAW e = toU 64 (sext (s.get .ENC_ABS_bits e) w)) ∧
            (s.isOn .ENCX_WVALID e = true → ∀ x : Int, x = sext (s.get .ENC_ABS_bits e)
              ((w + 2 ^ s.get .ENC_ABS_bits e - s.get .ENCX_WPREV e) % 2 ^ s.get .ENC_ABS_bits e) →
              t.get .ENC_RAW e = toU 64 (wrap48 (s.encRaw e + (if s.isOn .ENC_CFG_invert e then -x else x)))))))) ∧
      (∀ sn cs : BitVec 14,
        ((s.get .ENC_CFG_mode e ≠ 2 ∨ s.isOn .ENCX_BUSY e = false) → exec (.sincosSample e sn cs) s = .next s) ∧
        (s.get .ENC_CFG_mode e = 2 → s.isOn .ENCX_BUSY e = true → s.encGone e = false → ∀ (u : State) (x y m A : Int),
          u = s.runTo (s.get .ENCX_LAST e - 1 + 176) → x = sn.toInt - sext 14 (u.get .ENC_SC_OFF_off_s e) →
          y = cs.toInt - sext 14 (u.get .ENC_SC_OFF_off_c e) → m = 100 * (x * x + y * y) → A = u.get .ENC_SC_nominal e →
          Answers (.sincosSample e sn cs) s (fun t => t.isOn .ENCX_BUSY e = false ∧ t.tick = u.tick ∧
            t.get .ENC_SC_LAST_s e = toU 14 sn.toInt ∧ t.get .ENC_SC_LAST_c e = toU 14 cs.toInt ∧
            ((m < (u.get .ENC_SC_WIN_lo e : Int) * (A * A) ∨ (u.get .ENC_SC_WIN_hi e : Int) * (A * A) < m) → t.get .ENC_STATUS_sc_out e = 1 ∧
              t.get .ENC_CNT_BAD e = satAdd Fld.ENC_CNT_BAD.width (u.get .ENC_CNT_BAD e) 1) ∧
            ((u.get .ENC_SC_WIN_lo e : Int) * (A * A) ≤ m → m ≤ (u.get .ENC_SC_WIN_hi e : Int) * (A * A) → (x ≠ 0 ∨ y ≠ 0) →
              t.get .ENC_STATUS_sc_out e = 0 ∧ t.get .ENCX_APREV e = angleCode (u.get .ENC_SC_k e) x y % 2 ^ Fld.ENCX_APREV.width ∧
              (u.isOn .ENCX_AVALID e = true → ∀ v : Int, v = sext (u.get .ENC_SC_k e) ((angleCode (u.get .ENC_SC_k e) x y + 2 ^ u.get .ENC_SC_k e -
                u.get .ENCX_APREV e) % 2 ^ u.get .ENC_SC_k e) →
                t.get .ENC_RAW e = toU 64 (wrap48 (u.encRaw e + (if u.isOn .ENC_CFG_invert e then -v else v)))))))) ∧
      (s.encOn e = false → exec (.speedWindowEnd e) s = .next s) ∧
      (s.encOn e = true → ∀ (u : State) (n : Int) (rate : Nat), u = s.runTo (s.get .ENCX_WEND e) → n = sext 64 (u.get .ENCX_COUNT e) →
        rate = f32Quot (n * 1000000) (u.get .ENCX_WLEN e) → Answers (.speedWindowEnd e) s (fun t =>
          t.get .ENC_SPEED_CNT e = toU 32 n ∧ t.get .ENC_SPEED_WIN e = u.get .ENCX_WIDX e % 2 ^ Fld.ENC_SPEED_WIN.width ∧
          t.get .ENC_SPEED_RATE e = rate % 2 ^ 32 ∧ t.get .ENCX_COUNT e = 0 ∧ t.get .ENCX_WIDX e = (u.get .ENCX_WIDX e + 1) % 2 ^ Fld.ENCX_WIDX.width ∧
          (e.val = u.activePort → t.get .EJT_SPEED_USED = (if u.isOn .EJT_SPEED_CFG_pin then u.get .EJT_SPEED_FIX
            else f32Min (f32Max rate (u.get .EJT_SPEED_MIN)) (u.get .EJT_SPEED_MAX)) % 2 ^ Fld.EJT_SPEED_USED.width)))) ∧
    (∀ (fn : Fn) (belt backup : EncPort) (en : Bool), s.opens fn (encPage 0) 0x200 = true →
      ((s.encoderCapture = true ∨ s.isOn (.CTRL_enable .ejt) = true ∨ (en = true ∧ backup = belt)) →
        Answers (.encSelWrite fn belt backup en) s (fun t => State.Refuses s t (encPage 0) fn 0x200 0x91)) ∧
      (s.encoderCapture = false → s.isOn (.CTRL_enable .ejt) = false → (en = true → backup ≠ belt) →
        Answers (.encSelWrite fn belt backup en) s (fun t => t.get .ENC_SEL_belt = belt ∧ t.get .ENC_SEL_backup = backup ∧
          t.get .ENC_SEL_backup_en = b2n en ∧ t.get .ENC_SEL_on_backup = 0 ∧ t.get .ENC_SEL_belt_ok = 1 ∧
          State.Only [(.ENC_SEL_belt, 0, 0), (.ENC_SEL_backup, 0, 0), (.ENC_SEL_backup_en, 0, 0), (.ENC_SEL_on_backup, 0, 0),
            (.ENC_SEL_belt_ok, 0, 0), (.ENCX_DELTA_SET, 0, 0)] s t))) ∧
    (s.isOn .ENC_SEL_belt_ok = true →
      (s.backupReady = true → s.activeGone.isOn .ENC_SEL_on_backup = true ∧ s.activeGone.event (encPage 0) 8 = true) ∧
      (s.backupReady = false → s.activeGone.isOn .ENC_SEL_belt_ok = false ∧ s.activeGone.event (encPage 0) 9 = true ∧
        s.activeGone.get .ENC_BELT_POS = toU 64 s.beltPos))

/-- The device time (R341 to R348): a set takes the time from TIM_SET_SEC and TIM_SET_NS at once, or waits with go for the next rising PPS edge; another set, or
a change of `at`, is refused while one waits, and a cancel ends the wait; an adjustment adds its signed nanoseconds, is refused beyond a second, and stops at zero with
a code. A PPS edge is captured with time and position. Each carry into the seconds is an event that keeps its second and first tick. Arming a compare unit
loads its target; a match disarms a one-shot unit and moves a periodic target past the time. While the reference is lost the held rate
deviates by a free value.
Choices of the model in it: assumption log 4, 6, 97, 98, 99, 101. -/
def Obligations.DeviceTimeIsSetAndKept : Prop :=
  ∀ s : State,
    (∀ fn : Fn, s.opens fn timPage 0x124 = true →
      (s.isOn .TIM_SET_go = false → Answers (.timeSetImmediate fn) s (fun t => t.sec = s.get .TIM_SET_SEC ∧ t.ns = s.get .TIM_SET_NS ∧
        t.frac = 0 ∧ t.tick = s.tick ∧ t.get .TIM_SET_at = 0 ∧ t.event timPage 1 = true)) ∧
      (s.isOn .TIM_SET_go = false → Answers (.timeSetAtPps fn) s (fun t => t.get .TIM_SET_at = 1 ∧ t.get .TIM_SET_go = 1 ∧
        State.Only [(.TIM_SET_at, 0, 0), (.TIM_SET_go, 0, 0)] s t)) ∧
      (s.isOn .TIM_SET_go = true →
        (s.get .TIM_SET_at = 0 → exec (.timeSetImmediate fn) s = .next s) ∧
        (s.get .TIM_SET_at ≠ 0 → Answers (.timeSetImmediate fn) s (fun t => State.Refuses s t timPage fn 0x124 0x9B)) ∧
        (s.get .TIM_SET_at = 1 → exec (.timeSetAtPps fn) s = .next s) ∧
        (s.get .TIM_SET_at ≠ 1 → Answers (.timeSetAtPps fn) s (fun t => State.Refuses s t timPage fn 0x124 0x9B))) ∧
      (s.get .TIM_SET_at < 4 → Answers (.timeSetCancel fn) s (fun t => t.get .TIM_SET_go = 0 ∧ State.Only [(.TIM_SET_go, 0, 0)] s t))) ∧
    (∀ (fn : Fn) (v : BitVec 32), s.opens fn timPage 0x128 = true →
      (999999999 < v.toInt.natAbs → Answers (.timeAdjust fn v) s (fun t => State.Refuses s t timPage fn 0x128 0x9A)) ∧
      (v.toInt.natAbs ≤ 999999999 → (s.timeNs : Int) + v.toInt < 0 → Answers (.timeAdjust fn v) s (fun t => t.sec = 0 ∧ t.ns = 0 ∧ t.frac = 0 ∧
        t.event timPage 31 = true ∧ (s.isOn (.ERR_INFO_valid .tim) = false → t.get (.ERR_INFO_detail .tim) % 2 ^ 8 = 0x9C))) ∧
      (v.toInt.natAbs ≤ 999999999 → 0 ≤ (s.timeNs : Int) + v.toInt → Answers (.timeAdjust fn v) s (fun t =>
        t.sec = ((s.timeNs : Int) + v.toInt).toNat / 10 ^ 9 % 2 ^ 64 ∧ t.ns = ((s.timeNs : Int) + v.toInt).toNat % 10 ^ 9 ∧
        t.frac = s.frac ∧ t.tick = s.tick))) ∧
    (∀ rising : Bool, Answers (.ppsEdge rising) s (fun t => t.tick = s.tick ∧
      ((rising = false ∨ s.isOn .TIM_SET_go = false) → t.sec = s.sec ∧ t.ns = s.ns ∧ t.frac = s.frac) ∧
      (rising = true → s.isOn .TIM_SET_go = true → t.sec = s.get .TIM_SET_SEC ∧ t.ns = s.get .TIM_SET_NS ∧ t.frac = 0 ∧
        t.isOn .TIM_SET_go = false ∧ t.event timPage 1 = true) ∧
      ∀ n, n < 16 → s.get .TIM_CAP_CFG_src 0 n = 1 → (s.get .TIM_CAP_CFG_edge 0 n = 3 ∨ s.get .TIM_CAP_CFG_edge 0 n = (if rising then 1 else 2)) →
        t.get .TIM_CAP_SEC 0 n = t.sec % 2 ^ Fld.TIM_CAP_SEC.width ∧ t.get .TIM_CAP_NS 0 n = t.ns % 2 ^ Fld.TIM_CAP_NS.width ∧
        t.get .TIM_CAP_POS 0 n = toU 64 s.beltPos ∧ t.get .TIM_CAP_SEQ 0 n = (s.get .TIM_CAP_SEQ 0 n + 1) % 2 ^ Fld.TIM_CAP_SEQ.width)) ∧
    (s.ns < 10 ^ 9 → s.frac < 2 ^ 32 → s.get .TIMX_DRIFT < 171799 → Answers .secondsRollover s (fun t => t.event timPage 0 = true ∧
      t.sec = (s.sec + 1) % 2 ^ 64 ∧ t.ns < 10 ^ 9 ∧ t.get .TIM_ROLL_SEC = t.sec % 2 ^ Fld.TIM_ROLL_SEC.width ∧ t.get .TIM_ROLL_EVT_NS = t.ns % 2 ^ Fld.TIM_ROLL_EVT_NS.width ∧
      s.tick < t.tick)) ∧
    (∀ (fn : Fn) (k : Unit16), s.opens fn timPage (0x210 + k * 0x20) = true →
      (s.isOn .TIM_CMP_CTRL_arm 0 k = false → Answers (.compareArm fn k) s (fun t => t.get .TIM_CMP_CTRL_arm 0 k = 1 ∧
        t.get .TIM_CMP_NEXT_SEC 0 k = s.get .TIM_CMP_SEC 0 k % 2 ^ Fld.TIM_CMP_NEXT_SEC.width ∧
        t.get .TIM_CMP_NEXT_NS 0 k = s.get .TIM_CMP_NS 0 k % 2 ^ Fld.TIM_CMP_NEXT_NS.width ∧
        t.isOn .TIM_CMP_CTRL_irq 0 k = s.isOn .TIM_CMP_CTRL_irq 0 k ∧
        State.Only [(.TIM_CMP_CTRL_arm, 0, k), (.TIM_CMP_CTRL_irq, 0, k), (.TIM_CMP_NEXT_SEC, 0, k), (.TIM_CMP_NEXT_NS, 0, k)] s t)) ∧
      (s.isOn .TIM_CMP_CTRL_arm 0 k = true → Answers (.compareArm fn k) s (fun t =>
        t.isOn .TIM_CMP_CTRL_irq 0 k = s.isOn .TIM_CMP_CTRL_irq 0 k ∧ State.Only [(.TIM_CMP_CTRL_irq, 0, k)] s t))) ∧
    (∀ k : Unit16, (s.isOn .TIM_CMP_CTRL_arm 0 k = false → exec (.compareMatch k) s = .next s) ∧
      (s.isOn .TIM_CMP_CTRL_arm 0 k = true → ∀ u, u = s.runToTime (s.get .TIM_CMP_NEXT_SEC 0 k) (s.get .TIM_CMP_NEXT_NS 0 k) →
        u.cmpTarget k ≤ u.timeNs → Answers (.compareMatch k) s (fun t => t.tick = u.tick ∧ t.timeNs = u.timeNs ∧
          (s.isOn .TIM_CMP_CTRL_irq 0 k = true → t.event timPage (15 + k) = true) ∧
          (u.get .TIM_CMP_PER 0 k = 0 → t.isOn .TIM_CMP_CTRL_arm 0 k = false) ∧
          (0 < u.get .TIM_CMP_PER 0 k → u.timeNs + u.get .TIM_CMP_PER 0 k < 2 ^ 64 * 10 ^ 9 →
            t.isOn .TIM_CMP_CTRL_arm 0 k = true ∧ u.timeNs < t.cmpTarget k ∧ t.cmpTarget k ≤ u.timeNs + u.get .TIM_CMP_PER 0 k ∧
            u.get .TIM_CMP_PER 0 k ∣ t.cmpTarget k - u.cmpTarget k ∧
            (u.cmpTarget k + u.get .TIM_CMP_PER 0 k ≤ u.timeNs → t.event timPage 3 = true))))) ∧
    (s.isOn .TIM_STATUS_ref_ok = true → Answers .refLost s (fun t => t.get .TIM_STATUS_ref_ok = 0 ∧ t.event timPage 2 = true ∧
      t.get .TIMX_DRIFT = freeDrift s.draws % 171799 ∧ t.draws = s.draws + 1)) ∧
    (s.isOn .TIM_STATUS_ref_ok = false → exec .refLost s = .next s ∧ Answers .refReturn s (fun t => t.get .TIM_STATUS_ref_ok = 1 ∧
      t.get .TIMX_DRIFT = 85899 ∧ State.Only [(.TIM_STATUS_ref_ok, 0, 0), (.TIMX_DRIFT, 0, 0)] s t)) ∧
    (s.isOn .TIM_STATUS_ref_ok = true → exec .refReturn s = .next s)

/-- FIO (R392 to R400): a sample moves the counter of each input by its band, and where it reaches the end of its range the filtered level changes with its
sequence number; a break that reaches its count is flagged with an event; a readback that differs from a settled output for the fourth time is an error. A write
of FIO_OUT_SET drives the outputs unless they are held. Enabling the watchdog starts its first period; a valid kick starts the next, another kick or the end of
a period holds the outputs in their safe state; a release needs the watchdog, a valid kick since and no stop, and is else refused with 0xB2; the
outputs then follow their commands from where they agree.
Choices of the model in it: assumption log 2, 6, 106, 107. -/
def Obligations.FieldSignalsAndSafeState : Prop :=
  ∀ s : State,
    (s.awake = true → ∀ (on broken : BitVec 32) (rb : BitVec 16),
      ((s.isOn (.CTRL_enable .fio) = false ∨ s.isOn (.CTRL_quiesce .fio) = true) → exec (.fieldInputSample on broken rb) s = .next s) ∧
      (s.isOn (.CTRL_enable .fio) = true → s.isOn (.CTRL_quiesce .fio) = false → Answers (.fieldInputSample on broken rb) s (fun t =>
        t.get .FIO_OUT_PIN_readback = rb.toNat ∧
        (∀ i n q, i < 32 → n = s.get .FIO_IN_CFG_n 0 i → q = s.get .FIO_IN_STAT_q 0 i →
          (bit on.toNat i = true → bit broken.toNat i = false → t.get .FIO_IN_STAT_band 0 i = 2 ∧
            t.get .FIO_IN_STAT_q 0 i = min n (q + 1) % 2 ^ Fld.FIO_IN_STAT_q.width ∧
            (min n (q + 1) = n → s.isOn .FIO_IN_STAT_state 0 i = false → bit (s.get .FIO_RETIRED) i = false →
              t.isOn .FIO_IN_STAT_state 0 i = true ∧ bit (t.get .FIO_IN_LEVEL) i = true ∧ t.isOn .FIO_IN_EDGE_rising 0 i = true ∧
              t.get .FIO_IN_SEQ 0 i = (s.get .FIO_IN_SEQ 0 i + 1) % 2 ^ Fld.FIO_IN_SEQ.width ∧
              (s.isOn .FIO_IN_CFG_irq_rise 0 i = true → t.event fioPage 0 = true))) ∧
          ((bit on.toNat i = false ∨ bit broken.toNat i = true) → t.get .FIO_IN_STAT_band 0 i = (if bit broken.toNat i then 0 else 1) ∧
            t.get .FIO_IN_STAT_q 0 i = min n (q - 1) % 2 ^ Fld.FIO_IN_STAT_q.width ∧
            (min n (q - 1) = 0 → s.isOn .FIO_IN_STAT_state 0 i = true → bit (s.get .FIO_RETIRED) i = false →
              t.isOn .FIO_IN_STAT_state 0 i = false ∧ bit (t.get .FIO_IN_LEVEL) i = false ∧ t.isOn .FIO_IN_EDGE_rising 0 i = false ∧
              t.get .FIO_IN_SEQ 0 i = (s.get .FIO_IN_SEQ 0 i + 1) % 2 ^ Fld.FIO_IN_SEQ.width)) ∧
          (bit broken.toNat i = true → s.isOn .FIO_IN_CFG_break_en 0 i = true → min n (s.get .FIO_IN_STAT_b 0 i + 1) = n →
            bit (s.get .FIO_IN_BROKEN) i = false → bit (t.get .FIO_IN_BROKEN) i = true ∧ t.event fioPage 2 = true)) ∧
        (∀ k, k < 16 → bit (s.get .FIO_RB_CFG_enable) k = true → s.get .FIOX_CHANGED 0 k = 0 →
          bit rb.toNat k ≠ bit (s.get .FIO_OUT_PIN_drive) k →
          (s.get .FIOX_MISMATCH 0 k < 3 → t.get .FIOX_MISMATCH 0 k = s.get .FIOX_MISMATCH 0 k + 1) ∧
          (3 ≤ s.get .FIOX_MISMATCH 0 k → t.get .FIOX_MISMATCH 0 k = 0 ∧ bit (t.get .FIO_RB_ERR) k = true ∧ t.event fioPage 3 = true))))) ∧
    (∀ (fn : Fn) (v : BitVec 32), s.opens fn fioPage 0x11C = true → Answers (.outputSetWrite fn v) s (fun t =>
      t.get .FIO_OUT_SET = v.toNat % 2 ^ 16 ∧ (s.isOn .FIOX_SAFE_LOW = true → t.get .FIO_OUT_PIN_drive = 0) ∧
      (s.isOn .FIOX_SAFE_LOW = false → s.isOn .FIO_SAFE_held = true → t.get .FIO_OUT_PIN_drive = s.get .FIO_SAFE_FO % 2 ^ 16) ∧
      (s.isOn .FIOX_SAFE_LOW = false → s.isOn .FIO_SAFE_held = false → s.get .FIOX_FOLLOW_FO = 65535 →
        t.get .FIO_OUT_PIN_drive = t.foCommand % 2 ^ 16))) ∧
    (∀ fn : Fn, s.opens fn fioPage 0x130 = true → s.get .FIO_WDOG_period_ms < 2 ^ 14 →
      (s.isOn .FIO_WDOG_enable = false → Answers (.watchdogEnable fn) s (fun t => t.get .FIO_WDOG_enable = 1 ∧ t.get .FIOX_KICKED = 0 ∧
        t.get .FIOX_WD_END = (s.tick + s.get .FIO_WDOG_period_ms * 400000) % 2 ^ 64 ∧
        State.Only [(.FIO_WDOG_enable, 0, 0), (.FIOX_KICKED, 0, 0), (.FIOX_KICK, 0, 0), (.FIOX_WD_END, 0, 0)] s t)) ∧
      (s.isOn .FIO_WDOG_enable = true → exec (.watchdogEnable fn) s = .next s)) ∧
    (∀ (fn : Fn) (v : BitVec 32) (k : Nat), s.opens fn fioPage 0x134 = true →
      k = (if v.toNat % 2 ^ 16 = 0xA5A5 then 1 else if v.toNat % 2 ^ 16 = 0x5A5A then 2 else 0) →
      (s.isOn .FIO_WDOG_enable = false → exec (.watchdogKick fn v) s = .next s) ∧
      (s.isOn .FIO_WDOG_enable = true → k ≠ 0 → k ≠ s.get .FIOX_KICK → s.tick < s.get .FIOX_WD_END → Answers (.watchdogKick fn v) s (fun t =>
        t.get .FIOX_KICK = k ∧ t.get .FIOX_KICKED = 1 ∧ t.get .FIOX_WD_END = (s.tick + s.get .FIO_WDOG_period_ms * 400000) % 2 ^ 64 ∧
        State.Only [(.FIOX_KICK, 0, 0), (.FIOX_KICKED, 0, 0), (.FIOX_WD_END, 0, 0)] s t)) ∧
      (s.isOn .FIO_WDOG_enable = true → (k = 0 ∨ k = s.get .FIOX_KICK ∨ s.get .FIOX_WD_END ≤ s.tick) → Answers (.watchdogKick fn v) s (fun t =>
        t.get .FIO_SAFE_held = 1 ∧ t.event fioPage 4 = true ∧ t.get .FIO_CNT_WDOG = satAdd Fld.FIO_CNT_WDOG.width (s.get .FIO_CNT_WDOG) 1))) ∧
    (s.awake = true →
      (s.isOn .FIO_WDOG_enable = false → exec .watchdogExpiry s = .next s) ∧
      (s.isOn .FIO_WDOG_enable = true → ∀ u, u = s.runTo (s.get .FIOX_WD_END) → Answers .watchdogExpiry s (fun t => t.tick = u.tick ∧
        t.get .FIO_SAFE_held = 1 ∧ t.event fioPage 4 = true ∧ t.get .FIOX_KICKED = 0 ∧
        ((u.isOn .FIO_SAFE_held = false ∨ u.get .FIO_SAFE_cause ≠ 3) → t.get .FIO_SAFE_cause = 2) ∧
        (u.isOn .FIOX_SAFE_LOW = false → t.get .FIO_OUT_PIN_drive = u.get .FIO_SAFE_FO % 2 ^ 16) ∧
        t.get .FIO_CNT_WDOG = satAdd Fld.FIO_CNT_WDOG.width (u.get .FIO_CNT_WDOG) 1))) ∧
    (∀ fn : Fn, s.opens fn fioPage 0x138 = true →
      ((s.isOn .FIO_WDOG_enable = false ∨ s.isOn .FIOX_KICKED = false ∨ s.get .FIO_SAFE_cause = 3) →
        Answers (.safeRelease fn) s (fun t => State.Refuses s t fioPage fn 0x138 0xB2)) ∧
      (s.isOn .FIO_WDOG_enable = true → s.isOn .FIOX_KICKED = true → s.get .FIO_SAFE_cause ≠ 3 →
        (s.isOn .FIO_SAFE_held = false → exec (.safeRelease fn) s = .next s) ∧
        (s.isOn .FIO_SAFE_held = true → Answers (.safeRelease fn) s (fun t => t.isOn .FIO_SAFE_held = false ∧
          (∀ n, n < 4 → t.get .FIOX_FOLLOW_VP 0 n = 0) ∧
          (s.isOn .FIOX_SAFE_LOW = false → s.get .FIO_SAFE_FO < 2 ^ 16 → s.foCommand < 2 ^ 16 →
            t.get .FIO_OUT_PIN_drive = s.get .FIO_SAFE_FO ∧ t.get .FIOX_FOLLOW_FO = 65535 - (s.foCommand ^^^ s.get .FIO_SAFE_FO))))))

/-! ## Link, power, counters and management -/

/-- The host link, the clock's voltage and the programmable counters (R405, R406, R520, R534 to R537, R558): the link that falls, or is retrained, is counted; one that comes
up shows the smaller of its rate and HLK_LINK_CFG.max_rate, its modules and repairs, with events for a single module and for lost writes, and opens step 3 and the
patch window of a start. A raised voltage that is reached gives the clock its new point, another sends its frame again. A freeze and an unfreeze
set PMC_CTRL.frozen; a clear zeroes the named counters that may be written; a wrap and a crossing set their bits.
Choices of the model in it: assumption log 2, 4, 43, 122, 124. -/
def Obligations.LinkPowerAndCounters : Prop :=
  ∀ s : State,
    (s.linkUp = false → exec .linkDown s = .next s) ∧
    (s.linkUp = true → ∀ c : Instr, (c = .linkDown ∨ ∃ fn, c = .linkRetrain fn ∧ s.opens fn hlkPage 0x104 = true) → Answers c s (fun t =>
      t.linkUp = false ∧ t.get .HLK_LINK_STATUS_modules = 0 ∧ t.event hlkPage 3 = true ∧
      t.get .HLK_CNT_DOWN = satAdd Fld.HLK_CNT_DOWN.width (s.get .HLK_CNT_DOWN) 1 ∧
      State.Only ((.HLK_LINK_STATUS_up, 0, 0) :: (.HLK_LINK_STATUS_modules, 0, 0) :: (.HLK_CNT_DOWN, 0, 0) :: evtCells hlkPage) s t)) ∧
    (∀ (rate : LinkRate) (modules : Modules) (rep : Byte),
      ((s.linkUp = true ∨ modules = 0 ∨ s.mgt.inReset = true) → exec (.linkUp rate modules rep) s = .next s) ∧
      (s.linkUp = false → modules ≠ 0 → s.mgt.inReset = false → Answers (.linkUp rate modules rep) s (fun t => t.linkUp = true ∧
        t.get .HLK_LINK_STATUS_rate = min rate.val (s.get .HLK_LINK_CFG_max_rate) % 2 ^ Fld.HLK_LINK_STATUS_rate.width ∧
        t.get .HLK_LINK_STATUS_modules = modules ∧ t.get .HLK_LINK_STATUS_repaired = rep.toNat % 2 ^ Fld.HLK_LINK_STATUS_repaired.width ∧
        t.event hlkPage 2 = true ∧ (modules = 1 → t.event hlkPage 4 = true) ∧ (s.mgt.wrLost = true → t.event hlkPage 5 = true) ∧
        t.mgt.wrLost = false ∧ (s.mgt.velvetOk = true → s.mgt.linkOk = false → t.mgt.linkOk = true ∧
          (s.mgt.patchOk = false → t.isOn .SEC_PATCH_STATUS_window = true ∧ t.mgt.windowTick = s.tick))))) ∧
    (s.awake = true →
      (∀ reached : Bool, (s.pwr.raise = none → exec (.voltageWaitEnd reached) s = .next s) ∧
        ∀ k, s.pwr.raise = some k → (reached = true → exec (.voltageWaitEnd reached) s = .next { s with pwr := { s.pwr with point := k, raise := none } }) ∧
          (reached = false → exec (.voltageWaitEnd reached) s = .next { s with pwr := { s.pwr with code := pointCode k }, out := s.out ++ [.vid (vidFrame (pointCode k)), .vid (vidFrame (pointCode k))] })) ∧
      (∀ sect : Sect, exec (.railThrottleOn sect) s = .next { s with pwr := { s.pwr with throttled := putBit s.pwr.throttled sect true } } ∧
        exec (.railThrottleOff sect) s = .next { s with pwr := { s.pwr with throttled := putBit s.pwr.throttled sect false } })) ∧
    (∀ fn : Fn, s.opens fn pmcPage 0x100 = true →
      Answers (.pmcFreeze fn) s (fun t => t.isOn .PMC_CTRL_frozen = true ∧ t.get .PMC_CTRL_part_cfg = s.get .PMC_CTRL_part_cfg % 2 ^ 8 ∧
        (s.isOn .PMC_CTRL_frozen = false → t.event pmcPage 2 = true) ∧
        State.Only ((.PMC_CTRL_frozen, 0, 0) :: (.PMC_CTRL_part_cfg, 0, 0) :: evtCells pmcPage) s t) ∧
      Answers (.pmcUnfreeze fn) s (fun t => t.isOn .PMC_CTRL_frozen = false ∧ t.get .PMC_CTRL_part_cfg = s.get .PMC_CTRL_part_cfg % 2 ^ 8 ∧
        State.Only [(.PMC_CTRL_frozen, 0, 0), (.PMC_CTRL_part_cfg, 0, 0)] s t)) ∧
    (∀ (fn : Fn) (mask : BitVec 32), s.opens fn pmcPage 0x110 = true → Answers (.pmcClear fn mask) s (fun t =>
      (∀ n, n < 32 → t.get .PMC_CNT 0 n = (if bit mask.toNat n && s.pmcOpen n then 0 else s.get .PMC_CNT 0 n)) ∧
      ((∃ n, n < 32 ∧ bit mask.toNat n = true ∧ s.pmcOpen n = false) → t.event pmcPage 31 = true ∧
        (s.isOn (.ERR_INFO_valid .pmc) = false → t.get (.ERR_INFO_detail .pmc) % 2 ^ 8 = 0x60)) ∧
      State.Only ((List.range 32).map (fun n => (Fld.PMC_CNT, 0, n)) ++ evtCells pmcPage) s t)) ∧
    (s.awake = true → s.isOn .PMC_CTRL_frozen = false → ∀ n : Unit32,
      ((s.pmcRate n).1 = 0 → exec (.pmcWrap n) s = .next s) ∧
      (∀ v r, v = s.get .PMC_CNT 0 n → r = (s.pmcRate n).1 → r ≠ 0 → v < 2 ^ 32 → (n.val % 2 = 0 → s.pmcChained (n + 1) = false) →
        Answers (.pmcWrap n) s (fun t => t.tick = s.tick + wrapTicks v r ∧ bit (t.get .PMC_OVF) n = true ∧
          (s.isOn .PMC_CNT_SEL_ovf_irq 0 n = true → t.event pmcPage 0 = true))) ∧
      ((s.pmcRate n).2 = none → exec (.pmcCrossing n) s = .next s) ∧
      (∀ v, (s.pmcRate n).2 = some v →
        ((v < s.get .PMC_CNT_THR_thr 0 n ∨ s.get .PMC_CNT_THR_thr 0 n = 0 ∨ s.isOn .PMCX_DISARMED 0 n = true) → exec (.pmcCrossing n) s = .next s) ∧
        (s.get .PMC_CNT_THR_thr 0 n ≤ v → s.get .PMC_CNT_THR_thr 0 n ≠ 0 → s.isOn .PMCX_DISARMED 0 n = false → Answers (.pmcCrossing n) s (fun t =>
          t.tick = s.tick + 1 ∧ bit (t.get .PMC_XING) n = true ∧ t.isOn .PMCX_DISARMED 0 n = true ∧
          (s.isOn .PMC_CNT_SEL_xing_irq 0 n = true → t.event pmcPage 1 = true)))))

/-- Resets and the steps of a start (R482 to R490, R526, R551 to R553, R561): power and a failing rail reset every register and make the next start cold; a low RESET_N that
is recognised resets all but the lanes that keep their lock; its rise begins a start with its causes and time zero, or lets work go on. MGT_RESET wants its
key, and the reset it requests waits for Velvet and begins a start. The fuses, Velvet, COOLANT_OK, HBM, the start scrub and the restore end their steps in turn; the start
OK counts only in its window.
Choices of the model in it: assumption log 2, 4, 6, 110, 113, 114, 115. -/
def Obligations.ResetsAndStartsGoTheirSteps : Prop :=
  ∀ s : State,
    Answers .powerOn s (fun t => t.mgt.inReset = true ∧ t.mgt.resetLow = true ∧ t.mgt.next.powerOn = true ∧ t.mgt.next.cold = true ∧ t.sram = [] ∧
      (s.mgt.capture = none → t.velvet = s.velvet) ∧ t.fuses = s.fuses ∧ t.commits = [] ∧ t.held = none ∧
      ∀ f i j, outside [(.TIM_STATUS_ref_mhz, 0, 0)] f i j = true → t.get f i j = f.resetAt j) ∧
    (exec .resetNFall s = .next (s.modMgt (fun m => { m with resetLow := true, selfRefresh := true, thermStop := true }))) ∧
    ((s.mgt.resetLow = false ∨ s.mgt.inReset = true) → exec .resetRecognised s = .next s) ∧
    (s.mgt.resetLow = true → s.mgt.inReset = false → Answers .resetRecognised s (fun t => t.mgt.inReset = true ∧ t.mgt.next.pin = true ∧
      t.mgt.next.cold = false ∧ t.velvet = s.velvetCut ∧ (s.mgt.capture = none → t.velvet = s.velvet) ∧ t.hbm = s.hbm ∧ t.commits = [] ∧ t.linkUp = false ∧
      (∀ l, l < 24 → t.get .LAN_STATUS_locked l = s.get .LAN_STATUS_locked l % 2) ∧
      ∀ f i j, f.kind ≠ .lan → outside [(.TIM_STATUS_ref_mhz, 0, 0)] f i j = true → t.get f i j = f.resetAt j)) ∧
    (∀ refsel : Bool, (s.mgt.resetLow = false → exec (.resetNRise refsel) s = .next s) ∧
      (s.mgt.resetLow = true → s.mgt.inReset = true → Answers (.resetNRise refsel) s (fun t => t.mgt.inReset = false ∧ t.mgt.resetLow = false ∧
        t.sec = 0 ∧ t.ns = 0 ∧ t.frac = 0 ∧ t.get .TIM_STATUS_ref_mhz = b2n refsel ∧ t.get .MGT_RESET_CAUSE_power_on = b2n s.mgt.next.powerOn ∧
        t.get .MGT_RESET_CAUSE_pin = b2n s.mgt.next.pin ∧ t.get .MGT_RESET_CAUSE_software = b2n s.mgt.next.software ∧
        t.get .MGT_RESET_CAUSE_coolant = b2n s.mgt.next.coolant ∧ t.get .MGT_RESET_CAUSE_thermal = b2n s.mgt.next.thermal ∧
        t.get .MGT_RESET_CAUSE_warm = b2n !s.mgt.next.cold)) ∧
      (s.mgt.resetLow = true → s.mgt.inReset = false → s.stopped = true → exec (.resetNRise refsel) s = .next (s.modMgt (fun m => { m with resetLow := false }))) ∧
      (s.mgt.resetLow = true → s.mgt.inReset = false → s.stopped = false → exec (.resetNRise refsel) s =
        .next (s.modMgt (fun m => { m with resetLow := false, selfRefresh := false, thermStop := !m.velvetOk })))) ∧
    ((s.mgt.resetLow = true ∨ s.mgt.inReset = true) → exec .railUndervoltage s = .next s) ∧
    (s.mgt.resetLow = false → s.mgt.inReset = false → Answers .railUndervoltage s (fun t => t.mgt.inReset = true ∧ t.mgt.resetLow = true ∧
      t.mgt.next.powerOn = true ∧ t.mgt.next.cold = true ∧ (s.mgt.capture = none → t.velvet = s.velvet) ∧ t.commits = [] ∧
      ∀ f i j, outside [(.TIM_STATUS_ref_mhz, 0, 0)] f i j = true → t.get f i j = f.resetAt j)) ∧
    (∀ (fn : Fn) (cold scrub : Bool) (key : BitVec 16), s.opens fn mgtPage 0x10C = true →
      (key ≠ 0xC0DE → Answers (.mgtReset fn cold scrub key) s (fun t => State.Refuses s t mgtPage fn 0x10C 0xE1)) ∧
      (key = 0xC0DE → Answers (.mgtReset fn cold scrub key) s (fun t => t.get .MGT_RESET_kind = b2n cold ∧ t.get .MGT_RESET_scrub = b2n scrub ∧
        t.mgt.request = (if s.mgt.request.isNone then some (cold, scrub) else s.mgt.request) ∧
        State.Only [(.MGT_RESET_go, 0, 0), (.MGT_RESET_kind, 0, 0), (.MGT_RESET_scrub, 0, 0), (.MGT_RESET_key, 0, 0)] { s with mgt := t.mgt } t))) ∧
    ((s.mgt.request = none ∨ s.isOn .RET_STATUS_busy = true ∨ s.flt.unrecorded ≠ []) → exec .mgtResetExecute s = .next s) ∧
    (∀ cold scrub, s.mgt.request = some (cold, scrub) → s.isOn .RET_STATUS_busy = false → s.flt.unrecorded = [] → Answers .mgtResetExecute s (fun t =>
      t.mgt.inReset = false ∧ t.get .MGT_RESET_CAUSE_software = 1 ∧ t.get .MGT_RESET_CAUSE_power_on = 0 ∧
      t.get .MGT_RESET_CAUSE_warm = b2n !(cold && !(s.mgt.next.coolant || s.mgt.next.thermal)) ∧ t.mgt.scrubWanted = scrub ∧ t.sec = 0 ∧
      t.linkUp = ((!cold || s.stopped) && s.linkUp) ∧ (s.mgt.capture = none → t.velvet = s.velvet) ∧ t.commits = [] ∧ t.mgt.request = none)) ∧
    ((s.mgt.inReset = true ∨ s.mgt.fuseTick ≠ none) → exec .fuseLoadDone s = .next s) ∧
    (s.mgt.inReset = false → s.mgt.fuseTick = none → Answers .fuseLoadDone s (fun t => t.mgt.fuseTick = some s.tick ∧
      t.flt.leakEnds = (List.range 6).map (fun k => s.tick + s.leakTicks k) ∧ t.windowEnd = some (s.tick + windowTicks))) ∧
    (∀ coolant ue r0 r1 : Bool,
      ((s.mgt.inReset = true ∨ s.mgt.fuseTick = none ∨ s.mgt.velvetOk = true ∨ s.mgt.coolantWait = true) →
        exec (.velvetCheckDone coolant ue r0 r1) s = .next s) ∧
      (s.mgt.inReset = false → s.mgt.fuseTick ≠ none → s.mgt.velvetOk = false → s.mgt.coolantWait = false → ∀ n, n = (if ue then 0 else s.velvet.fails) →
        Answers (.velvetCheckDone coolant ue r0 r1) s (fun t => t.get .MGT_START_FAILS = min (n + 1) 255 % 2 ^ Fld.MGT_START_FAILS.width ∧
          t.velvet.fails = min (n + 1) 255 ∧ t.mgt.velvetOk = coolant ∧ t.mgt.coolantWait = !coolant ∧
          ((ue || r0 || r1) = true → t.event retPage 3 = true) ∧ (3 ≤ n → t.get .MGT_RESET_CAUSE_minimal = 1 ∧ t.mgt.patchOk = true) ∧
          ∀ k, k < 72 → (2, k) ∈ (s.velvet.checked r0 r1).record.2.marks → t.cluRetired k = true))) ∧
    (s.mgt.coolantWait = false → exec .startCoolantWaitEnd s = .next s) ∧
    (s.mgt.coolantWait = true → Answers .startCoolantWaitEnd s (fun t => t.mgt.velvetOk = true ∧ t.mgt.coolantWait = false ∧
      t.mgt.thermStop = false ∧ (s.linkUp = true → t.mgt.linkOk = true))) ∧
    (∀ kept : Bool, ((s.mgt.velvetOk = false ∨ s.mgt.hbmOk = true) → exec (.hbmTrainingDone kept) s = .next s) ∧
      (s.mgt.velvetOk = true → s.mgt.hbmOk = false → Answers (.hbmTrainingDone kept) s (fun t => t.mgt.hbmOk = true ∧ t.mgt.selfRefresh = false ∧
        t.mgt.scrubOk = !(s.mgt.cold || s.mgt.scrubWanted || !s.isOn .MGT_RESET_CAUSE_hbm_kept || !kept)))) ∧
    ((s.mgt.hbmOk = false ∨ s.mgt.scrubOk = true) → exec .memoryScrubDone s = .next s) ∧
    (s.mgt.hbmOk = true → s.mgt.scrubOk = false → Answers .memoryScrubDone s (fun t => t.mgt.scrubOk = true ∧ t.hbm.bytes = [] ∧ t.hbm.bad = [] ∧
      t.velvet.scrubDue = false ∧ t.get .MGT_RESET_CAUSE_scrubbed = 1)) ∧
    (∀ ue0 ue1 : Bool, ((s.mayRestore = false ∨ s.isOn .MGT_RESET_CAUSE_minimal = true) → exec (.settingsRestore ue0 ue1) s = .next s) ∧
      (s.mayRestore = true → s.isOn .MGT_RESET_CAUSE_minimal = false →
        Answers (.settingsRestore ue0 ue1) s (fun t => t.isOn .MGT_STATUS_ready = true ∧ t.event mgtPage 0 = true ∧ t.mgt.readyTick = s.tick ∧
          (s.velvet.best ue0 ue1 = none → t.get .RET_STATUS_source = (if s.velvet.copies.all (fun c => c.magic == 0) then 1 else 2)) ∧
          (∀ n c, s.velvet.best ue0 ue1 = some (n, c) → t.velvet.last = n ∧ t.get .RET_STATUS_copy = n % 2 ^ Fld.RET_STATUS_copy.width ∧
            t.get .RET_SNAP_SEQ = c.seq % 2 ^ 32)))) ∧
    (∀ fn : Fn, s.opens fn mgtPage 0x110 = true →
      (s.isOn .MGT_STATUS_ready = true → s.mgt.okEnded = false → s.tick < s.mgt.readyTick + okTicks →
        (s.mgt.okTaken = true → exec (.startOk fn) s = .next s) ∧
        (s.mgt.okTaken = false → Answers (.startOk fn) s (fun t => t.velvet = { s.velvet with fails := 0 } ∧ t.get .MGT_START_FAILS = 0 ∧
          t.mgt = { s.mgt with okTaken := true } ∧ State.Only [(.MGT_START_FAILS, 0, 0)] { s with velvet := t.velvet, mgt := t.mgt } t))) ∧
      ((s.isOn .MGT_STATUS_ready = false ∨ s.mgt.okEnded = true ∨ s.mgt.readyTick + okTicks ≤ s.tick) → Answers (.startOk fn) s (fun t =>
        t.event mgtPage 31 = true ∧ (s.isOn (.ERR_INFO_valid .mgt) = false → t.get (.ERR_INFO_detail .mgt) % 2 ^ 8 = 0xE2) ∧ t.velvet = s.velvet ∧
        (s.isOn .MGT_STATUS_ready = true → s.mgt.okTaken = false → s.mgt.late = false → t.event mgtPage 1 = true ∧ t.mgt.late = true)))) ∧
    ((s.isOn .MGT_STATUS_ready = false ∨ s.mgt.okEnded = true) → exec .startOkWindowEnd s = .next s) ∧
    (s.isOn .MGT_STATUS_ready = true → s.mgt.okEnded = false → Answers .startOkWindowEnd s (fun t => t.mgt.okEnded = true ∧
      s.mgt.readyTick + okTicks ≤ t.tick ∧ t.velvet = s.velvet))

/-- Stops, permanent faults, and the work of SEC and RET (R483, R491, R492, R494, R496, R497, R502 to R506, R524, R525): a stop holds the outputs in their safe state, drops the
tiles, engines and decoders that run, and names its cause for the next start. The end of a leak window takes one from each bucket of its type. A forced fault and
a cleared retirement act on an existing instance and are else refused with 0xE6; a permanent instance is recorded in Velvet. A bundle is fetched in its window, and checked;
a snapshot is captured, its held writes follow, and its copy is committed or spoilt; a report is made once, and written or lost.
Choices of the model in it: assumption log 2, 4, 6, 115, 117, 118, 119. -/
def Obligations.ManagementStopsAndRecords : Prop :=
  ∀ s : State,
    (∀ (c : Instr) (cool : Bool), c = (if cool then .coolantStop else .thermalStop) →
      ((s.mgt.inReset = true ∨ (cool = true ∧ s.mgt.velvetOk = false) ∨ (s.stopped = true ∧ s.mgt.stopTick ≠ some s.tick)) → exec c s = .next s) ∧
      (s.mgt.inReset = false → (cool = true → s.mgt.velvetOk = true) → s.stopped = false → Answers c s (fun t => t.stopped = true ∧
        t.mgt.stopTick = some s.tick ∧ t.mgt.next.coolant = (s.mgt.next.coolant || cool) ∧ t.mgt.next.thermal = (s.mgt.next.thermal || !cool) ∧
        t.mgt.thermStop = true ∧ t.mgt.selfRefresh = true ∧ t.get .FIO_SAFE_held = 1 ∧ t.get .FIO_SAFE_cause = 3 ∧
        (s.isOn .FIOX_SAFE_LOW = false → t.get .FIO_OUT_PIN_drive = s.get .FIO_SAFE_FO % 2 ^ 16) ∧
        (∀ j ∈ t.cmd.jobs, ∀ r, j.run = some r → r.tiles = []) ∧ (∀ a ∈ t.attn, ∀ u ∈ a.units, u.engine = none) ∧ (∀ d ∈ t.dec, d.running = []) ∧
        t.commits = s.commits ∧ t.hbm = s.hbm))) ∧
    (∀ typ : ChannelType, (s.mgt.fuseTick = none → exec (.classifierLeak typ) s = .next s) ∧
      (s.mgt.fuseTick ≠ none → ∀ u, u = s.runTo (s.flt.leakEnds.getD typ 0) → Answers (.classifierLeak typ) s (fun t => t.tick = u.tick ∧
        t.flt.buckets = (u.flt.buckets.map (fun x => if x.1.1 == typ.val then (x.1, x.2 - 1) else x)).filter (fun x => x.2 != 0) ∧
        t.flt.leakEnds = listSet s.flt.leakEnds typ (u.tick + u.leakTicks typ) ∧ t.regs = u.regs))) ∧
    (∀ (fn : Fn) (typ : BitVec 3) (inst : BitVec 7) (gone : State → Bool),
      gone = (fun u => match typ.toNat with
        | 0 => u.isOn (.STATUS_retired .memPc) inst.toNat | 1 => u.laneRetired inst.toNat | 2 => u.cluRetired inst.toNat
        | 3 => u.isOn (.STATUS_retired .enc) inst.toNat | 4 => bit (u.get .EJTX_VP_SAFE) inst.toNat | _ => bit (u.get .FIO_RETIRED) inst.toNat) →
      s.opens fn mgtPage 0x1A0 = true →
      (faultCount typ.toNat ≤ inst.toNat → Answers (.faultForce fn typ inst) s (fun t => State.Refuses s t mgtPage fn 0x1A0 0xE6)) ∧
      (inst.toNat < faultCount typ.toNat → gone s = true → Answers (.faultForce fn typ inst) s (fun t =>
        State.Only [(.MGT_FLT_FORCE_instance, 0, 0), (.MGT_FLT_FORCE_type, 0, 0)] s t)) ∧
      (inst.toNat < faultCount typ.toNat → gone s = false → Answers (.faultForce fn typ inst) s (fun t => gone t = true ∧ t.event mgtPage 2 = true ∧
        ∃ b, (typ.toNat, inst.toNat, b) ∈ t.flt.unrecorded))) ∧
    ((s.flt.unrecorded = [] ∨ s.isOn .RET_STATUS_busy = true) → exec .retirementRecorded s = .next s) ∧
    (∀ k i b rest, s.flt.unrecorded = (k, i, b) :: rest → s.isOn .RET_STATUS_busy = false → exec .retirementRecorded s = .next { s with
      flt := { s.flt with unrecorded := rest },
      velvet := s.velvet.putRec (fun r => { r with marks := if r.marks.contains (k, i) then r.marks else r.marks ++ [(k, i)], ring := (⟨k, i, b, s.velvet.starts⟩ :: r.ring).take 64 }) }) ∧
    (∀ (f : RetireRec → RetireRec) (a b : RetireRec), s.velvet.recs = [a, b] → a.seq < 2 ^ 32 → b.seq < 2 ^ 32 →
      (s.velvet.putRec f).record.2 = { f s.velvet.record.2 with seq := (s.velvet.record.2.seq + 1) % 2 ^ 32 }) ∧
    (∀ (fn : Fn) (typ : BitVec 3) (inst : BitVec 7), s.opens fn retPage 0x148 = true →
      (faultCount typ.toNat ≤ inst.toNat → Answers (.retireClear fn typ inst) s (fun t => State.Refuses s t retPage fn 0x148 0xE6)) ∧
      (inst.toNat < faultCount typ.toNat → Answers (.retireClear fn typ inst) s (fun t =>
        t.velvet = (if s.velvet.record.2.marks.contains (typ.toNat, inst.toNat) then
          s.velvet.putRec (fun r => { r with marks := r.marks.filter (fun x => x != (typ.toNat, inst.toNat)) }) else s.velvet) ∧
        State.Only [(.RET_RETIRE_CLR_instance, 0, 0), (.RET_RETIRE_CLR_type, 0, 0)] { s with velvet := t.velvet } t))) ∧
    (∀ fn : Fn, s.opens fn secPage 0x14C = true → ∀ go : Bool, ∀ c : Instr, c = (if go then .patchGo fn else .patchNone fn) →
      (s.isOn .SEC_PATCH_STATUS_window = false → Answers c s (fun t => State.Refuses s t secPage fn 0x14C 0xE4)) ∧
      (s.isOn .SEC_PATCH_STATUS_window = true → Answers c s (fun t => t.get .SEC_PATCH_STATUS_window = 0 ∧ t.mgt.fetching = go ∧
        t.mgt.patchOk = !go ∧ t.velvet = s.velvet))) ∧
    (s.isOn .SEC_PATCH_STATUS_window = false → exec .patchWindowTimeout s = .next s) ∧
    (s.isOn .SEC_PATCH_STATUS_window = true → Answers .patchWindowTimeout s (fun t => t.get .SEC_PATCH_STATUS_window = 0 ∧ t.mgt.fetching = false ∧
      t.mgt.patchOk = true ∧ s.mgt.windowTick + 2000000000 ≤ t.tick)) ∧
    (∀ (bundle : List Byte) (fetched : Bool), (s.mgt.fetching = false → exec (.patchCheckDone bundle fetched) s = .next s) ∧
      (s.mgt.fetching = true → ∀ r, r = (if fetched then s.bundleStatus (bundle.map BitVec.toNat) else 8) → Answers (.patchCheckDone bundle fetched) s (fun t =>
        t.get .SEC_PATCH_STATUS_result = r % 2 ^ Fld.SEC_PATCH_STATUS_result.width ∧ t.get .SEC_PATCH_CTRL_go = 0 ∧ t.mgt.fetching = false ∧
        t.mgt.patchOk = true ∧ t.event secPage (if r = 1 then 0 else 1) = true ∧
        (r = 1 → t.get .MGT_PATCH_VERSION = ofLe (((bundle.map BitVec.toNat).drop 0x010).take 4) % 2 ^ 32 ∧
          t.get .MGT_PATCH_DIGEST = ofLe (sha256 (bundle.map BitVec.toNat)) % 2 ^ 256) ∧
        (r ≠ 1 → t.get .MGT_PATCH_VERSION = s.get .MGT_PATCH_VERSION ∧ t.get .MGT_PATCH_DIGEST = s.get .MGT_PATCH_DIGEST)))) ∧
    (∀ fn : Fn, s.opens fn retPage 0x100 = true →
      (s.stopped = true → Answers (.snapshot fn) s (fun t => State.Refuses s t retPage fn 0x100 0xE3)) ∧
      (s.stopped = false → ∀ x, x = (if s.isOn .MGT_STATUS_ready = false ∨ s.isOn .RET_STATUS_busy = true then 0xE3 else if s.commits ≠ [] then 0xE0 else 0) →
        (x ≠ 0 → Answers (.snapshot fn) s (fun t => t.get .RET_STATUS_last = 2 ∧ t.event retPage 31 = true ∧
          (s.isOn (.ERR_INFO_valid .ret) = false → t.get (.ERR_INFO_detail .ret) % 2 ^ 8 = x) ∧
          State.Only ((.RET_STATUS_last, 0, 0) :: evtCells retPage) s t)) ∧
        (x = 0 → Answers (.snapshot fn) s (fun t => t.get .RET_STATUS_busy = 1 ∧ t.held = some [] ∧ t.mgt = { s.mgt with capture := some s.captured } ∧
          State.Only [(.RET_STATUS_busy, 0, 0)] { s with held := t.held, mgt := t.mgt } t)))) ∧
    (s.held = none → exec .snapshotCaptured s = .next s) ∧
    (∀ h, s.held = some h → exec .snapshotCaptured s = .next (State.forEach { s with held := none } h (fun s w => s.barWrite w.fn w.off w.size w.value))) ∧
    (∀ ok : Bool, ((s.mgt.capture = none ∨ s.held ≠ none) → exec (.snapshotDone ok) s = .next s) ∧
      (∀ es, s.mgt.capture = some es → s.held = none → Answers (.snapshotDone ok) s (fun t => t.get .RET_STATUS_busy = 0 ∧ t.mgt.capture = none ∧
        (ok = true → t.velvet = { s.velvet with copies := listSet s.velvet.copies (1 - s.velvet.last) (s.snapCopy es), last := 1 - s.velvet.last } ∧
          t.get .RET_STATUS_last = 1 ∧ t.get .RET_SNAP_SEQ = (s.get .RET_SNAP_SEQ + 1) % 2 ^ 32 ∧ t.event retPage 0 = true) ∧
        (ok = false → t.velvet = { s.velvet with copies := listMod s.velvet.copies (1 - s.velvet.last) (fun c => { c with magic := 0 }) } ∧
          t.get .RET_STATUS_last = 3 ∧ t.event retPage 1 = true)))) ∧
    (∀ fn : Fn, s.opens fn secPage 0x188 = true →
      ((s.get .SEC_ATT_STATUS_state = 1 ∨ s.get .SEC_ATT_ADDR % 64 ≠ 0) → Answers (.attestGo fn) s (fun t => State.Refuses s t secPage fn 0x188 0xE5)) ∧
      (s.get .SEC_ATT_STATUS_state ≠ 1 → s.get .SEC_ATT_ADDR % 64 = 0 → Answers (.attestGo fn) s (fun t => t.get .SEC_ATT_STATUS_state = 1 ∧
        t.mgt = { s.mgt with attest := t.mgt.attest } ∧ (0x018, leBytes 4 s.capsBlock ++ leBytes 4 s.modeWord) ∈ t.mgt.attest ∧
        (0x090, leBytes 4 (min 16 s.planEntries.length)) ∈ t.mgt.attest ∧ State.Only [(.SEC_ATT_STATUS_state, 0, 0)] { s with mgt := t.mgt } t))) ∧
    (s.get .SEC_ATT_STATUS_state ≠ 1 → exec .attestDone s = .next s) ∧
    (s.get .SEC_ATT_STATUS_state = 1 →
      (s.linkUp = false → Answers .attestDone s (fun t => t.get .SEC_ATT_STATUS_state = 3 ∧ t.event secPage 3 = true ∧
        State.Only ((.SEC_ATT_STATUS_state, 0, 0) :: evtCells secPage) s t)) ∧
      (s.linkUp = true → Answers .attestDone s (fun t => t.get .SEC_ATT_STATUS_state = 2 ∧ t.event secPage 2 = true ∧
        t.get .SEC_ATT_STATUS_count = (s.get .SEC_ATT_STATUS_count + 1) % 2 ^ Fld.SEC_ATT_STATUS_count.width ∧
        (s.out ++ [.hostWrite (s.get .SEC_ATT_ADDR) (s.reportBody ++ leBytes 384 (freeSignature s.draws))]) <+: t.out ∧
        State.Only ((.SEC_ATT_STATUS_state, 0, 0) :: (.SEC_ATT_STATUS_count, 0, 0) :: evtCells secPage) { s with draws := s.draws + 1 } t)))

/-- R498: an erase zeroes the magic of both copies and changes nothing else, so that no copy is valid and the settings restore of the next start finds Velvet blank; while
RET_STATUS.busy is 1 it is discarded with the code 0xE3. -/
def Obligations.ErasedVelvetIsBlank : Prop :=
  ∀ (fn : Fn) (s : State), s.opens fn retPage 0x100 = true →
    (s.isOn .RET_STATUS_busy = true → Answers (.velvetErase fn) s (fun t => State.Refuses s t retPage fn 0x100 0xE3)) ∧
    (s.isOn .RET_STATUS_busy = false → Answers (.velvetErase fn) s (fun t => t = { s with velvet := t.velvet } ∧
      t.velvet.copies = s.velvet.copies.map (fun c => { c with magic := 0 }) ∧ t.velvet = { s.velvet with copies := t.velvet.copies } ∧
      ∀ (u : State) (ue0 ue1 : Bool), u.velvet = t.velvet → t.velvet.best ue0 ue1 = none ∧
        (u.mayRestore = true → u.isOn .MGT_RESET_CAUSE_minimal = false → Answers (.settingsRestore ue0 ue1) u (fun v =>
          v.get .RET_STATUS_source = 1 ∧ v.isOn .MGT_STATUS_ready = true ∧ v.velvet = t.velvet))))
end

