-- ==== Sys2Proof/Laws/Stores.lean ====
section
/-!
SUPPORT. Laws/Stores.lean: the register store and the byte memories: what a cell or a byte reads as after a write, and that every write
keeps the canonical form.
-/
namespace Sys2Proof.Machine

/-! ## The order of cells -/

theorem PageKind.ord_inj {a b : PageKind} (h : a.ord = b.ord) : a = b := by
  cases a <;> cases b <;> first | rfl | (exact absurd h (by decide))

theorem RegKey.lt_iff (a b : RegKey) : a.lt b = true ↔
    a.kind.ord < b.kind.ord ∨ (a.kind.ord = b.kind.ord ∧ (a.inst < b.inst ∨ (a.inst = b.inst ∧
      (a.idx < b.idx ∨ (a.idx = b.idx ∧ (a.off < b.off ∨ (a.off = b.off ∧ a.lo < b.lo))))))) := by
  simp [RegKey.lt]

theorem RegKey.lt_trans {a b c : RegKey} (h : a.lt b = true) (k : b.lt c = true) : a.lt c = true := by
  rw [RegKey.lt_iff] at *; omega

theorem RegKey.lt_of_not {a b : RegKey} (h : ¬ a.lt b = true) (n : a ≠ b) : b.lt a = true := by
  rw [RegKey.lt_iff] at *
  refine Decidable.byContradiction fun hc => ?_
  apply n
  obtain ⟨k, i, j, o, l⟩ := a
  obtain ⟨k', i', j', o', l'⟩ := b
  have hk : k = k' := PageKind.ord_inj (by simp only at h hc; omega)
  subst hk
  simp only [RegKey.mk.injEq, true_and]
  simp only [Nat.lt_irrefl, false_or, true_and] at h hc
  omega

theorem RegKey.lt_irrefl (a : RegKey) : a.lt a = false := by
  cases h : a.lt a with
  | false => rfl
  | true => rw [RegKey.lt_iff] at h; omega

/-! ## The register store -/

theorem cellsWf_cons {c : RegKey × Nat} {l : List (RegKey × Nat)} :
    cellsWf (c :: l) = true ↔ (∀ d ∈ l, c.1.lt d.1 = true) ∧ cellsWf l = true := by
  induction l generalizing c with
  | nil => simp [cellsWf]
  | cons d l ih =>
    simp only [cellsWf, Bool.and_eq_true, ih, List.mem_cons, forall_eq_or_imp]
    constructor
    · rintro ⟨h, h1, h2⟩
      exact ⟨⟨h, fun e he => RegKey.lt_trans h (h1 e he)⟩, h1, h2⟩
    · rintro ⟨⟨h, _⟩, h1, h2⟩
      exact ⟨h, h1, h2⟩

theorem mem_cellErase {l : List (RegKey × Nat)} {k : RegKey} {c : RegKey × Nat} : c ∈ cellErase l k ↔ c ∈ l ∧ c.1 ≠ k := by
  induction l with
  | nil => simp [cellErase]
  | cons d l ih =>
    by_cases h : d.1 = k
    · simp only [cellErase, h, if_true, ih, List.mem_cons]
      constructor
      · rintro ⟨a, b⟩; exact ⟨Or.inr a, b⟩
      · rintro ⟨rfl | a, b⟩
        · exact absurd h b
        · exact ⟨a, b⟩
    · simp only [cellErase, h, if_false, ih, List.mem_cons]
      constructor
      · rintro (rfl | ⟨a, b⟩)
        · exact ⟨Or.inl rfl, h⟩
        · exact ⟨Or.inr a, b⟩
      · rintro ⟨rfl | a, b⟩
        · exact Or.inl rfl
        · exact Or.inr ⟨a, b⟩

theorem cellsWf_erase {l : List (RegKey × Nat)} (h : cellsWf l = true) (k : RegKey) : cellsWf (cellErase l k) = true := by
  induction l with
  | nil => rfl
  | cons d l ih =>
    rw [cellsWf_cons] at h
    by_cases hk : d.1 = k
    · simp only [cellErase, hk, if_true]; exact ih h.2
    · simp only [cellErase, hk, if_false, cellsWf_cons]
      exact ⟨fun e he => h.1 e (mem_cellErase.1 he).1, ih h.2⟩

theorem mem_cellInsert {l : List (RegKey × Nat)} {k : RegKey} {v : Nat} {c : RegKey × Nat} :
    c ∈ cellInsert l k v ↔ c = (k, v) ∨ c ∈ l := by
  induction l with
  | nil => simp [cellInsert]
  | cons d l ih =>
    simp only [cellInsert]
    split
    · simp
    · simp only [List.mem_cons, ih]
      constructor
      · rintro (a | a | a)
        · exact Or.inr (Or.inl a)
        · exact Or.inl a
        · exact Or.inr (Or.inr a)
      · rintro (a | a | a)
        · exact Or.inr (Or.inl a)
        · exact Or.inl a
        · exact Or.inr (Or.inr a)

theorem cellsWf_insert {l : List (RegKey × Nat)} (h : cellsWf l = true) {k : RegKey} (n : ∀ c ∈ l, c.1 ≠ k) (v : Nat) :
    cellsWf (cellInsert l k v) = true := by
  induction l with
  | nil => rfl
  | cons d l ih =>
    rw [cellsWf_cons] at h
    simp only [cellInsert]
    split
    · rename_i hk
      rw [cellsWf_cons, cellsWf_cons]
      refine ⟨?_, h⟩
      intro e he
      rcases List.mem_cons.1 he with rfl | he
      · exact hk
      · exact RegKey.lt_trans hk (h.1 e he)
    · rename_i hk
      rw [cellsWf_cons]
      refine ⟨?_, ih h.2 (fun c hc => n c (List.mem_cons_of_mem _ hc))⟩
      intro e he
      rcases mem_cellInsert.1 he with rfl | he
      · exact RegKey.lt_of_not hk (fun hh => n d List.mem_cons_self hh.symm)
      · exact h.1 e he

/-- A write keeps the store in its canonical form. -/
theorem cellsWf_cellSet {l : List (RegKey × Nat)} (h : cellsWf l = true) (k : RegKey) (v d : Nat) :
    cellsWf (cellSet l k v d) = true := by
  unfold cellSet
  split
  · exact cellsWf_erase h k
  · exact cellsWf_insert (cellsWf_erase h k) (fun c hc => (mem_cellErase.1 hc).2) v

theorem cellGet_erase (l : List (RegKey × Nat)) (k k' : RegKey) :
    cellGet (cellErase l k) k' = if k' = k then none else cellGet l k' := by
  induction l with
  | nil => simp [cellErase, cellGet]
  | cons d l ih =>
    by_cases h : d.1 = k
    · simp only [cellErase, h, if_true, ih, cellGet]
      by_cases hk : k' = k
      · simp [hk]
      · simp only [hk, if_false]; rw [if_neg (fun x => hk x.symm)]
    · simp only [cellErase, h, if_false, cellGet, ih]
      by_cases hk : d.1 = k'
      · subst hk; simp [h]
      · simp [hk]

theorem cellGet_insert {l : List (RegKey × Nat)} {k : RegKey} (n : cellGet l k = none) (v : Nat) (k' : RegKey) :
    cellGet (cellInsert l k v) k' = if k' = k then some v else cellGet l k' := by
  induction l with
  | nil =>
    simp only [cellInsert, cellGet]
    by_cases h : k = k'
    · simp [h]
    · rw [if_neg h, if_neg (fun x => h x.symm)]
  | cons d l ih =>
    have hd : d.1 ≠ k := by
      intro h; simp [cellGet, h] at n
    have n' : cellGet l k = none := by simpa [cellGet, hd] using n
    simp only [cellInsert]
    split
    · simp only [cellGet]
      by_cases h : k = k'
      · simp [h]
      · have h' : ¬ k' = k := fun x => h x.symm
        simp only [h, h', if_false]
    · simp only [cellGet, ih n']
      by_cases h : d.1 = k'
      · subst h; simp [hd]
      · simp [h]

/-- What a cell reads as after a write. -/
theorem cellGet_cellSet (l : List (RegKey × Nat)) (k k' : RegKey) (v d : Nat) :
    cellGet (cellSet l k v d) k' = if k' = k then (if v = d then none else some v) else cellGet l k' := by
  unfold cellSet
  split
  · rename_i h
    simp [cellGet_erase]
  · rename_i h
    rw [cellGet_insert (by simp [cellGet_erase])]
    by_cases hk : k' = k
    · simp [hk]
    · simp [hk, cellGet_erase]

/-! ## Byte memories -/

theorem Memory.wf_cons {c : Host.Cell} {m : Memory} :
    Memory.wf (c :: m) = true ↔ c.2 ≠ 0 ∧ (∀ d ∈ m, c.1 < d.1) ∧ Memory.wf m = true := by
  induction m generalizing c with
  | nil => simp [Memory.wf]
  | cons d m ih =>
    simp only [Memory.wf, Bool.and_eq_true, bne_iff_ne, ne_eq, decide_eq_true_eq, ih, List.mem_cons, forall_eq_or_imp]
    constructor
    · rintro ⟨⟨h0, h⟩, h1, h2, h3⟩
      exact ⟨h0, ⟨h, fun e he => Nat.lt_trans h (h2 e he)⟩, h1, h2, h3⟩
    · rintro ⟨h0, ⟨h, _⟩, h1, h2, h3⟩
      exact ⟨⟨h0, h⟩, h1, h2, h3⟩

theorem Memory.wf_append {m n : Memory} (hm : Memory.wf m = true) (hn : Memory.wf n = true) (h : ∀ a ∈ m, ∀ b ∈ n, a.1 < b.1) :
    Memory.wf (m ++ n) = true := by
  induction m with
  | nil => exact hn
  | cons c m ih =>
    rw [Memory.wf_cons] at hm
    rw [List.cons_append, Memory.wf_cons]
    refine ⟨hm.1, ?_, ih hm.2.2 (fun a ha => h a (List.mem_cons_of_mem _ ha))⟩
    intro d hd
    rcases List.mem_append.1 hd with hd | hd
    · exact hm.2.1 d hd
    · exact h c List.mem_cons_self d hd

theorem Memory.wf_filter {m : Memory} (h : Memory.wf m = true) (p : Host.Cell → Bool) : Memory.wf (m.filter p) = true := by
  induction m with
  | nil => rfl
  | cons c m ih =>
    rw [Memory.wf_cons] at h
    rw [List.filter_cons]
    split
    · rw [Memory.wf_cons]
      exact ⟨h.1, fun d hd => h.2.1 d (List.mem_filter.1 hd).1, ih h.2.2⟩
    · exact ih h.2.2

theorem mem_runCells {bs : List Nat} {a : Nat} {c : Host.Cell} (h : c ∈ runCells a bs) : a ≤ c.1 ∧ c.1 < a + bs.length := by
  induction bs generalizing a with
  | nil => cases h
  | cons b bs ih =>
    simp only [runCells] at h
    split at h
    · have := ih h; simp only [List.length_cons]; omega
    · rcases List.mem_cons.1 h with rfl | h
      · simp
      · have := ih h; simp only [List.length_cons]; omega

theorem Memory.wf_runCells (bs : List Nat) (a : Nat) : Memory.wf (runCells a bs) = true := by
  induction bs generalizing a with
  | nil => rfl
  | cons b bs ih =>
    simp only [runCells]
    split
    · exact ih _
    · rename_i h
      rw [Memory.wf_cons]
      refine ⟨?_, fun d hd => by have := mem_runCells hd; simp only; omega, ih _⟩
      intro h0
      have := congrArg BitVec.toNat h0
      simp at this
      omega

/-- A write keeps a memory in its canonical form. -/
theorem Memory.wf_memWrite {m : Memory} (h : Memory.wf m = true) (a : Nat) (bs : List Nat) : Memory.wf (memWrite m a bs) = true := by
  unfold memWrite
  apply Memory.wf_append
  · apply Memory.wf_append (Memory.wf_filter h _) (Memory.wf_runCells _ _)
    intro x hx y hy
    have h1 := (List.mem_filter.1 hx).2
    have h2 := mem_runCells hy
    simp only [decide_eq_true_eq] at h1
    omega
  · exact Memory.wf_filter h _
  · intro x hx y hy
    have h2 := (List.mem_filter.1 hy).2
    simp only [decide_eq_true_eq] at h2
    rcases List.mem_append.1 hx with hx | hx
    · have h1 := (List.mem_filter.1 hx).2
      simp only [decide_eq_true_eq] at h1
      omega
    · have h1 := mem_runCells hx
      omega

end Sys2Proof.Machine
end

