-- ==== Sys2Proof/Laws/State.lean ====
section
/-!
SUPPORT. Laws/State.lean: what each basic update leaves and gives: reads of a register after a write, the fields of the state after each
update, and what raising an event can change.
-/
namespace Sys2Proof.Machine

/-! ## Reading after writing -/

theorem Fld.key_ne {f g : Fld} (h : f.diff g = true) (i j k l : Nat) : f.key i j ≠ g.key k l := by
  intro e
  simp only [Fld.key, RegKey.mk.injEq] at e
  simp [Fld.diff, e] at h

theorem State.get_set_self (s : State) (f : Fld) (i j v : Nat) : (s.set f i j v).get f i j = v % 2 ^ f.width := by
  simp only [State.get, State.set, cellGet_cellSet, if_true]
  split
  · rename_i h; simp [h]
  · rfl

theorem State.get_set_key (s : State) {f g : Fld} {i j k l : Nat} (v : Nat) (h : f.key i j ≠ g.key k l) :
    (s.set g k l v).get f i j = s.get f i j := by
  simp only [State.get, State.set, cellGet_cellSet, h, if_false]

theorem State.get_set_other (s : State) {f g : Fld} (h : f.diff g = true) (i j k l v : Nat) :
    (s.set g k l v).get f i j = s.get f i j := State.get_set_key s v (Fld.key_ne h i j k l)

theorem State.get_set_inst (s : State) (f g : Fld) {i k : Nat} (h : i ≠ k) (j l v : Nat) : (s.set g k l v).get f i j = s.get f i j :=
  State.get_set_key s v (by simp [Fld.key, h])

theorem State.get_set_elem (s : State) (f g : Fld) (i k : Nat) {j l : Nat} (h : j ≠ l) (v : Nat) :
    (s.set g k l v).get f i j = s.get f i j :=
  State.get_set_key s v (by simp [Fld.key, h])

theorem State.get_congr {s t : State} (h : t.regs = s.regs) (f : Fld) (i j : Nat) : t.get f i j = s.get f i j := by
  simp only [State.get, h]

@[simp] theorem State.get_setShadow (s : State) (f g : Fld) (i j k l v : Nat) : (s.setShadow g k l v).get f i j = s.get f i j := rfl

@[simp] theorem State.get_emit (s : State) (x : Output) (f : Fld) (i j : Nat) : (s.emit x).get f i j = s.get f i j := rfl

/-! ## The fields of the state after each basic update -/

@[simp] theorem State.set_fuses (s : State) (f : Fld) (i j v : Nat) : (s.set f i j v).fuses = s.fuses := rfl

@[simp] theorem State.set_shadow (s : State) (f : Fld) (i j v : Nat) : (s.set f i j v).shadow = s.shadow := rfl

@[simp] theorem State.set_lowWrites (s : State) (f : Fld) (i j v : Nat) : (s.set f i j v).lowWrites = s.lowWrites := rfl

@[simp] theorem State.set_highReads (s : State) (f : Fld) (i j v : Nat) : (s.set f i j v).highReads = s.highReads := rfl

@[simp] theorem State.set_commits (s : State) (f : Fld) (i j v : Nat) : (s.set f i j v).commits = s.commits := rfl

@[simp] theorem State.set_held (s : State) (f : Fld) (i j v : Nat) : (s.set f i j v).held = s.held := rfl

@[simp] theorem State.set_tick (s : State) (f : Fld) (i j v : Nat) : (s.set f i j v).tick = s.tick := rfl

@[simp] theorem State.set_sec (s : State) (f : Fld) (i j v : Nat) : (s.set f i j v).sec = s.sec := rfl

@[simp] theorem State.set_ns (s : State) (f : Fld) (i j v : Nat) : (s.set f i j v).ns = s.ns := rfl

@[simp] theorem State.set_frac (s : State) (f : Fld) (i j v : Nat) : (s.set f i j v).frac = s.frac := rfl

@[simp] theorem State.set_peers (s : State) (f : Fld) (i j v : Nat) : (s.set f i j v).peers = s.peers := rfl

@[simp] theorem State.set_hbm (s : State) (f : Fld) (i j v : Nat) : (s.set f i j v).hbm = s.hbm := rfl

@[simp] theorem State.set_sram (s : State) (f : Fld) (i j v : Nat) : (s.set f i j v).sram = s.sram := rfl

@[simp] theorem State.set_cmd (s : State) (f : Fld) (i j v : Nat) : (s.set f i j v).cmd = s.cmd := rfl

@[simp] theorem State.set_fwn (s : State) (f : Fld) (i j v : Nat) : (s.set f i j v).fwn = s.fwn := rfl

@[simp] theorem State.set_cap (s : State) (f : Fld) (i j v : Nat) : (s.set f i j v).cap = s.cap := rfl

@[simp] theorem State.set_lnp (s : State) (f : Fld) (i j v : Nat) : (s.set f i j v).lnp = s.lnp := rfl

@[simp] theorem State.set_trk (s : State) (f : Fld) (i j v : Nat) : (s.set f i j v).trk = s.trk := rfl

@[simp] theorem State.set_pwr (s : State) (f : Fld) (i j v : Nat) : (s.set f i j v).pwr = s.pwr := rfl

@[simp] theorem State.set_flt (s : State) (f : Fld) (i j v : Nat) : (s.set f i j v).flt = s.flt := rfl

@[simp] theorem State.set_velvet (s : State) (f : Fld) (i j v : Nat) : (s.set f i j v).velvet = s.velvet := rfl

@[simp] theorem State.set_mgt (s : State) (f : Fld) (i j v : Nat) : (s.set f i j v).mgt = s.mgt := rfl

@[simp] theorem State.set_tables (s : State) (f : Fld) (i j v : Nat) : (s.set f i j v).tables = s.tables := rfl

@[simp] theorem State.set_pools (s : State) (f : Fld) (i j v : Nat) : (s.set f i j v).pools = s.pools := rfl

@[simp] theorem State.set_attn (s : State) (f : Fld) (i j v : Nat) : (s.set f i j v).attn = s.attn := rfl

@[simp] theorem State.set_dec (s : State) (f : Fld) (i j v : Nat) : (s.set f i j v).dec = s.dec := rfl

@[simp] theorem State.set_out (s : State) (f : Fld) (i j v : Nat) : (s.set f i j v).out = s.out := rfl

@[simp] theorem State.set_draws (s : State) (f : Fld) (i j v : Nat) : (s.set f i j v).draws = s.draws := rfl

@[simp] theorem State.set_pending (s : State) (f : Fld) (i j v : Nat) : (s.set f i j v).pending = s.pending := rfl

@[simp] theorem State.setShadow_fuses (s : State) (f : Fld) (i j v : Nat) : (s.setShadow f i j v).fuses = s.fuses := rfl

@[simp] theorem State.setShadow_regs (s : State) (f : Fld) (i j v : Nat) : (s.setShadow f i j v).regs = s.regs := rfl

@[simp] theorem State.setShadow_lowWrites (s : State) (f : Fld) (i j v : Nat) : (s.setShadow f i j v).lowWrites = s.lowWrites := rfl

@[simp] theorem State.setShadow_highReads (s : State) (f : Fld) (i j v : Nat) : (s.setShadow f i j v).highReads = s.highReads := rfl

@[simp] theorem State.setShadow_commits (s : State) (f : Fld) (i j v : Nat) : (s.setShadow f i j v).commits = s.commits := rfl

@[simp] theorem State.setShadow_held (s : State) (f : Fld) (i j v : Nat) : (s.setShadow f i j v).held = s.held := rfl

@[simp] theorem State.setShadow_tick (s : State) (f : Fld) (i j v : Nat) : (s.setShadow f i j v).tick = s.tick := rfl

@[simp] theorem State.setShadow_sec (s : State) (f : Fld) (i j v : Nat) : (s.setShadow f i j v).sec = s.sec := rfl

@[simp] theorem State.setShadow_ns (s : State) (f : Fld) (i j v : Nat) : (s.setShadow f i j v).ns = s.ns := rfl

@[simp] theorem State.setShadow_frac (s : State) (f : Fld) (i j v : Nat) : (s.setShadow f i j v).frac = s.frac := rfl

@[simp] theorem State.setShadow_peers (s : State) (f : Fld) (i j v : Nat) : (s.setShadow f i j v).peers = s.peers := rfl

@[simp] theorem State.setShadow_hbm (s : State) (f : Fld) (i j v : Nat) : (s.setShadow f i j v).hbm = s.hbm := rfl

@[simp] theorem State.setShadow_sram (s : State) (f : Fld) (i j v : Nat) : (s.setShadow f i j v).sram = s.sram := rfl

@[simp] theorem State.setShadow_cmd (s : State) (f : Fld) (i j v : Nat) : (s.setShadow f i j v).cmd = s.cmd := rfl

@[simp] theorem State.setShadow_fwn (s : State) (f : Fld) (i j v : Nat) : (s.setShadow f i j v).fwn = s.fwn := rfl

@[simp] theorem State.setShadow_cap (s : State) (f : Fld) (i j v : Nat) : (s.setShadow f i j v).cap = s.cap := rfl

@[simp] theorem State.setShadow_lnp (s : State) (f : Fld) (i j v : Nat) : (s.setShadow f i j v).lnp = s.lnp := rfl

@[simp] theorem State.setShadow_trk (s : State) (f : Fld) (i j v : Nat) : (s.setShadow f i j v).trk = s.trk := rfl

@[simp] theorem State.setShadow_pwr (s : State) (f : Fld) (i j v : Nat) : (s.setShadow f i j v).pwr = s.pwr := rfl

@[simp] theorem State.setShadow_flt (s : State) (f : Fld) (i j v : Nat) : (s.setShadow f i j v).flt = s.flt := rfl

@[simp] theorem State.setShadow_velvet (s : State) (f : Fld) (i j v : Nat) : (s.setShadow f i j v).velvet = s.velvet := rfl

@[simp] theorem State.setShadow_mgt (s : State) (f : Fld) (i j v : Nat) : (s.setShadow f i j v).mgt = s.mgt := rfl

@[simp] theorem State.setShadow_tables (s : State) (f : Fld) (i j v : Nat) : (s.setShadow f i j v).tables = s.tables := rfl

@[simp] theorem State.setShadow_pools (s : State) (f : Fld) (i j v : Nat) : (s.setShadow f i j v).pools = s.pools := rfl

@[simp] theorem State.setShadow_attn (s : State) (f : Fld) (i j v : Nat) : (s.setShadow f i j v).attn = s.attn := rfl

@[simp] theorem State.setShadow_dec (s : State) (f : Fld) (i j v : Nat) : (s.setShadow f i j v).dec = s.dec := rfl

@[simp] theorem State.setShadow_out (s : State) (f : Fld) (i j v : Nat) : (s.setShadow f i j v).out = s.out := rfl

@[simp] theorem State.setShadow_draws (s : State) (f : Fld) (i j v : Nat) : (s.setShadow f i j v).draws = s.draws := rfl

@[simp] theorem State.setShadow_pending (s : State) (f : Fld) (i j v : Nat) : (s.setShadow f i j v).pending = s.pending := rfl

@[simp] theorem State.emit_fuses (s : State) (x : Output) : (s.emit x).fuses = s.fuses := rfl

@[simp] theorem State.emit_regs (s : State) (x : Output) : (s.emit x).regs = s.regs := rfl

@[simp] theorem State.emit_shadow (s : State) (x : Output) : (s.emit x).shadow = s.shadow := rfl

@[simp] theorem State.emit_lowWrites (s : State) (x : Output) : (s.emit x).lowWrites = s.lowWrites := rfl

@[simp] theorem State.emit_highReads (s : State) (x : Output) : (s.emit x).highReads = s.highReads := rfl

@[simp] theorem State.emit_commits (s : State) (x : Output) : (s.emit x).commits = s.commits := rfl

@[simp] theorem State.emit_held (s : State) (x : Output) : (s.emit x).held = s.held := rfl

@[simp] theorem State.emit_tick (s : State) (x : Output) : (s.emit x).tick = s.tick := rfl

@[simp] theorem State.emit_sec (s : State) (x : Output) : (s.emit x).sec = s.sec := rfl

@[simp] theorem State.emit_ns (s : State) (x : Output) : (s.emit x).ns = s.ns := rfl

@[simp] theorem State.emit_frac (s : State) (x : Output) : (s.emit x).frac = s.frac := rfl

@[simp] theorem State.emit_peers (s : State) (x : Output) : (s.emit x).peers = s.peers := rfl

@[simp] theorem State.emit_hbm (s : State) (x : Output) : (s.emit x).hbm = s.hbm := rfl

@[simp] theorem State.emit_sram (s : State) (x : Output) : (s.emit x).sram = s.sram := rfl

@[simp] theorem State.emit_cmd (s : State) (x : Output) : (s.emit x).cmd = s.cmd := rfl

@[simp] theorem State.emit_fwn (s : State) (x : Output) : (s.emit x).fwn = s.fwn := rfl

@[simp] theorem State.emit_cap (s : State) (x : Output) : (s.emit x).cap = s.cap := rfl

@[simp] theorem State.emit_lnp (s : State) (x : Output) : (s.emit x).lnp = s.lnp := rfl

@[simp] theorem State.emit_trk (s : State) (x : Output) : (s.emit x).trk = s.trk := rfl

@[simp] theorem State.emit_pwr (s : State) (x : Output) : (s.emit x).pwr = s.pwr := rfl

@[simp] theorem State.emit_flt (s : State) (x : Output) : (s.emit x).flt = s.flt := rfl

@[simp] theorem State.emit_velvet (s : State) (x : Output) : (s.emit x).velvet = s.velvet := rfl

@[simp] theorem State.emit_mgt (s : State) (x : Output) : (s.emit x).mgt = s.mgt := rfl

@[simp] theorem State.emit_tables (s : State) (x : Output) : (s.emit x).tables = s.tables := rfl

@[simp] theorem State.emit_pools (s : State) (x : Output) : (s.emit x).pools = s.pools := rfl

@[simp] theorem State.emit_attn (s : State) (x : Output) : (s.emit x).attn = s.attn := rfl

@[simp] theorem State.emit_dec (s : State) (x : Output) : (s.emit x).dec = s.dec := rfl

@[simp] theorem State.emit_draws (s : State) (x : Output) : (s.emit x).draws = s.draws := rfl

@[simp] theorem State.emit_pending (s : State) (x : Output) : (s.emit x).pending = s.pending := rfl

@[simp] theorem State.emit_out (s : State) (x : Output) : (s.emit x).out = s.out ++ [x] := rfl

/-! ## Raising an event -/

theorem State.Only.refl (l : List CellId) (s : State) : State.Only l s s := ⟨rfl, rfl, fun _ _ _ _ => rfl⟩

theorem State.Only.trans {l : List CellId} {s t u : State} (h : State.Only l s t) (k : State.Only l t u) : State.Only l s u where
  rest := by rw [k.rest, h.rest]
  lost := by rw [k.lost, h.lost]
  cells := fun f i j hf => by rw [k.cells f i j hf, h.cells f i j hf]

theorem State.Only.mono {l m : List CellId} {s t : State} (h : State.Only l s t) (hl : ∀ g ∈ l, g ∈ m) : State.Only m s t where
  rest := h.rest
  lost := h.lost
  cells := fun f i j hf => h.cells f i j (by
    simp only [untouched, outside, Bool.and_eq_true, List.all_eq_true] at hf ⊢
    exact ⟨hf.1, fun g hg => hf.2 g (hl g hg)⟩)

theorem cellKey_ne {f g : Fld} {i j k l : Nat} (h : (f.diff g || i != k || j != l) = true) : f.key i j ≠ g.key k l := by
  intro e
  simp only [Fld.key, RegKey.mk.injEq] at e
  simp [Fld.diff, e] at h

theorem State.only_set {l : List CellId} {g : Fld} {i j : Nat} (h : (g, i, j) ∈ l) (s : State) (v : Nat) : State.Only l s (s.set g i j v) where
  rest := rfl
  lost := rfl
  cells := fun f a b hf => by
    simp only [untouched, outside, Bool.and_eq_true, List.all_eq_true] at hf
    exact State.get_set_key s v (cellKey_ne (hf.2 _ h))

theorem State.only_msg {l : List CellId} {g : Fld} (h : g ∈ msgFlds) (s : State) (i j v : Nat) : State.Only l s (s.set g i j v) where
  rest := rfl
  lost := rfl
  cells := fun f a b hf => by
    simp only [untouched, Bool.and_eq_true, List.all_eq_true] at hf
    exact State.get_set_other s (hf.1 _ h) _ _ _ _ _

theorem State.only_count {l : List CellId} {g : Fld} {i j : Nat} (h : (g, i, j) ∈ l) (s : State) (n : Nat) : State.Only l s (s.count g i j n) :=
  State.only_set h s _

theorem State.only_emit (l : List CellId) (s : State) (x : Output) : State.Only l s (s.emit x) := ⟨rfl, rfl, fun _ _ _ _ => rfl⟩

theorem State.only_hostOut (l : List CellId) (s : State) (x : Output) : State.Only l s (s.hostOut x) := by
  unfold State.hostOut
  split
  · exact State.only_emit _ _ _
  · exact ⟨rfl, rfl, fun f a b hf => (State.only_msg (g := .HLK_CNT_WR_LOST) (by simp [msgFlds]) s 0 0 _).cells f a b hf⟩

theorem State.only_sendMsix (l : List CellId) (s : State) (fn vec : Nat) : State.Only l s (s.sendMsix fn vec) := by
  unfold State.sendMsix State.setPba
  split
  · split
    · exact State.only_msg (by simp [msgFlds]) _ _ _ _
    · exact State.only_msg (by simp [msgFlds]) _ _ _ _
  · exact State.only_hostOut _ _ _

theorem State.only_signal (l : List CellId) (s : State) (p : PageId) (b : Bool) : State.Only l s (s.signal p b) := by
  unfold State.signal
  split
  · exact State.only_sendMsix _ _ _ _
  · exact State.Only.refl _ _

theorem State.only_capture (s : State) (p : PageId) (mask detail : Nat) (forced : Bool) :
    State.Only (evtCells p) s (s.capture p mask detail forced) := by
  unfold State.capture
  split
  · exact State.Only.refl _ _
  · split
    · exact State.only_set (by simp [evtCells]) _ _
    · dsimp only
      have h : State.Only (evtCells p) s ((((s.set (.ERR_INFO_valid p.kind) p.inst 0 1).set (.ERR_INFO_forced p.kind) p.inst 0 (b2n forced)).set
          (.ERR_INFO_event p.kind) p.inst 0 ((onesOf 32 mask).headD 0)).set (.ERR_INFO_detail p.kind) p.inst 0 detail) :=
        (((State.only_set (by simp [evtCells]) _ _).trans (State.only_set (by simp [evtCells]) _ _)).trans
          (State.only_set (by simp [evtCells]) _ _)).trans (State.only_set (by simp [evtCells]) _ _)
      split
      · exact h.trans (State.only_set (by simp [evtCells]) _ _)
      · exact h

/-- Everything that raising events can change. -/
theorem State.only_raiseMask (s : State) (p : PageId) (mask detail : Nat) (forced : Bool) :
    State.Only (evtCells p) s (s.raiseMask p mask detail forced) := by
  unfold State.raiseMask
  exact ((State.only_set (by simp [evtCells]) _ _).trans (State.only_capture _ _ _ _ _)).trans (State.only_signal _ _ _ _)

theorem State.only_raise (s : State) (p : PageId) (n d : Nat) : State.Only (evtCells p) s (s.raise p n d) := State.only_raiseMask _ _ _ _ _

theorem State.only_code (s : State) (p : PageId) (fn off c : Nat) : State.Only (evtCells p) s (s.code p fn off c) := State.only_raise _ _ _ _

/-- The event bits after events are raised. -/
theorem State.raiseMask_status (s : State) (p : PageId) (mask detail : Nat) (forced : Bool) :
    (s.raiseMask p mask detail forced).get (.EVT_STATUS p.kind) p.inst = (s.get (.EVT_STATUS p.kind) p.inst ||| mask) % 2 ^ 32 := by
  have hs : ∀ (t : State) (b : Bool), (t.signal p b).get (.EVT_STATUS p.kind) p.inst = t.get (.EVT_STATUS p.kind) p.inst := fun t b =>
    (State.only_signal [] t p b).cells _ _ _ rfl
  have hc : ∀ (t : State), (t.capture p mask detail forced).get (.EVT_STATUS p.kind) p.inst = t.get (.EVT_STATUS p.kind) p.inst := by
    intro t
    unfold State.capture
    split
    · rfl
    · split
      · exact State.get_set_other _ rfl _ _ _ _ _
      · dsimp only
        split
        · repeat rw [State.get_set_other _ rfl]
        · repeat rw [State.get_set_other _ rfl]
  unfold State.raiseMask
  rw [hs, hc, State.get_set_self]
  rfl

/-- The event bits after one event is raised. -/
theorem State.raise_status (s : State) (p : PageId) (n d : Nat) :
    (s.raise p n d).get (.EVT_STATUS p.kind) p.inst = (s.get (.EVT_STATUS p.kind) p.inst ||| 2 ^ n) % 2 ^ 32 :=
  State.raiseMask_status _ _ _ _ _

/-- Fields that an event of a kind of page may change. -/
def evtFlds (k : PageKind) : List Fld :=
  [.EVT_STATUS k, .ERR_INFO_valid k, .ERR_INFO_forced k, .ERR_INFO_event k, .ERR_INFO_detail k, .ERR_INFO_overflow k] ++ msgFlds

theorem untouched_of_evtFlds {p : PageId} {f : Fld} (h : (evtFlds p.kind).all (fun g => f.diff g) = true) (i j : Nat) :
    untouched (evtCells p) f i j = true := by
  simp only [evtFlds, List.all_append, Bool.and_eq_true] at h
  simp only [untouched, outside, evtCells, List.all_map, Bool.and_eq_true, List.all_eq_true, Function.comp] at h ⊢
  exact ⟨h.2, fun g hg => by simp [h.1 g hg]⟩

/-- A register that no event of the page can change, after one is raised. -/
theorem State.get_raise (s : State) (p : PageId) (n d : Nat) (f : Fld) (h : (evtFlds p.kind).all (fun g => f.diff g) = true) (i j : Nat) :
    (s.raise p n d).get f i j = s.get f i j := (State.only_raise s p n d).cells f i j (untouched_of_evtFlds h i j)

theorem State.get_code (s : State) (p : PageId) (fn off c : Nat) (f : Fld) (h : (evtFlds p.kind).all (fun g => f.diff g) = true) (i j : Nat) :
    (s.code p fn off c).get f i j = s.get f i j := (State.only_code s p fn off c).cells f i j (untouched_of_evtFlds h i j)

@[simp] theorem State.raise_fuses (s : State) (p : PageId) (n d : Nat) : (s.raise p n d).fuses = s.fuses := by
  rw [(State.only_raise s p n d).rest]

@[simp] theorem State.code_fuses (s : State) (p : PageId) (fn off c : Nat) : (s.code p fn off c).fuses = s.fuses := by
  rw [(State.only_code s p fn off c).rest]

@[simp] theorem State.raise_shadow (s : State) (p : PageId) (n d : Nat) : (s.raise p n d).shadow = s.shadow := by
  rw [(State.only_raise s p n d).rest]

@[simp] theorem State.code_shadow (s : State) (p : PageId) (fn off c : Nat) : (s.code p fn off c).shadow = s.shadow := by
  rw [(State.only_code s p fn off c).rest]

@[simp] theorem State.raise_lowWrites (s : State) (p : PageId) (n d : Nat) : (s.raise p n d).lowWrites = s.lowWrites := by
  rw [(State.only_raise s p n d).rest]

@[simp] theorem State.code_lowWrites (s : State) (p : PageId) (fn off c : Nat) : (s.code p fn off c).lowWrites = s.lowWrites := by
  rw [(State.only_code s p fn off c).rest]

@[simp] theorem State.raise_highReads (s : State) (p : PageId) (n d : Nat) : (s.raise p n d).highReads = s.highReads := by
  rw [(State.only_raise s p n d).rest]

@[simp] theorem State.code_highReads (s : State) (p : PageId) (fn off c : Nat) : (s.code p fn off c).highReads = s.highReads := by
  rw [(State.only_code s p fn off c).rest]

@[simp] theorem State.raise_commits (s : State) (p : PageId) (n d : Nat) : (s.raise p n d).commits = s.commits := by
  rw [(State.only_raise s p n d).rest]

@[simp] theorem State.code_commits (s : State) (p : PageId) (fn off c : Nat) : (s.code p fn off c).commits = s.commits := by
  rw [(State.only_code s p fn off c).rest]

@[simp] theorem State.raise_held (s : State) (p : PageId) (n d : Nat) : (s.raise p n d).held = s.held := by
  rw [(State.only_raise s p n d).rest]

@[simp] theorem State.code_held (s : State) (p : PageId) (fn off c : Nat) : (s.code p fn off c).held = s.held := by
  rw [(State.only_code s p fn off c).rest]

@[simp] theorem State.raise_tick (s : State) (p : PageId) (n d : Nat) : (s.raise p n d).tick = s.tick := by
  rw [(State.only_raise s p n d).rest]

@[simp] theorem State.code_tick (s : State) (p : PageId) (fn off c : Nat) : (s.code p fn off c).tick = s.tick := by
  rw [(State.only_code s p fn off c).rest]

@[simp] theorem State.raise_sec (s : State) (p : PageId) (n d : Nat) : (s.raise p n d).sec = s.sec := by
  rw [(State.only_raise s p n d).rest]

@[simp] theorem State.code_sec (s : State) (p : PageId) (fn off c : Nat) : (s.code p fn off c).sec = s.sec := by
  rw [(State.only_code s p fn off c).rest]

@[simp] theorem State.raise_ns (s : State) (p : PageId) (n d : Nat) : (s.raise p n d).ns = s.ns := by
  rw [(State.only_raise s p n d).rest]

@[simp] theorem State.code_ns (s : State) (p : PageId) (fn off c : Nat) : (s.code p fn off c).ns = s.ns := by
  rw [(State.only_code s p fn off c).rest]

@[simp] theorem State.raise_frac (s : State) (p : PageId) (n d : Nat) : (s.raise p n d).frac = s.frac := by
  rw [(State.only_raise s p n d).rest]

@[simp] theorem State.code_frac (s : State) (p : PageId) (fn off c : Nat) : (s.code p fn off c).frac = s.frac := by
  rw [(State.only_code s p fn off c).rest]

@[simp] theorem State.raise_peers (s : State) (p : PageId) (n d : Nat) : (s.raise p n d).peers = s.peers := by
  rw [(State.only_raise s p n d).rest]

@[simp] theorem State.code_peers (s : State) (p : PageId) (fn off c : Nat) : (s.code p fn off c).peers = s.peers := by
  rw [(State.only_code s p fn off c).rest]

@[simp] theorem State.raise_hbm (s : State) (p : PageId) (n d : Nat) : (s.raise p n d).hbm = s.hbm := by
  rw [(State.only_raise s p n d).rest]

@[simp] theorem State.code_hbm (s : State) (p : PageId) (fn off c : Nat) : (s.code p fn off c).hbm = s.hbm := by
  rw [(State.only_code s p fn off c).rest]

@[simp] theorem State.raise_sram (s : State) (p : PageId) (n d : Nat) : (s.raise p n d).sram = s.sram := by
  rw [(State.only_raise s p n d).rest]

@[simp] theorem State.code_sram (s : State) (p : PageId) (fn off c : Nat) : (s.code p fn off c).sram = s.sram := by
  rw [(State.only_code s p fn off c).rest]

@[simp] theorem State.raise_cmd (s : State) (p : PageId) (n d : Nat) : (s.raise p n d).cmd = s.cmd := by
  rw [(State.only_raise s p n d).rest]

@[simp] theorem State.code_cmd (s : State) (p : PageId) (fn off c : Nat) : (s.code p fn off c).cmd = s.cmd := by
  rw [(State.only_code s p fn off c).rest]

@[simp] theorem State.raise_fwn (s : State) (p : PageId) (n d : Nat) : (s.raise p n d).fwn = s.fwn := by
  rw [(State.only_raise s p n d).rest]

@[simp] theorem State.code_fwn (s : State) (p : PageId) (fn off c : Nat) : (s.code p fn off c).fwn = s.fwn := by
  rw [(State.only_code s p fn off c).rest]

@[simp] theorem State.raise_cap (s : State) (p : PageId) (n d : Nat) : (s.raise p n d).cap = s.cap := by
  rw [(State.only_raise s p n d).rest]

@[simp] theorem State.code_cap (s : State) (p : PageId) (fn off c : Nat) : (s.code p fn off c).cap = s.cap := by
  rw [(State.only_code s p fn off c).rest]

@[simp] theorem State.raise_lnp (s : State) (p : PageId) (n d : Nat) : (s.raise p n d).lnp = s.lnp := by
  rw [(State.only_raise s p n d).rest]

@[simp] theorem State.code_lnp (s : State) (p : PageId) (fn off c : Nat) : (s.code p fn off c).lnp = s.lnp := by
  rw [(State.only_code s p fn off c).rest]

@[simp] theorem State.raise_trk (s : State) (p : PageId) (n d : Nat) : (s.raise p n d).trk = s.trk := by
  rw [(State.only_raise s p n d).rest]

@[simp] theorem State.code_trk (s : State) (p : PageId) (fn off c : Nat) : (s.code p fn off c).trk = s.trk := by
  rw [(State.only_code s p fn off c).rest]

@[simp] theorem State.raise_pwr (s : State) (p : PageId) (n d : Nat) : (s.raise p n d).pwr = s.pwr := by
  rw [(State.only_raise s p n d).rest]

@[simp] theorem State.code_pwr (s : State) (p : PageId) (fn off c : Nat) : (s.code p fn off c).pwr = s.pwr := by
  rw [(State.only_code s p fn off c).rest]

@[simp] theorem State.raise_flt (s : State) (p : PageId) (n d : Nat) : (s.raise p n d).flt = s.flt := by
  rw [(State.only_raise s p n d).rest]

@[simp] theorem State.code_flt (s : State) (p : PageId) (fn off c : Nat) : (s.code p fn off c).flt = s.flt := by
  rw [(State.only_code s p fn off c).rest]

@[simp] theorem State.raise_velvet (s : State) (p : PageId) (n d : Nat) : (s.raise p n d).velvet = s.velvet := by
  rw [(State.only_raise s p n d).rest]

@[simp] theorem State.code_velvet (s : State) (p : PageId) (fn off c : Nat) : (s.code p fn off c).velvet = s.velvet := by
  rw [(State.only_code s p fn off c).rest]

@[simp] theorem State.raise_tables (s : State) (p : PageId) (n d : Nat) : (s.raise p n d).tables = s.tables := by
  rw [(State.only_raise s p n d).rest]

@[simp] theorem State.code_tables (s : State) (p : PageId) (fn off c : Nat) : (s.code p fn off c).tables = s.tables := by
  rw [(State.only_code s p fn off c).rest]

@[simp] theorem State.raise_pools (s : State) (p : PageId) (n d : Nat) : (s.raise p n d).pools = s.pools := by
  rw [(State.only_raise s p n d).rest]

@[simp] theorem State.code_pools (s : State) (p : PageId) (fn off c : Nat) : (s.code p fn off c).pools = s.pools := by
  rw [(State.only_code s p fn off c).rest]

@[simp] theorem State.raise_attn (s : State) (p : PageId) (n d : Nat) : (s.raise p n d).attn = s.attn := by
  rw [(State.only_raise s p n d).rest]

@[simp] theorem State.code_attn (s : State) (p : PageId) (fn off c : Nat) : (s.code p fn off c).attn = s.attn := by
  rw [(State.only_code s p fn off c).rest]

@[simp] theorem State.raise_dec (s : State) (p : PageId) (n d : Nat) : (s.raise p n d).dec = s.dec := by
  rw [(State.only_raise s p n d).rest]

@[simp] theorem State.code_dec (s : State) (p : PageId) (fn off c : Nat) : (s.code p fn off c).dec = s.dec := by
  rw [(State.only_code s p fn off c).rest]

@[simp] theorem State.raise_draws (s : State) (p : PageId) (n d : Nat) : (s.raise p n d).draws = s.draws := by
  rw [(State.only_raise s p n d).rest]

@[simp] theorem State.code_draws (s : State) (p : PageId) (fn off c : Nat) : (s.code p fn off c).draws = s.draws := by
  rw [(State.only_code s p fn off c).rest]

@[simp] theorem State.raise_pending (s : State) (p : PageId) (n d : Nat) : (s.raise p n d).pending = s.pending := by
  rw [(State.only_raise s p n d).rest]

@[simp] theorem State.code_pending (s : State) (p : PageId) (fn off c : Nat) : (s.code p fn off c).pending = s.pending := by
  rw [(State.only_code s p fn off c).rest]

end Sys2Proof.Machine
end

