-- ==== Sys2Proof/Laws/Held.lean ====
section
/-!
SUPPORT. Laws/Held.lean: registers that operations leave as they are: the predicate, and the basic updates. It serves two claims: the header
registers that only the host's own header writes, a commit and a reset change, and the registers of pages that a command does not reach.
-/
namespace Sys2Proof.Machine

variable {P : Fld → Bool} {m : Fld → Nat → Nat → Nat}

/-- The registers that `P` picks hold given values. -/
def Held (P : Fld → Bool) (m : Fld → Nat → Nat → Nat) (s : State) : Prop := ∀ f i j, P f = true → s.get f i j = m f i j

/-- The same, of a register store. -/
def HeldParts (P : Fld → Bool) (m : Fld → Nat → Nat → Nat) (regs : List (RegKey × Nat)) : Prop :=
  ∀ f i j, P f = true → (cellGet regs (f.key i j)).getD (f.resetAt j) = m f i j

/-- `P` picks no register that shares a cell with `g`. -/
def Off (P : Fld → Bool) (g : Fld) : Prop := ∀ f, P f = true → f.diff g = true

/-- `P` picks no register of the listed kinds of page, unless it is one of the calm header registers, and none that a message may change. -/
def Avoid (P : Fld → Bool) (ks : List PageKind) : Prop :=
  (∀ g : Fld, g.calm = false → ks.contains g.kind = true → Off P g) ∧ (∀ g : Fld, msgFlds.contains g = true → Off P g)

theorem Avoid.mono {ks ls : List PageKind} (h : Avoid P ks) (e : (ls.all (fun k => ks.contains k)) = true) : Avoid P ls :=
  ⟨fun g hg hl => h.1 g hg (by
    simp only [List.contains_eq_mem, decide_eq_true_eq] at hl
    exact List.all_eq_true.mp e _ hl), h.2⟩

theorem Avoid.page {k : PageKind} (h : Avoid P [k]) {g : Fld} (hg : g.calm = false) (e : g.kind = k) : Off P g :=
  h.1 g hg (by simp [e])

theorem Fld.diff_of_calm {f g : Fld} (hf : f.calm = true) (hg : g.calm = false) : f.diff g = true := by
  cases h : f.diff g with
  | true => rfl
  | false =>
    simp only [Fld.diff, Bool.or_eq_false_iff, bne_eq_false_iff_eq] at h
    rw [Fld.calm, h.1.1, h.1.2] at hf
    rw [Fld.calm] at hg
    rw [hf] at hg; cases hg

theorem avoid_calm (ks : List PageKind) : Avoid Fld.calm ks :=
  ⟨fun _ hg _ _ hf => Fld.diff_of_calm hf hg, fun g hg f hf => by
    simp only [msgFlds, List.contains_eq_mem, List.mem_cons, List.not_mem_nil, or_false, decide_eq_true_eq] at hg
    obtain rfl | rfl | rfl := hg <;> exact Fld.diff_of_calm hf rfl⟩

theorem held_self (s : State) : Held P (fun f i j => s.get f i j) s := fun _ _ _ _ => rfl

theorem held_parts {s : State} (h : Held P m s) : HeldParts P m s.regs := h

theorem held_mk {pe : List Instr} {fu : Fuses} {ti : Nat} {ou : List Output} {re sh : List (RegKey × Nat)} {hb : HbmState} {sr : Memory}
    {a1 : List (Nat × Nat)} {a2 : List (Nat × Nat)} {a3 : List CommitRec} {a4 : Option (List HeldWrite)} {a5 a6 a7 : Nat} {a8 : List PeerSt}
    {a9 : CmdState} {b1 : List FwnPass} {b2 : CapState} {b3 : LnpState} {b4 : TrkState} {b5 : PwrState} {b6 : FltState} {b7 : Velvet}
    {b8 : MgtState} {b9 : List AtnTable} {c1 : List AtnPool} {c2 : List AttnRun} {c3 : List DecFetch} {c4 : Nat} :
    Held P m ⟨fu, re, sh, a1, a2, a3, a4, ti, a5, a6, a7, a8, hb, sr, a9, b1, b2, b3, b4, b5, b6, b7, b8, b9, c1, c2, c3, ou, c4, pe⟩ =
      HeldParts P m re := rfl

theorem held_else {p : Prop} [Decidable p] {a b : State} (hb : Held P m b) (ha : Held P m b → Held P m a) :
    Held P m (if p then a else b) := by
  split <;> simp_all

theorem held_of_pair {β : Type} {x : State × β} {t : State} {y : β} (e : x = (t, y)) (h : Held P m x.1) : Held P m t := by
  rw [e] at h; exact h

theorem State.set_stays {s : State} (h : Held P m s) (g : Fld) (i j v : Nat) (hg : Off P g) : Held P m (s.set g i j v) :=
  fun f a b hf => by rw [State.get_set_other s (hg f hf)]; exact h f a b hf

theorem State.count_stays {s : State} (h : Held P m s) (g : Fld) (i j v : Nat) (hg : Off P g) : Held P m (s.count g i j v) :=
  State.set_stays h g i j _ hg

theorem State.countWrap_stays {s : State} (h : Held P m s) (g : Fld) (i j v : Nat) (hg : Off P g) : Held P m (s.countWrap g i j v) :=
  State.set_stays h g i j _ hg

theorem State.setShadow_stays {s : State} (h : Held P m s) (g : Fld) (i j v : Nat) : Held P m (s.setShadow g i j v) := h

theorem State.emit_stays {s : State} (h : Held P m s) (x : Output) : Held P m (s.emit x) := h

theorem State.forEach_stays {α : Type} {s : State} (h : Held P m s) (l : List α) {g : State → α → State}
    (hg : ∀ t x, Held P m t → Held P m (g t x)) : Held P m (s.forEach l g) := by
  unfold State.forEach
  induction l generalizing s with
  | nil => exact h
  | cons x l ih => exact ih (hg s x h)

theorem held_foldl {α : Type} {s : State} (h : Held P m s) (l : List α) {g : State → α → State}
    (hg : ∀ t x, Held P m t → Held P m (g t x)) : Held P m (l.foldl g s) := State.forEach_stays h l hg

theorem held_foldl_fst {α β : Type} {s : State × β} (h : Held P m s.1) (l : List α) {g : State × β → α → State × β}
    (hg : ∀ t x, Held P m t.1 → Held P m (g t x).1) : Held P m (l.foldl g s).1 := by
  induction l generalizing s with
  | nil => exact h
  | cons x l ih => exact ih (hg s x h)

theorem State.clearFlds_stays {s : State} (h : Held P m s) (i : Nat) (l : List Fld) (hl : ∀ g, l.contains g = true → Off P g) :
    Held P m (s.clearFlds i l) := by
  unfold State.clearFlds State.forEach
  induction l generalizing s with
  | nil => exact h
  | cons x l ih =>
    exact ih (State.set_stays h _ _ _ _ (hl x (by simp))) (fun g hg => hl g (by simp only [List.contains_eq_mem, decide_eq_true_eq] at hg ⊢; simp [hg]))

theorem Avoid.flds {ks : List PageKind} (h : Avoid P ks) {l : List Fld} (e : l.all (fun g => !g.calm && ks.contains g.kind) = true) :
    ∀ g, l.contains g = true → Off P g := fun g hg => by
  simp only [List.contains_eq_mem, decide_eq_true_eq] at hg
  have := List.all_eq_true.mp e g hg
  simp only [Bool.and_eq_true, Bool.not_eq_true'] at this
  exact h.1 g this.1 this.2

end Sys2Proof.Machine
end

