-- ==== Sys2Proof/Laws/Held1.lean ====
section
/-!
SUPPORT. Laws/Held1.lean: the operations of the machine leave the registers that lie on pages they do not reach.
-/
namespace Sys2Proof.Machine

set_option linter.unusedSimpArgs false
set_option linter.unusedVariables false

variable {P : Fld → Bool} {m : Fld → Nat → Nat → Nat}

theorem State.hostOut_stays {s : State} (h : Held P m s) {ks : List PageKind} (hk : Avoid P ks) (o : Output) : Held P m (s.hostOut o) := by
  unfold State.hostOut
  split
  · exact h
  · exact State.count_stays h _ _ _ _ (hk.2 _ rfl)

theorem State.setPba_stays {s : State} (h : Held P m s) {ks : List PageKind} (hk : Avoid P ks) (fn v : Nat) : Held P m (s.setPba fn v) := by
  unfold State.setPba
  split
  · exact State.set_stays h _ _ _ _ (hk.2 _ rfl)
  · exact State.set_stays h _ _ _ _ (hk.2 _ rfl)

theorem State.sendMsix_stays {s : State} (h : Held P m s) {ks : List PageKind} (hk : Avoid P ks) (fn vec : Nat) : Held P m (s.sendMsix fn vec) := by
  unfold State.sendMsix
  split
  · exact State.setPba_stays h hk _ _
  · exact State.hostOut_stays h hk _

theorem State.signal_stays {s : State} (h : Held P m s) {ks : List PageKind} (hk : Avoid P ks) (p : PageId) (b : Bool) : Held P m (s.signal p b) := by
  unfold State.signal
  split
  · exact State.sendMsix_stays h hk _ _
  · exact h

theorem State.capture_stays {s : State} (h : Held P m s) {p : PageId} (hk : Avoid P [p.kind]) (mask detail : Nat) (forced : Bool) :
    Held P m (s.capture p mask detail forced) := by
  unfold State.capture
  repeat' first
    | with_reducible assumption
    | exact hk.page rfl rfl
    | with_reducible apply State.set_stays
    | with_reducible apply held_else
    | with_reducible intro _
    | split
    | dsimp only

theorem State.raiseMask_stays {s : State} (h : Held P m s) {p : PageId} (hk : Avoid P [p.kind]) (mask detail : Nat) (forced : Bool) :
    Held P m (s.raiseMask p mask detail forced) := by
  unfold State.raiseMask
  exact State.signal_stays (State.capture_stays (State.set_stays h _ _ _ _ (hk.page rfl rfl)) hk _ _ _) hk _ _

theorem State.raise_stays {s : State} (h : Held P m s) {p : PageId} (hk : Avoid P [p.kind]) (n d : Nat) : Held P m (s.raise p n d) := by
  exact State.raiseMask_stays h hk _ _ _

theorem State.code_stays {s : State} (h : Held P m s) {p : PageId} (hk : Avoid P [p.kind]) (fn off c : Nat) : Held P m (s.code p fn off c) := by
  exact State.raise_stays h hk _ _

theorem State.deny_stays {s : State} (h : Held P m s) (hk : Avoid P [.hlk]) (event : Nat) (fn : Nat) (bar : Nat) (off : Nat) : Held P m (State.deny s event fn bar off) := by
  unfold State.deny
  repeat' first
    | with_reducible assumption
    | with_reducible apply State.raise_stays
    | with_reducible apply State.set_stays
    | with_reducible apply held_foldl
    | with_reducible apply held_foldl_fst
    | exact hk.mono rfl
    | exact hk.1 _ rfl rfl
    | exact hk.2 _ rfl
    | exact hk.flds rfl
    | with_reducible apply held_else
    | with_reducible intro _
    | (simp only [↓held_mk]; with_reducible apply held_parts)
    | split
    | with_reducible refine held_of_pair (by assumption) ?_
    | dsimp only

theorem State.rerouted_stays {before after : State} (h : Held P m after) (hk : Avoid P []) : Held P m (before.rerouted after) := by
  unfold State.rerouted
  apply State.forEach_stays h
  intro t x ht
  split
  · exact State.sendMsix_stays ht hk _ _
  · exact ht

theorem State.pmcFreezeNow_stays {s : State} (h : Held P m s) (hk : Avoid P [.pmc])  : Held P m (State.pmcFreezeNow s) := by
  unfold State.pmcFreezeNow
  repeat' first
    | with_reducible assumption
    | with_reducible apply State.set_stays
    | with_reducible apply State.raise_stays
    | with_reducible apply held_foldl
    | with_reducible apply held_foldl_fst
    | exact hk.mono rfl
    | exact hk.1 _ rfl rfl
    | exact hk.2 _ rfl
    | exact hk.flds rfl
    | with_reducible apply held_else
    | with_reducible intro _
    | (simp only [↓held_mk]; with_reducible apply held_parts)
    | split
    | with_reducible refine held_of_pair (by assumption) ?_
    | dsimp only

theorem State.pmcWrapped_stays {s : State} (h : Held P m s) (hk : Avoid P [.pmc]) (n : Nat) : Held P m (State.pmcWrapped s n) := by
  unfold State.pmcWrapped
  repeat' first
    | with_reducible assumption
    | with_reducible apply State.set_stays
    | with_reducible apply State.raise_stays
    | with_reducible apply State.pmcFreezeNow_stays
    | with_reducible apply held_foldl
    | with_reducible apply held_foldl_fst
    | exact hk.mono rfl
    | exact hk.1 _ rfl rfl
    | exact hk.2 _ rfl
    | exact hk.flds rfl
    | with_reducible apply held_else
    | with_reducible intro _
    | (simp only [↓held_mk]; with_reducible apply held_parts)
    | split
    | with_reducible refine held_of_pair (by assumption) ?_
    | dsimp only

theorem State.pmcAddTop_stays {s : State} (h : Held P m s) (hk : Avoid P [.pmc]) (n : Nat) (amt : Nat) : Held P m (State.pmcAddTop s n amt) := by
  unfold State.pmcAddTop
  repeat' first
    | with_reducible assumption
    | with_reducible apply State.set_stays
    | with_reducible apply State.pmcWrapped_stays
    | with_reducible apply held_foldl
    | with_reducible apply held_foldl_fst
    | exact hk.mono rfl
    | exact hk.1 _ rfl rfl
    | exact hk.2 _ rfl
    | exact hk.flds rfl
    | with_reducible apply held_else
    | with_reducible intro _
    | (simp only [↓held_mk]; with_reducible apply held_parts)
    | split
    | with_reducible refine held_of_pair (by assumption) ?_
    | dsimp only

theorem State.pmcAdd_stays {s : State} (h : Held P m s) (hk : Avoid P [.pmc]) (n : Nat) (amt : Nat) : Held P m (State.pmcAdd s n amt) := by
  unfold State.pmcAdd
  repeat' first
    | with_reducible assumption
    | with_reducible apply State.set_stays
    | with_reducible apply State.pmcAddTop_stays
    | with_reducible apply held_foldl
    | with_reducible apply held_foldl_fst
    | exact hk.mono rfl
    | exact hk.1 _ rfl rfl
    | exact hk.2 _ rfl
    | exact hk.flds rfl
    | with_reducible apply held_else
    | with_reducible intro _
    | (simp only [↓held_mk]; with_reducible apply held_parts)
    | split
    | with_reducible refine held_of_pair (by assumption) ?_
    | dsimp only

theorem State.pmc_stays {s : State} (h : Held P m s) (hk : Avoid P [.pmc]) (code : Nat) (inst : Nat) (amt : Nat) (part : Option Nat) : Held P m (State.pmc s code inst amt part) := by
  unfold State.pmc
  repeat' first
    | with_reducible assumption
    | with_reducible apply State.forEach_stays
    | with_reducible apply State.code_stays
    | with_reducible apply State.pmcAdd_stays
    | with_reducible apply held_foldl
    | with_reducible apply held_foldl_fst
    | exact hk.mono rfl
    | exact hk.1 _ rfl rfl
    | exact hk.2 _ rfl
    | exact hk.flds rfl
    | with_reducible apply held_else
    | with_reducible intro _
    | (simp only [↓held_mk]; with_reducible apply held_parts)
    | split
    | with_reducible refine held_of_pair (by assumption) ?_
    | dsimp only

theorem State.pmcClu_stays {s : State} (h : Held P m s) (hk : Avoid P [.clu]) (phys : Nat) (code : Nat) (amt : Nat) : Held P m (State.pmcClu s phys code amt) := by
  unfold State.pmcClu
  repeat' first
    | with_reducible assumption
    | with_reducible apply State.forEach_stays
    | with_reducible apply State.code_stays
    | with_reducible apply State.set_stays
    | with_reducible apply State.raise_stays
    | with_reducible apply held_foldl
    | with_reducible apply held_foldl_fst
    | exact hk.mono rfl
    | exact hk.1 _ rfl rfl
    | exact hk.2 _ rfl
    | exact hk.flds rfl
    | with_reducible apply held_else
    | with_reducible intro _
    | (simp only [↓held_mk]; with_reducible apply held_parts)
    | split
    | with_reducible refine held_of_pair (by assumption) ?_
    | dsimp only

theorem State.hostReach_stays {s : State} (h : Held P m s) (hk : Avoid P [.hlk]) (fn : Nat) (p : PageId) (off : Nat) (act : State → State) (ha : ∀ t, Held P m t → Held P m (act t)) : Held P m (State.hostReach s fn p off act) := by
  unfold State.hostReach
  repeat' first
    | with_reducible assumption
    | with_reducible apply State.deny_stays
    | with_reducible apply ha
    | with_reducible apply held_foldl
    | with_reducible apply held_foldl_fst
    | exact hk.mono rfl
    | exact hk.1 _ rfl rfl
    | exact hk.2 _ rfl
    | exact hk.flds rfl
    | with_reducible apply held_else
    | with_reducible intro _
    | (simp only [↓held_mk]; with_reducible apply held_parts)
    | split
    | with_reducible refine held_of_pair (by assumption) ?_
    | dsimp only

theorem State.latchLow_stays {s : State} (h : Held P m s) (hk : Avoid P []) (off : Nat) (v : Nat) : Held P m (State.latchLow s off v) := by
  unfold State.latchLow
  repeat' first
    | with_reducible assumption
    | with_reducible apply held_foldl
    | with_reducible apply held_foldl_fst
    | exact hk.mono rfl
    | exact hk.1 _ rfl rfl
    | exact hk.2 _ rfl
    | exact hk.flds rfl
    | with_reducible apply held_else
    | with_reducible intro _
    | (simp only [↓held_mk]; with_reducible apply held_parts)
    | split
    | with_reducible refine held_of_pair (by assumption) ?_
    | dsimp only

theorem State.dropLow_stays {s : State} (h : Held P m s) (hk : Avoid P []) (off : Nat) : Held P m (State.dropLow s off) := by
  unfold State.dropLow
  repeat' first
    | with_reducible assumption
    | with_reducible apply held_foldl
    | with_reducible apply held_foldl_fst
    | exact hk.mono rfl
    | exact hk.1 _ rfl rfl
    | exact hk.2 _ rfl
    | exact hk.flds rfl
    | with_reducible apply held_else
    | with_reducible intro _
    | (simp only [↓held_mk]; with_reducible apply held_parts)
    | split
    | with_reducible refine held_of_pair (by assumption) ?_
    | dsimp only

theorem State.countWr_stays {s : State} (h : Held P m s) (hk : Avoid P [.memPc, .pmc]) (a : Nat) (n : Nat) (part : Option Nat) : Held P m (State.countWr s a n part) := by
  unfold State.countWr
  repeat' first
    | with_reducible assumption
    | with_reducible apply State.forEach_stays
    | with_reducible apply State.count_stays
    | with_reducible apply State.pmc_stays
    | with_reducible apply held_foldl
    | with_reducible apply held_foldl_fst
    | exact hk.mono rfl
    | exact hk.1 _ rfl rfl
    | exact hk.2 _ rfl
    | exact hk.flds rfl
    | with_reducible apply held_else
    | with_reducible intro _
    | (simp only [↓held_mk]; with_reducible apply held_parts)
    | split
    | with_reducible refine held_of_pair (by assumption) ?_
    | dsimp only

theorem State.countRd_stays {s : State} (h : Held P m s) (hk : Avoid P [.memPc, .pmc]) (a : Nat) (n : Nat) (part : Option Nat) : Held P m (State.countRd s a n part) := by
  unfold State.countRd
  repeat' first
    | with_reducible assumption
    | with_reducible apply State.forEach_stays
    | with_reducible apply State.count_stays
    | with_reducible apply State.pmc_stays
    | with_reducible apply held_foldl
    | with_reducible apply held_foldl_fst
    | exact hk.mono rfl
    | exact hk.1 _ rfl rfl
    | exact hk.2 _ rfl
    | exact hk.flds rfl
    | with_reducible apply held_else
    | with_reducible intro _
    | (simp only [↓held_mk]; with_reducible apply held_parts)
    | split
    | with_reducible refine held_of_pair (by assumption) ?_
    | dsimp only

theorem State.devWrite_stays {s : State} (h : Held P m s) (hk : Avoid P []) (a : Nat) (bs : List Nat) : Held P m (State.devWrite s a bs) := by
  unfold State.devWrite
  repeat' first
    | with_reducible assumption
    | with_reducible apply held_foldl
    | with_reducible apply held_foldl_fst
    | exact hk.mono rfl
    | exact hk.1 _ rfl rfl
    | exact hk.2 _ rfl
    | exact hk.flds rfl
    | with_reducible apply held_else
    | with_reducible intro _
    | (simp only [↓held_mk]; with_reducible apply held_parts)
    | split
    | with_reducible refine held_of_pair (by assumption) ?_
    | dsimp only

theorem State.devWriteFor_stays {s : State} (h : Held P m s) (hk : Avoid P [.memPc, .pmc]) (part : Option Nat) (a : Nat) (bs : List Nat) : Held P m (State.devWriteFor s part a bs) := by
  unfold State.devWriteFor
  repeat' first
    | with_reducible assumption
    | with_reducible apply State.devWrite_stays
    | with_reducible apply State.countWr_stays
    | with_reducible apply held_foldl
    | with_reducible apply held_foldl_fst
    | exact hk.mono rfl
    | exact hk.1 _ rfl rfl
    | exact hk.2 _ rfl
    | exact hk.flds rfl
    | with_reducible apply held_else
    | with_reducible intro _
    | (simp only [↓held_mk]; with_reducible apply held_parts)
    | split
    | with_reducible refine held_of_pair (by assumption) ?_
    | dsimp only

theorem State.bwRequest_stays {s : State} (h : Held P m s) (hk : Avoid P [.memPart, .pmc]) (p : Nat) (cost : Nat) (job : Bool) : Held P m (State.bwRequest s p cost job) := by
  unfold State.bwRequest
  repeat' first
    | with_reducible assumption
    | with_reducible apply State.count_stays
    | with_reducible apply State.pmc_stays
    | with_reducible apply State.set_stays
    | with_reducible apply held_foldl
    | with_reducible apply held_foldl_fst
    | exact hk.mono rfl
    | exact hk.1 _ rfl rfl
    | exact hk.2 _ rfl
    | exact hk.flds rfl
    | with_reducible apply held_else
    | with_reducible intro _
    | (simp only [↓held_mk]; with_reducible apply held_parts)
    | split
    | with_reducible refine held_of_pair (by assumption) ?_
    | dsimp only

theorem State.bwWindow_stays {s : State} (h : Held P m s) (hk : Avoid P [.memPart, .pmc]) (p : Nat) : Held P m (State.bwWindow s p) := by
  unfold State.bwWindow
  repeat' first
    | with_reducible assumption
    | with_reducible apply State.set_stays
    | with_reducible apply State.pmc_stays
    | with_reducible apply held_foldl
    | with_reducible apply held_foldl_fst
    | exact hk.mono rfl
    | exact hk.1 _ rfl rfl
    | exact hk.2 _ rfl
    | exact hk.flds rfl
    | with_reducible apply held_else
    | with_reducible intro _
    | (simp only [↓held_mk]; with_reducible apply held_parts)
    | split
    | with_reducible refine held_of_pair (by assumption) ?_
    | dsimp only

theorem State.dropLock_stays {s : State} (h : Held P m s) (hk : Avoid P [.lan]) (l : Nat) : Held P m (State.dropLock s l) := by
  unfold State.dropLock
  repeat' first
    | with_reducible assumption
    | with_reducible apply State.set_stays
    | with_reducible apply held_foldl
    | with_reducible apply held_foldl_fst
    | exact hk.mono rfl
    | exact hk.1 _ rfl rfl
    | exact hk.2 _ rfl
    | exact hk.flds rfl
    | with_reducible apply held_else
    | with_reducible intro _
    | (simp only [↓held_mk]; with_reducible apply held_parts)
    | split
    | with_reducible refine held_of_pair (by assumption) ?_
    | dsimp only

theorem State.rxPower_stays {s : State} (h : Held P m s) (hk : Avoid P [.lan]) (l : Nat) (target : Nat) : Held P m (State.rxPower s l target) := by
  unfold State.rxPower
  repeat' first
    | with_reducible assumption
    | with_reducible apply State.set_stays
    | with_reducible apply State.dropLock_stays
    | with_reducible apply held_foldl
    | with_reducible apply held_foldl_fst
    | exact hk.mono rfl
    | exact hk.1 _ rfl rfl
    | exact hk.2 _ rfl
    | exact hk.flds rfl
    | with_reducible apply held_else
    | with_reducible intro _
    | (simp only [↓held_mk]; with_reducible apply held_parts)
    | split
    | with_reducible refine held_of_pair (by assumption) ?_
    | dsimp only

theorem State.txPower_stays {s : State} (h : Held P m s) (hk : Avoid P [.lan]) (l : Nat) (target : Nat) : Held P m (State.txPower s l target) := by
  unfold State.txPower
  repeat' first
    | with_reducible assumption
    | with_reducible apply State.set_stays
    | with_reducible apply held_foldl
    | with_reducible apply held_foldl_fst
    | exact hk.mono rfl
    | exact hk.1 _ rfl rfl
    | exact hk.2 _ rfl
    | exact hk.flds rfl
    | with_reducible apply held_else
    | with_reducible intro _
    | (simp only [↓held_mk]; with_reducible apply held_parts)
    | split
    | with_reducible refine held_of_pair (by assumption) ?_
    | dsimp only

theorem State.wakeSettled_stays {s : State} (h : Held P m s) (hk : Avoid P [.lan]) (l : Nat) : Held P m (State.wakeSettled s l) := by
  unfold State.wakeSettled
  repeat' first
    | with_reducible assumption
    | with_reducible apply State.set_stays
    | with_reducible apply held_foldl
    | with_reducible apply held_foldl_fst
    | exact hk.mono rfl
    | exact hk.1 _ rfl rfl
    | exact hk.2 _ rfl
    | exact hk.flds rfl
    | with_reducible apply held_else
    | with_reducible intro _
    | (simp only [↓held_mk]; with_reducible apply held_parts)
    | split
    | with_reducible refine held_of_pair (by assumption) ?_
    | dsimp only

theorem State.applyPower_stays {s : State} (h : Held P m s) (hk : Avoid P [.lan]) (l : Nat) : Held P m (State.applyPower s l) := by
  unfold State.applyPower
  repeat' first
    | with_reducible assumption
    | with_reducible apply State.rxPower_stays
    | with_reducible apply State.txPower_stays
    | with_reducible apply State.wakeSettled_stays
    | with_reducible apply held_foldl
    | with_reducible apply held_foldl_fst
    | exact hk.mono rfl
    | exact hk.1 _ rfl rfl
    | exact hk.2 _ rfl
    | exact hk.flds rfl
    | with_reducible apply held_else
    | with_reducible intro _
    | (simp only [↓held_mk]; with_reducible apply held_parts)
    | split
    | with_reducible refine held_of_pair (by assumption) ?_
    | dsimp only

theorem State.laneSleep_stays {s : State} (h : Held P m s) (hk : Avoid P [.lan]) (l : Nat) : Held P m (State.laneSleep s l) := by
  unfold State.laneSleep
  repeat' first
    | with_reducible assumption
    | with_reducible apply State.set_stays
    | with_reducible apply State.dropLock_stays
    | with_reducible apply held_foldl
    | with_reducible apply held_foldl_fst
    | exact hk.mono rfl
    | exact hk.1 _ rfl rfl
    | exact hk.2 _ rfl
    | exact hk.flds rfl
    | with_reducible apply held_else
    | with_reducible intro _
    | (simp only [↓held_mk]; with_reducible apply held_parts)
    | split
    | with_reducible refine held_of_pair (by assumption) ?_
    | dsimp only

theorem State.writePower_stays {s : State} (h : Held P m s) (hk : Avoid P [.lan]) (fn : Nat) (l : Nat) (rx : Nat) (tx : Nat) : Held P m (State.writePower s fn l rx tx) := by
  unfold State.writePower
  repeat' first
    | with_reducible assumption
    | with_reducible apply State.code_stays
    | with_reducible apply State.set_stays
    | with_reducible apply State.applyPower_stays
    | with_reducible apply State.raise_stays
    | with_reducible apply held_foldl
    | with_reducible apply held_foldl_fst
    | exact hk.mono rfl
    | exact hk.1 _ rfl rfl
    | exact hk.2 _ rfl
    | exact hk.flds rfl
    | with_reducible apply held_else
    | with_reducible intro _
    | (simp only [↓held_mk]; with_reducible apply held_parts)
    | split
    | with_reducible refine held_of_pair (by assumption) ?_
    | dsimp only

theorem State.gainLock_stays {s : State} (h : Held P m s) (hk : Avoid P [.lan, .lanPeer]) (l : Nat) : Held P m (State.gainLock s l) := by
  unfold State.gainLock
  repeat' first
    | with_reducible assumption
    | with_reducible apply State.set_stays
    | with_reducible apply State.wakeSettled_stays
    | with_reducible apply State.raiseMask_stays
    | with_reducible apply State.raise_stays
    | with_reducible apply held_foldl
    | with_reducible apply held_foldl_fst
    | exact hk.mono rfl
    | exact hk.1 _ rfl rfl
    | exact hk.2 _ rfl
    | exact hk.flds rfl
    | with_reducible apply held_else
    | with_reducible intro _
    | (simp only [↓held_mk]; with_reducible apply held_parts)
    | split
    | with_reducible refine held_of_pair (by assumption) ?_
    | dsimp only

theorem State.sendTrigger_stays {s : State} (h : Held P m s) (hk : Avoid P [.lan]) (cam : Nat) : Held P m (State.sendTrigger s cam).1 := by
  unfold State.sendTrigger
  repeat' first
    | with_reducible assumption
    | with_reducible apply State.count_stays
    | with_reducible apply State.raise_stays
    | with_reducible apply State.set_stays
    | with_reducible apply State.emit_stays
    | with_reducible apply held_foldl
    | with_reducible apply held_foldl_fst
    | exact hk.mono rfl
    | exact hk.1 _ rfl rfl
    | exact hk.2 _ rfl
    | exact hk.flds rfl
    | with_reducible apply held_else
    | with_reducible intro _
    | (simp only [↓held_mk]; with_reducible apply held_parts)
    | split
    | with_reducible refine held_of_pair (by assumption) ?_
    | dsimp only

theorem State.mailboxSend_stays {s : State} (h : Held P m s) (hk : Avoid P [.lan]) (fn : Nat) (l : Nat) : Held P m (State.mailboxSend s fn l) := by
  unfold State.mailboxSend
  repeat' first
    | with_reducible assumption
    | with_reducible apply State.code_stays
    | with_reducible apply State.set_stays
    | with_reducible apply State.emit_stays
    | with_reducible apply held_foldl
    | with_reducible apply held_foldl_fst
    | exact hk.mono rfl
    | exact hk.1 _ rfl rfl
    | exact hk.2 _ rfl
    | exact hk.flds rfl
    | with_reducible apply held_else
    | with_reducible intro _
    | (simp only [↓held_mk]; with_reducible apply held_parts)
    | split
    | with_reducible refine held_of_pair (by assumption) ?_
    | dsimp only

theorem State.mailboxReceive_stays {s : State} (h : Held P m s) (hk : Avoid P [.lan]) (l : Nat) (kind : Nat) (payload : List Nat) : Held P m (State.mailboxReceive s l kind payload) := by
  unfold State.mailboxReceive
  repeat' first
    | with_reducible assumption
    | with_reducible apply State.count_stays
    | with_reducible apply State.raise_stays
    | with_reducible apply State.forEach_stays
    | with_reducible apply State.set_stays
    | with_reducible apply held_foldl
    | with_reducible apply held_foldl_fst
    | exact hk.mono rfl
    | exact hk.1 _ rfl rfl
    | exact hk.2 _ rfl
    | exact hk.flds rfl
    | with_reducible apply held_else
    | with_reducible intro _
    | (simp only [↓held_mk]; with_reducible apply held_parts)
    | split
    | with_reducible refine held_of_pair (by assumption) ?_
    | dsimp only

theorem State.laneRetire_stays {s : State} (h : Held P m s) (hk : Avoid P [.lan]) (l : Nat) : Held P m (State.laneRetire s l) := by
  unfold State.laneRetire
  repeat' first
    | with_reducible assumption
    | with_reducible apply State.set_stays
    | with_reducible apply State.laneSleep_stays
    | with_reducible apply State.raise_stays
    | with_reducible apply held_foldl
    | with_reducible apply held_foldl_fst
    | exact hk.mono rfl
    | exact hk.1 _ rfl rfl
    | exact hk.2 _ rfl
    | exact hk.flds rfl
    | with_reducible apply held_else
    | with_reducible intro _
    | (simp only [↓held_mk]; with_reducible apply held_parts)
    | split
    | with_reducible refine held_of_pair (by assumption) ?_
    | dsimp only

theorem State.modPeer_stays {s : State} (h : Held P m s) (hk : Avoid P []) (g : Nat) (f : PeerSt → PeerSt) : Held P m (State.modPeer s g f) := by
  unfold State.modPeer
  repeat' first
    | with_reducible assumption
    | with_reducible apply held_foldl
    | with_reducible apply held_foldl_fst
    | exact hk.mono rfl
    | exact hk.1 _ rfl rfl
    | exact hk.2 _ rfl
    | exact hk.flds rfl
    | with_reducible apply held_else
    | with_reducible intro _
    | (simp only [↓held_mk]; with_reducible apply held_parts)
    | split
    | with_reducible refine held_of_pair (by assumption) ?_
    | dsimp only

theorem State.peerEmit_stays {s : State} (h : Held P m s) (hk : Avoid P [.lanPeer]) (g : Nat) (f : PeerFrame) : Held P m (State.peerEmit s g f) := by
  unfold State.peerEmit
  repeat' first
    | with_reducible assumption
    | with_reducible apply State.count_stays
    | with_reducible apply State.emit_stays
    | with_reducible apply held_foldl
    | with_reducible apply held_foldl_fst
    | exact hk.mono rfl
    | exact hk.1 _ rfl rfl
    | exact hk.2 _ rfl
    | exact hk.flds rfl
    | with_reducible apply held_else
    | with_reducible intro _
    | (simp only [↓held_mk]; with_reducible apply held_parts)
    | split
    | with_reducible refine held_of_pair (by assumption) ?_
    | dsimp only

theorem State.peerTransmit_stays {s : State} (h : Held P m s) (hk : Avoid P [.lanPeer]) (g : Nat) (f : PeerFrame) : Held P m (State.peerTransmit s g f) := by
  unfold State.peerTransmit
  repeat' first
    | with_reducible assumption
    | with_reducible apply State.modPeer_stays
    | with_reducible apply State.peerEmit_stays
    | with_reducible apply held_foldl
    | with_reducible apply held_foldl_fst
    | exact hk.mono rfl
    | exact hk.1 _ rfl rfl
    | exact hk.2 _ rfl
    | exact hk.flds rfl
    | with_reducible apply held_else
    | with_reducible intro _
    | (simp only [↓held_mk]; with_reducible apply held_parts)
    | split
    | with_reducible refine held_of_pair (by assumption) ?_
    | dsimp only

theorem State.peerPump_stays {s : State} (h : Held P m s) (hk : Avoid P [.lanPeer]) (g k : Nat) : Held P m (s.peerPump g k) := by
  induction k generalizing s with
  | zero => exact h
  | succ k ih =>
    unfold State.peerPump
    split
    · exact h
    · split
      · exact ih (State.peerTransmit_stays (State.modPeer_stays h (hk.mono rfl) _ _) (hk.mono rfl) _ _)
      · exact h

theorem State.peerFlush_stays {s : State} (h : Held P m s) (hk : Avoid P [.lanPeer]) (g : Nat) : Held P m (State.peerFlush s g) := by
  unfold State.peerFlush
  repeat' first
    | with_reducible assumption
    | with_reducible apply State.peerPump_stays
    | with_reducible apply held_foldl
    | with_reducible apply held_foldl_fst
    | exact hk.mono rfl
    | exact hk.1 _ rfl rfl
    | exact hk.2 _ rfl
    | exact hk.flds rfl
    | with_reducible apply held_else
    | with_reducible intro _
    | (simp only [↓held_mk]; with_reducible apply held_parts)
    | split
    | with_reducible refine held_of_pair (by assumption) ?_
    | dsimp only

theorem State.peerSend_stays {s : State} (h : Held P m s) (hk : Avoid P [.lanPeer]) (g : Nat) (typ : Nat) (tag : Nat) (payload : List Nat) : Held P m (State.peerSend s g typ tag payload) := by
  unfold State.peerSend
  repeat' first
    | with_reducible assumption
    | with_reducible apply State.modPeer_stays
    | with_reducible apply State.peerFlush_stays
    | with_reducible apply held_foldl
    | with_reducible apply held_foldl_fst
    | exact hk.mono rfl
    | exact hk.1 _ rfl rfl
    | exact hk.2 _ rfl
    | exact hk.flds rfl
    | with_reducible apply held_else
    | with_reducible intro _
    | (simp only [↓held_mk]; with_reducible apply held_parts)
    | split
    | with_reducible refine held_of_pair (by assumption) ?_
    | dsimp only

theorem State.peerCredit_stays {s : State} (h : Held P m s) (hk : Avoid P [.lanPeer]) (g : Nat) : Held P m (State.peerCredit s g) := by
  unfold State.peerCredit
  repeat' first
    | with_reducible assumption
    | with_reducible apply State.peerEmit_stays
    | with_reducible apply held_foldl
    | with_reducible apply held_foldl_fst
    | exact hk.mono rfl
    | exact hk.1 _ rfl rfl
    | exact hk.2 _ rfl
    | exact hk.flds rfl
    | with_reducible apply held_else
    | with_reducible intro _
    | (simp only [↓held_mk]; with_reducible apply held_parts)
    | split
    | with_reducible refine held_of_pair (by assumption) ?_
    | dsimp only

theorem State.peerAck_stays {s : State} (h : Held P m s) (hk : Avoid P [.lanPeer]) (g : Nat) : Held P m (State.peerAck s g) := by
  unfold State.peerAck
  repeat' first
    | with_reducible assumption
    | with_reducible apply State.modPeer_stays
    | with_reducible apply State.peerEmit_stays
    | with_reducible apply held_foldl
    | with_reducible apply held_foldl_fst
    | exact hk.mono rfl
    | exact hk.1 _ rfl rfl
    | exact hk.2 _ rfl
    | exact hk.flds rfl
    | with_reducible apply held_else
    | with_reducible intro _
    | (simp only [↓held_mk]; with_reducible apply held_parts)
    | split
    | with_reducible refine held_of_pair (by assumption) ?_
    | dsimp only

theorem State.peerLock_stays {s : State} (h : Held P m s) (hk : Avoid P [.lanPeer]) (g : Nat) : Held P m (State.peerLock s g) := by
  unfold State.peerLock
  repeat' first
    | with_reducible assumption
    | with_reducible apply State.set_stays
    | with_reducible apply State.modPeer_stays
    | with_reducible apply held_foldl
    | with_reducible apply held_foldl_fst
    | exact hk.mono rfl
    | exact hk.1 _ rfl rfl
    | exact hk.2 _ rfl
    | exact hk.flds rfl
    | with_reducible apply held_else
    | with_reducible intro _
    | (simp only [↓held_mk]; with_reducible apply held_parts)
    | split
    | with_reducible refine held_of_pair (by assumption) ?_
    | dsimp only

theorem State.peerFail_stays {s : State} (h : Held P m s) (hk : Avoid P [.lanPeer]) (g : Nat) (ev : Nat) : Held P m (State.peerFail s g ev) := by
  unfold State.peerFail
  repeat' first
    | with_reducible assumption
    | with_reducible apply State.set_stays
    | with_reducible apply State.modPeer_stays
    | with_reducible apply State.raise_stays
    | with_reducible apply held_foldl
    | with_reducible apply held_foldl_fst
    | exact hk.mono rfl
    | exact hk.1 _ rfl rfl
    | exact hk.2 _ rfl
    | exact hk.flds rfl
    | with_reducible apply held_else
    | with_reducible intro _
    | (simp only [↓held_mk]; with_reducible apply held_parts)
    | split
    | with_reducible refine held_of_pair (by assumption) ?_
    | dsimp only

theorem State.peerUp_stays {s : State} (h : Held P m s) (hk : Avoid P [.lanPeer]) (g : Nat) : Held P m (State.peerUp s g) := by
  unfold State.peerUp
  repeat' first
    | with_reducible assumption
    | with_reducible apply State.set_stays
    | with_reducible apply State.modPeer_stays
    | with_reducible apply State.raise_stays
    | with_reducible apply held_foldl
    | with_reducible apply held_foldl_fst
    | exact hk.mono rfl
    | exact hk.1 _ rfl rfl
    | exact hk.2 _ rfl
    | exact hk.flds rfl
    | with_reducible apply held_else
    | with_reducible intro _
    | (simp only [↓held_mk]; with_reducible apply held_parts)
    | split
    | with_reducible refine held_of_pair (by assumption) ?_
    | dsimp only

theorem State.peerDown_stays {s : State} (h : Held P m s) (hk : Avoid P [.lanPeer]) (g : Nat) : Held P m (State.peerDown s g) := by
  unfold State.peerDown
  repeat' first
    | with_reducible assumption
    | with_reducible apply State.set_stays
    | with_reducible apply State.modPeer_stays
    | with_reducible apply State.raise_stays
    | with_reducible apply held_foldl
    | with_reducible apply held_foldl_fst
    | exact hk.mono rfl
    | exact hk.1 _ rfl rfl
    | exact hk.2 _ rfl
    | exact hk.flds rfl
    | with_reducible apply held_else
    | with_reducible intro _
    | (simp only [↓held_mk]; with_reducible apply held_parts)
    | split
    | with_reducible refine held_of_pair (by assumption) ?_
    | dsimp only

theorem State.peerFollow_stays {s : State} (h : Held P m s) (hk : Avoid P [.lanPeer]) (l : Nat) : Held P m (State.peerFollow s l) := by
  unfold State.peerFollow
  repeat' first
    | with_reducible assumption
    | with_reducible apply State.set_stays
    | with_reducible apply State.peerDown_stays
    | with_reducible apply held_foldl
    | with_reducible apply held_foldl_fst
    | exact hk.mono rfl
    | exact hk.1 _ rfl rfl
    | exact hk.2 _ rfl
    | exact hk.flds rfl
    | with_reducible apply held_else
    | with_reducible intro _
    | (simp only [↓held_mk]; with_reducible apply held_parts)
    | split
    | with_reducible refine held_of_pair (by assumption) ?_
    | dsimp only

theorem State.peerTrainWrite_stays {s : State} (h : Held P m s) (hk : Avoid P [.lanPeer]) (g : Nat) : Held P m (State.peerTrainWrite s g) := by
  unfold State.peerTrainWrite
  repeat' first
    | with_reducible assumption
    | with_reducible apply State.peerLock_stays
    | with_reducible apply held_foldl
    | with_reducible apply held_foldl_fst
    | exact hk.mono rfl
    | exact hk.1 _ rfl rfl
    | exact hk.2 _ rfl
    | exact hk.flds rfl
    | with_reducible apply held_else
    | with_reducible intro _
    | (simp only [↓held_mk]; with_reducible apply held_parts)
    | split
    | with_reducible refine held_of_pair (by assumption) ?_
    | dsimp only

theorem State.peerEnable_stays {s : State} (h : Held P m s) (hk : Avoid P [.lan, .lanPeer]) (fn : Nat) (g : Nat) : Held P m (State.peerEnable s fn g) := by
  unfold State.peerEnable
  repeat' first
    | with_reducible assumption
    | with_reducible apply State.code_stays
    | with_reducible apply State.set_stays
    | with_reducible apply State.forEach_stays
    | with_reducible apply State.setShadow_stays
    | with_reducible apply State.applyPower_stays
    | with_reducible apply State.peerLock_stays
    | with_reducible apply held_foldl
    | with_reducible apply held_foldl_fst
    | exact hk.mono rfl
    | exact hk.1 _ rfl rfl
    | exact hk.2 _ rfl
    | exact hk.flds rfl
    | with_reducible apply held_else
    | with_reducible intro _
    | (simp only [↓held_mk]; with_reducible apply held_parts)
    | split
    | with_reducible refine held_of_pair (by assumption) ?_
    | dsimp only

theorem State.peerDisable_stays {s : State} (h : Held P m s) (hk : Avoid P [.lan, .lanPeer]) (g : Nat) : Held P m (State.peerDisable s g) := by
  unfold State.peerDisable
  repeat' first
    | with_reducible assumption
    | with_reducible apply State.set_stays
    | with_reducible apply State.peerDown_stays
    | with_reducible apply State.forEach_stays
    | with_reducible apply State.setShadow_stays
    | with_reducible apply State.dropLock_stays
    | with_reducible apply held_foldl
    | with_reducible apply held_foldl_fst
    | exact hk.mono rfl
    | exact hk.1 _ rfl rfl
    | exact hk.2 _ rfl
    | exact hk.flds rfl
    | with_reducible apply held_else
    | with_reducible intro _
    | (simp only [↓held_mk]; with_reducible apply held_parts)
    | split
    | with_reducible refine held_of_pair (by assumption) ?_
    | dsimp only

theorem State.helloOut_stays {s : State} (h : Held P m s) (hk : Avoid P [.lanPeer]) (g : Nat) : Held P m (State.helloOut s g) := by
  unfold State.helloOut
  repeat' first
    | with_reducible assumption
    | with_reducible apply State.peerEmit_stays
    | with_reducible apply held_foldl
    | with_reducible apply held_foldl_fst
    | exact hk.mono rfl
    | exact hk.1 _ rfl rfl
    | exact hk.2 _ rfl
    | exact hk.flds rfl
    | with_reducible apply held_else
    | with_reducible intro _
    | (simp only [↓held_mk]; with_reducible apply held_parts)
    | split
    | with_reducible refine held_of_pair (by assumption) ?_
    | dsimp only

theorem State.helloIn_stays {s : State} (h : Held P m s) (hk : Avoid P [.lanPeer]) (g : Nat) (f : PeerFrame) (crc : Nat) : Held P m (State.helloIn s g f crc) := by
  unfold State.helloIn
  repeat' first
    | with_reducible assumption
    | with_reducible apply State.count_stays
    | with_reducible apply State.set_stays
    | with_reducible apply State.modPeer_stays
    | with_reducible apply State.peerUp_stays
    | with_reducible apply State.peerFail_stays
    | with_reducible apply held_foldl
    | with_reducible apply held_foldl_fst
    | exact hk.mono rfl
    | exact hk.1 _ rfl rfl
    | exact hk.2 _ rfl
    | exact hk.flds rfl
    | with_reducible apply held_else
    | with_reducible intro _
    | (simp only [↓held_mk]; with_reducible apply held_parts)
    | split
    | with_reducible refine held_of_pair (by assumption) ?_
    | dsimp only

theorem State.peerMarkers_stays {s : State} (h : Held P m s) (hk : Avoid P [.lanPeer]) (g : Nat) (order : List Nat) (skewPs : Nat) : Held P m (State.peerMarkers s g order skewPs) := by
  unfold State.peerMarkers
  repeat' first
    | with_reducible assumption
    | with_reducible apply State.set_stays
    | with_reducible apply State.peerFail_stays
    | with_reducible apply held_foldl
    | with_reducible apply held_foldl_fst
    | exact hk.mono rfl
    | exact hk.1 _ rfl rfl
    | exact hk.2 _ rfl
    | exact hk.flds rfl
    | with_reducible apply held_else
    | with_reducible intro _
    | (simp only [↓held_mk]; with_reducible apply held_parts)
    | split
    | with_reducible refine held_of_pair (by assumption) ?_
    | dsimp only

theorem State.peerFree_stays {s : State} (h : Held P m s) (hk : Avoid P [.lanPeer]) (g : Nat) (t : Nat) : Held P m (State.peerFree s g t) := by
  unfold State.peerFree
  repeat' first
    | with_reducible assumption
    | with_reducible apply State.modPeer_stays
    | with_reducible apply State.peerCredit_stays
    | with_reducible apply held_foldl
    | with_reducible apply held_foldl_fst
    | exact hk.mono rfl
    | exact hk.1 _ rfl rfl
    | exact hk.2 _ rfl
    | exact hk.flds rfl
    | with_reducible apply held_else
    | with_reducible intro _
    | (simp only [↓held_mk]; with_reducible apply held_parts)
    | split
    | with_reducible refine held_of_pair (by assumption) ?_
    | dsimp only

theorem State.peerTake_stays {s : State} (h : Held P m s) (hk : Avoid P [.lanPeer]) (g : Nat) (f : PeerFrame) : Held P m (State.peerTake s g f).1 := by
  unfold State.peerTake
  repeat' first
    | with_reducible assumption
    | with_reducible apply State.count_stays
    | with_reducible apply State.peerFree_stays
    | with_reducible apply State.modPeer_stays
    | with_reducible apply held_foldl
    | with_reducible apply held_foldl_fst
    | exact hk.mono rfl
    | exact hk.1 _ rfl rfl
    | exact hk.2 _ rfl
    | exact hk.flds rfl
    | with_reducible apply held_else
    | with_reducible intro _
    | (simp only [↓held_mk]; with_reducible apply held_parts)
    | split
    | with_reducible refine held_of_pair (by assumption) ?_
    | dsimp only

theorem State.peerNak_stays {s : State} (h : Held P m s) (hk : Avoid P [.lanPeer]) (g : Nat) : Held P m (State.peerNak s g) := by
  unfold State.peerNak
  repeat' first
    | with_reducible assumption
    | with_reducible apply State.modPeer_stays
    | with_reducible apply State.peerEmit_stays
    | with_reducible apply held_foldl
    | with_reducible apply held_foldl_fst
    | exact hk.mono rfl
    | exact hk.1 _ rfl rfl
    | exact hk.2 _ rfl
    | exact hk.flds rfl
    | with_reducible apply held_else
    | with_reducible intro _
    | (simp only [↓held_mk]; with_reducible apply held_parts)
    | split
    | with_reducible refine held_of_pair (by assumption) ?_
    | dsimp only

theorem State.peerRetry_stays {s : State} (h : Held P m s) (hk : Avoid P [.lanPeer]) (g : Nat) (f : PeerFrame) (crc : Nat) : Held P m (State.peerRetry s g f crc).1 := by
  unfold State.peerRetry
  repeat' first
    | with_reducible assumption
    | with_reducible apply State.count_stays
    | with_reducible apply State.peerNak_stays
    | with_reducible apply State.modPeer_stays
    | with_reducible apply State.peerTake_stays
    | with_reducible apply State.peerAck_stays
    | with_reducible apply held_foldl
    | with_reducible apply held_foldl_fst
    | exact hk.mono rfl
    | exact hk.1 _ rfl rfl
    | exact hk.2 _ rfl
    | exact hk.flds rfl
    | with_reducible apply held_else
    | with_reducible intro _
    | (simp only [↓held_mk]; with_reducible apply held_parts)
    | split
    | with_reducible refine held_of_pair (by assumption) ?_
    | dsimp only

theorem State.peerDropMode_stays {s : State} (h : Held P m s) (hk : Avoid P [.lanPeer]) (g : Nat) (f : PeerFrame) (crc : Nat) : Held P m (State.peerDropMode s g f crc).1 := by
  unfold State.peerDropMode
  repeat' first
    | with_reducible assumption
    | with_reducible apply State.count_stays
    | with_reducible apply State.raise_stays
    | with_reducible apply State.modPeer_stays
    | with_reducible apply State.peerFree_stays
    | with_reducible apply State.peerTake_stays
    | with_reducible apply held_foldl
    | with_reducible apply held_foldl_fst
    | exact hk.mono rfl
    | exact hk.1 _ rfl rfl
    | exact hk.2 _ rfl
    | exact hk.flds rfl
    | with_reducible apply held_else
    | with_reducible intro _
    | (simp only [↓held_mk]; with_reducible apply held_parts)
    | split
    | with_reducible refine held_of_pair (by assumption) ?_
    | dsimp only

theorem State.peerReceive_stays {s : State} (h : Held P m s) (hk : Avoid P [.lanPeer]) (g : Nat) (f : PeerFrame) (crc : Nat) : Held P m (State.peerReceive s g f crc).1 := by
  unfold State.peerReceive
  repeat' first
    | with_reducible assumption
    | with_reducible apply State.peerDropMode_stays
    | with_reducible apply State.peerRetry_stays
    | with_reducible apply held_foldl
    | with_reducible apply held_foldl_fst
    | exact hk.mono rfl
    | exact hk.1 _ rfl rfl
    | exact hk.2 _ rfl
    | exact hk.flds rfl
    | with_reducible apply held_else
    | with_reducible intro _
    | (simp only [↓held_mk]; with_reducible apply held_parts)
    | split
    | with_reducible refine held_of_pair (by assumption) ?_
    | dsimp only

theorem State.peerCtl_stays {s : State} (h : Held P m s) (hk : Avoid P [.lanPeer]) (g : Nat) (f : PeerFrame) (crc : Nat) (act : State → State) (ha : ∀ t, Held P m t → Held P m (act t)) : Held P m (State.peerCtl s g f crc act) := by
  unfold State.peerCtl
  repeat' first
    | with_reducible assumption
    | with_reducible apply State.count_stays
    | with_reducible apply ha
    | with_reducible apply held_foldl
    | with_reducible apply held_foldl_fst
    | exact hk.mono rfl
    | exact hk.1 _ rfl rfl
    | exact hk.2 _ rfl
    | exact hk.flds rfl
    | with_reducible apply held_else
    | with_reducible intro _
    | (simp only [↓held_mk]; with_reducible apply held_parts)
    | split
    | with_reducible refine held_of_pair (by assumption) ?_
    | dsimp only

theorem State.peerAcked_stays {s : State} (h : Held P m s) (hk : Avoid P [.lanPeer]) (g : Nat) (a : Nat) : Held P m (State.peerAcked s g a) := by
  unfold State.peerAcked
  repeat' first
    | with_reducible assumption
    | with_reducible apply State.modPeer_stays
    | with_reducible apply State.peerFlush_stays
    | with_reducible apply held_foldl
    | with_reducible apply held_foldl_fst
    | exact hk.mono rfl
    | exact hk.1 _ rfl rfl
    | exact hk.2 _ rfl
    | exact hk.flds rfl
    | with_reducible apply held_else
    | with_reducible intro _
    | (simp only [↓held_mk]; with_reducible apply held_parts)
    | split
    | with_reducible refine held_of_pair (by assumption) ?_
    | dsimp only

theorem State.peerResend_stays {s : State} (h : Held P m s) (hk : Avoid P [.lanPeer]) (g : Nat) : Held P m (State.peerResend s g) := by
  unfold State.peerResend
  repeat' first
    | with_reducible assumption
    | with_reducible apply State.raise_stays
    | with_reducible apply State.peerDown_stays
    | with_reducible apply State.modPeer_stays
    | with_reducible apply State.forEach_stays
    | with_reducible apply State.count_stays
    | with_reducible apply State.peerEmit_stays
    | with_reducible apply held_foldl
    | with_reducible apply held_foldl_fst
    | exact hk.mono rfl
    | exact hk.1 _ rfl rfl
    | exact hk.2 _ rfl
    | exact hk.flds rfl
    | with_reducible apply held_else
    | with_reducible intro _
    | (simp only [↓held_mk]; with_reducible apply held_parts)
    | split
    | with_reducible refine held_of_pair (by assumption) ?_
    | dsimp only

theorem State.peerCredited_stays {s : State} (h : Held P m s) (hk : Avoid P [.lanPeer]) (g : Nat) (tag : Nat) : Held P m (State.peerCredited s g tag) := by
  unfold State.peerCredited
  repeat' first
    | with_reducible assumption
    | with_reducible apply State.modPeer_stays
    | with_reducible apply State.peerFlush_stays
    | with_reducible apply held_foldl
    | with_reducible apply held_foldl_fst
    | exact hk.mono rfl
    | exact hk.1 _ rfl rfl
    | exact hk.2 _ rfl
    | exact hk.flds rfl
    | with_reducible apply held_else
    | with_reducible intro _
    | (simp only [↓held_mk]; with_reducible apply held_parts)
    | split
    | with_reducible refine held_of_pair (by assumption) ?_
    | dsimp only

theorem State.rollover_stays {s : State} (h : Held P m s) (hk : Avoid P [.tim])  : Held P m (State.rollover s) := by
  unfold State.rollover
  repeat' first
    | with_reducible assumption
    | with_reducible apply State.set_stays
    | with_reducible apply State.raise_stays
    | with_reducible apply held_foldl
    | with_reducible apply held_foldl_fst
    | exact hk.mono rfl
    | exact hk.1 _ rfl rfl
    | exact hk.2 _ rfl
    | exact hk.flds rfl
    | with_reducible apply held_else
    | with_reducible intro _
    | (simp only [↓held_mk]; with_reducible apply held_parts)
    | split
    | with_reducible refine held_of_pair (by assumption) ?_
    | dsimp only

theorem State.passRaw_stays {s : State} (h : Held P m s) (hk : Avoid P []) (k : Nat) : Held P m (State.passRaw s k) := by
  unfold State.passRaw
  repeat' first
    | with_reducible assumption
    | with_reducible apply held_foldl
    | with_reducible apply held_foldl_fst
    | exact hk.mono rfl
    | exact hk.1 _ rfl rfl
    | exact hk.2 _ rfl
    | exact hk.flds rfl
    | with_reducible apply held_else
    | with_reducible intro _
    | (simp only [↓held_mk]; with_reducible apply held_parts)
    | split
    | with_reducible refine held_of_pair (by assumption) ?_
    | dsimp only

theorem State.passTicks_stays {s : State} (h : Held P m s) (hk : Avoid P [.tim]) (f k : Nat) : Held P m (s.passTicks f k) := by
  induction f generalizing s k with
  | zero => exact State.passRaw_stays h (hk.mono rfl) _
  | succ f ih =>
    unfold State.passTicks
    dsimp only
    split
    · exact State.passRaw_stays h (hk.mono rfl) _
    · exact ih (State.rollover_stays (State.passRaw_stays h (hk.mono rfl) _) (hk.mono rfl)) _

theorem State.pass_stays {s : State} (h : Held P m s) (hk : Avoid P [.tim]) (k : Nat) : Held P m (State.pass s k) := by
  unfold State.pass
  repeat' first
    | with_reducible assumption
    | with_reducible apply State.passTicks_stays
    | with_reducible apply held_foldl
    | with_reducible apply held_foldl_fst
    | exact hk.mono rfl
    | exact hk.1 _ rfl rfl
    | exact hk.2 _ rfl
    | exact hk.flds rfl
    | with_reducible apply held_else
    | with_reducible intro _
    | (simp only [↓held_mk]; with_reducible apply held_parts)
    | split
    | with_reducible refine held_of_pair (by assumption) ?_
    | dsimp only

theorem State.timCapture_stays {s : State} (h : Held P m s) (hk : Avoid P [.tim]) (src : Nat) (sel : Nat) (rising : Bool) (sec : Nat) (ns : Nat) (pos : Int) : Held P m (State.timCapture s src sel rising sec ns pos) := by
  unfold State.timCapture
  repeat' first
    | with_reducible assumption
    | with_reducible apply State.forEach_stays
    | with_reducible apply State.set_stays
    | with_reducible apply State.countWrap_stays
    | with_reducible apply State.raiseMask_stays
    | with_reducible apply held_foldl
    | with_reducible apply held_foldl_fst
    | exact hk.mono rfl
    | exact hk.1 _ rfl rfl
    | exact hk.2 _ rfl
    | exact hk.flds rfl
    | with_reducible apply held_else
    | with_reducible intro _
    | (simp only [↓held_mk]; with_reducible apply held_parts)
    | split
    | with_reducible refine held_of_pair (by assumption) ?_
    | dsimp only

theorem State.encCounts_stays {s : State} (h : Held P m s) (hk : Avoid P [.enc]) (e : Nat) (delta : Int) : Held P m (State.encCounts s e delta) := by
  unfold State.encCounts
  repeat' first
    | with_reducible assumption
    | with_reducible apply State.set_stays
    | with_reducible apply held_foldl
    | with_reducible apply held_foldl_fst
    | exact hk.mono rfl
    | exact hk.1 _ rfl rfl
    | exact hk.2 _ rfl
    | exact hk.flds rfl
    | with_reducible apply held_else
    | with_reducible intro _
    | (simp only [↓held_mk]; with_reducible apply held_parts)
    | split
    | with_reducible refine held_of_pair (by assumption) ?_
    | dsimp only

theorem State.modPool_stays {s : State} (h : Held P m s) (hk : Avoid P []) (q : Nat) (f : AtnPool → AtnPool) : Held P m (State.modPool s q f) := by
  unfold State.modPool
  repeat' first
    | with_reducible assumption
    | with_reducible apply held_foldl
    | with_reducible apply held_foldl_fst
    | exact hk.mono rfl
    | exact hk.1 _ rfl rfl
    | exact hk.2 _ rfl
    | exact hk.flds rfl
    | with_reducible apply held_else
    | with_reducible intro _
    | (simp only [↓held_mk]; with_reducible apply held_parts)
    | split
    | with_reducible refine held_of_pair (by assumption) ?_
    | dsimp only

theorem State.modTable_stays {s : State} (h : Held P m s) (hk : Avoid P []) (id : Nat) (f : AtnTable → AtnTable) : Held P m (State.modTable s id f) := by
  unfold State.modTable
  repeat' first
    | with_reducible assumption
    | with_reducible apply held_foldl
    | with_reducible apply held_foldl_fst
    | exact hk.mono rfl
    | exact hk.1 _ rfl rfl
    | exact hk.2 _ rfl
    | exact hk.flds rfl
    | with_reducible apply held_else
    | with_reducible intro _
    | (simp only [↓held_mk]; with_reducible apply held_parts)
    | split
    | with_reducible refine held_of_pair (by assumption) ?_
    | dsimp only

theorem State.takeLocal_stays {s : State} (h : Held P m s) (hk : Avoid P []) (q : Nat) : Held P m (State.takeLocal s q).1 := by
  unfold State.takeLocal
  repeat' first
    | with_reducible assumption
    | with_reducible apply State.modPool_stays
    | with_reducible apply held_foldl
    | with_reducible apply held_foldl_fst
    | exact hk.mono rfl
    | exact hk.1 _ rfl rfl
    | exact hk.2 _ rfl
    | exact hk.flds rfl
    | with_reducible apply held_else
    | with_reducible intro _
    | (simp only [↓held_mk]; with_reducible apply held_parts)
    | split
    | with_reducible refine held_of_pair (by assumption) ?_
    | dsimp only

theorem State.takeHome_stays {s : State} (h : Held P m s) (hk : Avoid P []) (q : Nat) : Held P m (State.takeHome s q).1 := by
  unfold State.takeHome
  repeat' first
    | with_reducible assumption
    | with_reducible apply State.modPool_stays
    | with_reducible apply held_foldl
    | with_reducible apply held_foldl_fst
    | exact hk.mono rfl
    | exact hk.1 _ rfl rfl
    | exact hk.2 _ rfl
    | exact hk.flds rfl
    | with_reducible apply held_else
    | with_reducible intro _
    | (simp only [↓held_mk]; with_reducible apply held_parts)
    | split
    | with_reducible refine held_of_pair (by assumption) ?_
    | dsimp only

theorem State.freeLocal_stays {s : State} (h : Held P m s) (hk : Avoid P []) (q : Nat) (page : Nat) : Held P m (State.freeLocal s q page) := by
  unfold State.freeLocal
  repeat' first
    | with_reducible assumption
    | with_reducible apply State.modPool_stays
    | with_reducible apply held_foldl
    | with_reducible apply held_foldl_fst
    | exact hk.mono rfl
    | exact hk.1 _ rfl rfl
    | exact hk.2 _ rfl
    | exact hk.flds rfl
    | with_reducible apply held_else
    | with_reducible intro _
    | (simp only [↓held_mk]; with_reducible apply held_parts)
    | split
    | with_reducible refine held_of_pair (by assumption) ?_
    | dsimp only

theorem State.freeHome_stays {s : State} (h : Held P m s) (hk : Avoid P []) (q : Nat) (page : Nat) : Held P m (State.freeHome s q page) := by
  unfold State.freeHome
  repeat' first
    | with_reducible assumption
    | with_reducible apply State.modPool_stays
    | with_reducible apply held_foldl
    | with_reducible apply held_foldl_fst
    | exact hk.mono rfl
    | exact hk.1 _ rfl rfl
    | exact hk.2 _ rfl
    | exact hk.flds rfl
    | with_reducible apply held_else
    | with_reducible intro _
    | (simp only [↓held_mk]; with_reducible apply held_parts)
    | split
    | with_reducible refine held_of_pair (by assumption) ?_
    | dsimp only

theorem State.reapPushes_stays {s : State} (h : Held P m s) (hk : Avoid P [])  : Held P m (State.reapPushes s) := by
  unfold State.reapPushes
  repeat' first
    | with_reducible assumption
    | with_reducible apply State.forEach_stays
    | with_reducible apply State.modPool_stays
    | with_reducible apply State.freeLocal_stays
    | with_reducible apply held_foldl
    | with_reducible apply held_foldl_fst
    | exact hk.mono rfl
    | exact hk.1 _ rfl rfl
    | exact hk.2 _ rfl
    | exact hk.flds rfl
    | with_reducible apply held_else
    | with_reducible intro _
    | (simp only [↓held_mk]; with_reducible apply held_parts)
    | split
    | with_reducible refine held_of_pair (by assumption) ?_
    | dsimp only

theorem State.tableCreate_stays {s : State} (h : Held P m s) (hk : Avoid P [.atn]) (id : Nat) (gen : Nat) (ctx : Nat) (w : Nat) : Held P m (State.tableCreate s id gen ctx w) := by
  unfold State.tableCreate
  repeat' first
    | with_reducible assumption
    | with_reducible apply State.raise_stays
    | with_reducible apply held_foldl
    | with_reducible apply held_foldl_fst
    | exact hk.mono rfl
    | exact hk.1 _ rfl rfl
    | exact hk.2 _ rfl
    | exact hk.flds rfl
    | with_reducible apply held_else
    | with_reducible intro _
    | (simp only [↓held_mk]; with_reducible apply held_parts)
    | split
    | with_reducible refine held_of_pair (by assumption) ?_
    | dsimp only

theorem State.tableRelease_stays {s : State} (h : Held P m s) (hk : Avoid P []) (id : Nat) : Held P m (State.tableRelease s id) := by
  unfold State.tableRelease
  repeat' first
    | with_reducible assumption
    | with_reducible apply State.modTable_stays
    | with_reducible apply held_foldl
    | with_reducible apply held_foldl_fst
    | exact hk.mono rfl
    | exact hk.1 _ rfl rfl
    | exact hk.2 _ rfl
    | exact hk.flds rfl
    | with_reducible apply held_else
    | with_reducible intro _
    | (simp only [↓held_mk]; with_reducible apply held_parts)
    | split
    | with_reducible refine held_of_pair (by assumption) ?_
    | dsimp only

theorem State.tablePages_stays {s : State} (h : Held P m s) (hk : Avoid P []) (t : AtnTable) : Held P m (State.tablePages s t) := by
  unfold State.tablePages
  repeat' first
    | with_reducible assumption
    | with_reducible apply State.forEach_stays
    | with_reducible apply State.freeHome_stays
    | with_reducible apply State.freeLocal_stays
    | with_reducible apply held_foldl
    | with_reducible apply held_foldl_fst
    | exact hk.mono rfl
    | exact hk.1 _ rfl rfl
    | exact hk.2 _ rfl
    | exact hk.flds rfl
    | with_reducible apply held_else
    | with_reducible intro _
    | (simp only [↓held_mk]; with_reducible apply held_parts)
    | split
    | with_reducible refine held_of_pair (by assumption) ?_
    | dsimp only

end Sys2Proof.Machine
end

