-- ==== Sys2Proof/Laws/Held2.lean ====
section
/-!
SUPPORT. Laws/Held2.lean: the operations of the machine leave the registers that lie on pages they do not reach.
-/
namespace Sys2Proof.Machine

set_option linter.unusedSimpArgs false
set_option linter.unusedVariables false

variable {P : Fld → Bool} {m : Fld → Nat → Nat → Nat}

theorem State.modTrk_stays {s : State} (h : Held P m s) (hk : Avoid P []) (f : TrkState → TrkState) : Held P m (State.modTrk s f) := by
  unfold State.modTrk
  repeat' first
    | with_reducible assumption
    | with_reducible apply held_foldl
    | with_reducible apply held_foldl_fst
    | exact hk.mono rfl
    | exact hk.1 _ rfl rfl
    | exact hk.2 _ rfl
    | exact hk.flds rfl
    | with_reducible apply held_else
    | with_reducible intro _
    | (simp only [↓held_mk]; with_reducible apply held_parts)
    | split
    | with_reducible refine held_of_pair (by assumption) ?_
    | dsimp only

theorem State.modRec_stays {s : State} (h : Held P m s) (hk : Avoid P []) (span : Bool) (id : Nat) (f : TrkRec → TrkRec) : Held P m (State.modRec s span id f) := by
  unfold State.modRec
  repeat' first
    | with_reducible assumption
    | with_reducible apply State.modTrk_stays
    | with_reducible apply held_foldl
    | with_reducible apply held_foldl_fst
    | exact hk.mono rfl
    | exact hk.1 _ rfl rfl
    | exact hk.2 _ rfl
    | exact hk.flds rfl
    | with_reducible apply held_else
    | with_reducible intro _
    | (simp only [↓held_mk]; with_reducible apply held_parts)
    | split
    | with_reducible refine held_of_pair (by assumption) ?_
    | dsimp only

theorem State.bumpGen_stays {s : State} (h : Held P m s) (hk : Avoid P []) (id : Nat) : Held P m (State.bumpGen s id) := by
  unfold State.bumpGen
  repeat' first
    | with_reducible assumption
    | with_reducible apply State.modTrk_stays
    | with_reducible apply held_foldl
    | with_reducible apply held_foldl_fst
    | exact hk.mono rfl
    | exact hk.1 _ rfl rfl
    | exact hk.2 _ rfl
    | exact hk.flds rfl
    | with_reducible apply held_else
    | with_reducible intro _
    | (simp only [↓held_mk]; with_reducible apply held_parts)
    | split
    | with_reducible refine held_of_pair (by assumption) ?_
    | dsimp only

theorem State.giveId_stays {s : State} (h : Held P m s) (hk : Avoid P []) (id : Nat) : Held P m (State.giveId s id) := by
  unfold State.giveId
  repeat' first
    | with_reducible assumption
    | with_reducible apply State.modTrk_stays
    | with_reducible apply held_foldl
    | with_reducible apply held_foldl_fst
    | exact hk.mono rfl
    | exact hk.1 _ rfl rfl
    | exact hk.2 _ rfl
    | exact hk.flds rfl
    | with_reducible apply held_else
    | with_reducible intro _
    | (simp only [↓held_mk]; with_reducible apply held_parts)
    | split
    | with_reducible refine held_of_pair (by assumption) ?_
    | dsimp only

theorem State.notePeak_stays {s : State} (h : Held P m s) (hk : Avoid P [.ejt])  : Held P m (State.notePeak s) := by
  unfold State.notePeak
  repeat' first
    | with_reducible assumption
    | with_reducible apply State.set_stays
    | with_reducible apply held_foldl
    | with_reducible apply held_foldl_fst
    | exact hk.mono rfl
    | exact hk.1 _ rfl rfl
    | exact hk.2 _ rfl
    | exact hk.flds rfl
    | with_reducible apply held_else
    | with_reducible intro _
    | (simp only [↓held_mk]; with_reducible apply held_parts)
    | split
    | with_reducible refine held_of_pair (by assumption) ?_
    | dsimp only

theorem State.reserve_stays {s : State} (h : Held P m s) (hk : Avoid P [.ejt]) (span : Bool) (id : Nat) : Held P m (State.reserve s span id) := by
  unfold State.reserve
  repeat' first
    | with_reducible assumption
    | with_reducible apply State.modRec_stays
    | with_reducible apply State.forEach_stays
    | with_reducible apply State.notePeak_stays
    | with_reducible apply held_foldl
    | with_reducible apply held_foldl_fst
    | exact hk.mono rfl
    | exact hk.1 _ rfl rfl
    | exact hk.2 _ rfl
    | exact hk.flds rfl
    | with_reducible apply held_else
    | with_reducible intro _
    | (simp only [↓held_mk]; with_reducible apply held_parts)
    | split
    | with_reducible refine held_of_pair (by assumption) ?_
    | dsimp only

theorem State.reserveAll_stays {s : State} (h : Held P m s) (hk : Avoid P [.ejt])  : Held P m (State.reserveAll s) := by
  unfold State.reserveAll
  repeat' first
    | with_reducible assumption
    | with_reducible apply State.forEach_stays
    | with_reducible apply State.reserve_stays
    | with_reducible apply held_foldl
    | with_reducible apply held_foldl_fst
    | exact hk.mono rfl
    | exact hk.1 _ rfl rfl
    | exact hk.2 _ rfl
    | exact hk.flds rfl
    | with_reducible apply held_else
    | with_reducible intro _
    | (simp only [↓held_mk]; with_reducible apply held_parts)
    | split
    | with_reducible refine held_of_pair (by assumption) ?_
    | dsimp only

theorem State.logEntry_stays {s : State} (h : Held P m s) (hk : Avoid P [.trk]) (r : TrkRec) : Held P m (State.logEntry s r) := by
  unfold State.logEntry
  repeat' first
    | with_reducible assumption
    | with_reducible apply State.countWrap_stays
    | with_reducible apply State.count_stays
    | with_reducible apply State.raise_stays
    | with_reducible apply State.hostOut_stays
    | with_reducible apply held_foldl
    | with_reducible apply held_foldl_fst
    | exact hk.mono rfl
    | exact hk.1 _ rfl rfl
    | exact hk.2 _ rfl
    | exact hk.flds rfl
    | with_reducible apply held_else
    | with_reducible intro _
    | (simp only [↓held_mk]; with_reducible apply held_parts)
    | split
    | with_reducible refine held_of_pair (by assumption) ?_
    | dsimp only

theorem State.recDone_stays {s : State} (h : Held P m s) (hk : Avoid P [.trk]) (span : Bool) (id : Nat) : Held P m (State.recDone s span id) := by
  unfold State.recDone
  repeat' first
    | with_reducible assumption
    | with_reducible apply State.modRec_stays
    | with_reducible apply State.logEntry_stays
    | with_reducible apply State.modTrk_stays
    | with_reducible apply State.tableRelease_stays
    | with_reducible apply held_foldl
    | with_reducible apply held_foldl_fst
    | exact hk.mono rfl
    | exact hk.1 _ rfl rfl
    | exact hk.2 _ rfl
    | exact hk.flds rfl
    | with_reducible apply held_else
    | with_reducible intro _
    | (simp only [↓held_mk]; with_reducible apply held_parts)
    | split
    | with_reducible refine held_of_pair (by assumption) ?_
    | dsimp only

theorem State.recCheck_stays {s : State} (h : Held P m s) (hk : Avoid P [.trk]) (span : Bool) (id : Nat) : Held P m (State.recCheck s span id) := by
  unfold State.recCheck
  repeat' first
    | with_reducible assumption
    | with_reducible apply State.modRec_stays
    | with_reducible apply State.recDone_stays
    | with_reducible apply held_foldl
    | with_reducible apply held_foldl_fst
    | exact hk.mono rfl
    | exact hk.1 _ rfl rfl
    | exact hk.2 _ rfl
    | exact hk.flds rfl
    | with_reducible apply held_else
    | with_reducible intro _
    | (simp only [↓held_mk]; with_reducible apply held_parts)
    | split
    | with_reducible refine held_of_pair (by assumption) ?_
    | dsimp only

theorem State.setReasons_stays {s : State} (h : Held P m s) (hk : Avoid P [.ejt]) (span : Bool) (id : Nat) (mask : Nat) : Held P m (State.setReasons s span id mask) := by
  unfold State.setReasons
  repeat' first
    | with_reducible assumption
    | with_reducible apply State.modRec_stays
    | with_reducible apply State.reserve_stays
    | with_reducible apply held_foldl
    | with_reducible apply held_foldl_fst
    | exact hk.mono rfl
    | exact hk.1 _ rfl rfl
    | exact hk.2 _ rfl
    | exact hk.flds rfl
    | with_reducible apply held_else
    | with_reducible intro _
    | (simp only [↓held_mk]; with_reducible apply held_parts)
    | split
    | with_reducible refine held_of_pair (by assumption) ?_
    | dsimp only

theorem State.recGrown_stays {s : State} (h : Held P m s) (hk : Avoid P [.ejt]) (span : Bool) (id : Nat) : Held P m (State.recGrown s span id) := by
  unfold State.recGrown
  repeat' first
    | with_reducible assumption
    | with_reducible apply State.modRec_stays
    | with_reducible apply State.setReasons_stays
    | with_reducible apply held_foldl
    | with_reducible apply held_foldl_fst
    | exact hk.mono rfl
    | exact hk.1 _ rfl rfl
    | exact hk.2 _ rfl
    | exact hk.flds rfl
    | with_reducible apply held_else
    | with_reducible intro _
    | (simp only [↓held_mk]; with_reducible apply held_parts)
    | split
    | with_reducible refine held_of_pair (by assumption) ?_
    | dsimp only

theorem State.trkNotice_stays {s : State} (h : Held P m s) (hk : Avoid P [.trk, .ejt]) (ctx : Nat) (a : Int) (e : Int) (reasons : Nat) : Held P m (State.trkNotice s ctx a e reasons) := by
  unfold State.trkNotice
  repeat' first
    | with_reducible assumption
    | with_reducible apply State.modTrk_stays
    | with_reducible apply State.count_stays
    | with_reducible apply State.forEach_stays
    | with_reducible apply State.setReasons_stays
    | with_reducible apply held_foldl
    | with_reducible apply held_foldl_fst
    | exact hk.mono rfl
    | exact hk.1 _ rfl rfl
    | exact hk.2 _ rfl
    | exact hk.flds rfl
    | with_reducible apply held_else
    | with_reducible intro _
    | (simp only [↓held_mk]; with_reducible apply held_parts)
    | split
    | with_reducible refine held_of_pair (by assumption) ?_
    | dsimp only

theorem State.trkBackup_stays {s : State} (h : Held P m s) (hk : Avoid P [.ejt])  : Held P m (State.trkBackup s) := by
  unfold State.trkBackup
  repeat' first
    | with_reducible assumption
    | with_reducible apply State.forEach_stays
    | with_reducible apply State.setReasons_stays
    | with_reducible apply held_foldl
    | with_reducible apply held_foldl_fst
    | exact hk.mono rfl
    | exact hk.1 _ rfl rfl
    | exact hk.2 _ rfl
    | exact hk.flds rfl
    | with_reducible apply held_else
    | with_reducible intro _
    | (simp only [↓held_mk]; with_reducible apply held_parts)
    | split
    | with_reducible refine held_of_pair (by assumption) ?_
    | dsimp only

theorem State.trkAbort_stays {s : State} (h : Held P m s) (hk : Avoid P [.ejt]) (ctxs : List Nat) (reason : Nat) : Held P m (State.trkAbort s ctxs reason) := by
  unfold State.trkAbort
  repeat' first
    | with_reducible assumption
    | with_reducible apply State.forEach_stays
    | with_reducible apply State.setReasons_stays
    | with_reducible apply held_foldl
    | with_reducible apply held_foldl_fst
    | exact hk.mono rfl
    | exact hk.1 _ rfl rfl
    | exact hk.2 _ rfl
    | exact hk.flds rfl
    | with_reducible apply held_else
    | with_reducible intro _
    | (simp only [↓held_mk]; with_reducible apply held_parts)
    | split
    | with_reducible refine held_of_pair (by assumption) ?_
    | dsimp only

theorem State.recOpen_stays {s : State} (h : Held P m s) (hk : Avoid P [.atn, .trk, .ejt]) (e : PartEntry) (state : Nat) : Held P m (State.recOpen s e state) := by
  unfold State.recOpen
  repeat' first
    | with_reducible assumption
    | with_reducible apply State.count_stays
    | with_reducible apply State.modTrk_stays
    | with_reducible apply State.tableCreate_stays
    | with_reducible apply State.setReasons_stays
    | with_reducible apply held_foldl
    | with_reducible apply held_foldl_fst
    | exact hk.mono rfl
    | exact hk.1 _ rfl rfl
    | exact hk.2 _ rfl
    | exact hk.flds rfl
    | with_reducible apply held_else
    | with_reducible intro _
    | (simp only [↓held_mk]; with_reducible apply held_parts)
    | split
    | with_reducible refine held_of_pair (by assumption) ?_
    | dsimp only

theorem State.recUpdate_stays {s : State} (h : Held P m s) (hk : Avoid P [.trk, .ejt]) (e : PartEntry) (close : Bool) : Held P m (State.recUpdate s e close) := by
  unfold State.recUpdate
  repeat' first
    | with_reducible assumption
    | with_reducible apply State.count_stays
    | with_reducible apply State.modRec_stays
    | with_reducible apply State.recGrown_stays
    | with_reducible apply State.reserve_stays
    | with_reducible apply State.recCheck_stays
    | with_reducible apply held_foldl
    | with_reducible apply held_foldl_fst
    | exact hk.mono rfl
    | exact hk.1 _ rfl rfl
    | exact hk.2 _ rfl
    | exact hk.flds rfl
    | with_reducible apply held_else
    | with_reducible intro _
    | (simp only [↓held_mk]; with_reducible apply held_parts)
    | split
    | with_reducible refine held_of_pair (by assumption) ?_
    | dsimp only

theorem State.recMerge_stays {s : State} (h : Held P m s) (hk : Avoid P [.trk, .ejt]) (e : PartEntry) : Held P m (State.recMerge s e) := by
  unfold State.recMerge
  repeat' first
    | with_reducible assumption
    | with_reducible apply State.count_stays
    | with_reducible apply State.modRec_stays
    | with_reducible apply State.recGrown_stays
    | with_reducible apply State.reserve_stays
    | with_reducible apply State.recDone_stays
    | with_reducible apply State.recCheck_stays
    | with_reducible apply held_foldl
    | with_reducible apply held_foldl_fst
    | exact hk.mono rfl
    | exact hk.1 _ rfl rfl
    | exact hk.2 _ rfl
    | exact hk.flds rfl
    | with_reducible apply held_else
    | with_reducible intro _
    | (simp only [↓held_mk]; with_reducible apply held_parts)
    | split
    | with_reducible refine held_of_pair (by assumption) ?_
    | dsimp only

theorem State.spanOpen_stays {s : State} (h : Held P m s) (hk : Avoid P [.trk, .ejt]) (ctx : Nat) (first : Int) (last : Int) : Held P m (State.spanOpen s ctx first last) := by
  unfold State.spanOpen
  repeat' first
    | with_reducible assumption
    | with_reducible apply State.count_stays
    | with_reducible apply State.raise_stays
    | with_reducible apply State.modTrk_stays
    | with_reducible apply State.setReasons_stays
    | with_reducible apply held_foldl
    | with_reducible apply held_foldl_fst
    | exact hk.mono rfl
    | exact hk.1 _ rfl rfl
    | exact hk.2 _ rfl
    | exact hk.flds rfl
    | with_reducible apply held_else
    | with_reducible intro _
    | (simp only [↓held_mk]; with_reducible apply held_parts)
    | split
    | with_reducible refine held_of_pair (by assumption) ?_
    | dsimp only

theorem State.spanTake_stays {s : State} (h : Held P m s) (hk : Avoid P [.trk, .ejt]) (ctx : Nat) (first : Int) (last : Int) : Held P m (State.spanTake s ctx first last) := by
  unfold State.spanTake
  repeat' first
    | with_reducible assumption
    | with_reducible apply State.modRec_stays
    | with_reducible apply State.recGrown_stays
    | with_reducible apply State.spanOpen_stays
    | with_reducible apply held_foldl
    | with_reducible apply held_foldl_fst
    | exact hk.mono rfl
    | exact hk.1 _ rfl rfl
    | exact hk.2 _ rfl
    | exact hk.flds rfl
    | with_reducible apply held_else
    | with_reducible intro _
    | (simp only [↓held_mk]; with_reducible apply held_parts)
    | split
    | with_reducible refine held_of_pair (by assumption) ?_
    | dsimp only

theorem State.trkVerdict_stays {s : State} (h : Held P m s) (hk : Avoid P [.trk, .ejt]) (v : VerdictMsg) (peer : Bool) : Held P m (State.trkVerdict s v peer) := by
  unfold State.trkVerdict
  repeat' first
    | with_reducible assumption
    | with_reducible apply State.count_stays
    | with_reducible apply State.raise_stays
    | with_reducible apply State.modRec_stays
    | with_reducible apply State.reserve_stays
    | with_reducible apply held_foldl
    | with_reducible apply held_foldl_fst
    | exact hk.mono rfl
    | exact hk.1 _ rfl rfl
    | exact hk.2 _ rfl
    | exact hk.flds rfl
    | with_reducible apply held_else
    | with_reducible intro _
    | (simp only [↓held_mk]; with_reducible apply held_parts)
    | split
    | with_reducible refine held_of_pair (by assumption) ?_
    | dsimp only

theorem State.foUpdate_stays {s : State} (h : Held P m s) (hk : Avoid P [.fio])  : Held P m (State.foUpdate s) := by
  unfold State.foUpdate
  repeat' first
    | with_reducible assumption
    | with_reducible apply State.set_stays
    | with_reducible apply State.forEach_stays
    | with_reducible apply held_foldl
    | with_reducible apply held_foldl_fst
    | exact hk.mono rfl
    | exact hk.1 _ rfl rfl
    | exact hk.2 _ rfl
    | exact hk.flds rfl
    | with_reducible apply held_else
    | with_reducible intro _
    | (simp only [↓held_mk]; with_reducible apply held_parts)
    | split
    | with_reducible refine held_of_pair (by assumption) ?_
    | dsimp only

theorem State.showValve_stays {s : State} (h : Held P m s) (hk : Avoid P [.ejt, .fio]) (path : Nat) (num : Nat) (on : Bool) : Held P m (State.showValve s path num on) := by
  unfold State.showValve
  repeat' first
    | with_reducible assumption
    | with_reducible apply State.set_stays
    | with_reducible apply State.foUpdate_stays
    | with_reducible apply held_foldl
    | with_reducible apply held_foldl_fst
    | exact hk.mono rfl
    | exact hk.1 _ rfl rfl
    | exact hk.2 _ rfl
    | exact hk.flds rfl
    | with_reducible apply held_else
    | with_reducible intro _
    | (simp only [↓held_mk]; with_reducible apply held_parts)
    | split
    | with_reducible refine held_of_pair (by assumption) ?_
    | dsimp only

theorem State.putValve_stays {s : State} (h : Held P m s) (hk : Avoid P []) (v : Valve) : Held P m (State.putValve s v) := by
  unfold State.putValve
  repeat' first
    | with_reducible assumption
    | with_reducible apply State.modTrk_stays
    | with_reducible apply held_foldl
    | with_reducible apply held_foldl_fst
    | exact hk.mono rfl
    | exact hk.1 _ rfl rfl
    | exact hk.2 _ rfl
    | exact hk.flds rfl
    | with_reducible apply held_else
    | with_reducible intro _
    | (simp only [↓held_mk]; with_reducible apply held_parts)
    | split
    | with_reducible refine held_of_pair (by assumption) ?_
    | dsimp only

theorem State.valveNow_stays {s : State} (h : Held P m s) (hk : Avoid P [.ejt, .fio]) (path : Nat) (num : Nat) (on : Bool) : Held P m (State.valveNow s path num on) := by
  unfold State.valveNow
  repeat' first
    | with_reducible assumption
    | with_reducible apply State.putValve_stays
    | with_reducible apply State.showValve_stays
    | with_reducible apply held_foldl
    | with_reducible apply held_foldl_fst
    | exact hk.mono rfl
    | exact hk.1 _ rfl rfl
    | exact hk.2 _ rfl
    | exact hk.flds rfl
    | with_reducible apply held_else
    | with_reducible intro _
    | (simp only [↓held_mk]; with_reducible apply held_parts)
    | split
    | with_reducible refine held_of_pair (by assumption) ?_
    | dsimp only

theorem State.markFirings_stays {s : State} (h : Held P m s) (hk : Avoid P []) (path : Nat) (num : Nat) (fl : Nat) : Held P m (State.markFirings s path num fl) := by
  unfold State.markFirings
  repeat' first
    | with_reducible assumption
    | with_reducible apply State.forEach_stays
    | with_reducible apply State.modRec_stays
    | with_reducible apply held_foldl
    | with_reducible apply held_foldl_fst
    | exact hk.mono rfl
    | exact hk.1 _ rfl rfl
    | exact hk.2 _ rfl
    | exact hk.flds rfl
    | with_reducible apply held_else
    | with_reducible intro _
    | (simp only [↓held_mk]; with_reducible apply held_parts)
    | split
    | with_reducible refine held_of_pair (by assumption) ?_
    | dsimp only

theorem State.valveOn_stays {s : State} (h : Held P m s) (hk : Avoid P [.ejt, .fio, .pmc]) (path : Nat) (num : Nat) : Held P m (State.valveOn s path num) := by
  unfold State.valveOn
  repeat' first
    | with_reducible assumption
    | with_reducible apply State.valveNow_stays
    | with_reducible apply State.putValve_stays
    | with_reducible apply State.count_stays
    | with_reducible apply State.pmc_stays
    | with_reducible apply State.markFirings_stays
    | with_reducible apply held_foldl
    | with_reducible apply held_foldl_fst
    | exact hk.mono rfl
    | exact hk.1 _ rfl rfl
    | exact hk.2 _ rfl
    | exact hk.flds rfl
    | with_reducible apply held_else
    | with_reducible intro _
    | (simp only [↓held_mk]; with_reducible apply held_parts)
    | split
    | with_reducible refine held_of_pair (by assumption) ?_
    | dsimp only

theorem State.valveOff_stays {s : State} (h : Held P m s) (hk : Avoid P [.ejt, .fio, .pmc]) (path : Nat) (num : Nat) : Held P m (State.valveOff s path num) := by
  unfold State.valveOff
  repeat' first
    | with_reducible assumption
    | with_reducible apply State.putValve_stays
    | with_reducible apply State.count_stays
    | with_reducible apply State.pmc_stays
    | with_reducible apply State.markFirings_stays
    | with_reducible apply State.valveNow_stays
    | with_reducible apply held_foldl
    | with_reducible apply held_foldl_fst
    | exact hk.mono rfl
    | exact hk.1 _ rfl rfl
    | exact hk.2 _ rfl
    | exact hk.flds rfl
    | with_reducible apply held_else
    | with_reducible intro _
    | (simp only [↓held_mk]; with_reducible apply held_parts)
    | split
    | with_reducible refine held_of_pair (by assumption) ?_
    | dsimp only

theorem State.modFiring_stays {s : State} (h : Held P m s) (hk : Avoid P []) (span : Bool) (id : Nat) (bank : Nat) (g : Firing → Firing) : Held P m (State.modFiring s span id bank g) := by
  unfold State.modFiring
  repeat' first
    | with_reducible assumption
    | with_reducible apply State.modTrk_stays
    | with_reducible apply held_foldl
    | with_reducible apply held_foldl_fst
    | exact hk.mono rfl
    | exact hk.1 _ rfl rfl
    | exact hk.2 _ rfl
    | exact hk.flds rfl
    | with_reducible apply held_else
    | with_reducible intro _
    | (simp only [↓held_mk]; with_reducible apply held_parts)
    | split
    | with_reducible refine held_of_pair (by assumption) ?_
    | dsimp only

theorem State.dropFiring_stays {s : State} (h : Held P m s) (hk : Avoid P [.trk]) (span : Bool) (id : Nat) (bank : Nat) : Held P m (State.dropFiring s span id bank) := by
  unfold State.dropFiring
  repeat' first
    | with_reducible assumption
    | with_reducible apply State.modTrk_stays
    | with_reducible apply State.recCheck_stays
    | with_reducible apply held_foldl
    | with_reducible apply held_foldl_fst
    | exact hk.mono rfl
    | exact hk.1 _ rfl rfl
    | exact hk.2 _ rfl
    | exact hk.flds rfl
    | with_reducible apply held_else
    | with_reducible intro _
    | (simp only [↓held_mk]; with_reducible apply held_parts)
    | split
    | with_reducible refine held_of_pair (by assumption) ?_
    | dsimp only

theorem State.endFirings_stays {s : State} (h : Held P m s) (hk : Avoid P [.trk])  : Held P m (State.endFirings s) := by
  unfold State.endFirings
  repeat' first
    | with_reducible assumption
    | with_reducible apply State.forEach_stays
    | with_reducible apply State.modRec_stays
    | with_reducible apply State.dropFiring_stays
    | with_reducible apply held_foldl
    | with_reducible apply held_foldl_fst
    | exact hk.mono rfl
    | exact hk.1 _ rfl rfl
    | exact hk.2 _ rfl
    | exact hk.flds rfl
    | with_reducible apply held_else
    | with_reducible intro _
    | (simp only [↓held_mk]; with_reducible apply held_parts)
    | split
    | with_reducible refine held_of_pair (by assumption) ?_
    | dsimp only

theorem State.firingOn_stays {s : State} (h : Held P m s) (hk : Avoid P [.ejt, .fio, .pmc]) (f : Firing) : Held P m (State.firingOn s f) := by
  unfold State.firingOn
  repeat' first
    | with_reducible assumption
    | with_reducible apply State.modFiring_stays
    | with_reducible apply State.modRec_stays
    | with_reducible apply State.forEach_stays
    | with_reducible apply State.valveOn_stays
    | with_reducible apply held_foldl
    | with_reducible apply held_foldl_fst
    | exact hk.mono rfl
    | exact hk.1 _ rfl rfl
    | exact hk.2 _ rfl
    | exact hk.flds rfl
    | with_reducible apply held_else
    | with_reducible intro _
    | (simp only [↓held_mk]; with_reducible apply held_parts)
    | split
    | with_reducible refine held_of_pair (by assumption) ?_
    | dsimp only

theorem State.firingOff_stays {s : State} (h : Held P m s) (hk : Avoid P [.trk, .ejt, .fio, .pmc]) (f : Firing) : Held P m (State.firingOff s f) := by
  unfold State.firingOff
  repeat' first
    | with_reducible assumption
    | with_reducible apply State.modFiring_stays
    | with_reducible apply State.forEach_stays
    | with_reducible apply State.valveOff_stays
    | with_reducible apply State.endFirings_stays
    | with_reducible apply held_foldl
    | with_reducible apply held_foldl_fst
    | exact hk.mono rfl
    | exact hk.1 _ rfl rfl
    | exact hk.2 _ rfl
    | exact hk.flds rfl
    | with_reducible apply held_else
    | with_reducible intro _
    | (simp only [↓held_mk]; with_reducible apply held_parts)
    | split
    | with_reducible refine held_of_pair (by assumption) ?_
    | dsimp only

theorem State.valveDue_stays {s : State} (h : Held P m s) (hk : Avoid P [.trk, .ejt, .fio, .pmc]) (v : Valve) : Held P m (State.valveDue s v) := by
  unfold State.valveDue
  repeat' first
    | with_reducible assumption
    | with_reducible apply State.valveNow_stays
    | with_reducible apply State.valveOff_stays
    | with_reducible apply State.endFirings_stays
    | with_reducible apply held_foldl
    | with_reducible apply held_foldl_fst
    | exact hk.mono rfl
    | exact hk.1 _ rfl rfl
    | exact hk.2 _ rfl
    | exact hk.flds rfl
    | with_reducible apply held_else
    | with_reducible intro _
    | (simp only [↓held_mk]; with_reducible apply held_parts)
    | split
    | with_reducible refine held_of_pair (by assumption) ?_
    | dsimp only

theorem State.valveMaxOn_stays {s : State} (h : Held P m s) (hk : Avoid P [.trk, .ejt, .fio, .pmc]) (path : Nat) (num : Nat) : Held P m (State.valveMaxOn s path num) := by
  unfold State.valveMaxOn
  repeat' first
    | with_reducible assumption
    | with_reducible apply State.count_stays
    | with_reducible apply State.raise_stays
    | with_reducible apply State.markFirings_stays
    | with_reducible apply State.valveNow_stays
    | with_reducible apply State.forEach_stays
    | with_reducible apply State.modFiring_stays
    | with_reducible apply State.valveOff_stays
    | with_reducible apply State.endFirings_stays
    | with_reducible apply held_foldl
    | with_reducible apply held_foldl_fst
    | exact hk.mono rfl
    | exact hk.1 _ rfl rfl
    | exact hk.2 _ rfl
    | exact hk.flds rfl
    | with_reducible apply held_else
    | with_reducible intro _
    | (simp only [↓held_mk]; with_reducible apply held_parts)
    | split
    | with_reducible refine held_of_pair (by assumption) ?_
    | dsimp only

theorem State.markSafeHeld_stays {s : State} (h : Held P m s) (hk : Avoid P [])  : Held P m (State.markSafeHeld s) := by
  unfold State.markSafeHeld
  repeat' first
    | with_reducible assumption
    | with_reducible apply State.forEach_stays
    | with_reducible apply State.modRec_stays
    | with_reducible apply held_foldl
    | with_reducible apply held_foldl_fst
    | exact hk.mono rfl
    | exact hk.1 _ rfl rfl
    | exact hk.2 _ rfl
    | exact hk.flds rfl
    | with_reducible apply held_else
    | with_reducible intro _
    | (simp only [↓held_mk]; with_reducible apply held_parts)
    | split
    | with_reducible refine held_of_pair (by assumption) ?_
    | dsimp only

theorem State.queueFiring_stays {s : State} (h : Held P m s) (hk : Avoid P [.ejt, .pmc]) (r : TrkRec) (b : Nat) : Held P m (State.queueFiring s r b) := by
  unfold State.queueFiring
  repeat' first
    | with_reducible assumption
    | with_reducible apply State.modRec_stays
    | with_reducible apply State.count_stays
    | with_reducible apply State.raise_stays
    | with_reducible apply State.modTrk_stays
    | with_reducible apply State.pmc_stays
    | with_reducible apply State.notePeak_stays
    | with_reducible apply held_foldl
    | with_reducible apply held_foldl_fst
    | exact hk.mono rfl
    | exact hk.1 _ rfl rfl
    | exact hk.2 _ rfl
    | exact hk.flds rfl
    | with_reducible apply held_else
    | with_reducible intro _
    | (simp only [↓held_mk]; with_reducible apply held_parts)
    | split
    | with_reducible refine held_of_pair (by assumption) ?_
    | dsimp only

theorem State.recCommit_stays {s : State} (h : Held P m s) (hk : Avoid P [.capCtx, .trk, .ejt, .pmc]) (r : TrkRec) : Held P m (State.recCommit s r) := by
  unfold State.recCommit
  repeat' first
    | with_reducible assumption
    | with_reducible apply State.modRec_stays
    | with_reducible apply State.count_stays
    | with_reducible apply State.pmc_stays
    | with_reducible apply State.raise_stays
    | with_reducible apply State.forEach_stays
    | with_reducible apply State.queueFiring_stays
    | with_reducible apply State.recCheck_stays
    | with_reducible apply held_foldl
    | with_reducible apply held_foldl_fst
    | exact hk.mono rfl
    | exact hk.1 _ rfl rfl
    | exact hk.2 _ rfl
    | exact hk.flds rfl
    | with_reducible apply held_else
    | with_reducible intro _
    | (simp only [↓held_mk]; with_reducible apply held_parts)
    | split
    | with_reducible refine held_of_pair (by assumption) ?_
    | dsimp only

theorem State.portLost_stays {s : State} (h : Held P m s) (hk : Avoid P [.trk, .ejt]) (port : Nat) : Held P m (State.portLost s port) := by
  unfold State.portLost
  repeat' first
    | with_reducible assumption
    | with_reducible apply State.set_stays
    | with_reducible apply State.forEach_stays
    | with_reducible apply State.modRec_stays
    | with_reducible apply State.modTrk_stays
    | with_reducible apply State.recCheck_stays
    | with_reducible apply State.reserveAll_stays
    | with_reducible apply held_foldl
    | with_reducible apply held_foldl_fst
    | exact hk.mono rfl
    | exact hk.1 _ rfl rfl
    | exact hk.2 _ rfl
    | exact hk.flds rfl
    | with_reducible apply held_else
    | with_reducible intro _
    | (simp only [↓held_mk]; with_reducible apply held_parts)
    | split
    | with_reducible refine held_of_pair (by assumption) ?_
    | dsimp only

theorem State.beltAbandon_stays {s : State} (h : Held P m s) (hk : Avoid P [.trk, .ejt, .fio])  : Held P m (State.beltAbandon s) := by
  unfold State.beltAbandon
  repeat' first
    | with_reducible assumption
    | with_reducible apply State.modTrk_stays
    | with_reducible apply State.forEach_stays
    | with_reducible apply State.set_stays
    | with_reducible apply State.foUpdate_stays
    | with_reducible apply State.modRec_stays
    | with_reducible apply State.recDone_stays
    | with_reducible apply State.raise_stays
    | with_reducible apply held_foldl
    | with_reducible apply held_foldl_fst
    | exact hk.mono rfl
    | exact hk.1 _ rfl rfl
    | exact hk.2 _ rfl
    | exact hk.flds rfl
    | with_reducible apply held_else
    | with_reducible intro _
    | (simp only [↓held_mk]; with_reducible apply held_parts)
    | split
    | with_reducible refine held_of_pair (by assumption) ?_
    | dsimp only

theorem State.setBucket_stays {s : State} (h : Held P m s) (hk : Avoid P []) (t : Nat) (i : Nat) (b : Nat) : Held P m (State.setBucket s t i b) := by
  unfold State.setBucket
  repeat' first
    | with_reducible assumption
    | with_reducible apply held_foldl
    | with_reducible apply held_foldl_fst
    | exact hk.mono rfl
    | exact hk.1 _ rfl rfl
    | exact hk.2 _ rfl
    | exact hk.flds rfl
    | with_reducible apply held_else
    | with_reducible intro _
    | (simp only [↓held_mk]; with_reducible apply held_parts)
    | split
    | with_reducible refine held_of_pair (by assumption) ?_
    | dsimp only

theorem State.addUpset_stays {s : State} (h : Held P m s) (hk : Avoid P []) (t : Nat) (i : Nat) : Held P m (State.addUpset s t i).1 := by
  unfold State.addUpset
  repeat' first
    | with_reducible assumption
    | with_reducible apply State.setBucket_stays
    | with_reducible apply held_foldl
    | with_reducible apply held_foldl_fst
    | exact hk.mono rfl
    | exact hk.1 _ rfl rfl
    | exact hk.2 _ rfl
    | exact hk.flds rfl
    | with_reducible apply held_else
    | with_reducible intro _
    | (simp only [↓held_mk]; with_reducible apply held_parts)
    | split
    | with_reducible refine held_of_pair (by assumption) ?_
    | dsimp only

theorem State.leak_stays {s : State} (h : Held P m s) (hk : Avoid P []) (t : Nat) : Held P m (State.leak s t) := by
  unfold State.leak
  repeat' first
    | with_reducible assumption
    | with_reducible apply held_foldl
    | with_reducible apply held_foldl_fst
    | exact hk.mono rfl
    | exact hk.1 _ rfl rfl
    | exact hk.2 _ rfl
    | exact hk.flds rfl
    | with_reducible apply held_else
    | with_reducible intro _
    | (simp only [↓held_mk]; with_reducible apply held_parts)
    | split
    | with_reducible refine held_of_pair (by assumption) ?_
    | dsimp only

theorem State.channelRetired_stays {s : State} (h : Held P m s) (hk : Avoid P [.mgt]) (t : Nat) (i : Nat) : Held P m (State.channelRetired s t i) := by
  unfold State.channelRetired
  repeat' first
    | with_reducible assumption
    | with_reducible apply State.raise_stays
    | with_reducible apply held_foldl
    | with_reducible apply held_foldl_fst
    | exact hk.mono rfl
    | exact hk.1 _ rfl rfl
    | exact hk.2 _ rfl
    | exact hk.flds rfl
    | with_reducible apply held_else
    | with_reducible intro _
    | (simp only [↓held_mk]; with_reducible apply held_parts)
    | split
    | with_reducible refine held_of_pair (by assumption) ?_
    | dsimp only

theorem State.pcRetire_stays {s : State} (h : Held P m s) (hk : Avoid P [.mgt, .memPc, .mem]) (k : Nat) : Held P m (State.pcRetire s k) := by
  unfold State.pcRetire
  repeat' first
    | with_reducible assumption
    | with_reducible apply State.set_stays
    | with_reducible apply State.raise_stays
    | with_reducible apply State.channelRetired_stays
    | with_reducible apply held_foldl
    | with_reducible apply held_foldl_fst
    | exact hk.mono rfl
    | exact hk.1 _ rfl rfl
    | exact hk.2 _ rfl
    | exact hk.flds rfl
    | with_reducible apply held_else
    | with_reducible intro _
    | (simp only [↓held_mk]; with_reducible apply held_parts)
    | split
    | with_reducible refine held_of_pair (by assumption) ?_
    | dsimp only

theorem State.pcUpset_stays {s : State} (h : Held P m s) (hk : Avoid P [.mgt, .memPc, .mem]) (k : Nat) : Held P m (State.pcUpset s k) := by
  unfold State.pcUpset
  repeat' first
    | with_reducible assumption
    | with_reducible apply State.addUpset_stays
    | with_reducible apply State.pcRetire_stays
    | with_reducible apply held_foldl
    | with_reducible apply held_foldl_fst
    | exact hk.mono rfl
    | exact hk.1 _ rfl rfl
    | exact hk.2 _ rfl
    | exact hk.flds rfl
    | with_reducible apply held_else
    | with_reducible intro _
    | (simp only [↓held_mk]; with_reducible apply held_parts)
    | split
    | with_reducible refine held_of_pair (by assumption) ?_
    | dsimp only

theorem State.ueFound_stays {s : State} (h : Held P m s) (hk : Avoid P [.mgt, .memPc, .mem]) (key : Nat) (scrub : Bool) : Held P m (State.ueFound s key scrub) := by
  unfold State.ueFound
  repeat' first
    | with_reducible assumption
    | with_reducible apply State.set_stays
    | with_reducible apply State.count_stays
    | with_reducible apply State.raise_stays
    | with_reducible apply State.pcUpset_stays
    | with_reducible apply held_foldl
    | with_reducible apply held_foldl_fst
    | exact hk.mono rfl
    | exact hk.1 _ rfl rfl
    | exact hk.2 _ rfl
    | exact hk.flds rfl
    | with_reducible apply held_else
    | with_reducible intro _
    | (simp only [↓held_mk]; with_reducible apply held_parts)
    | split
    | with_reducible refine held_of_pair (by assumption) ?_
    | dsimp only

theorem State.ceFound_stays {s : State} (h : Held P m s) (hk : Avoid P [.mgt, .memPc, .mem]) (key : Nat) : Held P m (State.ceFound s key) := by
  unfold State.ceFound
  repeat' first
    | with_reducible assumption
    | with_reducible apply State.count_stays
    | with_reducible apply State.set_stays
    | with_reducible apply State.raise_stays
    | with_reducible apply State.pcUpset_stays
    | with_reducible apply held_foldl
    | with_reducible apply held_foldl_fst
    | exact hk.mono rfl
    | exact hk.1 _ rfl rfl
    | exact hk.2 _ rfl
    | exact hk.flds rfl
    | with_reducible apply held_else
    | with_reducible intro _
    | (simp only [↓held_mk]; with_reducible apply held_parts)
    | split
    | with_reducible refine held_of_pair (by assumption) ?_
    | dsimp only

theorem State.writeBack_stays {s : State} (h : Held P m s) (hk : Avoid P [.memPc]) (k : Nat) : Held P m (State.writeBack s k) := by
  unfold State.writeBack
  repeat' first
    | with_reducible assumption
    | with_reducible apply State.count_stays
    | with_reducible apply held_foldl
    | with_reducible apply held_foldl_fst
    | exact hk.mono rfl
    | exact hk.1 _ rfl rfl
    | exact hk.2 _ rfl
    | exact hk.flds rfl
    | with_reducible apply held_else
    | with_reducible intro _
    | (simp only [↓held_mk]; with_reducible apply held_parts)
    | split
    | with_reducible refine held_of_pair (by assumption) ?_
    | dsimp only

theorem State.consumeBad_stays {s : State} (h : Held P m s) (hk : Avoid P [.mgt, .memPc, .mem]) (a : Nat) (n : Nat) : Held P m (State.consumeBad s a n) := by
  unfold State.consumeBad
  repeat' first
    | with_reducible assumption
    | with_reducible apply State.forEach_stays
    | with_reducible apply State.ueFound_stays
    | with_reducible apply held_foldl
    | with_reducible apply held_foldl_fst
    | exact hk.mono rfl
    | exact hk.1 _ rfl rfl
    | exact hk.2 _ rfl
    | exact hk.flds rfl
    | with_reducible apply held_else
    | with_reducible intro _
    | (simp only [↓held_mk]; with_reducible apply held_parts)
    | split
    | with_reducible refine held_of_pair (by assumption) ?_
    | dsimp only

theorem State.modCtx_stays {s : State} (h : Held P m s) (hk : Avoid P []) (c : Nat) (f : CapCtxSt → CapCtxSt) : Held P m (State.modCtx s c f) := by
  unfold State.modCtx
  repeat' first
    | with_reducible assumption
    | with_reducible apply held_foldl
    | with_reducible apply held_foldl_fst
    | exact hk.mono rfl
    | exact hk.1 _ rfl rfl
    | exact hk.2 _ rfl
    | exact hk.flds rfl
    | with_reducible apply held_else
    | with_reducible intro _
    | (simp only [↓held_mk]; with_reducible apply held_parts)
    | split
    | with_reducible refine held_of_pair (by assumption) ?_
    | dsimp only

theorem State.modCam_stays {s : State} (h : Held P m s) (hk : Avoid P []) (n : Nat) (f : CamSt → CamSt) : Held P m (State.modCam s n f) := by
  unfold State.modCam
  repeat' first
    | with_reducible assumption
    | with_reducible apply held_foldl
    | with_reducible apply held_foldl_fst
    | exact hk.mono rfl
    | exact hk.1 _ rfl rfl
    | exact hk.2 _ rfl
    | exact hk.flds rfl
    | with_reducible apply held_else
    | with_reducible intro _
    | (simp only [↓held_mk]; with_reducible apply held_parts)
    | split
    | with_reducible refine held_of_pair (by assumption) ?_
    | dsimp only

theorem State.stripeOut_stays {s : State} (h : Held P m s) (hk : Avoid P [.capCtx, .trk, .ejt, .pmc]) (r : StripeRec) : Held P m (State.stripeOut s r) := by
  unfold State.stripeOut
  repeat' first
    | with_reducible assumption
    | with_reducible apply State.count_stays
    | with_reducible apply State.pmc_stays
    | with_reducible apply State.raise_stays
    | with_reducible apply State.trkNotice_stays
    | with_reducible apply State.modCtx_stays
    | with_reducible apply held_foldl
    | with_reducible apply held_foldl_fst
    | exact hk.mono rfl
    | exact hk.1 _ rfl rfl
    | exact hk.2 _ rfl
    | exact hk.flds rfl
    | with_reducible apply held_else
    | with_reducible intro _
    | (simp only [↓held_mk]; with_reducible apply held_parts)
    | split
    | with_reducible refine held_of_pair (by assumption) ?_
    | dsimp only

theorem State.stripeLost_stays {s : State} (h : Held P m s) (hk : Avoid P [.capCtx, .trk, .ejt]) (r : StripeRec) : Held P m (State.stripeLost s r) := by
  unfold State.stripeLost
  repeat' first
    | with_reducible assumption
    | with_reducible apply State.count_stays
    | with_reducible apply State.trkNotice_stays
    | with_reducible apply held_foldl
    | with_reducible apply held_foldl_fst
    | exact hk.mono rfl
    | exact hk.1 _ rfl rfl
    | exact hk.2 _ rfl
    | exact hk.flds rfl
    | with_reducible apply held_else
    | with_reducible intro _
    | (simp only [↓held_mk]; with_reducible apply held_parts)
    | split
    | with_reducible refine held_of_pair (by assumption) ?_
    | dsimp only

theorem State.stripeSpilled_stays {s : State} (h : Held P m s) (hk : Avoid P [.trk, .ejt]) (c : Nat) (no : Nat) (a : Int) (e : Int) : Held P m (State.stripeSpilled s c no a e) := by
  unfold State.stripeSpilled
  repeat' first
    | with_reducible assumption
    | with_reducible apply State.modCtx_stays
    | with_reducible apply State.devWrite_stays
    | with_reducible apply State.trkNotice_stays
    | with_reducible apply held_foldl
    | with_reducible apply held_foldl_fst
    | exact hk.mono rfl
    | exact hk.1 _ rfl rfl
    | exact hk.2 _ rfl
    | exact hk.flds rfl
    | with_reducible apply held_else
    | with_reducible intro _
    | (simp only [↓held_mk]; with_reducible apply held_parts)
    | split
    | with_reducible refine held_of_pair (by assumption) ?_
    | dsimp only

theorem State.ringCaught_stays {s : State} (h : Held P m s) (hk : Avoid P []) (c : Nat) (no : Nat) : Held P m (State.ringCaught s c no) := by
  unfold State.ringCaught
  repeat' first
    | with_reducible assumption
    | with_reducible apply State.modCtx_stays
    | with_reducible apply held_foldl
    | with_reducible apply held_foldl_fst
    | exact hk.mono rfl
    | exact hk.1 _ rfl rfl
    | exact hk.2 _ rfl
    | exact hk.flds rfl
    | with_reducible apply held_else
    | with_reducible intro _
    | (simp only [↓held_mk]; with_reducible apply held_parts)
    | split
    | with_reducible refine held_of_pair (by assumption) ?_
    | dsimp only

theorem State.ringWrite_stays {s : State} (h : Held P m s) (hk : Avoid P [.memPc, .pmc]) (r : StripeRec) : Held P m (State.ringWrite s r) := by
  unfold State.ringWrite
  repeat' first
    | with_reducible assumption
    | with_reducible apply State.forEach_stays
    | with_reducible apply State.devWriteFor_stays
    | with_reducible apply State.modCtx_stays
    | with_reducible apply held_foldl
    | with_reducible apply held_foldl_fst
    | exact hk.mono rfl
    | exact hk.1 _ rfl rfl
    | exact hk.2 _ rfl
    | exact hk.flds rfl
    | with_reducible apply held_else
    | with_reducible intro _
    | (simp only [↓held_mk]; with_reducible apply held_parts)
    | split
    | with_reducible refine held_of_pair (by assumption) ?_
    | dsimp only

theorem State.stripeClose_stays {s : State} (h : Held P m s) (hk : Avoid P [.capCtx, .trk, .ejt, .pmc]) (c : Nat) (o : OpenStripe) : Held P m (State.stripeClose s c o) := by
  unfold State.stripeClose
  repeat' first
    | with_reducible assumption
    | with_reducible apply State.modCtx_stays
    | with_reducible apply State.countWrap_stays
    | with_reducible apply State.stripeOut_stays
    | with_reducible apply held_foldl
    | with_reducible apply held_foldl_fst
    | exact hk.mono rfl
    | exact hk.1 _ rfl rfl
    | exact hk.2 _ rfl
    | exact hk.flds rfl
    | with_reducible apply held_else
    | with_reducible intro _
    | (simp only [↓held_mk]; with_reducible apply held_parts)
    | split
    | with_reducible refine held_of_pair (by assumption) ?_
    | dsimp only

theorem State.partCheck_stays {s : State} (h : Held P m s) (hk : Avoid P [.capCtx, .trk, .ejt, .pmc]) (c : Nat) (m_ : Nat) (win : Int) : Held P m (State.partCheck s c m_ win) := by
  unfold State.partCheck
  repeat' first
    | with_reducible assumption
    | with_reducible apply State.modCtx_stays
    | with_reducible apply State.raise_stays
    | with_reducible apply State.stripeClose_stays
    | with_reducible apply held_foldl
    | with_reducible apply held_foldl_fst
    | exact hk.mono rfl
    | exact hk.1 _ rfl rfl
    | exact hk.2 _ rfl
    | exact hk.flds rfl
    | with_reducible apply held_else
    | with_reducible intro _
    | (simp only [↓held_mk]; with_reducible apply held_parts)
    | split
    | with_reducible refine held_of_pair (by assumption) ?_
    | dsimp only

theorem State.slotTriggered_stays {s : State} (h : Held P m s) (hk : Avoid P []) (p : Place) (tag : Tag) : Held P m (State.slotTriggered s p tag) := by
  unfold State.slotTriggered
  repeat' first
    | with_reducible assumption
    | with_reducible apply State.modCtx_stays
    | with_reducible apply held_foldl
    | with_reducible apply held_foldl_fst
    | exact hk.mono rfl
    | exact hk.1 _ rfl rfl
    | exact hk.2 _ rfl
    | exact hk.flds rfl
    | with_reducible apply held_else
    | with_reducible intro _
    | (simp only [↓held_mk]; with_reducible apply held_parts)
    | split
    | with_reducible refine held_of_pair (by assumption) ?_
    | dsimp only

theorem State.slotEmpty_stays {s : State} (h : Held P m s) (hk : Avoid P [.capCtx, .trk, .ejt, .pmc]) (p : Place) : Held P m (State.slotEmpty s p) := by
  unfold State.slotEmpty
  repeat' first
    | with_reducible assumption
    | with_reducible apply State.modCtx_stays
    | with_reducible apply State.partCheck_stays
    | with_reducible apply held_foldl
    | with_reducible apply held_foldl_fst
    | exact hk.mono rfl
    | exact hk.1 _ rfl rfl
    | exact hk.2 _ rfl
    | exact hk.flds rfl
    | with_reducible apply held_else
    | with_reducible intro _
    | (simp only [↓held_mk]; with_reducible apply held_parts)
    | split
    | with_reducible refine held_of_pair (by assumption) ?_
    | dsimp only

theorem State.groupTimeout_stays {s : State} (h : Held P m s) (hk : Avoid P [.capCtx, .trk, .ejt, .pmc]) (c : Nat) (o : OpenStripe) : Held P m (State.groupTimeout s c o) := by
  unfold State.groupTimeout
  repeat' first
    | with_reducible assumption
    | with_reducible apply State.forEach_stays
    | with_reducible apply State.modCtx_stays
    | with_reducible apply State.count_stays
    | with_reducible apply State.pmc_stays
    | with_reducible apply State.raise_stays
    | with_reducible apply State.stripeClose_stays
    | with_reducible apply held_foldl
    | with_reducible apply held_foldl_fst
    | exact hk.mono rfl
    | exact hk.1 _ rfl rfl
    | exact hk.2 _ rfl
    | exact hk.flds rfl
    | with_reducible apply held_else
    | with_reducible intro _
    | (simp only [↓held_mk]; with_reducible apply held_parts)
    | split
    | with_reducible refine held_of_pair (by assumption) ?_
    | dsimp only

theorem State.capTrigger_stays {s : State} (h : Held P m s) (hk : Avoid P [.lan, .capCtx, .cap, .trk, .ejt, .pmc]) (n : Nat) (k : Int) : Held P m (State.capTrigger s n k) := by
  unfold State.capTrigger
  repeat' first
    | with_reducible assumption
    | with_reducible apply State.sendTrigger_stays
    | with_reducible apply State.countWrap_stays
    | with_reducible apply State.forEach_stays
    | with_reducible apply State.slotTriggered_stays
    | with_reducible apply State.modCam_stays
    | with_reducible apply State.slotEmpty_stays
    | with_reducible apply held_foldl
    | with_reducible apply held_foldl_fst
    | exact hk.mono rfl
    | exact hk.1 _ rfl rfl
    | exact hk.2 _ rfl
    | exact hk.flds rfl
    | with_reducible apply held_else
    | with_reducible intro _
    | (simp only [↓held_mk]; with_reducible apply held_parts)
    | split
    | with_reducible refine held_of_pair (by assumption) ?_
    | dsimp only

theorem State.capSkip_stays {s : State} (h : Held P m s) (hk : Avoid P [.capCtx, .cap, .trk, .ejt, .pmc]) (n : Nat) (k : Int) (cnt : Int) : Held P m (State.capSkip s n k cnt) := by
  unfold State.capSkip
  repeat' first
    | with_reducible assumption
    | with_reducible apply State.countWrap_stays
    | with_reducible apply State.raise_stays
    | with_reducible apply State.forEach_stays
    | with_reducible apply State.slotEmpty_stays
    | with_reducible apply held_foldl
    | with_reducible apply held_foldl_fst
    | exact hk.mono rfl
    | exact hk.1 _ rfl rfl
    | exact hk.2 _ rfl
    | exact hk.flds rfl
    | with_reducible apply held_else
    | with_reducible intro _
    | (simp only [↓held_mk]; with_reducible apply held_parts)
    | split
    | with_reducible refine held_of_pair (by assumption) ?_
    | dsimp only

theorem State.capPosition_stays {s : State} (h : Held P m s) (hk : Avoid P [.lan, .capCtx, .cap, .trk, .ejt, .pmc])  : Held P m (State.capPosition s) := by
  unfold State.capPosition
  repeat' first
    | with_reducible assumption
    | with_reducible apply State.forEach_stays
    | with_reducible apply State.capSkip_stays
    | with_reducible apply State.modCam_stays
    | with_reducible apply State.capTrigger_stays
    | with_reducible apply held_foldl
    | with_reducible apply held_foldl_fst
    | exact hk.mono rfl
    | exact hk.1 _ rfl rfl
    | exact hk.2 _ rfl
    | exact hk.flds rfl
    | with_reducible apply held_else
    | with_reducible intro _
    | (simp only [↓held_mk]; with_reducible apply held_parts)
    | split
    | with_reducible refine held_of_pair (by assumption) ?_
    | dsimp only

theorem State.capTimeTrigger_stays {s : State} (h : Held P m s) (hk : Avoid P [.lan, .capCtx, .cap, .trk, .ejt, .pmc]) (unit : Nat) : Held P m (State.capTimeTrigger s unit) := by
  unfold State.capTimeTrigger
  repeat' first
    | with_reducible assumption
    | with_reducible apply State.forEach_stays
    | with_reducible apply State.modCtx_stays
    | with_reducible apply State.modCam_stays
    | with_reducible apply State.capTrigger_stays
    | with_reducible apply held_foldl
    | with_reducible apply held_foldl_fst
    | exact hk.mono rfl
    | exact hk.1 _ rfl rfl
    | exact hk.2 _ rfl
    | exact hk.flds rfl
    | with_reducible apply held_else
    | with_reducible intro _
    | (simp only [↓held_mk]; with_reducible apply held_parts)
    | split
    | with_reducible refine held_of_pair (by assumption) ?_
    | dsimp only

theorem State.settleCtx_stays {s : State} (h : Held P m s) (hk : Avoid P []) (c : Nat) (m_ : Nat) : Held P m (State.settleCtx s c m_) := by
  unfold State.settleCtx
  repeat' first
    | with_reducible assumption
    | with_reducible apply State.modCtx_stays
    | with_reducible apply held_foldl
    | with_reducible apply held_foldl_fst
    | exact hk.mono rfl
    | exact hk.1 _ rfl rfl
    | exact hk.2 _ rfl
    | exact hk.flds rfl
    | with_reducible apply held_else
    | with_reducible intro _
    | (simp only [↓held_mk]; with_reducible apply held_parts)
    | split
    | with_reducible refine held_of_pair (by assumption) ?_
    | dsimp only

theorem State.settleArm_stays {s : State} (h : Held P m s) (hk : Avoid P [.cap]) (n : Nat) : Held P m (State.settleArm s n) := by
  unfold State.settleArm
  repeat' first
    | with_reducible assumption
    | with_reducible apply State.forEach_stays
    | with_reducible apply State.settleCtx_stays
    | with_reducible apply State.raise_stays
    | with_reducible apply held_foldl
    | with_reducible apply held_foldl_fst
    | exact hk.mono rfl
    | exact hk.1 _ rfl rfl
    | exact hk.2 _ rfl
    | exact hk.flds rfl
    | with_reducible apply held_else
    | with_reducible intro _
    | (simp only [↓held_mk]; with_reducible apply held_parts)
    | split
    | with_reducible refine held_of_pair (by assumption) ?_
    | dsimp only

theorem State.settleFirst_stays {s : State} (h : Held P m s) (hk : Avoid P []) (p : Place) : Held P m (State.settleFirst s p) := by
  unfold State.settleFirst
  repeat' first
    | with_reducible assumption
    | with_reducible apply State.modCtx_stays
    | with_reducible apply held_foldl
    | with_reducible apply held_foldl_fst
    | exact hk.mono rfl
    | exact hk.1 _ rfl rfl
    | exact hk.2 _ rfl
    | exact hk.flds rfl
    | with_reducible apply held_else
    | with_reducible intro _
    | (simp only [↓held_mk]; with_reducible apply held_parts)
    | split
    | with_reducible refine held_of_pair (by assumption) ?_
    | dsimp only

theorem State.expireDue_stays {s : State} (h : Held P m s) (hk : Avoid P [.capCtx, .trk, .ejt, .pmc]) (n : Nat) : Held P m (State.expireDue s n) := by
  unfold State.expireDue
  repeat' first
    | with_reducible assumption
    | with_reducible apply State.modCam_stays
    | with_reducible apply State.forEach_stays
    | with_reducible apply State.slotEmpty_stays
    | with_reducible apply held_foldl
    | with_reducible apply held_foldl_fst
    | exact hk.mono rfl
    | exact hk.1 _ rfl rfl
    | exact hk.2 _ rfl
    | exact hk.flds rfl
    | with_reducible apply held_else
    | with_reducible intro _
    | (simp only [↓held_mk]; with_reducible apply held_parts)
    | split
    | with_reducible refine held_of_pair (by assumption) ?_
    | dsimp only

theorem State.lineTakes_stays {s : State} (h : Held P m s) (hk : Avoid P []) (ps : List Place) : Held P m (State.lineTakes s ps) := by
  unfold State.lineTakes
  repeat' first
    | with_reducible assumption
    | with_reducible apply State.forEach_stays
    | with_reducible apply State.modCtx_stays
    | with_reducible apply State.settleFirst_stays
    | with_reducible apply held_foldl
    | with_reducible apply held_foldl_fst
    | exact hk.mono rfl
    | exact hk.1 _ rfl rfl
    | exact hk.2 _ rfl
    | exact hk.flds rfl
    | with_reducible apply held_else
    | with_reducible intro _
    | (simp only [↓held_mk]; with_reducible apply held_parts)
    | split
    | with_reducible refine held_of_pair (by assumption) ?_
    | dsimp only

theorem State.freeLine_stays {s : State} (h : Held P m s) (hk : Avoid P [.capCtx, .trk, .ejt, .pmc]) (c : Nat) (m_ : Nat) (frameStart : Bool) (tag : Tag) : Held P m (State.freeLine s c m_ frameStart tag).1 := by
  unfold State.freeLine
  repeat' first
    | with_reducible assumption
    | with_reducible apply State.slotEmpty_stays
    | with_reducible apply State.modCtx_stays
    | with_reducible apply State.slotTriggered_stays
    | with_reducible apply held_foldl
    | with_reducible apply held_foldl_fst
    | exact hk.mono rfl
    | exact hk.1 _ rfl rfl
    | exact hk.2 _ rfl
    | exact hk.flds rfl
    | with_reducible apply held_else
    | with_reducible intro _
    | (simp only [↓held_mk]; with_reducible apply held_parts)
    | split
    | with_reducible refine held_of_pair (by assumption) ?_
    | dsimp only

theorem State.lineBegins_stays {s : State} (h : Held P m s) (hk : Avoid P [.capCtx, .trk, .ejt, .pmc]) (n : Nat) (frameStart : Bool) : Held P m (State.lineBegins s n frameStart) := by
  unfold State.lineBegins
  repeat' first
    | with_reducible assumption
    | with_reducible apply State.modCam_stays
    | with_reducible apply State.freeLine_stays
    | with_reducible apply State.lineTakes_stays
    | with_reducible apply State.expireDue_stays
    | with_reducible apply held_foldl
    | with_reducible apply held_foldl_fst
    | exact hk.mono rfl
    | exact hk.1 _ rfl rfl
    | exact hk.2 _ rfl
    | exact hk.flds rfl
    | with_reducible apply held_else
    | with_reducible intro _
    | (simp only [↓held_mk]; with_reducible apply held_parts)
    | split
    | with_reducible refine held_of_pair (by assumption) ?_
    | dsimp only

theorem State.lineDiscard_stays {s : State} (h : Held P m s) (hk : Avoid P [.capCtx, .trk, .ejt, .pmc]) (n : Nat) : Held P m (State.lineDiscard s n) := by
  unfold State.lineDiscard
  repeat' first
    | with_reducible assumption
    | with_reducible apply State.modCam_stays
    | with_reducible apply State.forEach_stays
    | with_reducible apply State.modCtx_stays
    | with_reducible apply State.slotEmpty_stays
    | with_reducible apply held_foldl
    | with_reducible apply held_foldl_fst
    | exact hk.mono rfl
    | exact hk.1 _ rfl rfl
    | exact hk.2 _ rfl
    | exact hk.flds rfl
    | with_reducible apply held_else
    | with_reducible intro _
    | (simp only [↓held_mk]; with_reducible apply held_parts)
    | split
    | with_reducible refine held_of_pair (by assumption) ?_
    | dsimp only

theorem State.lineArrives_stays {s : State} (h : Held P m s) (hk : Avoid P [.capCtx, .tim, .trk, .ejt, .pmc]) (n : Nat) (frameStart : Bool) (startOk : Bool) : Held P m (State.lineArrives s n frameStart startOk) := by
  unfold State.lineArrives
  repeat' first
    | with_reducible assumption
    | with_reducible apply State.timCapture_stays
    | with_reducible apply State.lineBegins_stays
    | with_reducible apply State.lineDiscard_stays
    | with_reducible apply held_foldl
    | with_reducible apply held_foldl_fst
    | exact hk.mono rfl
    | exact hk.1 _ rfl rfl
    | exact hk.2 _ rfl
    | exact hk.flds rfl
    | with_reducible apply held_else
    | with_reducible intro _
    | (simp only [↓held_mk]; with_reducible apply held_parts)
    | split
    | with_reducible refine held_of_pair (by assumption) ?_
    | dsimp only

theorem State.lineExtra_stays {s : State} (h : Held P m s) (hk : Avoid P [.capCtx]) (c : Nat) (m_ : Nat) : Held P m (State.lineExtra s c m_) := by
  unfold State.lineExtra
  repeat' first
    | with_reducible assumption
    | with_reducible apply State.count_stays
    | with_reducible apply State.raise_stays
    | with_reducible apply State.modCtx_stays
    | with_reducible apply held_foldl
    | with_reducible apply held_foldl_fst
    | exact hk.mono rfl
    | exact hk.1 _ rfl rfl
    | exact hk.2 _ rfl
    | exact hk.flds rfl
    | with_reducible apply held_else
    | with_reducible intro _
    | (simp only [↓held_mk]; with_reducible apply held_parts)
    | split
    | with_reducible refine held_of_pair (by assumption) ?_
    | dsimp only

theorem State.lineFill_stays {s : State} (h : Held P m s) (hk : Avoid P [.capCtx, .trk, .ejt, .pmc]) (n : Nat) (p : Place) (tag : Tag) (l : List Nat) : Held P m (State.lineFill s n p tag l) := by
  unfold State.lineFill
  repeat' first
    | with_reducible assumption
    | with_reducible apply State.count_stays
    | with_reducible apply State.modCtx_stays
    | with_reducible apply State.partCheck_stays
    | with_reducible apply held_foldl
    | with_reducible apply held_foldl_fst
    | exact hk.mono rfl
    | exact hk.1 _ rfl rfl
    | exact hk.2 _ rfl
    | exact hk.flds rfl
    | with_reducible apply held_else
    | with_reducible intro _
    | (simp only [↓held_mk]; with_reducible apply held_parts)
    | split
    | with_reducible refine held_of_pair (by assumption) ?_
    | dsimp only

theorem State.lineDone_stays {s : State} (h : Held P m s) (hk : Avoid P [.capCtx, .cap, .trk, .ejt, .pmc]) (n : Nat) (samples : List Nat) : Held P m (State.lineDone s n samples) := by
  unfold State.lineDone
  repeat' first
    | with_reducible assumption
    | with_reducible apply State.count_stays
    | with_reducible apply State.lineDiscard_stays
    | with_reducible apply State.modCam_stays
    | with_reducible apply State.forEach_stays
    | with_reducible apply State.lineExtra_stays
    | with_reducible apply State.lineFill_stays
    | with_reducible apply held_foldl
    | with_reducible apply held_foldl_fst
    | exact hk.mono rfl
    | exact hk.1 _ rfl rfl
    | exact hk.2 _ rfl
    | exact hk.flds rfl
    | with_reducible apply held_else
    | with_reducible intro _
    | (simp only [↓held_mk]; with_reducible apply held_parts)
    | split
    | with_reducible refine held_of_pair (by assumption) ?_
    | dsimp only

theorem State.capStop_stays {s : State} (h : Held P m s) (hk : Avoid P [.capCtx, .trk, .ejt, .pmc]) (c : Nat) : Held P m (State.capStop s c) := by
  unfold State.capStop
  repeat' first
    | with_reducible assumption
    | with_reducible apply State.forEach_stays
    | with_reducible apply State.modCtx_stays
    | with_reducible apply State.raise_stays
    | with_reducible apply State.stripeClose_stays
    | with_reducible apply State.modCam_stays
    | with_reducible apply held_foldl
    | with_reducible apply held_foldl_fst
    | exact hk.mono rfl
    | exact hk.1 _ rfl rfl
    | exact hk.2 _ rfl
    | exact hk.flds rfl
    | with_reducible apply held_else
    | with_reducible intro _
    | (simp only [↓held_mk]; with_reducible apply held_parts)
    | split
    | with_reducible refine held_of_pair (by assumption) ?_
    | dsimp only

theorem State.peerStripe_stays {s : State} (h : Held P m s) (hk : Avoid P [.capCtx, .trk, .ejt, .pmc]) (g : Nat) (m_ : PeerMsg) : Held P m (State.peerStripe s g m_) := by
  unfold State.peerStripe
  repeat' first
    | with_reducible assumption
    | with_reducible apply State.forEach_stays
    | with_reducible apply State.countWrap_stays
    | with_reducible apply State.stripeOut_stays
    | with_reducible apply held_foldl
    | with_reducible apply held_foldl_fst
    | exact hk.mono rfl
    | exact hk.1 _ rfl rfl
    | exact hk.2 _ rfl
    | exact hk.flds rfl
    | with_reducible apply held_else
    | with_reducible intro _
    | (simp only [↓held_mk]; with_reducible apply held_parts)
    | split
    | with_reducible refine held_of_pair (by assumption) ?_
    | dsimp only

theorem State.replayPush_stays {s : State} (h : Held P m s) (hk : Avoid P [.capCtx]) (fn : Nat) (c : Nat) : Held P m (State.replayPush s fn c) := by
  unfold State.replayPush
  repeat' first
    | with_reducible assumption
    | with_reducible apply State.code_stays
    | with_reducible apply State.modCtx_stays
    | with_reducible apply held_foldl
    | with_reducible apply held_foldl_fst
    | exact hk.mono rfl
    | exact hk.1 _ rfl rfl
    | exact hk.2 _ rfl
    | exact hk.flds rfl
    | with_reducible apply held_else
    | with_reducible intro _
    | (simp only [↓held_mk]; with_reducible apply held_parts)
    | split
    | with_reducible refine held_of_pair (by assumption) ?_
    | dsimp only

theorem State.replayRead_stays {s : State} (h : Held P m s) (hk : Avoid P [.mgt, .capCtx, .memPc, .mem, .pmc]) (c : Nat) : Held P m (State.replayRead s c) := by
  unfold State.replayRead
  repeat' first
    | with_reducible assumption
    | with_reducible apply State.modCtx_stays
    | with_reducible apply State.consumeBad_stays
    | with_reducible apply State.raise_stays
    | with_reducible apply State.countWrap_stays
    | with_reducible apply State.count_stays
    | with_reducible apply State.countRd_stays
    | with_reducible apply held_foldl
    | with_reducible apply held_foldl_fst
    | exact hk.mono rfl
    | exact hk.1 _ rfl rfl
    | exact hk.2 _ rfl
    | exact hk.flds rfl
    | with_reducible apply held_else
    | with_reducible intro _
    | (simp only [↓held_mk]; with_reducible apply held_parts)
    | split
    | with_reducible refine held_of_pair (by assumption) ?_
    | dsimp only

theorem State.sramWrite_stays {s : State} (h : Held P m s) (hk : Avoid P []) (phys : Nat) (a : Nat) (bs : List Nat) : Held P m (State.sramWrite s phys a bs) := by
  unfold State.sramWrite
  repeat' first
    | with_reducible assumption
    | with_reducible apply held_foldl
    | with_reducible apply held_foldl_fst
    | exact hk.mono rfl
    | exact hk.1 _ rfl rfl
    | exact hk.2 _ rfl
    | exact hk.flds rfl
    | with_reducible apply held_else
    | with_reducible intro _
    | (simp only [↓held_mk]; with_reducible apply held_parts)
    | split
    | with_reducible refine held_of_pair (by assumption) ?_
    | dsimp only

theorem State.lbWrite_stays {s : State} (h : Held P m s) (hk : Avoid P []) (p : Nat) (x : Nat) (bs : List Nat) : Held P m (State.lbWrite s p x bs) := by
  unfold State.lbWrite
  repeat' first
    | with_reducible assumption
    | with_reducible apply State.forEach_stays
    | with_reducible apply State.sramWrite_stays
    | with_reducible apply held_foldl
    | with_reducible apply held_foldl_fst
    | exact hk.mono rfl
    | exact hk.1 _ rfl rfl
    | exact hk.2 _ rfl
    | exact hk.flds rfl
    | with_reducible apply held_else
    | with_reducible intro _
    | (simp only [↓held_mk]; with_reducible apply held_parts)
    | split
    | with_reducible refine held_of_pair (by assumption) ?_
    | dsimp only

theorem State.modLnp_stays {s : State} (h : Held P m s) (hk : Avoid P []) (c : Nat) (f : LnpCtxSt → LnpCtxSt) : Held P m (State.modLnp s c f) := by
  unfold State.modLnp
  repeat' first
    | with_reducible assumption
    | with_reducible apply held_foldl
    | with_reducible apply held_foldl_fst
    | exact hk.mono rfl
    | exact hk.1 _ rfl rfl
    | exact hk.2 _ rfl
    | exact hk.flds rfl
    | with_reducible apply held_else
    | with_reducible intro _
    | (simp only [↓held_mk]; with_reducible apply held_parts)
    | split
    | with_reducible refine held_of_pair (by assumption) ?_
    | dsimp only

theorem State.dropGens_stays {s : State} (h : Held P m s) (hk : Avoid P [.lnpCtx]) (c : Nat) : Held P m (State.dropGens s c) := by
  unfold State.dropGens
  repeat' first
    | with_reducible assumption
    | with_reducible apply State.modLnp_stays
    | with_reducible apply State.set_stays
    | with_reducible apply held_foldl
    | with_reducible apply held_foldl_fst
    | exact hk.mono rfl
    | exact hk.1 _ rfl rfl
    | exact hk.2 _ rfl
    | exact hk.flds rfl
    | with_reducible apply held_else
    | with_reducible intro _
    | (simp only [↓held_mk]; with_reducible apply held_parts)
    | split
    | with_reducible refine held_of_pair (by assumption) ?_
    | dsimp only

theorem State.keepGen_stays {s : State} (h : Held P m s) (hk : Avoid P []) (c : Nat) : Held P m (State.keepGen s c) := by
  unfold State.keepGen
  repeat' first
    | with_reducible assumption
    | with_reducible apply State.modLnp_stays
    | with_reducible apply held_foldl
    | with_reducible apply held_foldl_fst
    | exact hk.mono rfl
    | exact hk.1 _ rfl rfl
    | exact hk.2 _ rfl
    | exact hk.flds rfl
    | with_reducible apply held_else
    | with_reducible intro _
    | (simp only [↓held_mk]; with_reducible apply held_parts)
    | split
    | with_reducible refine held_of_pair (by assumption) ?_
    | dsimp only

theorem State.assignCredits_stays {s : State} (h : Held P m s) (hk : Avoid P [.lnpCtx]) (c : Nat) : Held P m (State.assignCredits s c) := by
  unfold State.assignCredits
  repeat' first
    | with_reducible assumption
    | with_reducible apply State.modLnp_stays
    | with_reducible apply State.set_stays
    | with_reducible apply held_foldl
    | with_reducible apply held_foldl_fst
    | exact hk.mono rfl
    | exact hk.1 _ rfl rfl
    | exact hk.2 _ rfl
    | exact hk.flds rfl
    | with_reducible apply held_else
    | with_reducible intro _
    | (simp only [↓held_mk]; with_reducible apply held_parts)
    | split
    | with_reducible refine held_of_pair (by assumption) ?_
    | dsimp only

theorem State.spill_stays {s : State} (h : Held P m s) (hk : Avoid P [.lnpCtx, .trk, .ejt, .pmc]) (c : Nat) (no : Nat) : Held P m (State.spill s c no) := by
  unfold State.spill
  repeat' first
    | with_reducible assumption
    | with_reducible apply State.modLnp_stays
    | with_reducible apply State.set_stays
    | with_reducible apply State.raise_stays
    | with_reducible apply State.count_stays
    | with_reducible apply State.pmc_stays
    | with_reducible apply State.stripeSpilled_stays
    | with_reducible apply held_foldl
    | with_reducible apply held_foldl_fst
    | exact hk.mono rfl
    | exact hk.1 _ rfl rfl
    | exact hk.2 _ rfl
    | exact hk.flds rfl
    | with_reducible apply held_else
    | with_reducible intro _
    | (simp only [↓held_mk]; with_reducible apply held_parts)
    | split
    | with_reducible refine held_of_pair (by assumption) ?_
    | dsimp only

theorem State.spillDue_stays {s : State} (h : Held P m s) (hk : Avoid P [.lnp, .lnpCtx, .trk, .ejt, .pmc]) (c : Nat) : Held P m (State.spillDue s c) := by
  unfold State.spillDue
  repeat' first
    | with_reducible assumption
    | with_reducible apply State.forEach_stays
    | with_reducible apply State.spill_stays
    | with_reducible apply held_foldl
    | with_reducible apply held_foldl_fst
    | exact hk.mono rfl
    | exact hk.1 _ rfl rfl
    | exact hk.2 _ rfl
    | exact hk.flds rfl
    | with_reducible apply held_else
    | with_reducible intro _
    | (simp only [↓held_mk]; with_reducible apply held_parts)
    | split
    | with_reducible refine held_of_pair (by assumption) ?_
    | dsimp only

theorem State.spillAll_stays {s : State} (h : Held P m s) (hk : Avoid P [.lnpCtx, .trk, .ejt, .pmc]) (c : Nat) : Held P m (State.spillAll s c) := by
  unfold State.spillAll
  repeat' first
    | with_reducible assumption
    | with_reducible apply State.forEach_stays
    | with_reducible apply State.spill_stays
    | with_reducible apply held_foldl
    | with_reducible apply held_foldl_fst
    | exact hk.mono rfl
    | exact hk.1 _ rfl rfl
    | exact hk.2 _ rfl
    | exact hk.flds rfl
    | with_reducible apply held_else
    | with_reducible intro _
    | (simp only [↓held_mk]; with_reducible apply held_parts)
    | split
    | with_reducible refine held_of_pair (by assumption) ?_
    | dsimp only

theorem State.spillEarly_stays {s : State} (h : Held P m s) (hk : Avoid P [.lnp, .lnpCtx, .trk, .ejt, .pmc]) (c : Nat) : Held P m (State.spillEarly s c) := by
  unfold State.spillEarly
  repeat' first
    | with_reducible assumption
    | with_reducible apply State.spillDue_stays
    | with_reducible apply held_foldl
    | with_reducible apply held_foldl_fst
    | exact hk.mono rfl
    | exact hk.1 _ rfl rfl
    | exact hk.2 _ rfl
    | exact hk.flds rfl
    | with_reducible apply held_else
    | with_reducible intro _
    | (simp only [↓held_mk]; with_reducible apply held_parts)
    | split
    | with_reducible refine held_of_pair (by assumption) ?_
    | dsimp only

theorem State.notice_stays {s : State} (h : Held P m s) (hk : Avoid P [.lnp, .lnpCtx, .trk, .ejt, .pmc]) (c : Nat) : Held P m (State.notice s c) := by
  unfold State.notice
  repeat' first
    | with_reducible assumption
    | with_reducible apply State.modLnp_stays
    | with_reducible apply State.raise_stays
    | with_reducible apply State.count_stays
    | with_reducible apply State.spill_stays
    | with_reducible apply State.spillEarly_stays
    | with_reducible apply State.assignCredits_stays
    | with_reducible apply State.spillAll_stays
    | with_reducible apply State.spillDue_stays
    | with_reducible apply held_foldl
    | with_reducible apply held_foldl_fst
    | exact hk.mono rfl
    | exact hk.1 _ rfl rfl
    | exact hk.2 _ rfl
    | exact hk.flds rfl
    | with_reducible apply held_else
    | with_reducible intro _
    | (simp only [↓held_mk]; with_reducible apply held_parts)
    | split
    | with_reducible refine held_of_pair (by assumption) ?_
    | dsimp only

theorem State.creditArrives_stays {s : State} (h : Held P m s) (hk : Avoid P [.lnp, .lnpCtx, .trk, .ejt, .pmc]) (c : Nat) : Held P m (State.creditArrives s c) := by
  unfold State.creditArrives
  repeat' first
    | with_reducible assumption
    | with_reducible apply State.modLnp_stays
    | with_reducible apply State.set_stays
    | with_reducible apply State.spillDue_stays
    | with_reducible apply State.assignCredits_stays
    | with_reducible apply held_foldl
    | with_reducible apply held_foldl_fst
    | exact hk.mono rfl
    | exact hk.1 _ rfl rfl
    | exact hk.2 _ rfl
    | exact hk.flds rfl
    | with_reducible apply held_else
    | with_reducible intro _
    | (simp only [↓held_mk]; with_reducible apply held_parts)
    | split
    | with_reducible refine held_of_pair (by assumption) ?_
    | dsimp only

theorem State.episodeCheck_stays {s : State} (h : Held P m s) (hk : Avoid P [.lnpCtx]) (c : Nat) : Held P m (State.episodeCheck s c) := by
  unfold State.episodeCheck
  repeat' first
    | with_reducible assumption
    | with_reducible apply State.modLnp_stays
    | with_reducible apply State.set_stays
    | with_reducible apply State.raise_stays
    | with_reducible apply held_foldl
    | with_reducible apply held_foldl_fst
    | exact hk.mono rfl
    | exact hk.1 _ rfl rfl
    | exact hk.2 _ rfl
    | exact hk.flds rfl
    | with_reducible apply held_else
    | with_reducible intro _
    | (simp only [↓held_mk]; with_reducible apply held_parts)
    | split
    | with_reducible refine held_of_pair (by assumption) ?_
    | dsimp only

theorem State.loseStripe_stays {s : State} (h : Held P m s) (hk : Avoid P [.capCtx, .lnpCtx, .trk, .ejt]) (c : Nat) (x : LnpStripe) (detail : Nat) : Held P m (State.loseStripe s c x detail) := by
  unfold State.loseStripe
  repeat' first
    | with_reducible assumption
    | with_reducible apply State.modLnp_stays
    | with_reducible apply State.set_stays
    | with_reducible apply State.raise_stays
    | with_reducible apply State.count_stays
    | with_reducible apply State.stripeLost_stays
    | with_reducible apply State.ringCaught_stays
    | with_reducible apply State.dropGens_stays
    | with_reducible apply State.episodeCheck_stays
    | with_reducible apply State.assignCredits_stays
    | with_reducible apply held_foldl
    | with_reducible apply held_foldl_fst
    | exact hk.mono rfl
    | exact hk.1 _ rfl rfl
    | exact hk.2 _ rfl
    | exact hk.flds rfl
    | with_reducible apply held_else
    | with_reducible intro _
    | (simp only [↓held_mk]; with_reducible apply held_parts)
    | split
    | with_reducible refine held_of_pair (by assumption) ?_
    | dsimp only

theorem State.lnpBegin_stays {s : State} (h : Held P m s) (hk : Avoid P [.mgt, .capCtx, .lnp, .lnpCtx, .memPc, .mem, .trk, .ejt, .pmc])  : Held P m (State.lnpBegin s) := by
  unfold State.lnpBegin
  repeat' first
    | with_reducible assumption
    | with_reducible apply State.modLnp_stays
    | with_reducible apply State.loseStripe_stays
    | with_reducible apply State.set_stays
    | with_reducible apply State.consumeBad_stays
    | with_reducible apply State.count_stays
    | with_reducible apply State.pmc_stays
    | with_reducible apply State.raise_stays
    | with_reducible apply held_foldl
    | with_reducible apply held_foldl_fst
    | exact hk.mono rfl
    | exact hk.1 _ rfl rfl
    | exact hk.2 _ rfl
    | exact hk.flds rfl
    | with_reducible apply held_else
    | with_reducible intro _
    | (simp only [↓held_mk]; with_reducible apply held_parts)
    | split
    | with_reducible refine held_of_pair (by assumption) ?_
    | dsimp only

theorem State.tableArrives_stays {s : State} (h : Held P m s) (hk : Avoid P []) (c : Nat) : Held P m (State.tableArrives s c) := by
  unfold State.tableArrives
  repeat' first
    | with_reducible assumption
    | with_reducible apply State.modLnp_stays
    | with_reducible apply held_foldl
    | with_reducible apply held_foldl_fst
    | exact hk.mono rfl
    | exact hk.1 _ rfl rfl
    | exact hk.2 _ rfl
    | exact hk.flds rfl
    | with_reducible apply held_else
    | with_reducible intro _
    | (simp only [↓held_mk]; with_reducible apply held_parts)
    | split
    | with_reducible refine held_of_pair (by assumption) ?_
    | dsimp only

theorem State.readyCheck_stays {s : State} (h : Held P m s) (hk : Avoid P []) (c : Nat) : Held P m (State.readyCheck s c) := by
  unfold State.readyCheck
  repeat' first
    | with_reducible assumption
    | with_reducible apply State.modLnp_stays
    | with_reducible apply State.forEach_stays
    | with_reducible apply held_foldl
    | with_reducible apply held_foldl_fst
    | exact hk.mono rfl
    | exact hk.1 _ rfl rfl
    | exact hk.2 _ rfl
    | exact hk.flds rfl
    | with_reducible apply held_else
    | with_reducible intro _
    | (simp only [↓held_mk]; with_reducible apply held_parts)
    | split
    | with_reducible refine held_of_pair (by assumption) ?_
    | dsimp only

theorem State.ringReady_stays {s : State} (h : Held P m s) (hk : Avoid P []) (c : Nat) (no : Nat) : Held P m (State.ringReady s c no) := by
  unfold State.ringReady
  repeat' first
    | with_reducible assumption
    | with_reducible apply State.modLnp_stays
    | with_reducible apply State.readyCheck_stays
    | with_reducible apply held_foldl
    | with_reducible apply held_foldl_fst
    | exact hk.mono rfl
    | exact hk.1 _ rfl rfl
    | exact hk.2 _ rfl
    | exact hk.flds rfl
    | with_reducible apply held_else
    | with_reducible intro _
    | (simp only [↓held_mk]; with_reducible apply held_parts)
    | split
    | with_reducible refine held_of_pair (by assumption) ?_
    | dsimp only

theorem State.lnpDone_stays {s : State} (h : Held P m s) (hk : Avoid P [.lnpCtx, .memPc, .pmc])  : Held P m (State.lnpDone s) := by
  unfold State.lnpDone
  repeat' first
    | with_reducible assumption
    | with_reducible apply State.forEach_stays
    | with_reducible apply State.lbWrite_stays
    | with_reducible apply State.set_stays
    | with_reducible apply State.devWriteFor_stays
    | with_reducible apply State.count_stays
    | with_reducible apply State.raise_stays
    | with_reducible apply State.ringCaught_stays
    | with_reducible apply State.modLnp_stays
    | with_reducible apply State.dropGens_stays
    | with_reducible apply State.episodeCheck_stays
    | with_reducible apply State.readyCheck_stays
    | with_reducible apply held_foldl
    | with_reducible apply held_foldl_fst
    | exact hk.mono rfl
    | exact hk.1 _ rfl rfl
    | exact hk.2 _ rfl
    | exact hk.flds rfl
    | with_reducible apply held_else
    | with_reducible intro _
    | (simp only [↓held_mk]; with_reducible apply held_parts)
    | split
    | with_reducible refine held_of_pair (by assumption) ?_
    | dsimp only

end Sys2Proof.Machine
end

