-- ==== Sys2Proof/Laws/Held3.lean ====
section
/-!
SUPPORT. Laws/Held3.lean: the operations of the machine leave the registers that lie on pages they do not reach.
-/
namespace Sys2Proof.Machine

set_option linter.unusedSimpArgs false
set_option linter.unusedVariables false

variable {P : Fld → Bool} {m : Fld → Nat → Nat → Nat}

theorem State.jobWrite_stays {s : State} (h : Held P m s) (hk : Avoid P []) (e : Env) (a : Nat) (bs : List Nat) : Held P m (State.jobWrite s e a bs) := by
  unfold State.jobWrite
  repeat' first
    | with_reducible assumption
    | with_reducible apply State.devWrite_stays
    | with_reducible apply held_foldl
    | with_reducible apply held_foldl_fst
    | exact hk.mono rfl
    | exact hk.1 _ rfl rfl
    | exact hk.2 _ rfl
    | exact hk.flds rfl
    | with_reducible apply held_else
    | with_reducible intro _
    | (simp only [↓held_mk]; with_reducible apply held_parts)
    | split
    | with_reducible refine held_of_pair (by assumption) ?_
    | dsimp only

theorem State.jobLine_stays {s : State} (h : Held P m s) (hk : Avoid P [.memPc, .memPart, .pmc]) (p : Nat) (write : Bool) (l : Nat × Nat) : Held P m (State.jobLine s p write l) := by
  unfold State.jobLine
  repeat' first
    | with_reducible assumption
    | with_reducible apply State.countWr_stays
    | with_reducible apply State.countRd_stays
    | with_reducible apply State.bwRequest_stays
    | with_reducible apply held_foldl
    | with_reducible apply held_foldl_fst
    | exact hk.mono rfl
    | exact hk.1 _ rfl rfl
    | exact hk.2 _ rfl
    | exact hk.flds rfl
    | with_reducible apply held_else
    | with_reducible intro _
    | (simp only [↓held_mk]; with_reducible apply held_parts)
    | split
    | with_reducible refine held_of_pair (by assumption) ?_
    | dsimp only

theorem State.writeLine_stays {s : State} (h : Held P m s) (hk : Avoid P [.clu, .memPc, .memPart, .pmc]) (e : Env) (l : Nat × Nat) : Held P m (State.writeLine s e l) := by
  unfold State.writeLine
  repeat' first
    | with_reducible assumption
    | with_reducible apply State.jobLine_stays
    | with_reducible apply State.pmcClu_stays
    | with_reducible apply held_foldl
    | with_reducible apply held_foldl_fst
    | exact hk.mono rfl
    | exact hk.1 _ rfl rfl
    | exact hk.2 _ rfl
    | exact hk.flds rfl
    | with_reducible apply held_else
    | with_reducible intro _
    | (simp only [↓held_mk]; with_reducible apply held_parts)
    | split
    | with_reducible refine held_of_pair (by assumption) ?_
    | dsimp only

theorem State.jobLines_stays {s : State} (h : Held P m s) (hk : Avoid P [.clu, .memPc, .memPart, .pmc]) (e : Env) (a : Nat) (n : Nat) : Held P m (State.jobLines s e a n) := by
  unfold State.jobLines
  repeat' first
    | with_reducible assumption
    | with_reducible apply State.forEach_stays
    | with_reducible apply State.writeLine_stays
    | with_reducible apply held_foldl
    | with_reducible apply held_foldl_fst
    | exact hk.mono rfl
    | exact hk.1 _ rfl rfl
    | exact hk.2 _ rfl
    | exact hk.flds rfl
    | with_reducible apply held_else
    | with_reducible intro _
    | (simp only [↓held_mk]; with_reducible apply held_parts)
    | split
    | with_reducible refine held_of_pair (by assumption) ?_
    | dsimp only

theorem State.tensorBytes_stays {s : State} (h : Held P m s) (hk : Avoid P []) (e : Env) (t : Tensor) (pos : Nat) (off : Nat) (bs : List Nat) : Held P m (State.tensorBytes s e t pos off bs) := by
  unfold State.tensorBytes
  repeat' first
    | with_reducible assumption
    | with_reducible apply State.forEach_stays
    | with_reducible apply State.sramWrite_stays
    | with_reducible apply State.jobWrite_stays
    | with_reducible apply held_foldl
    | with_reducible apply held_foldl_fst
    | exact hk.mono rfl
    | exact hk.1 _ rfl rfl
    | exact hk.2 _ rfl
    | exact hk.flds rfl
    | with_reducible apply held_else
    | with_reducible intro _
    | (simp only [↓held_mk]; with_reducible apply held_parts)
    | split
    | with_reducible refine held_of_pair (by assumption) ?_
    | dsimp only

theorem State.zrcPart_stays {s : State} (h : Held P m s) (hk : Avoid P []) (e : Env) (t : Tensor) (off : Nat) (bs : List Nat) : Held P m (State.zrcPart s e t off bs) := by
  unfold State.zrcPart
  repeat' first
    | with_reducible assumption
    | with_reducible apply State.jobWrite_stays
    | with_reducible apply held_foldl
    | with_reducible apply held_foldl_fst
    | exact hk.mono rfl
    | exact hk.1 _ rfl rfl
    | exact hk.2 _ rfl
    | exact hk.flds rfl
    | with_reducible apply held_else
    | with_reducible intro _
    | (simp only [↓held_mk]; with_reducible apply held_parts)
    | split
    | with_reducible refine held_of_pair (by assumption) ?_
    | dsimp only

theorem State.zrcWrite_stays {s : State} (h : Held P m s) (hk : Avoid P []) (e : Env) (t : Tensor) (off : Nat) (bs : List Nat) : Held P m (State.zrcWrite s e t off bs) := by
  unfold State.zrcWrite
  repeat' first
    | with_reducible assumption
    | with_reducible apply State.forEach_stays
    | with_reducible apply State.zrcPart_stays
    | with_reducible apply held_foldl
    | with_reducible apply held_foldl_fst
    | exact hk.mono rfl
    | exact hk.1 _ rfl rfl
    | exact hk.2 _ rfl
    | exact hk.flds rfl
    | with_reducible apply held_else
    | with_reducible intro _
    | (simp only [↓held_mk]; with_reducible apply held_parts)
    | split
    | with_reducible refine held_of_pair (by assumption) ?_
    | dsimp only

theorem State.putCode_stays {s : State} (h : Held P m s) (hk : Avoid P []) (e : Env) (t : Tensor) (x : Cell) : Held P m (State.putCode s e t x) := by
  unfold State.putCode
  repeat' first
    | with_reducible assumption
    | with_reducible apply State.zrcWrite_stays
    | with_reducible apply State.tensorBytes_stays
    | with_reducible apply held_foldl
    | with_reducible apply held_foldl_fst
    | exact hk.mono rfl
    | exact hk.1 _ rfl rfl
    | exact hk.2 _ rfl
    | exact hk.flds rfl
    | with_reducible apply held_else
    | with_reducible intro _
    | (simp only [↓held_mk]; with_reducible apply held_parts)
    | split
    | with_reducible refine held_of_pair (by assumption) ?_
    | dsimp only

theorem State.putBlocks_stays {s : State} (h : Held P m s) (hk : Avoid P []) (e : Env) (t : Tensor) (l : List Cell) : Held P m (State.putBlocks s e t l) := by
  unfold State.putBlocks
  repeat' first
    | with_reducible assumption
    | with_reducible apply State.forEach_stays
    | with_reducible apply State.jobWrite_stays
    | with_reducible apply held_foldl
    | with_reducible apply held_foldl_fst
    | exact hk.mono rfl
    | exact hk.1 _ rfl rfl
    | exact hk.2 _ rfl
    | exact hk.flds rfl
    | with_reducible apply held_else
    | with_reducible intro _
    | (simp only [↓held_mk]; with_reducible apply held_parts)
    | split
    | with_reducible refine held_of_pair (by assumption) ?_
    | dsimp only

theorem State.putTile_stays {s : State} (h : Held P m s) (hk : Avoid P [.clu, .memPc, .memPart, .pmc]) (e : Env) (t : Tensor) (l : List Cell) : Held P m (State.putTile s e t l) := by
  unfold State.putTile
  repeat' first
    | with_reducible assumption
    | with_reducible apply State.putBlocks_stays
    | with_reducible apply State.forEach_stays
    | with_reducible apply State.putCode_stays
    | with_reducible apply State.writeLine_stays
    | with_reducible apply held_foldl
    | with_reducible apply held_foldl_fst
    | exact hk.mono rfl
    | exact hk.1 _ rfl rfl
    | exact hk.2 _ rfl
    | exact hk.flds rfl
    | with_reducible apply held_else
    | with_reducible intro _
    | (simp only [↓held_mk]; with_reducible apply held_parts)
    | split
    | with_reducible refine held_of_pair (by assumption) ?_
    | dsimp only

theorem State.sendVid_stays {s : State} (h : Held P m s) (hk : Avoid P []) (code : Nat) : Held P m (State.sendVid s code) := by
  unfold State.sendVid
  repeat' first
    | with_reducible assumption
    | with_reducible apply State.emit_stays
    | with_reducible apply State.code_stays
    | with_reducible apply held_foldl
    | with_reducible apply held_foldl_fst
    | exact hk.mono rfl
    | exact hk.1 _ rfl rfl
    | exact hk.2 _ rfl
    | exact hk.flds rfl
    | with_reducible apply held_else
    | with_reducible intro _
    | (simp only [↓held_mk]; with_reducible apply held_parts)
    | split
    | with_reducible refine held_of_pair (by assumption) ?_
    | dsimp only

theorem State.toPoint_stays {s : State} (h : Held P m s) (hk : Avoid P []) (k : Nat) : Held P m (State.toPoint s k) := by
  unfold State.toPoint
  repeat' first
    | with_reducible assumption
    | with_reducible apply State.raise_stays
    | with_reducible apply State.sendVid_stays
    | with_reducible apply held_foldl
    | with_reducible apply held_foldl_fst
    | exact hk.mono rfl
    | exact hk.1 _ rfl rfl
    | exact hk.2 _ rfl
    | exact hk.flds rfl
    | with_reducible apply held_else
    | with_reducible intro _
    | (simp only [↓held_mk]; with_reducible apply held_parts)
    | split
    | with_reducible refine held_of_pair (by assumption) ?_
    | dsimp only

theorem State.forgetSlot_stays {s : State} (h : Held P m s) (hk : Avoid P []) (p : Nat) (k : Nat) : Held P m (State.forgetSlot s p k) := by
  unfold State.forgetSlot
  repeat' first
    | with_reducible assumption
    | with_reducible apply held_foldl
    | with_reducible apply held_foldl_fst
    | exact hk.mono rfl
    | exact hk.1 _ rfl rfl
    | exact hk.2 _ rfl
    | exact hk.flds rfl
    | with_reducible apply held_else
    | with_reducible intro _
    | (simp only [↓held_mk]; with_reducible apply held_parts)
    | split
    | with_reducible refine held_of_pair (by assumption) ?_
    | dsimp only

theorem State.learn_stays {s : State} (h : Held P m s) (hk : Avoid P []) (ph : Phase) : Held P m (State.learn s ph) := by
  unfold State.learn
  repeat' first
    | with_reducible assumption
    | with_reducible apply held_foldl
    | with_reducible apply held_foldl_fst
    | exact hk.mono rfl
    | exact hk.1 _ rfl rfl
    | exact hk.2 _ rfl
    | exact hk.flds rfl
    | with_reducible apply held_else
    | with_reducible intro _
    | (simp only [↓held_mk]; with_reducible apply held_parts)
    | split
    | with_reducible refine held_of_pair (by assumption) ?_
    | dsimp only

theorem State.clockChoice_stays {s : State} (h : Held P m s) (hk : Avoid P []) (phase : Nat → Option Phase) : Held P m (State.clockChoice s phase) := by
  unfold State.clockChoice
  repeat' first
    | with_reducible assumption
    | with_reducible apply State.toPoint_stays
    | with_reducible apply held_foldl
    | with_reducible apply held_foldl_fst
    | exact hk.mono rfl
    | exact hk.1 _ rfl rfl
    | exact hk.2 _ rfl
    | exact hk.flds rfl
    | with_reducible apply held_else
    | with_reducible intro _
    | (simp only [↓held_mk]; with_reducible apply held_parts)
    | split
    | with_reducible refine held_of_pair (by assumption) ?_
    | dsimp only

theorem State.voltageWait_stays {s : State} (h : Held P m s) (hk : Avoid P []) (reached : Bool) : Held P m (State.voltageWait s reached) := by
  unfold State.voltageWait
  repeat' first
    | with_reducible assumption
    | with_reducible apply State.raise_stays
    | with_reducible apply State.sendVid_stays
    | with_reducible apply held_foldl
    | with_reducible apply held_foldl_fst
    | exact hk.mono rfl
    | exact hk.1 _ rfl rfl
    | exact hk.2 _ rfl
    | exact hk.flds rfl
    | with_reducible apply held_else
    | with_reducible intro _
    | (simp only [↓held_mk]; with_reducible apply held_parts)
    | split
    | with_reducible refine held_of_pair (by assumption) ?_
    | dsimp only

theorem State.modSlot_stays {s : State} (h : Held P m s) (hk : Avoid P []) (p : Nat) (k : Nat) (f : PlanSt → PlanSt) : Held P m (State.modSlot s p k f) := by
  unfold State.modSlot
  repeat' first
    | with_reducible assumption
    | with_reducible apply held_foldl
    | with_reducible apply held_foldl_fst
    | exact hk.mono rfl
    | exact hk.1 _ rfl rfl
    | exact hk.2 _ rfl
    | exact hk.flds rfl
    | with_reducible apply held_else
    | with_reducible intro _
    | (simp only [↓held_mk]; with_reducible apply held_parts)
    | split
    | with_reducible refine held_of_pair (by assumption) ?_
    | dsimp only

theorem State.modJob_stays {s : State} (h : Held P m s) (hk : Avoid P []) (n : Nat) (f : Job → Job) : Held P m (State.modJob s n f) := by
  unfold State.modJob
  repeat' first
    | with_reducible assumption
    | with_reducible apply held_foldl
    | with_reducible apply held_foldl_fst
    | exact hk.mono rfl
    | exact hk.1 _ rfl rfl
    | exact hk.2 _ rfl
    | exact hk.flds rfl
    | with_reducible apply held_else
    | with_reducible intro _
    | (simp only [↓held_mk]; with_reducible apply held_parts)
    | split
    | with_reducible refine held_of_pair (by assumption) ?_
    | dsimp only

theorem State.freeJob_stays {s : State} (h : Held P m s) (hk : Avoid P []) (n : Nat) : Held P m (State.freeJob s n) := by
  unfold State.freeJob
  repeat' first
    | with_reducible assumption
    | with_reducible apply held_foldl
    | with_reducible apply held_foldl_fst
    | exact hk.mono rfl
    | exact hk.1 _ rfl rfl
    | exact hk.2 _ rfl
    | exact hk.flds rfl
    | with_reducible apply held_else
    | with_reducible intro _
    | (simp only [↓held_mk]; with_reducible apply held_parts)
    | split
    | with_reducible refine held_of_pair (by assumption) ?_
    | dsimp only

theorem State.modSched_stays {s : State} (h : Held P m s) (hk : Avoid P []) (p : Nat) (f : Sched → Sched) : Held P m (State.modSched s p f) := by
  unfold State.modSched
  repeat' first
    | with_reducible assumption
    | with_reducible apply held_foldl
    | with_reducible apply held_foldl_fst
    | exact hk.mono rfl
    | exact hk.1 _ rfl rfl
    | exact hk.2 _ rfl
    | exact hk.flds rfl
    | with_reducible apply held_else
    | with_reducible intro _
    | (simp only [↓held_mk]; with_reducible apply held_parts)
    | split
    | with_reducible refine held_of_pair (by assumption) ?_
    | dsimp only

theorem State.showJob_stays {s : State} (h : Held P m s) (hk : Avoid P [.cmdPart]) (p : Nat) (k : Nat) : Held P m (State.showJob s p k) := by
  unfold State.showJob
  repeat' first
    | with_reducible assumption
    | with_reducible apply State.set_stays
    | with_reducible apply held_foldl
    | with_reducible apply held_foldl_fst
    | exact hk.mono rfl
    | exact hk.1 _ rfl rfl
    | exact hk.2 _ rfl
    | exact hk.flds rfl
    | with_reducible apply held_else
    | with_reducible intro _
    | (simp only [↓held_mk]; with_reducible apply held_parts)
    | split
    | with_reducible refine held_of_pair (by assumption) ?_
    | dsimp only

theorem State.creditBack_stays {s : State} (h : Held P m s) (hk : Avoid P []) (c : Nat) : Held P m (State.creditBack s c) := by
  unfold State.creditBack
  repeat' first
    | with_reducible assumption
    | with_reducible apply State.modLnp_stays
    | with_reducible apply held_foldl
    | with_reducible apply held_foldl_fst
    | exact hk.mono rfl
    | exact hk.1 _ rfl rfl
    | exact hk.2 _ rfl
    | exact hk.flds rfl
    | with_reducible apply held_else
    | with_reducible intro _
    | (simp only [↓held_mk]; with_reducible apply held_parts)
    | split
    | with_reducible refine held_of_pair (by assumption) ?_
    | dsimp only

theorem State.cqMessage_stays {s : State} (h : Held P m s) (hk : Avoid P []) (p : Nat) (c : Nat) : Held P m (State.cqMessage s p c) := by
  unfold State.cqMessage
  repeat' first
    | with_reducible assumption
    | with_reducible apply State.sendMsix_stays
    | with_reducible apply held_foldl
    | with_reducible apply held_foldl_fst
    | exact hk.mono rfl
    | exact hk.1 _ rfl rfl
    | exact hk.2 _ rfl
    | exact hk.flds rfl
    | with_reducible apply held_else
    | with_reducible intro _
    | (simp only [↓held_mk]; with_reducible apply held_parts)
    | split
    | with_reducible refine held_of_pair (by assumption) ?_
    | dsimp only

theorem State.cqSignal_stays {s : State} (h : Held P m s) (hk : Avoid P []) (p : Nat) (c : Nat) : Held P m (State.cqSignal s p c) := by
  unfold State.cqSignal
  repeat' first
    | with_reducible assumption
    | with_reducible apply State.cqMessage_stays
    | with_reducible apply held_foldl
    | with_reducible apply held_foldl_fst
    | exact hk.mono rfl
    | exact hk.1 _ rfl rfl
    | exact hk.2 _ rfl
    | exact hk.flds rfl
    | with_reducible apply held_else
    | with_reducible intro _
    | (simp only [↓held_mk]; with_reducible apply held_parts)
    | split
    | with_reducible refine held_of_pair (by assumption) ?_
    | dsimp only

theorem State.cqWrite_stays {s : State} (h : Held P m s) (hk : Avoid P [.cmdPart]) (x : Completion) : Held P m (State.cqWrite s x) := by
  unfold State.cqWrite
  repeat' first
    | with_reducible assumption
    | with_reducible apply State.hostOut_stays
    | with_reducible apply State.countWrap_stays
    | with_reducible apply State.freeJob_stays
    | with_reducible apply State.cqSignal_stays
    | with_reducible apply held_foldl
    | with_reducible apply held_foldl_fst
    | exact hk.mono rfl
    | exact hk.1 _ rfl rfl
    | exact hk.2 _ rfl
    | exact hk.flds rfl
    | with_reducible apply held_else
    | with_reducible intro _
    | (simp only [↓held_mk]; with_reducible apply held_parts)
    | split
    | with_reducible refine held_of_pair (by assumption) ?_
    | dsimp only

theorem State.cqFlush_stays {s : State} (h : Held P m s) (hk : Avoid P [.cmdPart]) (p : Nat) (c : Nat) : Held P m (State.cqFlush s p c) := by
  unfold State.cqFlush
  repeat' first
    | with_reducible assumption
    | with_reducible apply State.forEach_stays
    | with_reducible apply State.cqWrite_stays
    | with_reducible apply held_foldl
    | with_reducible apply held_foldl_fst
    | exact hk.mono rfl
    | exact hk.1 _ rfl rfl
    | exact hk.2 _ rfl
    | exact hk.flds rfl
    | with_reducible apply held_else
    | with_reducible intro _
    | (simp only [↓held_mk]; with_reducible apply held_parts)
    | split
    | with_reducible refine held_of_pair (by assumption) ?_
    | dsimp only

theorem State.complete_stays {s : State} (h : Held P m s) (hk : Avoid P [.cmdPart]) (x : Completion) : Held P m (State.complete s x) := by
  unfold State.complete
  repeat' first
    | with_reducible assumption
    | with_reducible apply State.raise_stays
    | with_reducible apply State.cqFlush_stays
    | with_reducible apply held_foldl
    | with_reducible apply held_foldl_fst
    | exact hk.mono rfl
    | exact hk.1 _ rfl rfl
    | exact hk.2 _ rfl
    | exact hk.flds rfl
    | with_reducible apply held_else
    | with_reducible intro _
    | (simp only [↓held_mk]; with_reducible apply held_parts)
    | split
    | with_reducible refine held_of_pair (by assumption) ?_
    | dsimp only

theorem State.cqHead_stays {s : State} (h : Held P m s) (hk : Avoid P [.cmdPart]) (p : Nat) (c : Nat) (v : Nat) : Held P m (State.cqHead s p c v) := by
  unfold State.cqHead
  repeat' first
    | with_reducible assumption
    | with_reducible apply State.set_stays
    | with_reducible apply State.cqFlush_stays
    | with_reducible apply State.raise_stays
    | with_reducible apply held_foldl
    | with_reducible apply held_foldl_fst
    | exact hk.mono rfl
    | exact hk.1 _ rfl rfl
    | exact hk.2 _ rfl
    | exact hk.flds rfl
    | with_reducible apply held_else
    | with_reducible intro _
    | (simp only [↓held_mk]; with_reducible apply held_parts)
    | split
    | with_reducible refine held_of_pair (by assumption) ?_
    | dsimp only

theorem State.completion_stays {s : State} (h : Held P m s) (hk : Avoid P [.cmdPart]) (p : Nat) (q : Nat) (bytes : List Nat) (job : Option Nat) : Held P m (State.completion s p q bytes job) := by
  unfold State.completion
  repeat' first
    | with_reducible assumption
    | with_reducible apply State.complete_stays
    | with_reducible apply held_foldl
    | with_reducible apply held_foldl_fst
    | exact hk.mono rfl
    | exact hk.1 _ rfl rfl
    | exact hk.2 _ rfl
    | exact hk.flds rfl
    | with_reducible apply held_else
    | with_reducible intro _
    | (simp only [↓held_mk]; with_reducible apply held_parts)
    | split
    | with_reducible refine held_of_pair (by assumption) ?_
    | dsimp only

theorem State.sqFetched_stays {s : State} (h : Held P m s) (hk : Avoid P [.cmdPart]) (p : Nat) (q : Nat) : Held P m (State.sqFetched s p q) := by
  unfold State.sqFetched
  repeat' first
    | with_reducible assumption
    | with_reducible apply State.countWrap_stays
    | with_reducible apply held_foldl
    | with_reducible apply held_foldl_fst
    | exact hk.mono rfl
    | exact hk.1 _ rfl rfl
    | exact hk.2 _ rfl
    | exact hk.flds rfl
    | with_reducible apply held_else
    | with_reducible intro _
    | (simp only [↓held_mk]; with_reducible apply held_parts)
    | split
    | with_reducible refine held_of_pair (by assumption) ?_
    | dsimp only

theorem State.sqRefuse_stays {s : State} (h : Held P m s) (hk : Avoid P [.cmdPart]) (p : Nat) (q : Nat) (e : Nat) (status : Nat) : Held P m (State.sqRefuse s p q e status) := by
  unfold State.sqRefuse
  repeat' first
    | with_reducible assumption
    | with_reducible apply State.completion_stays
    | with_reducible apply held_foldl
    | with_reducible apply held_foldl_fst
    | exact hk.mono rfl
    | exact hk.1 _ rfl rfl
    | exact hk.2 _ rfl
    | exact hk.flds rfl
    | with_reducible apply held_else
    | with_reducible intro _
    | (simp only [↓held_mk]; with_reducible apply held_parts)
    | split
    | with_reducible refine held_of_pair (by assumption) ?_
    | dsimp only

theorem State.sqError_stays {s : State} (h : Held P m s) (hk : Avoid P [.cmdPart]) (p : Nat) (q : Nat) (code : Nat) : Held P m (State.sqError s p q code) := by
  unfold State.sqError
  repeat' first
    | with_reducible assumption
    | with_reducible apply State.set_stays
    | with_reducible apply State.code_stays
    | with_reducible apply State.raise_stays
    | with_reducible apply held_foldl
    | with_reducible apply held_foldl_fst
    | exact hk.mono rfl
    | exact hk.1 _ rfl rfl
    | exact hk.2 _ rfl
    | exact hk.flds rfl
    | with_reducible apply held_else
    | with_reducible intro _
    | (simp only [↓held_mk]; with_reducible apply held_parts)
    | split
    | with_reducible refine held_of_pair (by assumption) ?_
    | dsimp only

theorem State.sqDoorbell_stays {s : State} (h : Held P m s) (hk : Avoid P [.cmdPart, .pmc]) (p : Nat) (q : Nat) (tail : Nat) : Held P m (State.sqDoorbell s p q tail) := by
  unfold State.sqDoorbell
  repeat' first
    | with_reducible assumption
    | with_reducible apply State.pmc_stays
    | with_reducible apply State.sqError_stays
    | with_reducible apply State.set_stays
    | with_reducible apply held_foldl
    | with_reducible apply held_foldl_fst
    | exact hk.mono rfl
    | exact hk.1 _ rfl rfl
    | exact hk.2 _ rfl
    | exact hk.flds rfl
    | with_reducible apply held_else
    | with_reducible intro _
    | (simp only [↓held_mk]; with_reducible apply held_parts)
    | split
    | with_reducible refine held_of_pair (by assumption) ?_
    | dsimp only

theorem State.digestEntry_stays {s : State} (h : Held P m s) (hk : Avoid P [.cmdPart, .memPc, .memPart, .pmc]) (p : Nat) (j : Job) (idx : Nat) (bytes : List Nat) : Held P m (State.digestEntry s p j idx bytes) := by
  unfold State.digestEntry
  repeat' first
    | with_reducible assumption
    | with_reducible apply State.countWrap_stays
    | with_reducible apply State.count_stays
    | with_reducible apply State.raise_stays
    | with_reducible apply State.devWriteFor_stays
    | with_reducible apply State.bwRequest_stays
    | with_reducible apply held_foldl
    | with_reducible apply held_foldl_fst
    | exact hk.mono rfl
    | exact hk.1 _ rfl rfl
    | exact hk.2 _ rfl
    | exact hk.flds rfl
    | with_reducible apply held_else
    | with_reducible intro _
    | (simp only [↓held_mk]; with_reducible apply held_parts)
    | split
    | with_reducible refine held_of_pair (by assumption) ?_
    | dsimp only

theorem State.findReport_stays {s : State} (h : Held P m s) (hk : Avoid P []) (replay : Bool) (a : FindAcc) (c : FindComp) : Held P m (State.findReport s replay a c).1 := by
  unfold State.findReport
  repeat' first
    | with_reducible assumption
    | with_reducible apply State.modTrk_stays
    | with_reducible apply held_foldl
    | with_reducible apply held_foldl_fst
    | exact hk.mono rfl
    | exact hk.1 _ rfl rfl
    | exact hk.2 _ rfl
    | exact hk.flds rfl
    | with_reducible apply held_else
    | with_reducible intro _
    | (simp only [↓held_mk]; with_reducible apply held_parts)
    | split
    | with_reducible refine held_of_pair (by assumption) ?_
    | dsimp only

theorem State.findRowEnd_stays {s : State} (h : Held P m s) (hk : Avoid P []) (F : FindSet) (replay : Bool) (row : Nat) (a : FindAcc) : Held P m (State.findRowEnd s F replay row a).1 := by
  unfold State.findRowEnd
  repeat' first
    | with_reducible assumption
    | with_reducible apply State.findReport_stays
    | with_reducible apply held_foldl
    | with_reducible apply held_foldl_fst
    | exact hk.mono rfl
    | exact hk.1 _ rfl rfl
    | exact hk.2 _ rfl
    | exact hk.flds rfl
    | with_reducible apply held_else
    | with_reducible intro _
    | (simp only [↓held_mk]; with_reducible apply held_parts)
    | split
    | with_reducible refine held_of_pair (by assumption) ?_
    | dsimp only

theorem State.findRow_stays {s : State} (h : Held P m s) (hk : Avoid P []) (F : FindSet) (replay : Bool) (row : Nat) (codes : List Nat) (a : FindAcc) : Held P m (State.findRow s F replay row codes a).1 := by
  unfold State.findRow
  repeat' first
    | with_reducible assumption
    | with_reducible apply State.findRowEnd_stays
    | with_reducible apply held_foldl
    | with_reducible apply held_foldl_fst
    | exact hk.mono rfl
    | exact hk.1 _ rfl rfl
    | exact hk.2 _ rfl
    | exact hk.flds rfl
    | with_reducible apply held_else
    | with_reducible intro _
    | (simp only [↓held_mk]; with_reducible apply held_parts)
    | split
    | with_reducible refine held_of_pair (by assumption) ?_
    | dsimp only

theorem State.findRun_stays {s : State} (h : Held P m s) (hk : Avoid P []) (e : Env) (idx : Nat) (d : Nat) (lo : Nat) (hi : Nat) (replay : Bool) : Held P m (State.findRun s e idx d lo hi replay).1 := by
  unfold State.findRun
  repeat' first
    | with_reducible assumption
    | with_reducible apply State.findRow_stays
    | with_reducible apply State.code_stays
    | with_reducible apply held_foldl
    | with_reducible apply held_foldl_fst
    | exact hk.mono rfl
    | exact hk.1 _ rfl rfl
    | exact hk.2 _ rfl
    | exact hk.flds rfl
    | with_reducible apply held_else
    | with_reducible intro _
    | (simp only [↓held_mk]; with_reducible apply held_parts)
    | split
    | with_reducible refine held_of_pair (by assumption) ?_
    | dsimp only

theorem State.putList_stays {s : State} (h : Held P m s) (hk : Avoid P [.clu, .memPc, .memPart, .pmc]) (e : Env) (t : Tensor) (bs : List Nat) : Held P m (State.putList s e t bs) := by
  unfold State.putList
  repeat' first
    | with_reducible assumption
    | with_reducible apply State.tensorBytes_stays
    | with_reducible apply State.jobLines_stays
    | with_reducible apply held_foldl
    | with_reducible apply held_foldl_fst
    | exact hk.mono rfl
    | exact hk.1 _ rfl rfl
    | exact hk.2 _ rfl
    | exact hk.flds rfl
    | with_reducible apply held_else
    | with_reducible intro _
    | (simp only [↓held_mk]; with_reducible apply held_parts)
    | split
    | with_reducible refine held_of_pair (by assumption) ?_
    | dsimp only

theorem State.partFind_stays {s : State} (h : Held P m s) (hk : Avoid P [.clu, .memPc, .memPart, .pmc]) (e : Env) (idx : Nat) (d : Nat) (lo : Nat) (hi : Nat) (no : Nat) (replay : Bool) : Held P m (State.partFind s e idx d lo hi no replay).1 := by
  unfold State.partFind
  repeat' first
    | with_reducible assumption
    | with_reducible apply State.findRun_stays
    | with_reducible apply State.putList_stays
    | with_reducible apply State.modTrk_stays
    | with_reducible apply held_foldl
    | with_reducible apply held_foldl_fst
    | exact hk.mono rfl
    | exact hk.1 _ rfl rfl
    | exact hk.2 _ rfl
    | exact hk.flds rfl
    | with_reducible apply held_else
    | with_reducible intro _
    | (simp only [↓held_mk]; with_reducible apply held_parts)
    | split
    | with_reducible refine held_of_pair (by assumption) ?_
    | dsimp only

theorem State.findAbort_stays {s : State} (h : Held P m s) (hk : Avoid P []) (e : Env) (idx : Nat) (d : Nat) (lo : Nat) (hi : Nat) (replay : Bool) : Held P m (State.findAbort s e idx d lo hi replay) := by
  unfold State.findAbort
  repeat' first
    | with_reducible assumption
    | with_reducible apply State.findRun_stays
    | with_reducible apply State.forEach_stays
    | with_reducible apply State.bumpGen_stays
    | with_reducible apply State.giveId_stays
    | with_reducible apply held_foldl
    | with_reducible apply held_foldl_fst
    | exact hk.mono rfl
    | exact hk.1 _ rfl rfl
    | exact hk.2 _ rfl
    | exact hk.flds rfl
    | with_reducible apply held_else
    | with_reducible intro _
    | (simp only [↓held_mk]; with_reducible apply held_parts)
    | split
    | with_reducible refine held_of_pair (by assumption) ?_
    | dsimp only

theorem State.setWin_stays {s : State} (h : Held P m s) (hk : Avoid P []) (p : Nat) (k : Nat) (w : CtxWin) : Held P m (State.setWin s p k w) := by
  unfold State.setWin
  repeat' first
    | with_reducible assumption
    | with_reducible apply State.modSlot_stays
    | with_reducible apply held_foldl
    | with_reducible apply held_foldl_fst
    | exact hk.mono rfl
    | exact hk.1 _ rfl rfl
    | exact hk.2 _ rfl
    | exact hk.flds rfl
    | with_reducible apply held_else
    | with_reducible intro _
    | (simp only [↓held_mk]; with_reducible apply held_parts)
    | split
    | with_reducible refine held_of_pair (by assumption) ?_
    | dsimp only

theorem State.modRun_stays {s : State} (h : Held P m s) (hk : Avoid P []) (n : Nat) (f : StepRun → StepRun) : Held P m (State.modRun s n f) := by
  unfold State.modRun
  repeat' first
    | with_reducible assumption
    | with_reducible apply State.modJob_stays
    | with_reducible apply held_foldl
    | with_reducible apply held_foldl_fst
    | exact hk.mono rfl
    | exact hk.1 _ rfl rfl
    | exact hk.2 _ rfl
    | exact hk.flds rfl
    | with_reducible apply held_else
    | with_reducible intro _
    | (simp only [↓held_mk]; with_reducible apply held_parts)
    | split
    | with_reducible refine held_of_pair (by assumption) ?_
    | dsimp only

theorem State.modDesc_stays {s : State} (h : Held P m s) (hk : Avoid P []) (n : Nat) (idx : Nat) (f : DescRun → DescRun) : Held P m (State.modDesc s n idx f) := by
  unfold State.modDesc
  repeat' first
    | with_reducible assumption
    | with_reducible apply State.modRun_stays
    | with_reducible apply held_foldl
    | with_reducible apply held_foldl_fst
    | exact hk.mono rfl
    | exact hk.1 _ rfl rfl
    | exact hk.2 _ rfl
    | exact hk.flds rfl
    | with_reducible apply held_else
    | with_reducible intro _
    | (simp only [↓held_mk]; with_reducible apply held_parts)
    | split
    | with_reducible refine held_of_pair (by assumption) ?_
    | dsimp only

theorem State.windowReset_stays {s : State} (h : Held P m s) (hk : Avoid P [.clu]) (p : Nat) (c : Nat) : Held P m (State.windowReset s p c) := by
  unfold State.windowReset
  repeat' first
    | with_reducible assumption
    | with_reducible apply State.raise_stays
    | with_reducible apply State.count_stays
    | with_reducible apply held_foldl
    | with_reducible apply held_foldl_fst
    | exact hk.mono rfl
    | exact hk.1 _ rfl rfl
    | exact hk.2 _ rfl
    | exact hk.flds rfl
    | with_reducible apply held_else
    | with_reducible intro _
    | (simp only [↓held_mk]; with_reducible apply held_parts)
    | split
    | with_reducible refine held_of_pair (by assumption) ?_
    | dsimp only

theorem State.dropHolding_stays {s : State} (h : Held P m s) (hk : Avoid P []) (w : CtxWin) : Held P m (State.dropHolding s w) := by
  unfold State.dropHolding
  repeat' first
    | with_reducible assumption
    | with_reducible apply State.forEach_stays
    | with_reducible apply State.creditBack_stays
    | with_reducible apply held_foldl
    | with_reducible apply held_foldl_fst
    | exact hk.mono rfl
    | exact hk.1 _ rfl rfl
    | exact hk.2 _ rfl
    | exact hk.flds rfl
    | with_reducible apply held_else
    | with_reducible intro _
    | (simp only [↓held_mk]; with_reducible apply held_parts)
    | split
    | with_reducible refine held_of_pair (by assumption) ?_
    | dsimp only

theorem State.resetWin_stays {s : State} (h : Held P m s) (hk : Avoid P [.clu]) (p : Nat) (k : Nat) (w : CtxWin) (cuts : List CutEntry) : Held P m (State.resetWin s p k w cuts) := by
  unfold State.resetWin
  repeat' first
    | with_reducible assumption
    | with_reducible apply State.dropHolding_stays
    | with_reducible apply State.setWin_stays
    | with_reducible apply State.windowReset_stays
    | with_reducible apply held_foldl
    | with_reducible apply held_foldl_fst
    | exact hk.mono rfl
    | exact hk.1 _ rfl rfl
    | exact hk.2 _ rfl
    | exact hk.flds rfl
    | with_reducible apply held_else
    | with_reducible intro _
    | (simp only [↓held_mk]; with_reducible apply held_parts)
    | split
    | with_reducible refine held_of_pair (by assumption) ?_
    | dsimp only

theorem State.takeJob_stays {s : State} (h : Held P m s) (hk : Avoid P []) (p : Nat) (k : Nat) (batch : Bool) (s0 : Nat) (seed : Nat) : Held P m (State.takeJob s p k batch s0 seed).1 := by
  unfold State.takeJob
  repeat' first
    | with_reducible assumption
    | with_reducible apply held_foldl
    | with_reducible apply held_foldl_fst
    | exact hk.mono rfl
    | exact hk.1 _ rfl rfl
    | exact hk.2 _ rfl
    | exact hk.flds rfl
    | with_reducible apply held_else
    | with_reducible intro _
    | (simp only [↓held_mk]; with_reducible apply held_parts)
    | split
    | with_reducible refine held_of_pair (by assumption) ?_
    | dsimp only

theorem State.makeReady_stays {s : State} (h : Held P m s) (hk : Avoid P []) (n : Nat) : Held P m (State.makeReady s n) := by
  unfold State.makeReady
  repeat' first
    | with_reducible assumption
    | with_reducible apply State.modJob_stays
    | with_reducible apply held_foldl
    | with_reducible apply held_foldl_fst
    | exact hk.mono rfl
    | exact hk.1 _ rfl rfl
    | exact hk.2 _ rfl
    | exact hk.flds rfl
    | with_reducible apply held_else
    | with_reducible intro _
    | (simp only [↓held_mk]; with_reducible apply held_parts)
    | split
    | with_reducible refine held_of_pair (by assumption) ?_
    | dsimp only

theorem State.refreshReady_stays {s : State} (h : Held P m s) (hk : Avoid P [])  : Held P m (State.refreshReady s) := by
  unfold State.refreshReady
  repeat' first
    | with_reducible assumption
    | with_reducible apply State.forEach_stays
    | with_reducible apply State.makeReady_stays
    | with_reducible apply held_foldl
    | with_reducible apply held_foldl_fst
    | exact hk.mono rfl
    | exact hk.1 _ rfl rfl
    | exact hk.2 _ rfl
    | exact hk.flds rfl
    | with_reducible apply held_else
    | with_reducible intro _
    | (simp only [↓held_mk]; with_reducible apply held_parts)
    | split
    | with_reducible refine held_of_pair (by assumption) ?_
    | dsimp only

theorem State.startBatch_stays {s : State} (h : Held P m s) (hk : Avoid P [.cmdPart]) (p : Nat) (q : Nat) (e : Nat) : Held P m (State.startBatch s p q e) := by
  unfold State.startBatch
  repeat' first
    | with_reducible assumption
    | with_reducible apply State.sqRefuse_stays
    | with_reducible apply State.takeJob_stays
    | with_reducible apply State.modJob_stays
    | with_reducible apply State.makeReady_stays
    | with_reducible apply held_foldl
    | with_reducible apply held_foldl_fst
    | exact hk.mono rfl
    | exact hk.1 _ rfl rfl
    | exact hk.2 _ rfl
    | exact hk.flds rfl
    | with_reducible apply held_else
    | with_reducible intro _
    | (simp only [↓held_mk]; with_reducible apply held_parts)
    | split
    | with_reducible refine held_of_pair (by assumption) ?_
    | dsimp only

theorem State.sqTake_stays {s : State} (h : Held P m s) (hk : Avoid P [.cmdPart]) (p : Nat) (q : Nat) (e : Nat) : Held P m (State.sqTake s p q e) := by
  unfold State.sqTake
  repeat' first
    | with_reducible assumption
    | with_reducible apply State.startBatch_stays
    | with_reducible apply State.completion_stays
    | with_reducible apply held_foldl
    | with_reducible apply held_foldl_fst
    | exact hk.mono rfl
    | exact hk.1 _ rfl rfl
    | exact hk.2 _ rfl
    | exact hk.flds rfl
    | with_reducible apply held_else
    | with_reducible intro _
    | (simp only [↓held_mk]; with_reducible apply held_parts)
    | split
    | with_reducible refine held_of_pair (by assumption) ?_
    | dsimp only

theorem State.sqPump_stays {s : State} (h : Held P m s) (hk : Avoid P [.cmdPart]) (p : Nat) : Held P m (State.sqPump s p) := by
  unfold State.sqPump
  repeat' first
    | with_reducible assumption
    | with_reducible apply State.forEach_stays
    | with_reducible apply State.sqTake_stays
    | with_reducible apply held_foldl
    | with_reducible apply held_foldl_fst
    | exact hk.mono rfl
    | exact hk.1 _ rfl rfl
    | exact hk.2 _ rfl
    | exact hk.flds rfl
    | with_reducible apply held_else
    | with_reducible intro _
    | (simp only [↓held_mk]; with_reducible apply held_parts)
    | split
    | with_reducible refine held_of_pair (by assumption) ?_
    | dsimp only

theorem State.leaveClusters_stays {s : State} (h : Held P m s) (hk : Avoid P []) (p : Nat) (n : Nat) : Held P m (State.leaveClusters s p n) := by
  unfold State.leaveClusters
  repeat' first
    | with_reducible assumption
    | with_reducible apply State.modSched_stays
    | with_reducible apply held_foldl
    | with_reducible apply held_foldl_fst
    | exact hk.mono rfl
    | exact hk.1 _ rfl rfl
    | exact hk.2 _ rfl
    | exact hk.flds rfl
    | with_reducible apply held_else
    | with_reducible intro _
    | (simp only [↓held_mk]; with_reducible apply held_parts)
    | split
    | with_reducible refine held_of_pair (by assumption) ?_
    | dsimp only

theorem State.endJob_stays {s : State} (h : Held P m s) (hk : Avoid P [.cmdPart]) (n : Nat) (status : Nat) (desc : Nat) : Held P m (State.endJob s n status desc) := by
  unfold State.endJob
  repeat' first
    | with_reducible assumption
    | with_reducible apply State.modJob_stays
    | with_reducible apply State.leaveClusters_stays
    | with_reducible apply State.completion_stays
    | with_reducible apply State.freeJob_stays
    | with_reducible apply State.showJob_stays
    | with_reducible apply State.forEach_stays
    | with_reducible apply State.sqPump_stays
    | with_reducible apply held_foldl
    | with_reducible apply held_foldl_fst
    | exact hk.mono rfl
    | exact hk.1 _ rfl rfl
    | exact hk.2 _ rfl
    | exact hk.flds rfl
    | with_reducible apply held_else
    | with_reducible intro _
    | (simp only [↓held_mk]; with_reducible apply held_parts)
    | split
    | with_reducible refine held_of_pair (by assumption) ?_
    | dsimp only

theorem State.endStream_stays {s : State} (h : Held P m s) (hk : Avoid P [.cmdPart]) (p : Nat) (k : Nat) (status : Nat) : Held P m (State.endStream s p k status) := by
  unfold State.endStream
  repeat' first
    | with_reducible assumption
    | with_reducible apply State.forEach_stays
    | with_reducible apply State.dropHolding_stays
    | with_reducible apply State.setWin_stays
    | with_reducible apply State.endJob_stays
    | with_reducible apply held_foldl
    | with_reducible apply held_foldl_fst
    | exact hk.mono rfl
    | exact hk.1 _ rfl rfl
    | exact hk.2 _ rfl
    | exact hk.flds rfl
    | with_reducible apply held_else
    | with_reducible intro _
    | (simp only [↓held_mk]; with_reducible apply held_parts)
    | split
    | with_reducible refine held_of_pair (by assumption) ?_
    | dsimp only

theorem State.activate_stays {s : State} (h : Held P m s) (hk : Avoid P [.cmdPart, .clu]) (p : Nat) (k : Nat) (P_ : Plan) (s0 : Nat) (seed : Nat) : Held P m (State.activate s p k P_ s0 seed) := by
  unfold State.activate
  repeat' first
    | with_reducible assumption
    | with_reducible apply State.endStream_stays
    | with_reducible apply State.forgetSlot_stays
    | with_reducible apply State.modSlot_stays
    | with_reducible apply State.forEach_stays
    | with_reducible apply State.resetWin_stays
    | with_reducible apply State.modJob_stays
    | with_reducible apply State.endJob_stays
    | with_reducible apply State.set_stays
    | with_reducible apply State.takeJob_stays
    | with_reducible apply State.showJob_stays
    | with_reducible apply State.refreshReady_stays
    | with_reducible apply held_foldl
    | with_reducible apply held_foldl_fst
    | exact hk.mono rfl
    | exact hk.1 _ rfl rfl
    | exact hk.2 _ rfl
    | exact hk.flds rfl
    | with_reducible apply held_else
    | with_reducible intro _
    | (simp only [↓held_mk]; with_reducible apply held_parts)
    | split
    | with_reducible refine held_of_pair (by assumption) ?_
    | dsimp only

theorem State.switchSlot_stays {s : State} (h : Held P m s) (hk : Avoid P [.cmdPart, .clu]) (p : Nat) (k : Nat) : Held P m (State.switchSlot s p k) := by
  unfold State.switchSlot
  repeat' first
    | with_reducible assumption
    | with_reducible apply State.activate_stays
    | with_reducible apply State.raise_stays
    | with_reducible apply held_foldl
    | with_reducible apply held_foldl_fst
    | exact hk.mono rfl
    | exact hk.1 _ rfl rfl
    | exact hk.2 _ rfl
    | exact hk.flds rfl
    | with_reducible apply held_else
    | with_reducible intro _
    | (simp only [↓held_mk]; with_reducible apply held_parts)
    | split
    | with_reducible refine held_of_pair (by assumption) ?_
    | dsimp only

theorem State.emptySlot_stays {s : State} (h : Held P m s) (hk : Avoid P [.cmdPart]) (p : Nat) (k : Nat) : Held P m (State.emptySlot s p k) := by
  unfold State.emptySlot
  repeat' first
    | with_reducible assumption
    | with_reducible apply State.endStream_stays
    | with_reducible apply State.modSlot_stays
    | with_reducible apply State.set_stays
    | with_reducible apply State.showJob_stays
    | with_reducible apply held_foldl
    | with_reducible apply held_foldl_fst
    | exact hk.mono rfl
    | exact hk.1 _ rfl rfl
    | exact hk.2 _ rfl
    | exact hk.flds rfl
    | with_reducible apply held_else
    | with_reducible intro _
    | (simp only [↓held_mk]; with_reducible apply held_parts)
    | split
    | with_reducible refine held_of_pair (by assumption) ?_
    | dsimp only

theorem State.boundary_stays {s : State} (h : Held P m s) (hk : Avoid P [.cmdPart, .clu]) (p : Nat) : Held P m (State.boundary s p) := by
  unfold State.boundary
  repeat' first
    | with_reducible assumption
    | with_reducible apply State.forEach_stays
    | with_reducible apply State.emptySlot_stays
    | with_reducible apply State.switchSlot_stays
    | with_reducible apply held_foldl
    | with_reducible apply held_foldl_fst
    | exact hk.mono rfl
    | exact hk.1 _ rfl rfl
    | exact hk.2 _ rfl
    | exact hk.flds rfl
    | with_reducible apply held_else
    | with_reducible intro _
    | (simp only [↓held_mk]; with_reducible apply held_parts)
    | split
    | with_reducible refine held_of_pair (by assumption) ?_
    | dsimp only

theorem State.putScales_stays {s : State} (h : Held P m s) (hk : Avoid P [.memPc, .memPart, .pmc]) (p : Nat) (k : Nat) (off : Nat) (a : Nat) (ga : Nat) (b : Nat) (gb : Nat) : Held P m (State.putScales s p k off a ga b gb) := by
  unfold State.putScales
  repeat' first
    | with_reducible assumption
    | with_reducible apply State.modSlot_stays
    | with_reducible apply State.devWriteFor_stays
    | with_reducible apply State.bwRequest_stays
    | with_reducible apply held_foldl
    | with_reducible apply held_foldl_fst
    | exact hk.mono rfl
    | exact hk.1 _ rfl rfl
    | exact hk.2 _ rfl
    | exact hk.flds rfl
    | with_reducible apply held_else
    | with_reducible intro _
    | (simp only [↓held_mk]; with_reducible apply held_parts)
    | split
    | with_reducible refine held_of_pair (by assumption) ?_
    | dsimp only

theorem State.initScales_stays {s : State} (h : Held P m s) (hk : Avoid P [.memPc, .memPart, .pmc]) (j : Job) (P_ : Plan) : Held P m (State.initScales s j P_) := by
  unfold State.initScales
  repeat' first
    | with_reducible assumption
    | with_reducible apply State.forEach_stays
    | with_reducible apply State.putScales_stays
    | with_reducible apply held_foldl
    | with_reducible apply held_foldl_fst
    | exact hk.mono rfl
    | exact hk.1 _ rfl rfl
    | exact hk.2 _ rfl
    | exact hk.flds rfl
    | with_reducible apply held_else
    | with_reducible intro _
    | (simp only [↓held_mk]; with_reducible apply held_parts)
    | split
    | with_reducible refine held_of_pair (by assumption) ?_
    | dsimp only

theorem State.beginStream_stays {s : State} (h : Held P m s) (hk : Avoid P [.clu]) (j : Job) (P_ : Plan) (r : Ready) : Held P m (State.beginStream s j P_ r) := by
  unfold State.beginStream
  repeat' first
    | with_reducible assumption
    | with_reducible apply State.setWin_stays
    | with_reducible apply State.windowReset_stays
    | with_reducible apply State.resetWin_stays
    | with_reducible apply State.modJob_stays
    | with_reducible apply held_foldl
    | with_reducible apply held_foldl_fst
    | exact hk.mono rfl
    | exact hk.1 _ rfl rfl
    | exact hk.2 _ rfl
    | exact hk.flds rfl
    | with_reducible apply held_else
    | with_reducible intro _
    | (simp only [↓held_mk]; with_reducible apply held_parts)
    | split
    | with_reducible refine held_of_pair (by assumption) ?_
    | dsimp only

theorem State.beginStep_stays {s : State} (h : Held P m s) (hk : Avoid P [.clu, .memPc, .memPart, .pmc]) (n : Nat) : Held P m (State.beginStep s n) := by
  unfold State.beginStep
  repeat' first
    | with_reducible assumption
    | with_reducible apply State.initScales_stays
    | with_reducible apply State.modJob_stays
    | with_reducible apply State.beginStream_stays
    | with_reducible apply held_foldl
    | with_reducible apply held_foldl_fst
    | exact hk.mono rfl
    | exact hk.1 _ rfl rfl
    | exact hk.2 _ rfl
    | exact hk.flds rfl
    | with_reducible apply held_else
    | with_reducible intro _
    | (simp only [↓held_mk]; with_reducible apply held_parts)
    | split
    | with_reducible refine held_of_pair (by assumption) ?_
    | dsimp only

theorem State.rotateScale_stays {s : State} (h : Held P m s) (hk : Avoid P [.cmdPart, .memPc, .memPart, .pmc]) (j : Job) (P_ : Plan) (r : DescRun) : Held P m (State.rotateScale s j P_ r) := by
  unfold State.rotateScale
  repeat' first
    | with_reducible assumption
    | with_reducible apply State.putScales_stays
    | with_reducible apply State.raise_stays
    | with_reducible apply held_foldl
    | with_reducible apply held_foldl_fst
    | exact hk.mono rfl
    | exact hk.1 _ rfl rfl
    | exact hk.2 _ rfl
    | exact hk.flds rfl
    | with_reducible apply held_else
    | with_reducible intro _
    | (simp only [↓held_mk]; with_reducible apply held_parts)
    | split
    | with_reducible refine held_of_pair (by assumption) ?_
    | dsimp only

theorem State.release_stays {s : State} (h : Held P m s) (hk : Avoid P []) (p : Nat) (k : Nat) (P_ : Plan) (w : CtxWin) (next : Nat → Nat) (last : Bool) : Held P m (State.release s p k P_ w next last) := by
  unfold State.release
  repeat' first
    | with_reducible assumption
    | with_reducible apply State.setWin_stays
    | with_reducible apply State.dropHolding_stays
    | with_reducible apply held_foldl
    | with_reducible apply held_foldl_fst
    | exact hk.mono rfl
    | exact hk.1 _ rfl rfl
    | exact hk.2 _ rfl
    | exact hk.flds rfl
    | with_reducible apply held_else
    | with_reducible intro _
    | (simp only [↓held_mk]; with_reducible apply held_parts)
    | split
    | with_reducible refine held_of_pair (by assumption) ?_
    | dsimp only

theorem State.measureStep_stays {s : State} (h : Held P m s) (hk : Avoid P [.cmdPart]) (j : Job) (r : StepRun) : Held P m (State.measureStep s j r) := by
  unfold State.measureStep
  repeat' first
    | with_reducible assumption
    | with_reducible apply State.set_stays
    | with_reducible apply held_foldl
    | with_reducible apply held_foldl_fst
    | exact hk.mono rfl
    | exact hk.1 _ rfl rfl
    | exact hk.2 _ rfl
    | exact hk.flds rfl
    | with_reducible apply held_else
    | with_reducible intro _
    | (simp only [↓held_mk]; with_reducible apply held_parts)
    | split
    | with_reducible refine held_of_pair (by assumption) ?_
    | dsimp only

theorem State.closeWin_stays {s : State} (h : Held P m s) (hk : Avoid P [.cmdPart]) (j : Job) (P_ : Plan) (r : StepRun) : Held P m (State.closeWin s j P_ r) := by
  unfold State.closeWin
  repeat' first
    | with_reducible assumption
    | with_reducible apply State.release_stays
    | with_reducible apply held_foldl
    | with_reducible apply held_foldl_fst
    | exact hk.mono rfl
    | exact hk.1 _ rfl rfl
    | exact hk.2 _ rfl
    | exact hk.flds rfl
    | with_reducible apply held_else
    | with_reducible intro _
    | (simp only [↓held_mk]; with_reducible apply held_parts)
    | split
    | with_reducible refine held_of_pair (by assumption) ?_
    | dsimp only

theorem State.endStep_stays {s : State} (h : Held P m s) (hk : Avoid P [.cmdPart, .clu, .memPc, .memPart, .pmc]) (n : Nat) : Held P m (State.endStep s n) := by
  unfold State.endStep
  repeat' first
    | with_reducible assumption
    | with_reducible apply State.closeWin_stays
    | with_reducible apply State.forEach_stays
    | with_reducible apply State.rotateScale_stays
    | with_reducible apply State.measureStep_stays
    | with_reducible apply State.pmc_stays
    | with_reducible apply State.modJob_stays
    | with_reducible apply State.showJob_stays
    | with_reducible apply State.endJob_stays
    | with_reducible apply State.endStream_stays
    | with_reducible apply State.set_stays
    | with_reducible apply State.boundary_stays
    | with_reducible apply State.leaveClusters_stays
    | with_reducible apply held_foldl
    | with_reducible apply held_foldl_fst
    | exact hk.mono rfl
    | exact hk.1 _ rfl rfl
    | exact hk.2 _ rfl
    | exact hk.flds rfl
    | with_reducible apply held_else
    | with_reducible intro _
    | (simp only [↓held_mk]; with_reducible apply held_parts)
    | split
    | with_reducible refine held_of_pair (by assumption) ?_
    | dsimp only

theorem State.xentRows_stays {s : State} (h : Held P m s) (hk : Avoid P [.clu, .memPc, .memPart, .pmc]) (e : Env) (d : Nat) (l : List (Nat × Nat × Nat)) : Held P m (State.xentRows s e d l) := by
  unfold State.xentRows
  repeat' first
    | with_reducible assumption
    | with_reducible apply State.putTile_stays
    | with_reducible apply held_foldl
    | with_reducible apply held_foldl_fst
    | exact hk.mono rfl
    | exact hk.1 _ rfl rfl
    | exact hk.2 _ rfl
    | exact hk.flds rfl
    | with_reducible apply held_else
    | with_reducible intro _
    | (simp only [↓held_mk]; with_reducible apply held_parts)
    | split
    | with_reducible refine held_of_pair (by assumption) ?_
    | dsimp only

theorem State.optUnit_stays {s : State} (h : Held P m s) (hk : Avoid P [.clu, .memPc, .memPart, .pmc]) (e : Env) (d : Nat) (l : List (Nat × Nat × Nat)) : Held P m (State.optUnit s e d l).1 := by
  unfold State.optUnit
  repeat' first
    | with_reducible assumption
    | with_reducible apply State.code_stays
    | with_reducible apply State.putTile_stays
    | with_reducible apply held_foldl
    | with_reducible apply held_foldl_fst
    | exact hk.mono rfl
    | exact hk.1 _ rfl rfl
    | exact hk.2 _ rfl
    | exact hk.flds rfl
    | with_reducible apply held_else
    | with_reducible intro _
    | (simp only [↓held_mk]; with_reducible apply held_parts)
    | split
    | with_reducible refine held_of_pair (by assumption) ?_
    | dsimp only

theorem State.cropFlags_stays {s : State} (h : Held P m s) (hk : Avoid P [.clu, .memPc, .memPart, .pmc]) (e : Env) (d : Nat) (rows : CropRows) (l : List (Nat × Nat × Nat)) : Held P m (State.cropFlags s e d rows l) := by
  unfold State.cropFlags
  repeat' first
    | with_reducible assumption
    | with_reducible apply State.forEach_stays
    | with_reducible apply State.tensorBytes_stays
    | with_reducible apply State.jobLines_stays
    | with_reducible apply held_foldl
    | with_reducible apply held_foldl_fst
    | exact hk.mono rfl
    | exact hk.1 _ rfl rfl
    | exact hk.2 _ rfl
    | exact hk.flds rfl
    | with_reducible apply held_else
    | with_reducible intro _
    | (simp only [↓held_mk]; with_reducible apply held_parts)
    | split
    | with_reducible refine held_of_pair (by assumption) ?_
    | dsimp only

theorem State.giveVerdict_stays {s : State} (h : Held P m s) (hk : Avoid P [.lanPeer]) (v : VerdictMsg) : Held P m (State.giveVerdict s v) := by
  unfold State.giveVerdict
  repeat' first
    | with_reducible assumption
    | with_reducible apply State.peerSend_stays
    | with_reducible apply State.modTrk_stays
    | with_reducible apply held_foldl
    | with_reducible apply held_foldl_fst
    | exact hk.mono rfl
    | exact hk.1 _ rfl rfl
    | exact hk.2 _ rfl
    | exact hk.flds rfl
    | with_reducible apply held_else
    | with_reducible intro _
    | (simp only [↓held_mk]; with_reducible apply held_parts)
    | split
    | with_reducible refine held_of_pair (by assumption) ?_
    | dsimp only

theorem State.verdicts_stays {s : State} (h : Held P m s) (hk : Avoid P [.lanPeer]) (e : Env) (d : Nat) : Held P m (State.verdicts s e d).1 := by
  unfold State.verdicts
  repeat' first
    | with_reducible assumption
    | with_reducible apply State.forEach_stays
    | with_reducible apply State.giveVerdict_stays
    | with_reducible apply held_foldl
    | with_reducible apply held_foldl_fst
    | exact hk.mono rfl
    | exact hk.1 _ rfl rfl
    | exact hk.2 _ rfl
    | exact hk.flds rfl
    | with_reducible apply held_else
    | with_reducible intro _
    | (simp only [↓held_mk]; with_reducible apply held_parts)
    | split
    | with_reducible refine held_of_pair (by assumption) ?_
    | dsimp only

theorem State.runUnit_stays {s : State} (h : Held P m s) (hk : Avoid P [.lanPeer, .clu, .memPc, .memPart, .pmc]) (j : Job) (r : StepRun) (e : Env) (x : DescRun) (u : Nat) : Held P m (State.runUnit s j r e x u).1 := by
  unfold State.runUnit
  repeat' first
    | with_reducible assumption
    | with_reducible apply State.partFind_stays
    | with_reducible apply State.setWin_stays
    | with_reducible apply State.verdicts_stays
    | with_reducible apply State.optUnit_stays
    | with_reducible apply State.xentRows_stays
    | with_reducible apply State.putTile_stays
    | with_reducible apply State.cropFlags_stays
    | with_reducible apply held_foldl
    | with_reducible apply held_foldl_fst
    | exact hk.mono rfl
    | exact hk.1 _ rfl rfl
    | exact hk.2 _ rfl
    | exact hk.flds rfl
    | with_reducible apply held_else
    | with_reducible intro _
    | (simp only [↓held_mk]; with_reducible apply held_parts)
    | split
    | with_reducible refine held_of_pair (by assumption) ?_
    | dsimp only

theorem State.unitBad_stays {s : State} (h : Held P m s) (hk : Avoid P [.mgt, .memPc, .mem, .memPart]) (e : Env) (runs : List DescRun) (d : Nat) (x : DescRun) (u : Nat) : Held P m (State.unitBad s e runs d x u).1 := by
  unfold State.unitBad
  repeat' first
    | with_reducible assumption
    | with_reducible apply State.forEach_stays
    | with_reducible apply State.ueFound_stays
    | with_reducible apply State.count_stays
    | with_reducible apply State.raise_stays
    | with_reducible apply held_foldl
    | with_reducible apply held_foldl_fst
    | exact hk.mono rfl
    | exact hk.1 _ rfl rfl
    | exact hk.2 _ rfl
    | exact hk.flds rfl
    | with_reducible apply held_else
    | with_reducible intro _
    | (simp only [↓held_mk]; with_reducible apply held_parts)
    | split
    | with_reducible refine held_of_pair (by assumption) ?_
    | dsimp only

theorem State.descDone_stays {s : State} (h : Held P m s) (hk : Avoid P [.cmdPart, .memPc, .memPart, .pmc]) (n : Nat) (idx : Nat) : Held P m (State.descDone s n idx) := by
  unfold State.descDone
  repeat' first
    | with_reducible assumption
    | with_reducible apply State.modDesc_stays
    | with_reducible apply State.complete_stays
    | with_reducible apply State.pmc_stays
    | with_reducible apply State.learn_stays
    | with_reducible apply State.digestEntry_stays
    | with_reducible apply State.release_stays
    | with_reducible apply State.modJob_stays
    | with_reducible apply State.count_stays
    | with_reducible apply held_foldl
    | with_reducible apply held_foldl_fst
    | exact hk.mono rfl
    | exact hk.1 _ rfl rfl
    | exact hk.2 _ rfl
    | exact hk.flds rfl
    | with_reducible apply held_else
    | with_reducible intro _
    | (simp only [↓held_mk]; with_reducible apply held_parts)
    | split
    | with_reducible refine held_of_pair (by assumption) ?_
    | dsimp only

theorem State.advance_stays {s : State} (h : Held P m s) (hk : Avoid P [.cmdPart, .clu, .memPc, .memPart, .pmc]) (n : Nat) : Held P m (State.advance s n) := by
  unfold State.advance
  repeat' first
    | with_reducible assumption
    | with_reducible apply State.forEach_stays
    | with_reducible apply State.complete_stays
    | with_reducible apply State.descDone_stays
    | with_reducible apply State.endStep_stays
    | with_reducible apply held_foldl
    | with_reducible apply held_foldl_fst
    | exact hk.mono rfl
    | exact hk.1 _ rfl rfl
    | exact hk.2 _ rfl
    | exact hk.flds rfl
    | with_reducible apply held_else
    | with_reducible intro _
    | (simp only [↓held_mk]; with_reducible apply held_parts)
    | split
    | with_reducible refine held_of_pair (by assumption) ?_
    | dsimp only

theorem State.drain_stays {s : State} (h : Held P m s) (hk : Avoid P []) (p : Nat) : Held P m (State.drain s p) := by
  unfold State.drain
  repeat' first
    | with_reducible assumption
    | with_reducible apply State.modJob_stays
    | with_reducible apply State.leaveClusters_stays
    | with_reducible apply held_foldl
    | with_reducible apply held_foldl_fst
    | exact hk.mono rfl
    | exact hk.1 _ rfl rfl
    | exact hk.2 _ rfl
    | exact hk.flds rfl
    | with_reducible apply held_else
    | with_reducible intro _
    | (simp only [↓held_mk]; with_reducible apply held_parts)
    | split
    | with_reducible refine held_of_pair (by assumption) ?_
    | dsimp only

theorem State.unitDone_stays {s : State} (h : Held P m s) (hk : Avoid P [.cmdPart, .clu, .memPc, .memPart, .pmc]) (p : Nat) (n : Nat) (x : DescRun) : Held P m (State.unitDone s p n x) := by
  unfold State.unitDone
  repeat' first
    | with_reducible assumption
    | with_reducible apply State.modDesc_stays
    | with_reducible apply State.descDone_stays
    | with_reducible apply State.advance_stays
    | with_reducible apply State.drain_stays
    | with_reducible apply held_foldl
    | with_reducible apply held_foldl_fst
    | exact hk.mono rfl
    | exact hk.1 _ rfl rfl
    | exact hk.2 _ rfl
    | exact hk.flds rfl
    | with_reducible apply held_else
    | with_reducible intro _
    | (simp only [↓held_mk]; with_reducible apply held_parts)
    | split
    | with_reducible refine held_of_pair (by assumption) ?_
    | dsimp only

theorem State.issueReads_stays {s : State} (h : Held P m s) (hk : Avoid P [.clu, .memPc, .memPart, .pmc]) (p : Nat) (n : Nat) (seq : Nat) : Held P m (State.issueReads s p n seq) := by
  unfold State.issueReads
  repeat' first
    | with_reducible assumption
    | with_reducible apply State.forEach_stays
    | with_reducible apply State.jobLine_stays
    | with_reducible apply State.pmcClu_stays
    | with_reducible apply State.modRun_stays
    | with_reducible apply held_foldl
    | with_reducible apply held_foldl_fst
    | exact hk.mono rfl
    | exact hk.1 _ rfl rfl
    | exact hk.2 _ rfl
    | exact hk.flds rfl
    | with_reducible apply held_else
    | with_reducible intro _
    | (simp only [↓held_mk]; with_reducible apply held_parts)
    | split
    | with_reducible refine held_of_pair (by assumption) ?_
    | dsimp only

theorem State.firstUnit_some_stays {s t : State} {j : Job} {Q : Plan} {r : StepRun} {x : DescRun} (h : Held P m s) (hk : Avoid P [.cmdPart])
    (e : s.firstUnit j Q r x = some t) : Held P m t := by
  unfold State.firstUnit State.loadScales at e
  dsimp only at e
  split at e
  · cases e; exact h
  · split at e
    · cases e
    · simp only [Option.map_some, Option.some.injEq] at e
      subst e
      apply State.modDesc_stays _ (hk.mono rfl)
      split
      · exact State.modJob_stays h (hk.mono rfl) _ _
      · exact State.clockChoice_stays (State.modJob_stays h (hk.mono rfl) _ _) (hk.mono rfl) _

theorem State.firstUnit_stays {s : State} (h : Held P m s) (hk : Avoid P [.cmdPart]) (j : Job) (Q : Plan) (r : StepRun) (x : DescRun) :
    Held P m ((s.firstUnit j Q r x).getD s) := by
  cases e : s.firstUnit j Q r x with
  | none => exact h
  | some t => exact State.firstUnit_some_stays h hk e

theorem State.assignTile_stays {s : State} (h : Held P m s) (hk : Avoid P [.cmdPart, .clu, .memPc, .memPart, .pmc]) (p : Nat) : Held P m (State.assignTile s p) := by
  unfold State.assignTile
  repeat' first
    | with_reducible assumption
    | with_reducible apply State.beginStep_stays
    | with_reducible apply State.advance_stays
    | with_reducible apply State.firstUnit_stays
    | with_reducible apply State.modRun_stays
    | with_reducible apply State.modDesc_stays
    | with_reducible apply State.set_stays
    | with_reducible apply State.issueReads_stays
    | refine State.firstUnit_some_stays ?_ (hk.mono rfl) (by assumption)
    | with_reducible apply held_foldl
    | with_reducible apply held_foldl_fst
    | exact hk.mono rfl
    | exact hk.1 _ rfl rfl
    | exact hk.2 _ rfl
    | exact hk.flds rfl
    | with_reducible apply held_else
    | with_reducible intro _
    | (simp only [↓held_mk]; with_reducible apply held_parts)
    | split
    | with_reducible refine held_of_pair (by assumption) ?_
    | dsimp only

theorem State.issueWaiting_stays {s : State} (h : Held P m s) (hk : Avoid P [.clu, .memPc, .memPart, .pmc])  : Held P m (State.issueWaiting s) := by
  unfold State.issueWaiting
  repeat' first
    | with_reducible assumption
    | with_reducible apply State.forEach_stays
    | with_reducible apply State.issueReads_stays
    | with_reducible apply held_foldl
    | with_reducible apply held_foldl_fst
    | exact hk.mono rfl
    | exact hk.1 _ rfl rfl
    | exact hk.2 _ rfl
    | exact hk.flds rfl
    | with_reducible apply held_else
    | with_reducible intro _
    | (simp only [↓held_mk]; with_reducible apply held_parts)
    | split
    | with_reducible refine held_of_pair (by assumption) ?_
    | dsimp only

theorem State.readReturns_stays {s : State} (h : Held P m s) (hk : Avoid P [.clu, .memPc, .memPart, .pmc]) (p : Nat) (seq : Nat) : Held P m (State.readReturns s p seq) := by
  unfold State.readReturns
  repeat' first
    | with_reducible assumption
    | with_reducible apply State.modRun_stays
    | with_reducible apply State.issueWaiting_stays
    | with_reducible apply held_foldl
    | with_reducible apply held_foldl_fst
    | exact hk.mono rfl
    | exact hk.1 _ rfl rfl
    | exact hk.2 _ rfl
    | exact hk.flds rfl
    | with_reducible apply held_else
    | with_reducible intro _
    | (simp only [↓held_mk]; with_reducible apply held_parts)
    | split
    | with_reducible refine held_of_pair (by assumption) ?_
    | dsimp only

theorem State.endTile_stays {s : State} (h : Held P m s) (hk : Avoid P [.cmdPart, .lanPeer, .clu, .memPc, .memPart, .pmc]) (p : Nat) (j : Job) (P_ : Plan) (r : StepRun) (t : TileRun) (x : DescRun) : Held P m (State.endTile s p j P_ r t x) := by
  unfold State.endTile
  repeat' first
    | with_reducible assumption
    | with_reducible apply State.modRun_stays
    | with_reducible apply State.modSched_stays
    | with_reducible apply State.count_stays
    | with_reducible apply State.pmc_stays
    | with_reducible apply State.pmcClu_stays
    | with_reducible apply State.runUnit_stays
    | with_reducible apply State.unitDone_stays
    | with_reducible apply held_foldl
    | with_reducible apply held_foldl_fst
    | exact hk.mono rfl
    | exact hk.1 _ rfl rfl
    | exact hk.2 _ rfl
    | exact hk.flds rfl
    | with_reducible apply held_else
    | with_reducible intro _
    | (simp only [↓held_mk]; with_reducible apply held_parts)
    | split
    | with_reducible refine held_of_pair (by assumption) ?_
    | dsimp only

theorem State.queuePass_stays {s : State} (h : Held P m s) (hk : Avoid P [.fwn]) (x : FwnPass) : Held P m (State.queuePass s x) := by
  unfold State.queuePass
  repeat' first
    | with_reducible assumption
    | with_reducible apply State.count_stays
    | with_reducible apply held_foldl
    | with_reducible apply held_foldl_fst
    | exact hk.mono rfl
    | exact hk.1 _ rfl rfl
    | exact hk.2 _ rfl
    | exact hk.flds rfl
    | with_reducible apply held_else
    | with_reducible intro _
    | (simp only [↓held_mk]; with_reducible apply held_parts)
    | split
    | with_reducible refine held_of_pair (by assumption) ?_
    | dsimp only

theorem State.fawnReady_stays {s : State} (h : Held P m s) (hk : Avoid P [.cmdPart, .clu, .fwn, .memPc, .memPart, .pmc]) (p : Nat) : Held P m (State.fawnReady s p) := by
  unfold State.fawnReady
  repeat' first
    | with_reducible assumption
    | with_reducible apply State.beginStep_stays
    | with_reducible apply State.advance_stays
    | with_reducible apply State.forEach_stays
    | with_reducible apply State.firstUnit_stays
    | with_reducible apply State.modDesc_stays
    | with_reducible apply State.queuePass_stays
    | with_reducible apply held_foldl
    | with_reducible apply held_foldl_fst
    | exact hk.mono rfl
    | exact hk.1 _ rfl rfl
    | exact hk.2 _ rfl
    | exact hk.flds rfl
    | with_reducible apply held_else
    | with_reducible intro _
    | (simp only [↓held_mk]; with_reducible apply held_parts)
    | split
    | with_reducible refine held_of_pair (by assumption) ?_
    | dsimp only

theorem State.fawnDesc_stays {s : State} (h : Held P m s) (hk : Avoid P [.mgt, .cmdPart, .lanPeer, .clu, .memPc, .mem, .memPart, .pmc]) (n : Nat) (idx : Nat) : Held P m (State.fawnDesc s n idx).1 := by
  unfold State.fawnDesc
  repeat' first
    | with_reducible assumption
    | with_reducible apply State.unitBad_stays
    | with_reducible apply State.runUnit_stays
    | with_reducible apply State.unitDone_stays
    | with_reducible apply held_foldl
    | with_reducible apply held_foldl_fst
    | exact hk.mono rfl
    | exact hk.1 _ rfl rfl
    | exact hk.2 _ rfl
    | exact hk.flds rfl
    | with_reducible apply held_else
    | with_reducible intro _
    | (simp only [↓held_mk]; with_reducible apply held_parts)
    | split
    | with_reducible refine held_of_pair (by assumption) ?_
    | dsimp only

end Sys2Proof.Machine
end

