-- ==== Sys2Proof/Laws/Held4.lean ====
section
/-!
SUPPORT. Laws/Held4.lean: the operations of the machine leave the registers that lie on pages they do not reach.
-/
namespace Sys2Proof.Machine

set_option linter.unusedSimpArgs false
set_option linter.unusedVariables false

variable {P : Fld → Bool} {m : Fld → Nat → Nat → Nat}

theorem State.attnDrop_stays {s : State} (h : Held P m s) (hk : Avoid P []) (x : AttnRun) : Held P m (State.attnDrop s x) := by
  unfold State.attnDrop
  repeat' first
    | with_reducible assumption
    | with_reducible apply State.forEach_stays
    | with_reducible apply State.modTable_stays
    | with_reducible apply State.freeLocal_stays
    | with_reducible apply held_foldl
    | with_reducible apply held_foldl_fst
    | exact hk.mono rfl
    | exact hk.1 _ rfl rfl
    | exact hk.2 _ rfl
    | exact hk.flds rfl
    | with_reducible apply held_else
    | with_reducible intro _
    | (simp only [↓held_mk]; with_reducible apply held_parts)
    | split
    | with_reducible refine held_of_pair (by assumption) ?_
    | dsimp only

theorem State.findersAborted_stays {s : State} (h : Held P m s) (hk : Avoid P [.cmdPart]) (j : Job) : Held P m (State.findersAborted s j) := by
  unfold State.findersAborted
  repeat' first
    | with_reducible assumption
    | with_reducible apply State.forEach_stays
    | with_reducible apply State.complete_stays
    | with_reducible apply State.findAbort_stays
    | with_reducible apply held_foldl
    | with_reducible apply held_foldl_fst
    | exact hk.mono rfl
    | exact hk.1 _ rfl rfl
    | exact hk.2 _ rfl
    | exact hk.flds rfl
    | with_reducible apply held_else
    | with_reducible intro _
    | (simp only [↓held_mk]; with_reducible apply held_parts)
    | split
    | with_reducible refine held_of_pair (by assumption) ?_
    | dsimp only

theorem State.abortJob_stays {s : State} (h : Held P m s) (hk : Avoid P [.cmdPart, .clu, .ejt]) (n : Nat) (status : Nat) (idx : Nat) (reason : Nat) (again : Bool) : Held P m (State.abortJob s n status idx reason again) := by
  unfold State.abortJob
  repeat' first
    | with_reducible assumption
    | with_reducible apply State.findersAborted_stays
    | with_reducible apply State.forEach_stays
    | with_reducible apply State.attnDrop_stays
    | with_reducible apply State.trkAbort_stays
    | with_reducible apply State.raise_stays
    | with_reducible apply State.count_stays
    | with_reducible apply State.endJob_stays
    | with_reducible apply State.dropHolding_stays
    | with_reducible apply State.setWin_stays
    | with_reducible apply State.set_stays
    | with_reducible apply State.activate_stays
    | with_reducible apply State.modSlot_stays
    | with_reducible apply held_foldl
    | with_reducible apply held_foldl_fst
    | exact hk.mono rfl
    | exact hk.1 _ rfl rfl
    | exact hk.2 _ rfl
    | exact hk.flds rfl
    | with_reducible apply held_else
    | with_reducible intro _
    | (simp only [↓held_mk]; with_reducible apply held_parts)
    | split
    | with_reducible refine held_of_pair (by assumption) ?_
    | dsimp only

theorem State.abortMem_stays {s : State} (h : Held P m s) (hk : Avoid P [.cmdPart, .clu, .ejt]) (n : Nat) (idx : Nat) : Held P m (State.abortMem s n idx) := by
  unfold State.abortMem
  repeat' first
    | with_reducible assumption
    | with_reducible apply State.abortJob_stays
    | with_reducible apply held_foldl
    | with_reducible apply held_foldl_fst
    | exact hk.mono rfl
    | exact hk.1 _ rfl rfl
    | exact hk.2 _ rfl
    | exact hk.flds rfl
    | with_reducible apply held_else
    | with_reducible intro _
    | (simp only [↓held_mk]; with_reducible apply held_parts)
    | split
    | with_reducible refine held_of_pair (by assumption) ?_
    | dsimp only

theorem State.abortRetired_stays {s : State} (h : Held P m s) (hk : Avoid P [.cmdPart, .clu, .ejt]) (p : Nat) : Held P m (State.abortRetired s p) := by
  unfold State.abortRetired
  repeat' first
    | with_reducible assumption
    | with_reducible apply State.forEach_stays
    | with_reducible apply State.abortJob_stays
    | with_reducible apply held_foldl
    | with_reducible apply held_foldl_fst
    | exact hk.mono rfl
    | exact hk.1 _ rfl rfl
    | exact hk.2 _ rfl
    | exact hk.flds rfl
    | with_reducible apply held_else
    | with_reducible intro _
    | (simp only [↓held_mk]; with_reducible apply held_parts)
    | split
    | with_reducible refine held_of_pair (by assumption) ?_
    | dsimp only

theorem State.cluRetire_stays {s : State} (h : Held P m s) (hk : Avoid P [.mgt, .cmdPart, .clu, .ejt]) (k : Nat) : Held P m (State.cluRetire s k) := by
  unfold State.cluRetire
  repeat' first
    | with_reducible assumption
    | with_reducible apply State.rerouted_stays
    | with_reducible apply State.set_stays
    | with_reducible apply State.raise_stays
    | with_reducible apply State.channelRetired_stays
    | with_reducible apply State.abortRetired_stays
    | with_reducible apply held_foldl
    | with_reducible apply held_foldl_fst
    | exact hk.mono rfl
    | exact hk.1 _ rfl rfl
    | exact hk.2 _ rfl
    | exact hk.flds rfl
    | with_reducible apply held_else
    | with_reducible intro _
    | (simp only [↓held_mk]; with_reducible apply held_parts)
    | split
    | with_reducible refine held_of_pair (by assumption) ?_
    | dsimp only

theorem State.cluUpset_stays {s : State} (h : Held P m s) (hk : Avoid P [.mgt, .cmdPart, .clu, .ejt]) (k : Nat) : Held P m (State.cluUpset s k) := by
  unfold State.cluUpset
  repeat' first
    | with_reducible assumption
    | with_reducible apply State.addUpset_stays
    | with_reducible apply State.cluRetire_stays
    | with_reducible apply held_foldl
    | with_reducible apply held_foldl_fst
    | exact hk.mono rfl
    | exact hk.1 _ rfl rfl
    | exact hk.2 _ rfl
    | exact hk.flds rfl
    | with_reducible apply held_else
    | with_reducible intro _
    | (simp only [↓held_mk]; with_reducible apply held_parts)
    | split
    | with_reducible refine held_of_pair (by assumption) ?_
    | dsimp only

theorem State.completeTile_stays {s : State} (h : Held P m s) (hk : Avoid P [.mgt, .cmdPart, .lanPeer, .clu, .memPc, .mem, .memPart, .ejt, .pmc]) (p : Nat) (seq : Nat) : Held P m (State.completeTile s p seq) := by
  unfold State.completeTile
  repeat' first
    | with_reducible assumption
    | with_reducible apply State.unitBad_stays
    | with_reducible apply State.abortMem_stays
    | with_reducible apply State.endTile_stays
    | with_reducible apply held_foldl
    | with_reducible apply held_foldl_fst
    | exact hk.mono rfl
    | exact hk.1 _ rfl rfl
    | exact hk.2 _ rfl
    | exact hk.flds rfl
    | with_reducible apply held_else
    | with_reducible intro _
    | (simp only [↓held_mk]; with_reducible apply held_parts)
    | split
    | with_reducible refine held_of_pair (by assumption) ?_
    | dsimp only

theorem State.fawnDone_stays {s : State} (h : Held P m s) (hk : Avoid P [.mgt, .cmdPart, .lanPeer, .clu, .fwn, .memPc, .mem, .memPart, .ejt, .pmc])  : Held P m (State.fawnDone s) := by
  unfold State.fawnDone
  repeat' first
    | with_reducible assumption
    | with_reducible apply State.fawnDesc_stays
    | with_reducible apply State.abortMem_stays
    | with_reducible apply State.count_stays
    | with_reducible apply State.drain_stays
    | with_reducible apply held_foldl
    | with_reducible apply held_foldl_fst
    | exact hk.mono rfl
    | exact hk.1 _ rfl rfl
    | exact hk.2 _ rfl
    | exact hk.flds rfl
    | with_reducible apply held_else
    | with_reducible intro _
    | (simp only [↓held_mk]; with_reducible apply held_parts)
    | split
    | with_reducible refine held_of_pair (by assumption) ?_
    | dsimp only

theorem State.beginSlice_stays {s : State} (h : Held P m s) (hk : Avoid P [.cmdPart, .clu, .memPc, .memPart, .pmc]) (p : Nat) (n : Nat) : Held P m (State.beginSlice s p n) := by
  unfold State.beginSlice
  repeat' first
    | with_reducible assumption
    | with_reducible apply State.modJob_stays
    | with_reducible apply State.modSched_stays
    | with_reducible apply State.beginStep_stays
    | with_reducible apply State.advance_stays
    | with_reducible apply State.drain_stays
    | with_reducible apply held_foldl
    | with_reducible apply held_foldl_fst
    | exact hk.mono rfl
    | exact hk.1 _ rfl rfl
    | exact hk.2 _ rfl
    | exact hk.flds rfl
    | with_reducible apply held_else
    | with_reducible intro _
    | (simp only [↓held_mk]; with_reducible apply held_parts)
    | split
    | with_reducible refine held_of_pair (by assumption) ?_
    | dsimp only

theorem State.giveTurn_stays {s : State} (h : Held P m s) (hk : Avoid P []) (p f : Nat) : Held P m (s.giveTurn p f).1 := by
  induction f generalizing s with
  | zero => exact h
  | succ f ih =>
    unfold State.giveTurn
    split
    · exact h
    · dsimp only
      split
      · exact ih (State.modJob_stays (State.modSched_stays h (hk.mono rfl) _ _) (hk.mono rfl) _ _)
      · exact State.modSched_stays h (hk.mono rfl) _ _

theorem State.schedule_stays {s : State} (h : Held P m s) (hk : Avoid P [.cmdPart, .clu, .memPc, .memPart, .pmc]) (p : Nat) : Held P m (State.schedule s p) := by
  unfold State.schedule
  repeat' first
    | with_reducible assumption
    | with_reducible apply State.refreshReady_stays
    | with_reducible apply State.drain_stays
    | with_reducible apply State.beginStep_stays
    | with_reducible apply State.advance_stays
    | with_reducible apply State.beginSlice_stays
    | with_reducible apply State.giveTurn_stays
    | with_reducible apply State.modSched_stays
    | with_reducible apply held_foldl
    | with_reducible apply held_foldl_fst
    | exact hk.mono rfl
    | exact hk.1 _ rfl rfl
    | exact hk.2 _ rfl
    | exact hk.flds rfl
    | with_reducible apply held_else
    | with_reducible intro _
    | (simp only [↓held_mk]; with_reducible apply held_parts)
    | split
    | with_reducible refine held_of_pair (by assumption) ?_
    | dsimp only

theorem State.saveJob_stays {s : State} (h : Held P m s) (hk : Avoid P [.memPc, .memPart, .pmc]) (p : Nat) (n : Nat) : Held P m (State.saveJob s p n) := by
  unfold State.saveJob
  repeat' first
    | with_reducible assumption
    | with_reducible apply State.modJob_stays
    | with_reducible apply State.forEach_stays
    | with_reducible apply State.devWrite_stays
    | with_reducible apply State.jobLine_stays
    | with_reducible apply held_foldl
    | with_reducible apply held_foldl_fst
    | exact hk.mono rfl
    | exact hk.1 _ rfl rfl
    | exact hk.2 _ rfl
    | exact hk.flds rfl
    | with_reducible apply held_else
    | with_reducible intro _
    | (simp only [↓held_mk]; with_reducible apply held_parts)
    | split
    | with_reducible refine held_of_pair (by assumption) ?_
    | dsimp only

theorem State.restoreJob_stays {s : State} (h : Held P m s) (hk : Avoid P [.memPc, .memPart, .pmc]) (p : Nat) (n : Nat) : Held P m (State.restoreJob s p n) := by
  unfold State.restoreJob
  repeat' first
    | with_reducible assumption
    | with_reducible apply State.forEach_stays
    | with_reducible apply State.sramWrite_stays
    | with_reducible apply State.jobLine_stays
    | with_reducible apply held_foldl
    | with_reducible apply held_foldl_fst
    | exact hk.mono rfl
    | exact hk.1 _ rfl rfl
    | exact hk.2 _ rfl
    | exact hk.flds rfl
    | with_reducible apply held_else
    | with_reducible intro _
    | (simp only [↓held_mk]; with_reducible apply held_parts)
    | split
    | with_reducible refine held_of_pair (by assumption) ?_
    | dsimp only

theorem State.switchDone_stays {s : State} (h : Held P m s) (hk : Avoid P [.cmdPart, .clu, .memPc, .memPart, .pmc]) (p : Nat) : Held P m (State.switchDone s p) := by
  unfold State.switchDone
  repeat' first
    | with_reducible assumption
    | with_reducible apply State.saveJob_stays
    | with_reducible apply State.restoreJob_stays
    | with_reducible apply State.pmc_stays
    | with_reducible apply State.beginSlice_stays
    | with_reducible apply held_foldl
    | with_reducible apply held_foldl_fst
    | exact hk.mono rfl
    | exact hk.1 _ rfl rfl
    | exact hk.2 _ rfl
    | exact hk.flds rfl
    | with_reducible apply held_else
    | with_reducible intro _
    | (simp only [↓held_mk]; with_reducible apply held_parts)
    | split
    | with_reducible refine held_of_pair (by assumption) ?_
    | dsimp only

theorem State.sliceEnds_stays {s : State} (h : Held P m s) (hk : Avoid P []) (p : Nat) : Held P m (State.sliceEnds s p) := by
  unfold State.sliceEnds
  repeat' first
    | with_reducible assumption
    | with_reducible apply State.refreshReady_stays
    | with_reducible apply State.modSched_stays
    | with_reducible apply State.drain_stays
    | with_reducible apply State.modJob_stays
    | with_reducible apply held_foldl
    | with_reducible apply held_foldl_fst
    | exact hk.mono rfl
    | exact hk.1 _ rfl rfl
    | exact hk.2 _ rfl
    | exact hk.flds rfl
    | with_reducible apply held_else
    | with_reducible intro _
    | (simp only [↓held_mk]; with_reducible apply held_parts)
    | split
    | with_reducible refine held_of_pair (by assumption) ?_
    | dsimp only

theorem State.watchdogAbort_stays {s : State} (h : Held P m s) (hk : Avoid P [.cmdPart, .clu, .ejt]) (p : Nat) : Held P m (State.watchdogAbort s p) := by
  unfold State.watchdogAbort
  repeat' first
    | with_reducible assumption
    | with_reducible apply State.abortJob_stays
    | with_reducible apply held_foldl
    | with_reducible apply held_foldl_fst
    | exact hk.mono rfl
    | exact hk.1 _ rfl rfl
    | exact hk.2 _ rfl
    | exact hk.flds rfl
    | with_reducible apply held_else
    | with_reducible intro _
    | (simp only [↓held_mk]; with_reducible apply held_parts)
    | split
    | with_reducible refine held_of_pair (by assumption) ?_
    | dsimp only

theorem State.sqRun_stays {s : State} (h : Held P m s) (hk : Avoid P [.cmdPart]) (p : Nat) (q : Nat) (e : Nat) : Held P m (State.sqRun s p q e) := by
  unfold State.sqRun
  repeat' first
    | with_reducible assumption
    | with_reducible apply State.sqFetched_stays
    | with_reducible apply State.sqRefuse_stays
    | with_reducible apply State.sqTake_stays
    | with_reducible apply held_foldl
    | with_reducible apply held_foldl_fst
    | exact hk.mono rfl
    | exact hk.1 _ rfl rfl
    | exact hk.2 _ rfl
    | exact hk.flds rfl
    | with_reducible apply held_else
    | with_reducible intro _
    | (simp only [↓held_mk]; with_reducible apply held_parts)
    | split
    | with_reducible refine held_of_pair (by assumption) ?_
    | dsimp only

theorem State.stopJob_stays {s : State} (h : Held P m s) (hk : Avoid P [.cmdPart, .clu, .ejt]) (p : Nat) (q : Nat) (e : Nat) (j : Job) : Held P m (State.stopJob s p q e j) := by
  unfold State.stopJob
  repeat' first
    | with_reducible assumption
    | with_reducible apply State.completion_stays
    | with_reducible apply State.modJob_stays
    | with_reducible apply State.abortJob_stays
    | with_reducible apply State.endJob_stays
    | with_reducible apply State.endStream_stays
    | with_reducible apply State.set_stays
    | with_reducible apply held_foldl
    | with_reducible apply held_foldl_fst
    | exact hk.mono rfl
    | exact hk.1 _ rfl rfl
    | exact hk.2 _ rfl
    | exact hk.flds rfl
    | with_reducible apply held_else
    | with_reducible intro _
    | (simp only [↓held_mk]; with_reducible apply held_parts)
    | split
    | with_reducible refine held_of_pair (by assumption) ?_
    | dsimp only

theorem State.sqStop_stays {s : State} (h : Held P m s) (hk : Avoid P [.cmdPart, .clu, .ejt]) (p : Nat) (q : Nat) (e : Nat) : Held P m (State.sqStop s p q e) := by
  unfold State.sqStop
  repeat' first
    | with_reducible assumption
    | with_reducible apply State.sqFetched_stays
    | with_reducible apply State.sqRefuse_stays
    | with_reducible apply State.stopJob_stays
    | with_reducible apply held_foldl
    | with_reducible apply held_foldl_fst
    | exact hk.mono rfl
    | exact hk.1 _ rfl rfl
    | exact hk.2 _ rfl
    | exact hk.flds rfl
    | with_reducible apply held_else
    | with_reducible intro _
    | (simp only [↓held_mk]; with_reducible apply held_parts)
    | split
    | with_reducible refine held_of_pair (by assumption) ?_
    | dsimp only

theorem State.sqFence_stays {s : State} (h : Held P m s) (hk : Avoid P [.cmdPart]) (p : Nat) (q : Nat) (e : Nat) : Held P m (State.sqFence s p q e) := by
  unfold State.sqFence
  repeat' first
    | with_reducible assumption
    | with_reducible apply State.sqFetched_stays
    | with_reducible apply State.sqRefuse_stays
    | with_reducible apply State.sqTake_stays
    | with_reducible apply held_foldl
    | with_reducible apply held_foldl_fst
    | exact hk.mono rfl
    | exact hk.1 _ rfl rfl
    | exact hk.2 _ rfl
    | exact hk.flds rfl
    | with_reducible apply held_else
    | with_reducible intro _
    | (simp only [↓held_mk]; with_reducible apply held_parts)
    | split
    | with_reducible refine held_of_pair (by assumption) ?_
    | dsimp only

theorem State.sqUnknown_stays {s : State} (h : Held P m s) (hk : Avoid P [.cmdPart]) (p : Nat) (q : Nat) (e : Nat) : Held P m (State.sqUnknown s p q e) := by
  unfold State.sqUnknown
  repeat' first
    | with_reducible assumption
    | with_reducible apply State.sqFetched_stays
    | with_reducible apply State.sqRefuse_stays
    | with_reducible apply held_foldl
    | with_reducible apply held_foldl_fst
    | exact hk.mono rfl
    | exact hk.1 _ rfl rfl
    | exact hk.2 _ rfl
    | exact hk.flds rfl
    | with_reducible apply held_else
    | with_reducible intro _
    | (simp only [↓held_mk]; with_reducible apply held_parts)
    | split
    | with_reducible refine held_of_pair (by assumption) ?_
    | dsimp only

theorem State.sqReadFails_stays {s : State} (h : Held P m s) (hk : Avoid P [.cmdPart]) (p : Nat) (q : Nat) : Held P m (State.sqReadFails s p q) := by
  unfold State.sqReadFails
  repeat' first
    | with_reducible assumption
    | with_reducible apply State.sqError_stays
    | with_reducible apply held_foldl
    | with_reducible apply held_foldl_fst
    | exact hk.mono rfl
    | exact hk.1 _ rfl rfl
    | exact hk.2 _ rfl
    | exact hk.flds rfl
    | with_reducible apply held_else
    | with_reducible intro _
    | (simp only [↓held_mk]; with_reducible apply held_parts)
    | split
    | with_reducible refine held_of_pair (by assumption) ?_
    | dsimp only

theorem State.cqTimer_stays {s : State} (h : Held P m s) (hk : Avoid P []) (p : Nat) (c : Nat) : Held P m (State.cqTimer s p c) := by
  unfold State.cqTimer
  repeat' first
    | with_reducible assumption
    | with_reducible apply State.cqMessage_stays
    | with_reducible apply held_foldl
    | with_reducible apply held_foldl_fst
    | exact hk.mono rfl
    | exact hk.1 _ rfl rfl
    | exact hk.2 _ rfl
    | exact hk.flds rfl
    | with_reducible apply held_else
    | with_reducible intro _
    | (simp only [↓held_mk]; with_reducible apply held_parts)
    | split
    | with_reducible refine held_of_pair (by assumption) ?_
    | dsimp only

theorem State.planGo_stays {s : State} (h : Held P m s) (hk : Avoid P [.cmdPart]) (p : Nat) (k : Nat) (hold : Bool) : Held P m (State.planGo s p k hold) := by
  unfold State.planGo
  repeat' first
    | with_reducible assumption
    | with_reducible apply State.set_stays
    | with_reducible apply State.modSlot_stays
    | with_reducible apply held_foldl
    | with_reducible apply held_foldl_fst
    | exact hk.mono rfl
    | exact hk.1 _ rfl rfl
    | exact hk.2 _ rfl
    | exact hk.flds rfl
    | with_reducible apply held_else
    | with_reducible intro _
    | (simp only [↓held_mk]; with_reducible apply held_parts)
    | split
    | with_reducible refine held_of_pair (by assumption) ?_
    | dsimp only

theorem State.planChecked_stays {s : State} (h : Held P m s) (hk : Avoid P [.mgt, .cmdPart, .memPc, .mem]) (p : Nat) (k : Nat) : Held P m (State.planChecked s p k) := by
  unfold State.planChecked
  repeat' first
    | with_reducible assumption
    | with_reducible apply State.consumeBad_stays
    | with_reducible apply State.modSlot_stays
    | with_reducible apply State.set_stays
    | with_reducible apply State.raise_stays
    | with_reducible apply held_foldl
    | with_reducible apply held_foldl_fst
    | exact hk.mono rfl
    | exact hk.1 _ rfl rfl
    | exact hk.2 _ rfl
    | exact hk.flds rfl
    | with_reducible apply held_else
    | with_reducible intro _
    | (simp only [↓held_mk]; with_reducible apply held_parts)
    | split
    | with_reducible refine held_of_pair (by assumption) ?_
    | dsimp only

theorem State.releaseLoads_stays {s : State} (h : Held P m s) (hk : Avoid P []) (p : Nat) : Held P m (State.releaseLoads s p) := by
  unfold State.releaseLoads
  repeat' first
    | with_reducible assumption
    | with_reducible apply State.forEach_stays
    | with_reducible apply State.modSlot_stays
    | with_reducible apply held_foldl
    | with_reducible apply held_foldl_fst
    | exact hk.mono rfl
    | exact hk.1 _ rfl rfl
    | exact hk.2 _ rfl
    | exact hk.flds rfl
    | with_reducible apply held_else
    | with_reducible intro _
    | (simp only [↓held_mk]; with_reducible apply held_parts)
    | split
    | with_reducible refine held_of_pair (by assumption) ?_
    | dsimp only

theorem State.planUnload_stays {s : State} (h : Held P m s) (hk : Avoid P [.cmdPart]) (fn : Nat) (p : Nat) (k : Nat) (off : Nat) : Held P m (State.planUnload s fn p k off) := by
  unfold State.planUnload
  repeat' first
    | with_reducible assumption
    | with_reducible apply State.code_stays
    | with_reducible apply State.modSlot_stays
    | with_reducible apply State.set_stays
    | with_reducible apply State.emptySlot_stays
    | with_reducible apply held_foldl
    | with_reducible apply held_foldl_fst
    | exact hk.mono rfl
    | exact hk.1 _ rfl rfl
    | exact hk.2 _ rfl
    | exact hk.flds rfl
    | with_reducible apply held_else
    | with_reducible intro _
    | (simp only [↓held_mk]; with_reducible apply held_parts)
    | split
    | with_reducible refine held_of_pair (by assumption) ?_
    | dsimp only

theorem State.partWrite_stays {s t : State} (h : Held P m s) (hk : Avoid P [.cmd]) (ht : Held P m t) (fn p off : Nat) :
    Held P m (s.partWrite fn p off t) := by
  unfold State.partWrite
  split
  · exact ht
  · split
    · exact State.code_stays h (hk.mono rfl) _ _ _
    · exact ht

theorem State.pageWrite_stays {s : State} (h : Held P m s) (hk : Avoid P [.memPc, .memPart, .pmc]) (p : Nat) (q : Nat) (page : Nat) (off : Nat) (bs : List Nat) : Held P m (State.pageWrite s p q page off bs) := by
  unfold State.pageWrite
  repeat' first
    | with_reducible assumption
    | with_reducible apply State.devWrite_stays
    | with_reducible apply State.forEach_stays
    | with_reducible apply State.jobLine_stays
    | with_reducible apply held_foldl
    | with_reducible apply held_foldl_fst
    | exact hk.mono rfl
    | exact hk.1 _ rfl rfl
    | exact hk.2 _ rfl
    | exact hk.flds rfl
    | with_reducible apply held_else
    | with_reducible intro _
    | (simp only [↓held_mk]; with_reducible apply held_parts)
    | split
    | with_reducible refine held_of_pair (by assumption) ?_
    | dsimp only

theorem State.newEntry_stays {s : State} (h : Held P m s) (hk : Avoid P []) (q : Nat) (a : BoxAcc) : Held P m (State.newEntry s q a).1 := by
  unfold State.newEntry
  repeat' first
    | with_reducible assumption
    | with_reducible apply State.takeHome_stays
    | with_reducible apply State.takeLocal_stays
    | with_reducible apply held_foldl
    | with_reducible apply held_foldl_fst
    | exact hk.mono rfl
    | exact hk.1 _ rfl rfl
    | exact hk.2 _ rfl
    | exact hk.flds rfl
    | with_reducible apply held_else
    | with_reducible intro _
    | (simp only [↓held_mk]; with_reducible apply held_parts)
    | split
    | with_reducible refine held_of_pair (by assumption) ?_
    | dsimp only

theorem State.openPage_stays {s : State} (h : Held P m s) (hk : Avoid P [.memPc, .memPart, .pmc]) (e : Env) (d : Nat) (q : Nat) (b : Nat) (tok : Nat) (hi : Nat) (box : List Nat) (a : BoxAcc) : Held P m (State.openPage s e d q b tok hi box a).1 := by
  unfold State.openPage
  repeat' first
    | with_reducible assumption
    | with_reducible apply State.pageWrite_stays
    | with_reducible apply held_foldl
    | with_reducible apply held_foldl_fst
    | exact hk.mono rfl
    | exact hk.1 _ rfl rfl
    | exact hk.2 _ rfl
    | exact hk.flds rfl
    | with_reducible apply held_else
    | with_reducible intro _
    | (simp only [↓held_mk]; with_reducible apply held_parts)
    | split
    | with_reducible refine held_of_pair (by assumption) ?_
    | dsimp only

theorem State.storeToken_stays {s : State} (h : Held P m s) (hk : Avoid P [.atnPool, .memPc, .memPart, .pmc]) (e : Env) (d : Nat) (q : Nat) (b : Nat) (tok : Nat) (index : Nat) (box : List Nat) (a : BoxAcc) : Held P m (State.storeToken s e d q b tok index box a).1 := by
  unfold State.storeToken
  repeat' first
    | with_reducible assumption
    | with_reducible apply State.pageWrite_stays
    | with_reducible apply State.count_stays
    | with_reducible apply held_foldl
    | with_reducible apply held_foldl_fst
    | exact hk.mono rfl
    | exact hk.1 _ rfl rfl
    | exact hk.2 _ rfl
    | exact hk.flds rfl
    | with_reducible apply held_else
    | with_reducible intro _
    | (simp only [↓held_mk]; with_reducible apply held_parts)
    | split
    | with_reducible refine held_of_pair (by assumption) ?_
    | dsimp only

theorem State.cutTable_stays {s : State} (h : Held P m s) (hk : Avoid P [.atnPool]) (q : Nat) (ev : Nat) (a : BoxAcc) : Held P m (State.cutTable s q ev a).1 := by
  unfold State.cutTable
  repeat' first
    | with_reducible assumption
    | with_reducible apply State.raise_stays
    | with_reducible apply held_foldl
    | with_reducible apply held_foldl_fst
    | exact hk.mono rfl
    | exact hk.1 _ rfl rfl
    | exact hk.2 _ rfl
    | exact hk.flds rfl
    | with_reducible apply held_else
    | with_reducible intro _
    | (simp only [↓held_mk]; with_reducible apply held_parts)
    | split
    | with_reducible refine held_of_pair (by assumption) ?_
    | dsimp only

theorem State.appendToken_stays {s : State} (h : Held P m s) (hk : Avoid P [.atnPool, .memPc, .memPart, .pmc]) (e : Env) (d : Nat) (q : Nat) (b : Nat) (w : Nat) (box : List Nat) (a : BoxAcc) (tok : Nat) : Held P m (State.appendToken s e d q b w box a tok).1 := by
  unfold State.appendToken
  repeat' first
    | with_reducible assumption
    | with_reducible apply State.count_stays
    | with_reducible apply State.storeToken_stays
    | with_reducible apply State.cutTable_stays
    | with_reducible apply State.newEntry_stays
    | with_reducible apply State.openPage_stays
    | with_reducible apply held_foldl
    | with_reducible apply held_foldl_fst
    | exact hk.mono rfl
    | exact hk.1 _ rfl rfl
    | exact hk.2 _ rfl
    | exact hk.flds rfl
    | with_reducible apply held_else
    | with_reducible intro _
    | (simp only [↓held_mk]; with_reducible apply held_parts)
    | split
    | with_reducible refine held_of_pair (by assumption) ?_
    | dsimp only

theorem State.boxStored_stays {s : State} (h : Held P m s) (hk : Avoid P [.lanPeer, .memPc, .memPart, .pmc]) (e : Env) (q : Nat) (w : Nat) (a : BoxAcc) : Held P m (State.boxStored s e q w a).1 := by
  unfold State.boxStored
  repeat' first
    | with_reducible assumption
    | with_reducible apply State.forEach_stays
    | with_reducible apply State.pageWrite_stays
    | with_reducible apply State.peerSend_stays
    | with_reducible apply State.modPool_stays
    | with_reducible apply State.reapPushes_stays
    | with_reducible apply held_foldl
    | with_reducible apply held_foldl_fst
    | exact hk.mono rfl
    | exact hk.1 _ rfl rfl
    | exact hk.2 _ rfl
    | exact hk.flds rfl
    | with_reducible apply held_else
    | with_reducible intro _
    | (simp only [↓held_mk]; with_reducible apply held_parts)
    | split
    | with_reducible refine held_of_pair (by assumption) ?_
    | dsimp only

theorem State.boxCut_stays {s : State} (h : Held P m s) (hk : Avoid P []) (q : Nat) (old : Nat) (a : BoxAcc) : Held P m (State.boxCut s q old a).1 := by
  unfold State.boxCut
  repeat' first
    | with_reducible assumption
    | with_reducible apply State.forEach_stays
    | with_reducible apply State.freeLocal_stays
    | with_reducible apply held_foldl
    | with_reducible apply held_foldl_fst
    | exact hk.mono rfl
    | exact hk.1 _ rfl rfl
    | exact hk.2 _ rfl
    | exact hk.flds rfl
    | with_reducible apply held_else
    | with_reducible intro _
    | (simp only [↓held_mk]; with_reducible apply held_parts)
    | split
    | with_reducible refine held_of_pair (by assumption) ?_
    | dsimp only

theorem State.skipBox_stays {s : State} (h : Held P m s) (hk : Avoid P [.atnPool]) (box : List Nat) : Held P m (State.skipBox s box) := by
  unfold State.skipBox
  repeat' first
    | with_reducible assumption
    | with_reducible apply State.count_stays
    | with_reducible apply held_foldl
    | with_reducible apply held_foldl_fst
    | exact hk.mono rfl
    | exact hk.1 _ rfl rfl
    | exact hk.2 _ rfl
    | exact hk.flds rfl
    | with_reducible apply held_else
    | with_reducible intro _
    | (simp only [↓held_mk]; with_reducible apply held_parts)
    | split
    | with_reducible refine held_of_pair (by assumption) ?_
    | dsimp only

theorem State.appendBox_stays {s : State} (h : Held P m s) (hk : Avoid P [.lanPeer, .atn, .atnPool, .memPc, .memPart, .pmc]) (e : Env) (d : Nat) (b : Nat) : Held P m (State.appendBox s e d b).1 := by
  unfold State.appendBox
  repeat' first
    | with_reducible assumption
    | with_reducible apply State.skipBox_stays
    | with_reducible apply State.count_stays
    | with_reducible apply State.raise_stays
    | with_reducible apply State.appendToken_stays
    | with_reducible apply State.boxStored_stays
    | with_reducible apply State.boxCut_stays
    | with_reducible apply State.modTable_stays
    | with_reducible apply held_foldl
    | with_reducible apply held_foldl_fst
    | exact hk.mono rfl
    | exact hk.1 _ rfl rfl
    | exact hk.2 _ rfl
    | exact hk.flds rfl
    | with_reducible apply held_else
    | with_reducible intro _
    | (simp only [↓held_mk]; with_reducible apply held_parts)
    | split
    | with_reducible refine held_of_pair (by assumption) ?_
    | dsimp only

theorem State.toIssue_some_stays {s t : State} {p op : Nat} {j : Job} {Q : Plan} {r : StepRun} {x : DescRun} (h : Held P m s)
    (hk : Avoid P [.cmdPart, .clu, .memPc, .memPart, .pmc]) (e : s.toIssue p op = some (t, j, Q, r, x)) : Held P m t := by
  unfold State.toIssue at e
  dsimp only at e
  repeat' (split at e)
  all_goals first
    | (cases e; done)
    | (simp only [Option.bind_eq_some_iff, Option.map_eq_some_iff, Prod.mk.injEq] at e
       obtain ⟨w, hw, cc, -, rfl, -⟩ := e
       refine State.modDesc_stays (State.firstUnit_some_stays ?_ (hk.mono rfl) hw) (hk.mono rfl) _ _ _
       repeat' first
         | exact h
         | exact hk.mono rfl
         | with_reducible apply State.advance_stays
         | with_reducible apply State.beginStep_stays
         | split)

theorem State.requestReads_stays {s : State} (h : Held P m s) (hk : Avoid P [.memPc, .memPart, .pmc]) (e : Env) (r : StepRun) (d : Nat) (x : DescRun) : Held P m (State.requestReads s e r d x) := by
  unfold State.requestReads
  repeat' first
    | with_reducible assumption
    | with_reducible apply State.forEach_stays
    | with_reducible apply State.jobLine_stays
    | with_reducible apply held_foldl
    | with_reducible apply held_foldl_fst
    | exact hk.mono rfl
    | exact hk.1 _ rfl rfl
    | exact hk.2 _ rfl
    | exact hk.flds rfl
    | with_reducible apply held_else
    | with_reducible intro _
    | (simp only [↓held_mk]; with_reducible apply held_parts)
    | split
    | with_reducible refine held_of_pair (by assumption) ?_
    | dsimp only

theorem State.kvAppend_stays {s : State} (h : Held P m s) (hk : Avoid P [.mgt, .cmdPart, .lanPeer, .clu, .atn, .atnPool, .memPc, .mem, .memPart, .ejt, .pmc]) (p : Nat) : Held P m (State.kvAppend s p) := by
  unfold State.kvAppend
  repeat' first
    | with_reducible assumption
    | with_reducible apply State.toIssue_stays
    | with_reducible apply State.requestReads_stays
    | with_reducible apply State.unitBad_stays
    | with_reducible apply State.abortMem_stays
    | with_reducible apply State.appendBox_stays
    | with_reducible apply State.unitDone_stays
    | with_reducible apply held_foldl
    | with_reducible apply held_foldl_fst
    | exact hk.mono rfl
    | exact hk.1 _ rfl rfl
    | exact hk.2 _ rfl
    | exact hk.flds rfl
    | with_reducible apply held_else
    | with_reducible intro _
    | (simp only [↓held_mk]; with_reducible apply held_parts)
    | split
    | with_reducible refine State.toIssue_some_stays ?_ (hk.mono rfl) (by assumption)
    | with_reducible refine held_of_pair (by assumption) ?_
    | dsimp only

theorem State.pageRead_stays {s : State} (h : Held P m s) (hk : Avoid P [.atnPool]) (n : Nat) (idx : Nat) (d : Nat) (q : Nat) (page : Nat) (img : List Nat) : Held P m (State.pageRead s n idx d q page img).1 := by
  unfold State.pageRead
  repeat' first
    | with_reducible assumption
    | with_reducible apply State.modJob_stays
    | with_reducible apply State.raise_stays
    | with_reducible apply State.count_stays
    | with_reducible apply held_foldl
    | with_reducible apply held_foldl_fst
    | exact hk.mono rfl
    | exact hk.1 _ rfl rfl
    | exact hk.2 _ rfl
    | exact hk.flds rfl
    | with_reducible apply held_else
    | with_reducible intro _
    | (simp only [↓held_mk]; with_reducible apply held_parts)
    | split
    | with_reducible refine held_of_pair (by assumption) ?_
    | dsimp only

theorem State.modAttn_stays {s : State} (h : Held P m s) (hk : Avoid P []) (which : AttnRun → Bool) (f : AttnRun → AttnRun) : Held P m (State.modAttn s which f) := by
  unfold State.modAttn
  repeat' first
    | with_reducible assumption
    | with_reducible apply held_foldl
    | with_reducible apply held_foldl_fst
    | exact hk.mono rfl
    | exact hk.1 _ rfl rfl
    | exact hk.2 _ rfl
    | exact hk.flds rfl
    | with_reducible apply held_else
    | with_reducible intro _
    | (simp only [↓held_mk]; with_reducible apply held_parts)
    | split
    | with_reducible refine held_of_pair (by assumption) ?_
    | dsimp only

theorem State.giveUnits_stays {s : State} (h : Held P m s) (hk : Avoid P [])  : Held P m (State.giveUnits s) := by
  unfold State.giveUnits
  repeat' first
    | with_reducible assumption
    | with_reducible apply State.forEach_stays
    | with_reducible apply State.modAttn_stays
    | with_reducible apply held_foldl
    | with_reducible apply held_foldl_fst
    | exact hk.mono rfl
    | exact hk.1 _ rfl rfl
    | exact hk.2 _ rfl
    | exact hk.flds rfl
    | with_reducible apply held_else
    | with_reducible intro _
    | (simp only [↓held_mk]; with_reducible apply held_parts)
    | split
    | with_reducible refine held_of_pair (by assumption) ?_
    | dsimp only

theorem State.sendReqs_stays {s : State} (h : Held P m s) (hk : Avoid P [.lanPeer])  : Held P m (State.sendReqs s) := by
  unfold State.sendReqs
  repeat' first
    | with_reducible assumption
    | with_reducible apply State.forEach_stays
    | with_reducible apply State.takeLocal_stays
    | with_reducible apply State.modAttn_stays
    | with_reducible apply State.peerSend_stays
    | with_reducible apply held_foldl
    | with_reducible apply held_foldl_fst
    | exact hk.mono rfl
    | exact hk.1 _ rfl rfl
    | exact hk.2 _ rfl
    | exact hk.flds rfl
    | with_reducible apply held_else
    | with_reducible intro _
    | (simp only [↓held_mk]; with_reducible apply held_parts)
    | split
    | with_reducible refine held_of_pair (by assumption) ?_
    | dsimp only

theorem State.readBox_stays {s : State} (h : Held P m s) (hk : Avoid P [.mgt, .atnPool, .memPc, .mem, .memPart, .pmc]) (e : Env) (n : Nat) (idx : Nat) (d : Nat) (i : Nat) : Held P m (State.readBox s e n idx d i).1 := by
  unfold State.readBox
  repeat' first
    | with_reducible assumption
    | with_reducible apply State.skipBox_stays
    | with_reducible apply State.raise_stays
    | with_reducible apply State.modTable_stays
    | with_reducible apply State.forEach_stays
    | with_reducible apply State.jobLine_stays
    | with_reducible apply State.consumeBad_stays
    | with_reducible apply State.pageRead_stays
    | with_reducible apply held_foldl
    | with_reducible apply held_foldl_fst
    | exact hk.mono rfl
    | exact hk.1 _ rfl rfl
    | exact hk.2 _ rfl
    | exact hk.flds rfl
    | with_reducible apply held_else
    | with_reducible intro _
    | (simp only [↓held_mk]; with_reducible apply held_parts)
    | split
    | with_reducible refine held_of_pair (by assumption) ?_
    | dsimp only

theorem State.attnWrite_stays {s : State} (h : Held P m s) (hk : Avoid P [.cmdPart, .clu, .atn, .memPc, .memPart, .pmc]) (a : AttnRun) : Held P m (State.attnWrite s a) := by
  unfold State.attnWrite
  repeat' first
    | with_reducible assumption
    | with_reducible apply State.attnDrop_stays
    | with_reducible apply State.count_stays
    | with_reducible apply State.putTile_stays
    | with_reducible apply State.unitDone_stays
    | with_reducible apply held_foldl
    | with_reducible apply held_foldl_fst
    | exact hk.mono rfl
    | exact hk.1 _ rfl rfl
    | exact hk.2 _ rfl
    | exact hk.flds rfl
    | with_reducible apply held_else
    | with_reducible intro _
    | (simp only [↓held_mk]; with_reducible apply held_parts)
    | split
    | with_reducible refine held_of_pair (by assumption) ?_
    | dsimp only

theorem State.readBoxes_stays {s : State} (h : Held P m s) (hk : Avoid P [.mgt, .atnPool, .memPc, .mem, .memPart, .pmc]) (e : Env) (no : Nat) (idx : Nat) (d : Nat) (n : Nat) (bad : Bool) : Held P m (State.readBoxes s e no idx d n bad).1 := by
  unfold State.readBoxes
  repeat' first
    | with_reducible assumption
    | with_reducible apply State.readBox_stays
    | with_reducible apply held_foldl
    | with_reducible apply held_foldl_fst
    | exact hk.mono rfl
    | exact hk.1 _ rfl rfl
    | exact hk.2 _ rfl
    | exact hk.flds rfl
    | with_reducible apply held_else
    | with_reducible intro _
    | (simp only [↓held_mk]; with_reducible apply held_parts)
    | split
    | with_reducible refine held_of_pair (by assumption) ?_
    | dsimp only

theorem State.attnStart_stays {s : State} (h : Held P m s) (hk : Avoid P [.cmdPart, .lanPeer, .clu, .atn, .memPc, .memPart, .ejt, .pmc]) (a : AttnRun) (bad : Bool) : Held P m (State.attnStart s a bad) := by
  unfold State.attnStart
  repeat' first
    | with_reducible assumption
    | with_reducible apply State.abortMem_stays
    | with_reducible apply State.attnWrite_stays
    | with_reducible apply State.sendReqs_stays
    | with_reducible apply State.giveUnits_stays
    | with_reducible apply held_foldl
    | with_reducible apply held_foldl_fst
    | exact hk.mono rfl
    | exact hk.1 _ rfl rfl
    | exact hk.2 _ rfl
    | exact hk.flds rfl
    | with_reducible apply held_else
    | with_reducible intro _
    | (simp only [↓held_mk]; with_reducible apply held_parts)
    | split
    | with_reducible refine held_of_pair (by assumption) ?_
    | dsimp only

theorem State.attnIssue_stays {s : State} (h : Held P m s) (hk : Avoid P [.mgt, .cmdPart, .lanPeer, .clu, .atn, .atnPool, .memPc, .mem, .memPart, .ejt, .pmc]) (p : Nat) : Held P m (State.attnIssue s p) := by
  unfold State.attnIssue
  repeat' first
    | with_reducible assumption
    | with_reducible apply State.toIssue_stays
    | with_reducible apply State.requestReads_stays
    | with_reducible apply State.unitBad_stays
    | with_reducible apply State.readBoxes_stays
    | with_reducible apply State.forEach_stays
    | with_reducible apply State.skipBox_stays
    | with_reducible apply State.attnStart_stays
    | with_reducible apply held_foldl
    | with_reducible apply held_foldl_fst
    | exact hk.mono rfl
    | exact hk.1 _ rfl rfl
    | exact hk.2 _ rfl
    | exact hk.flds rfl
    | with_reducible apply held_else
    | with_reducible intro _
    | (simp only [↓held_mk]; with_reducible apply held_parts)
    | split
    | with_reducible refine State.toIssue_some_stays ?_ (hk.mono rfl) (by assumption)
    | with_reducible refine held_of_pair (by assumption) ?_
    | dsimp only

theorem State.unitEnds_stays {s : State} (h : Held P m s) (hk : Avoid P [.cmdPart, .lanPeer, .clu, .atn, .memPc, .memPart, .pmc]) (k : Nat) : Held P m (State.unitEnds s k) := by
  unfold State.unitEnds
  repeat' first
    | with_reducible assumption
    | with_reducible apply State.modAttn_stays
    | with_reducible apply State.count_stays
    | with_reducible apply State.pmc_stays
    | with_reducible apply State.attnWrite_stays
    | with_reducible apply State.drain_stays
    | with_reducible apply State.sendReqs_stays
    | with_reducible apply State.giveUnits_stays
    | with_reducible apply held_foldl
    | with_reducible apply held_foldl_fst
    | exact hk.mono rfl
    | exact hk.1 _ rfl rfl
    | exact hk.2 _ rfl
    | exact hk.flds rfl
    | with_reducible apply held_else
    | with_reducible intro _
    | (simp only [↓held_mk]; with_reducible apply held_parts)
    | split
    | with_reducible refine held_of_pair (by assumption) ?_
    | dsimp only

theorem State.pageMissing_stays {s : State} (h : Held P m s) (hk : Avoid P [.atnPool]) (a : AttnRun) (q : PageReq) : Held P m (State.pageMissing s a q) := by
  unfold State.pageMissing
  repeat' first
    | with_reducible assumption
    | with_reducible apply State.modAttn_stays
    | with_reducible apply State.raise_stays
    | with_reducible apply State.count_stays
    | with_reducible apply held_foldl
    | with_reducible apply held_foldl_fst
    | exact hk.mono rfl
    | exact hk.1 _ rfl rfl
    | exact hk.2 _ rfl
    | exact hk.flds rfl
    | with_reducible apply held_else
    | with_reducible intro _
    | (simp only [↓held_mk]; with_reducible apply held_parts)
    | split
    | with_reducible refine held_of_pair (by assumption) ?_
    | dsimp only

theorem State.pageReply_stays {s : State} (h : Held P m s) (hk : Avoid P [.atnPool, .memPc, .memPart, .pmc]) (a : AttnRun) (q : PageReq) (img : List Nat) : Held P m (State.pageReply s a q img) := by
  unfold State.pageReply
  repeat' first
    | with_reducible assumption
    | with_reducible apply State.pageMissing_stays
    | with_reducible apply State.pageWrite_stays
    | with_reducible apply State.pageRead_stays
    | with_reducible apply State.modAttn_stays
    | with_reducible apply held_foldl
    | with_reducible apply held_foldl_fst
    | exact hk.mono rfl
    | exact hk.1 _ rfl rfl
    | exact hk.2 _ rfl
    | exact hk.flds rfl
    | with_reducible apply held_else
    | with_reducible intro _
    | (simp only [↓held_mk]; with_reducible apply held_parts)
    | split
    | with_reducible refine held_of_pair (by assumption) ?_
    | dsimp only

theorem State.kvPage_stays {s : State} (h : Held P m s) (hk : Avoid P [.lanPeer, .atnPool, .memPc, .memPart, .pmc]) (g : Nat) (m_ : PeerMsg) : Held P m (State.kvPage s g m_) := by
  unfold State.kvPage
  repeat' first
    | with_reducible assumption
    | with_reducible apply State.pageReply_stays
    | with_reducible apply State.sendReqs_stays
    | with_reducible apply State.count_stays
    | with_reducible apply State.devWriteFor_stays
    | with_reducible apply State.modPool_stays
    | with_reducible apply held_foldl
    | with_reducible apply held_foldl_fst
    | exact hk.mono rfl
    | exact hk.1 _ rfl rfl
    | exact hk.2 _ rfl
    | exact hk.flds rfl
    | with_reducible apply held_else
    | with_reducible intro _
    | (simp only [↓held_mk]; with_reducible apply held_parts)
    | split
    | with_reducible refine held_of_pair (by assumption) ?_
    | dsimp only

theorem State.kvReq_stays {s : State} (h : Held P m s) (hk : Avoid P [.mgt, .lanPeer, .atnPool, .memPc, .mem, .pmc]) (g : Nat) (m_ : PeerMsg) : Held P m (State.kvReq s g m_) := by
  unfold State.kvReq
  repeat' first
    | with_reducible assumption
    | with_reducible apply State.count_stays
    | with_reducible apply State.peerSend_stays
    | with_reducible apply State.countRd_stays
    | with_reducible apply State.consumeBad_stays
    | with_reducible apply held_foldl
    | with_reducible apply held_foldl_fst
    | exact hk.mono rfl
    | exact hk.1 _ rfl rfl
    | exact hk.2 _ rfl
    | exact hk.flds rfl
    | with_reducible apply held_else
    | with_reducible intro _
    | (simp only [↓held_mk]; with_reducible apply held_parts)
    | split
    | with_reducible refine held_of_pair (by assumption) ?_
    | dsimp only

theorem State.peerReadTimeout_stays {s : State} (h : Held P m s) (hk : Avoid P [.atnPool])  : Held P m (State.peerReadTimeout s) := by
  unfold State.peerReadTimeout
  repeat' first
    | with_reducible assumption
    | with_reducible apply State.pageMissing_stays
    | with_reducible apply held_foldl
    | with_reducible apply held_foldl_fst
    | exact hk.mono rfl
    | exact hk.1 _ rfl rfl
    | exact hk.2 _ rfl
    | exact hk.flds rfl
    | with_reducible apply held_else
    | with_reducible intro _
    | (simp only [↓held_mk]; with_reducible apply held_parts)
    | split
    | with_reducible refine held_of_pair (by assumption) ?_
    | dsimp only

theorem State.cacheFill_stays {s : State} (h : Held P m s) (hk : Avoid P [.memPc, .pmc]) (p : Nat) (job : Nat) (d : DecImage) : Held P m (State.cacheFill s p job d) := by
  unfold State.cacheFill
  repeat' first
    | with_reducible assumption
    | with_reducible apply State.devWriteFor_stays
    | with_reducible apply held_foldl
    | with_reducible apply held_foldl_fst
    | exact hk.mono rfl
    | exact hk.1 _ rfl rfl
    | exact hk.2 _ rfl
    | exact hk.flds rfl
    | with_reducible apply held_else
    | with_reducible intro _
    | (simp only [↓held_mk]; with_reducible apply held_parts)
    | split
    | with_reducible refine held_of_pair (by assumption) ?_
    | dsimp only

theorem State.cacheCommit_stays {s : State} (h : Held P m s) (hk : Avoid P [.memPc, .pmc]) (p : Nat) (job : Nat) (entries : List (List Nat)) : Held P m (State.cacheCommit s p job entries) := by
  unfold State.cacheCommit
  repeat' first
    | with_reducible assumption
    | with_reducible apply State.forEach_stays
    | with_reducible apply State.devWriteFor_stays
    | with_reducible apply held_foldl
    | with_reducible apply held_foldl_fst
    | exact hk.mono rfl
    | exact hk.1 _ rfl rfl
    | exact hk.2 _ rfl
    | exact hk.flds rfl
    | with_reducible apply held_else
    | with_reducible intro _
    | (simp only [↓held_mk]; with_reducible apply held_parts)
    | split
    | with_reducible refine held_of_pair (by assumption) ?_
    | dsimp only

theorem State.cacheFlush_stays {s : State} (h : Held P m s) (hk : Avoid P [.memPc, .pmc])  : Held P m (State.cacheFlush s) := by
  unfold State.cacheFlush
  repeat' first
    | with_reducible assumption
    | with_reducible apply State.forEach_stays
    | with_reducible apply State.devWriteFor_stays
    | with_reducible apply held_foldl
    | with_reducible apply held_foldl_fst
    | exact hk.mono rfl
    | exact hk.1 _ rfl rfl
    | exact hk.2 _ rfl
    | exact hk.flds rfl
    | with_reducible apply held_else
    | with_reducible intro _
    | (simp only [↓held_mk]; with_reducible apply held_parts)
    | split
    | with_reducible refine held_of_pair (by assumption) ?_
    | dsimp only

theorem State.modDec_stays {s : State} (h : Held P m s) (hk : Avoid P []) (x : DecFetch) (f : DecFetch → DecFetch) : Held P m (State.modDec s x f) := by
  unfold State.modDec
  repeat' first
    | with_reducible assumption
    | with_reducible apply held_foldl
    | with_reducible apply held_foldl_fst
    | exact hk.mono rfl
    | exact hk.1 _ rfl rfl
    | exact hk.2 _ rfl
    | exact hk.flds rfl
    | with_reducible apply held_else
    | with_reducible intro _
    | (simp only [↓held_mk]; with_reducible apply held_parts)
    | split
    | with_reducible refine held_of_pair (by assumption) ?_
    | dsimp only

theorem State.giveSlots_stays {s : State} (h : Held P m s) (hk : Avoid P [])  : Held P m (State.giveSlots s) := by
  unfold State.giveSlots
  repeat' first
    | with_reducible assumption
    | with_reducible apply State.forEach_stays
    | with_reducible apply State.modDec_stays
    | with_reducible apply held_foldl
    | with_reducible apply held_foldl_fst
    | exact hk.mono rfl
    | exact hk.1 _ rfl rfl
    | exact hk.2 _ rfl
    | exact hk.flds rfl
    | with_reducible apply held_else
    | with_reducible intro _
    | (simp only [↓held_mk]; with_reducible apply held_parts)
    | split
    | with_reducible refine held_of_pair (by assumption) ?_
    | dsimp only

theorem State.decFetch_stays {s : State} (h : Held P m s) (hk : Avoid P [.mgt, .cmdPart, .clu, .memPc, .mem, .memPart, .ejt, .pmc]) (p : Nat) : Held P m (State.decFetch s p) := by
  unfold State.decFetch
  repeat' first
    | with_reducible assumption
    | with_reducible apply State.toIssue_stays
    | with_reducible apply State.forEach_stays
    | with_reducible apply State.jobLine_stays
    | with_reducible apply State.ueFound_stays
    | with_reducible apply State.abortMem_stays
    | with_reducible apply State.giveSlots_stays
    | with_reducible apply held_foldl
    | with_reducible apply held_foldl_fst
    | exact hk.mono rfl
    | exact hk.1 _ rfl rfl
    | exact hk.2 _ rfl
    | exact hk.flds rfl
    | with_reducible apply held_else
    | with_reducible intro _
    | (simp only [↓held_mk]; with_reducible apply held_parts)
    | split
    | with_reducible refine State.toIssue_some_stays ?_ (hk.mono rfl) (by assumption)
    | with_reducible refine held_of_pair (by assumption) ?_
    | dsimp only

theorem State.sampleDecoded_stays {s : State} (h : Held P m s) (hk : Avoid P [.mgt, .cmdPart, .clu, .memPc, .mem, .memPart, .dec, .ejt, .pmc]) (k : Nat) : Held P m (State.sampleDecoded s k) := by
  unfold State.sampleDecoded
  repeat' first
    | with_reducible assumption
    | with_reducible apply State.modDec_stays
    | with_reducible apply State.giveSlots_stays
    | with_reducible apply State.forEach_stays
    | with_reducible apply State.jobLine_stays
    | with_reducible apply State.ueFound_stays
    | with_reducible apply State.abortMem_stays
    | with_reducible apply State.count_stays
    | with_reducible apply State.pmc_stays
    | with_reducible apply held_foldl
    | with_reducible apply held_foldl_fst
    | exact hk.mono rfl
    | exact hk.1 _ rfl rfl
    | exact hk.2 _ rfl
    | exact hk.flds rfl
    | with_reducible apply held_else
    | with_reducible intro _
    | (simp only [↓held_mk]; with_reducible apply held_parts)
    | split
    | with_reducible refine held_of_pair (by assumption) ?_
    | dsimp only

theorem State.sampleEvents_stays {s : State} (h : Held P m s) (hk : Avoid P [.dec]) (job : Nat) (slot : Nat) (img : DecImage) : Held P m (State.sampleEvents s job slot img) := by
  unfold State.sampleEvents
  repeat' first
    | with_reducible assumption
    | with_reducible apply State.count_stays
    | with_reducible apply State.raise_stays
    | with_reducible apply held_foldl
    | with_reducible apply held_foldl_fst
    | exact hk.mono rfl
    | exact hk.1 _ rfl rfl
    | exact hk.2 _ rfl
    | exact hk.flds rfl
    | with_reducible apply held_else
    | with_reducible intro _
    | (simp only [↓held_mk]; with_reducible apply held_parts)
    | split
    | with_reducible refine held_of_pair (by assumption) ?_
    | dsimp only

theorem State.deliver_stays {s : State} (h : Held P m s) (hk : Avoid P [.cmdPart, .clu, .memPc, .memPart, .dec, .pmc]) (x : DecFetch) (img : DecImage) : Held P m (State.deliver s x img) := by
  unfold State.deliver
  repeat' first
    | with_reducible assumption
    | with_reducible apply State.putTile_stays
    | with_reducible apply State.cacheFill_stays
    | with_reducible apply State.sampleEvents_stays
    | with_reducible apply State.modDec_stays
    | with_reducible apply State.giveSlots_stays
    | with_reducible apply State.unitDone_stays
    | with_reducible apply held_foldl
    | with_reducible apply held_foldl_fst
    | exact hk.mono rfl
    | exact hk.1 _ rfl rfl
    | exact hk.2 _ rfl
    | exact hk.flds rfl
    | with_reducible apply held_else
    | with_reducible intro _
    | (simp only [↓held_mk]; with_reducible apply held_parts)
    | split
    | with_reducible refine held_of_pair (by assumption) ?_
    | dsimp only

theorem State.sampleDelivered_stays {s : State} (h : Held P m s) (hk : Avoid P [.cmdPart, .clu, .memPc, .memPart, .dec, .pmc])  : Held P m (State.sampleDelivered s) := by
  unfold State.sampleDelivered
  repeat' first
    | with_reducible assumption
    | with_reducible apply State.deliver_stays
    | with_reducible apply held_foldl
    | with_reducible apply held_foldl_fst
    | exact hk.mono rfl
    | exact hk.1 _ rfl rfl
    | exact hk.2 _ rfl
    | exact hk.flds rfl
    | with_reducible apply held_else
    | with_reducible intro _
    | (simp only [↓held_mk]; with_reducible apply held_parts)
    | split
    | with_reducible refine held_of_pair (by assumption) ?_
    | dsimp only

theorem State.decCommit_stays {s : State} (h : Held P m s) (hk : Avoid P [.cmdPart, .clu, .memPc, .memPart, .pmc]) (p : Nat) : Held P m (State.decCommit s p) := by
  unfold State.decCommit
  repeat' first
    | with_reducible assumption
    | with_reducible apply State.toIssue_stays
    | with_reducible apply State.putList_stays
    | with_reducible apply State.cacheCommit_stays
    | with_reducible apply State.unitDone_stays
    | with_reducible apply held_foldl
    | with_reducible apply held_foldl_fst
    | exact hk.mono rfl
    | exact hk.1 _ rfl rfl
    | exact hk.2 _ rfl
    | exact hk.flds rfl
    | with_reducible apply held_else
    | with_reducible intro _
    | (simp only [↓held_mk]; with_reducible apply held_parts)
    | split
    | with_reducible refine State.toIssue_some_stays ?_ (hk.mono rfl) (by assumption)
    | with_reducible refine held_of_pair (by assumption) ?_
    | dsimp only

theorem State.flushWrite_stays {s : State} (h : Held P m s) (hk : Avoid P [.memPc, .pmc])  : Held P m (State.flushWrite s) := by
  unfold State.flushWrite
  repeat' first
    | with_reducible assumption
    | with_reducible apply State.cacheFlush_stays
    | with_reducible apply held_foldl
    | with_reducible apply held_foldl_fst
    | exact hk.mono rfl
    | exact hk.1 _ rfl rfl
    | exact hk.2 _ rfl
    | exact hk.flds rfl
    | with_reducible apply held_else
    | with_reducible intro _
    | (simp only [↓held_mk]; with_reducible apply held_parts)
    | split
    | with_reducible refine held_of_pair (by assumption) ?_
    | dsimp only

theorem State.pmcDetect_stays {s : State} (h : Held P m s) (hk : Avoid P [.pmc]) (n : Nat) (v : Nat) : Held P m (State.pmcDetect s n v) := by
  unfold State.pmcDetect
  repeat' first
    | with_reducible assumption
    | with_reducible apply State.set_stays
    | with_reducible apply State.raise_stays
    | with_reducible apply State.pmc_stays
    | with_reducible apply held_foldl
    | with_reducible apply held_foldl_fst
    | exact hk.mono rfl
    | exact hk.1 _ rfl rfl
    | exact hk.2 _ rfl
    | exact hk.flds rfl
    | with_reducible apply held_else
    | with_reducible intro _
    | (simp only [↓held_mk]; with_reducible apply held_parts)
    | split
    | with_reducible refine held_of_pair (by assumption) ?_
    | dsimp only

theorem State.pmcTicks_stays {s : State} (h : Held P m s) (hk : Avoid P [.pmc]) (k : Nat) (n : Nat) : Held P m (State.pmcTicks s k n) := by
  unfold State.pmcTicks
  repeat' first
    | with_reducible assumption
    | with_reducible apply State.pmcAdd_stays
    | with_reducible apply State.set_stays
    | with_reducible apply State.pmcDetect_stays
    | with_reducible apply held_foldl
    | with_reducible apply held_foldl_fst
    | exact hk.mono rfl
    | exact hk.1 _ rfl rfl
    | exact hk.2 _ rfl
    | exact hk.flds rfl
    | with_reducible apply held_else
    | with_reducible intro _
    | (simp only [↓held_mk]; with_reducible apply held_parts)
    | split
    | with_reducible refine held_of_pair (by assumption) ?_
    | dsimp only

theorem State.pmcCluTicks_stays {s : State} (h : Held P m s) (hk : Avoid P [.clu]) (k : Nat) (phys : Nat) : Held P m (State.pmcCluTicks s k phys) := by
  unfold State.pmcCluTicks
  repeat' first
    | with_reducible assumption
    | with_reducible apply State.forEach_stays
    | with_reducible apply State.code_stays
    | with_reducible apply State.set_stays
    | with_reducible apply State.raise_stays
    | with_reducible apply held_foldl
    | with_reducible apply held_foldl_fst
    | exact hk.mono rfl
    | exact hk.1 _ rfl rfl
    | exact hk.2 _ rfl
    | exact hk.flds rfl
    | with_reducible apply held_else
    | with_reducible intro _
    | (simp only [↓held_mk]; with_reducible apply held_parts)
    | split
    | with_reducible refine held_of_pair (by assumption) ?_
    | dsimp only

theorem State.pmcSample_stays {s : State} (h : Held P m s) (hk : Avoid P [.clu, .pmc]) (k : Nat) : Held P m (State.pmcSample s k) := by
  unfold State.pmcSample
  repeat' first
    | with_reducible assumption
    | with_reducible apply State.forEach_stays
    | with_reducible apply State.pmcTicks_stays
    | with_reducible apply State.pmcCluTicks_stays
    | with_reducible apply held_foldl
    | with_reducible apply held_foldl_fst
    | exact hk.mono rfl
    | exact hk.1 _ rfl rfl
    | exact hk.2 _ rfl
    | exact hk.flds rfl
    | with_reducible apply held_else
    | with_reducible intro _
    | (simp only [↓held_mk]; with_reducible apply held_parts)
    | split
    | with_reducible refine held_of_pair (by assumption) ?_
    | dsimp only

theorem State.runTicks_stays {s : State} (h : Held P m s) (hk : Avoid P [.clu, .tim, .pmc]) (k : Nat) : Held P m (State.runTicks s k) := by
  unfold State.runTicks
  repeat' first
    | with_reducible assumption
    | with_reducible apply State.pmcSample_stays
    | with_reducible apply State.pass_stays
    | with_reducible apply held_foldl
    | with_reducible apply held_foldl_fst
    | exact hk.mono rfl
    | exact hk.1 _ rfl rfl
    | exact hk.2 _ rfl
    | exact hk.flds rfl
    | with_reducible apply held_else
    | with_reducible intro _
    | (simp only [↓held_mk]; with_reducible apply held_parts)
    | split
    | with_reducible refine held_of_pair (by assumption) ?_
    | dsimp only

theorem State.runTo_stays {s : State} (h : Held P m s) (hk : Avoid P [.clu, .tim, .pmc]) (tick : Nat) : Held P m (State.runTo s tick) := by
  unfold State.runTo
  repeat' first
    | with_reducible assumption
    | with_reducible apply State.runTicks_stays
    | with_reducible apply held_foldl
    | with_reducible apply held_foldl_fst
    | exact hk.mono rfl
    | exact hk.1 _ rfl rfl
    | exact hk.2 _ rfl
    | exact hk.flds rfl
    | with_reducible apply held_else
    | with_reducible intro _
    | (simp only [↓held_mk]; with_reducible apply held_parts)
    | split
    | with_reducible refine held_of_pair (by assumption) ?_
    | dsimp only

theorem State.runToTime_stays {s : State} (h : Held P m s) (hk : Avoid P [.clu, .tim, .pmc]) (sec : Nat) (ns : Nat) : Held P m (State.runToTime s sec ns) := by
  unfold State.runToTime
  repeat' first
    | with_reducible assumption
    | with_reducible apply State.runTicks_stays
    | with_reducible apply held_foldl
    | with_reducible apply held_foldl_fst
    | exact hk.mono rfl
    | exact hk.1 _ rfl rfl
    | exact hk.2 _ rfl
    | exact hk.flds rfl
    | with_reducible apply held_else
    | with_reducible intro _
    | (simp only [↓held_mk]; with_reducible apply held_parts)
    | split
    | with_reducible refine held_of_pair (by assumption) ?_
    | dsimp only

theorem State.runToNs_stays {s : State} (h : Held P m s) (hk : Avoid P [.clu, .tim, .pmc]) (t : Nat) : Held P m (State.runToNs s t) := by
  unfold State.runToNs
  repeat' first
    | with_reducible assumption
    | with_reducible apply State.runToTime_stays
    | with_reducible apply held_foldl
    | with_reducible apply held_foldl_fst
    | exact hk.mono rfl
    | exact hk.1 _ rfl rfl
    | exact hk.2 _ rfl
    | exact hk.flds rfl
    | with_reducible apply held_else
    | with_reducible intro _
    | (simp only [↓held_mk]; with_reducible apply held_parts)
    | split
    | with_reducible refine held_of_pair (by assumption) ?_
    | dsimp only

theorem State.activeGone_stays {s : State} (h : Held P m s) (hk : Avoid P [.lan, .capCtx, .cap, .enc, .trk, .ejt, .fio, .pmc])  : Held P m (State.activeGone s) := by
  unfold State.activeGone
  repeat' first
    | with_reducible assumption
    | with_reducible apply State.set_stays
    | with_reducible apply State.raise_stays
    | with_reducible apply State.trkBackup_stays
    | with_reducible apply State.capPosition_stays
    | with_reducible apply State.beltAbandon_stays
    | with_reducible apply held_foldl
    | with_reducible apply held_foldl_fst
    | exact hk.mono rfl
    | exact hk.1 _ rfl rfl
    | exact hk.2 _ rfl
    | exact hk.flds rfl
    | with_reducible apply held_else
    | with_reducible intro _
    | (simp only [↓held_mk]; with_reducible apply held_parts)
    | split
    | with_reducible refine held_of_pair (by assumption) ?_
    | dsimp only

theorem State.encRetire_stays {s : State} (h : Held P m s) (hk : Avoid P [.mgt, .lan, .capCtx, .cap, .enc, .trk, .ejt, .fio, .pmc]) (e : Nat) : Held P m (State.encRetire s e) := by
  unfold State.encRetire
  repeat' first
    | with_reducible assumption
    | with_reducible apply State.set_stays
    | with_reducible apply State.raise_stays
    | with_reducible apply State.channelRetired_stays
    | with_reducible apply State.activeGone_stays
    | with_reducible apply held_foldl
    | with_reducible apply held_foldl_fst
    | exact hk.mono rfl
    | exact hk.1 _ rfl rfl
    | exact hk.2 _ rfl
    | exact hk.flds rfl
    | with_reducible apply held_else
    | with_reducible intro _
    | (simp only [↓held_mk]; with_reducible apply held_parts)
    | split
    | with_reducible refine held_of_pair (by assumption) ?_
    | dsimp only

theorem State.encUpset_stays {s : State} (h : Held P m s) (hk : Avoid P [.mgt, .lan, .capCtx, .cap, .enc, .trk, .ejt, .fio, .pmc]) (e : Nat) : Held P m (State.encUpset s e) := by
  unfold State.encUpset
  repeat' first
    | with_reducible assumption
    | with_reducible apply State.addUpset_stays
    | with_reducible apply State.encRetire_stays
    | with_reducible apply held_foldl
    | with_reducible apply held_foldl_fst
    | exact hk.mono rfl
    | exact hk.1 _ rfl rfl
    | exact hk.2 _ rfl
    | exact hk.flds rfl
    | with_reducible apply held_else
    | with_reducible intro _
    | (simp only [↓held_mk]; with_reducible apply held_parts)
    | split
    | with_reducible refine held_of_pair (by assumption) ?_
    | dsimp only

theorem State.encTaken_stays {s : State} (h : Held P m s) (hk : Avoid P [.lan, .capCtx, .cap, .enc, .trk, .ejt, .pmc]) (e : Nat) (delta : Int) : Held P m (State.encTaken s e delta) := by
  unfold State.encTaken
  repeat' first
    | with_reducible assumption
    | with_reducible apply State.encCounts_stays
    | with_reducible apply State.set_stays
    | with_reducible apply State.capPosition_stays
    | with_reducible apply held_foldl
    | with_reducible apply held_foldl_fst
    | exact hk.mono rfl
    | exact hk.1 _ rfl rfl
    | exact hk.2 _ rfl
    | exact hk.flds rfl
    | with_reducible apply held_else
    | with_reducible intro _
    | (simp only [↓held_mk]; with_reducible apply held_parts)
    | split
    | with_reducible refine held_of_pair (by assumption) ?_
    | dsimp only

theorem State.encEdge_stays {s : State} (h : Held P m s) (hk : Avoid P [.mgt, .lan, .capCtx, .cap, .enc, .trk, .ejt, .fio, .pmc]) (e : Nat) (a : Bool) (b : Bool) : Held P m (State.encEdge s e a b) := by
  unfold State.encEdge
  repeat' first
    | with_reducible assumption
    | with_reducible apply State.set_stays
    | with_reducible apply State.encTaken_stays
    | with_reducible apply State.count_stays
    | with_reducible apply State.raise_stays
    | with_reducible apply State.encUpset_stays
    | with_reducible apply held_foldl
    | with_reducible apply held_foldl_fst
    | exact hk.mono rfl
    | exact hk.1 _ rfl rfl
    | exact hk.2 _ rfl
    | exact hk.flds rfl
    | with_reducible apply held_else
    | with_reducible intro _
    | (simp only [↓held_mk]; with_reducible apply held_parts)
    | split
    | with_reducible refine held_of_pair (by assumption) ?_
    | dsimp only

theorem State.encIndex_stays {s : State} (h : Held P m s) (hk : Avoid P [.enc, .tim]) (e : Nat) (high : Bool) : Held P m (State.encIndex s e high) := by
  unfold State.encIndex
  repeat' first
    | with_reducible assumption
    | with_reducible apply State.set_stays
    | with_reducible apply State.countWrap_stays
    | with_reducible apply State.raise_stays
    | with_reducible apply State.timCapture_stays
    | with_reducible apply held_foldl
    | with_reducible apply held_foldl_fst
    | exact hk.mono rfl
    | exact hk.1 _ rfl rfl
    | exact hk.2 _ rfl
    | exact hk.flds rfl
    | with_reducible apply held_else
    | with_reducible intro _
    | (simp only [↓held_mk]; with_reducible apply held_parts)
    | split
    | with_reducible refine held_of_pair (by assumption) ?_
    | dsimp only

theorem State.encBad_stays {s : State} (h : Held P m s) (hk : Avoid P [.mgt, .lan, .capCtx, .cap, .enc, .trk, .ejt, .fio, .pmc]) (e : Nat) : Held P m (State.encBad s e) := by
  unfold State.encBad
  repeat' first
    | with_reducible assumption
    | with_reducible apply State.count_stays
    | with_reducible apply State.set_stays
    | with_reducible apply State.raise_stays
    | with_reducible apply State.encUpset_stays
    | with_reducible apply State.encRetire_stays
    | with_reducible apply held_foldl
    | with_reducible apply held_foldl_fst
    | exact hk.mono rfl
    | exact hk.1 _ rfl rfl
    | exact hk.2 _ rfl
    | exact hk.flds rfl
    | with_reducible apply held_else
    | with_reducible intro _
    | (simp only [↓held_mk]; with_reducible apply held_parts)
    | split
    | with_reducible refine held_of_pair (by assumption) ?_
    | dsimp only

theorem State.absComplete_stays {s : State} (h : Held P m s) (hk : Avoid P [.mgt, .lan, .capCtx, .cap, .enc, .trk, .ejt, .fio, .pmc]) (e : Nat) (samples : List Bool) : Held P m (State.absComplete s e samples) := by
  unfold State.absComplete
  repeat' first
    | with_reducible assumption
    | with_reducible apply State.set_stays
    | with_reducible apply State.encBad_stays
    | with_reducible apply State.encTaken_stays
    | with_reducible apply held_foldl
    | with_reducible apply held_foldl_fst
    | exact hk.mono rfl
    | exact hk.1 _ rfl rfl
    | exact hk.2 _ rfl
    | exact hk.flds rfl
    | with_reducible apply held_else
    | with_reducible intro _
    | (simp only [↓held_mk]; with_reducible apply held_parts)
    | split
    | with_reducible refine held_of_pair (by assumption) ?_
    | dsimp only

theorem State.scSample_stays {s : State} (h : Held P m s) (hk : Avoid P [.mgt, .lan, .capCtx, .cap, .clu, .enc, .tim, .trk, .ejt, .fio, .pmc]) (e : Nat) (sn : Int) (cs : Int) : Held P m (State.scSample s e sn cs) := by
  unfold State.scSample
  repeat' first
    | with_reducible assumption
    | with_reducible apply State.runTo_stays
    | with_reducible apply State.set_stays
    | with_reducible apply State.encBad_stays
    | with_reducible apply State.encTaken_stays
    | with_reducible apply held_foldl
    | with_reducible apply held_foldl_fst
    | exact hk.mono rfl
    | exact hk.1 _ rfl rfl
    | exact hk.2 _ rfl
    | exact hk.flds rfl
    | with_reducible apply held_else
    | with_reducible intro _
    | (simp only [↓held_mk]; with_reducible apply held_parts)
    | split
    | with_reducible refine held_of_pair (by assumption) ?_
    | dsimp only

theorem State.encRequest_stays {s : State} (h : Held P m s) (hk : Avoid P [.enc]) (e : Nat) (unit : Nat) : Held P m (State.encRequest s e unit) := by
  unfold State.encRequest
  repeat' first
    | with_reducible assumption
    | with_reducible apply State.count_stays
    | with_reducible apply State.raise_stays
    | with_reducible apply State.set_stays
    | with_reducible apply held_foldl
    | with_reducible apply held_foldl_fst
    | exact hk.mono rfl
    | exact hk.1 _ rfl rfl
    | exact hk.2 _ rfl
    | exact hk.flds rfl
    | with_reducible apply held_else
    | with_reducible intro _
    | (simp only [↓held_mk]; with_reducible apply held_parts)
    | split
    | with_reducible refine held_of_pair (by assumption) ?_
    | dsimp only

theorem State.ejtSpeed_stays {s : State} (h : Held P m s) (hk : Avoid P [.ejt]) (rate : Nat) : Held P m (State.ejtSpeed s rate) := by
  unfold State.ejtSpeed
  repeat' first
    | with_reducible assumption
    | with_reducible apply State.set_stays
    | with_reducible apply State.raise_stays
    | with_reducible apply State.reserveAll_stays
    | with_reducible apply held_foldl
    | with_reducible apply held_foldl_fst
    | exact hk.mono rfl
    | exact hk.1 _ rfl rfl
    | exact hk.2 _ rfl
    | exact hk.flds rfl
    | with_reducible apply held_else
    | with_reducible intro _
    | (simp only [↓held_mk]; with_reducible apply held_parts)
    | split
    | with_reducible refine held_of_pair (by assumption) ?_
    | dsimp only

theorem State.speedEnd_stays {s : State} (h : Held P m s) (hk : Avoid P [.clu, .enc, .tim, .ejt, .pmc]) (e : Nat) : Held P m (State.speedEnd s e) := by
  unfold State.speedEnd
  repeat' first
    | with_reducible assumption
    | with_reducible apply State.runTo_stays
    | with_reducible apply State.set_stays
    | with_reducible apply State.ejtSpeed_stays
    | with_reducible apply held_foldl
    | with_reducible apply held_foldl_fst
    | exact hk.mono rfl
    | exact hk.1 _ rfl rfl
    | exact hk.2 _ rfl
    | exact hk.flds rfl
    | with_reducible apply held_else
    | with_reducible intro _
    | (simp only [↓held_mk]; with_reducible apply held_parts)
    | split
    | with_reducible refine held_of_pair (by assumption) ?_
    | dsimp only

theorem State.encSelect_stays {s : State} (h : Held P m s) (hk : Avoid P [.enc]) (fn : Nat) (belt : Nat) (backup : Nat) (en : Bool) : Held P m (State.encSelect s fn belt backup en) := by
  unfold State.encSelect
  repeat' first
    | with_reducible assumption
    | with_reducible apply State.code_stays
    | with_reducible apply State.set_stays
    | with_reducible apply held_foldl
    | with_reducible apply held_foldl_fst
    | exact hk.mono rfl
    | exact hk.1 _ rfl rfl
    | exact hk.2 _ rfl
    | exact hk.flds rfl
    | with_reducible apply held_else
    | with_reducible intro _
    | (simp only [↓held_mk]; with_reducible apply held_parts)
    | split
    | with_reducible refine held_of_pair (by assumption) ?_
    | dsimp only

theorem State.setTarget_stays {s : State} (h : Held P m s) (hk : Avoid P [.tim]) (n : Nat) (t : Nat) : Held P m (State.setTarget s n t) := by
  unfold State.setTarget
  repeat' first
    | with_reducible assumption
    | with_reducible apply State.set_stays
    | with_reducible apply held_foldl
    | with_reducible apply held_foldl_fst
    | exact hk.mono rfl
    | exact hk.1 _ rfl rfl
    | exact hk.2 _ rfl
    | exact hk.flds rfl
    | with_reducible apply held_else
    | with_reducible intro _
    | (simp only [↓held_mk]; with_reducible apply held_parts)
    | split
    | with_reducible refine held_of_pair (by assumption) ?_
    | dsimp only

theorem State.cmpArm_stays {s : State} (h : Held P m s) (hk : Avoid P [.tim]) (n : Nat) : Held P m (State.cmpArm s n) := by
  unfold State.cmpArm
  repeat' first
    | with_reducible assumption
    | with_reducible apply State.set_stays
    | with_reducible apply held_foldl
    | with_reducible apply held_foldl_fst
    | exact hk.mono rfl
    | exact hk.1 _ rfl rfl
    | exact hk.2 _ rfl
    | exact hk.flds rfl
    | with_reducible apply held_else
    | with_reducible intro _
    | (simp only [↓held_mk]; with_reducible apply held_parts)
    | split
    | with_reducible refine held_of_pair (by assumption) ?_
    | dsimp only

theorem State.cmpAdvance_stays {s : State} (h : Held P m s) (hk : Avoid P [.tim]) (n : Nat) : Held P m (State.cmpAdvance s n) := by
  unfold State.cmpAdvance
  repeat' first
    | with_reducible assumption
    | with_reducible apply State.set_stays
    | with_reducible apply State.setTarget_stays
    | with_reducible apply State.count_stays
    | with_reducible apply State.raise_stays
    | with_reducible apply held_foldl
    | with_reducible apply held_foldl_fst
    | exact hk.mono rfl
    | exact hk.1 _ rfl rfl
    | exact hk.2 _ rfl
    | exact hk.flds rfl
    | with_reducible apply held_else
    | with_reducible intro _
    | (simp only [↓held_mk]; with_reducible apply held_parts)
    | split
    | with_reducible refine held_of_pair (by assumption) ?_
    | dsimp only

theorem State.cmpServe_stays {s : State} (h : Held P m s) (hk : Avoid P [.lan, .capCtx, .cap, .enc, .tim, .trk, .ejt, .pmc]) (n : Nat) : Held P m (State.cmpServe s n) := by
  unfold State.cmpServe
  repeat' first
    | with_reducible assumption
    | with_reducible apply State.raise_stays
    | with_reducible apply State.forEach_stays
    | with_reducible apply State.encRequest_stays
    | with_reducible apply State.capTimeTrigger_stays
    | with_reducible apply State.pmcFreezeNow_stays
    | with_reducible apply held_foldl
    | with_reducible apply held_foldl_fst
    | exact hk.mono rfl
    | exact hk.1 _ rfl rfl
    | exact hk.2 _ rfl
    | exact hk.flds rfl
    | with_reducible apply held_else
    | with_reducible intro _
    | (simp only [↓held_mk]; with_reducible apply held_parts)
    | split
    | with_reducible refine held_of_pair (by assumption) ?_
    | dsimp only

theorem State.cmpFire_stays {s : State} (h : Held P m s) (hk : Avoid P [.lan, .capCtx, .cap, .enc, .tim, .trk, .ejt, .pmc]) (n : Nat) : Held P m (State.cmpFire s n) := by
  unfold State.cmpFire
  repeat' first
    | with_reducible assumption
    | with_reducible apply State.cmpAdvance_stays
    | with_reducible apply State.cmpServe_stays
    | with_reducible apply held_foldl
    | with_reducible apply held_foldl_fst
    | exact hk.mono rfl
    | exact hk.1 _ rfl rfl
    | exact hk.2 _ rfl
    | exact hk.flds rfl
    | with_reducible apply held_else
    | with_reducible intro _
    | (simp only [↓held_mk]; with_reducible apply held_parts)
    | split
    | with_reducible refine held_of_pair (by assumption) ?_
    | dsimp only

theorem State.cmpDue_stays {s : State} (h : Held P m s) (hk : Avoid P [.lan, .capCtx, .cap, .enc, .tim, .trk, .ejt, .pmc])  : Held P m (State.cmpDue s) := by
  unfold State.cmpDue
  repeat' first
    | with_reducible assumption
    | with_reducible apply State.forEach_stays
    | with_reducible apply State.cmpFire_stays
    | with_reducible apply held_foldl
    | with_reducible apply held_foldl_fst
    | exact hk.mono rfl
    | exact hk.1 _ rfl rfl
    | exact hk.2 _ rfl
    | exact hk.flds rfl
    | with_reducible apply held_else
    | with_reducible intro _
    | (simp only [↓held_mk]; with_reducible apply held_parts)
    | split
    | with_reducible refine held_of_pair (by assumption) ?_
    | dsimp only

theorem State.cmpMatch_stays {s : State} (h : Held P m s) (hk : Avoid P [.lan, .capCtx, .cap, .clu, .enc, .tim, .trk, .ejt, .pmc]) (n : Nat) : Held P m (State.cmpMatch s n) := by
  unfold State.cmpMatch
  repeat' first
    | with_reducible assumption
    | with_reducible apply State.runToTime_stays
    | with_reducible apply State.cmpFire_stays
    | with_reducible apply held_foldl
    | with_reducible apply held_foldl_fst
    | exact hk.mono rfl
    | exact hk.1 _ rfl rfl
    | exact hk.2 _ rfl
    | exact hk.flds rfl
    | with_reducible apply held_else
    | with_reducible intro _
    | (simp only [↓held_mk]; with_reducible apply held_parts)
    | split
    | with_reducible refine held_of_pair (by assumption) ?_
    | dsimp only

theorem State.tickOne_stays {s : State} (h : Held P m s) (hk : Avoid P [.lan, .capCtx, .cap, .clu, .enc, .tim, .trk, .ejt, .pmc])  : Held P m (State.tickOne s) := by
  unfold State.tickOne
  repeat' first
    | with_reducible assumption
    | with_reducible apply State.runTicks_stays
    | with_reducible apply State.cmpDue_stays
    | with_reducible apply held_foldl
    | with_reducible apply held_foldl_fst
    | exact hk.mono rfl
    | exact hk.1 _ rfl rfl
    | exact hk.2 _ rfl
    | exact hk.flds rfl
    | with_reducible apply held_else
    | with_reducible intro _
    | (simp only [↓held_mk]; with_reducible apply held_parts)
    | split
    | with_reducible refine held_of_pair (by assumption) ?_
    | dsimp only

theorem State.timeLoad_stays {s : State} (h : Held P m s) (hk : Avoid P [.tim])  : Held P m (State.timeLoad s) := by
  unfold State.timeLoad
  repeat' first
    | with_reducible assumption
    | with_reducible apply State.raise_stays
    | with_reducible apply held_foldl
    | with_reducible apply held_foldl_fst
    | exact hk.mono rfl
    | exact hk.1 _ rfl rfl
    | exact hk.2 _ rfl
    | exact hk.flds rfl
    | with_reducible apply held_else
    | with_reducible intro _
    | (simp only [↓held_mk]; with_reducible apply held_parts)
    | split
    | with_reducible refine held_of_pair (by assumption) ?_
    | dsimp only

theorem State.timeSet_stays {s : State} (h : Held P m s) (hk : Avoid P [.lan, .capCtx, .cap, .enc, .tim, .trk, .ejt, .pmc]) (fn : Nat) (v : Nat) : Held P m (State.timeSet s fn v) := by
  unfold State.timeSet
  repeat' first
    | with_reducible assumption
    | with_reducible apply State.code_stays
    | with_reducible apply State.set_stays
    | with_reducible apply State.timeLoad_stays
    | with_reducible apply State.cmpDue_stays
    | with_reducible apply held_foldl
    | with_reducible apply held_foldl_fst
    | exact hk.mono rfl
    | exact hk.1 _ rfl rfl
    | exact hk.2 _ rfl
    | exact hk.flds rfl
    | with_reducible apply held_else
    | with_reducible intro _
    | (simp only [↓held_mk]; with_reducible apply held_parts)
    | split
    | with_reducible refine held_of_pair (by assumption) ?_
    | dsimp only

theorem State.timeAdjust_stays {s : State} (h : Held P m s) (hk : Avoid P [.lan, .capCtx, .cap, .enc, .tim, .trk, .ejt, .pmc]) (fn : Nat) (v : Nat) : Held P m (State.timeAdjust s fn v) := by
  unfold State.timeAdjust
  repeat' first
    | with_reducible assumption
    | with_reducible apply State.code_stays
    | with_reducible apply State.cmpDue_stays
    | with_reducible apply held_foldl
    | with_reducible apply held_foldl_fst
    | exact hk.mono rfl
    | exact hk.1 _ rfl rfl
    | exact hk.2 _ rfl
    | exact hk.flds rfl
    | with_reducible apply held_else
    | with_reducible intro _
    | (simp only [↓held_mk]; with_reducible apply held_parts)
    | split
    | with_reducible refine held_of_pair (by assumption) ?_
    | dsimp only

theorem State.timeSetHeld_stays {s : State} (h : Held P m s) (hk : Avoid P [.tim]) (fn : Nat) (off : Nat) (act : State → State) (ha : ∀ t, Held P m t → Held P m (act t)) : Held P m (State.timeSetHeld s fn off act) := by
  unfold State.timeSetHeld
  repeat' first
    | with_reducible assumption
    | with_reducible apply State.code_stays
    | with_reducible apply ha
    | with_reducible apply held_foldl
    | with_reducible apply held_foldl_fst
    | exact hk.mono rfl
    | exact hk.1 _ rfl rfl
    | exact hk.2 _ rfl
    | exact hk.flds rfl
    | with_reducible apply held_else
    | with_reducible intro _
    | (simp only [↓held_mk]; with_reducible apply held_parts)
    | split
    | with_reducible refine held_of_pair (by assumption) ?_
    | dsimp only

theorem State.ppsEdge_stays {s : State} (h : Held P m s) (hk : Avoid P [.lan, .capCtx, .cap, .enc, .tim, .trk, .ejt, .pmc]) (rising : Bool) : Held P m (State.ppsEdge s rising) := by
  unfold State.ppsEdge
  repeat' first
    | with_reducible assumption
    | with_reducible apply State.set_stays
    | with_reducible apply State.timeLoad_stays
    | with_reducible apply State.timCapture_stays
    | with_reducible apply State.cmpDue_stays
    | with_reducible apply held_foldl
    | with_reducible apply held_foldl_fst
    | exact hk.mono rfl
    | exact hk.1 _ rfl rfl
    | exact hk.2 _ rfl
    | exact hk.flds rfl
    | with_reducible apply held_else
    | with_reducible intro _
    | (simp only [↓held_mk]; with_reducible apply held_parts)
    | split
    | with_reducible refine held_of_pair (by assumption) ?_
    | dsimp only

theorem State.secondEnds_stays {s : State} (h : Held P m s) (hk : Avoid P [.clu, .tim, .pmc])  : Held P m (State.secondEnds s) := by
  unfold State.secondEnds
  repeat' first
    | with_reducible assumption
    | with_reducible apply State.runToTime_stays
    | with_reducible apply held_foldl
    | with_reducible apply held_foldl_fst
    | exact hk.mono rfl
    | exact hk.1 _ rfl rfl
    | exact hk.2 _ rfl
    | exact hk.flds rfl
    | with_reducible apply held_else
    | with_reducible intro _
    | (simp only [↓held_mk]; with_reducible apply held_parts)
    | split
    | with_reducible refine held_of_pair (by assumption) ?_
    | dsimp only

theorem State.refLost_stays {s : State} (h : Held P m s) (hk : Avoid P [.tim])  : Held P m (State.refLost s) := by
  unfold State.refLost
  repeat' first
    | with_reducible assumption
    | with_reducible apply State.set_stays
    | with_reducible apply State.raise_stays
    | with_reducible apply held_foldl
    | with_reducible apply held_foldl_fst
    | exact hk.mono rfl
    | exact hk.1 _ rfl rfl
    | exact hk.2 _ rfl
    | exact hk.flds rfl
    | with_reducible apply held_else
    | with_reducible intro _
    | (simp only [↓held_mk]; with_reducible apply held_parts)
    | split
    | with_reducible refine held_of_pair (by assumption) ?_
    | dsimp only

theorem State.refBack_stays {s : State} (h : Held P m s) (hk : Avoid P [.tim])  : Held P m (State.refBack s) := by
  unfold State.refBack
  repeat' first
    | with_reducible assumption
    | with_reducible apply State.set_stays
    | with_reducible apply held_foldl
    | with_reducible apply held_foldl_fst
    | exact hk.mono rfl
    | exact hk.1 _ rfl rfl
    | exact hk.2 _ rfl
    | exact hk.flds rfl
    | with_reducible apply held_else
    | with_reducible intro _
    | (simp only [↓held_mk]; with_reducible apply held_parts)
    | split
    | with_reducible refine held_of_pair (by assumption) ?_
    | dsimp only

end Sys2Proof.Machine
end

