-- ==== Sys2Proof/Laws/Held5.lean ====
section
/-!
SUPPORT. Laws/Held5.lean: the operations of the machine leave the registers that lie on pages they do not reach.
-/
namespace Sys2Proof.Machine

set_option linter.unusedSimpArgs false
set_option linter.unusedVariables false

variable {P : Fld → Bool} {m : Fld → Nat → Nat → Nat}

theorem State.setLevel_stays {s : State} (h : Held P m s) (hk : Avoid P [.fio]) (i : Nat) (on : Bool) : Held P m (State.setLevel s i on) := by
  unfold State.setLevel
  repeat' first
    | with_reducible assumption
    | with_reducible apply State.set_stays
    | with_reducible apply held_foldl
    | with_reducible apply held_foldl_fst
    | exact hk.mono rfl
    | exact hk.1 _ rfl rfl
    | exact hk.2 _ rfl
    | exact hk.flds rfl
    | with_reducible apply held_else
    | with_reducible intro _
    | (simp only [↓held_mk]; with_reducible apply held_parts)
    | split
    | with_reducible refine held_of_pair (by assumption) ?_
    | dsimp only

theorem State.fioRetire_stays {s : State} (h : Held P m s) (hk : Avoid P [.mgt, .fio]) (i : Nat) : Held P m (State.fioRetire s i) := by
  unfold State.fioRetire
  repeat' first
    | with_reducible assumption
    | with_reducible apply State.set_stays
    | with_reducible apply State.setLevel_stays
    | with_reducible apply State.raise_stays
    | with_reducible apply State.channelRetired_stays
    | with_reducible apply held_foldl
    | with_reducible apply held_foldl_fst
    | exact hk.mono rfl
    | exact hk.1 _ rfl rfl
    | exact hk.2 _ rfl
    | exact hk.flds rfl
    | with_reducible apply held_else
    | with_reducible intro _
    | (simp only [↓held_mk]; with_reducible apply held_parts)
    | split
    | with_reducible refine held_of_pair (by assumption) ?_
    | dsimp only

theorem State.fioEdge_stays {s : State} (h : Held P m s) (hk : Avoid P [.tim, .fio]) (i : Nat) (rising : Bool) : Held P m (State.fioEdge s i rising) := by
  unfold State.fioEdge
  repeat' first
    | with_reducible assumption
    | with_reducible apply State.setLevel_stays
    | with_reducible apply State.set_stays
    | with_reducible apply State.countWrap_stays
    | with_reducible apply State.count_stays
    | with_reducible apply State.raiseMask_stays
    | with_reducible apply State.timCapture_stays
    | with_reducible apply held_foldl
    | with_reducible apply held_foldl_fst
    | exact hk.mono rfl
    | exact hk.1 _ rfl rfl
    | exact hk.2 _ rfl
    | exact hk.flds rfl
    | with_reducible apply held_else
    | with_reducible intro _
    | (simp only [↓held_mk]; with_reducible apply held_parts)
    | split
    | with_reducible refine held_of_pair (by assumption) ?_
    | dsimp only

theorem State.fioBroken_stays {s : State} (h : Held P m s) (hk : Avoid P [.mgt, .fio]) (i : Nat) : Held P m (State.fioBroken s i) := by
  unfold State.fioBroken
  repeat' first
    | with_reducible assumption
    | with_reducible apply State.set_stays
    | with_reducible apply State.count_stays
    | with_reducible apply State.raise_stays
    | with_reducible apply State.addUpset_stays
    | with_reducible apply State.fioRetire_stays
    | with_reducible apply held_foldl
    | with_reducible apply held_foldl_fst
    | exact hk.mono rfl
    | exact hk.1 _ rfl rfl
    | exact hk.2 _ rfl
    | exact hk.flds rfl
    | with_reducible apply held_else
    | with_reducible intro _
    | (simp only [↓held_mk]; with_reducible apply held_parts)
    | split
    | with_reducible refine held_of_pair (by assumption) ?_
    | dsimp only

theorem State.fioCount_stays {s : State} (h : Held P m s) (hk : Avoid P [.tim, .fio]) (i : Nat) (on : Bool) : Held P m (State.fioCount s i on) := by
  unfold State.fioCount
  repeat' first
    | with_reducible assumption
    | with_reducible apply State.set_stays
    | with_reducible apply State.fioEdge_stays
    | with_reducible apply held_foldl
    | with_reducible apply held_foldl_fst
    | exact hk.mono rfl
    | exact hk.1 _ rfl rfl
    | exact hk.2 _ rfl
    | exact hk.flds rfl
    | with_reducible apply held_else
    | with_reducible intro _
    | (simp only [↓held_mk]; with_reducible apply held_parts)
    | split
    | with_reducible refine held_of_pair (by assumption) ?_
    | dsimp only

theorem State.fioBreak_stays {s : State} (h : Held P m s) (hk : Avoid P [.mgt, .fio]) (i : Nat) (broken : Bool) : Held P m (State.fioBreak s i broken) := by
  unfold State.fioBreak
  repeat' first
    | with_reducible assumption
    | with_reducible apply State.set_stays
    | with_reducible apply State.fioBroken_stays
    | with_reducible apply held_foldl
    | with_reducible apply held_foldl_fst
    | exact hk.mono rfl
    | exact hk.1 _ rfl rfl
    | exact hk.2 _ rfl
    | exact hk.flds rfl
    | with_reducible apply held_else
    | with_reducible intro _
    | (simp only [↓held_mk]; with_reducible apply held_parts)
    | split
    | with_reducible refine held_of_pair (by assumption) ?_
    | dsimp only

theorem State.fioInput_stays {s : State} (h : Held P m s) (hk : Avoid P [.mgt, .tim, .fio]) (i : Nat) (band : Nat) : Held P m (State.fioInput s i band) := by
  unfold State.fioInput
  repeat' first
    | with_reducible assumption
    | with_reducible apply State.set_stays
    | with_reducible apply State.fioCount_stays
    | with_reducible apply State.fioBreak_stays
    | with_reducible apply held_foldl
    | with_reducible apply held_foldl_fst
    | exact hk.mono rfl
    | exact hk.1 _ rfl rfl
    | exact hk.2 _ rfl
    | exact hk.flds rfl
    | with_reducible apply held_else
    | with_reducible intro _
    | (simp only [↓held_mk]; with_reducible apply held_parts)
    | split
    | with_reducible refine held_of_pair (by assumption) ?_
    | dsimp only

theorem State.fioReadback_stays {s : State} (h : Held P m s) (hk : Avoid P [.fio]) (k : Nat) : Held P m (State.fioReadback s k) := by
  unfold State.fioReadback
  repeat' first
    | with_reducible assumption
    | with_reducible apply State.set_stays
    | with_reducible apply State.count_stays
    | with_reducible apply State.raise_stays
    | with_reducible apply held_foldl
    | with_reducible apply held_foldl_fst
    | exact hk.mono rfl
    | exact hk.1 _ rfl rfl
    | exact hk.2 _ rfl
    | exact hk.flds rfl
    | with_reducible apply held_else
    | with_reducible intro _
    | (simp only [↓held_mk]; with_reducible apply held_parts)
    | split
    | with_reducible refine held_of_pair (by assumption) ?_
    | dsimp only

theorem State.fioSample_stays {s : State} (h : Held P m s) (hk : Avoid P [.mgt, .tim, .fio]) (on : Nat) (broken : Nat) (rb : Nat) : Held P m (State.fioSample s on broken rb) := by
  unfold State.fioSample
  repeat' first
    | with_reducible assumption
    | with_reducible apply State.forEach_stays
    | with_reducible apply State.fioInput_stays
    | with_reducible apply State.set_stays
    | with_reducible apply State.fioReadback_stays
    | with_reducible apply held_foldl
    | with_reducible apply held_foldl_fst
    | exact hk.mono rfl
    | exact hk.1 _ rfl rfl
    | exact hk.2 _ rfl
    | exact hk.flds rfl
    | with_reducible apply held_else
    | with_reducible intro _
    | (simp only [↓held_mk]; with_reducible apply held_parts)
    | split
    | with_reducible refine held_of_pair (by assumption) ?_
    | dsimp only

theorem State.outputSet_stays {s : State} (h : Held P m s) (hk : Avoid P [.fio]) (v : Nat) : Held P m (State.outputSet s v) := by
  unfold State.outputSet
  repeat' first
    | with_reducible assumption
    | with_reducible apply State.set_stays
    | with_reducible apply State.foUpdate_stays
    | with_reducible apply held_foldl
    | with_reducible apply held_foldl_fst
    | exact hk.mono rfl
    | exact hk.1 _ rfl rfl
    | exact hk.2 _ rfl
    | exact hk.flds rfl
    | with_reducible apply held_else
    | with_reducible intro _
    | (simp only [↓held_mk]; with_reducible apply held_parts)
    | split
    | with_reducible refine held_of_pair (by assumption) ?_
    | dsimp only

theorem State.safeHold_stays {s : State} (h : Held P m s) (hk : Avoid P [.fio]) (cause : Nat) : Held P m (State.safeHold s cause) := by
  unfold State.safeHold
  repeat' first
    | with_reducible assumption
    | with_reducible apply State.set_stays
    | with_reducible apply State.foUpdate_stays
    | with_reducible apply State.markSafeHeld_stays
    | with_reducible apply held_foldl
    | with_reducible apply held_foldl_fst
    | exact hk.mono rfl
    | exact hk.1 _ rfl rfl
    | exact hk.2 _ rfl
    | exact hk.flds rfl
    | with_reducible apply held_else
    | with_reducible intro _
    | (simp only [↓held_mk]; with_reducible apply held_parts)
    | split
    | with_reducible refine held_of_pair (by assumption) ?_
    | dsimp only

theorem State.wdogExpire_stays {s : State} (h : Held P m s) (hk : Avoid P [.fio])  : Held P m (State.wdogExpire s) := by
  unfold State.wdogExpire
  repeat' first
    | with_reducible assumption
    | with_reducible apply State.safeHold_stays
    | with_reducible apply State.count_stays
    | with_reducible apply State.raise_stays
    | with_reducible apply State.set_stays
    | with_reducible apply held_foldl
    | with_reducible apply held_foldl_fst
    | exact hk.mono rfl
    | exact hk.1 _ rfl rfl
    | exact hk.2 _ rfl
    | exact hk.flds rfl
    | with_reducible apply held_else
    | with_reducible intro _
    | (simp only [↓held_mk]; with_reducible apply held_parts)
    | split
    | with_reducible refine held_of_pair (by assumption) ?_
    | dsimp only

theorem State.wdogEnds_stays {s : State} (h : Held P m s) (hk : Avoid P [.clu, .tim, .fio, .pmc])  : Held P m (State.wdogEnds s) := by
  unfold State.wdogEnds
  repeat' first
    | with_reducible assumption
    | with_reducible apply State.runTo_stays
    | with_reducible apply State.wdogExpire_stays
    | with_reducible apply held_foldl
    | with_reducible apply held_foldl_fst
    | exact hk.mono rfl
    | exact hk.1 _ rfl rfl
    | exact hk.2 _ rfl
    | exact hk.flds rfl
    | with_reducible apply held_else
    | with_reducible intro _
    | (simp only [↓held_mk]; with_reducible apply held_parts)
    | split
    | with_reducible refine held_of_pair (by assumption) ?_
    | dsimp only

theorem State.wdogWord_stays {s : State} (h : Held P m s) (hk : Avoid P [.fio]) (fn : Nat) (v : Nat) : Held P m (State.wdogWord s fn v) := by
  unfold State.wdogWord
  repeat' first
    | with_reducible assumption
    | with_reducible apply State.code_stays
    | with_reducible apply State.set_stays
    | with_reducible apply held_foldl
    | with_reducible apply held_foldl_fst
    | exact hk.mono rfl
    | exact hk.1 _ rfl rfl
    | exact hk.2 _ rfl
    | exact hk.flds rfl
    | with_reducible apply held_else
    | with_reducible intro _
    | (simp only [↓held_mk]; with_reducible apply held_parts)
    | split
    | with_reducible refine held_of_pair (by assumption) ?_
    | dsimp only

theorem State.wdogKick_stays {s : State} (h : Held P m s) (hk : Avoid P [.fio]) (v : Nat) : Held P m (State.wdogKick s v) := by
  unfold State.wdogKick
  repeat' first
    | with_reducible assumption
    | with_reducible apply State.wdogExpire_stays
    | with_reducible apply State.set_stays
    | with_reducible apply held_foldl
    | with_reducible apply held_foldl_fst
    | exact hk.mono rfl
    | exact hk.1 _ rfl rfl
    | exact hk.2 _ rfl
    | exact hk.flds rfl
    | with_reducible apply held_else
    | with_reducible intro _
    | (simp only [↓held_mk]; with_reducible apply held_parts)
    | split
    | with_reducible refine held_of_pair (by assumption) ?_
    | dsimp only

theorem State.safeRelease_stays {s : State} (h : Held P m s) (hk : Avoid P [.fio]) (fn : Nat) : Held P m (State.safeRelease s fn) := by
  unfold State.safeRelease
  repeat' first
    | with_reducible assumption
    | with_reducible apply State.code_stays
    | with_reducible apply State.set_stays
    | with_reducible apply State.forEach_stays
    | with_reducible apply State.foUpdate_stays
    | with_reducible apply held_foldl
    | with_reducible apply held_foldl_fst
    | exact hk.mono rfl
    | exact hk.1 _ rfl rfl
    | exact hk.2 _ rfl
    | exact hk.flds rfl
    | with_reducible apply held_else
    | with_reducible intro _
    | (simp only [↓held_mk]; with_reducible apply held_parts)
    | split
    | with_reducible refine held_of_pair (by assumption) ?_
    | dsimp only

theorem State.portRetire_stays {s : State} (h : Held P m s) (hk : Avoid P [.mgt, .trk, .ejt]) (n : Nat) : Held P m (State.portRetire s n) := by
  unfold State.portRetire
  repeat' first
    | with_reducible assumption
    | with_reducible apply State.portLost_stays
    | with_reducible apply State.raise_stays
    | with_reducible apply State.channelRetired_stays
    | with_reducible apply held_foldl
    | with_reducible apply held_foldl_fst
    | exact hk.mono rfl
    | exact hk.1 _ rfl rfl
    | exact hk.2 _ rfl
    | exact hk.flds rfl
    | with_reducible apply held_else
    | with_reducible intro _
    | (simp only [↓held_mk]; with_reducible apply held_parts)
    | split
    | with_reducible refine held_of_pair (by assumption) ?_
    | dsimp only

theorem State.frameCheck_stays {s : State} (h : Held P m s) (hk : Avoid P [.mgt, .trk, .ejt]) (n : Nat) (ret : Nat) : Held P m (State.frameCheck s n ret) := by
  unfold State.frameCheck
  repeat' first
    | with_reducible assumption
    | with_reducible apply State.count_stays
    | with_reducible apply State.raise_stays
    | with_reducible apply State.addUpset_stays
    | with_reducible apply State.portRetire_stays
    | with_reducible apply held_foldl
    | with_reducible apply held_foldl_fst
    | exact hk.mono rfl
    | exact hk.1 _ rfl rfl
    | exact hk.2 _ rfl
    | exact hk.flds rfl
    | with_reducible apply held_else
    | with_reducible intro _
    | (simp only [↓held_mk]; with_reducible apply held_parts)
    | split
    | with_reducible refine held_of_pair (by assumption) ?_
    | dsimp only

theorem State.frameBegin_stays {s : State} (h : Held P m s) (hk : Avoid P [.ejt, .fio]) (n : Nat) : Held P m (State.frameBegin s n) := by
  unfold State.frameBegin
  repeat' first
    | with_reducible assumption
    | with_reducible apply State.set_stays
    | with_reducible apply held_foldl
    | with_reducible apply held_foldl_fst
    | exact hk.mono rfl
    | exact hk.1 _ rfl rfl
    | exact hk.2 _ rfl
    | exact hk.flds rfl
    | with_reducible apply held_else
    | with_reducible intro _
    | (simp only [↓held_mk]; with_reducible apply held_parts)
    | split
    | with_reducible refine held_of_pair (by assumption) ?_
    | dsimp only

theorem State.frameBoundary_stays {s : State} (h : Held P m s) (hk : Avoid P [.mgt, .clu, .tim, .trk, .ejt, .fio, .pmc]) (rets : List Nat) : Held P m (State.frameBoundary s rets) := by
  unfold State.frameBoundary
  repeat' first
    | with_reducible assumption
    | with_reducible apply State.runTo_stays
    | with_reducible apply State.forEach_stays
    | with_reducible apply State.frameCheck_stays
    | with_reducible apply State.frameBegin_stays
    | with_reducible apply State.set_stays
    | with_reducible apply held_foldl
    | with_reducible apply held_foldl_fst
    | exact hk.mono rfl
    | exact hk.1 _ rfl rfl
    | exact hk.2 _ rfl
    | exact hk.flds rfl
    | with_reducible apply held_else
    | with_reducible intro _
    | (simp only [↓held_mk]; with_reducible apply held_parts)
    | split
    | with_reducible refine held_of_pair (by assumption) ?_
    | dsimp only

theorem State.commitDue_stays {s : State} (h : Held P m s) (hk : Avoid P [.capCtx, .trk, .ejt, .pmc]) (span : Bool) (id : Nat) : Held P m (State.commitDue s span id) := by
  unfold State.commitDue
  repeat' first
    | with_reducible assumption
    | with_reducible apply State.recCommit_stays
    | with_reducible apply held_foldl
    | with_reducible apply held_foldl_fst
    | exact hk.mono rfl
    | exact hk.1 _ rfl rfl
    | exact hk.2 _ rfl
    | exact hk.flds rfl
    | with_reducible apply held_else
    | with_reducible intro _
    | (simp only [↓held_mk]; with_reducible apply held_parts)
    | split
    | with_reducible refine held_of_pair (by assumption) ?_
    | dsimp only

theorem State.onDue_stays {s : State} (h : Held P m s) (hk : Avoid P [.ejt, .fio, .pmc]) (span : Bool) (id : Nat) (bank : Nat) : Held P m (State.onDue s span id bank) := by
  unfold State.onDue
  repeat' first
    | with_reducible assumption
    | with_reducible apply State.firingOn_stays
    | with_reducible apply held_foldl
    | with_reducible apply held_foldl_fst
    | exact hk.mono rfl
    | exact hk.1 _ rfl rfl
    | exact hk.2 _ rfl
    | exact hk.flds rfl
    | with_reducible apply held_else
    | with_reducible intro _
    | (simp only [↓held_mk]; with_reducible apply held_parts)
    | split
    | with_reducible refine held_of_pair (by assumption) ?_
    | dsimp only

theorem State.offDue_stays {s : State} (h : Held P m s) (hk : Avoid P [.trk, .ejt, .fio, .pmc]) (span : Bool) (id : Nat) (bank : Nat) : Held P m (State.offDue s span id bank) := by
  unfold State.offDue
  repeat' first
    | with_reducible assumption
    | with_reducible apply State.firingOff_stays
    | with_reducible apply held_foldl
    | with_reducible apply held_foldl_fst
    | exact hk.mono rfl
    | exact hk.1 _ rfl rfl
    | exact hk.2 _ rfl
    | exact hk.flds rfl
    | with_reducible apply held_else
    | with_reducible intro _
    | (simp only [↓held_mk]; with_reducible apply held_parts)
    | split
    | with_reducible refine held_of_pair (by assumption) ?_
    | dsimp only

theorem State.holdEnds_stays {s : State} (h : Held P m s) (hk : Avoid P [.clu, .tim, .trk, .ejt, .fio, .pmc]) (path : Nat) (num : Nat) : Held P m (State.holdEnds s path num) := by
  unfold State.holdEnds
  repeat' first
    | with_reducible assumption
    | with_reducible apply State.runTo_stays
    | with_reducible apply State.valveDue_stays
    | with_reducible apply held_foldl
    | with_reducible apply held_foldl_fst
    | exact hk.mono rfl
    | exact hk.1 _ rfl rfl
    | exact hk.2 _ rfl
    | exact hk.flds rfl
    | with_reducible apply held_else
    | with_reducible intro _
    | (simp only [↓held_mk]; with_reducible apply held_parts)
    | split
    | with_reducible refine held_of_pair (by assumption) ?_
    | dsimp only

theorem State.limitEnds_stays {s : State} (h : Held P m s) (hk : Avoid P [.clu, .tim, .trk, .ejt, .fio, .pmc]) (path : Nat) (num : Nat) : Held P m (State.limitEnds s path num) := by
  unfold State.limitEnds
  repeat' first
    | with_reducible assumption
    | with_reducible apply State.runTo_stays
    | with_reducible apply State.valveMaxOn_stays
    | with_reducible apply held_foldl
    | with_reducible apply held_foldl_fst
    | exact hk.mono rfl
    | exact hk.1 _ rfl rfl
    | exact hk.2 _ rfl
    | exact hk.flds rfl
    | with_reducible apply held_else
    | with_reducible intro _
    | (simp only [↓held_mk]; with_reducible apply held_parts)
    | split
    | with_reducible refine held_of_pair (by assumption) ?_
    | dsimp only

theorem State.deadlineCheck_stays {s : State} (h : Held P m s) (hk : Avoid P [.cmdPart]) (id : Nat) : Held P m (State.deadlineCheck s id) := by
  unfold State.deadlineCheck
  repeat' first
    | with_reducible assumption
    | with_reducible apply State.modRec_stays
    | with_reducible apply State.count_stays
    | with_reducible apply State.raise_stays
    | with_reducible apply held_foldl
    | with_reducible apply held_foldl_fst
    | exact hk.mono rfl
    | exact hk.1 _ rfl rfl
    | exact hk.2 _ rfl
    | exact hk.flds rfl
    | with_reducible apply held_else
    | with_reducible intro _
    | (simp only [↓held_mk]; with_reducible apply held_parts)
    | split
    | with_reducible refine held_of_pair (by assumption) ?_
    | dsimp only

theorem State.tableFreed_stays {s : State} (h : Held P m s) (hk : Avoid P []) (id : Nat) : Held P m (State.tableFreed s id) := by
  unfold State.tableFreed
  repeat' first
    | with_reducible assumption
    | with_reducible apply State.tablePages_stays
    | with_reducible apply State.modTrk_stays
    | with_reducible apply State.bumpGen_stays
    | with_reducible apply State.giveId_stays
    | with_reducible apply held_foldl
    | with_reducible apply held_foldl_fst
    | exact hk.mono rfl
    | exact hk.1 _ rfl rfl
    | exact hk.2 _ rfl
    | exact hk.flds rfl
    | with_reducible apply held_else
    | with_reducible intro _
    | (simp only [↓held_mk]; with_reducible apply held_parts)
    | split
    | with_reducible refine held_of_pair (by assumption) ?_
    | dsimp only

theorem State.laneFail_stays {s : State} (h : Held P m s) (hk : Avoid P [.mgt, .lan, .lanPeer]) (l : Nat) : Held P m (State.laneFail s l) := by
  unfold State.laneFail
  repeat' first
    | with_reducible assumption
    | with_reducible apply State.laneRetire_stays
    | with_reducible apply State.channelRetired_stays
    | with_reducible apply State.peerFollow_stays
    | with_reducible apply State.peerDown_stays
    | with_reducible apply held_foldl
    | with_reducible apply held_foldl_fst
    | exact hk.mono rfl
    | exact hk.1 _ rfl rfl
    | exact hk.2 _ rfl
    | exact hk.flds rfl
    | with_reducible apply held_else
    | with_reducible intro _
    | (simp only [↓held_mk]; with_reducible apply held_parts)
    | split
    | with_reducible refine held_of_pair (by assumption) ?_
    | dsimp only

theorem State.laneUpset_stays {s : State} (h : Held P m s) (hk : Avoid P [.mgt, .lan, .lanPeer]) (l : Nat) : Held P m (State.laneUpset s l) := by
  unfold State.laneUpset
  repeat' first
    | with_reducible assumption
    | with_reducible apply State.addUpset_stays
    | with_reducible apply State.laneFail_stays
    | with_reducible apply held_foldl
    | with_reducible apply held_foldl_fst
    | exact hk.mono rfl
    | exact hk.1 _ rfl rfl
    | exact hk.2 _ rfl
    | exact hk.flds rfl
    | with_reducible apply held_else
    | with_reducible intro _
    | (simp only [↓held_mk]; with_reducible apply held_parts)
    | split
    | with_reducible refine held_of_pair (by assumption) ?_
    | dsimp only

theorem State.codeError_stays {s : State} (h : Held P m s) (hk : Avoid P [.mgt, .lan, .lanPeer, .pmc]) (l : Nat) : Held P m (State.codeError s l) := by
  unfold State.codeError
  repeat' first
    | with_reducible assumption
    | with_reducible apply State.count_stays
    | with_reducible apply State.pmc_stays
    | with_reducible apply State.set_stays
    | with_reducible apply State.raise_stays
    | with_reducible apply State.laneUpset_stays
    | with_reducible apply held_foldl
    | with_reducible apply held_foldl_fst
    | exact hk.mono rfl
    | exact hk.1 _ rfl rfl
    | exact hk.2 _ rfl
    | exact hk.flds rfl
    | with_reducible apply held_else
    | with_reducible intro _
    | (simp only [↓held_mk]; with_reducible apply held_parts)
    | split
    | with_reducible refine held_of_pair (by assumption) ?_
    | dsimp only

theorem State.windowClear_stays {s : State} (h : Held P m s) (hk : Avoid P [.lan, .clu, .fwn, .atn, .memPc])  : Held P m (State.windowClear s) := by
  unfold State.windowClear
  repeat' first
    | with_reducible assumption
    | with_reducible apply State.forEach_stays
    | with_reducible apply State.clearFlds_stays
    | with_reducible apply held_foldl
    | with_reducible apply held_foldl_fst
    | exact hk.mono rfl
    | exact hk.1 _ rfl rfl
    | exact hk.2 _ rfl
    | exact hk.flds rfl
    | with_reducible apply held_else
    | with_reducible intro _
    | (simp only [↓held_mk]; with_reducible apply held_parts)
    | split
    | with_reducible refine held_of_pair (by assumption) ?_
    | dsimp only

theorem State.windowEnds_stays {s : State} (h : Held P m s) (hk : Avoid P [.lan, .clu, .fwn, .atn, .memPc, .tim, .pmc])  : Held P m (State.windowEnds s) := by
  unfold State.windowEnds
  repeat' first
    | with_reducible assumption
    | with_reducible apply State.runTo_stays
    | with_reducible apply State.windowClear_stays
    | with_reducible apply held_foldl
    | with_reducible apply held_foldl_fst
    | exact hk.mono rfl
    | exact hk.1 _ rfl rfl
    | exact hk.2 _ rfl
    | exact hk.flds rfl
    | with_reducible apply held_else
    | with_reducible intro _
    | (simp only [↓held_mk]; with_reducible apply held_parts)
    | split
    | with_reducible refine held_of_pair (by assumption) ?_
    | dsimp only

theorem State.sramCount_stays {s : State} (h : Held P m s) {p : PageId} (hk : Avoid P [p.kind]) {cnt win done thr : Fld} (ev : Nat)
    (h1 : Off P cnt) (h2 : Off P win) (h3 : Off P done) : Held P m (s.sramCount p cnt win done thr ev) := by
  unfold State.sramCount
  repeat' first
    | with_reducible assumption
    | with_reducible apply State.count_stays
    | with_reducible apply State.set_stays
    | with_reducible apply State.raise_stays
    | with_reducible apply held_else
    | with_reducible intro _
    | split
    | dsimp only

theorem State.sramCorrected_stays {s : State} (h : Held P m s) (hk : Avoid P [.clu, .fwn, .atn]) (site : SramSite) (addr : Nat) : Held P m (State.sramCorrected s site addr) := by
  unfold State.sramCorrected
  repeat' first
    | with_reducible assumption
    | with_reducible apply State.set_stays
    | with_reducible apply State.sramCount_stays
    | with_reducible apply held_foldl
    | with_reducible apply held_foldl_fst
    | exact hk.mono rfl
    | exact hk.1 _ rfl rfl
    | exact hk.2 _ rfl
    | exact hk.flds rfl
    | with_reducible apply held_else
    | with_reducible intro _
    | (simp only [↓held_mk]; with_reducible apply held_parts)
    | split
    | with_reducible refine held_of_pair (by assumption) ?_
    | dsimp only

theorem State.abortRunning_stays {s : State} (h : Held P m s) (hk : Avoid P [.cmdPart, .clu, .ejt]) (p : Nat) : Held P m (State.abortRunning s p) := by
  unfold State.abortRunning
  repeat' first
    | with_reducible assumption
    | with_reducible apply State.abortMem_stays
    | with_reducible apply held_foldl
    | with_reducible apply held_foldl_fst
    | exact hk.mono rfl
    | exact hk.1 _ rfl rfl
    | exact hk.2 _ rfl
    | exact hk.flds rfl
    | with_reducible apply held_else
    | with_reducible intro _
    | (simp only [↓held_mk]; with_reducible apply held_parts)
    | split
    | with_reducible refine held_of_pair (by assumption) ?_
    | dsimp only

theorem State.sramBad_stays {s : State} (h : Held P m s) (hk : Avoid P [.mgt, .cmdPart, .clu, .fwn, .atn, .ejt]) (site : SramSite) (addr : Nat) : Held P m (State.sramBad s site addr) := by
  unfold State.sramBad
  repeat' first
    | with_reducible assumption
    | with_reducible apply State.set_stays
    | with_reducible apply State.count_stays
    | with_reducible apply State.raise_stays
    | with_reducible apply State.abortRunning_stays
    | with_reducible apply State.cluUpset_stays
    | with_reducible apply State.abortMem_stays
    | with_reducible apply State.modTable_stays
    | with_reducible apply held_foldl
    | with_reducible apply held_foldl_fst
    | exact hk.mono rfl
    | exact hk.1 _ rfl rfl
    | exact hk.2 _ rfl
    | exact hk.flds rfl
    | with_reducible apply held_else
    | with_reducible intro _
    | (simp only [↓held_mk]; with_reducible apply held_parts)
    | split
    | with_reducible refine held_of_pair (by assumption) ?_
    | dsimp only

theorem State.markBad_stays {s : State} (h : Held P m s) (hk : Avoid P []) (key : Nat) : Held P m (State.markBad s key) := by
  unfold State.markBad
  repeat' first
    | with_reducible assumption
    | with_reducible apply held_foldl
    | with_reducible apply held_foldl_fst
    | exact hk.mono rfl
    | exact hk.1 _ rfl rfl
    | exact hk.2 _ rfl
    | exact hk.flds rfl
    | with_reducible apply held_else
    | with_reducible intro _
    | (simp only [↓held_mk]; with_reducible apply held_parts)
    | split
    | with_reducible refine held_of_pair (by assumption) ?_
    | dsimp only

theorem State.lnpConsumes_stays {s : State} (h : Held P m s) (hk : Avoid P [.capCtx, .lnpCtx, .trk, .ejt]) (c : Nat) : Held P m (State.lnpConsumes s c) := by
  unfold State.lnpConsumes
  repeat' first
    | with_reducible assumption
    | with_reducible apply State.loseStripe_stays
    | with_reducible apply held_foldl
    | with_reducible apply held_foldl_fst
    | exact hk.mono rfl
    | exact hk.1 _ rfl rfl
    | exact hk.2 _ rfl
    | exact hk.flds rfl
    | with_reducible apply held_else
    | with_reducible intro _
    | (simp only [↓held_mk]; with_reducible apply held_parts)
    | split
    | with_reducible refine held_of_pair (by assumption) ?_
    | dsimp only

theorem State.loadConsumes_stays {s : State} (h : Held P m s) (hk : Avoid P [.cmdPart]) (p : Nat) (k : Nat) (key : Nat) : Held P m (State.loadConsumes s p k key) := by
  unfold State.loadConsumes
  repeat' first
    | with_reducible assumption
    | with_reducible apply State.code_stays
    | with_reducible apply State.modSlot_stays
    | with_reducible apply State.set_stays
    | with_reducible apply State.raise_stays
    | with_reducible apply held_foldl
    | with_reducible apply held_foldl_fst
    | exact hk.mono rfl
    | exact hk.1 _ rfl rfl
    | exact hk.2 _ rfl
    | exact hk.flds rfl
    | with_reducible apply held_else
    | with_reducible intro _
    | (simp only [↓held_mk]; with_reducible apply held_parts)
    | split
    | with_reducible refine held_of_pair (by assumption) ?_
    | dsimp only

theorem State.replayConsumes_stays {s : State} (h : Held P m s) (hk : Avoid P [.capCtx]) (c : Nat) : Held P m (State.replayConsumes s c) := by
  unfold State.replayConsumes
  repeat' first
    | with_reducible assumption
    | with_reducible apply State.modCtx_stays
    | with_reducible apply State.raise_stays
    | with_reducible apply held_foldl
    | with_reducible apply held_foldl_fst
    | exact hk.mono rfl
    | exact hk.1 _ rfl rfl
    | exact hk.2 _ rfl
    | exact hk.flds rfl
    | with_reducible apply held_else
    | with_reducible intro _
    | (simp only [↓held_mk]; with_reducible apply held_parts)
    | split
    | with_reducible refine held_of_pair (by assumption) ?_
    | dsimp only

theorem State.hostUe_stays {s : State} (h : Held P m s) (hk : Avoid P [.memPart]) (fn : Nat) : Held P m (State.hostUe s fn) := by
  unfold State.hostUe
  repeat' first
    | with_reducible assumption
    | with_reducible apply State.count_stays
    | with_reducible apply State.raise_stays
    | with_reducible apply held_foldl
    | with_reducible apply held_foldl_fst
    | exact hk.mono rfl
    | exact hk.1 _ rfl rfl
    | exact hk.2 _ rfl
    | exact hk.flds rfl
    | with_reducible apply held_else
    | with_reducible intro _
    | (simp only [↓held_mk]; with_reducible apply held_parts)
    | split
    | with_reducible refine held_of_pair (by assumption) ?_
    | dsimp only

theorem State.wordConsumed_stays {s : State} (h : Held P m s) (hk : Avoid P [.mgt, .cmdPart, .capCtx, .lnpCtx, .clu, .memPc, .mem, .memPart, .trk, .ejt]) (pc : Nat) (word : Nat) (by' : Consumer) : Held P m (State.wordConsumed s pc word by') := by
  unfold State.wordConsumed
  repeat' first
    | with_reducible assumption
    | with_reducible apply State.markBad_stays
    | with_reducible apply State.ueFound_stays
    | with_reducible apply State.abortRunning_stays
    | with_reducible apply State.lnpConsumes_stays
    | with_reducible apply State.loadConsumes_stays
    | with_reducible apply State.replayConsumes_stays
    | with_reducible apply State.hostUe_stays
    | with_reducible apply held_foldl
    | with_reducible apply held_foldl_fst
    | exact hk.mono rfl
    | exact hk.1 _ rfl rfl
    | exact hk.2 _ rfl
    | exact hk.flds rfl
    | with_reducible apply held_else
    | with_reducible intro _
    | (simp only [↓held_mk]; with_reducible apply held_parts)
    | split
    | with_reducible refine held_of_pair (by assumption) ?_
    | dsimp only

theorem State.scrubLine_stays {s : State} (h : Held P m s) (hk : Avoid P [.mgt, .memPc, .mem])  : Held P m (State.scrubLine s) := by
  unfold State.scrubLine
  repeat' first
    | with_reducible assumption
    | with_reducible apply State.forEach_stays
    | with_reducible apply State.ceFound_stays
    | with_reducible apply State.ueFound_stays
    | with_reducible apply State.set_stays
    | with_reducible apply State.count_stays
    | with_reducible apply State.raise_stays
    | with_reducible apply held_foldl
    | with_reducible apply held_foldl_fst
    | exact hk.mono rfl
    | exact hk.1 _ rfl rfl
    | exact hk.2 _ rfl
    | exact hk.flds rfl
    | with_reducible apply held_else
    | with_reducible intro _
    | (simp only [↓held_mk]; with_reducible apply held_parts)
    | split
    | with_reducible refine held_of_pair (by assumption) ?_
    | dsimp only

theorem State.permanent_stays {s : State} (h : Held P m s) (hk : Avoid P [.mgt, .cmdPart, .lan, .lanPeer, .capCtx, .cap, .clu, .memPc, .mem, .enc, .trk, .ejt, .fio, .pmc]) (t : Nat) (i : Nat) : Held P m (State.permanent s t i) := by
  unfold State.permanent
  repeat' first
    | with_reducible assumption
    | with_reducible apply State.pcRetire_stays
    | with_reducible apply State.laneFail_stays
    | with_reducible apply State.cluRetire_stays
    | with_reducible apply State.encRetire_stays
    | with_reducible apply State.portRetire_stays
    | with_reducible apply State.fioRetire_stays
    | with_reducible apply held_foldl
    | with_reducible apply held_foldl_fst
    | exact hk.mono rfl
    | exact hk.1 _ rfl rfl
    | exact hk.2 _ rfl
    | exact hk.flds rfl
    | with_reducible apply held_else
    | with_reducible intro _
    | (simp only [↓held_mk]; with_reducible apply held_parts)
    | split
    | with_reducible refine held_of_pair (by assumption) ?_
    | dsimp only

theorem State.leakWindow_stays {s : State} (h : Held P m s) (hk : Avoid P [.clu, .tim, .pmc]) (t : Nat) : Held P m (State.leakWindow s t) := by
  unfold State.leakWindow
  repeat' first
    | with_reducible assumption
    | with_reducible apply State.runTo_stays
    | with_reducible apply State.leak_stays
    | with_reducible apply held_foldl
    | with_reducible apply held_foldl_fst
    | exact hk.mono rfl
    | exact hk.1 _ rfl rfl
    | exact hk.2 _ rfl
    | exact hk.flds rfl
    | with_reducible apply held_else
    | with_reducible intro _
    | (simp only [↓held_mk]; with_reducible apply held_parts)
    | split
    | with_reducible refine held_of_pair (by assumption) ?_
    | dsimp only

theorem State.recordRetired_stays {s : State} (h : Held P m s) (hk : Avoid P [])  : Held P m (State.recordRetired s) := by
  unfold State.recordRetired
  repeat' first
    | with_reducible assumption
    | with_reducible apply held_foldl
    | with_reducible apply held_foldl_fst
    | exact hk.mono rfl
    | exact hk.1 _ rfl rfl
    | exact hk.2 _ rfl
    | exact hk.flds rfl
    | with_reducible apply held_else
    | with_reducible intro _
    | (simp only [↓held_mk]; with_reducible apply held_parts)
    | split
    | with_reducible refine held_of_pair (by assumption) ?_
    | dsimp only

theorem State.modMgt_stays {s : State} (h : Held P m s) (hk : Avoid P []) (f : MgtState → MgtState) : Held P m (State.modMgt s f) := by
  unfold State.modMgt
  repeat' first
    | with_reducible assumption
    | with_reducible apply held_foldl
    | with_reducible apply held_foldl_fst
    | exact hk.mono rfl
    | exact hk.1 _ rfl rfl
    | exact hk.2 _ rfl
    | exact hk.flds rfl
    | with_reducible apply held_else
    | with_reducible intro _
    | (simp only [↓held_mk]; with_reducible apply held_parts)
    | split
    | with_reducible refine held_of_pair (by assumption) ?_
    | dsimp only

theorem State.whenAwake_stays {s : State} (h : Held P m s) (hk : Avoid P []) (act : State → State) (ha : ∀ t, Held P m t → Held P m (act t)) : Held P m (State.whenAwake s act) := by
  unfold State.whenAwake
  repeat' first
    | with_reducible assumption
    | with_reducible apply ha
    | with_reducible apply held_foldl
    | with_reducible apply held_foldl_fst
    | exact hk.mono rfl
    | exact hk.1 _ rfl rfl
    | exact hk.2 _ rfl
    | exact hk.flds rfl
    | with_reducible apply held_else
    | with_reducible intro _
    | (simp only [↓held_mk]; with_reducible apply held_parts)
    | split
    | with_reducible refine held_of_pair (by assumption) ?_
    | dsimp only

theorem State.startOk_stays {s : State} (h : Held P m s) (hk : Avoid P [.mgt]) (fn : Nat) : Held P m (State.startOk s fn) := by
  unfold State.startOk
  repeat' first
    | with_reducible assumption
    | with_reducible apply State.set_stays
    | with_reducible apply State.modMgt_stays
    | with_reducible apply State.code_stays
    | with_reducible apply State.raise_stays
    | with_reducible apply held_foldl
    | with_reducible apply held_foldl_fst
    | exact hk.mono rfl
    | exact hk.1 _ rfl rfl
    | exact hk.2 _ rfl
    | exact hk.flds rfl
    | with_reducible apply held_else
    | with_reducible intro _
    | (simp only [↓held_mk]; with_reducible apply held_parts)
    | split
    | with_reducible refine held_of_pair (by assumption) ?_
    | dsimp only

theorem State.okWindowEnds_stays {s : State} (h : Held P m s) (hk : Avoid P [.clu, .tim, .pmc])  : Held P m (State.okWindowEnds s) := by
  unfold State.okWindowEnds
  repeat' first
    | with_reducible assumption
    | with_reducible apply State.runTo_stays
    | with_reducible apply State.modMgt_stays
    | with_reducible apply held_foldl
    | with_reducible apply held_foldl_fst
    | exact hk.mono rfl
    | exact hk.1 _ rfl rfl
    | exact hk.2 _ rfl
    | exact hk.flds rfl
    | with_reducible apply held_else
    | with_reducible intro _
    | (simp only [↓held_mk]; with_reducible apply held_parts)
    | split
    | with_reducible refine held_of_pair (by assumption) ?_
    | dsimp only

theorem State.snapGo_stays {s : State} (h : Held P m s) (hk : Avoid P [.ret]) (fn : Nat) : Held P m (State.snapGo s fn) := by
  unfold State.snapGo
  repeat' first
    | with_reducible assumption
    | with_reducible apply State.code_stays
    | with_reducible apply State.set_stays
    | with_reducible apply State.modMgt_stays
    | with_reducible apply State.capture_stays
    | with_reducible apply held_foldl
    | with_reducible apply held_foldl_fst
    | exact hk.mono rfl
    | exact hk.1 _ rfl rfl
    | exact hk.2 _ rfl
    | exact hk.flds rfl
    | with_reducible apply held_else
    | with_reducible intro _
    | (simp only [↓held_mk]; with_reducible apply held_parts)
    | split
    | with_reducible refine held_of_pair (by assumption) ?_
    | dsimp only

theorem State.snapDone_stays {s : State} (h : Held P m s) (hk : Avoid P [.ret]) (ok : Bool) : Held P m (State.snapDone s ok) := by
  unfold State.snapDone
  repeat' first
    | with_reducible assumption
    | with_reducible apply State.capture_stays
    | with_reducible apply State.set_stays
    | with_reducible apply State.modMgt_stays
    | with_reducible apply State.count_stays
    | with_reducible apply State.raise_stays
    | with_reducible apply held_foldl
    | with_reducible apply held_foldl_fst
    | exact hk.mono rfl
    | exact hk.1 _ rfl rfl
    | exact hk.2 _ rfl
    | exact hk.flds rfl
    | with_reducible apply held_else
    | with_reducible intro _
    | (simp only [↓held_mk]; with_reducible apply held_parts)
    | split
    | with_reducible refine held_of_pair (by assumption) ?_
    | dsimp only

theorem State.velvetErase_stays {s : State} (h : Held P m s) (hk : Avoid P [.ret]) (fn : Nat) : Held P m (State.velvetErase s fn) := by
  unfold State.velvetErase
  repeat' first
    | with_reducible assumption
    | with_reducible apply State.code_stays
    | with_reducible apply held_foldl
    | with_reducible apply held_foldl_fst
    | exact hk.mono rfl
    | exact hk.1 _ rfl rfl
    | exact hk.2 _ rfl
    | exact hk.flds rfl
    | with_reducible apply held_else
    | with_reducible intro _
    | (simp only [↓held_mk]; with_reducible apply held_parts)
    | split
    | with_reducible refine held_of_pair (by assumption) ?_
    | dsimp only

theorem State.attestGo_stays {s : State} (h : Held P m s) (hk : Avoid P [.sec]) (fn : Nat) : Held P m (State.attestGo s fn) := by
  unfold State.attestGo
  repeat' first
    | with_reducible assumption
    | with_reducible apply State.code_stays
    | with_reducible apply State.set_stays
    | with_reducible apply State.modMgt_stays
    | with_reducible apply held_foldl
    | with_reducible apply held_foldl_fst
    | exact hk.mono rfl
    | exact hk.1 _ rfl rfl
    | exact hk.2 _ rfl
    | exact hk.flds rfl
    | with_reducible apply held_else
    | with_reducible intro _
    | (simp only [↓held_mk]; with_reducible apply held_parts)
    | split
    | with_reducible refine held_of_pair (by assumption) ?_
    | dsimp only

theorem State.attestDone_stays {s : State} (h : Held P m s) (hk : Avoid P [.sec])  : Held P m (State.attestDone s) := by
  unfold State.attestDone
  repeat' first
    | with_reducible assumption
    | with_reducible apply State.hostOut_stays
    | with_reducible apply State.set_stays
    | with_reducible apply State.raise_stays
    | with_reducible apply held_foldl
    | with_reducible apply held_foldl_fst
    | exact hk.mono rfl
    | exact hk.1 _ rfl rfl
    | exact hk.2 _ rfl
    | exact hk.flds rfl
    | with_reducible apply held_else
    | with_reducible intro _
    | (simp only [↓held_mk]; with_reducible apply held_parts)
    | split
    | with_reducible refine held_of_pair (by assumption) ?_
    | dsimp only

theorem State.attestHeld_stays {s : State} (h : Held P m s) (hk : Avoid P [.sec]) (fn : Nat) (off : Nat) (act : State → State) (ha : ∀ t, Held P m t → Held P m (act t)) : Held P m (State.attestHeld s fn off act) := by
  unfold State.attestHeld
  repeat' first
    | with_reducible assumption
    | with_reducible apply State.code_stays
    | with_reducible apply ha
    | with_reducible apply held_foldl
    | with_reducible apply held_foldl_fst
    | exact hk.mono rfl
    | exact hk.1 _ rfl rfl
    | exact hk.2 _ rfl
    | exact hk.flds rfl
    | with_reducible apply held_else
    | with_reducible intro _
    | (simp only [↓held_mk]; with_reducible apply held_parts)
    | split
    | with_reducible refine held_of_pair (by assumption) ?_
    | dsimp only

theorem State.startEnds_stays {s : State} (h : Held P m s) (hk : Avoid P [.mgt, .fio])  : Held P m (State.startEnds s) := by
  unfold State.startEnds
  repeat' first
    | with_reducible assumption
    | with_reducible apply State.set_stays
    | with_reducible apply State.foUpdate_stays
    | with_reducible apply State.modTrk_stays
    | with_reducible apply State.modMgt_stays
    | with_reducible apply State.raise_stays
    | with_reducible apply held_foldl
    | with_reducible apply held_foldl_fst
    | exact hk.mono rfl
    | exact hk.1 _ rfl rfl
    | exact hk.2 _ rfl
    | exact hk.flds rfl
    | with_reducible apply held_else
    | with_reducible intro _
    | (simp only [↓held_mk]; with_reducible apply held_parts)
    | split
    | with_reducible refine held_of_pair (by assumption) ?_
    | dsimp only

theorem State.startMoves_stays {s : State} (h : Held P m s) (hk : Avoid P [.mgt, .ret, .fio])  : Held P m (State.startMoves s) := by
  unfold State.startMoves
  repeat' first
    | with_reducible assumption
    | with_reducible apply State.set_stays
    | with_reducible apply State.startEnds_stays
    | with_reducible apply held_foldl
    | with_reducible apply held_foldl_fst
    | exact hk.mono rfl
    | exact hk.1 _ rfl rfl
    | exact hk.2 _ rfl
    | exact hk.flds rfl
    | with_reducible apply held_else
    | with_reducible intro _
    | (simp only [↓held_mk]; with_reducible apply held_parts)
    | split
    | with_reducible refine held_of_pair (by assumption) ?_
    | dsimp only

theorem State.fusesLoaded_stays {s : State} (h : Held P m s) (hk : Avoid P [.mgt, .ret, .fio])  : Held P m (State.fusesLoaded s) := by
  unfold State.fusesLoaded
  repeat' first
    | with_reducible assumption
    | with_reducible apply State.modMgt_stays
    | with_reducible apply State.startMoves_stays
    | with_reducible apply held_foldl
    | with_reducible apply held_foldl_fst
    | exact hk.mono rfl
    | exact hk.1 _ rfl rfl
    | exact hk.2 _ rfl
    | exact hk.flds rfl
    | with_reducible apply held_else
    | with_reducible intro _
    | (simp only [↓held_mk]; with_reducible apply held_parts)
    | split
    | with_reducible refine held_of_pair (by assumption) ?_
    | dsimp only

theorem State.retiredAtStart_stays {s : State} (h : Held P m s) (hk : Avoid P [.lan, .clu, .memPc, .mem, .enc, .ejt, .fio]) (t : Nat) (i : Nat) : Held P m (State.retiredAtStart s t i) := by
  unfold State.retiredAtStart
  repeat' first
    | with_reducible assumption
    | with_reducible apply State.set_stays
    | with_reducible apply State.raise_stays
    | with_reducible apply State.laneRetire_stays
    | with_reducible apply held_foldl
    | with_reducible apply held_foldl_fst
    | exact hk.mono rfl
    | exact hk.1 _ rfl rfl
    | exact hk.2 _ rfl
    | exact hk.flds rfl
    | with_reducible apply held_else
    | with_reducible intro _
    | (simp only [↓held_mk]; with_reducible apply held_parts)
    | split
    | with_reducible refine held_of_pair (by assumption) ?_
    | dsimp only

theorem State.windowOpens_stays {s : State} (h : Held P m s) (hk : Avoid P [.sec])  : Held P m (State.windowOpens s) := by
  unfold State.windowOpens
  repeat' first
    | with_reducible assumption
    | with_reducible apply State.set_stays
    | with_reducible apply State.modMgt_stays
    | with_reducible apply held_foldl
    | with_reducible apply held_foldl_fst
    | exact hk.mono rfl
    | exact hk.1 _ rfl rfl
    | exact hk.2 _ rfl
    | exact hk.flds rfl
    | with_reducible apply held_else
    | with_reducible intro _
    | (simp only [↓held_mk]; with_reducible apply held_parts)
    | split
    | with_reducible refine held_of_pair (by assumption) ?_
    | dsimp only

theorem State.stepThree_stays {s : State} (h : Held P m s) (hk : Avoid P [.mgt, .sec, .ret, .fio])  : Held P m (State.stepThree s) := by
  unfold State.stepThree
  repeat' first
    | with_reducible assumption
    | with_reducible apply State.modMgt_stays
    | with_reducible apply State.windowOpens_stays
    | with_reducible apply State.startMoves_stays
    | with_reducible apply held_foldl
    | with_reducible apply held_foldl_fst
    | exact hk.mono rfl
    | exact hk.1 _ rfl rfl
    | exact hk.2 _ rfl
    | exact hk.flds rfl
    | with_reducible apply held_else
    | with_reducible intro _
    | (simp only [↓held_mk]; with_reducible apply held_parts)
    | split
    | with_reducible refine held_of_pair (by assumption) ?_
    | dsimp only

theorem State.velvetChecked_stays {s : State} (h : Held P m s) (hk : Avoid P [.mgt, .sec, .ret, .lan, .clu, .memPc, .mem, .enc, .ejt, .fio]) (coolant : Bool) (dirUe : Bool) (recUe0 : Bool) (recUe1 : Bool) : Held P m (State.velvetChecked s coolant dirUe recUe0 recUe1) := by
  unfold State.velvetChecked
  repeat' first
    | with_reducible assumption
    | with_reducible apply State.set_stays
    | with_reducible apply State.raise_stays
    | with_reducible apply State.forEach_stays
    | with_reducible apply State.retiredAtStart_stays
    | with_reducible apply State.modMgt_stays
    | with_reducible apply State.stepThree_stays
    | with_reducible apply State.startMoves_stays
    | with_reducible apply held_foldl
    | with_reducible apply held_foldl_fst
    | exact hk.mono rfl
    | exact hk.1 _ rfl rfl
    | exact hk.2 _ rfl
    | exact hk.flds rfl
    | with_reducible apply held_else
    | with_reducible intro _
    | (simp only [↓held_mk]; with_reducible apply held_parts)
    | split
    | with_reducible refine held_of_pair (by assumption) ?_
    | dsimp only

theorem State.coolantRises_stays {s : State} (h : Held P m s) (hk : Avoid P [.mgt, .sec, .ret, .fio])  : Held P m (State.coolantRises s) := by
  unfold State.coolantRises
  repeat' first
    | with_reducible assumption
    | with_reducible apply State.stepThree_stays
    | with_reducible apply held_foldl
    | with_reducible apply held_foldl_fst
    | exact hk.mono rfl
    | exact hk.1 _ rfl rfl
    | exact hk.2 _ rfl
    | exact hk.flds rfl
    | with_reducible apply held_else
    | with_reducible intro _
    | (simp only [↓held_mk]; with_reducible apply held_parts)
    | split
    | with_reducible refine held_of_pair (by assumption) ?_
    | dsimp only

theorem State.hbmTrained_stays {s : State} (h : Held P m s) (hk : Avoid P [.mgt, .ret, .fio]) (kept : Bool) : Held P m (State.hbmTrained s kept) := by
  unfold State.hbmTrained
  repeat' first
    | with_reducible assumption
    | with_reducible apply State.modMgt_stays
    | with_reducible apply State.startMoves_stays
    | with_reducible apply held_foldl
    | with_reducible apply held_foldl_fst
    | exact hk.mono rfl
    | exact hk.1 _ rfl rfl
    | exact hk.2 _ rfl
    | exact hk.flds rfl
    | with_reducible apply held_else
    | with_reducible intro _
    | (simp only [↓held_mk]; with_reducible apply held_parts)
    | split
    | with_reducible refine held_of_pair (by assumption) ?_
    | dsimp only

theorem State.scrubbed_stays {s : State} (h : Held P m s) (hk : Avoid P [.mgt, .ret, .fio])  : Held P m (State.scrubbed s) := by
  unfold State.scrubbed
  repeat' first
    | with_reducible assumption
    | with_reducible apply State.set_stays
    | with_reducible apply State.modMgt_stays
    | with_reducible apply State.startMoves_stays
    | with_reducible apply held_foldl
    | with_reducible apply held_foldl_fst
    | exact hk.mono rfl
    | exact hk.1 _ rfl rfl
    | exact hk.2 _ rfl
    | exact hk.flds rfl
    | with_reducible apply held_else
    | with_reducible intro _
    | (simp only [↓held_mk]; with_reducible apply held_parts)
    | split
    | with_reducible refine held_of_pair (by assumption) ?_
    | dsimp only

theorem State.linkFalls_stays {s : State} (h : Held P m s) (hk : Avoid P [.hlk])  : Held P m (State.linkFalls s) := by
  unfold State.linkFalls
  repeat' first
    | with_reducible assumption
    | with_reducible apply State.set_stays
    | with_reducible apply State.count_stays
    | with_reducible apply State.raise_stays
    | with_reducible apply held_foldl
    | with_reducible apply held_foldl_fst
    | exact hk.mono rfl
    | exact hk.1 _ rfl rfl
    | exact hk.2 _ rfl
    | exact hk.flds rfl
    | with_reducible apply held_else
    | with_reducible intro _
    | (simp only [↓held_mk]; with_reducible apply held_parts)
    | split
    | with_reducible refine held_of_pair (by assumption) ?_
    | dsimp only

theorem State.linkRises_stays {s : State} (h : Held P m s) (hk : Avoid P [.mgt, .sec, .ret, .hlk, .fio]) (rate : Nat) (modules : Nat) (repaired : Nat) : Held P m (State.linkRises s rate modules repaired) := by
  unfold State.linkRises
  repeat' first
    | with_reducible assumption
    | with_reducible apply State.set_stays
    | with_reducible apply State.raiseMask_stays
    | with_reducible apply State.modMgt_stays
    | with_reducible apply State.windowOpens_stays
    | with_reducible apply State.startMoves_stays
    | with_reducible apply held_foldl
    | with_reducible apply held_foldl_fst
    | exact hk.mono rfl
    | exact hk.1 _ rfl rfl
    | exact hk.2 _ rfl
    | exact hk.flds rfl
    | with_reducible apply held_else
    | with_reducible intro _
    | (simp only [↓held_mk]; with_reducible apply held_parts)
    | split
    | with_reducible refine held_of_pair (by assumption) ?_
    | dsimp only

theorem State.windowCloses_stays {s : State} (h : Held P m s) (hk : Avoid P [.mgt, .sec, .ret, .fio]) (fetch : Bool) : Held P m (State.windowCloses s fetch) := by
  unfold State.windowCloses
  repeat' first
    | with_reducible assumption
    | with_reducible apply State.set_stays
    | with_reducible apply State.modMgt_stays
    | with_reducible apply State.startMoves_stays
    | with_reducible apply held_foldl
    | with_reducible apply held_foldl_fst
    | exact hk.mono rfl
    | exact hk.1 _ rfl rfl
    | exact hk.2 _ rfl
    | exact hk.flds rfl
    | with_reducible apply held_else
    | with_reducible intro _
    | (simp only [↓held_mk]; with_reducible apply held_parts)
    | split
    | with_reducible refine held_of_pair (by assumption) ?_
    | dsimp only

theorem State.patchCtrl_stays {s : State} (h : Held P m s) (hk : Avoid P [.mgt, .sec, .ret, .fio]) (fn : Nat) (v : Nat) : Held P m (State.patchCtrl s fn v) := by
  unfold State.patchCtrl
  repeat' first
    | with_reducible assumption
    | with_reducible apply State.code_stays
    | with_reducible apply State.set_stays
    | with_reducible apply State.windowCloses_stays
    | with_reducible apply held_foldl
    | with_reducible apply held_foldl_fst
    | exact hk.mono rfl
    | exact hk.1 _ rfl rfl
    | exact hk.2 _ rfl
    | exact hk.flds rfl
    | with_reducible apply held_else
    | with_reducible intro _
    | (simp only [↓held_mk]; with_reducible apply held_parts)
    | split
    | with_reducible refine held_of_pair (by assumption) ?_
    | dsimp only

theorem State.windowTimesOut_stays {s : State} (h : Held P m s) (hk : Avoid P [.mgt, .sec, .ret, .clu, .tim, .fio, .pmc])  : Held P m (State.windowTimesOut s) := by
  unfold State.windowTimesOut
  repeat' first
    | with_reducible assumption
    | with_reducible apply State.runTo_stays
    | with_reducible apply State.windowCloses_stays
    | with_reducible apply held_foldl
    | with_reducible apply held_foldl_fst
    | exact hk.mono rfl
    | exact hk.1 _ rfl rfl
    | exact hk.2 _ rfl
    | exact hk.flds rfl
    | with_reducible apply held_else
    | with_reducible intro _
    | (simp only [↓held_mk]; with_reducible apply held_parts)
    | split
    | with_reducible refine held_of_pair (by assumption) ?_
    | dsimp only

theorem State.patchHeld_stays {s : State} (h : Held P m s) (hk : Avoid P [.sec]) (fn : Nat) (off : Nat) (act : State → State) (ha : ∀ t, Held P m t → Held P m (act t)) : Held P m (State.patchHeld s fn off act) := by
  unfold State.patchHeld
  repeat' first
    | with_reducible assumption
    | with_reducible apply State.code_stays
    | with_reducible apply ha
    | with_reducible apply held_foldl
    | with_reducible apply held_foldl_fst
    | exact hk.mono rfl
    | exact hk.1 _ rfl rfl
    | exact hk.2 _ rfl
    | exact hk.flds rfl
    | with_reducible apply held_else
    | with_reducible intro _
    | (simp only [↓held_mk]; with_reducible apply held_parts)
    | split
    | with_reducible refine held_of_pair (by assumption) ?_
    | dsimp only

theorem State.patchChecked_stays {s : State} (h : Held P m s) (hk : Avoid P [.mgt, .sec, .ret, .fio]) (b : List Nat) (fetched : Bool) : Held P m (State.patchChecked s b fetched) := by
  unfold State.patchChecked
  repeat' first
    | with_reducible assumption
    | with_reducible apply State.set_stays
    | with_reducible apply State.modMgt_stays
    | with_reducible apply State.raise_stays
    | with_reducible apply State.startMoves_stays
    | with_reducible apply held_foldl
    | with_reducible apply held_foldl_fst
    | exact hk.mono rfl
    | exact hk.1 _ rfl rfl
    | exact hk.2 _ rfl
    | exact hk.flds rfl
    | with_reducible apply held_else
    | with_reducible intro _
    | (simp only [↓held_mk]; with_reducible apply held_parts)
    | split
    | with_reducible refine held_of_pair (by assumption) ?_
    | dsimp only

theorem State.stopNow_stays {s : State} (h : Held P m s) (hk : Avoid P [.mgt, .lan, .ejt, .fio]) (coolant : Bool) : Held P m (State.stopNow s coolant) := by
  unfold State.stopNow
  repeat' first
    | with_reducible assumption
    | with_reducible apply State.modMgt_stays
    | with_reducible apply State.safeHold_stays
    | with_reducible apply State.forEach_stays
    | with_reducible apply State.laneSleep_stays
    | with_reducible apply State.set_stays
    | with_reducible apply State.sendVid_stays
    | with_reducible apply State.raise_stays
    | with_reducible apply held_foldl
    | with_reducible apply held_foldl_fst
    | exact hk.mono rfl
    | exact hk.1 _ rfl rfl
    | exact hk.2 _ rfl
    | exact hk.flds rfl
    | with_reducible apply held_else
    | with_reducible intro _
    | (simp only [↓held_mk]; with_reducible apply held_parts)
    | split
    | with_reducible refine held_of_pair (by assumption) ?_
    | dsimp only

theorem State.startBegins_stays {s : State} (h : Held P m s) (hk : Avoid P [.mgt, .ret, .fio])  : Held P m (State.startBegins s) := by
  unfold State.startBegins
  repeat' first
    | with_reducible assumption
    | with_reducible apply State.set_stays
    | with_reducible apply State.modMgt_stays
    | with_reducible apply State.startMoves_stays
    | with_reducible apply held_foldl
    | with_reducible apply held_foldl_fst
    | exact hk.mono rfl
    | exact hk.1 _ rfl rfl
    | exact hk.2 _ rfl
    | exact hk.flds rfl
    | with_reducible apply held_else
    | with_reducible intro _
    | (simp only [↓held_mk]; with_reducible apply held_parts)
    | split
    | with_reducible refine held_of_pair (by assumption) ?_
    | dsimp only

theorem State.resetFalls_stays {s : State} (h : Held P m s) (hk : Avoid P [])  : Held P m (State.resetFalls s) := by
  unfold State.resetFalls
  repeat' first
    | with_reducible assumption
    | with_reducible apply State.modMgt_stays
    | with_reducible apply held_foldl
    | with_reducible apply held_foldl_fst
    | exact hk.mono rfl
    | exact hk.1 _ rfl rfl
    | exact hk.2 _ rfl
    | exact hk.flds rfl
    | with_reducible apply held_else
    | with_reducible intro _
    | (simp only [↓held_mk]; with_reducible apply held_parts)
    | split
    | with_reducible refine held_of_pair (by assumption) ?_
    | dsimp only

theorem State.resetRises_stays {s : State} (h : Held P m s) (hk : Avoid P [.mgt, .ret, .tim, .fio]) (refsel : Bool) : Held P m (State.resetRises s refsel) := by
  unfold State.resetRises
  repeat' first
    | with_reducible assumption
    | with_reducible apply State.modMgt_stays
    | with_reducible apply State.set_stays
    | with_reducible apply State.startBegins_stays
    | with_reducible apply held_foldl
    | with_reducible apply held_foldl_fst
    | exact hk.mono rfl
    | exact hk.1 _ rfl rfl
    | exact hk.2 _ rfl
    | exact hk.flds rfl
    | with_reducible apply held_else
    | with_reducible intro _
    | (simp only [↓held_mk]; with_reducible apply held_parts)
    | split
    | with_reducible refine held_of_pair (by assumption) ?_
    | dsimp only

theorem State.resetWrite_stays {s : State} (h : Held P m s) (hk : Avoid P [.mgt]) (fn : Nat) (v : Nat) : Held P m (State.resetWrite s fn v) := by
  unfold State.resetWrite
  repeat' first
    | with_reducible assumption
    | with_reducible apply State.code_stays
    | with_reducible apply State.set_stays
    | with_reducible apply State.modMgt_stays
    | with_reducible apply held_foldl
    | with_reducible apply held_foldl_fst
    | exact hk.mono rfl
    | exact hk.1 _ rfl rfl
    | exact hk.2 _ rfl
    | exact hk.flds rfl
    | with_reducible apply held_else
    | with_reducible intro _
    | (simp only [↓held_mk]; with_reducible apply held_parts)
    | split
    | with_reducible refine held_of_pair (by assumption) ?_
    | dsimp only

theorem State.cqTimerEnds_stays {s : State} (h : Held P m s) (hk : Avoid P [.clu, .tim, .pmc]) (p : Nat) (c : Nat) : Held P m (State.cqTimerEnds s p c) := by
  unfold State.cqTimerEnds
  repeat' first
    | with_reducible assumption
    | with_reducible apply State.runTo_stays
    | with_reducible apply State.cqTimer_stays
    | with_reducible apply held_foldl
    | with_reducible apply held_foldl_fst
    | exact hk.mono rfl
    | exact hk.1 _ rfl rfl
    | exact hk.2 _ rfl
    | exact hk.flds rfl
    | with_reducible apply held_else
    | with_reducible intro _
    | (simp only [↓held_mk]; with_reducible apply held_parts)
    | split
    | with_reducible refine held_of_pair (by assumption) ?_
    | dsimp only

theorem State.slicePasses_stays {s : State} (h : Held P m s) (hk : Avoid P [.clu, .tim, .pmc]) (p : Nat) : Held P m (State.slicePasses s p) := by
  unfold State.slicePasses
  repeat' first
    | with_reducible assumption
    | with_reducible apply State.runToNs_stays
    | with_reducible apply State.sliceEnds_stays
    | with_reducible apply held_foldl
    | with_reducible apply held_foldl_fst
    | exact hk.mono rfl
    | exact hk.1 _ rfl rfl
    | exact hk.2 _ rfl
    | exact hk.flds rfl
    | with_reducible apply held_else
    | with_reducible intro _
    | (simp only [↓held_mk]; with_reducible apply held_parts)
    | split
    | with_reducible refine held_of_pair (by assumption) ?_
    | dsimp only

theorem State.watchdogPasses_stays {s : State} (h : Held P m s) (hk : Avoid P [.cmdPart, .clu, .tim, .ejt, .pmc]) (p : Nat) : Held P m (State.watchdogPasses s p) := by
  unfold State.watchdogPasses
  repeat' first
    | with_reducible assumption
    | with_reducible apply State.runTo_stays
    | with_reducible apply State.watchdogAbort_stays
    | with_reducible apply held_foldl
    | with_reducible apply held_foldl_fst
    | exact hk.mono rfl
    | exact hk.1 _ rfl rfl
    | exact hk.2 _ rfl
    | exact hk.flds rfl
    | with_reducible apply held_else
    | with_reducible intro _
    | (simp only [↓held_mk]; with_reducible apply held_parts)
    | split
    | with_reducible refine held_of_pair (by assumption) ?_
    | dsimp only

theorem State.refreshOf_stays {s : State} (h : Held P m s) (hk : Avoid P [.memPc, .pmc]) (pc : Nat) : Held P m (State.refreshOf s pc) := by
  unfold State.refreshOf
  repeat' first
    | with_reducible assumption
    | with_reducible apply State.count_stays
    | with_reducible apply State.pmc_stays
    | with_reducible apply held_foldl
    | with_reducible apply held_foldl_fst
    | exact hk.mono rfl
    | exact hk.1 _ rfl rfl
    | exact hk.2 _ rfl
    | exact hk.flds rfl
    | with_reducible apply held_else
    | with_reducible intro _
    | (simp only [↓held_mk]; with_reducible apply held_parts)
    | split
    | with_reducible refine held_of_pair (by assumption) ?_
    | dsimp only

theorem State.correctableIn_stays {s : State} (h : Held P m s) (hk : Avoid P [.mgt, .atn, .memPc, .mem]) (pc : Nat) (line : Nat) : Held P m (State.correctableIn s pc line) := by
  unfold State.correctableIn
  repeat' first
    | with_reducible assumption
    | with_reducible apply State.ceFound_stays
    | with_reducible apply State.sramCount_stays
    | with_reducible apply held_foldl
    | with_reducible apply held_foldl_fst
    | exact hk.mono rfl
    | exact hk.1 _ rfl rfl
    | exact hk.2 _ rfl
    | exact hk.flds rfl
    | with_reducible apply held_else
    | with_reducible intro _
    | (simp only [↓held_mk]; with_reducible apply held_parts)
    | split
    | with_reducible refine held_of_pair (by assumption) ?_
    | dsimp only

theorem State.bwWindows_stays {s : State} (h : Held P m s) (hk : Avoid P [.memPart, .pmc])  : Held P m (State.bwWindows s) := by
  unfold State.bwWindows
  repeat' first
    | with_reducible assumption
    | with_reducible apply State.forEach_stays
    | with_reducible apply State.bwWindow_stays
    | with_reducible apply held_foldl
    | with_reducible apply held_foldl_fst
    | exact hk.mono rfl
    | exact hk.1 _ rfl rfl
    | exact hk.2 _ rfl
    | exact hk.flds rfl
    | with_reducible apply held_else
    | with_reducible intro _
    | (simp only [↓held_mk]; with_reducible apply held_parts)
    | split
    | with_reducible refine held_of_pair (by assumption) ?_
    | dsimp only

theorem State.peerReadPasses_stays {s : State} (h : Held P m s) (hk : Avoid P [.clu, .atnPool, .tim, .pmc])  : Held P m (State.peerReadPasses s) := by
  unfold State.peerReadPasses
  repeat' first
    | with_reducible assumption
    | with_reducible apply State.runTo_stays
    | with_reducible apply State.peerReadTimeout_stays
    | with_reducible apply held_foldl
    | with_reducible apply held_foldl_fst
    | exact hk.mono rfl
    | exact hk.1 _ rfl rfl
    | exact hk.2 _ rfl
    | exact hk.flds rfl
    | with_reducible apply held_else
    | with_reducible intro _
    | (simp only [↓held_mk]; with_reducible apply held_parts)
    | split
    | with_reducible refine held_of_pair (by assumption) ?_
    | dsimp only

theorem State.takeSpan_stays {s : State} (h : Held P m s) (hk : Avoid P [.trk, .ejt])  : Held P m (State.takeSpan s) := by
  unfold State.takeSpan
  repeat' first
    | with_reducible assumption
    | with_reducible apply State.modTrk_stays
    | with_reducible apply State.spanTake_stays
    | with_reducible apply held_foldl
    | with_reducible apply held_foldl_fst
    | exact hk.mono rfl
    | exact hk.1 _ rfl rfl
    | exact hk.2 _ rfl
    | exact hk.flds rfl
    | with_reducible apply held_else
    | with_reducible intro _
    | (simp only [↓held_mk]; with_reducible apply held_parts)
    | split
    | with_reducible refine held_of_pair (by assumption) ?_
    | dsimp only

theorem State.takeEntry_stays {s : State} (h : Held P m s) (hk : Avoid P []) (k : Nat) (act : State → PartEntry → State)
    (ha : ∀ t e, Held P m t → Held P m (act t e)) : Held P m (s.takeEntry k act) := by
  unfold State.takeEntry
  split
  · exact h
  · split
    · exact ha _ _ (State.modTrk_stays h (hk.mono rfl) _)
    · exact h

theorem State.takeVerdict_stays {s : State} (h : Held P m s) (hk : Avoid P [.lanPeer, .trk, .ejt]) (final : Bool) : Held P m (State.takeVerdict s final) := by
  unfold State.takeVerdict
  repeat' first
    | with_reducible assumption
    | with_reducible apply State.verdicts_stays
    | with_reducible apply State.modTrk_stays
    | with_reducible apply State.trkVerdict_stays
    | with_reducible apply held_foldl
    | with_reducible apply held_foldl_fst
    | exact hk.mono rfl
    | exact hk.1 _ rfl rfl
    | exact hk.2 _ rfl
    | exact hk.flds rfl
    | with_reducible apply held_else
    | with_reducible intro _
    | (simp only [↓held_mk]; with_reducible apply held_parts)
    | split
    | with_reducible refine held_of_pair (by assumption) ?_
    | dsimp only

theorem State.hostRead_stays {s : State} (h : Held P m s) (hk : Avoid P []) (fn : Nat) (off : Nat) : Held P m (State.hostRead s fn off) := by
  unfold State.hostRead
  repeat' first
    | with_reducible assumption
    | with_reducible apply State.emit_stays
    | with_reducible apply held_foldl
    | with_reducible apply held_foldl_fst
    | exact hk.mono rfl
    | exact hk.1 _ rfl rfl
    | exact hk.2 _ rfl
    | exact hk.flds rfl
    | with_reducible apply held_else
    | with_reducible intro _
    | (simp only [↓held_mk]; with_reducible apply held_parts)
    | split
    | with_reducible refine held_of_pair (by assumption) ?_
    | dsimp only

theorem State.releaseCommits_stays {s : State} (h : Held P m s) (hk : Avoid P []) (ok : PageId → Bool) : Held P m (State.releaseCommits s ok) := by
  unfold State.releaseCommits
  repeat' first
    | with_reducible assumption
    | with_reducible apply held_foldl
    | with_reducible apply held_foldl_fst
    | exact hk.mono rfl
    | exact hk.1 _ rfl rfl
    | exact hk.2 _ rfl
    | exact hk.flds rfl
    | with_reducible apply held_else
    | with_reducible intro _
    | (simp only [↓held_mk]; with_reducible apply held_parts)
    | split
    | with_reducible refine held_of_pair (by assumption) ?_
    | dsimp only

theorem State.releaseEverything_stays {s : State} (h : Held P m s) (hk : Avoid P [])  : Held P m (State.releaseEverything s) := by
  unfold State.releaseEverything
  repeat' first
    | with_reducible assumption
    | with_reducible apply State.releaseCommits_stays
    | with_reducible apply State.forEach_stays
    | with_reducible apply State.releaseLoads_stays
    | with_reducible apply held_foldl
    | with_reducible apply held_foldl_fst
    | exact hk.mono rfl
    | exact hk.1 _ rfl rfl
    | exact hk.2 _ rfl
    | exact hk.flds rfl
    | with_reducible apply held_else
    | with_reducible intro _
    | (simp only [↓held_mk]; with_reducible apply held_parts)
    | split
    | with_reducible refine held_of_pair (by assumption) ?_
    | dsimp only

theorem State.releasePart_stays {s : State} (h : Held P m s) (hk : Avoid P []) (p : Nat) : Held P m (State.releasePart s p) := by
  unfold State.releasePart
  repeat' first
    | with_reducible assumption
    | with_reducible apply State.releaseCommits_stays
    | with_reducible apply State.releaseLoads_stays
    | with_reducible apply held_foldl
    | with_reducible apply held_foldl_fst
    | exact hk.mono rfl
    | exact hk.1 _ rfl rfl
    | exact hk.2 _ rfl
    | exact hk.flds rfl
    | with_reducible apply held_else
    | with_reducible intro _
    | (simp only [↓held_mk]; with_reducible apply held_parts)
    | split
    | with_reducible refine held_of_pair (by assumption) ?_
    | dsimp only

theorem State.originWrite_stays {s : State} (h : Held P m s) (hk : Avoid P []) (p : PageId) (j : Nat) (v : Nat) : Held P m (State.originWrite s p j v) := by
  unfold State.originWrite
  repeat' first
    | with_reducible assumption
    | with_reducible apply State.dropLow_stays
    | with_reducible apply State.setShadow_stays
    | with_reducible apply held_foldl
    | with_reducible apply held_foldl_fst
    | exact hk.mono rfl
    | exact hk.1 _ rfl rfl
    | exact hk.2 _ rfl
    | exact hk.flds rfl
    | with_reducible apply held_else
    | with_reducible intro _
    | (simp only [↓held_mk]; with_reducible apply held_parts)
    | split
    | with_reducible refine held_of_pair (by assumption) ?_
    | dsimp only

theorem State.slip_stays {s : State} (h : Held P m s) (hk : Avoid P [.lan]) (l : Nat) : Held P m (State.slip s l) := by
  unfold State.slip
  repeat' first
    | with_reducible assumption
    | with_reducible apply State.countWrap_stays
    | with_reducible apply held_foldl
    | with_reducible apply held_foldl_fst
    | exact hk.mono rfl
    | exact hk.1 _ rfl rfl
    | exact hk.2 _ rfl
    | exact hk.flds rfl
    | with_reducible apply held_else
    | with_reducible intro _
    | (simp only [↓held_mk]; with_reducible apply held_parts)
    | split
    | with_reducible refine held_of_pair (by assumption) ?_
    | dsimp only

theorem State.unmasked_stays {s : State} (h : Held P m s) (hk : Avoid P [.cmd, .cmdPart]) (fn : Nat) (vec : Nat) : Held P m (State.unmasked s fn vec) := by
  unfold State.unmasked
  repeat' first
    | with_reducible assumption
    | with_reducible apply State.setPba_stays
    | with_reducible apply State.sendMsix_stays
    | with_reducible apply held_foldl
    | with_reducible apply held_foldl_fst
    | exact hk.mono rfl
    | exact hk.1 _ rfl rfl
    | exact hk.2 _ rfl
    | exact hk.flds rfl
    | with_reducible apply held_else
    | with_reducible intro _
    | (simp only [↓held_mk]; with_reducible apply held_parts)
    | split
    | with_reducible refine held_of_pair (by assumption) ?_
    | dsimp only

theorem State.pmcControl_stays {s : State} (h : Held P m s) (hk : Avoid P [.pmc]) (freeze : Bool) (unfreeze : Bool) : Held P m (State.pmcControl s freeze unfreeze) := by
  unfold State.pmcControl
  repeat' first
    | with_reducible assumption
    | with_reducible apply State.pmcFreezeNow_stays
    | with_reducible apply State.set_stays
    | with_reducible apply held_foldl
    | with_reducible apply held_foldl_fst
    | exact hk.mono rfl
    | exact hk.1 _ rfl rfl
    | exact hk.2 _ rfl
    | exact hk.flds rfl
    | with_reducible apply held_else
    | with_reducible intro _
    | (simp only [↓held_mk]; with_reducible apply held_parts)
    | split
    | with_reducible refine held_of_pair (by assumption) ?_
    | dsimp only

theorem State.pmcClear_stays {s : State} (h : Held P m s) (hk : Avoid P [.pmc]) (fn : Nat) (mask : Nat) : Held P m (State.pmcClear s fn mask) := by
  unfold State.pmcClear
  repeat' first
    | with_reducible assumption
    | with_reducible apply State.forEach_stays
    | with_reducible apply State.set_stays
    | with_reducible apply State.code_stays
    | with_reducible apply held_foldl
    | with_reducible apply held_foldl_fst
    | exact hk.mono rfl
    | exact hk.1 _ rfl rfl
    | exact hk.2 _ rfl
    | exact hk.flds rfl
    | with_reducible apply held_else
    | with_reducible intro _
    | (simp only [↓held_mk]; with_reducible apply held_parts)
    | split
    | with_reducible refine held_of_pair (by assumption) ?_
    | dsimp only

theorem State.pmcStart_stays {s : State} (h : Held P m s) (hk : Avoid P [.pmc]) (n : Nat) : Held P m (State.pmcStart s n) := by
  unfold State.pmcStart
  repeat' first
    | with_reducible assumption
    | with_reducible apply State.set_stays
    | with_reducible apply held_foldl
    | with_reducible apply held_foldl_fst
    | exact hk.mono rfl
    | exact hk.1 _ rfl rfl
    | exact hk.2 _ rfl
    | exact hk.flds rfl
    | with_reducible apply held_else
    | with_reducible intro _
    | (simp only [↓held_mk]; with_reducible apply held_parts)
    | split
    | with_reducible refine held_of_pair (by assumption) ?_
    | dsimp only

theorem State.retCtrl_stays {s : State} (h : Held P m s) (hk : Avoid P [.ret]) (fn : Nat) (v : Nat) : Held P m (State.retCtrl s fn v) := by
  unfold State.retCtrl
  repeat' first
    | with_reducible assumption
    | with_reducible apply State.snapGo_stays
    | with_reducible apply State.velvetErase_stays
    | with_reducible apply held_foldl
    | with_reducible apply held_foldl_fst
    | exact hk.mono rfl
    | exact hk.1 _ rfl rfl
    | exact hk.2 _ rfl
    | exact hk.flds rfl
    | with_reducible apply held_else
    | with_reducible intro _
    | (simp only [↓held_mk]; with_reducible apply held_parts)
    | split
    | with_reducible refine held_of_pair (by assumption) ?_
    | dsimp only

theorem State.bar2Traffic_stays {s : State} (h : Held P m s) (hk : Avoid P [.memPc, .memPart, .pmc]) (fn : Nat) (a : Nat) (n : Nat) (write : Bool) : Held P m (State.bar2Traffic s fn a n write) := by
  unfold State.bar2Traffic
  repeat' first
    | with_reducible assumption
    | with_reducible apply State.countWr_stays
    | with_reducible apply State.countRd_stays
    | with_reducible apply State.forEach_stays
    | with_reducible apply State.bwRequest_stays
    | with_reducible apply held_foldl
    | with_reducible apply held_foldl_fst
    | exact hk.mono rfl
    | exact hk.1 _ rfl rfl
    | exact hk.2 _ rfl
    | exact hk.flds rfl
    | with_reducible apply held_else
    | with_reducible intro _
    | (simp only [↓held_mk]; with_reducible apply held_parts)
    | split
    | with_reducible refine held_of_pair (by assumption) ?_
    | dsimp only

theorem State.bar2Word_stays {s : State} (h : Held P m s) (hk : Avoid P [.memPc]) (a : Nat) (bytes : List (Nat × Bool)) : Held P m (State.bar2Word s a bytes) := by
  unfold State.bar2Word
  repeat' first
    | with_reducible assumption
    | with_reducible apply State.devWrite_stays
    | with_reducible apply State.raise_stays
    | with_reducible apply State.forEach_stays
    | with_reducible apply held_foldl
    | with_reducible apply held_foldl_fst
    | exact hk.mono rfl
    | exact hk.1 _ rfl rfl
    | exact hk.2 _ rfl
    | exact hk.flds rfl
    | with_reducible apply held_else
    | with_reducible intro _
    | (simp only [↓held_mk]; with_reducible apply held_parts)
    | split
    | with_reducible refine held_of_pair (by assumption) ?_
    | dsimp only

theorem State.bar2Write_stays {s : State} (h : Held P m s) (hk : Avoid P [.hlk, .memPc, .memPart, .pmc]) (fn : Nat) (off : Nat) (data : List Nat) : Held P m (State.bar2Write s fn off data) := by
  unfold State.bar2Write
  repeat' first
    | with_reducible assumption
    | with_reducible apply State.forEach_stays
    | with_reducible apply State.bar2Word_stays
    | with_reducible apply State.bar2Traffic_stays
    | with_reducible apply State.deny_stays
    | with_reducible apply held_foldl
    | with_reducible apply held_foldl_fst
    | exact hk.mono rfl
    | exact hk.1 _ rfl rfl
    | exact hk.2 _ rfl
    | exact hk.flds rfl
    | with_reducible apply held_else
    | with_reducible intro _
    | (simp only [↓held_mk]; with_reducible apply held_parts)
    | split
    | with_reducible refine held_of_pair (by assumption) ?_
    | dsimp only

theorem State.bar2Read_stays {s : State} (h : Held P m s) (hk : Avoid P [.mgt, .memPc, .mem, .memPart, .pmc]) (fn : Nat) (off : Nat) (n : Nat) : Held P m (State.bar2Read s fn off n) := by
  unfold State.bar2Read
  repeat' first
    | with_reducible assumption
    | with_reducible apply State.emit_stays
    | with_reducible apply State.bar2Traffic_stays
    | with_reducible apply State.forEach_stays
    | with_reducible apply State.ueFound_stays
    | with_reducible apply State.hostUe_stays
    | with_reducible apply held_foldl
    | with_reducible apply held_foldl_fst
    | exact hk.mono rfl
    | exact hk.1 _ rfl rfl
    | exact hk.2 _ rfl
    | exact hk.flds rfl
    | with_reducible apply held_else
    | with_reducible intro _
    | (simp only [↓held_mk]; with_reducible apply held_parts)
    | split
    | with_reducible refine held_of_pair (by assumption) ?_
    | dsimp only

end Sys2Proof.Machine
end

