-- ==== Sys2Proof/Laws/Held6.lean ====
section
/-!
SUPPORT. Laws/Held6.lean: the operations of the machine leave the registers that lie on pages they do not reach.
-/
namespace Sys2Proof.Machine

set_option linter.unusedSimpArgs false
set_option linter.unusedVariables false

variable {P : Fld → Bool} {m : Fld → Nat → Nat → Nat}

theorem State.streamEnd_stays {s : State} (h : Held P m s) (hk : Avoid P [.lan, .capCtx, .trk, .ejt, .pmc]) (l : Nat) (crcOk : Bool) (violation : Bool) (broke : Bool) : Held P m (State.streamEnd s l crcOk violation broke) := by
  unfold State.streamEnd
  repeat' first
    | with_reducible assumption
    | with_reducible apply State.count_stays
    | with_reducible apply State.pmc_stays
    | with_reducible apply State.raise_stays
    | with_reducible apply State.lineDiscard_stays
    | with_reducible apply held_foldl
    | with_reducible apply held_foldl_fst
    | exact hk.mono rfl
    | exact hk.1 _ rfl rfl
    | exact hk.2 _ rfl
    | exact hk.flds rfl
    | with_reducible apply held_else
    | with_reducible intro _
    | (simp only [↓held_mk]; with_reducible apply held_parts)
    | split
    | with_reducible refine held_of_pair (by assumption) ?_
    | dsimp only

theorem State.mbxSent_stays {s : State} (h : Held P m s) (hk : Avoid P [.lan, .cap]) (l : Nat) : Held P m (State.mbxSent s l) := by
  unfold State.mbxSent
  repeat' first
    | with_reducible assumption
    | with_reducible apply State.set_stays
    | with_reducible apply State.raise_stays
    | with_reducible apply State.settleArm_stays
    | with_reducible apply held_foldl
    | with_reducible apply held_foldl_fst
    | exact hk.mono rfl
    | exact hk.1 _ rfl rfl
    | exact hk.2 _ rfl
    | exact hk.flds rfl
    | with_reducible apply held_else
    | with_reducible intro _
    | (simp only [↓held_mk]; with_reducible apply held_parts)
    | split
    | with_reducible refine held_of_pair (by assumption) ?_
    | dsimp only

theorem State.nextSpeed_stays {s : State} (h : Held P m s) (hk : Avoid P [.lan]) (l : Nat) : Held P m (State.nextSpeed s l) := by
  unfold State.nextSpeed
  repeat' first
    | with_reducible assumption
    | with_reducible apply State.set_stays
    | with_reducible apply held_foldl
    | with_reducible apply held_foldl_fst
    | exact hk.mono rfl
    | exact hk.1 _ rfl rfl
    | exact hk.2 _ rfl
    | exact hk.flds rfl
    | with_reducible apply held_else
    | with_reducible intro _
    | (simp only [↓held_mk]; with_reducible apply held_parts)
    | split
    | with_reducible refine held_of_pair (by assumption) ?_
    | dsimp only

theorem State.lockLate_stays {s : State} (h : Held P m s) (hk : Avoid P [.lan]) (l : Nat) : Held P m (State.lockLate s l) := by
  unfold State.lockLate
  repeat' first
    | with_reducible assumption
    | with_reducible apply State.raise_stays
    | with_reducible apply held_foldl
    | with_reducible apply held_foldl_fst
    | exact hk.mono rfl
    | exact hk.1 _ rfl rfl
    | exact hk.2 _ rfl
    | exact hk.flds rfl
    | with_reducible apply held_else
    | with_reducible intro _
    | (simp only [↓held_mk]; with_reducible apply held_parts)
    | split
    | with_reducible refine held_of_pair (by assumption) ?_
    | dsimp only

theorem State.loseLock_stays {s : State} (h : Held P m s) (hk : Avoid P [.mgt, .lan, .lanPeer]) (l : Nat) : Held P m (State.loseLock s l) := by
  unfold State.loseLock
  repeat' first
    | with_reducible assumption
    | with_reducible apply State.dropLock_stays
    | with_reducible apply State.count_stays
    | with_reducible apply State.raise_stays
    | with_reducible apply State.peerFollow_stays
    | with_reducible apply State.laneUpset_stays
    | with_reducible apply held_foldl
    | with_reducible apply held_foldl_fst
    | exact hk.mono rfl
    | exact hk.1 _ rfl rfl
    | exact hk.2 _ rfl
    | exact hk.flds rfl
    | with_reducible apply held_else
    | with_reducible intro _
    | (simp only [↓held_mk]; with_reducible apply held_parts)
    | split
    | with_reducible refine held_of_pair (by assumption) ?_
    | dsimp only

theorem State.flipPolarity_stays {s : State} (h : Held P m s) (hk : Avoid P [.lan]) (l : Nat) : Held P m (State.flipPolarity s l) := by
  unfold State.flipPolarity
  repeat' first
    | with_reducible assumption
    | with_reducible apply State.set_stays
    | with_reducible apply State.raise_stays
    | with_reducible apply held_foldl
    | with_reducible apply held_foldl_fst
    | exact hk.mono rfl
    | exact hk.1 _ rfl rfl
    | exact hk.2 _ rfl
    | exact hk.flds rfl
    | with_reducible apply held_else
    | with_reducible intro _
    | (simp only [↓held_mk]; with_reducible apply held_parts)
    | split
    | with_reducible refine held_of_pair (by assumption) ?_
    | dsimp only

theorem State.rawWord_stays {s : State} (h : Held P m s) (hk : Avoid P [.lan]) (l : Nat) (word : Nat) : Held P m (State.rawWord s l word) := by
  unfold State.rawWord
  repeat' first
    | with_reducible assumption
    | with_reducible apply State.set_stays
    | with_reducible apply State.raise_stays
    | with_reducible apply held_foldl
    | with_reducible apply held_foldl_fst
    | exact hk.mono rfl
    | exact hk.1 _ rfl rfl
    | exact hk.2 _ rfl
    | exact hk.flds rfl
    | with_reducible apply held_else
    | with_reducible intro _
    | (simp only [↓held_mk]; with_reducible apply held_parts)
    | split
    | with_reducible refine held_of_pair (by assumption) ?_
    | dsimp only

theorem State.wakeDone_stays {s : State} (h : Held P m s) (hk : Avoid P [.lan]) (l : Nat) : Held P m (State.wakeDone s l) := by
  unfold State.wakeDone
  repeat' first
    | with_reducible assumption
    | with_reducible apply State.set_stays
    | with_reducible apply State.wakeSettled_stays
    | with_reducible apply State.raise_stays
    | with_reducible apply held_foldl
    | with_reducible apply held_foldl_fst
    | exact hk.mono rfl
    | exact hk.1 _ rfl rfl
    | exact hk.2 _ rfl
    | exact hk.flds rfl
    | with_reducible apply held_else
    | with_reducible intro _
    | (simp only [↓held_mk]; with_reducible apply held_parts)
    | split
    | with_reducible refine held_of_pair (by assumption) ?_
    | dsimp only

theorem State.peerBlocked_stays {s : State} (h : Held P m s) (hk : Avoid P [.lanPeer]) (g : Nat) : Held P m (State.peerBlocked s g) := by
  unfold State.peerBlocked
  repeat' first
    | with_reducible assumption
    | with_reducible apply State.set_stays
    | with_reducible apply held_foldl
    | with_reducible apply held_foldl_fst
    | exact hk.mono rfl
    | exact hk.1 _ rfl rfl
    | exact hk.2 _ rfl
    | exact hk.flds rfl
    | with_reducible apply held_else
    | with_reducible intro _
    | (simp only [↓held_mk]; with_reducible apply held_parts)
    | split
    | with_reducible refine held_of_pair (by assumption) ?_
    | dsimp only

theorem State.peerLockLate_stays {s : State} (h : Held P m s) (hk : Avoid P [.lanPeer]) (g : Nat) : Held P m (State.peerLockLate s g) := by
  unfold State.peerLockLate
  repeat' first
    | with_reducible assumption
    | with_reducible apply State.peerFail_stays
    | with_reducible apply held_foldl
    | with_reducible apply held_foldl_fst
    | exact hk.mono rfl
    | exact hk.1 _ rfl rfl
    | exact hk.2 _ rfl
    | exact hk.flds rfl
    | with_reducible apply held_else
    | with_reducible intro _
    | (simp only [↓held_mk]; with_reducible apply held_parts)
    | split
    | with_reducible refine held_of_pair (by assumption) ?_
    | dsimp only

theorem State.helloLate_stays {s : State} (h : Held P m s) (hk : Avoid P [.lanPeer]) (g : Nat) : Held P m (State.helloLate s g) := by
  unfold State.helloLate
  repeat' first
    | with_reducible assumption
    | with_reducible apply State.peerFail_stays
    | with_reducible apply held_foldl
    | with_reducible apply held_foldl_fst
    | exact hk.mono rfl
    | exact hk.1 _ rfl rfl
    | exact hk.2 _ rfl
    | exact hk.flds rfl
    | with_reducible apply held_else
    | with_reducible intro _
    | (simp only [↓held_mk]; with_reducible apply held_parts)
    | split
    | with_reducible refine held_of_pair (by assumption) ?_
    | dsimp only

theorem State.peerLaneLost_stays {s : State} (h : Held P m s) (hk : Avoid P [.mgt, .lan, .lanPeer]) (g : Nat) (lane : Nat) : Held P m (State.peerLaneLost s g lane) := by
  unfold State.peerLaneLost
  repeat' first
    | with_reducible assumption
    | with_reducible apply State.loseLock_stays
    | with_reducible apply State.set_stays
    | with_reducible apply State.peerDown_stays
    | with_reducible apply held_foldl
    | with_reducible apply held_foldl_fst
    | exact hk.mono rfl
    | exact hk.1 _ rfl rfl
    | exact hk.2 _ rfl
    | exact hk.flds rfl
    | with_reducible apply held_else
    | with_reducible intro _
    | (simp only [↓held_mk]; with_reducible apply held_parts)
    | split
    | with_reducible refine held_of_pair (by assumption) ?_
    | dsimp only

theorem State.peerRetrain_stays {s : State} (h : Held P m s) (hk : Avoid P [.lanPeer]) (g : Nat) : Held P m (State.peerRetrain s g) := by
  unfold State.peerRetrain
  repeat' first
    | with_reducible assumption
    | with_reducible apply State.peerLock_stays
    | with_reducible apply held_foldl
    | with_reducible apply held_foldl_fst
    | exact hk.mono rfl
    | exact hk.1 _ rfl rfl
    | exact hk.2 _ rfl
    | exact hk.flds rfl
    | with_reducible apply held_else
    | with_reducible intro _
    | (simp only [↓held_mk]; with_reducible apply held_parts)
    | split
    | with_reducible refine held_of_pair (by assumption) ?_
    | dsimp only

theorem State.peerMessage_stays {s : State} (h : Held P m s) (hk : Avoid P [.lanPeer]) (g typ : Nat) (f : PeerFrame) (crc : Nat)
    (act : State → PeerMsg → State) (ha : ∀ t w, Held P m t → Held P m (act t w)) : Held P m (s.peerMessage g typ f crc act) := by
  unfold State.peerMessage
  repeat' first
    | with_reducible assumption
    | with_reducible apply State.peerReceive_stays
    | with_reducible apply ha
    | exact hk.mono rfl
    | with_reducible apply held_else
    | with_reducible intro _
    | split
    | dsimp only

theorem State.peerVerdict_stays {s : State} (h : Held P m s) (hk : Avoid P [.trk, .ejt]) (g : Nat) (m_ : PeerMsg) : Held P m (State.peerVerdict s g m_) := by
  unfold State.peerVerdict
  repeat' first
    | with_reducible assumption
    | with_reducible apply State.trkVerdict_stays
    | with_reducible apply held_foldl
    | with_reducible apply held_foldl_fst
    | exact hk.mono rfl
    | exact hk.1 _ rfl rfl
    | exact hk.2 _ rfl
    | exact hk.flds rfl
    | with_reducible apply held_else
    | with_reducible intro _
    | (simp only [↓held_mk]; with_reducible apply held_parts)
    | split
    | with_reducible refine held_of_pair (by assumption) ?_
    | dsimp only

theorem State.pushesSettle_stays {s : State} (h : Held P m s) (hk : Avoid P [.lanPeer])  : Held P m (State.pushesSettle s) := by
  unfold State.pushesSettle
  repeat' first
    | with_reducible assumption
    | with_reducible apply State.reapPushes_stays
    | with_reducible apply State.sendReqs_stays
    | with_reducible apply held_foldl
    | with_reducible apply held_foldl_fst
    | exact hk.mono rfl
    | exact hk.1 _ rfl rfl
    | exact hk.2 _ rfl
    | exact hk.flds rfl
    | with_reducible apply held_else
    | with_reducible intro _
    | (simp only [↓held_mk]; with_reducible apply held_parts)
    | split
    | with_reducible refine held_of_pair (by assumption) ?_
    | dsimp only

theorem State.ackDue_stays {s : State} (h : Held P m s) (hk : Avoid P [.lanPeer]) (g : Nat) : Held P m (State.ackDue s g) := by
  unfold State.ackDue
  repeat' first
    | with_reducible assumption
    | with_reducible apply State.peerAck_stays
    | with_reducible apply held_foldl
    | with_reducible apply held_foldl_fst
    | exact hk.mono rfl
    | exact hk.1 _ rfl rfl
    | exact hk.2 _ rfl
    | exact hk.flds rfl
    | with_reducible apply held_else
    | with_reducible intro _
    | (simp only [↓held_mk]; with_reducible apply held_parts)
    | split
    | with_reducible refine held_of_pair (by assumption) ?_
    | dsimp only

theorem State.replayDue_stays {s : State} (h : Held P m s) (hk : Avoid P [.lanPeer]) (g : Nat) : Held P m (State.replayDue s g) := by
  unfold State.replayDue
  repeat' first
    | with_reducible assumption
    | with_reducible apply State.peerResend_stays
    | with_reducible apply held_foldl
    | with_reducible apply held_foldl_fst
    | exact hk.mono rfl
    | exact hk.1 _ rfl rfl
    | exact hk.2 _ rfl
    | exact hk.flds rfl
    | with_reducible apply held_else
    | with_reducible intro _
    | (simp only [↓held_mk]; with_reducible apply held_parts)
    | split
    | with_reducible refine held_of_pair (by assumption) ?_
    | dsimp only

theorem State.windowCloses'_stays {s : State} (h : Held P m s) (hk : Avoid P [.capCtx, .clu, .tim, .trk, .ejt, .pmc]) (n : Nat) : Held P m (State.windowCloses' s n) := by
  unfold State.windowCloses'
  repeat' first
    | with_reducible assumption
    | with_reducible apply State.runToNs_stays
    | with_reducible apply State.expireDue_stays
    | with_reducible apply held_foldl
    | with_reducible apply held_foldl_fst
    | exact hk.mono rfl
    | exact hk.1 _ rfl rfl
    | exact hk.2 _ rfl
    | exact hk.flds rfl
    | with_reducible apply held_else
    | with_reducible intro _
    | (simp only [↓held_mk]; with_reducible apply held_parts)
    | split
    | with_reducible refine held_of_pair (by assumption) ?_
    | dsimp only

theorem State.groupCloses_stays {s : State} (h : Held P m s) (hk : Avoid P [.capCtx, .clu, .tim, .trk, .ejt, .pmc]) (c : Nat) : Held P m (State.groupCloses s c) := by
  unfold State.groupCloses
  repeat' first
    | with_reducible assumption
    | with_reducible apply State.runTo_stays
    | with_reducible apply State.groupTimeout_stays
    | with_reducible apply held_foldl
    | with_reducible apply held_foldl_fst
    | exact hk.mono rfl
    | exact hk.1 _ rfl rfl
    | exact hk.2 _ rfl
    | exact hk.flds rfl
    | with_reducible apply held_else
    | with_reducible intro _
    | (simp only [↓held_mk]; with_reducible apply held_parts)
    | split
    | with_reducible refine held_of_pair (by assumption) ?_
    | dsimp only

theorem State.holdExpires_stays {s : State} (h : Held P m s) (hk : Avoid P [.lnp, .lnpCtx, .clu, .tim, .trk, .ejt, .pmc]) (c : Nat) : Held P m (State.holdExpires s c) := by
  unfold State.holdExpires
  repeat' first
    | with_reducible assumption
    | with_reducible apply State.notice_stays
    | with_reducible apply State.runToNs_stays
    | with_reducible apply State.spillDue_stays
    | with_reducible apply held_foldl
    | with_reducible apply held_foldl_fst
    | exact hk.mono rfl
    | exact hk.1 _ rfl rfl
    | exact hk.2 _ rfl
    | exact hk.flds rfl
    | with_reducible apply held_else
    | with_reducible intro _
    | (simp only [↓held_mk]; with_reducible apply held_parts)
    | split
    | with_reducible refine held_of_pair (by assumption) ?_
    | dsimp only

theorem State.ringWritten_stays {s : State} (h : Held P m s) (hk : Avoid P [.memPc, .pmc]) (c : Nat) : Held P m (State.ringWritten s c) := by
  unfold State.ringWritten
  repeat' first
    | with_reducible assumption
    | with_reducible apply State.modCtx_stays
    | with_reducible apply State.ringWrite_stays
    | with_reducible apply State.ringReady_stays
    | with_reducible apply State.refreshReady_stays
    | with_reducible apply held_foldl
    | with_reducible apply held_foldl_fst
    | exact hk.mono rfl
    | exact hk.1 _ rfl rfl
    | exact hk.2 _ rfl
    | exact hk.flds rfl
    | with_reducible apply held_else
    | with_reducible intro _
    | (simp only [↓held_mk]; with_reducible apply held_parts)
    | split
    | with_reducible refine held_of_pair (by assumption) ?_
    | dsimp only

theorem State.slotRead_stays {s : State} (h : Held P m s) (hk : Avoid P [.mgt, .capCtx, .memPc, .mem, .pmc]) (c : Nat) : Held P m (State.slotRead s c) := by
  unfold State.slotRead
  repeat' first
    | with_reducible assumption
    | with_reducible apply State.replayRead_stays
    | with_reducible apply held_foldl
    | with_reducible apply held_foldl_fst
    | exact hk.mono rfl
    | exact hk.1 _ rfl rfl
    | exact hk.2 _ rfl
    | exact hk.flds rfl
    | with_reducible apply held_else
    | with_reducible intro _
    | (simp only [↓held_mk]; with_reducible apply held_parts)
    | split
    | with_reducible refine held_of_pair (by assumption) ?_
    | dsimp only

theorem State.enableTried_stays {s : State} (h : Held P m s) (hk : Avoid P [.ret]) (on : Bool) : Held P m (State.enableTried s on) := by
  unfold State.enableTried
  repeat' first
    | with_reducible assumption
    | with_reducible apply State.count_stays
    | with_reducible apply State.raise_stays
    | with_reducible apply held_foldl
    | with_reducible apply held_foldl_fst
    | exact hk.mono rfl
    | exact hk.1 _ rfl rfl
    | exact hk.2 _ rfl
    | exact hk.flds rfl
    | with_reducible apply held_else
    | with_reducible intro _
    | (simp only [↓held_mk]; with_reducible apply held_parts)
    | split
    | with_reducible refine held_of_pair (by assumption) ?_
    | dsimp only

theorem State.restorePeer_stays {s : State} (h : Held P m s) (hk : Avoid P [.ret, .lan, .lanPeer]) (es : List (Nat × Nat)) (g : Nat) : Held P m (State.restorePeer s es g) := by
  unfold State.restorePeer
  repeat' first
    | with_reducible assumption
    | with_reducible apply State.peerEnable_stays
    | with_reducible apply State.enableTried_stays
    | with_reducible apply held_foldl
    | with_reducible apply held_foldl_fst
    | exact hk.mono rfl
    | exact hk.1 _ rfl rfl
    | exact hk.2 _ rfl
    | exact hk.flds rfl
    | with_reducible apply held_else
    | with_reducible intro _
    | (simp only [↓held_mk]; with_reducible apply held_parts)
    | split
    | with_reducible refine held_of_pair (by assumption) ?_
    | dsimp only

theorem State.restoreLanes_stays {s : State} (h : Held P m s) (hk : Avoid P [.lan])  : Held P m (State.restoreLanes s) := by
  unfold State.restoreLanes
  repeat' first
    | with_reducible assumption
    | with_reducible apply State.forEach_stays
    | with_reducible apply State.dropLock_stays
    | with_reducible apply State.laneSleep_stays
    | with_reducible apply held_foldl
    | with_reducible apply held_foldl_fst
    | exact hk.mono rfl
    | exact hk.1 _ rfl rfl
    | exact hk.2 _ rfl
    | exact hk.flds rfl
    | with_reducible apply held_else
    | with_reducible intro _
    | (simp only [↓held_mk]; with_reducible apply held_parts)
    | split
    | with_reducible refine held_of_pair (by assumption) ?_
    | dsimp only

theorem State.throttle_stays {s : State} (h : Held P m s) (hk : Avoid P []) (sect : Nat) (on : Bool) : Held P m (State.throttle s sect on) := by
  unfold State.throttle
  repeat' first
    | with_reducible assumption
    | with_reducible apply held_foldl
    | with_reducible apply held_foldl_fst
    | exact hk.mono rfl
    | exact hk.1 _ rfl rfl
    | exact hk.2 _ rfl
    | exact hk.flds rfl
    | with_reducible apply held_else
    | with_reducible intro _
    | (simp only [↓held_mk]; with_reducible apply held_parts)
    | split
    | with_reducible refine held_of_pair (by assumption) ?_
    | dsimp only

theorem State.wrapEnds_stays {s : State} (h : Held P m s) (hk : Avoid P [.clu, .tim, .pmc]) (n : Nat) : Held P m (State.wrapEnds s n) := by
  unfold State.wrapEnds
  repeat' first
    | with_reducible assumption
    | with_reducible apply State.runTicks_stays
    | with_reducible apply held_foldl
    | with_reducible apply held_foldl_fst
    | exact hk.mono rfl
    | exact hk.1 _ rfl rfl
    | exact hk.2 _ rfl
    | exact hk.flds rfl
    | with_reducible apply held_else
    | with_reducible intro _
    | (simp only [↓held_mk]; with_reducible apply held_parts)
    | split
    | with_reducible refine held_of_pair (by assumption) ?_
    | dsimp only

theorem State.crossNow_stays {s : State} (h : Held P m s) (hk : Avoid P [.clu, .tim, .pmc]) (n : Nat) : Held P m (State.crossNow s n) := by
  unfold State.crossNow
  repeat' first
    | with_reducible assumption
    | with_reducible apply State.runTicks_stays
    | with_reducible apply held_foldl
    | with_reducible apply held_foldl_fst
    | exact hk.mono rfl
    | exact hk.1 _ rfl rfl
    | exact hk.2 _ rfl
    | exact hk.flds rfl
    | with_reducible apply held_else
    | with_reducible intro _
    | (simp only [↓held_mk]; with_reducible apply held_parts)
    | split
    | with_reducible refine held_of_pair (by assumption) ?_
    | dsimp only

end Sys2Proof.Machine
end

