-- ==== Sys2Proof/Laws/Kept.lean ====
section
/-!
SUPPORT. Laws/Kept.lean: what every operation of the block keeps: the queue, the fuses, the clock's direction, what was given to the
outside, and the canonical form of the stores. The predicate, and the operations that touch what it speaks of.
-/
namespace Sys2Proof.Machine

/-- The parts of a state that `Kept` speaks of, against a queue `q`, fuses `z`, a tick `n`, outputs `o`, and canonical stores where `c`. -/
structure KeptParts (q : List Instr) (z : Fuses) (n : Nat) (o : List Output) (c : Prop)
    (pending : List Instr) (fuses : Fuses) (tick : Nat) (out : List Output) (regs shadow : List (RegKey × Nat)) (bytes sram : Memory) : Prop where
  queue : pending = q
  fuses : fuses = z
  clock : n ≤ tick
  given : o <+: out
  regs : c → cellsWf regs = true
  shadow : c → cellsWf shadow = true
  bytes : c → bytes.wf = true
  sram : c → sram.wf = true

/-- Queue, fuses, clock, outputs and stores of a state are as a command may leave them. -/
def Kept (q : List Instr) (z : Fuses) (n : Nat) (o : List Output) (c : Prop) (s : State) : Prop :=
  KeptParts q z n o c s.pending s.fuses s.tick s.out s.regs s.shadow s.hbm.bytes s.sram

variable {q : List Instr} {z : Fuses} {n : Nat} {o : List Output} {c : Prop}

theorem kept_self (s : State) : Kept s.pending s.fuses s.tick s.out (s.canonical = true) s where
  queue := rfl
  fuses := rfl
  clock := Nat.le_refl _
  given := List.prefix_rfl
  regs := fun h => by simp only [State.canonical, Bool.and_eq_true] at h; exact h.1.1.1
  shadow := fun h => by simp only [State.canonical, Bool.and_eq_true] at h; exact h.1.1.2
  bytes := fun h => by simp only [State.canonical, Bool.and_eq_true] at h; exact h.1.2
  sram := fun h => by simp only [State.canonical, Bool.and_eq_true] at h; exact h.2

/-- What `Kept` says of the state after a command, in the terms of Safety.lean. -/
theorem Kept.follows {s t : State} (h : Kept s.pending s.fuses s.tick s.out (s.canonical = true) t) :
    s.Follows t ∧ (s.canonical = true → t.canonical = true) :=
  ⟨⟨h.queue, h.fuses, h.clock, h.given⟩, fun hc => by
    simp only [State.canonical, Bool.and_eq_true]
    exact ⟨⟨⟨h.regs hc, h.shadow hc⟩, h.bytes hc⟩, h.sram hc⟩⟩

theorem kept_parts {s : State} (h : Kept q z n o c s) :
    KeptParts q z n o c s.pending s.fuses s.tick s.out s.regs s.shadow s.hbm.bytes s.sram := h

theorem kept_mk {pe : List Instr} {fu : Fuses} {ti : Nat} {ou : List Output} {re sh : List (RegKey × Nat)} {hb : HbmState} {sr : Memory}
    {a1 : List (Nat × Nat)} {a2 : List (Nat × Nat)} {a3 : List CommitRec} {a4 : Option (List HeldWrite)} {a5 a6 a7 : Nat} {a8 : List PeerSt}
    {a9 : CmdState} {b1 : List FwnPass} {b2 : CapState} {b3 : LnpState} {b4 : TrkState} {b5 : PwrState} {b6 : FltState} {b7 : Velvet}
    {b8 : MgtState} {b9 : List AtnTable} {c1 : List AtnPool} {c2 : List AttnRun} {c3 : List DecFetch} {c4 : Nat}
    : Kept q z n o c ⟨fu, re, sh, a1, a2, a3, a4, ti, a5, a6, a7, a8, hb, sr, a9, b1, b2, b3, b4, b5, b6, b7, b8, b9, c1, c2, c3, ou, c4, pe⟩ =
      KeptParts q z n o c pe fu ti ou re sh hb.bytes sr := rfl

theorem kept_else {p : Prop} [Decidable p] {a b : State} (hb : Kept q z n o c b) (ha : Kept q z n o c b → Kept q z n o c a) :
    Kept q z n o c (if p then a else b) := by split <;> simp_all

theorem kept_then {p : Prop} [Decidable p] {a b : State} (ha : Kept q z n o c a) (hb : Kept q z n o c a → Kept q z n o c b) :
    Kept q z n o c (if p then a else b) := by split <;> simp_all

theorem kept_of_pair {β : Type} {x : State × β} {t : State} {y : β} (e : x = (t, y)) (h : Kept q z n o c x.1) : Kept q z n o c t := by
  rw [e] at h; exact h

/-! ## Operations that change what `Kept` speaks of -/

theorem State.set_kept {s : State} (h : Kept q z n o c s) (f : Fld) (i j v : Nat) : Kept q z n o c (s.set f i j v) :=
  { kept_parts h with regs := fun hc => cellsWf_cellSet ((kept_parts h).regs hc) _ _ _ }

theorem State.setShadow_kept {s : State} (h : Kept q z n o c s) (f : Fld) (i j v : Nat) : Kept q z n o c (s.setShadow f i j v) :=
  { kept_parts h with shadow := fun hc => cellsWf_cellSet ((kept_parts h).shadow hc) _ _ _ }

theorem State.emit_kept {s : State} (h : Kept q z n o c s) (x : Output) : Kept q z n o c (s.emit x) :=
  { kept_parts h with given := List.IsPrefix.trans (kept_parts h).given (List.prefix_append _ _) }

theorem State.sramWrite_kept {s : State} (h : Kept q z n o c s) (k a : Nat) (bs : List Nat) : Kept q z n o c (s.sramWrite k a bs) :=
  { kept_parts h with sram := fun hc => Memory.wf_memWrite ((kept_parts h).sram hc) _ _ }

theorem kept_hbmWrite {s : State} (h : Kept q z n o c s) (k : Nat) (bs : List Nat) : Kept q z n o c { s with hbm := s.hbm.write k bs } :=
  { kept_parts h with bytes := fun hc => Memory.wf_memWrite ((kept_parts h).bytes hc) _ _ }

theorem kept_hbmClear {s : State} {v : Velvet} (h : Kept q z n o c s) : Kept q z n o c { s with hbm := {}, velvet := v } :=
  { kept_parts h with bytes := fun _ => rfl }

theorem kept_sramClear {s : State} (h : Kept q z n o c s) : Kept q z n o c { s with sram := [] } :=
  { kept_parts h with sram := fun _ => rfl }

theorem State.forEach_kept {α : Type} {s : State} (h : Kept q z n o c s) (l : List α) {g : State → α → State}
    (hg : ∀ t x, Kept q z n o c t → Kept q z n o c (g t x)) : Kept q z n o c (s.forEach l g) := by
  unfold State.forEach
  induction l generalizing s with
  | nil => exact h
  | cons x l ih => exact ih (hg s x h)

theorem kept_foldl {α : Type} {s : State} (h : Kept q z n o c s) (l : List α) {g : State → α → State}
    (hg : ∀ t x, Kept q z n o c t → Kept q z n o c (g t x)) : Kept q z n o c (l.foldl g s) := State.forEach_kept h l hg

theorem kept_foldl_fst {α β : Type} {s : State × β} (h : Kept q z n o c s.1) (l : List α) {g : State × β → α → State × β}
    (hg : ∀ t x, Kept q z n o c t.1 → Kept q z n o c (g t x).1) : Kept q z n o c (l.foldl g s).1 := by
  induction l generalizing s with
  | nil => exact h
  | cons x l ih => exact ih (hg s x h)

end Sys2Proof.Machine
end

