-- ==== Sys2Proof/Laws/Kept1.lean ====
section
/-!
SUPPORT. Laws/Kept1.lean: the operations of the machine keep the queue, the fuses, the clock, the outputs and the stores.
-/
namespace Sys2Proof.Machine

set_option linter.unusedSimpArgs false

variable {q : List Instr} {z : Fuses} {n : Nat} {o : List Output} {c : Prop}

theorem State.count_kept {s : State} (h : Kept q z n o c s) (f : Fld) (i : Nat) (j : Nat) (n_ : Nat) : Kept q z n o c (State.count s f i j n_) := by
  unfold State.count
  repeat' first
    | with_reducible assumption
    | with_reducible apply State.set_kept
    | with_reducible apply kept_foldl
    | with_reducible apply kept_foldl_fst
    | with_reducible apply kept_else
    | with_reducible intro _
    | (simp only [↓kept_mk]; with_reducible apply kept_parts)
    | split
    | with_reducible refine kept_of_pair (by assumption) ?_
    | dsimp only

theorem State.countWrap_kept {s : State} (h : Kept q z n o c s) (f : Fld) (i : Nat) (j : Nat) (n_ : Nat) : Kept q z n o c (State.countWrap s f i j n_) := by
  unfold State.countWrap
  repeat' first
    | with_reducible assumption
    | with_reducible apply State.set_kept
    | with_reducible apply kept_foldl
    | with_reducible apply kept_foldl_fst
    | with_reducible apply kept_else
    | with_reducible intro _
    | (simp only [↓kept_mk]; with_reducible apply kept_parts)
    | split
    | with_reducible refine kept_of_pair (by assumption) ?_
    | dsimp only

theorem State.clearFlds_kept {s : State} (h : Kept q z n o c s) (i : Nat) (l : List Fld) : Kept q z n o c (State.clearFlds s i l) := by
  unfold State.clearFlds
  repeat' first
    | with_reducible assumption
    | with_reducible apply State.forEach_kept
    | with_reducible apply State.set_kept
    | with_reducible apply kept_foldl
    | with_reducible apply kept_foldl_fst
    | with_reducible apply kept_else
    | with_reducible intro _
    | (simp only [↓kept_mk]; with_reducible apply kept_parts)
    | split
    | with_reducible refine kept_of_pair (by assumption) ?_
    | dsimp only

theorem State.hostOut_kept {s : State} (h : Kept q z n o c s) (o_ : Output) : Kept q z n o c (State.hostOut s o_) := by
  unfold State.hostOut
  repeat' first
    | with_reducible assumption
    | with_reducible apply State.emit_kept
    | with_reducible apply State.count_kept
    | with_reducible apply kept_foldl
    | with_reducible apply kept_foldl_fst
    | with_reducible apply kept_else
    | with_reducible intro _
    | (simp only [↓kept_mk]; with_reducible apply kept_parts)
    | split
    | with_reducible refine kept_of_pair (by assumption) ?_
    | dsimp only

theorem State.setPba_kept {s : State} (h : Kept q z n o c s) (fn : Nat) (v : Nat) : Kept q z n o c (State.setPba s fn v) := by
  unfold State.setPba
  repeat' first
    | with_reducible assumption
    | with_reducible apply State.set_kept
    | with_reducible apply kept_foldl
    | with_reducible apply kept_foldl_fst
    | with_reducible apply kept_else
    | with_reducible intro _
    | (simp only [↓kept_mk]; with_reducible apply kept_parts)
    | split
    | with_reducible refine kept_of_pair (by assumption) ?_
    | dsimp only

theorem State.sendMsix_kept {s : State} (h : Kept q z n o c s) (fn : Nat) (vec : Nat) : Kept q z n o c (State.sendMsix s fn vec) := by
  unfold State.sendMsix
  repeat' first
    | with_reducible assumption
    | with_reducible apply State.setPba_kept
    | with_reducible apply State.hostOut_kept
    | with_reducible apply kept_foldl
    | with_reducible apply kept_foldl_fst
    | with_reducible apply kept_else
    | with_reducible intro _
    | (simp only [↓kept_mk]; with_reducible apply kept_parts)
    | split
    | with_reducible refine kept_of_pair (by assumption) ?_
    | dsimp only

theorem State.signal_kept {s : State} (h : Kept q z n o c s) (p : PageId) (before : Bool) : Kept q z n o c (State.signal s p before) := by
  unfold State.signal
  repeat' first
    | with_reducible assumption
    | with_reducible apply State.sendMsix_kept
    | with_reducible apply kept_foldl
    | with_reducible apply kept_foldl_fst
    | with_reducible apply kept_else
    | with_reducible intro _
    | (simp only [↓kept_mk]; with_reducible apply kept_parts)
    | split
    | with_reducible refine kept_of_pair (by assumption) ?_
    | dsimp only

theorem State.capture_kept {s : State} (h : Kept q z n o c s) (p : PageId) (mask : Nat) (detail : Nat) (forced : Bool) : Kept q z n o c (State.capture s p mask detail forced) := by
  unfold State.capture
  repeat' first
    | with_reducible assumption
    | with_reducible apply State.set_kept
    | with_reducible apply kept_foldl
    | with_reducible apply kept_foldl_fst
    | with_reducible apply kept_else
    | with_reducible intro _
    | (simp only [↓kept_mk]; with_reducible apply kept_parts)
    | split
    | with_reducible refine kept_of_pair (by assumption) ?_
    | dsimp only

theorem State.raiseMask_kept {s : State} (h : Kept q z n o c s) (p : PageId) (mask : Nat) (detail : Nat) (forced : Bool) : Kept q z n o c (State.raiseMask s p mask detail forced) := by
  unfold State.raiseMask
  repeat' first
    | with_reducible assumption
    | with_reducible apply State.set_kept
    | with_reducible apply State.capture_kept
    | with_reducible apply State.signal_kept
    | with_reducible apply kept_foldl
    | with_reducible apply kept_foldl_fst
    | with_reducible apply kept_else
    | with_reducible intro _
    | (simp only [↓kept_mk]; with_reducible apply kept_parts)
    | split
    | with_reducible refine kept_of_pair (by assumption) ?_
    | dsimp only

theorem State.raise_kept {s : State} (h : Kept q z n o c s) (p : PageId) (n_ : Nat) (detail : Nat) : Kept q z n o c (State.raise s p n_ detail) := by
  unfold State.raise
  repeat' first
    | with_reducible assumption
    | with_reducible apply State.raiseMask_kept
    | with_reducible apply kept_foldl
    | with_reducible apply kept_foldl_fst
    | with_reducible apply kept_else
    | with_reducible intro _
    | (simp only [↓kept_mk]; with_reducible apply kept_parts)
    | split
    | with_reducible refine kept_of_pair (by assumption) ?_
    | dsimp only

theorem State.code_kept {s : State} (h : Kept q z n o c s) (p : PageId) (fn : Nat) (off : Nat) (code : Nat) : Kept q z n o c (State.code s p fn off code) := by
  unfold State.code
  repeat' first
    | with_reducible assumption
    | with_reducible apply State.raise_kept
    | with_reducible apply kept_foldl
    | with_reducible apply kept_foldl_fst
    | with_reducible apply kept_else
    | with_reducible intro _
    | (simp only [↓kept_mk]; with_reducible apply kept_parts)
    | split
    | with_reducible refine kept_of_pair (by assumption) ?_
    | dsimp only

theorem State.deny_kept {s : State} (h : Kept q z n o c s) (event : Nat) (fn : Nat) (bar : Nat) (off : Nat) : Kept q z n o c (State.deny s event fn bar off) := by
  unfold State.deny
  repeat' first
    | with_reducible assumption
    | with_reducible apply State.raise_kept
    | with_reducible apply State.set_kept
    | with_reducible apply kept_foldl
    | with_reducible apply kept_foldl_fst
    | with_reducible apply kept_else
    | with_reducible intro _
    | (simp only [↓kept_mk]; with_reducible apply kept_parts)
    | split
    | with_reducible refine kept_of_pair (by assumption) ?_
    | dsimp only

theorem State.rerouted_kept {before after : State} (h : Kept q z n o c after) : Kept q z n o c (before.rerouted after) := by
  unfold State.rerouted
  apply State.forEach_kept h
  intro t x ht
  split
  · exact State.sendMsix_kept ht _ _
  · exact ht

theorem State.pmcFreezeNow_kept {s : State} (h : Kept q z n o c s)  : Kept q z n o c (State.pmcFreezeNow s) := by
  unfold State.pmcFreezeNow
  repeat' first
    | with_reducible assumption
    | with_reducible apply State.set_kept
    | with_reducible apply State.raise_kept
    | with_reducible apply kept_foldl
    | with_reducible apply kept_foldl_fst
    | with_reducible apply kept_else
    | with_reducible intro _
    | (simp only [↓kept_mk]; with_reducible apply kept_parts)
    | split
    | with_reducible refine kept_of_pair (by assumption) ?_
    | dsimp only

theorem State.pmcWrapped_kept {s : State} (h : Kept q z n o c s) (n_ : Nat) : Kept q z n o c (State.pmcWrapped s n_) := by
  unfold State.pmcWrapped
  repeat' first
    | with_reducible assumption
    | with_reducible apply State.set_kept
    | with_reducible apply State.raise_kept
    | with_reducible apply State.pmcFreezeNow_kept
    | with_reducible apply kept_foldl
    | with_reducible apply kept_foldl_fst
    | with_reducible apply kept_else
    | with_reducible intro _
    | (simp only [↓kept_mk]; with_reducible apply kept_parts)
    | split
    | with_reducible refine kept_of_pair (by assumption) ?_
    | dsimp only

theorem State.pmcAddTop_kept {s : State} (h : Kept q z n o c s) (n_ : Nat) (amt : Nat) : Kept q z n o c (State.pmcAddTop s n_ amt) := by
  unfold State.pmcAddTop
  repeat' first
    | with_reducible assumption
    | with_reducible apply State.set_kept
    | with_reducible apply State.pmcWrapped_kept
    | with_reducible apply kept_foldl
    | with_reducible apply kept_foldl_fst
    | with_reducible apply kept_else
    | with_reducible intro _
    | (simp only [↓kept_mk]; with_reducible apply kept_parts)
    | split
    | with_reducible refine kept_of_pair (by assumption) ?_
    | dsimp only

theorem State.pmcAdd_kept {s : State} (h : Kept q z n o c s) (n_ : Nat) (amt : Nat) : Kept q z n o c (State.pmcAdd s n_ amt) := by
  unfold State.pmcAdd
  repeat' first
    | with_reducible assumption
    | with_reducible apply State.set_kept
    | with_reducible apply State.pmcAddTop_kept
    | with_reducible apply kept_foldl
    | with_reducible apply kept_foldl_fst
    | with_reducible apply kept_else
    | with_reducible intro _
    | (simp only [↓kept_mk]; with_reducible apply kept_parts)
    | split
    | with_reducible refine kept_of_pair (by assumption) ?_
    | dsimp only

theorem State.pmc_kept {s : State} (h : Kept q z n o c s) (code : Nat) (inst : Nat) (amt : Nat) (part : Option Nat) : Kept q z n o c (State.pmc s code inst amt part) := by
  unfold State.pmc
  repeat' first
    | with_reducible assumption
    | with_reducible apply State.forEach_kept
    | with_reducible apply State.code_kept
    | with_reducible apply State.pmcAdd_kept
    | with_reducible apply kept_foldl
    | with_reducible apply kept_foldl_fst
    | with_reducible apply kept_else
    | with_reducible intro _
    | (simp only [↓kept_mk]; with_reducible apply kept_parts)
    | split
    | with_reducible refine kept_of_pair (by assumption) ?_
    | dsimp only

theorem State.pmcClu_kept {s : State} (h : Kept q z n o c s) (phys : Nat) (code : Nat) (amt : Nat) : Kept q z n o c (State.pmcClu s phys code amt) := by
  unfold State.pmcClu
  repeat' first
    | with_reducible assumption
    | with_reducible apply State.forEach_kept
    | with_reducible apply State.code_kept
    | with_reducible apply State.set_kept
    | with_reducible apply State.raise_kept
    | with_reducible apply kept_foldl
    | with_reducible apply kept_foldl_fst
    | with_reducible apply kept_else
    | with_reducible intro _
    | (simp only [↓kept_mk]; with_reducible apply kept_parts)
    | split
    | with_reducible refine kept_of_pair (by assumption) ?_
    | dsimp only

theorem State.hostReach_kept {s : State} (h : Kept q z n o c s) (fn : Nat) (p : PageId) (off : Nat) (act : State → State) (ha : ∀ t, Kept q z n o c t → Kept q z n o c (act t)) : Kept q z n o c (State.hostReach s fn p off act) := by
  unfold State.hostReach
  repeat' first
    | with_reducible assumption
    | with_reducible apply State.deny_kept
    | with_reducible apply ha
    | with_reducible apply kept_foldl
    | with_reducible apply kept_foldl_fst
    | with_reducible apply kept_else
    | with_reducible intro _
    | (simp only [↓kept_mk]; with_reducible apply kept_parts)
    | split
    | with_reducible refine kept_of_pair (by assumption) ?_
    | dsimp only

theorem State.hostApply_kept {s : State} (h : Kept q z n o c s) (fn : Nat) (p : PageId) (off : Nat) (act : State → State) (ha : ∀ t, Kept q z n o c t → Kept q z n o c (act t)) : Kept q z n o c (State.hostApply s fn p off act) := by
  unfold State.hostApply
  repeat' first
    | with_reducible assumption
    | with_reducible apply State.hostReach_kept
    | with_reducible apply State.count_kept
    | with_reducible apply ha
    | with_reducible apply kept_foldl
    | with_reducible apply kept_foldl_fst
    | with_reducible apply kept_else
    | with_reducible intro _
    | (simp only [↓kept_mk]; with_reducible apply kept_parts)
    | split
    | with_reducible refine kept_of_pair (by assumption) ?_
    | dsimp only

theorem State.hostGate_kept {s : State} (h : Kept q z n o c s) (fn : Nat) (p : PageId) (off : Nat) (size : Nat) (value : Nat) (act : State → State) (ha : ∀ t, Kept q z n o c t → Kept q z n o c (act t)) : Kept q z n o c (State.hostGate s fn p off size value act) := by
  unfold State.hostGate
  repeat' first
    | with_reducible assumption
    | with_reducible apply State.hostApply_kept
    | with_reducible apply ha
    | with_reducible apply kept_foldl
    | with_reducible apply kept_foldl_fst
    | with_reducible apply kept_else
    | with_reducible intro _
    | (simp only [↓kept_mk]; with_reducible apply kept_parts)
    | split
    | with_reducible refine kept_of_pair (by assumption) ?_
    | dsimp only

theorem State.writeFld_kept {s : State} (h : Kept q z n o c s) (i : Nat) (f : Fld) (j : Nat) (woff : Nat) (v : Nat) : Kept q z n o c (State.writeFld s i f j woff v) := by
  unfold State.writeFld
  repeat' first
    | with_reducible assumption
    | with_reducible apply State.set_kept
    | with_reducible apply State.setShadow_kept
    | with_reducible apply kept_foldl
    | with_reducible apply kept_foldl_fst
    | with_reducible apply kept_else
    | with_reducible intro _
    | (simp only [↓kept_mk]; with_reducible apply kept_parts)
    | split
    | with_reducible refine kept_of_pair (by assumption) ?_
    | dsimp only

theorem State.plainWrite_kept {s : State} (h : Kept q z n o c s) (p : PageId) (woff : Nat) (v : Nat) : Kept q z n o c (State.plainWrite s p woff v) := by
  unfold State.plainWrite
  repeat' first
    | with_reducible assumption
    | with_reducible apply State.forEach_kept
    | with_reducible apply State.writeFld_kept
    | with_reducible apply kept_foldl
    | with_reducible apply kept_foldl_fst
    | with_reducible apply kept_else
    | with_reducible intro _
    | (simp only [↓kept_mk]; with_reducible apply kept_parts)
    | split
    | with_reducible refine kept_of_pair (by assumption) ?_
    | dsimp only

theorem State.latchLow_kept {s : State} (h : Kept q z n o c s) (off : Nat) (v : Nat) : Kept q z n o c (State.latchLow s off v) := by
  unfold State.latchLow
  repeat' first
    | with_reducible assumption
    | with_reducible apply kept_foldl
    | with_reducible apply kept_foldl_fst
    | with_reducible apply kept_else
    | with_reducible intro _
    | (simp only [↓kept_mk]; with_reducible apply kept_parts)
    | split
    | with_reducible refine kept_of_pair (by assumption) ?_
    | dsimp only

theorem State.dropLow_kept {s : State} (h : Kept q z n o c s) (off : Nat) : Kept q z n o c (State.dropLow s off) := by
  unfold State.dropLow
  repeat' first
    | with_reducible assumption
    | with_reducible apply kept_foldl
    | with_reducible apply kept_foldl_fst
    | with_reducible apply kept_else
    | with_reducible intro _
    | (simp only [↓kept_mk]; with_reducible apply kept_parts)
    | split
    | with_reducible refine kept_of_pair (by assumption) ?_
    | dsimp only

theorem State.countWr_kept {s : State} (h : Kept q z n o c s) (a : Nat) (n_ : Nat) (part : Option Nat) : Kept q z n o c (State.countWr s a n_ part) := by
  unfold State.countWr
  repeat' first
    | with_reducible assumption
    | with_reducible apply State.forEach_kept
    | with_reducible apply State.count_kept
    | with_reducible apply State.pmc_kept
    | with_reducible apply kept_foldl
    | with_reducible apply kept_foldl_fst
    | with_reducible apply kept_else
    | with_reducible intro _
    | (simp only [↓kept_mk]; with_reducible apply kept_parts)
    | split
    | with_reducible refine kept_of_pair (by assumption) ?_
    | dsimp only

theorem State.countRd_kept {s : State} (h : Kept q z n o c s) (a : Nat) (n_ : Nat) (part : Option Nat) : Kept q z n o c (State.countRd s a n_ part) := by
  unfold State.countRd
  repeat' first
    | with_reducible assumption
    | with_reducible apply State.forEach_kept
    | with_reducible apply State.count_kept
    | with_reducible apply State.pmc_kept
    | with_reducible apply kept_foldl
    | with_reducible apply kept_foldl_fst
    | with_reducible apply kept_else
    | with_reducible intro _
    | (simp only [↓kept_mk]; with_reducible apply kept_parts)
    | split
    | with_reducible refine kept_of_pair (by assumption) ?_
    | dsimp only

theorem HbmState.write_wf {h : HbmState} (w : h.bytes.wf = true) (k : Nat) (bs : List Nat) : (h.write k bs).bytes.wf = true :=
  Memory.wf_memWrite w _ _

theorem State.devWrite_kept {s : State} (h : Kept q z n o c s) (a : Nat) (bs : List Nat) : Kept q z n o c (s.devWrite a bs) := by
  refine { kept_parts h with bytes := fun hc => ?_ }
  have hb := (kept_parts h).bytes hc
  simp only [State.devWrite]
  generalize granules a bs.length = l
  generalize s.hbm = m at hb ⊢
  induction l generalizing m with
  | nil => exact hb
  | cons r l ih =>
    apply ih
    dsimp only
    split
    · exact hb
    · exact HbmState.write_wf hb _ _

theorem State.devWriteFor_kept {s : State} (h : Kept q z n o c s) (part : Option Nat) (a : Nat) (bs : List Nat) : Kept q z n o c (State.devWriteFor s part a bs) := by
  unfold State.devWriteFor
  repeat' first
    | with_reducible assumption
    | with_reducible apply State.devWrite_kept
    | with_reducible apply State.countWr_kept
    | with_reducible apply kept_foldl
    | with_reducible apply kept_foldl_fst
    | with_reducible apply kept_else
    | with_reducible intro _
    | (simp only [↓kept_mk]; with_reducible apply kept_parts)
    | split
    | with_reducible refine kept_of_pair (by assumption) ?_
    | dsimp only

theorem State.bwRequest_kept {s : State} (h : Kept q z n o c s) (p : Nat) (cost : Nat) (job : Bool) : Kept q z n o c (State.bwRequest s p cost job) := by
  unfold State.bwRequest
  repeat' first
    | with_reducible assumption
    | with_reducible apply State.count_kept
    | with_reducible apply State.pmc_kept
    | with_reducible apply State.set_kept
    | with_reducible apply kept_foldl
    | with_reducible apply kept_foldl_fst
    | with_reducible apply kept_else
    | with_reducible intro _
    | (simp only [↓kept_mk]; with_reducible apply kept_parts)
    | split
    | with_reducible refine kept_of_pair (by assumption) ?_
    | dsimp only

theorem State.bwWindow_kept {s : State} (h : Kept q z n o c s) (p : Nat) : Kept q z n o c (State.bwWindow s p) := by
  unfold State.bwWindow
  repeat' first
    | with_reducible assumption
    | with_reducible apply State.set_kept
    | with_reducible apply State.pmc_kept
    | with_reducible apply kept_foldl
    | with_reducible apply kept_foldl_fst
    | with_reducible apply kept_else
    | with_reducible intro _
    | (simp only [↓kept_mk]; with_reducible apply kept_parts)
    | split
    | with_reducible refine kept_of_pair (by assumption) ?_
    | dsimp only

theorem State.regionEnable_kept {s : State} (h : Kept q z n o c s) (fn : Nat) (p : Nat) : Kept q z n o c (State.regionEnable s fn p) := by
  unfold State.regionEnable
  repeat' first
    | with_reducible assumption
    | with_reducible apply State.code_kept
    | with_reducible apply State.set_kept
    | with_reducible apply kept_foldl
    | with_reducible apply kept_foldl_fst
    | with_reducible apply kept_else
    | with_reducible intro _
    | (simp only [↓kept_mk]; with_reducible apply kept_parts)
    | split
    | with_reducible refine kept_of_pair (by assumption) ?_
    | dsimp only

theorem State.dropLock_kept {s : State} (h : Kept q z n o c s) (l : Nat) : Kept q z n o c (State.dropLock s l) := by
  unfold State.dropLock
  repeat' first
    | with_reducible assumption
    | with_reducible apply State.set_kept
    | with_reducible apply kept_foldl
    | with_reducible apply kept_foldl_fst
    | with_reducible apply kept_else
    | with_reducible intro _
    | (simp only [↓kept_mk]; with_reducible apply kept_parts)
    | split
    | with_reducible refine kept_of_pair (by assumption) ?_
    | dsimp only

theorem State.rxPower_kept {s : State} (h : Kept q z n o c s) (l : Nat) (target : Nat) : Kept q z n o c (State.rxPower s l target) := by
  unfold State.rxPower
  repeat' first
    | with_reducible assumption
    | with_reducible apply State.set_kept
    | with_reducible apply State.dropLock_kept
    | with_reducible apply kept_foldl
    | with_reducible apply kept_foldl_fst
    | with_reducible apply kept_else
    | with_reducible intro _
    | (simp only [↓kept_mk]; with_reducible apply kept_parts)
    | split
    | with_reducible refine kept_of_pair (by assumption) ?_
    | dsimp only

theorem State.txPower_kept {s : State} (h : Kept q z n o c s) (l : Nat) (target : Nat) : Kept q z n o c (State.txPower s l target) := by
  unfold State.txPower
  repeat' first
    | with_reducible assumption
    | with_reducible apply State.set_kept
    | with_reducible apply kept_foldl
    | with_reducible apply kept_foldl_fst
    | with_reducible apply kept_else
    | with_reducible intro _
    | (simp only [↓kept_mk]; with_reducible apply kept_parts)
    | split
    | with_reducible refine kept_of_pair (by assumption) ?_
    | dsimp only

theorem State.wakeSettled_kept {s : State} (h : Kept q z n o c s) (l : Nat) : Kept q z n o c (State.wakeSettled s l) := by
  unfold State.wakeSettled
  repeat' first
    | with_reducible assumption
    | with_reducible apply State.set_kept
    | with_reducible apply kept_foldl
    | with_reducible apply kept_foldl_fst
    | with_reducible apply kept_else
    | with_reducible intro _
    | (simp only [↓kept_mk]; with_reducible apply kept_parts)
    | split
    | with_reducible refine kept_of_pair (by assumption) ?_
    | dsimp only

theorem State.applyPower_kept {s : State} (h : Kept q z n o c s) (l : Nat) : Kept q z n o c (State.applyPower s l) := by
  unfold State.applyPower
  repeat' first
    | with_reducible assumption
    | with_reducible apply State.rxPower_kept
    | with_reducible apply State.txPower_kept
    | with_reducible apply State.wakeSettled_kept
    | with_reducible apply kept_foldl
    | with_reducible apply kept_foldl_fst
    | with_reducible apply kept_else
    | with_reducible intro _
    | (simp only [↓kept_mk]; with_reducible apply kept_parts)
    | split
    | with_reducible refine kept_of_pair (by assumption) ?_
    | dsimp only

theorem State.laneSleep_kept {s : State} (h : Kept q z n o c s) (l : Nat) : Kept q z n o c (State.laneSleep s l) := by
  unfold State.laneSleep
  repeat' first
    | with_reducible assumption
    | with_reducible apply State.set_kept
    | with_reducible apply State.dropLock_kept
    | with_reducible apply kept_foldl
    | with_reducible apply kept_foldl_fst
    | with_reducible apply kept_else
    | with_reducible intro _
    | (simp only [↓kept_mk]; with_reducible apply kept_parts)
    | split
    | with_reducible refine kept_of_pair (by assumption) ?_
    | dsimp only

theorem State.writePower_kept {s : State} (h : Kept q z n o c s) (fn : Nat) (l : Nat) (rx : Nat) (tx : Nat) : Kept q z n o c (State.writePower s fn l rx tx) := by
  unfold State.writePower
  repeat' first
    | with_reducible assumption
    | with_reducible apply State.code_kept
    | with_reducible apply State.set_kept
    | with_reducible apply State.applyPower_kept
    | with_reducible apply State.raise_kept
    | with_reducible apply kept_foldl
    | with_reducible apply kept_foldl_fst
    | with_reducible apply kept_else
    | with_reducible intro _
    | (simp only [↓kept_mk]; with_reducible apply kept_parts)
    | split
    | with_reducible refine kept_of_pair (by assumption) ?_
    | dsimp only

theorem State.enableLane_kept {s : State} (h : Kept q z n o c s) (l : Nat) : Kept q z n o c (State.enableLane s l) := by
  unfold State.enableLane
  repeat' first
    | with_reducible assumption
    | with_reducible apply State.set_kept
    | with_reducible apply State.applyPower_kept
    | with_reducible apply kept_foldl
    | with_reducible apply kept_foldl_fst
    | with_reducible apply kept_else
    | with_reducible intro _
    | (simp only [↓kept_mk]; with_reducible apply kept_parts)
    | split
    | with_reducible refine kept_of_pair (by assumption) ?_
    | dsimp only

theorem State.disableLane_kept {s : State} (h : Kept q z n o c s) (l : Nat) : Kept q z n o c (State.disableLane s l) := by
  unfold State.disableLane
  repeat' first
    | with_reducible assumption
    | with_reducible apply State.set_kept
    | with_reducible apply State.laneSleep_kept
    | with_reducible apply kept_foldl
    | with_reducible apply kept_foldl_fst
    | with_reducible apply kept_else
    | with_reducible intro _
    | (simp only [↓kept_mk]; with_reducible apply kept_parts)
    | split
    | with_reducible refine kept_of_pair (by assumption) ?_
    | dsimp only

theorem State.gainLock_kept {s : State} (h : Kept q z n o c s) (l : Nat) : Kept q z n o c (State.gainLock s l) := by
  unfold State.gainLock
  repeat' first
    | with_reducible assumption
    | with_reducible apply State.set_kept
    | with_reducible apply State.wakeSettled_kept
    | with_reducible apply State.raiseMask_kept
    | with_reducible apply State.raise_kept
    | with_reducible apply kept_foldl
    | with_reducible apply kept_foldl_fst
    | with_reducible apply kept_else
    | with_reducible intro _
    | (simp only [↓kept_mk]; with_reducible apply kept_parts)
    | split
    | with_reducible refine kept_of_pair (by assumption) ?_
    | dsimp only

theorem State.sendTrigger_kept {s : State} (h : Kept q z n o c s) (cam : Nat) : Kept q z n o c (State.sendTrigger s cam).1 := by
  unfold State.sendTrigger
  repeat' first
    | with_reducible assumption
    | with_reducible apply State.count_kept
    | with_reducible apply State.raise_kept
    | with_reducible apply State.set_kept
    | with_reducible apply State.emit_kept
    | with_reducible apply kept_foldl
    | with_reducible apply kept_foldl_fst
    | with_reducible apply kept_else
    | with_reducible intro _
    | (simp only [↓kept_mk]; with_reducible apply kept_parts)
    | split
    | with_reducible refine kept_of_pair (by assumption) ?_
    | dsimp only

theorem State.mailboxSend_kept {s : State} (h : Kept q z n o c s) (fn : Nat) (l : Nat) : Kept q z n o c (State.mailboxSend s fn l) := by
  unfold State.mailboxSend
  repeat' first
    | with_reducible assumption
    | with_reducible apply State.code_kept
    | with_reducible apply State.set_kept
    | with_reducible apply State.emit_kept
    | with_reducible apply kept_foldl
    | with_reducible apply kept_foldl_fst
    | with_reducible apply kept_else
    | with_reducible intro _
    | (simp only [↓kept_mk]; with_reducible apply kept_parts)
    | split
    | with_reducible refine kept_of_pair (by assumption) ?_
    | dsimp only

theorem State.mailboxReceive_kept {s : State} (h : Kept q z n o c s) (l : Nat) (kind : Nat) (payload : List Nat) : Kept q z n o c (State.mailboxReceive s l kind payload) := by
  unfold State.mailboxReceive
  repeat' first
    | with_reducible assumption
    | with_reducible apply State.count_kept
    | with_reducible apply State.raise_kept
    | with_reducible apply State.forEach_kept
    | with_reducible apply State.set_kept
    | with_reducible apply kept_foldl
    | with_reducible apply kept_foldl_fst
    | with_reducible apply kept_else
    | with_reducible intro _
    | (simp only [↓kept_mk]; with_reducible apply kept_parts)
    | split
    | with_reducible refine kept_of_pair (by assumption) ?_
    | dsimp only

theorem State.laneRetire_kept {s : State} (h : Kept q z n o c s) (l : Nat) : Kept q z n o c (State.laneRetire s l) := by
  unfold State.laneRetire
  repeat' first
    | with_reducible assumption
    | with_reducible apply State.set_kept
    | with_reducible apply State.laneSleep_kept
    | with_reducible apply State.raise_kept
    | with_reducible apply kept_foldl
    | with_reducible apply kept_foldl_fst
    | with_reducible apply kept_else
    | with_reducible intro _
    | (simp only [↓kept_mk]; with_reducible apply kept_parts)
    | split
    | with_reducible refine kept_of_pair (by assumption) ?_
    | dsimp only

theorem State.modPeer_kept {s : State} (h : Kept q z n o c s) (g : Nat) (f : PeerSt → PeerSt) : Kept q z n o c (State.modPeer s g f) := by
  unfold State.modPeer
  repeat' first
    | with_reducible assumption
    | with_reducible apply kept_foldl
    | with_reducible apply kept_foldl_fst
    | with_reducible apply kept_else
    | with_reducible intro _
    | (simp only [↓kept_mk]; with_reducible apply kept_parts)
    | split
    | with_reducible refine kept_of_pair (by assumption) ?_
    | dsimp only

theorem State.peerEmit_kept {s : State} (h : Kept q z n o c s) (g : Nat) (f : PeerFrame) : Kept q z n o c (State.peerEmit s g f) := by
  unfold State.peerEmit
  repeat' first
    | with_reducible assumption
    | with_reducible apply State.count_kept
    | with_reducible apply State.emit_kept
    | with_reducible apply kept_foldl
    | with_reducible apply kept_foldl_fst
    | with_reducible apply kept_else
    | with_reducible intro _
    | (simp only [↓kept_mk]; with_reducible apply kept_parts)
    | split
    | with_reducible refine kept_of_pair (by assumption) ?_
    | dsimp only

theorem State.peerTransmit_kept {s : State} (h : Kept q z n o c s) (g : Nat) (f : PeerFrame) : Kept q z n o c (State.peerTransmit s g f) := by
  unfold State.peerTransmit
  repeat' first
    | with_reducible assumption
    | with_reducible apply State.modPeer_kept
    | with_reducible apply State.peerEmit_kept
    | with_reducible apply kept_foldl
    | with_reducible apply kept_foldl_fst
    | with_reducible apply kept_else
    | with_reducible intro _
    | (simp only [↓kept_mk]; with_reducible apply kept_parts)
    | split
    | with_reducible refine kept_of_pair (by assumption) ?_
    | dsimp only

theorem State.peerPump_kept {s : State} (h : Kept q z n o c s) (g k : Nat) : Kept q z n o c (s.peerPump g k) := by
  induction k generalizing s with
  | zero => exact h
  | succ k ih =>
    unfold State.peerPump
    split
    · exact h
    · split
      · exact ih (State.peerTransmit_kept (State.modPeer_kept h _ _) _ _)
      · exact h

theorem State.peerFlush_kept {s : State} (h : Kept q z n o c s) (g : Nat) : Kept q z n o c (State.peerFlush s g) := by
  unfold State.peerFlush
  repeat' first
    | with_reducible assumption
    | with_reducible apply State.peerPump_kept
    | with_reducible apply kept_foldl
    | with_reducible apply kept_foldl_fst
    | with_reducible apply kept_else
    | with_reducible intro _
    | (simp only [↓kept_mk]; with_reducible apply kept_parts)
    | split
    | with_reducible refine kept_of_pair (by assumption) ?_
    | dsimp only

theorem State.peerSend_kept {s : State} (h : Kept q z n o c s) (g : Nat) (typ : Nat) (tag : Nat) (payload : List Nat) : Kept q z n o c (State.peerSend s g typ tag payload) := by
  unfold State.peerSend
  repeat' first
    | with_reducible assumption
    | with_reducible apply State.modPeer_kept
    | with_reducible apply State.peerFlush_kept
    | with_reducible apply kept_foldl
    | with_reducible apply kept_foldl_fst
    | with_reducible apply kept_else
    | with_reducible intro _
    | (simp only [↓kept_mk]; with_reducible apply kept_parts)
    | split
    | with_reducible refine kept_of_pair (by assumption) ?_
    | dsimp only

theorem State.peerCredit_kept {s : State} (h : Kept q z n o c s) (g : Nat) : Kept q z n o c (State.peerCredit s g) := by
  unfold State.peerCredit
  repeat' first
    | with_reducible assumption
    | with_reducible apply State.peerEmit_kept
    | with_reducible apply kept_foldl
    | with_reducible apply kept_foldl_fst
    | with_reducible apply kept_else
    | with_reducible intro _
    | (simp only [↓kept_mk]; with_reducible apply kept_parts)
    | split
    | with_reducible refine kept_of_pair (by assumption) ?_
    | dsimp only

theorem State.peerAck_kept {s : State} (h : Kept q z n o c s) (g : Nat) : Kept q z n o c (State.peerAck s g) := by
  unfold State.peerAck
  repeat' first
    | with_reducible assumption
    | with_reducible apply State.modPeer_kept
    | with_reducible apply State.peerEmit_kept
    | with_reducible apply kept_foldl
    | with_reducible apply kept_foldl_fst
    | with_reducible apply kept_else
    | with_reducible intro _
    | (simp only [↓kept_mk]; with_reducible apply kept_parts)
    | split
    | with_reducible refine kept_of_pair (by assumption) ?_
    | dsimp only

theorem State.peerLock_kept {s : State} (h : Kept q z n o c s) (g : Nat) : Kept q z n o c (State.peerLock s g) := by
  unfold State.peerLock
  repeat' first
    | with_reducible assumption
    | with_reducible apply State.set_kept
    | with_reducible apply State.modPeer_kept
    | with_reducible apply kept_foldl
    | with_reducible apply kept_foldl_fst
    | with_reducible apply kept_else
    | with_reducible intro _
    | (simp only [↓kept_mk]; with_reducible apply kept_parts)
    | split
    | with_reducible refine kept_of_pair (by assumption) ?_
    | dsimp only

theorem State.peerFail_kept {s : State} (h : Kept q z n o c s) (g : Nat) (ev : Nat) : Kept q z n o c (State.peerFail s g ev) := by
  unfold State.peerFail
  repeat' first
    | with_reducible assumption
    | with_reducible apply State.set_kept
    | with_reducible apply State.modPeer_kept
    | with_reducible apply State.raise_kept
    | with_reducible apply kept_foldl
    | with_reducible apply kept_foldl_fst
    | with_reducible apply kept_else
    | with_reducible intro _
    | (simp only [↓kept_mk]; with_reducible apply kept_parts)
    | split
    | with_reducible refine kept_of_pair (by assumption) ?_
    | dsimp only

theorem State.peerUp_kept {s : State} (h : Kept q z n o c s) (g : Nat) : Kept q z n o c (State.peerUp s g) := by
  unfold State.peerUp
  repeat' first
    | with_reducible assumption
    | with_reducible apply State.set_kept
    | with_reducible apply State.modPeer_kept
    | with_reducible apply State.raise_kept
    | with_reducible apply kept_foldl
    | with_reducible apply kept_foldl_fst
    | with_reducible apply kept_else
    | with_reducible intro _
    | (simp only [↓kept_mk]; with_reducible apply kept_parts)
    | split
    | with_reducible refine kept_of_pair (by assumption) ?_
    | dsimp only

theorem State.peerDown_kept {s : State} (h : Kept q z n o c s) (g : Nat) : Kept q z n o c (State.peerDown s g) := by
  unfold State.peerDown
  repeat' first
    | with_reducible assumption
    | with_reducible apply State.set_kept
    | with_reducible apply State.modPeer_kept
    | with_reducible apply State.raise_kept
    | with_reducible apply kept_foldl
    | with_reducible apply kept_foldl_fst
    | with_reducible apply kept_else
    | with_reducible intro _
    | (simp only [↓kept_mk]; with_reducible apply kept_parts)
    | split
    | with_reducible refine kept_of_pair (by assumption) ?_
    | dsimp only

theorem State.peerFollow_kept {s : State} (h : Kept q z n o c s) (l : Nat) : Kept q z n o c (State.peerFollow s l) := by
  unfold State.peerFollow
  repeat' first
    | with_reducible assumption
    | with_reducible apply State.set_kept
    | with_reducible apply State.peerDown_kept
    | with_reducible apply kept_foldl
    | with_reducible apply kept_foldl_fst
    | with_reducible apply kept_else
    | with_reducible intro _
    | (simp only [↓kept_mk]; with_reducible apply kept_parts)
    | split
    | with_reducible refine kept_of_pair (by assumption) ?_
    | dsimp only

theorem State.peerTrainWrite_kept {s : State} (h : Kept q z n o c s) (g : Nat) : Kept q z n o c (State.peerTrainWrite s g) := by
  unfold State.peerTrainWrite
  repeat' first
    | with_reducible assumption
    | with_reducible apply State.peerLock_kept
    | with_reducible apply kept_foldl
    | with_reducible apply kept_foldl_fst
    | with_reducible apply kept_else
    | with_reducible intro _
    | (simp only [↓kept_mk]; with_reducible apply kept_parts)
    | split
    | with_reducible refine kept_of_pair (by assumption) ?_
    | dsimp only

theorem State.peerEnable_kept {s : State} (h : Kept q z n o c s) (fn : Nat) (g : Nat) : Kept q z n o c (State.peerEnable s fn g) := by
  unfold State.peerEnable
  repeat' first
    | with_reducible assumption
    | with_reducible apply State.code_kept
    | with_reducible apply State.set_kept
    | with_reducible apply State.forEach_kept
    | with_reducible apply State.setShadow_kept
    | with_reducible apply State.applyPower_kept
    | with_reducible apply State.peerLock_kept
    | with_reducible apply kept_foldl
    | with_reducible apply kept_foldl_fst
    | with_reducible apply kept_else
    | with_reducible intro _
    | (simp only [↓kept_mk]; with_reducible apply kept_parts)
    | split
    | with_reducible refine kept_of_pair (by assumption) ?_
    | dsimp only

theorem State.peerDisable_kept {s : State} (h : Kept q z n o c s) (g : Nat) : Kept q z n o c (State.peerDisable s g) := by
  unfold State.peerDisable
  repeat' first
    | with_reducible assumption
    | with_reducible apply State.set_kept
    | with_reducible apply State.peerDown_kept
    | with_reducible apply State.forEach_kept
    | with_reducible apply State.setShadow_kept
    | with_reducible apply State.dropLock_kept
    | with_reducible apply kept_foldl
    | with_reducible apply kept_foldl_fst
    | with_reducible apply kept_else
    | with_reducible intro _
    | (simp only [↓kept_mk]; with_reducible apply kept_parts)
    | split
    | with_reducible refine kept_of_pair (by assumption) ?_
    | dsimp only

theorem State.helloOut_kept {s : State} (h : Kept q z n o c s) (g : Nat) : Kept q z n o c (State.helloOut s g) := by
  unfold State.helloOut
  repeat' first
    | with_reducible assumption
    | with_reducible apply State.peerEmit_kept
    | with_reducible apply kept_foldl
    | with_reducible apply kept_foldl_fst
    | with_reducible apply kept_else
    | with_reducible intro _
    | (simp only [↓kept_mk]; with_reducible apply kept_parts)
    | split
    | with_reducible refine kept_of_pair (by assumption) ?_
    | dsimp only

theorem State.helloIn_kept {s : State} (h : Kept q z n o c s) (g : Nat) (f : PeerFrame) (crc : Nat) : Kept q z n o c (State.helloIn s g f crc) := by
  unfold State.helloIn
  repeat' first
    | with_reducible assumption
    | with_reducible apply State.count_kept
    | with_reducible apply State.set_kept
    | with_reducible apply State.modPeer_kept
    | with_reducible apply State.peerUp_kept
    | with_reducible apply State.peerFail_kept
    | with_reducible apply kept_foldl
    | with_reducible apply kept_foldl_fst
    | with_reducible apply kept_else
    | with_reducible intro _
    | (simp only [↓kept_mk]; with_reducible apply kept_parts)
    | split
    | with_reducible refine kept_of_pair (by assumption) ?_
    | dsimp only

theorem State.peerMarkers_kept {s : State} (h : Kept q z n o c s) (g : Nat) (order : List Nat) (skewPs : Nat) : Kept q z n o c (State.peerMarkers s g order skewPs) := by
  unfold State.peerMarkers
  repeat' first
    | with_reducible assumption
    | with_reducible apply State.set_kept
    | with_reducible apply State.peerFail_kept
    | with_reducible apply kept_foldl
    | with_reducible apply kept_foldl_fst
    | with_reducible apply kept_else
    | with_reducible intro _
    | (simp only [↓kept_mk]; with_reducible apply kept_parts)
    | split
    | with_reducible refine kept_of_pair (by assumption) ?_
    | dsimp only

theorem State.peerFree_kept {s : State} (h : Kept q z n o c s) (g : Nat) (t : Nat) : Kept q z n o c (State.peerFree s g t) := by
  unfold State.peerFree
  repeat' first
    | with_reducible assumption
    | with_reducible apply State.modPeer_kept
    | with_reducible apply State.peerCredit_kept
    | with_reducible apply kept_foldl
    | with_reducible apply kept_foldl_fst
    | with_reducible apply kept_else
    | with_reducible intro _
    | (simp only [↓kept_mk]; with_reducible apply kept_parts)
    | split
    | with_reducible refine kept_of_pair (by assumption) ?_
    | dsimp only

theorem State.peerTake_kept {s : State} (h : Kept q z n o c s) (g : Nat) (f : PeerFrame) : Kept q z n o c (State.peerTake s g f).1 := by
  unfold State.peerTake
  repeat' first
    | with_reducible assumption
    | with_reducible apply State.count_kept
    | with_reducible apply State.peerFree_kept
    | with_reducible apply State.modPeer_kept
    | with_reducible apply kept_foldl
    | with_reducible apply kept_foldl_fst
    | with_reducible apply kept_else
    | with_reducible intro _
    | (simp only [↓kept_mk]; with_reducible apply kept_parts)
    | split
    | with_reducible refine kept_of_pair (by assumption) ?_
    | dsimp only

theorem State.peerNak_kept {s : State} (h : Kept q z n o c s) (g : Nat) : Kept q z n o c (State.peerNak s g) := by
  unfold State.peerNak
  repeat' first
    | with_reducible assumption
    | with_reducible apply State.modPeer_kept
    | with_reducible apply State.peerEmit_kept
    | with_reducible apply kept_foldl
    | with_reducible apply kept_foldl_fst
    | with_reducible apply kept_else
    | with_reducible intro _
    | (simp only [↓kept_mk]; with_reducible apply kept_parts)
    | split
    | with_reducible refine kept_of_pair (by assumption) ?_
    | dsimp only

theorem State.peerRetry_kept {s : State} (h : Kept q z n o c s) (g : Nat) (f : PeerFrame) (crc : Nat) : Kept q z n o c (State.peerRetry s g f crc).1 := by
  unfold State.peerRetry
  repeat' first
    | with_reducible assumption
    | with_reducible apply State.count_kept
    | with_reducible apply State.peerNak_kept
    | with_reducible apply State.modPeer_kept
    | with_reducible apply State.peerTake_kept
    | with_reducible apply State.peerAck_kept
    | with_reducible apply kept_foldl
    | with_reducible apply kept_foldl_fst
    | with_reducible apply kept_else
    | with_reducible intro _
    | (simp only [↓kept_mk]; with_reducible apply kept_parts)
    | split
    | with_reducible refine kept_of_pair (by assumption) ?_
    | dsimp only

theorem State.peerDropMode_kept {s : State} (h : Kept q z n o c s) (g : Nat) (f : PeerFrame) (crc : Nat) : Kept q z n o c (State.peerDropMode s g f crc).1 := by
  unfold State.peerDropMode
  repeat' first
    | with_reducible assumption
    | with_reducible apply State.count_kept
    | with_reducible apply State.raise_kept
    | with_reducible apply State.modPeer_kept
    | with_reducible apply State.peerFree_kept
    | with_reducible apply State.peerTake_kept
    | with_reducible apply kept_foldl
    | with_reducible apply kept_foldl_fst
    | with_reducible apply kept_else
    | with_reducible intro _
    | (simp only [↓kept_mk]; with_reducible apply kept_parts)
    | split
    | with_reducible refine kept_of_pair (by assumption) ?_
    | dsimp only

theorem State.peerReceive_kept {s : State} (h : Kept q z n o c s) (g : Nat) (f : PeerFrame) (crc : Nat) : Kept q z n o c (State.peerReceive s g f crc).1 := by
  unfold State.peerReceive
  repeat' first
    | with_reducible assumption
    | with_reducible apply State.peerDropMode_kept
    | with_reducible apply State.peerRetry_kept
    | with_reducible apply kept_foldl
    | with_reducible apply kept_foldl_fst
    | with_reducible apply kept_else
    | with_reducible intro _
    | (simp only [↓kept_mk]; with_reducible apply kept_parts)
    | split
    | with_reducible refine kept_of_pair (by assumption) ?_
    | dsimp only

theorem State.peerCtl_kept {s : State} (h : Kept q z n o c s) (g : Nat) (f : PeerFrame) (crc : Nat) (act : State → State) (ha : ∀ t, Kept q z n o c t → Kept q z n o c (act t)) : Kept q z n o c (State.peerCtl s g f crc act) := by
  unfold State.peerCtl
  repeat' first
    | with_reducible assumption
    | with_reducible apply State.count_kept
    | with_reducible apply ha
    | with_reducible apply kept_foldl
    | with_reducible apply kept_foldl_fst
    | with_reducible apply kept_else
    | with_reducible intro _
    | (simp only [↓kept_mk]; with_reducible apply kept_parts)
    | split
    | with_reducible refine kept_of_pair (by assumption) ?_
    | dsimp only

theorem State.peerAcked_kept {s : State} (h : Kept q z n o c s) (g : Nat) (a : Nat) : Kept q z n o c (State.peerAcked s g a) := by
  unfold State.peerAcked
  repeat' first
    | with_reducible assumption
    | with_reducible apply State.modPeer_kept
    | with_reducible apply State.peerFlush_kept
    | with_reducible apply kept_foldl
    | with_reducible apply kept_foldl_fst
    | with_reducible apply kept_else
    | with_reducible intro _
    | (simp only [↓kept_mk]; with_reducible apply kept_parts)
    | split
    | with_reducible refine kept_of_pair (by assumption) ?_
    | dsimp only

theorem State.peerResend_kept {s : State} (h : Kept q z n o c s) (g : Nat) : Kept q z n o c (State.peerResend s g) := by
  unfold State.peerResend
  repeat' first
    | with_reducible assumption
    | with_reducible apply State.raise_kept
    | with_reducible apply State.peerDown_kept
    | with_reducible apply State.modPeer_kept
    | with_reducible apply State.forEach_kept
    | with_reducible apply State.count_kept
    | with_reducible apply State.peerEmit_kept
    | with_reducible apply kept_foldl
    | with_reducible apply kept_foldl_fst
    | with_reducible apply kept_else
    | with_reducible intro _
    | (simp only [↓kept_mk]; with_reducible apply kept_parts)
    | split
    | with_reducible refine kept_of_pair (by assumption) ?_
    | dsimp only

theorem State.peerCredited_kept {s : State} (h : Kept q z n o c s) (g : Nat) (tag : Nat) : Kept q z n o c (State.peerCredited s g tag) := by
  unfold State.peerCredited
  repeat' first
    | with_reducible assumption
    | with_reducible apply State.modPeer_kept
    | with_reducible apply State.peerFlush_kept
    | with_reducible apply kept_foldl
    | with_reducible apply kept_foldl_fst
    | with_reducible apply kept_else
    | with_reducible intro _
    | (simp only [↓kept_mk]; with_reducible apply kept_parts)
    | split
    | with_reducible refine kept_of_pair (by assumption) ?_
    | dsimp only

theorem State.rollover_kept {s : State} (h : Kept q z n o c s)  : Kept q z n o c (State.rollover s) := by
  unfold State.rollover
  repeat' first
    | with_reducible assumption
    | with_reducible apply State.set_kept
    | with_reducible apply State.raise_kept
    | with_reducible apply kept_foldl
    | with_reducible apply kept_foldl_fst
    | with_reducible apply kept_else
    | with_reducible intro _
    | (simp only [↓kept_mk]; with_reducible apply kept_parts)
    | split
    | with_reducible refine kept_of_pair (by assumption) ?_
    | dsimp only

theorem State.passRaw_kept {s : State} (h : Kept q z n o c s) (k : Nat) : Kept q z n o c (s.passRaw k) :=
  { kept_parts h with clock := Nat.le_trans (kept_parts h).clock (Nat.le_add_right _ _) }

theorem State.passTicks_kept {s : State} (h : Kept q z n o c s) (f k : Nat) : Kept q z n o c (s.passTicks f k) := by
  induction f generalizing s k with
  | zero => exact State.passRaw_kept h _
  | succ f ih =>
    unfold State.passTicks
    dsimp only
    split
    · exact State.passRaw_kept h _
    · exact ih (State.rollover_kept (State.passRaw_kept h _)) _

theorem State.pass_kept {s : State} (h : Kept q z n o c s) (k : Nat) : Kept q z n o c (State.pass s k) := by
  unfold State.pass
  repeat' first
    | with_reducible assumption
    | with_reducible apply State.passTicks_kept
    | with_reducible apply kept_foldl
    | with_reducible apply kept_foldl_fst
    | with_reducible apply kept_else
    | with_reducible intro _
    | (simp only [↓kept_mk]; with_reducible apply kept_parts)
    | split
    | with_reducible refine kept_of_pair (by assumption) ?_
    | dsimp only

theorem State.timCapture_kept {s : State} (h : Kept q z n o c s) (src : Nat) (sel : Nat) (rising : Bool) (sec : Nat) (ns : Nat) (pos : Int) : Kept q z n o c (State.timCapture s src sel rising sec ns pos) := by
  unfold State.timCapture
  repeat' first
    | with_reducible assumption
    | with_reducible apply State.forEach_kept
    | with_reducible apply State.set_kept
    | with_reducible apply State.countWrap_kept
    | with_reducible apply State.raiseMask_kept
    | with_reducible apply kept_foldl
    | with_reducible apply kept_foldl_fst
    | with_reducible apply kept_else
    | with_reducible intro _
    | (simp only [↓kept_mk]; with_reducible apply kept_parts)
    | split
    | with_reducible refine kept_of_pair (by assumption) ?_
    | dsimp only

theorem State.encCounts_kept {s : State} (h : Kept q z n o c s) (e : Nat) (delta : Int) : Kept q z n o c (State.encCounts s e delta) := by
  unfold State.encCounts
  repeat' first
    | with_reducible assumption
    | with_reducible apply State.set_kept
    | with_reducible apply kept_foldl
    | with_reducible apply kept_foldl_fst
    | with_reducible apply kept_else
    | with_reducible intro _
    | (simp only [↓kept_mk]; with_reducible apply kept_parts)
    | split
    | with_reducible refine kept_of_pair (by assumption) ?_
    | dsimp only

theorem State.modPool_kept {s : State} (h : Kept q z n o c s) (q_ : Nat) (f : AtnPool → AtnPool) : Kept q z n o c (State.modPool s q_ f) := by
  unfold State.modPool
  repeat' first
    | with_reducible assumption
    | with_reducible apply kept_foldl
    | with_reducible apply kept_foldl_fst
    | with_reducible apply kept_else
    | with_reducible intro _
    | (simp only [↓kept_mk]; with_reducible apply kept_parts)
    | split
    | with_reducible refine kept_of_pair (by assumption) ?_
    | dsimp only

theorem State.modTable_kept {s : State} (h : Kept q z n o c s) (id : Nat) (f : AtnTable → AtnTable) : Kept q z n o c (State.modTable s id f) := by
  unfold State.modTable
  repeat' first
    | with_reducible assumption
    | with_reducible apply kept_foldl
    | with_reducible apply kept_foldl_fst
    | with_reducible apply kept_else
    | with_reducible intro _
    | (simp only [↓kept_mk]; with_reducible apply kept_parts)
    | split
    | with_reducible refine kept_of_pair (by assumption) ?_
    | dsimp only

theorem State.poolEnable_kept {s : State} (h : Kept q z n o c s) (fn : Nat) (q_ : Nat) : Kept q z n o c (State.poolEnable s fn q_) := by
  unfold State.poolEnable
  repeat' first
    | with_reducible assumption
    | with_reducible apply State.code_kept
    | with_reducible apply State.set_kept
    | with_reducible apply State.modPool_kept
    | with_reducible apply kept_foldl
    | with_reducible apply kept_foldl_fst
    | with_reducible apply kept_else
    | with_reducible intro _
    | (simp only [↓kept_mk]; with_reducible apply kept_parts)
    | split
    | with_reducible refine kept_of_pair (by assumption) ?_
    | dsimp only

theorem State.takeLocal_kept {s : State} (h : Kept q z n o c s) (q_ : Nat) : Kept q z n o c (State.takeLocal s q_).1 := by
  unfold State.takeLocal
  repeat' first
    | with_reducible assumption
    | with_reducible apply State.modPool_kept
    | with_reducible apply kept_foldl
    | with_reducible apply kept_foldl_fst
    | with_reducible apply kept_else
    | with_reducible intro _
    | (simp only [↓kept_mk]; with_reducible apply kept_parts)
    | split
    | with_reducible refine kept_of_pair (by assumption) ?_
    | dsimp only

theorem State.takeHome_kept {s : State} (h : Kept q z n o c s) (q_ : Nat) : Kept q z n o c (State.takeHome s q_).1 := by
  unfold State.takeHome
  repeat' first
    | with_reducible assumption
    | with_reducible apply State.modPool_kept
    | with_reducible apply kept_foldl
    | with_reducible apply kept_foldl_fst
    | with_reducible apply kept_else
    | with_reducible intro _
    | (simp only [↓kept_mk]; with_reducible apply kept_parts)
    | split
    | with_reducible refine kept_of_pair (by assumption) ?_
    | dsimp only

theorem State.freeLocal_kept {s : State} (h : Kept q z n o c s) (q_ : Nat) (page : Nat) : Kept q z n o c (State.freeLocal s q_ page) := by
  unfold State.freeLocal
  repeat' first
    | with_reducible assumption
    | with_reducible apply State.modPool_kept
    | with_reducible apply kept_foldl
    | with_reducible apply kept_foldl_fst
    | with_reducible apply kept_else
    | with_reducible intro _
    | (simp only [↓kept_mk]; with_reducible apply kept_parts)
    | split
    | with_reducible refine kept_of_pair (by assumption) ?_
    | dsimp only

theorem State.freeHome_kept {s : State} (h : Kept q z n o c s) (q_ : Nat) (page : Nat) : Kept q z n o c (State.freeHome s q_ page) := by
  unfold State.freeHome
  repeat' first
    | with_reducible assumption
    | with_reducible apply State.modPool_kept
    | with_reducible apply kept_foldl
    | with_reducible apply kept_foldl_fst
    | with_reducible apply kept_else
    | with_reducible intro _
    | (simp only [↓kept_mk]; with_reducible apply kept_parts)
    | split
    | with_reducible refine kept_of_pair (by assumption) ?_
    | dsimp only

theorem State.reapPushes_kept {s : State} (h : Kept q z n o c s)  : Kept q z n o c (State.reapPushes s) := by
  unfold State.reapPushes
  repeat' first
    | with_reducible assumption
    | with_reducible apply State.forEach_kept
    | with_reducible apply State.modPool_kept
    | with_reducible apply State.freeLocal_kept
    | with_reducible apply kept_foldl
    | with_reducible apply kept_foldl_fst
    | with_reducible apply kept_else
    | with_reducible intro _
    | (simp only [↓kept_mk]; with_reducible apply kept_parts)
    | split
    | with_reducible refine kept_of_pair (by assumption) ?_
    | dsimp only

theorem State.tableCreate_kept {s : State} (h : Kept q z n o c s) (id : Nat) (gen : Nat) (ctx : Nat) (w : Nat) : Kept q z n o c (State.tableCreate s id gen ctx w) := by
  unfold State.tableCreate
  repeat' first
    | with_reducible assumption
    | with_reducible apply State.raise_kept
    | with_reducible apply kept_foldl
    | with_reducible apply kept_foldl_fst
    | with_reducible apply kept_else
    | with_reducible intro _
    | (simp only [↓kept_mk]; with_reducible apply kept_parts)
    | split
    | with_reducible refine kept_of_pair (by assumption) ?_
    | dsimp only

theorem State.tableRelease_kept {s : State} (h : Kept q z n o c s) (id : Nat) : Kept q z n o c (State.tableRelease s id) := by
  unfold State.tableRelease
  repeat' first
    | with_reducible assumption
    | with_reducible apply State.modTable_kept
    | with_reducible apply kept_foldl
    | with_reducible apply kept_foldl_fst
    | with_reducible apply kept_else
    | with_reducible intro _
    | (simp only [↓kept_mk]; with_reducible apply kept_parts)
    | split
    | with_reducible refine kept_of_pair (by assumption) ?_
    | dsimp only

theorem State.tablePages_kept {s : State} (h : Kept q z n o c s) (t : AtnTable) : Kept q z n o c (State.tablePages s t) := by
  unfold State.tablePages
  repeat' first
    | with_reducible assumption
    | with_reducible apply State.forEach_kept
    | with_reducible apply State.freeHome_kept
    | with_reducible apply State.freeLocal_kept
    | with_reducible apply kept_foldl
    | with_reducible apply kept_foldl_fst
    | with_reducible apply kept_else
    | with_reducible intro _
    | (simp only [↓kept_mk]; with_reducible apply kept_parts)
    | split
    | with_reducible refine kept_of_pair (by assumption) ?_
    | dsimp only

end Sys2Proof.Machine
end

