-- ==== Sys2Proof/Laws/Kept2.lean ====
section
/-!
SUPPORT. Laws/Kept2.lean: the operations of the machine keep the queue, the fuses, the clock, the outputs and the stores.
-/
namespace Sys2Proof.Machine

set_option linter.unusedSimpArgs false

variable {q : List Instr} {z : Fuses} {n : Nat} {o : List Output} {c : Prop}

theorem State.modTrk_kept {s : State} (h : Kept q z n o c s) (f : TrkState → TrkState) : Kept q z n o c (State.modTrk s f) := by
  unfold State.modTrk
  repeat' first
    | with_reducible assumption
    | with_reducible apply kept_foldl
    | with_reducible apply kept_foldl_fst
    | with_reducible apply kept_else
    | with_reducible intro _
    | (simp only [↓kept_mk]; with_reducible apply kept_parts)
    | split
    | with_reducible refine kept_of_pair (by assumption) ?_
    | dsimp only

theorem State.modRec_kept {s : State} (h : Kept q z n o c s) (span : Bool) (id : Nat) (f : TrkRec → TrkRec) : Kept q z n o c (State.modRec s span id f) := by
  unfold State.modRec
  repeat' first
    | with_reducible assumption
    | with_reducible apply State.modTrk_kept
    | with_reducible apply kept_foldl
    | with_reducible apply kept_foldl_fst
    | with_reducible apply kept_else
    | with_reducible intro _
    | (simp only [↓kept_mk]; with_reducible apply kept_parts)
    | split
    | with_reducible refine kept_of_pair (by assumption) ?_
    | dsimp only

theorem State.bumpGen_kept {s : State} (h : Kept q z n o c s) (id : Nat) : Kept q z n o c (State.bumpGen s id) := by
  unfold State.bumpGen
  repeat' first
    | with_reducible assumption
    | with_reducible apply State.modTrk_kept
    | with_reducible apply kept_foldl
    | with_reducible apply kept_foldl_fst
    | with_reducible apply kept_else
    | with_reducible intro _
    | (simp only [↓kept_mk]; with_reducible apply kept_parts)
    | split
    | with_reducible refine kept_of_pair (by assumption) ?_
    | dsimp only

theorem State.giveId_kept {s : State} (h : Kept q z n o c s) (id : Nat) : Kept q z n o c (State.giveId s id) := by
  unfold State.giveId
  repeat' first
    | with_reducible assumption
    | with_reducible apply State.modTrk_kept
    | with_reducible apply kept_foldl
    | with_reducible apply kept_foldl_fst
    | with_reducible apply kept_else
    | with_reducible intro _
    | (simp only [↓kept_mk]; with_reducible apply kept_parts)
    | split
    | with_reducible refine kept_of_pair (by assumption) ?_
    | dsimp only

theorem State.notePeak_kept {s : State} (h : Kept q z n o c s)  : Kept q z n o c (State.notePeak s) := by
  unfold State.notePeak
  repeat' first
    | with_reducible assumption
    | with_reducible apply State.set_kept
    | with_reducible apply kept_foldl
    | with_reducible apply kept_foldl_fst
    | with_reducible apply kept_else
    | with_reducible intro _
    | (simp only [↓kept_mk]; with_reducible apply kept_parts)
    | split
    | with_reducible refine kept_of_pair (by assumption) ?_
    | dsimp only

theorem State.reserve_kept {s : State} (h : Kept q z n o c s) (span : Bool) (id : Nat) : Kept q z n o c (State.reserve s span id) := by
  unfold State.reserve
  repeat' first
    | with_reducible assumption
    | with_reducible apply State.modRec_kept
    | with_reducible apply State.forEach_kept
    | with_reducible apply State.notePeak_kept
    | with_reducible apply kept_foldl
    | with_reducible apply kept_foldl_fst
    | with_reducible apply kept_else
    | with_reducible intro _
    | (simp only [↓kept_mk]; with_reducible apply kept_parts)
    | split
    | with_reducible refine kept_of_pair (by assumption) ?_
    | dsimp only

theorem State.reserveAll_kept {s : State} (h : Kept q z n o c s)  : Kept q z n o c (State.reserveAll s) := by
  unfold State.reserveAll
  repeat' first
    | with_reducible assumption
    | with_reducible apply State.forEach_kept
    | with_reducible apply State.reserve_kept
    | with_reducible apply kept_foldl
    | with_reducible apply kept_foldl_fst
    | with_reducible apply kept_else
    | with_reducible intro _
    | (simp only [↓kept_mk]; with_reducible apply kept_parts)
    | split
    | with_reducible refine kept_of_pair (by assumption) ?_
    | dsimp only

theorem State.logEntry_kept {s : State} (h : Kept q z n o c s) (r : TrkRec) : Kept q z n o c (State.logEntry s r) := by
  unfold State.logEntry
  repeat' first
    | with_reducible assumption
    | with_reducible apply State.countWrap_kept
    | with_reducible apply State.count_kept
    | with_reducible apply State.raise_kept
    | with_reducible apply State.hostOut_kept
    | with_reducible apply kept_foldl
    | with_reducible apply kept_foldl_fst
    | with_reducible apply kept_else
    | with_reducible intro _
    | (simp only [↓kept_mk]; with_reducible apply kept_parts)
    | split
    | with_reducible refine kept_of_pair (by assumption) ?_
    | dsimp only

theorem State.recDone_kept {s : State} (h : Kept q z n o c s) (span : Bool) (id : Nat) : Kept q z n o c (State.recDone s span id) := by
  unfold State.recDone
  repeat' first
    | with_reducible assumption
    | with_reducible apply State.modRec_kept
    | with_reducible apply State.logEntry_kept
    | with_reducible apply State.modTrk_kept
    | with_reducible apply State.tableRelease_kept
    | with_reducible apply kept_foldl
    | with_reducible apply kept_foldl_fst
    | with_reducible apply kept_else
    | with_reducible intro _
    | (simp only [↓kept_mk]; with_reducible apply kept_parts)
    | split
    | with_reducible refine kept_of_pair (by assumption) ?_
    | dsimp only

theorem State.recCheck_kept {s : State} (h : Kept q z n o c s) (span : Bool) (id : Nat) : Kept q z n o c (State.recCheck s span id) := by
  unfold State.recCheck
  repeat' first
    | with_reducible assumption
    | with_reducible apply State.modRec_kept
    | with_reducible apply State.recDone_kept
    | with_reducible apply kept_foldl
    | with_reducible apply kept_foldl_fst
    | with_reducible apply kept_else
    | with_reducible intro _
    | (simp only [↓kept_mk]; with_reducible apply kept_parts)
    | split
    | with_reducible refine kept_of_pair (by assumption) ?_
    | dsimp only

theorem State.setReasons_kept {s : State} (h : Kept q z n o c s) (span : Bool) (id : Nat) (mask : Nat) : Kept q z n o c (State.setReasons s span id mask) := by
  unfold State.setReasons
  repeat' first
    | with_reducible assumption
    | with_reducible apply State.modRec_kept
    | with_reducible apply State.reserve_kept
    | with_reducible apply kept_foldl
    | with_reducible apply kept_foldl_fst
    | with_reducible apply kept_else
    | with_reducible intro _
    | (simp only [↓kept_mk]; with_reducible apply kept_parts)
    | split
    | with_reducible refine kept_of_pair (by assumption) ?_
    | dsimp only

theorem State.recGrown_kept {s : State} (h : Kept q z n o c s) (span : Bool) (id : Nat) : Kept q z n o c (State.recGrown s span id) := by
  unfold State.recGrown
  repeat' first
    | with_reducible assumption
    | with_reducible apply State.modRec_kept
    | with_reducible apply State.setReasons_kept
    | with_reducible apply kept_foldl
    | with_reducible apply kept_foldl_fst
    | with_reducible apply kept_else
    | with_reducible intro _
    | (simp only [↓kept_mk]; with_reducible apply kept_parts)
    | split
    | with_reducible refine kept_of_pair (by assumption) ?_
    | dsimp only

theorem State.trkNotice_kept {s : State} (h : Kept q z n o c s) (ctx : Nat) (a : Int) (e : Int) (reasons : Nat) : Kept q z n o c (State.trkNotice s ctx a e reasons) := by
  unfold State.trkNotice
  repeat' first
    | with_reducible assumption
    | with_reducible apply State.modTrk_kept
    | with_reducible apply State.count_kept
    | with_reducible apply State.forEach_kept
    | with_reducible apply State.setReasons_kept
    | with_reducible apply kept_foldl
    | with_reducible apply kept_foldl_fst
    | with_reducible apply kept_else
    | with_reducible intro _
    | (simp only [↓kept_mk]; with_reducible apply kept_parts)
    | split
    | with_reducible refine kept_of_pair (by assumption) ?_
    | dsimp only

theorem State.trkBackup_kept {s : State} (h : Kept q z n o c s)  : Kept q z n o c (State.trkBackup s) := by
  unfold State.trkBackup
  repeat' first
    | with_reducible assumption
    | with_reducible apply State.forEach_kept
    | with_reducible apply State.setReasons_kept
    | with_reducible apply kept_foldl
    | with_reducible apply kept_foldl_fst
    | with_reducible apply kept_else
    | with_reducible intro _
    | (simp only [↓kept_mk]; with_reducible apply kept_parts)
    | split
    | with_reducible refine kept_of_pair (by assumption) ?_
    | dsimp only

theorem State.trkAbort_kept {s : State} (h : Kept q z n o c s) (ctxs : List Nat) (reason : Nat) : Kept q z n o c (State.trkAbort s ctxs reason) := by
  unfold State.trkAbort
  repeat' first
    | with_reducible assumption
    | with_reducible apply State.forEach_kept
    | with_reducible apply State.setReasons_kept
    | with_reducible apply kept_foldl
    | with_reducible apply kept_foldl_fst
    | with_reducible apply kept_else
    | with_reducible intro _
    | (simp only [↓kept_mk]; with_reducible apply kept_parts)
    | split
    | with_reducible refine kept_of_pair (by assumption) ?_
    | dsimp only

theorem State.recOpen_kept {s : State} (h : Kept q z n o c s) (e : PartEntry) (state : Nat) : Kept q z n o c (State.recOpen s e state) := by
  unfold State.recOpen
  repeat' first
    | with_reducible assumption
    | with_reducible apply State.count_kept
    | with_reducible apply State.modTrk_kept
    | with_reducible apply State.tableCreate_kept
    | with_reducible apply State.setReasons_kept
    | with_reducible apply kept_foldl
    | with_reducible apply kept_foldl_fst
    | with_reducible apply kept_else
    | with_reducible intro _
    | (simp only [↓kept_mk]; with_reducible apply kept_parts)
    | split
    | with_reducible refine kept_of_pair (by assumption) ?_
    | dsimp only

theorem State.recUpdate_kept {s : State} (h : Kept q z n o c s) (e : PartEntry) (close : Bool) : Kept q z n o c (State.recUpdate s e close) := by
  unfold State.recUpdate
  repeat' first
    | with_reducible assumption
    | with_reducible apply State.count_kept
    | with_reducible apply State.modRec_kept
    | with_reducible apply State.recGrown_kept
    | with_reducible apply State.reserve_kept
    | with_reducible apply State.recCheck_kept
    | with_reducible apply kept_foldl
    | with_reducible apply kept_foldl_fst
    | with_reducible apply kept_else
    | with_reducible intro _
    | (simp only [↓kept_mk]; with_reducible apply kept_parts)
    | split
    | with_reducible refine kept_of_pair (by assumption) ?_
    | dsimp only

theorem State.recMerge_kept {s : State} (h : Kept q z n o c s) (e : PartEntry) : Kept q z n o c (State.recMerge s e) := by
  unfold State.recMerge
  repeat' first
    | with_reducible assumption
    | with_reducible apply State.count_kept
    | with_reducible apply State.modRec_kept
    | with_reducible apply State.recGrown_kept
    | with_reducible apply State.reserve_kept
    | with_reducible apply State.recDone_kept
    | with_reducible apply State.recCheck_kept
    | with_reducible apply kept_foldl
    | with_reducible apply kept_foldl_fst
    | with_reducible apply kept_else
    | with_reducible intro _
    | (simp only [↓kept_mk]; with_reducible apply kept_parts)
    | split
    | with_reducible refine kept_of_pair (by assumption) ?_
    | dsimp only

theorem State.spanOpen_kept {s : State} (h : Kept q z n o c s) (ctx : Nat) (first : Int) (last : Int) : Kept q z n o c (State.spanOpen s ctx first last) := by
  unfold State.spanOpen
  repeat' first
    | with_reducible assumption
    | with_reducible apply State.count_kept
    | with_reducible apply State.raise_kept
    | with_reducible apply State.modTrk_kept
    | with_reducible apply State.setReasons_kept
    | with_reducible apply kept_foldl
    | with_reducible apply kept_foldl_fst
    | with_reducible apply kept_else
    | with_reducible intro _
    | (simp only [↓kept_mk]; with_reducible apply kept_parts)
    | split
    | with_reducible refine kept_of_pair (by assumption) ?_
    | dsimp only

theorem State.spanTake_kept {s : State} (h : Kept q z n o c s) (ctx : Nat) (first : Int) (last : Int) : Kept q z n o c (State.spanTake s ctx first last) := by
  unfold State.spanTake
  repeat' first
    | with_reducible assumption
    | with_reducible apply State.modRec_kept
    | with_reducible apply State.recGrown_kept
    | with_reducible apply State.spanOpen_kept
    | with_reducible apply kept_foldl
    | with_reducible apply kept_foldl_fst
    | with_reducible apply kept_else
    | with_reducible intro _
    | (simp only [↓kept_mk]; with_reducible apply kept_parts)
    | split
    | with_reducible refine kept_of_pair (by assumption) ?_
    | dsimp only

theorem State.trkVerdict_kept {s : State} (h : Kept q z n o c s) (v : VerdictMsg) (peer : Bool) : Kept q z n o c (State.trkVerdict s v peer) := by
  unfold State.trkVerdict
  repeat' first
    | with_reducible assumption
    | with_reducible apply State.count_kept
    | with_reducible apply State.raise_kept
    | with_reducible apply State.modRec_kept
    | with_reducible apply State.reserve_kept
    | with_reducible apply kept_foldl
    | with_reducible apply kept_foldl_fst
    | with_reducible apply kept_else
    | with_reducible intro _
    | (simp only [↓kept_mk]; with_reducible apply kept_parts)
    | split
    | with_reducible refine kept_of_pair (by assumption) ?_
    | dsimp only

theorem State.foUpdate_kept {s : State} (h : Kept q z n o c s)  : Kept q z n o c (State.foUpdate s) := by
  unfold State.foUpdate
  repeat' first
    | with_reducible assumption
    | with_reducible apply State.set_kept
    | with_reducible apply State.forEach_kept
    | with_reducible apply kept_foldl
    | with_reducible apply kept_foldl_fst
    | with_reducible apply kept_else
    | with_reducible intro _
    | (simp only [↓kept_mk]; with_reducible apply kept_parts)
    | split
    | with_reducible refine kept_of_pair (by assumption) ?_
    | dsimp only

theorem State.showValve_kept {s : State} (h : Kept q z n o c s) (path : Nat) (num : Nat) (on : Bool) : Kept q z n o c (State.showValve s path num on) := by
  unfold State.showValve
  repeat' first
    | with_reducible assumption
    | with_reducible apply State.set_kept
    | with_reducible apply State.foUpdate_kept
    | with_reducible apply kept_foldl
    | with_reducible apply kept_foldl_fst
    | with_reducible apply kept_else
    | with_reducible intro _
    | (simp only [↓kept_mk]; with_reducible apply kept_parts)
    | split
    | with_reducible refine kept_of_pair (by assumption) ?_
    | dsimp only

theorem State.putValve_kept {s : State} (h : Kept q z n o c s) (v : Valve) : Kept q z n o c (State.putValve s v) := by
  unfold State.putValve
  repeat' first
    | with_reducible assumption
    | with_reducible apply State.modTrk_kept
    | with_reducible apply kept_foldl
    | with_reducible apply kept_foldl_fst
    | with_reducible apply kept_else
    | with_reducible intro _
    | (simp only [↓kept_mk]; with_reducible apply kept_parts)
    | split
    | with_reducible refine kept_of_pair (by assumption) ?_
    | dsimp only

theorem State.valveNow_kept {s : State} (h : Kept q z n o c s) (path : Nat) (num : Nat) (on : Bool) : Kept q z n o c (State.valveNow s path num on) := by
  unfold State.valveNow
  repeat' first
    | with_reducible assumption
    | with_reducible apply State.putValve_kept
    | with_reducible apply State.showValve_kept
    | with_reducible apply kept_foldl
    | with_reducible apply kept_foldl_fst
    | with_reducible apply kept_else
    | with_reducible intro _
    | (simp only [↓kept_mk]; with_reducible apply kept_parts)
    | split
    | with_reducible refine kept_of_pair (by assumption) ?_
    | dsimp only

theorem State.markFirings_kept {s : State} (h : Kept q z n o c s) (path : Nat) (num : Nat) (fl : Nat) : Kept q z n o c (State.markFirings s path num fl) := by
  unfold State.markFirings
  repeat' first
    | with_reducible assumption
    | with_reducible apply State.forEach_kept
    | with_reducible apply State.modRec_kept
    | with_reducible apply kept_foldl
    | with_reducible apply kept_foldl_fst
    | with_reducible apply kept_else
    | with_reducible intro _
    | (simp only [↓kept_mk]; with_reducible apply kept_parts)
    | split
    | with_reducible refine kept_of_pair (by assumption) ?_
    | dsimp only

theorem State.valveOn_kept {s : State} (h : Kept q z n o c s) (path : Nat) (num : Nat) : Kept q z n o c (State.valveOn s path num) := by
  unfold State.valveOn
  repeat' first
    | with_reducible assumption
    | with_reducible apply State.valveNow_kept
    | with_reducible apply State.putValve_kept
    | with_reducible apply State.count_kept
    | with_reducible apply State.pmc_kept
    | with_reducible apply State.markFirings_kept
    | with_reducible apply kept_foldl
    | with_reducible apply kept_foldl_fst
    | with_reducible apply kept_else
    | with_reducible intro _
    | (simp only [↓kept_mk]; with_reducible apply kept_parts)
    | split
    | with_reducible refine kept_of_pair (by assumption) ?_
    | dsimp only

theorem State.valveOff_kept {s : State} (h : Kept q z n o c s) (path : Nat) (num : Nat) : Kept q z n o c (State.valveOff s path num) := by
  unfold State.valveOff
  repeat' first
    | with_reducible assumption
    | with_reducible apply State.putValve_kept
    | with_reducible apply State.count_kept
    | with_reducible apply State.pmc_kept
    | with_reducible apply State.markFirings_kept
    | with_reducible apply State.valveNow_kept
    | with_reducible apply kept_foldl
    | with_reducible apply kept_foldl_fst
    | with_reducible apply kept_else
    | with_reducible intro _
    | (simp only [↓kept_mk]; with_reducible apply kept_parts)
    | split
    | with_reducible refine kept_of_pair (by assumption) ?_
    | dsimp only

theorem State.modFiring_kept {s : State} (h : Kept q z n o c s) (span : Bool) (id : Nat) (bank : Nat) (g : Firing → Firing) : Kept q z n o c (State.modFiring s span id bank g) := by
  unfold State.modFiring
  repeat' first
    | with_reducible assumption
    | with_reducible apply State.modTrk_kept
    | with_reducible apply kept_foldl
    | with_reducible apply kept_foldl_fst
    | with_reducible apply kept_else
    | with_reducible intro _
    | (simp only [↓kept_mk]; with_reducible apply kept_parts)
    | split
    | with_reducible refine kept_of_pair (by assumption) ?_
    | dsimp only

theorem State.dropFiring_kept {s : State} (h : Kept q z n o c s) (span : Bool) (id : Nat) (bank : Nat) : Kept q z n o c (State.dropFiring s span id bank) := by
  unfold State.dropFiring
  repeat' first
    | with_reducible assumption
    | with_reducible apply State.modTrk_kept
    | with_reducible apply State.recCheck_kept
    | with_reducible apply kept_foldl
    | with_reducible apply kept_foldl_fst
    | with_reducible apply kept_else
    | with_reducible intro _
    | (simp only [↓kept_mk]; with_reducible apply kept_parts)
    | split
    | with_reducible refine kept_of_pair (by assumption) ?_
    | dsimp only

theorem State.endFirings_kept {s : State} (h : Kept q z n o c s)  : Kept q z n o c (State.endFirings s) := by
  unfold State.endFirings
  repeat' first
    | with_reducible assumption
    | with_reducible apply State.forEach_kept
    | with_reducible apply State.modRec_kept
    | with_reducible apply State.dropFiring_kept
    | with_reducible apply kept_foldl
    | with_reducible apply kept_foldl_fst
    | with_reducible apply kept_else
    | with_reducible intro _
    | (simp only [↓kept_mk]; with_reducible apply kept_parts)
    | split
    | with_reducible refine kept_of_pair (by assumption) ?_
    | dsimp only

theorem State.firingOn_kept {s : State} (h : Kept q z n o c s) (f : Firing) : Kept q z n o c (State.firingOn s f) := by
  unfold State.firingOn
  repeat' first
    | with_reducible assumption
    | with_reducible apply State.modFiring_kept
    | with_reducible apply State.modRec_kept
    | with_reducible apply State.forEach_kept
    | with_reducible apply State.valveOn_kept
    | with_reducible apply kept_foldl
    | with_reducible apply kept_foldl_fst
    | with_reducible apply kept_else
    | with_reducible intro _
    | (simp only [↓kept_mk]; with_reducible apply kept_parts)
    | split
    | with_reducible refine kept_of_pair (by assumption) ?_
    | dsimp only

theorem State.firingOff_kept {s : State} (h : Kept q z n o c s) (f : Firing) : Kept q z n o c (State.firingOff s f) := by
  unfold State.firingOff
  repeat' first
    | with_reducible assumption
    | with_reducible apply State.modFiring_kept
    | with_reducible apply State.forEach_kept
    | with_reducible apply State.valveOff_kept
    | with_reducible apply State.endFirings_kept
    | with_reducible apply kept_foldl
    | with_reducible apply kept_foldl_fst
    | with_reducible apply kept_else
    | with_reducible intro _
    | (simp only [↓kept_mk]; with_reducible apply kept_parts)
    | split
    | with_reducible refine kept_of_pair (by assumption) ?_
    | dsimp only

theorem State.valveDue_kept {s : State} (h : Kept q z n o c s) (v : Valve) : Kept q z n o c (State.valveDue s v) := by
  unfold State.valveDue
  repeat' first
    | with_reducible assumption
    | with_reducible apply State.valveNow_kept
    | with_reducible apply State.valveOff_kept
    | with_reducible apply State.endFirings_kept
    | with_reducible apply kept_foldl
    | with_reducible apply kept_foldl_fst
    | with_reducible apply kept_else
    | with_reducible intro _
    | (simp only [↓kept_mk]; with_reducible apply kept_parts)
    | split
    | with_reducible refine kept_of_pair (by assumption) ?_
    | dsimp only

theorem State.valveMaxOn_kept {s : State} (h : Kept q z n o c s) (path : Nat) (num : Nat) : Kept q z n o c (State.valveMaxOn s path num) := by
  unfold State.valveMaxOn
  repeat' first
    | with_reducible assumption
    | with_reducible apply State.count_kept
    | with_reducible apply State.raise_kept
    | with_reducible apply State.markFirings_kept
    | with_reducible apply State.valveNow_kept
    | with_reducible apply State.forEach_kept
    | with_reducible apply State.modFiring_kept
    | with_reducible apply State.valveOff_kept
    | with_reducible apply State.endFirings_kept
    | with_reducible apply kept_foldl
    | with_reducible apply kept_foldl_fst
    | with_reducible apply kept_else
    | with_reducible intro _
    | (simp only [↓kept_mk]; with_reducible apply kept_parts)
    | split
    | with_reducible refine kept_of_pair (by assumption) ?_
    | dsimp only

theorem State.markSafeHeld_kept {s : State} (h : Kept q z n o c s)  : Kept q z n o c (State.markSafeHeld s) := by
  unfold State.markSafeHeld
  repeat' first
    | with_reducible assumption
    | with_reducible apply State.forEach_kept
    | with_reducible apply State.modRec_kept
    | with_reducible apply kept_foldl
    | with_reducible apply kept_foldl_fst
    | with_reducible apply kept_else
    | with_reducible intro _
    | (simp only [↓kept_mk]; with_reducible apply kept_parts)
    | split
    | with_reducible refine kept_of_pair (by assumption) ?_
    | dsimp only

theorem State.queueFiring_kept {s : State} (h : Kept q z n o c s) (r : TrkRec) (b : Nat) : Kept q z n o c (State.queueFiring s r b) := by
  unfold State.queueFiring
  repeat' first
    | with_reducible assumption
    | with_reducible apply State.modRec_kept
    | with_reducible apply State.count_kept
    | with_reducible apply State.raise_kept
    | with_reducible apply State.modTrk_kept
    | with_reducible apply State.pmc_kept
    | with_reducible apply State.notePeak_kept
    | with_reducible apply kept_foldl
    | with_reducible apply kept_foldl_fst
    | with_reducible apply kept_else
    | with_reducible intro _
    | (simp only [↓kept_mk]; with_reducible apply kept_parts)
    | split
    | with_reducible refine kept_of_pair (by assumption) ?_
    | dsimp only

theorem State.recCommit_kept {s : State} (h : Kept q z n o c s) (r : TrkRec) : Kept q z n o c (State.recCommit s r) := by
  unfold State.recCommit
  repeat' first
    | with_reducible assumption
    | with_reducible apply State.modRec_kept
    | with_reducible apply State.count_kept
    | with_reducible apply State.pmc_kept
    | with_reducible apply State.raise_kept
    | with_reducible apply State.forEach_kept
    | with_reducible apply State.queueFiring_kept
    | with_reducible apply State.recCheck_kept
    | with_reducible apply kept_foldl
    | with_reducible apply kept_foldl_fst
    | with_reducible apply kept_else
    | with_reducible intro _
    | (simp only [↓kept_mk]; with_reducible apply kept_parts)
    | split
    | with_reducible refine kept_of_pair (by assumption) ?_
    | dsimp only

theorem State.portLost_kept {s : State} (h : Kept q z n o c s) (port : Nat) : Kept q z n o c (State.portLost s port) := by
  unfold State.portLost
  repeat' first
    | with_reducible assumption
    | with_reducible apply State.set_kept
    | with_reducible apply State.forEach_kept
    | with_reducible apply State.modRec_kept
    | with_reducible apply State.modTrk_kept
    | with_reducible apply State.recCheck_kept
    | with_reducible apply State.reserveAll_kept
    | with_reducible apply kept_foldl
    | with_reducible apply kept_foldl_fst
    | with_reducible apply kept_else
    | with_reducible intro _
    | (simp only [↓kept_mk]; with_reducible apply kept_parts)
    | split
    | with_reducible refine kept_of_pair (by assumption) ?_
    | dsimp only

theorem State.beltAbandon_kept {s : State} (h : Kept q z n o c s)  : Kept q z n o c (State.beltAbandon s) := by
  unfold State.beltAbandon
  repeat' first
    | with_reducible assumption
    | with_reducible apply State.modTrk_kept
    | with_reducible apply State.forEach_kept
    | with_reducible apply State.set_kept
    | with_reducible apply State.foUpdate_kept
    | with_reducible apply State.modRec_kept
    | with_reducible apply State.recDone_kept
    | with_reducible apply State.raise_kept
    | with_reducible apply kept_foldl
    | with_reducible apply kept_foldl_fst
    | with_reducible apply kept_else
    | with_reducible intro _
    | (simp only [↓kept_mk]; with_reducible apply kept_parts)
    | split
    | with_reducible refine kept_of_pair (by assumption) ?_
    | dsimp only

theorem State.setBucket_kept {s : State} (h : Kept q z n o c s) (t : Nat) (i : Nat) (b : Nat) : Kept q z n o c (State.setBucket s t i b) := by
  unfold State.setBucket
  repeat' first
    | with_reducible assumption
    | with_reducible apply kept_foldl
    | with_reducible apply kept_foldl_fst
    | with_reducible apply kept_else
    | with_reducible intro _
    | (simp only [↓kept_mk]; with_reducible apply kept_parts)
    | split
    | with_reducible refine kept_of_pair (by assumption) ?_
    | dsimp only

theorem State.addUpset_kept {s : State} (h : Kept q z n o c s) (t : Nat) (i : Nat) : Kept q z n o c (State.addUpset s t i).1 := by
  unfold State.addUpset
  repeat' first
    | with_reducible assumption
    | with_reducible apply State.setBucket_kept
    | with_reducible apply kept_foldl
    | with_reducible apply kept_foldl_fst
    | with_reducible apply kept_else
    | with_reducible intro _
    | (simp only [↓kept_mk]; with_reducible apply kept_parts)
    | split
    | with_reducible refine kept_of_pair (by assumption) ?_
    | dsimp only

theorem State.leak_kept {s : State} (h : Kept q z n o c s) (t : Nat) : Kept q z n o c (State.leak s t) := by
  unfold State.leak
  repeat' first
    | with_reducible assumption
    | with_reducible apply kept_foldl
    | with_reducible apply kept_foldl_fst
    | with_reducible apply kept_else
    | with_reducible intro _
    | (simp only [↓kept_mk]; with_reducible apply kept_parts)
    | split
    | with_reducible refine kept_of_pair (by assumption) ?_
    | dsimp only

theorem State.channelRetired_kept {s : State} (h : Kept q z n o c s) (t : Nat) (i : Nat) : Kept q z n o c (State.channelRetired s t i) := by
  unfold State.channelRetired
  repeat' first
    | with_reducible assumption
    | with_reducible apply State.raise_kept
    | with_reducible apply kept_foldl
    | with_reducible apply kept_foldl_fst
    | with_reducible apply kept_else
    | with_reducible intro _
    | (simp only [↓kept_mk]; with_reducible apply kept_parts)
    | split
    | with_reducible refine kept_of_pair (by assumption) ?_
    | dsimp only

theorem State.pcRetire_kept {s : State} (h : Kept q z n o c s) (k : Nat) : Kept q z n o c (State.pcRetire s k) := by
  unfold State.pcRetire
  repeat' first
    | with_reducible assumption
    | with_reducible apply State.set_kept
    | with_reducible apply State.raise_kept
    | with_reducible apply State.channelRetired_kept
    | with_reducible apply kept_foldl
    | with_reducible apply kept_foldl_fst
    | with_reducible apply kept_else
    | with_reducible intro _
    | (simp only [↓kept_mk]; with_reducible apply kept_parts)
    | split
    | with_reducible refine kept_of_pair (by assumption) ?_
    | dsimp only

theorem State.pcUpset_kept {s : State} (h : Kept q z n o c s) (k : Nat) : Kept q z n o c (State.pcUpset s k) := by
  unfold State.pcUpset
  repeat' first
    | with_reducible assumption
    | with_reducible apply State.addUpset_kept
    | with_reducible apply State.pcRetire_kept
    | with_reducible apply kept_foldl
    | with_reducible apply kept_foldl_fst
    | with_reducible apply kept_else
    | with_reducible intro _
    | (simp only [↓kept_mk]; with_reducible apply kept_parts)
    | split
    | with_reducible refine kept_of_pair (by assumption) ?_
    | dsimp only

theorem State.ueFound_kept {s : State} (h : Kept q z n o c s) (key : Nat) (scrub : Bool) : Kept q z n o c (State.ueFound s key scrub) := by
  unfold State.ueFound
  repeat' first
    | with_reducible assumption
    | with_reducible apply State.set_kept
    | with_reducible apply State.count_kept
    | with_reducible apply State.raise_kept
    | with_reducible apply State.pcUpset_kept
    | with_reducible apply kept_foldl
    | with_reducible apply kept_foldl_fst
    | with_reducible apply kept_else
    | with_reducible intro _
    | (simp only [↓kept_mk]; with_reducible apply kept_parts)
    | split
    | with_reducible refine kept_of_pair (by assumption) ?_
    | dsimp only

theorem State.ceFound_kept {s : State} (h : Kept q z n o c s) (key : Nat) : Kept q z n o c (State.ceFound s key) := by
  unfold State.ceFound
  repeat' first
    | with_reducible assumption
    | with_reducible apply State.count_kept
    | with_reducible apply State.set_kept
    | with_reducible apply State.raise_kept
    | with_reducible apply State.pcUpset_kept
    | with_reducible apply kept_hbmWrite
    | with_reducible apply kept_foldl
    | with_reducible apply kept_foldl_fst
    | with_reducible apply kept_else
    | with_reducible intro _
    | (simp only [↓kept_mk]; with_reducible apply kept_parts)
    | split
    | with_reducible refine kept_of_pair (by assumption) ?_
    | dsimp only

theorem State.writeBack_kept {s : State} (h : Kept q z n o c s) (k : Nat) : Kept q z n o c (State.writeBack s k) := by
  unfold State.writeBack
  repeat' first
    | with_reducible assumption
    | with_reducible apply State.count_kept
    | with_reducible apply kept_hbmWrite
    | with_reducible apply kept_foldl
    | with_reducible apply kept_foldl_fst
    | with_reducible apply kept_else
    | with_reducible intro _
    | (simp only [↓kept_mk]; with_reducible apply kept_parts)
    | split
    | with_reducible refine kept_of_pair (by assumption) ?_
    | dsimp only

theorem State.consumeBad_kept {s : State} (h : Kept q z n o c s) (a : Nat) (n_ : Nat) : Kept q z n o c (State.consumeBad s a n_) := by
  unfold State.consumeBad
  repeat' first
    | with_reducible assumption
    | with_reducible apply State.forEach_kept
    | with_reducible apply State.ueFound_kept
    | with_reducible apply kept_foldl
    | with_reducible apply kept_foldl_fst
    | with_reducible apply kept_else
    | with_reducible intro _
    | (simp only [↓kept_mk]; with_reducible apply kept_parts)
    | split
    | with_reducible refine kept_of_pair (by assumption) ?_
    | dsimp only

theorem State.modCtx_kept {s : State} (h : Kept q z n o c s) (c_ : Nat) (f : CapCtxSt → CapCtxSt) : Kept q z n o c (State.modCtx s c_ f) := by
  unfold State.modCtx
  repeat' first
    | with_reducible assumption
    | with_reducible apply kept_foldl
    | with_reducible apply kept_foldl_fst
    | with_reducible apply kept_else
    | with_reducible intro _
    | (simp only [↓kept_mk]; with_reducible apply kept_parts)
    | split
    | with_reducible refine kept_of_pair (by assumption) ?_
    | dsimp only

theorem State.modCam_kept {s : State} (h : Kept q z n o c s) (n_ : Nat) (f : CamSt → CamSt) : Kept q z n o c (State.modCam s n_ f) := by
  unfold State.modCam
  repeat' first
    | with_reducible assumption
    | with_reducible apply kept_foldl
    | with_reducible apply kept_foldl_fst
    | with_reducible apply kept_else
    | with_reducible intro _
    | (simp only [↓kept_mk]; with_reducible apply kept_parts)
    | split
    | with_reducible refine kept_of_pair (by assumption) ?_
    | dsimp only

theorem State.stripeOut_kept {s : State} (h : Kept q z n o c s) (r : StripeRec) : Kept q z n o c (State.stripeOut s r) := by
  unfold State.stripeOut
  repeat' first
    | with_reducible assumption
    | with_reducible apply State.count_kept
    | with_reducible apply State.pmc_kept
    | with_reducible apply State.raise_kept
    | with_reducible apply State.trkNotice_kept
    | with_reducible apply State.modCtx_kept
    | with_reducible apply kept_foldl
    | with_reducible apply kept_foldl_fst
    | with_reducible apply kept_else
    | with_reducible intro _
    | (simp only [↓kept_mk]; with_reducible apply kept_parts)
    | split
    | with_reducible refine kept_of_pair (by assumption) ?_
    | dsimp only

theorem State.stripeLost_kept {s : State} (h : Kept q z n o c s) (r : StripeRec) : Kept q z n o c (State.stripeLost s r) := by
  unfold State.stripeLost
  repeat' first
    | with_reducible assumption
    | with_reducible apply State.count_kept
    | with_reducible apply State.trkNotice_kept
    | with_reducible apply kept_foldl
    | with_reducible apply kept_foldl_fst
    | with_reducible apply kept_else
    | with_reducible intro _
    | (simp only [↓kept_mk]; with_reducible apply kept_parts)
    | split
    | with_reducible refine kept_of_pair (by assumption) ?_
    | dsimp only

theorem State.stripeSpilled_kept {s : State} (h : Kept q z n o c s) (c_ : Nat) (no : Nat) (a : Int) (e : Int) : Kept q z n o c (State.stripeSpilled s c_ no a e) := by
  unfold State.stripeSpilled
  repeat' first
    | with_reducible assumption
    | with_reducible apply State.modCtx_kept
    | with_reducible apply State.devWrite_kept
    | with_reducible apply State.trkNotice_kept
    | with_reducible apply kept_foldl
    | with_reducible apply kept_foldl_fst
    | with_reducible apply kept_else
    | with_reducible intro _
    | (simp only [↓kept_mk]; with_reducible apply kept_parts)
    | split
    | with_reducible refine kept_of_pair (by assumption) ?_
    | dsimp only

theorem State.ringCaught_kept {s : State} (h : Kept q z n o c s) (c_ : Nat) (no : Nat) : Kept q z n o c (State.ringCaught s c_ no) := by
  unfold State.ringCaught
  repeat' first
    | with_reducible assumption
    | with_reducible apply State.modCtx_kept
    | with_reducible apply kept_foldl
    | with_reducible apply kept_foldl_fst
    | with_reducible apply kept_else
    | with_reducible intro _
    | (simp only [↓kept_mk]; with_reducible apply kept_parts)
    | split
    | with_reducible refine kept_of_pair (by assumption) ?_
    | dsimp only

theorem State.ringWrite_kept {s : State} (h : Kept q z n o c s) (r : StripeRec) : Kept q z n o c (State.ringWrite s r) := by
  unfold State.ringWrite
  repeat' first
    | with_reducible assumption
    | with_reducible apply State.forEach_kept
    | with_reducible apply State.devWriteFor_kept
    | with_reducible apply State.modCtx_kept
    | with_reducible apply kept_foldl
    | with_reducible apply kept_foldl_fst
    | with_reducible apply kept_else
    | with_reducible intro _
    | (simp only [↓kept_mk]; with_reducible apply kept_parts)
    | split
    | with_reducible refine kept_of_pair (by assumption) ?_
    | dsimp only

theorem State.stripeClose_kept {s : State} (h : Kept q z n o c s) (c_ : Nat) (o_ : OpenStripe) : Kept q z n o c (State.stripeClose s c_ o_) := by
  unfold State.stripeClose
  repeat' first
    | with_reducible assumption
    | with_reducible apply State.modCtx_kept
    | with_reducible apply State.countWrap_kept
    | with_reducible apply State.stripeOut_kept
    | with_reducible apply kept_foldl
    | with_reducible apply kept_foldl_fst
    | with_reducible apply kept_else
    | with_reducible intro _
    | (simp only [↓kept_mk]; with_reducible apply kept_parts)
    | split
    | with_reducible refine kept_of_pair (by assumption) ?_
    | dsimp only

theorem State.partCheck_kept {s : State} (h : Kept q z n o c s) (c_ : Nat) (m : Nat) (win : Int) : Kept q z n o c (State.partCheck s c_ m win) := by
  unfold State.partCheck
  repeat' first
    | with_reducible assumption
    | with_reducible apply State.modCtx_kept
    | with_reducible apply State.raise_kept
    | with_reducible apply State.stripeClose_kept
    | with_reducible apply kept_foldl
    | with_reducible apply kept_foldl_fst
    | with_reducible apply kept_else
    | with_reducible intro _
    | (simp only [↓kept_mk]; with_reducible apply kept_parts)
    | split
    | with_reducible refine kept_of_pair (by assumption) ?_
    | dsimp only

theorem State.slotTriggered_kept {s : State} (h : Kept q z n o c s) (p : Place) (tag : Tag) : Kept q z n o c (State.slotTriggered s p tag) := by
  unfold State.slotTriggered
  repeat' first
    | with_reducible assumption
    | with_reducible apply State.modCtx_kept
    | with_reducible apply kept_foldl
    | with_reducible apply kept_foldl_fst
    | with_reducible apply kept_else
    | with_reducible intro _
    | (simp only [↓kept_mk]; with_reducible apply kept_parts)
    | split
    | with_reducible refine kept_of_pair (by assumption) ?_
    | dsimp only

theorem State.slotEmpty_kept {s : State} (h : Kept q z n o c s) (p : Place) : Kept q z n o c (State.slotEmpty s p) := by
  unfold State.slotEmpty
  repeat' first
    | with_reducible assumption
    | with_reducible apply State.modCtx_kept
    | with_reducible apply State.partCheck_kept
    | with_reducible apply kept_foldl
    | with_reducible apply kept_foldl_fst
    | with_reducible apply kept_else
    | with_reducible intro _
    | (simp only [↓kept_mk]; with_reducible apply kept_parts)
    | split
    | with_reducible refine kept_of_pair (by assumption) ?_
    | dsimp only

theorem State.groupTimeout_kept {s : State} (h : Kept q z n o c s) (c_ : Nat) (o_ : OpenStripe) : Kept q z n o c (State.groupTimeout s c_ o_) := by
  unfold State.groupTimeout
  repeat' first
    | with_reducible assumption
    | with_reducible apply State.forEach_kept
    | with_reducible apply State.modCtx_kept
    | with_reducible apply State.count_kept
    | with_reducible apply State.pmc_kept
    | with_reducible apply State.raise_kept
    | with_reducible apply State.stripeClose_kept
    | with_reducible apply kept_foldl
    | with_reducible apply kept_foldl_fst
    | with_reducible apply kept_else
    | with_reducible intro _
    | (simp only [↓kept_mk]; with_reducible apply kept_parts)
    | split
    | with_reducible refine kept_of_pair (by assumption) ?_
    | dsimp only

theorem State.capTrigger_kept {s : State} (h : Kept q z n o c s) (n_ : Nat) (k : Int) : Kept q z n o c (State.capTrigger s n_ k) := by
  unfold State.capTrigger
  repeat' first
    | with_reducible assumption
    | with_reducible apply State.sendTrigger_kept
    | with_reducible apply State.countWrap_kept
    | with_reducible apply State.forEach_kept
    | with_reducible apply State.slotTriggered_kept
    | with_reducible apply State.modCam_kept
    | with_reducible apply State.slotEmpty_kept
    | with_reducible apply kept_foldl
    | with_reducible apply kept_foldl_fst
    | with_reducible apply kept_else
    | with_reducible intro _
    | (simp only [↓kept_mk]; with_reducible apply kept_parts)
    | split
    | with_reducible refine kept_of_pair (by assumption) ?_
    | dsimp only

theorem State.capSkip_kept {s : State} (h : Kept q z n o c s) (n_ : Nat) (k : Int) (cnt : Int) : Kept q z n o c (State.capSkip s n_ k cnt) := by
  unfold State.capSkip
  repeat' first
    | with_reducible assumption
    | with_reducible apply State.countWrap_kept
    | with_reducible apply State.raise_kept
    | with_reducible apply State.forEach_kept
    | with_reducible apply State.slotEmpty_kept
    | with_reducible apply kept_foldl
    | with_reducible apply kept_foldl_fst
    | with_reducible apply kept_else
    | with_reducible intro _
    | (simp only [↓kept_mk]; with_reducible apply kept_parts)
    | split
    | with_reducible refine kept_of_pair (by assumption) ?_
    | dsimp only

theorem State.capPosition_kept {s : State} (h : Kept q z n o c s)  : Kept q z n o c (State.capPosition s) := by
  unfold State.capPosition
  repeat' first
    | with_reducible assumption
    | with_reducible apply State.forEach_kept
    | with_reducible apply State.capSkip_kept
    | with_reducible apply State.modCam_kept
    | with_reducible apply State.capTrigger_kept
    | with_reducible apply kept_foldl
    | with_reducible apply kept_foldl_fst
    | with_reducible apply kept_else
    | with_reducible intro _
    | (simp only [↓kept_mk]; with_reducible apply kept_parts)
    | split
    | with_reducible refine kept_of_pair (by assumption) ?_
    | dsimp only

theorem State.capTimeTrigger_kept {s : State} (h : Kept q z n o c s) (unit : Nat) : Kept q z n o c (State.capTimeTrigger s unit) := by
  unfold State.capTimeTrigger
  repeat' first
    | with_reducible assumption
    | with_reducible apply State.forEach_kept
    | with_reducible apply State.modCtx_kept
    | with_reducible apply State.modCam_kept
    | with_reducible apply State.capTrigger_kept
    | with_reducible apply kept_foldl
    | with_reducible apply kept_foldl_fst
    | with_reducible apply kept_else
    | with_reducible intro _
    | (simp only [↓kept_mk]; with_reducible apply kept_parts)
    | split
    | with_reducible refine kept_of_pair (by assumption) ?_
    | dsimp only

theorem State.settleCtx_kept {s : State} (h : Kept q z n o c s) (c_ : Nat) (m : Nat) : Kept q z n o c (State.settleCtx s c_ m) := by
  unfold State.settleCtx
  repeat' first
    | with_reducible assumption
    | with_reducible apply State.modCtx_kept
    | with_reducible apply kept_foldl
    | with_reducible apply kept_foldl_fst
    | with_reducible apply kept_else
    | with_reducible intro _
    | (simp only [↓kept_mk]; with_reducible apply kept_parts)
    | split
    | with_reducible refine kept_of_pair (by assumption) ?_
    | dsimp only

theorem State.settleArm_kept {s : State} (h : Kept q z n o c s) (n_ : Nat) : Kept q z n o c (State.settleArm s n_) := by
  unfold State.settleArm
  repeat' first
    | with_reducible assumption
    | with_reducible apply State.forEach_kept
    | with_reducible apply State.settleCtx_kept
    | with_reducible apply State.raise_kept
    | with_reducible apply kept_foldl
    | with_reducible apply kept_foldl_fst
    | with_reducible apply kept_else
    | with_reducible intro _
    | (simp only [↓kept_mk]; with_reducible apply kept_parts)
    | split
    | with_reducible refine kept_of_pair (by assumption) ?_
    | dsimp only

theorem State.settleFirst_kept {s : State} (h : Kept q z n o c s) (p : Place) : Kept q z n o c (State.settleFirst s p) := by
  unfold State.settleFirst
  repeat' first
    | with_reducible assumption
    | with_reducible apply State.modCtx_kept
    | with_reducible apply kept_foldl
    | with_reducible apply kept_foldl_fst
    | with_reducible apply kept_else
    | with_reducible intro _
    | (simp only [↓kept_mk]; with_reducible apply kept_parts)
    | split
    | with_reducible refine kept_of_pair (by assumption) ?_
    | dsimp only

theorem State.expireDue_kept {s : State} (h : Kept q z n o c s) (n_ : Nat) : Kept q z n o c (State.expireDue s n_) := by
  unfold State.expireDue
  repeat' first
    | with_reducible assumption
    | with_reducible apply State.modCam_kept
    | with_reducible apply State.forEach_kept
    | with_reducible apply State.slotEmpty_kept
    | with_reducible apply kept_foldl
    | with_reducible apply kept_foldl_fst
    | with_reducible apply kept_else
    | with_reducible intro _
    | (simp only [↓kept_mk]; with_reducible apply kept_parts)
    | split
    | with_reducible refine kept_of_pair (by assumption) ?_
    | dsimp only

theorem State.lineTakes_kept {s : State} (h : Kept q z n o c s) (ps : List Place) : Kept q z n o c (State.lineTakes s ps) := by
  unfold State.lineTakes
  repeat' first
    | with_reducible assumption
    | with_reducible apply State.forEach_kept
    | with_reducible apply State.modCtx_kept
    | with_reducible apply State.settleFirst_kept
    | with_reducible apply kept_foldl
    | with_reducible apply kept_foldl_fst
    | with_reducible apply kept_else
    | with_reducible intro _
    | (simp only [↓kept_mk]; with_reducible apply kept_parts)
    | split
    | with_reducible refine kept_of_pair (by assumption) ?_
    | dsimp only

theorem State.freeLine_kept {s : State} (h : Kept q z n o c s) (c_ : Nat) (m : Nat) (frameStart : Bool) (tag : Tag) : Kept q z n o c (State.freeLine s c_ m frameStart tag).1 := by
  unfold State.freeLine
  repeat' first
    | with_reducible assumption
    | with_reducible apply State.slotEmpty_kept
    | with_reducible apply State.modCtx_kept
    | with_reducible apply State.slotTriggered_kept
    | with_reducible apply kept_foldl
    | with_reducible apply kept_foldl_fst
    | with_reducible apply kept_else
    | with_reducible intro _
    | (simp only [↓kept_mk]; with_reducible apply kept_parts)
    | split
    | with_reducible refine kept_of_pair (by assumption) ?_
    | dsimp only

theorem State.lineBegins_kept {s : State} (h : Kept q z n o c s) (n_ : Nat) (frameStart : Bool) : Kept q z n o c (State.lineBegins s n_ frameStart) := by
  unfold State.lineBegins
  repeat' first
    | with_reducible assumption
    | with_reducible apply State.modCam_kept
    | with_reducible apply State.freeLine_kept
    | with_reducible apply State.lineTakes_kept
    | with_reducible apply State.expireDue_kept
    | with_reducible apply kept_foldl
    | with_reducible apply kept_foldl_fst
    | with_reducible apply kept_else
    | with_reducible intro _
    | (simp only [↓kept_mk]; with_reducible apply kept_parts)
    | split
    | with_reducible refine kept_of_pair (by assumption) ?_
    | dsimp only

theorem State.lineDiscard_kept {s : State} (h : Kept q z n o c s) (n_ : Nat) : Kept q z n o c (State.lineDiscard s n_) := by
  unfold State.lineDiscard
  repeat' first
    | with_reducible assumption
    | with_reducible apply State.modCam_kept
    | with_reducible apply State.forEach_kept
    | with_reducible apply State.modCtx_kept
    | with_reducible apply State.slotEmpty_kept
    | with_reducible apply kept_foldl
    | with_reducible apply kept_foldl_fst
    | with_reducible apply kept_else
    | with_reducible intro _
    | (simp only [↓kept_mk]; with_reducible apply kept_parts)
    | split
    | with_reducible refine kept_of_pair (by assumption) ?_
    | dsimp only

theorem State.lineArrives_kept {s : State} (h : Kept q z n o c s) (n_ : Nat) (frameStart : Bool) (startOk : Bool) : Kept q z n o c (State.lineArrives s n_ frameStart startOk) := by
  unfold State.lineArrives
  repeat' first
    | with_reducible assumption
    | with_reducible apply State.timCapture_kept
    | with_reducible apply State.lineBegins_kept
    | with_reducible apply State.lineDiscard_kept
    | with_reducible apply kept_foldl
    | with_reducible apply kept_foldl_fst
    | with_reducible apply kept_else
    | with_reducible intro _
    | (simp only [↓kept_mk]; with_reducible apply kept_parts)
    | split
    | with_reducible refine kept_of_pair (by assumption) ?_
    | dsimp only

theorem State.lineExtra_kept {s : State} (h : Kept q z n o c s) (c_ : Nat) (m : Nat) : Kept q z n o c (State.lineExtra s c_ m) := by
  unfold State.lineExtra
  repeat' first
    | with_reducible assumption
    | with_reducible apply State.count_kept
    | with_reducible apply State.raise_kept
    | with_reducible apply State.modCtx_kept
    | with_reducible apply kept_foldl
    | with_reducible apply kept_foldl_fst
    | with_reducible apply kept_else
    | with_reducible intro _
    | (simp only [↓kept_mk]; with_reducible apply kept_parts)
    | split
    | with_reducible refine kept_of_pair (by assumption) ?_
    | dsimp only

theorem State.lineFill_kept {s : State} (h : Kept q z n o c s) (n_ : Nat) (p : Place) (tag : Tag) (l : List Nat) : Kept q z n o c (State.lineFill s n_ p tag l) := by
  unfold State.lineFill
  repeat' first
    | with_reducible assumption
    | with_reducible apply State.count_kept
    | with_reducible apply State.modCtx_kept
    | with_reducible apply State.partCheck_kept
    | with_reducible apply kept_foldl
    | with_reducible apply kept_foldl_fst
    | with_reducible apply kept_else
    | with_reducible intro _
    | (simp only [↓kept_mk]; with_reducible apply kept_parts)
    | split
    | with_reducible refine kept_of_pair (by assumption) ?_
    | dsimp only

theorem State.lineDone_kept {s : State} (h : Kept q z n o c s) (n_ : Nat) (samples : List Nat) : Kept q z n o c (State.lineDone s n_ samples) := by
  unfold State.lineDone
  repeat' first
    | with_reducible assumption
    | with_reducible apply State.count_kept
    | with_reducible apply State.lineDiscard_kept
    | with_reducible apply State.modCam_kept
    | with_reducible apply State.forEach_kept
    | with_reducible apply State.lineExtra_kept
    | with_reducible apply State.lineFill_kept
    | with_reducible apply kept_foldl
    | with_reducible apply kept_foldl_fst
    | with_reducible apply kept_else
    | with_reducible intro _
    | (simp only [↓kept_mk]; with_reducible apply kept_parts)
    | split
    | with_reducible refine kept_of_pair (by assumption) ?_
    | dsimp only

theorem State.capEnable_kept {s : State} (h : Kept q z n o c s) (c_ : Nat) : Kept q z n o c (State.capEnable s c_) := by
  unfold State.capEnable
  repeat' first
    | with_reducible assumption
    | with_reducible apply State.set_kept
    | with_reducible apply State.modCtx_kept
    | with_reducible apply State.forEach_kept
    | with_reducible apply State.modCam_kept
    | with_reducible apply State.settleArm_kept
    | with_reducible apply kept_foldl
    | with_reducible apply kept_foldl_fst
    | with_reducible apply kept_else
    | with_reducible intro _
    | (simp only [↓kept_mk]; with_reducible apply kept_parts)
    | split
    | with_reducible refine kept_of_pair (by assumption) ?_
    | dsimp only

theorem State.capStop_kept {s : State} (h : Kept q z n o c s) (c_ : Nat) : Kept q z n o c (State.capStop s c_) := by
  unfold State.capStop
  repeat' first
    | with_reducible assumption
    | with_reducible apply State.forEach_kept
    | with_reducible apply State.modCtx_kept
    | with_reducible apply State.raise_kept
    | with_reducible apply State.stripeClose_kept
    | with_reducible apply State.modCam_kept
    | with_reducible apply kept_foldl
    | with_reducible apply kept_foldl_fst
    | with_reducible apply kept_else
    | with_reducible intro _
    | (simp only [↓kept_mk]; with_reducible apply kept_parts)
    | split
    | with_reducible refine kept_of_pair (by assumption) ?_
    | dsimp only

theorem State.peerStripe_kept {s : State} (h : Kept q z n o c s) (g : Nat) (m : PeerMsg) : Kept q z n o c (State.peerStripe s g m) := by
  unfold State.peerStripe
  repeat' first
    | with_reducible assumption
    | with_reducible apply State.forEach_kept
    | with_reducible apply State.countWrap_kept
    | with_reducible apply State.stripeOut_kept
    | with_reducible apply kept_foldl
    | with_reducible apply kept_foldl_fst
    | with_reducible apply kept_else
    | with_reducible intro _
    | (simp only [↓kept_mk]; with_reducible apply kept_parts)
    | split
    | with_reducible refine kept_of_pair (by assumption) ?_
    | dsimp only

theorem State.replayPush_kept {s : State} (h : Kept q z n o c s) (fn : Nat) (c_ : Nat) : Kept q z n o c (State.replayPush s fn c_) := by
  unfold State.replayPush
  repeat' first
    | with_reducible assumption
    | with_reducible apply State.code_kept
    | with_reducible apply State.modCtx_kept
    | with_reducible apply kept_foldl
    | with_reducible apply kept_foldl_fst
    | with_reducible apply kept_else
    | with_reducible intro _
    | (simp only [↓kept_mk]; with_reducible apply kept_parts)
    | split
    | with_reducible refine kept_of_pair (by assumption) ?_
    | dsimp only

theorem State.replayRead_kept {s : State} (h : Kept q z n o c s) (c_ : Nat) : Kept q z n o c (State.replayRead s c_) := by
  unfold State.replayRead
  repeat' first
    | with_reducible assumption
    | with_reducible apply State.modCtx_kept
    | with_reducible apply State.consumeBad_kept
    | with_reducible apply State.raise_kept
    | with_reducible apply State.countWrap_kept
    | with_reducible apply State.count_kept
    | with_reducible apply State.countRd_kept
    | with_reducible apply kept_foldl
    | with_reducible apply kept_foldl_fst
    | with_reducible apply kept_else
    | with_reducible intro _
    | (simp only [↓kept_mk]; with_reducible apply kept_parts)
    | split
    | with_reducible refine kept_of_pair (by assumption) ?_
    | dsimp only

theorem State.lbWrite_kept {s : State} (h : Kept q z n o c s) (p : Nat) (x : Nat) (bs : List Nat) : Kept q z n o c (State.lbWrite s p x bs) := by
  unfold State.lbWrite
  repeat' first
    | with_reducible assumption
    | with_reducible apply State.forEach_kept
    | with_reducible apply State.sramWrite_kept
    | with_reducible apply kept_foldl
    | with_reducible apply kept_foldl_fst
    | with_reducible apply kept_else
    | with_reducible intro _
    | (simp only [↓kept_mk]; with_reducible apply kept_parts)
    | split
    | with_reducible refine kept_of_pair (by assumption) ?_
    | dsimp only

theorem State.modLnp_kept {s : State} (h : Kept q z n o c s) (c_ : Nat) (f : LnpCtxSt → LnpCtxSt) : Kept q z n o c (State.modLnp s c_ f) := by
  unfold State.modLnp
  repeat' first
    | with_reducible assumption
    | with_reducible apply kept_foldl
    | with_reducible apply kept_foldl_fst
    | with_reducible apply kept_else
    | with_reducible intro _
    | (simp only [↓kept_mk]; with_reducible apply kept_parts)
    | split
    | with_reducible refine kept_of_pair (by assumption) ?_
    | dsimp only

theorem State.dropGens_kept {s : State} (h : Kept q z n o c s) (c_ : Nat) : Kept q z n o c (State.dropGens s c_) := by
  unfold State.dropGens
  repeat' first
    | with_reducible assumption
    | with_reducible apply State.modLnp_kept
    | with_reducible apply State.set_kept
    | with_reducible apply kept_foldl
    | with_reducible apply kept_foldl_fst
    | with_reducible apply kept_else
    | with_reducible intro _
    | (simp only [↓kept_mk]; with_reducible apply kept_parts)
    | split
    | with_reducible refine kept_of_pair (by assumption) ?_
    | dsimp only

theorem State.keepGen_kept {s : State} (h : Kept q z n o c s) (c_ : Nat) : Kept q z n o c (State.keepGen s c_) := by
  unfold State.keepGen
  repeat' first
    | with_reducible assumption
    | with_reducible apply State.modLnp_kept
    | with_reducible apply kept_foldl
    | with_reducible apply kept_foldl_fst
    | with_reducible apply kept_else
    | with_reducible intro _
    | (simp only [↓kept_mk]; with_reducible apply kept_parts)
    | split
    | with_reducible refine kept_of_pair (by assumption) ?_
    | dsimp only

theorem State.lnpEnable_kept {s : State} (h : Kept q z n o c s) (c_ : Nat) : Kept q z n o c (State.lnpEnable s c_) := by
  unfold State.lnpEnable
  repeat' first
    | with_reducible assumption
    | with_reducible apply State.set_kept
    | with_reducible apply State.modLnp_kept
    | with_reducible apply State.dropGens_kept
    | with_reducible apply kept_foldl
    | with_reducible apply kept_foldl_fst
    | with_reducible apply kept_else
    | with_reducible intro _
    | (simp only [↓kept_mk]; with_reducible apply kept_parts)
    | split
    | with_reducible refine kept_of_pair (by assumption) ?_
    | dsimp only

theorem State.assignCredits_kept {s : State} (h : Kept q z n o c s) (c_ : Nat) : Kept q z n o c (State.assignCredits s c_) := by
  unfold State.assignCredits
  repeat' first
    | with_reducible assumption
    | with_reducible apply State.modLnp_kept
    | with_reducible apply State.set_kept
    | with_reducible apply kept_foldl
    | with_reducible apply kept_foldl_fst
    | with_reducible apply kept_else
    | with_reducible intro _
    | (simp only [↓kept_mk]; with_reducible apply kept_parts)
    | split
    | with_reducible refine kept_of_pair (by assumption) ?_
    | dsimp only

theorem State.spill_kept {s : State} (h : Kept q z n o c s) (c_ : Nat) (no : Nat) : Kept q z n o c (State.spill s c_ no) := by
  unfold State.spill
  repeat' first
    | with_reducible assumption
    | with_reducible apply State.modLnp_kept
    | with_reducible apply State.set_kept
    | with_reducible apply State.raise_kept
    | with_reducible apply State.count_kept
    | with_reducible apply State.pmc_kept
    | with_reducible apply State.stripeSpilled_kept
    | with_reducible apply kept_foldl
    | with_reducible apply kept_foldl_fst
    | with_reducible apply kept_else
    | with_reducible intro _
    | (simp only [↓kept_mk]; with_reducible apply kept_parts)
    | split
    | with_reducible refine kept_of_pair (by assumption) ?_
    | dsimp only

theorem State.spillDue_kept {s : State} (h : Kept q z n o c s) (c_ : Nat) : Kept q z n o c (State.spillDue s c_) := by
  unfold State.spillDue
  repeat' first
    | with_reducible assumption
    | with_reducible apply State.forEach_kept
    | with_reducible apply State.spill_kept
    | with_reducible apply kept_foldl
    | with_reducible apply kept_foldl_fst
    | with_reducible apply kept_else
    | with_reducible intro _
    | (simp only [↓kept_mk]; with_reducible apply kept_parts)
    | split
    | with_reducible refine kept_of_pair (by assumption) ?_
    | dsimp only

theorem State.spillAll_kept {s : State} (h : Kept q z n o c s) (c_ : Nat) : Kept q z n o c (State.spillAll s c_) := by
  unfold State.spillAll
  repeat' first
    | with_reducible assumption
    | with_reducible apply State.forEach_kept
    | with_reducible apply State.spill_kept
    | with_reducible apply kept_foldl
    | with_reducible apply kept_foldl_fst
    | with_reducible apply kept_else
    | with_reducible intro _
    | (simp only [↓kept_mk]; with_reducible apply kept_parts)
    | split
    | with_reducible refine kept_of_pair (by assumption) ?_
    | dsimp only

theorem State.spillEarly_kept {s : State} (h : Kept q z n o c s) (c_ : Nat) : Kept q z n o c (State.spillEarly s c_) := by
  unfold State.spillEarly
  repeat' first
    | with_reducible assumption
    | with_reducible apply State.spillDue_kept
    | with_reducible apply kept_foldl
    | with_reducible apply kept_foldl_fst
    | with_reducible apply kept_else
    | with_reducible intro _
    | (simp only [↓kept_mk]; with_reducible apply kept_parts)
    | split
    | with_reducible refine kept_of_pair (by assumption) ?_
    | dsimp only

theorem State.notice_kept {s : State} (h : Kept q z n o c s) (c_ : Nat) : Kept q z n o c (State.notice s c_) := by
  unfold State.notice
  repeat' first
    | with_reducible assumption
    | with_reducible apply State.modLnp_kept
    | with_reducible apply State.raise_kept
    | with_reducible apply State.count_kept
    | with_reducible apply State.spill_kept
    | with_reducible apply State.spillEarly_kept
    | with_reducible apply State.assignCredits_kept
    | with_reducible apply State.spillAll_kept
    | with_reducible apply State.spillDue_kept
    | with_reducible apply kept_foldl
    | with_reducible apply kept_foldl_fst
    | with_reducible apply kept_else
    | with_reducible intro _
    | (simp only [↓kept_mk]; with_reducible apply kept_parts)
    | split
    | with_reducible refine kept_of_pair (by assumption) ?_
    | dsimp only

theorem State.creditArrives_kept {s : State} (h : Kept q z n o c s) (c_ : Nat) : Kept q z n o c (State.creditArrives s c_) := by
  unfold State.creditArrives
  repeat' first
    | with_reducible assumption
    | with_reducible apply State.modLnp_kept
    | with_reducible apply State.set_kept
    | with_reducible apply State.spillDue_kept
    | with_reducible apply State.assignCredits_kept
    | with_reducible apply kept_foldl
    | with_reducible apply kept_foldl_fst
    | with_reducible apply kept_else
    | with_reducible intro _
    | (simp only [↓kept_mk]; with_reducible apply kept_parts)
    | split
    | with_reducible refine kept_of_pair (by assumption) ?_
    | dsimp only

theorem State.episodeCheck_kept {s : State} (h : Kept q z n o c s) (c_ : Nat) : Kept q z n o c (State.episodeCheck s c_) := by
  unfold State.episodeCheck
  repeat' first
    | with_reducible assumption
    | with_reducible apply State.modLnp_kept
    | with_reducible apply State.set_kept
    | with_reducible apply State.raise_kept
    | with_reducible apply kept_foldl
    | with_reducible apply kept_foldl_fst
    | with_reducible apply kept_else
    | with_reducible intro _
    | (simp only [↓kept_mk]; with_reducible apply kept_parts)
    | split
    | with_reducible refine kept_of_pair (by assumption) ?_
    | dsimp only

theorem State.loseStripe_kept {s : State} (h : Kept q z n o c s) (c_ : Nat) (x : LnpStripe) (detail : Nat) : Kept q z n o c (State.loseStripe s c_ x detail) := by
  unfold State.loseStripe
  repeat' first
    | with_reducible assumption
    | with_reducible apply State.modLnp_kept
    | with_reducible apply State.set_kept
    | with_reducible apply State.raise_kept
    | with_reducible apply State.count_kept
    | with_reducible apply State.stripeLost_kept
    | with_reducible apply State.ringCaught_kept
    | with_reducible apply State.dropGens_kept
    | with_reducible apply State.episodeCheck_kept
    | with_reducible apply State.assignCredits_kept
    | with_reducible apply kept_foldl
    | with_reducible apply kept_foldl_fst
    | with_reducible apply kept_else
    | with_reducible intro _
    | (simp only [↓kept_mk]; with_reducible apply kept_parts)
    | split
    | with_reducible refine kept_of_pair (by assumption) ?_
    | dsimp only

theorem State.lnpBegin_kept {s : State} (h : Kept q z n o c s)  : Kept q z n o c (State.lnpBegin s) := by
  unfold State.lnpBegin
  repeat' first
    | with_reducible assumption
    | with_reducible apply State.modLnp_kept
    | with_reducible apply State.loseStripe_kept
    | with_reducible apply State.set_kept
    | with_reducible apply State.consumeBad_kept
    | with_reducible apply State.count_kept
    | with_reducible apply State.pmc_kept
    | with_reducible apply State.raise_kept
    | with_reducible apply kept_foldl
    | with_reducible apply kept_foldl_fst
    | with_reducible apply kept_else
    | with_reducible intro _
    | (simp only [↓kept_mk]; with_reducible apply kept_parts)
    | split
    | with_reducible refine kept_of_pair (by assumption) ?_
    | dsimp only

theorem State.tableArrives_kept {s : State} (h : Kept q z n o c s) (c_ : Nat) : Kept q z n o c (State.tableArrives s c_) := by
  unfold State.tableArrives
  repeat' first
    | with_reducible assumption
    | with_reducible apply State.modLnp_kept
    | with_reducible apply kept_foldl
    | with_reducible apply kept_foldl_fst
    | with_reducible apply kept_else
    | with_reducible intro _
    | (simp only [↓kept_mk]; with_reducible apply kept_parts)
    | split
    | with_reducible refine kept_of_pair (by assumption) ?_
    | dsimp only

theorem State.readyCheck_kept {s : State} (h : Kept q z n o c s) (c_ : Nat) : Kept q z n o c (State.readyCheck s c_) := by
  unfold State.readyCheck
  repeat' first
    | with_reducible assumption
    | with_reducible apply State.modLnp_kept
    | with_reducible apply State.forEach_kept
    | with_reducible apply kept_foldl
    | with_reducible apply kept_foldl_fst
    | with_reducible apply kept_else
    | with_reducible intro _
    | (simp only [↓kept_mk]; with_reducible apply kept_parts)
    | split
    | with_reducible refine kept_of_pair (by assumption) ?_
    | dsimp only

theorem State.ringReady_kept {s : State} (h : Kept q z n o c s) (c_ : Nat) (no : Nat) : Kept q z n o c (State.ringReady s c_ no) := by
  unfold State.ringReady
  repeat' first
    | with_reducible assumption
    | with_reducible apply State.modLnp_kept
    | with_reducible apply State.readyCheck_kept
    | with_reducible apply kept_foldl
    | with_reducible apply kept_foldl_fst
    | with_reducible apply kept_else
    | with_reducible intro _
    | (simp only [↓kept_mk]; with_reducible apply kept_parts)
    | split
    | with_reducible refine kept_of_pair (by assumption) ?_
    | dsimp only

theorem State.lnpDone_kept {s : State} (h : Kept q z n o c s)  : Kept q z n o c (State.lnpDone s) := by
  unfold State.lnpDone
  repeat' first
    | with_reducible assumption
    | with_reducible apply State.forEach_kept
    | with_reducible apply State.lbWrite_kept
    | with_reducible apply State.set_kept
    | with_reducible apply State.devWriteFor_kept
    | with_reducible apply State.count_kept
    | with_reducible apply State.raise_kept
    | with_reducible apply State.ringCaught_kept
    | with_reducible apply State.modLnp_kept
    | with_reducible apply State.dropGens_kept
    | with_reducible apply State.episodeCheck_kept
    | with_reducible apply State.readyCheck_kept
    | with_reducible apply kept_foldl
    | with_reducible apply kept_foldl_fst
    | with_reducible apply kept_else
    | with_reducible intro _
    | (simp only [↓kept_mk]; with_reducible apply kept_parts)
    | split
    | with_reducible refine kept_of_pair (by assumption) ?_
    | dsimp only

end Sys2Proof.Machine
end

