-- ==== Sys2Proof/Laws/Kept3.lean ====
section
/-!
SUPPORT. Laws/Kept3.lean: the operations of the machine keep the queue, the fuses, the clock, the outputs and the stores.
-/
namespace Sys2Proof.Machine

set_option linter.unusedSimpArgs false

variable {q : List Instr} {z : Fuses} {n : Nat} {o : List Output} {c : Prop}

theorem State.jobWrite_kept {s : State} (h : Kept q z n o c s) (e : Env) (a : Nat) (bs : List Nat) : Kept q z n o c (State.jobWrite s e a bs) := by
  unfold State.jobWrite
  repeat' first
    | with_reducible assumption
    | with_reducible apply State.devWrite_kept
    | with_reducible apply kept_foldl
    | with_reducible apply kept_foldl_fst
    | with_reducible apply kept_else
    | with_reducible intro _
    | (simp only [↓kept_mk]; with_reducible apply kept_parts)
    | split
    | with_reducible refine kept_of_pair (by assumption) ?_
    | dsimp only

theorem State.jobLine_kept {s : State} (h : Kept q z n o c s) (p : Nat) (write : Bool) (l : Nat × Nat) : Kept q z n o c (State.jobLine s p write l) := by
  unfold State.jobLine
  repeat' first
    | with_reducible assumption
    | with_reducible apply State.countWr_kept
    | with_reducible apply State.countRd_kept
    | with_reducible apply State.bwRequest_kept
    | with_reducible apply kept_foldl
    | with_reducible apply kept_foldl_fst
    | with_reducible apply kept_else
    | with_reducible intro _
    | (simp only [↓kept_mk]; with_reducible apply kept_parts)
    | split
    | with_reducible refine kept_of_pair (by assumption) ?_
    | dsimp only

theorem State.writeLine_kept {s : State} (h : Kept q z n o c s) (e : Env) (l : Nat × Nat) : Kept q z n o c (State.writeLine s e l) := by
  unfold State.writeLine
  repeat' first
    | with_reducible assumption
    | with_reducible apply State.jobLine_kept
    | with_reducible apply State.pmcClu_kept
    | with_reducible apply kept_foldl
    | with_reducible apply kept_foldl_fst
    | with_reducible apply kept_else
    | with_reducible intro _
    | (simp only [↓kept_mk]; with_reducible apply kept_parts)
    | split
    | with_reducible refine kept_of_pair (by assumption) ?_
    | dsimp only

theorem State.jobLines_kept {s : State} (h : Kept q z n o c s) (e : Env) (a : Nat) (n_ : Nat) : Kept q z n o c (State.jobLines s e a n_) := by
  unfold State.jobLines
  repeat' first
    | with_reducible assumption
    | with_reducible apply State.forEach_kept
    | with_reducible apply State.writeLine_kept
    | with_reducible apply kept_foldl
    | with_reducible apply kept_foldl_fst
    | with_reducible apply kept_else
    | with_reducible intro _
    | (simp only [↓kept_mk]; with_reducible apply kept_parts)
    | split
    | with_reducible refine kept_of_pair (by assumption) ?_
    | dsimp only

theorem State.tensorBytes_kept {s : State} (h : Kept q z n o c s) (e : Env) (t : Tensor) (pos : Nat) (off : Nat) (bs : List Nat) : Kept q z n o c (State.tensorBytes s e t pos off bs) := by
  unfold State.tensorBytes
  repeat' first
    | with_reducible assumption
    | with_reducible apply State.forEach_kept
    | with_reducible apply State.sramWrite_kept
    | with_reducible apply State.jobWrite_kept
    | with_reducible apply kept_foldl
    | with_reducible apply kept_foldl_fst
    | with_reducible apply kept_else
    | with_reducible intro _
    | (simp only [↓kept_mk]; with_reducible apply kept_parts)
    | split
    | with_reducible refine kept_of_pair (by assumption) ?_
    | dsimp only

theorem State.zrcPart_kept {s : State} (h : Kept q z n o c s) (e : Env) (t : Tensor) (off : Nat) (bs : List Nat) : Kept q z n o c (State.zrcPart s e t off bs) := by
  unfold State.zrcPart
  repeat' first
    | with_reducible assumption
    | with_reducible apply State.jobWrite_kept
    | with_reducible apply kept_foldl
    | with_reducible apply kept_foldl_fst
    | with_reducible apply kept_else
    | with_reducible intro _
    | (simp only [↓kept_mk]; with_reducible apply kept_parts)
    | split
    | with_reducible refine kept_of_pair (by assumption) ?_
    | dsimp only

theorem State.zrcWrite_kept {s : State} (h : Kept q z n o c s) (e : Env) (t : Tensor) (off : Nat) (bs : List Nat) : Kept q z n o c (State.zrcWrite s e t off bs) := by
  unfold State.zrcWrite
  repeat' first
    | with_reducible assumption
    | with_reducible apply State.forEach_kept
    | with_reducible apply State.zrcPart_kept
    | with_reducible apply kept_foldl
    | with_reducible apply kept_foldl_fst
    | with_reducible apply kept_else
    | with_reducible intro _
    | (simp only [↓kept_mk]; with_reducible apply kept_parts)
    | split
    | with_reducible refine kept_of_pair (by assumption) ?_
    | dsimp only

theorem State.putCode_kept {s : State} (h : Kept q z n o c s) (e : Env) (t : Tensor) (x : Cell) : Kept q z n o c (State.putCode s e t x) := by
  unfold State.putCode
  repeat' first
    | with_reducible assumption
    | with_reducible apply State.zrcWrite_kept
    | with_reducible apply State.tensorBytes_kept
    | with_reducible apply kept_foldl
    | with_reducible apply kept_foldl_fst
    | with_reducible apply kept_else
    | with_reducible intro _
    | (simp only [↓kept_mk]; with_reducible apply kept_parts)
    | split
    | with_reducible refine kept_of_pair (by assumption) ?_
    | dsimp only

theorem State.putBlocks_kept {s : State} (h : Kept q z n o c s) (e : Env) (t : Tensor) (l : List Cell) : Kept q z n o c (State.putBlocks s e t l) := by
  unfold State.putBlocks
  repeat' first
    | with_reducible assumption
    | with_reducible apply State.forEach_kept
    | with_reducible apply State.jobWrite_kept
    | with_reducible apply kept_foldl
    | with_reducible apply kept_foldl_fst
    | with_reducible apply kept_else
    | with_reducible intro _
    | (simp only [↓kept_mk]; with_reducible apply kept_parts)
    | split
    | with_reducible refine kept_of_pair (by assumption) ?_
    | dsimp only

theorem State.putTile_kept {s : State} (h : Kept q z n o c s) (e : Env) (t : Tensor) (l : List Cell) : Kept q z n o c (State.putTile s e t l) := by
  unfold State.putTile
  repeat' first
    | with_reducible assumption
    | with_reducible apply State.putBlocks_kept
    | with_reducible apply State.forEach_kept
    | with_reducible apply State.putCode_kept
    | with_reducible apply State.writeLine_kept
    | with_reducible apply kept_foldl
    | with_reducible apply kept_foldl_fst
    | with_reducible apply kept_else
    | with_reducible intro _
    | (simp only [↓kept_mk]; with_reducible apply kept_parts)
    | split
    | with_reducible refine kept_of_pair (by assumption) ?_
    | dsimp only

theorem State.sendVid_kept {s : State} (h : Kept q z n o c s) (code : Nat) : Kept q z n o c (State.sendVid s code) := by
  unfold State.sendVid
  repeat' first
    | with_reducible assumption
    | with_reducible apply State.emit_kept
    | with_reducible apply State.code_kept
    | with_reducible apply kept_foldl
    | with_reducible apply kept_foldl_fst
    | with_reducible apply kept_else
    | with_reducible intro _
    | (simp only [↓kept_mk]; with_reducible apply kept_parts)
    | split
    | with_reducible refine kept_of_pair (by assumption) ?_
    | dsimp only

theorem State.toPoint_kept {s : State} (h : Kept q z n o c s) (k : Nat) : Kept q z n o c (State.toPoint s k) := by
  unfold State.toPoint
  repeat' first
    | with_reducible assumption
    | with_reducible apply State.raise_kept
    | with_reducible apply State.sendVid_kept
    | with_reducible apply kept_foldl
    | with_reducible apply kept_foldl_fst
    | with_reducible apply kept_else
    | with_reducible intro _
    | (simp only [↓kept_mk]; with_reducible apply kept_parts)
    | split
    | with_reducible refine kept_of_pair (by assumption) ?_
    | dsimp only

theorem State.forgetSlot_kept {s : State} (h : Kept q z n o c s) (p : Nat) (k : Nat) : Kept q z n o c (State.forgetSlot s p k) := by
  unfold State.forgetSlot
  repeat' first
    | with_reducible assumption
    | with_reducible apply kept_foldl
    | with_reducible apply kept_foldl_fst
    | with_reducible apply kept_else
    | with_reducible intro _
    | (simp only [↓kept_mk]; with_reducible apply kept_parts)
    | split
    | with_reducible refine kept_of_pair (by assumption) ?_
    | dsimp only

theorem State.learn_kept {s : State} (h : Kept q z n o c s) (ph : Phase) : Kept q z n o c (State.learn s ph) := by
  unfold State.learn
  repeat' first
    | with_reducible assumption
    | with_reducible apply kept_foldl
    | with_reducible apply kept_foldl_fst
    | with_reducible apply kept_else
    | with_reducible intro _
    | (simp only [↓kept_mk]; with_reducible apply kept_parts)
    | split
    | with_reducible refine kept_of_pair (by assumption) ?_
    | dsimp only

theorem State.clockChoice_kept {s : State} (h : Kept q z n o c s) (phase : Nat → Option Phase) : Kept q z n o c (State.clockChoice s phase) := by
  unfold State.clockChoice
  repeat' first
    | with_reducible assumption
    | with_reducible apply State.toPoint_kept
    | with_reducible apply kept_foldl
    | with_reducible apply kept_foldl_fst
    | with_reducible apply kept_else
    | with_reducible intro _
    | (simp only [↓kept_mk]; with_reducible apply kept_parts)
    | split
    | with_reducible refine kept_of_pair (by assumption) ?_
    | dsimp only

theorem State.voltageWait_kept {s : State} (h : Kept q z n o c s) (reached : Bool) : Kept q z n o c (State.voltageWait s reached) := by
  unfold State.voltageWait
  repeat' first
    | with_reducible assumption
    | with_reducible apply State.raise_kept
    | with_reducible apply State.sendVid_kept
    | with_reducible apply kept_foldl
    | with_reducible apply kept_foldl_fst
    | with_reducible apply kept_else
    | with_reducible intro _
    | (simp only [↓kept_mk]; with_reducible apply kept_parts)
    | split
    | with_reducible refine kept_of_pair (by assumption) ?_
    | dsimp only

theorem State.modSlot_kept {s : State} (h : Kept q z n o c s) (p : Nat) (k : Nat) (f : PlanSt → PlanSt) : Kept q z n o c (State.modSlot s p k f) := by
  unfold State.modSlot
  repeat' first
    | with_reducible assumption
    | with_reducible apply kept_foldl
    | with_reducible apply kept_foldl_fst
    | with_reducible apply kept_else
    | with_reducible intro _
    | (simp only [↓kept_mk]; with_reducible apply kept_parts)
    | split
    | with_reducible refine kept_of_pair (by assumption) ?_
    | dsimp only

theorem State.modJob_kept {s : State} (h : Kept q z n o c s) (n_ : Nat) (f : Job → Job) : Kept q z n o c (State.modJob s n_ f) := by
  unfold State.modJob
  repeat' first
    | with_reducible assumption
    | with_reducible apply kept_foldl
    | with_reducible apply kept_foldl_fst
    | with_reducible apply kept_else
    | with_reducible intro _
    | (simp only [↓kept_mk]; with_reducible apply kept_parts)
    | split
    | with_reducible refine kept_of_pair (by assumption) ?_
    | dsimp only

theorem State.freeJob_kept {s : State} (h : Kept q z n o c s) (n_ : Nat) : Kept q z n o c (State.freeJob s n_) := by
  unfold State.freeJob
  repeat' first
    | with_reducible assumption
    | with_reducible apply kept_foldl
    | with_reducible apply kept_foldl_fst
    | with_reducible apply kept_else
    | with_reducible intro _
    | (simp only [↓kept_mk]; with_reducible apply kept_parts)
    | split
    | with_reducible refine kept_of_pair (by assumption) ?_
    | dsimp only

theorem State.modSched_kept {s : State} (h : Kept q z n o c s) (p : Nat) (f : Sched → Sched) : Kept q z n o c (State.modSched s p f) := by
  unfold State.modSched
  repeat' first
    | with_reducible assumption
    | with_reducible apply kept_foldl
    | with_reducible apply kept_foldl_fst
    | with_reducible apply kept_else
    | with_reducible intro _
    | (simp only [↓kept_mk]; with_reducible apply kept_parts)
    | split
    | with_reducible refine kept_of_pair (by assumption) ?_
    | dsimp only

theorem State.showJob_kept {s : State} (h : Kept q z n o c s) (p : Nat) (k : Nat) : Kept q z n o c (State.showJob s p k) := by
  unfold State.showJob
  repeat' first
    | with_reducible assumption
    | with_reducible apply State.set_kept
    | with_reducible apply kept_foldl
    | with_reducible apply kept_foldl_fst
    | with_reducible apply kept_else
    | with_reducible intro _
    | (simp only [↓kept_mk]; with_reducible apply kept_parts)
    | split
    | with_reducible refine kept_of_pair (by assumption) ?_
    | dsimp only

theorem State.creditBack_kept {s : State} (h : Kept q z n o c s) (c_ : Nat) : Kept q z n o c (State.creditBack s c_) := by
  unfold State.creditBack
  repeat' first
    | with_reducible assumption
    | with_reducible apply State.modLnp_kept
    | with_reducible apply kept_foldl
    | with_reducible apply kept_foldl_fst
    | with_reducible apply kept_else
    | with_reducible intro _
    | (simp only [↓kept_mk]; with_reducible apply kept_parts)
    | split
    | with_reducible refine kept_of_pair (by assumption) ?_
    | dsimp only

theorem State.cqMessage_kept {s : State} (h : Kept q z n o c s) (p : Nat) (c_ : Nat) : Kept q z n o c (State.cqMessage s p c_) := by
  unfold State.cqMessage
  repeat' first
    | with_reducible assumption
    | with_reducible apply State.sendMsix_kept
    | with_reducible apply kept_foldl
    | with_reducible apply kept_foldl_fst
    | with_reducible apply kept_else
    | with_reducible intro _
    | (simp only [↓kept_mk]; with_reducible apply kept_parts)
    | split
    | with_reducible refine kept_of_pair (by assumption) ?_
    | dsimp only

theorem State.cqSignal_kept {s : State} (h : Kept q z n o c s) (p : Nat) (c_ : Nat) : Kept q z n o c (State.cqSignal s p c_) := by
  unfold State.cqSignal
  repeat' first
    | with_reducible assumption
    | with_reducible apply State.cqMessage_kept
    | with_reducible apply kept_foldl
    | with_reducible apply kept_foldl_fst
    | with_reducible apply kept_else
    | with_reducible intro _
    | (simp only [↓kept_mk]; with_reducible apply kept_parts)
    | split
    | with_reducible refine kept_of_pair (by assumption) ?_
    | dsimp only

theorem State.cqWrite_kept {s : State} (h : Kept q z n o c s) (x : Completion) : Kept q z n o c (State.cqWrite s x) := by
  unfold State.cqWrite
  repeat' first
    | with_reducible assumption
    | with_reducible apply State.hostOut_kept
    | with_reducible apply State.countWrap_kept
    | with_reducible apply State.freeJob_kept
    | with_reducible apply State.cqSignal_kept
    | with_reducible apply kept_foldl
    | with_reducible apply kept_foldl_fst
    | with_reducible apply kept_else
    | with_reducible intro _
    | (simp only [↓kept_mk]; with_reducible apply kept_parts)
    | split
    | with_reducible refine kept_of_pair (by assumption) ?_
    | dsimp only

theorem State.cqFlush_kept {s : State} (h : Kept q z n o c s) (p : Nat) (c_ : Nat) : Kept q z n o c (State.cqFlush s p c_) := by
  unfold State.cqFlush
  repeat' first
    | with_reducible assumption
    | with_reducible apply State.forEach_kept
    | with_reducible apply State.cqWrite_kept
    | with_reducible apply kept_foldl
    | with_reducible apply kept_foldl_fst
    | with_reducible apply kept_else
    | with_reducible intro _
    | (simp only [↓kept_mk]; with_reducible apply kept_parts)
    | split
    | with_reducible refine kept_of_pair (by assumption) ?_
    | dsimp only

theorem State.complete_kept {s : State} (h : Kept q z n o c s) (x : Completion) : Kept q z n o c (State.complete s x) := by
  unfold State.complete
  repeat' first
    | with_reducible assumption
    | with_reducible apply State.raise_kept
    | with_reducible apply State.cqFlush_kept
    | with_reducible apply kept_foldl
    | with_reducible apply kept_foldl_fst
    | with_reducible apply kept_else
    | with_reducible intro _
    | (simp only [↓kept_mk]; with_reducible apply kept_parts)
    | split
    | with_reducible refine kept_of_pair (by assumption) ?_
    | dsimp only

theorem State.cqHead_kept {s : State} (h : Kept q z n o c s) (p : Nat) (c_ : Nat) (v : Nat) : Kept q z n o c (State.cqHead s p c_ v) := by
  unfold State.cqHead
  repeat' first
    | with_reducible assumption
    | with_reducible apply State.set_kept
    | with_reducible apply State.cqFlush_kept
    | with_reducible apply State.raise_kept
    | with_reducible apply kept_foldl
    | with_reducible apply kept_foldl_fst
    | with_reducible apply kept_else
    | with_reducible intro _
    | (simp only [↓kept_mk]; with_reducible apply kept_parts)
    | split
    | with_reducible refine kept_of_pair (by assumption) ?_
    | dsimp only

theorem State.completion_kept {s : State} (h : Kept q z n o c s) (p : Nat) (q_ : Nat) (bytes : List Nat) (job : Option Nat) : Kept q z n o c (State.completion s p q_ bytes job) := by
  unfold State.completion
  repeat' first
    | with_reducible assumption
    | with_reducible apply State.complete_kept
    | with_reducible apply kept_foldl
    | with_reducible apply kept_foldl_fst
    | with_reducible apply kept_else
    | with_reducible intro _
    | (simp only [↓kept_mk]; with_reducible apply kept_parts)
    | split
    | with_reducible refine kept_of_pair (by assumption) ?_
    | dsimp only

theorem State.sqFetched_kept {s : State} (h : Kept q z n o c s) (p : Nat) (q_ : Nat) : Kept q z n o c (State.sqFetched s p q_) := by
  unfold State.sqFetched
  repeat' first
    | with_reducible assumption
    | with_reducible apply State.countWrap_kept
    | with_reducible apply kept_foldl
    | with_reducible apply kept_foldl_fst
    | with_reducible apply kept_else
    | with_reducible intro _
    | (simp only [↓kept_mk]; with_reducible apply kept_parts)
    | split
    | with_reducible refine kept_of_pair (by assumption) ?_
    | dsimp only

theorem State.sqRefuse_kept {s : State} (h : Kept q z n o c s) (p : Nat) (q_ : Nat) (e : Nat) (status : Nat) : Kept q z n o c (State.sqRefuse s p q_ e status) := by
  unfold State.sqRefuse
  repeat' first
    | with_reducible assumption
    | with_reducible apply State.completion_kept
    | with_reducible apply kept_foldl
    | with_reducible apply kept_foldl_fst
    | with_reducible apply kept_else
    | with_reducible intro _
    | (simp only [↓kept_mk]; with_reducible apply kept_parts)
    | split
    | with_reducible refine kept_of_pair (by assumption) ?_
    | dsimp only

theorem State.sqError_kept {s : State} (h : Kept q z n o c s) (p : Nat) (q_ : Nat) (code : Nat) : Kept q z n o c (State.sqError s p q_ code) := by
  unfold State.sqError
  repeat' first
    | with_reducible assumption
    | with_reducible apply State.set_kept
    | with_reducible apply State.code_kept
    | with_reducible apply State.raise_kept
    | with_reducible apply kept_foldl
    | with_reducible apply kept_foldl_fst
    | with_reducible apply kept_else
    | with_reducible intro _
    | (simp only [↓kept_mk]; with_reducible apply kept_parts)
    | split
    | with_reducible refine kept_of_pair (by assumption) ?_
    | dsimp only

theorem State.sqDoorbell_kept {s : State} (h : Kept q z n o c s) (p : Nat) (q_ : Nat) (tail : Nat) : Kept q z n o c (State.sqDoorbell s p q_ tail) := by
  unfold State.sqDoorbell
  repeat' first
    | with_reducible assumption
    | with_reducible apply State.pmc_kept
    | with_reducible apply State.sqError_kept
    | with_reducible apply State.set_kept
    | with_reducible apply kept_foldl
    | with_reducible apply kept_foldl_fst
    | with_reducible apply kept_else
    | with_reducible intro _
    | (simp only [↓kept_mk]; with_reducible apply kept_parts)
    | split
    | with_reducible refine kept_of_pair (by assumption) ?_
    | dsimp only

theorem State.digestEntry_kept {s : State} (h : Kept q z n o c s) (p : Nat) (j : Job) (idx : Nat) (bytes : List Nat) : Kept q z n o c (State.digestEntry s p j idx bytes) := by
  unfold State.digestEntry
  repeat' first
    | with_reducible assumption
    | with_reducible apply State.countWrap_kept
    | with_reducible apply State.count_kept
    | with_reducible apply State.raise_kept
    | with_reducible apply State.devWriteFor_kept
    | with_reducible apply State.bwRequest_kept
    | with_reducible apply kept_foldl
    | with_reducible apply kept_foldl_fst
    | with_reducible apply kept_else
    | with_reducible intro _
    | (simp only [↓kept_mk]; with_reducible apply kept_parts)
    | split
    | with_reducible refine kept_of_pair (by assumption) ?_
    | dsimp only

theorem State.findReport_kept {s : State} (h : Kept q z n o c s) (replay : Bool) (a : FindAcc) (c_ : FindComp) : Kept q z n o c (State.findReport s replay a c_).1 := by
  unfold State.findReport
  repeat' first
    | with_reducible assumption
    | with_reducible apply State.modTrk_kept
    | with_reducible apply kept_foldl
    | with_reducible apply kept_foldl_fst
    | with_reducible apply kept_else
    | with_reducible intro _
    | (simp only [↓kept_mk]; with_reducible apply kept_parts)
    | split
    | with_reducible refine kept_of_pair (by assumption) ?_
    | dsimp only

theorem State.findRowEnd_kept {s : State} (h : Kept q z n o c s) (F : FindSet) (replay : Bool) (row : Nat) (a : FindAcc) : Kept q z n o c (State.findRowEnd s F replay row a).1 := by
  unfold State.findRowEnd
  repeat' first
    | with_reducible assumption
    | with_reducible apply State.findReport_kept
    | with_reducible apply kept_foldl
    | with_reducible apply kept_foldl_fst
    | with_reducible apply kept_else
    | with_reducible intro _
    | (simp only [↓kept_mk]; with_reducible apply kept_parts)
    | split
    | with_reducible refine kept_of_pair (by assumption) ?_
    | dsimp only

theorem State.findRow_kept {s : State} (h : Kept q z n o c s) (F : FindSet) (replay : Bool) (row : Nat) (codes : List Nat) (a : FindAcc) : Kept q z n o c (State.findRow s F replay row codes a).1 := by
  unfold State.findRow
  repeat' first
    | with_reducible assumption
    | with_reducible apply State.findRowEnd_kept
    | with_reducible apply kept_foldl
    | with_reducible apply kept_foldl_fst
    | with_reducible apply kept_else
    | with_reducible intro _
    | (simp only [↓kept_mk]; with_reducible apply kept_parts)
    | split
    | with_reducible refine kept_of_pair (by assumption) ?_
    | dsimp only

theorem State.findRun_kept {s : State} (h : Kept q z n o c s) (e : Env) (idx : Nat) (d : Nat) (lo : Nat) (hi : Nat) (replay : Bool) : Kept q z n o c (State.findRun s e idx d lo hi replay).1 := by
  unfold State.findRun
  repeat' first
    | with_reducible assumption
    | with_reducible apply State.findRow_kept
    | with_reducible apply State.code_kept
    | with_reducible apply kept_foldl
    | with_reducible apply kept_foldl_fst
    | with_reducible apply kept_else
    | with_reducible intro _
    | (simp only [↓kept_mk]; with_reducible apply kept_parts)
    | split
    | with_reducible refine kept_of_pair (by assumption) ?_
    | dsimp only

theorem State.putList_kept {s : State} (h : Kept q z n o c s) (e : Env) (t : Tensor) (bs : List Nat) : Kept q z n o c (State.putList s e t bs) := by
  unfold State.putList
  repeat' first
    | with_reducible assumption
    | with_reducible apply State.tensorBytes_kept
    | with_reducible apply State.jobLines_kept
    | with_reducible apply kept_foldl
    | with_reducible apply kept_foldl_fst
    | with_reducible apply kept_else
    | with_reducible intro _
    | (simp only [↓kept_mk]; with_reducible apply kept_parts)
    | split
    | with_reducible refine kept_of_pair (by assumption) ?_
    | dsimp only

theorem State.partFind_kept {s : State} (h : Kept q z n o c s) (e : Env) (idx : Nat) (d : Nat) (lo : Nat) (hi : Nat) (no : Nat) (replay : Bool) : Kept q z n o c (State.partFind s e idx d lo hi no replay).1 := by
  unfold State.partFind
  repeat' first
    | with_reducible assumption
    | with_reducible apply State.findRun_kept
    | with_reducible apply State.putList_kept
    | with_reducible apply State.modTrk_kept
    | with_reducible apply kept_foldl
    | with_reducible apply kept_foldl_fst
    | with_reducible apply kept_else
    | with_reducible intro _
    | (simp only [↓kept_mk]; with_reducible apply kept_parts)
    | split
    | with_reducible refine kept_of_pair (by assumption) ?_
    | dsimp only

theorem State.findAbort_kept {s : State} (h : Kept q z n o c s) (e : Env) (idx : Nat) (d : Nat) (lo : Nat) (hi : Nat) (replay : Bool) : Kept q z n o c (State.findAbort s e idx d lo hi replay) := by
  unfold State.findAbort
  repeat' first
    | with_reducible assumption
    | with_reducible apply State.findRun_kept
    | with_reducible apply State.forEach_kept
    | with_reducible apply State.bumpGen_kept
    | with_reducible apply State.giveId_kept
    | with_reducible apply kept_foldl
    | with_reducible apply kept_foldl_fst
    | with_reducible apply kept_else
    | with_reducible intro _
    | (simp only [↓kept_mk]; with_reducible apply kept_parts)
    | split
    | with_reducible refine kept_of_pair (by assumption) ?_
    | dsimp only

theorem State.setWin_kept {s : State} (h : Kept q z n o c s) (p : Nat) (k : Nat) (w : CtxWin) : Kept q z n o c (State.setWin s p k w) := by
  unfold State.setWin
  repeat' first
    | with_reducible assumption
    | with_reducible apply State.modSlot_kept
    | with_reducible apply kept_foldl
    | with_reducible apply kept_foldl_fst
    | with_reducible apply kept_else
    | with_reducible intro _
    | (simp only [↓kept_mk]; with_reducible apply kept_parts)
    | split
    | with_reducible refine kept_of_pair (by assumption) ?_
    | dsimp only

theorem State.modRun_kept {s : State} (h : Kept q z n o c s) (n_ : Nat) (f : StepRun → StepRun) : Kept q z n o c (State.modRun s n_ f) := by
  unfold State.modRun
  repeat' first
    | with_reducible assumption
    | with_reducible apply State.modJob_kept
    | with_reducible apply kept_foldl
    | with_reducible apply kept_foldl_fst
    | with_reducible apply kept_else
    | with_reducible intro _
    | (simp only [↓kept_mk]; with_reducible apply kept_parts)
    | split
    | with_reducible refine kept_of_pair (by assumption) ?_
    | dsimp only

theorem State.modDesc_kept {s : State} (h : Kept q z n o c s) (n_ : Nat) (idx : Nat) (f : DescRun → DescRun) : Kept q z n o c (State.modDesc s n_ idx f) := by
  unfold State.modDesc
  repeat' first
    | with_reducible assumption
    | with_reducible apply State.modRun_kept
    | with_reducible apply kept_foldl
    | with_reducible apply kept_foldl_fst
    | with_reducible apply kept_else
    | with_reducible intro _
    | (simp only [↓kept_mk]; with_reducible apply kept_parts)
    | split
    | with_reducible refine kept_of_pair (by assumption) ?_
    | dsimp only

theorem State.windowReset_kept {s : State} (h : Kept q z n o c s) (p : Nat) (c_ : Nat) : Kept q z n o c (State.windowReset s p c_) := by
  unfold State.windowReset
  repeat' first
    | with_reducible assumption
    | with_reducible apply State.raise_kept
    | with_reducible apply State.count_kept
    | with_reducible apply kept_foldl
    | with_reducible apply kept_foldl_fst
    | with_reducible apply kept_else
    | with_reducible intro _
    | (simp only [↓kept_mk]; with_reducible apply kept_parts)
    | split
    | with_reducible refine kept_of_pair (by assumption) ?_
    | dsimp only

theorem State.dropHolding_kept {s : State} (h : Kept q z n o c s) (w : CtxWin) : Kept q z n o c (State.dropHolding s w) := by
  unfold State.dropHolding
  repeat' first
    | with_reducible assumption
    | with_reducible apply State.forEach_kept
    | with_reducible apply State.creditBack_kept
    | with_reducible apply kept_foldl
    | with_reducible apply kept_foldl_fst
    | with_reducible apply kept_else
    | with_reducible intro _
    | (simp only [↓kept_mk]; with_reducible apply kept_parts)
    | split
    | with_reducible refine kept_of_pair (by assumption) ?_
    | dsimp only

theorem State.resetWin_kept {s : State} (h : Kept q z n o c s) (p : Nat) (k : Nat) (w : CtxWin) (cuts : List CutEntry) : Kept q z n o c (State.resetWin s p k w cuts) := by
  unfold State.resetWin
  repeat' first
    | with_reducible assumption
    | with_reducible apply State.dropHolding_kept
    | with_reducible apply State.setWin_kept
    | with_reducible apply State.windowReset_kept
    | with_reducible apply kept_foldl
    | with_reducible apply kept_foldl_fst
    | with_reducible apply kept_else
    | with_reducible intro _
    | (simp only [↓kept_mk]; with_reducible apply kept_parts)
    | split
    | with_reducible refine kept_of_pair (by assumption) ?_
    | dsimp only

theorem State.takeJob_kept {s : State} (h : Kept q z n o c s) (p : Nat) (k : Nat) (batch : Bool) (s0 : Nat) (seed : Nat) : Kept q z n o c (State.takeJob s p k batch s0 seed).1 := by
  unfold State.takeJob
  repeat' first
    | with_reducible assumption
    | with_reducible apply kept_foldl
    | with_reducible apply kept_foldl_fst
    | with_reducible apply kept_else
    | with_reducible intro _
    | (simp only [↓kept_mk]; with_reducible apply kept_parts)
    | split
    | with_reducible refine kept_of_pair (by assumption) ?_
    | dsimp only

theorem State.makeReady_kept {s : State} (h : Kept q z n o c s) (n_ : Nat) : Kept q z n o c (State.makeReady s n_) := by
  unfold State.makeReady
  repeat' first
    | with_reducible assumption
    | with_reducible apply State.modJob_kept
    | with_reducible apply kept_foldl
    | with_reducible apply kept_foldl_fst
    | with_reducible apply kept_else
    | with_reducible intro _
    | (simp only [↓kept_mk]; with_reducible apply kept_parts)
    | split
    | with_reducible refine kept_of_pair (by assumption) ?_
    | dsimp only

theorem State.refreshReady_kept {s : State} (h : Kept q z n o c s)  : Kept q z n o c (State.refreshReady s) := by
  unfold State.refreshReady
  repeat' first
    | with_reducible assumption
    | with_reducible apply State.forEach_kept
    | with_reducible apply State.makeReady_kept
    | with_reducible apply kept_foldl
    | with_reducible apply kept_foldl_fst
    | with_reducible apply kept_else
    | with_reducible intro _
    | (simp only [↓kept_mk]; with_reducible apply kept_parts)
    | split
    | with_reducible refine kept_of_pair (by assumption) ?_
    | dsimp only

theorem State.startBatch_kept {s : State} (h : Kept q z n o c s) (p : Nat) (q_ : Nat) (e : Nat) : Kept q z n o c (State.startBatch s p q_ e) := by
  unfold State.startBatch
  repeat' first
    | with_reducible assumption
    | with_reducible apply State.sqRefuse_kept
    | with_reducible apply State.takeJob_kept
    | with_reducible apply State.modJob_kept
    | with_reducible apply State.makeReady_kept
    | with_reducible apply kept_foldl
    | with_reducible apply kept_foldl_fst
    | with_reducible apply kept_else
    | with_reducible intro _
    | (simp only [↓kept_mk]; with_reducible apply kept_parts)
    | split
    | with_reducible refine kept_of_pair (by assumption) ?_
    | dsimp only

theorem State.sqTake_kept {s : State} (h : Kept q z n o c s) (p : Nat) (q_ : Nat) (e : Nat) : Kept q z n o c (State.sqTake s p q_ e) := by
  unfold State.sqTake
  repeat' first
    | with_reducible assumption
    | with_reducible apply State.startBatch_kept
    | with_reducible apply State.completion_kept
    | with_reducible apply kept_foldl
    | with_reducible apply kept_foldl_fst
    | with_reducible apply kept_else
    | with_reducible intro _
    | (simp only [↓kept_mk]; with_reducible apply kept_parts)
    | split
    | with_reducible refine kept_of_pair (by assumption) ?_
    | dsimp only

theorem State.sqPump_kept {s : State} (h : Kept q z n o c s) (p : Nat) : Kept q z n o c (State.sqPump s p) := by
  unfold State.sqPump
  repeat' first
    | with_reducible assumption
    | with_reducible apply State.forEach_kept
    | with_reducible apply State.sqTake_kept
    | with_reducible apply kept_foldl
    | with_reducible apply kept_foldl_fst
    | with_reducible apply kept_else
    | with_reducible intro _
    | (simp only [↓kept_mk]; with_reducible apply kept_parts)
    | split
    | with_reducible refine kept_of_pair (by assumption) ?_
    | dsimp only

theorem State.leaveClusters_kept {s : State} (h : Kept q z n o c s) (p : Nat) (n_ : Nat) : Kept q z n o c (State.leaveClusters s p n_) := by
  unfold State.leaveClusters
  repeat' first
    | with_reducible assumption
    | with_reducible apply State.modSched_kept
    | with_reducible apply kept_foldl
    | with_reducible apply kept_foldl_fst
    | with_reducible apply kept_else
    | with_reducible intro _
    | (simp only [↓kept_mk]; with_reducible apply kept_parts)
    | split
    | with_reducible refine kept_of_pair (by assumption) ?_
    | dsimp only

theorem State.endJob_kept {s : State} (h : Kept q z n o c s) (n_ : Nat) (status : Nat) (desc : Nat) : Kept q z n o c (State.endJob s n_ status desc) := by
  unfold State.endJob
  repeat' first
    | with_reducible assumption
    | with_reducible apply State.modJob_kept
    | with_reducible apply State.leaveClusters_kept
    | with_reducible apply State.completion_kept
    | with_reducible apply State.freeJob_kept
    | with_reducible apply State.showJob_kept
    | with_reducible apply State.forEach_kept
    | with_reducible apply State.sqPump_kept
    | with_reducible apply kept_foldl
    | with_reducible apply kept_foldl_fst
    | with_reducible apply kept_else
    | with_reducible intro _
    | (simp only [↓kept_mk]; with_reducible apply kept_parts)
    | split
    | with_reducible refine kept_of_pair (by assumption) ?_
    | dsimp only

theorem State.endStream_kept {s : State} (h : Kept q z n o c s) (p : Nat) (k : Nat) (status : Nat) : Kept q z n o c (State.endStream s p k status) := by
  unfold State.endStream
  repeat' first
    | with_reducible assumption
    | with_reducible apply State.forEach_kept
    | with_reducible apply State.dropHolding_kept
    | with_reducible apply State.setWin_kept
    | with_reducible apply State.endJob_kept
    | with_reducible apply kept_foldl
    | with_reducible apply kept_foldl_fst
    | with_reducible apply kept_else
    | with_reducible intro _
    | (simp only [↓kept_mk]; with_reducible apply kept_parts)
    | split
    | with_reducible refine kept_of_pair (by assumption) ?_
    | dsimp only

theorem State.activate_kept {s : State} (h : Kept q z n o c s) (p : Nat) (k : Nat) (P : Plan) (s0 : Nat) (seed : Nat) : Kept q z n o c (State.activate s p k P s0 seed) := by
  unfold State.activate
  repeat' first
    | with_reducible assumption
    | with_reducible apply State.endStream_kept
    | with_reducible apply State.forgetSlot_kept
    | with_reducible apply State.modSlot_kept
    | with_reducible apply State.forEach_kept
    | with_reducible apply State.resetWin_kept
    | with_reducible apply State.modJob_kept
    | with_reducible apply State.endJob_kept
    | with_reducible apply State.set_kept
    | with_reducible apply State.takeJob_kept
    | with_reducible apply State.showJob_kept
    | with_reducible apply State.refreshReady_kept
    | with_reducible apply kept_foldl
    | with_reducible apply kept_foldl_fst
    | with_reducible apply kept_else
    | with_reducible intro _
    | (simp only [↓kept_mk]; with_reducible apply kept_parts)
    | split
    | with_reducible refine kept_of_pair (by assumption) ?_
    | dsimp only

theorem State.switchSlot_kept {s : State} (h : Kept q z n o c s) (p : Nat) (k : Nat) : Kept q z n o c (State.switchSlot s p k) := by
  unfold State.switchSlot
  repeat' first
    | with_reducible assumption
    | with_reducible apply State.activate_kept
    | with_reducible apply State.raise_kept
    | with_reducible apply kept_foldl
    | with_reducible apply kept_foldl_fst
    | with_reducible apply kept_else
    | with_reducible intro _
    | (simp only [↓kept_mk]; with_reducible apply kept_parts)
    | split
    | with_reducible refine kept_of_pair (by assumption) ?_
    | dsimp only

theorem State.emptySlot_kept {s : State} (h : Kept q z n o c s) (p : Nat) (k : Nat) : Kept q z n o c (State.emptySlot s p k) := by
  unfold State.emptySlot
  repeat' first
    | with_reducible assumption
    | with_reducible apply State.endStream_kept
    | with_reducible apply State.modSlot_kept
    | with_reducible apply State.set_kept
    | with_reducible apply State.showJob_kept
    | with_reducible apply kept_foldl
    | with_reducible apply kept_foldl_fst
    | with_reducible apply kept_else
    | with_reducible intro _
    | (simp only [↓kept_mk]; with_reducible apply kept_parts)
    | split
    | with_reducible refine kept_of_pair (by assumption) ?_
    | dsimp only

theorem State.boundary_kept {s : State} (h : Kept q z n o c s) (p : Nat) : Kept q z n o c (State.boundary s p) := by
  unfold State.boundary
  repeat' first
    | with_reducible assumption
    | with_reducible apply State.forEach_kept
    | with_reducible apply State.emptySlot_kept
    | with_reducible apply State.switchSlot_kept
    | with_reducible apply kept_foldl
    | with_reducible apply kept_foldl_fst
    | with_reducible apply kept_else
    | with_reducible intro _
    | (simp only [↓kept_mk]; with_reducible apply kept_parts)
    | split
    | with_reducible refine kept_of_pair (by assumption) ?_
    | dsimp only

theorem State.putScales_kept {s : State} (h : Kept q z n o c s) (p : Nat) (k : Nat) (off : Nat) (a : Nat) (ga : Nat) (b : Nat) (gb : Nat) : Kept q z n o c (State.putScales s p k off a ga b gb) := by
  unfold State.putScales
  repeat' first
    | with_reducible assumption
    | with_reducible apply State.modSlot_kept
    | with_reducible apply State.devWriteFor_kept
    | with_reducible apply State.bwRequest_kept
    | with_reducible apply kept_foldl
    | with_reducible apply kept_foldl_fst
    | with_reducible apply kept_else
    | with_reducible intro _
    | (simp only [↓kept_mk]; with_reducible apply kept_parts)
    | split
    | with_reducible refine kept_of_pair (by assumption) ?_
    | dsimp only

theorem State.initScales_kept {s : State} (h : Kept q z n o c s) (j : Job) (P : Plan) : Kept q z n o c (State.initScales s j P) := by
  unfold State.initScales
  repeat' first
    | with_reducible assumption
    | with_reducible apply State.forEach_kept
    | with_reducible apply State.putScales_kept
    | with_reducible apply kept_foldl
    | with_reducible apply kept_foldl_fst
    | with_reducible apply kept_else
    | with_reducible intro _
    | (simp only [↓kept_mk]; with_reducible apply kept_parts)
    | split
    | with_reducible refine kept_of_pair (by assumption) ?_
    | dsimp only

theorem State.beginStream_kept {s : State} (h : Kept q z n o c s) (j : Job) (P : Plan) (r : Ready) : Kept q z n o c (State.beginStream s j P r) := by
  unfold State.beginStream
  repeat' first
    | with_reducible assumption
    | with_reducible apply State.setWin_kept
    | with_reducible apply State.windowReset_kept
    | with_reducible apply State.resetWin_kept
    | with_reducible apply State.modJob_kept
    | with_reducible apply kept_foldl
    | with_reducible apply kept_foldl_fst
    | with_reducible apply kept_else
    | with_reducible intro _
    | (simp only [↓kept_mk]; with_reducible apply kept_parts)
    | split
    | with_reducible refine kept_of_pair (by assumption) ?_
    | dsimp only

theorem State.beginStep_kept {s : State} (h : Kept q z n o c s) (n_ : Nat) : Kept q z n o c (State.beginStep s n_) := by
  unfold State.beginStep
  repeat' first
    | with_reducible assumption
    | with_reducible apply State.initScales_kept
    | with_reducible apply State.modJob_kept
    | with_reducible apply State.beginStream_kept
    | with_reducible apply kept_foldl
    | with_reducible apply kept_foldl_fst
    | with_reducible apply kept_else
    | with_reducible intro _
    | (simp only [↓kept_mk]; with_reducible apply kept_parts)
    | split
    | with_reducible refine kept_of_pair (by assumption) ?_
    | dsimp only

theorem State.rotateScale_kept {s : State} (h : Kept q z n o c s) (j : Job) (P : Plan) (r : DescRun) : Kept q z n o c (State.rotateScale s j P r) := by
  unfold State.rotateScale
  repeat' first
    | with_reducible assumption
    | with_reducible apply State.putScales_kept
    | with_reducible apply State.raise_kept
    | with_reducible apply kept_foldl
    | with_reducible apply kept_foldl_fst
    | with_reducible apply kept_else
    | with_reducible intro _
    | (simp only [↓kept_mk]; with_reducible apply kept_parts)
    | split
    | with_reducible refine kept_of_pair (by assumption) ?_
    | dsimp only

theorem State.release_kept {s : State} (h : Kept q z n o c s) (p : Nat) (k : Nat) (P : Plan) (w : CtxWin) (next : Nat → Nat) (last : Bool) : Kept q z n o c (State.release s p k P w next last) := by
  unfold State.release
  repeat' first
    | with_reducible assumption
    | with_reducible apply State.setWin_kept
    | with_reducible apply State.dropHolding_kept
    | with_reducible apply kept_foldl
    | with_reducible apply kept_foldl_fst
    | with_reducible apply kept_else
    | with_reducible intro _
    | (simp only [↓kept_mk]; with_reducible apply kept_parts)
    | split
    | with_reducible refine kept_of_pair (by assumption) ?_
    | dsimp only

theorem State.measureStep_kept {s : State} (h : Kept q z n o c s) (j : Job) (r : StepRun) : Kept q z n o c (State.measureStep s j r) := by
  unfold State.measureStep
  repeat' first
    | with_reducible assumption
    | with_reducible apply State.set_kept
    | with_reducible apply kept_foldl
    | with_reducible apply kept_foldl_fst
    | with_reducible apply kept_else
    | with_reducible intro _
    | (simp only [↓kept_mk]; with_reducible apply kept_parts)
    | split
    | with_reducible refine kept_of_pair (by assumption) ?_
    | dsimp only

theorem State.closeWin_kept {s : State} (h : Kept q z n o c s) (j : Job) (P : Plan) (r : StepRun) : Kept q z n o c (State.closeWin s j P r) := by
  unfold State.closeWin
  repeat' first
    | with_reducible assumption
    | with_reducible apply State.release_kept
    | with_reducible apply kept_foldl
    | with_reducible apply kept_foldl_fst
    | with_reducible apply kept_else
    | with_reducible intro _
    | (simp only [↓kept_mk]; with_reducible apply kept_parts)
    | split
    | with_reducible refine kept_of_pair (by assumption) ?_
    | dsimp only

theorem State.endStep_kept {s : State} (h : Kept q z n o c s) (n_ : Nat) : Kept q z n o c (State.endStep s n_) := by
  unfold State.endStep
  repeat' first
    | with_reducible assumption
    | with_reducible apply State.closeWin_kept
    | with_reducible apply State.forEach_kept
    | with_reducible apply State.rotateScale_kept
    | with_reducible apply State.measureStep_kept
    | with_reducible apply State.pmc_kept
    | with_reducible apply State.modJob_kept
    | with_reducible apply State.showJob_kept
    | with_reducible apply State.endJob_kept
    | with_reducible apply State.endStream_kept
    | with_reducible apply State.set_kept
    | with_reducible apply State.boundary_kept
    | with_reducible apply State.leaveClusters_kept
    | with_reducible apply kept_foldl
    | with_reducible apply kept_foldl_fst
    | with_reducible apply kept_else
    | with_reducible intro _
    | (simp only [↓kept_mk]; with_reducible apply kept_parts)
    | split
    | with_reducible refine kept_of_pair (by assumption) ?_
    | dsimp only

theorem State.xentRows_kept {s : State} (h : Kept q z n o c s) (e : Env) (d : Nat) (l : List (Nat × Nat × Nat)) : Kept q z n o c (State.xentRows s e d l) := by
  unfold State.xentRows
  repeat' first
    | with_reducible assumption
    | with_reducible apply State.putTile_kept
    | with_reducible apply kept_foldl
    | with_reducible apply kept_foldl_fst
    | with_reducible apply kept_else
    | with_reducible intro _
    | (simp only [↓kept_mk]; with_reducible apply kept_parts)
    | split
    | with_reducible refine kept_of_pair (by assumption) ?_
    | dsimp only

theorem State.optUnit_kept {s : State} (h : Kept q z n o c s) (e : Env) (d : Nat) (l : List (Nat × Nat × Nat)) : Kept q z n o c (State.optUnit s e d l).1 := by
  unfold State.optUnit
  repeat' first
    | with_reducible assumption
    | with_reducible apply State.code_kept
    | with_reducible apply State.putTile_kept
    | with_reducible apply kept_foldl
    | with_reducible apply kept_foldl_fst
    | with_reducible apply kept_else
    | with_reducible intro _
    | (simp only [↓kept_mk]; with_reducible apply kept_parts)
    | split
    | with_reducible refine kept_of_pair (by assumption) ?_
    | dsimp only

theorem State.cropFlags_kept {s : State} (h : Kept q z n o c s) (e : Env) (d : Nat) (rows : CropRows) (l : List (Nat × Nat × Nat)) : Kept q z n o c (State.cropFlags s e d rows l) := by
  unfold State.cropFlags
  repeat' first
    | with_reducible assumption
    | with_reducible apply State.forEach_kept
    | with_reducible apply State.tensorBytes_kept
    | with_reducible apply State.jobLines_kept
    | with_reducible apply kept_foldl
    | with_reducible apply kept_foldl_fst
    | with_reducible apply kept_else
    | with_reducible intro _
    | (simp only [↓kept_mk]; with_reducible apply kept_parts)
    | split
    | with_reducible refine kept_of_pair (by assumption) ?_
    | dsimp only

theorem State.giveVerdict_kept {s : State} (h : Kept q z n o c s) (v : VerdictMsg) : Kept q z n o c (State.giveVerdict s v) := by
  unfold State.giveVerdict
  repeat' first
    | with_reducible assumption
    | with_reducible apply State.peerSend_kept
    | with_reducible apply State.modTrk_kept
    | with_reducible apply kept_foldl
    | with_reducible apply kept_foldl_fst
    | with_reducible apply kept_else
    | with_reducible intro _
    | (simp only [↓kept_mk]; with_reducible apply kept_parts)
    | split
    | with_reducible refine kept_of_pair (by assumption) ?_
    | dsimp only

theorem State.verdicts_kept {s : State} (h : Kept q z n o c s) (e : Env) (d : Nat) : Kept q z n o c (State.verdicts s e d).1 := by
  unfold State.verdicts
  repeat' first
    | with_reducible assumption
    | with_reducible apply State.forEach_kept
    | with_reducible apply State.giveVerdict_kept
    | with_reducible apply kept_foldl
    | with_reducible apply kept_foldl_fst
    | with_reducible apply kept_else
    | with_reducible intro _
    | (simp only [↓kept_mk]; with_reducible apply kept_parts)
    | split
    | with_reducible refine kept_of_pair (by assumption) ?_
    | dsimp only

theorem State.runUnit_kept {s : State} (h : Kept q z n o c s) (j : Job) (r : StepRun) (e : Env) (x : DescRun) (u : Nat) : Kept q z n o c (State.runUnit s j r e x u).1 := by
  unfold State.runUnit
  repeat' first
    | with_reducible assumption
    | with_reducible apply State.partFind_kept
    | with_reducible apply State.setWin_kept
    | with_reducible apply State.verdicts_kept
    | with_reducible apply State.optUnit_kept
    | with_reducible apply State.xentRows_kept
    | with_reducible apply State.putTile_kept
    | with_reducible apply State.cropFlags_kept
    | with_reducible apply kept_foldl
    | with_reducible apply kept_foldl_fst
    | with_reducible apply kept_else
    | with_reducible intro _
    | (simp only [↓kept_mk]; with_reducible apply kept_parts)
    | split
    | with_reducible refine kept_of_pair (by assumption) ?_
    | dsimp only

theorem State.unitBad_kept {s : State} (h : Kept q z n o c s) (e : Env) (runs : List DescRun) (d : Nat) (x : DescRun) (u : Nat) : Kept q z n o c (State.unitBad s e runs d x u).1 := by
  unfold State.unitBad
  repeat' first
    | with_reducible assumption
    | with_reducible apply State.forEach_kept
    | with_reducible apply State.ueFound_kept
    | with_reducible apply State.count_kept
    | with_reducible apply State.raise_kept
    | with_reducible apply kept_foldl
    | with_reducible apply kept_foldl_fst
    | with_reducible apply kept_else
    | with_reducible intro _
    | (simp only [↓kept_mk]; with_reducible apply kept_parts)
    | split
    | with_reducible refine kept_of_pair (by assumption) ?_
    | dsimp only

theorem State.descDone_kept {s : State} (h : Kept q z n o c s) (n_ : Nat) (idx : Nat) : Kept q z n o c (State.descDone s n_ idx) := by
  unfold State.descDone
  repeat' first
    | with_reducible assumption
    | with_reducible apply State.modDesc_kept
    | with_reducible apply State.complete_kept
    | with_reducible apply State.pmc_kept
    | with_reducible apply State.learn_kept
    | with_reducible apply State.digestEntry_kept
    | with_reducible apply State.release_kept
    | with_reducible apply State.modJob_kept
    | with_reducible apply State.count_kept
    | with_reducible apply kept_foldl
    | with_reducible apply kept_foldl_fst
    | with_reducible apply kept_else
    | with_reducible intro _
    | (simp only [↓kept_mk]; with_reducible apply kept_parts)
    | split
    | with_reducible refine kept_of_pair (by assumption) ?_
    | dsimp only

theorem State.advance_kept {s : State} (h : Kept q z n o c s) (n_ : Nat) : Kept q z n o c (State.advance s n_) := by
  unfold State.advance
  repeat' first
    | with_reducible assumption
    | with_reducible apply State.forEach_kept
    | with_reducible apply State.complete_kept
    | with_reducible apply State.descDone_kept
    | with_reducible apply State.endStep_kept
    | with_reducible apply kept_foldl
    | with_reducible apply kept_foldl_fst
    | with_reducible apply kept_else
    | with_reducible intro _
    | (simp only [↓kept_mk]; with_reducible apply kept_parts)
    | split
    | with_reducible refine kept_of_pair (by assumption) ?_
    | dsimp only

theorem State.drain_kept {s : State} (h : Kept q z n o c s) (p : Nat) : Kept q z n o c (State.drain s p) := by
  unfold State.drain
  repeat' first
    | with_reducible assumption
    | with_reducible apply State.modJob_kept
    | with_reducible apply State.leaveClusters_kept
    | with_reducible apply kept_foldl
    | with_reducible apply kept_foldl_fst
    | with_reducible apply kept_else
    | with_reducible intro _
    | (simp only [↓kept_mk]; with_reducible apply kept_parts)
    | split
    | with_reducible refine kept_of_pair (by assumption) ?_
    | dsimp only

theorem State.unitDone_kept {s : State} (h : Kept q z n o c s) (p : Nat) (n_ : Nat) (x : DescRun) : Kept q z n o c (State.unitDone s p n_ x) := by
  unfold State.unitDone
  repeat' first
    | with_reducible assumption
    | with_reducible apply State.modDesc_kept
    | with_reducible apply State.descDone_kept
    | with_reducible apply State.advance_kept
    | with_reducible apply State.drain_kept
    | with_reducible apply kept_foldl
    | with_reducible apply kept_foldl_fst
    | with_reducible apply kept_else
    | with_reducible intro _
    | (simp only [↓kept_mk]; with_reducible apply kept_parts)
    | split
    | with_reducible refine kept_of_pair (by assumption) ?_
    | dsimp only

theorem State.issueReads_kept {s : State} (h : Kept q z n o c s) (p : Nat) (n_ : Nat) (seq : Nat) : Kept q z n o c (State.issueReads s p n_ seq) := by
  unfold State.issueReads
  repeat' first
    | with_reducible assumption
    | with_reducible apply State.forEach_kept
    | with_reducible apply State.jobLine_kept
    | with_reducible apply State.pmcClu_kept
    | with_reducible apply State.modRun_kept
    | with_reducible apply kept_foldl
    | with_reducible apply kept_foldl_fst
    | with_reducible apply kept_else
    | with_reducible intro _
    | (simp only [↓kept_mk]; with_reducible apply kept_parts)
    | split
    | with_reducible refine kept_of_pair (by assumption) ?_
    | dsimp only

theorem State.firstUnit_some {s t : State} {j : Job} {P : Plan} {r : StepRun} {x : DescRun} (h : Kept q z n o c s)
    (e : s.firstUnit j P r x = some t) : Kept q z n o c t := by
  unfold State.firstUnit State.loadScales at e
  dsimp only at e
  split at e
  · cases e; exact h
  · split at e
    · cases e
    · simp only [Option.map_some, Option.some.injEq] at e
      subst e
      apply State.modDesc_kept
      split
      · exact State.modJob_kept h _ _
      · exact State.clockChoice_kept (State.modJob_kept h _ _) _

theorem State.firstUnit_kept {s : State} (h : Kept q z n o c s) (j : Job) (P : Plan) (r : StepRun) (x : DescRun) :
    Kept q z n o c ((s.firstUnit j P r x).getD s) := by
  cases e : s.firstUnit j P r x with
  | none => exact h
  | some t => exact State.firstUnit_some h e

theorem State.assignTile_kept {s : State} (h : Kept q z n o c s) (p : Nat) : Kept q z n o c (State.assignTile s p) := by
  unfold State.assignTile
  repeat' first
    | with_reducible assumption
    | with_reducible apply State.beginStep_kept
    | with_reducible apply State.advance_kept
    | with_reducible apply State.firstUnit_kept
    | with_reducible apply State.modRun_kept
    | with_reducible apply State.modDesc_kept
    | with_reducible apply State.set_kept
    | with_reducible apply State.issueReads_kept
    | refine State.firstUnit_some ?_ (by assumption)
    | with_reducible apply kept_foldl
    | with_reducible apply kept_foldl_fst
    | with_reducible apply kept_else
    | with_reducible intro _
    | (simp only [↓kept_mk]; with_reducible apply kept_parts)
    | split
    | with_reducible refine kept_of_pair (by assumption) ?_
    | dsimp only

theorem State.issueWaiting_kept {s : State} (h : Kept q z n o c s)  : Kept q z n o c (State.issueWaiting s) := by
  unfold State.issueWaiting
  repeat' first
    | with_reducible assumption
    | with_reducible apply State.forEach_kept
    | with_reducible apply State.issueReads_kept
    | with_reducible apply kept_foldl
    | with_reducible apply kept_foldl_fst
    | with_reducible apply kept_else
    | with_reducible intro _
    | (simp only [↓kept_mk]; with_reducible apply kept_parts)
    | split
    | with_reducible refine kept_of_pair (by assumption) ?_
    | dsimp only

theorem State.readReturns_kept {s : State} (h : Kept q z n o c s) (p : Nat) (seq : Nat) : Kept q z n o c (State.readReturns s p seq) := by
  unfold State.readReturns
  repeat' first
    | with_reducible assumption
    | with_reducible apply State.modRun_kept
    | with_reducible apply State.issueWaiting_kept
    | with_reducible apply kept_foldl
    | with_reducible apply kept_foldl_fst
    | with_reducible apply kept_else
    | with_reducible intro _
    | (simp only [↓kept_mk]; with_reducible apply kept_parts)
    | split
    | with_reducible refine kept_of_pair (by assumption) ?_
    | dsimp only

theorem State.endTile_kept {s : State} (h : Kept q z n o c s) (p : Nat) (j : Job) (P : Plan) (r : StepRun) (t : TileRun) (x : DescRun) : Kept q z n o c (State.endTile s p j P r t x) := by
  unfold State.endTile
  repeat' first
    | with_reducible assumption
    | with_reducible apply State.modRun_kept
    | with_reducible apply State.modSched_kept
    | with_reducible apply State.count_kept
    | with_reducible apply State.pmc_kept
    | with_reducible apply State.pmcClu_kept
    | with_reducible apply State.runUnit_kept
    | with_reducible apply State.unitDone_kept
    | with_reducible apply kept_foldl
    | with_reducible apply kept_foldl_fst
    | with_reducible apply kept_else
    | with_reducible intro _
    | (simp only [↓kept_mk]; with_reducible apply kept_parts)
    | split
    | with_reducible refine kept_of_pair (by assumption) ?_
    | dsimp only

theorem State.queuePass_kept {s : State} (h : Kept q z n o c s) (x : FwnPass) : Kept q z n o c (State.queuePass s x) := by
  unfold State.queuePass
  repeat' first
    | with_reducible assumption
    | with_reducible apply State.count_kept
    | with_reducible apply kept_foldl
    | with_reducible apply kept_foldl_fst
    | with_reducible apply kept_else
    | with_reducible intro _
    | (simp only [↓kept_mk]; with_reducible apply kept_parts)
    | split
    | with_reducible refine kept_of_pair (by assumption) ?_
    | dsimp only

theorem State.fawnReady_kept {s : State} (h : Kept q z n o c s) (p : Nat) : Kept q z n o c (State.fawnReady s p) := by
  unfold State.fawnReady
  repeat' first
    | with_reducible assumption
    | with_reducible apply State.beginStep_kept
    | with_reducible apply State.advance_kept
    | with_reducible apply State.forEach_kept
    | with_reducible apply State.firstUnit_kept
    | with_reducible apply State.modDesc_kept
    | with_reducible apply State.queuePass_kept
    | with_reducible apply kept_foldl
    | with_reducible apply kept_foldl_fst
    | with_reducible apply kept_else
    | with_reducible intro _
    | (simp only [↓kept_mk]; with_reducible apply kept_parts)
    | split
    | with_reducible refine kept_of_pair (by assumption) ?_
    | dsimp only

theorem State.fawnDesc_kept {s : State} (h : Kept q z n o c s) (n_ : Nat) (idx : Nat) : Kept q z n o c (State.fawnDesc s n_ idx).1 := by
  unfold State.fawnDesc
  repeat' first
    | with_reducible assumption
    | with_reducible apply State.unitBad_kept
    | with_reducible apply State.runUnit_kept
    | with_reducible apply State.unitDone_kept
    | with_reducible apply kept_foldl
    | with_reducible apply kept_foldl_fst
    | with_reducible apply kept_else
    | with_reducible intro _
    | (simp only [↓kept_mk]; with_reducible apply kept_parts)
    | split
    | with_reducible refine kept_of_pair (by assumption) ?_
    | dsimp only

end Sys2Proof.Machine
end

