-- ==== Sys2Proof/Laws/Kept4.lean ====
section
/-!
SUPPORT. Laws/Kept4.lean: the operations of the machine keep the queue, the fuses, the clock, the outputs and the stores.
-/
namespace Sys2Proof.Machine

set_option linter.unusedSimpArgs false

variable {q : List Instr} {z : Fuses} {n : Nat} {o : List Output} {c : Prop}

theorem State.attnDrop_kept {s : State} (h : Kept q z n o c s) (x : AttnRun) : Kept q z n o c (State.attnDrop s x) := by
  unfold State.attnDrop
  repeat' first
    | with_reducible assumption
    | with_reducible apply State.forEach_kept
    | with_reducible apply State.modTable_kept
    | with_reducible apply State.freeLocal_kept
    | with_reducible apply kept_foldl
    | with_reducible apply kept_foldl_fst
    | with_reducible apply kept_else
    | with_reducible intro _
    | (simp only [↓kept_mk]; with_reducible apply kept_parts)
    | split
    | with_reducible refine kept_of_pair (by assumption) ?_
    | dsimp only

theorem State.findersAborted_kept {s : State} (h : Kept q z n o c s) (j : Job) : Kept q z n o c (State.findersAborted s j) := by
  unfold State.findersAborted
  repeat' first
    | with_reducible assumption
    | with_reducible apply State.forEach_kept
    | with_reducible apply State.complete_kept
    | with_reducible apply State.findAbort_kept
    | with_reducible apply kept_foldl
    | with_reducible apply kept_foldl_fst
    | with_reducible apply kept_else
    | with_reducible intro _
    | (simp only [↓kept_mk]; with_reducible apply kept_parts)
    | split
    | with_reducible refine kept_of_pair (by assumption) ?_
    | dsimp only

theorem State.abortJob_kept {s : State} (h : Kept q z n o c s) (n_ : Nat) (status : Nat) (idx : Nat) (reason : Nat) (again : Bool) : Kept q z n o c (State.abortJob s n_ status idx reason again) := by
  unfold State.abortJob
  repeat' first
    | with_reducible assumption
    | with_reducible apply State.findersAborted_kept
    | with_reducible apply State.forEach_kept
    | with_reducible apply State.attnDrop_kept
    | with_reducible apply State.trkAbort_kept
    | with_reducible apply State.raise_kept
    | with_reducible apply State.count_kept
    | with_reducible apply State.endJob_kept
    | with_reducible apply State.dropHolding_kept
    | with_reducible apply State.setWin_kept
    | with_reducible apply State.set_kept
    | with_reducible apply State.activate_kept
    | with_reducible apply State.modSlot_kept
    | with_reducible apply kept_foldl
    | with_reducible apply kept_foldl_fst
    | with_reducible apply kept_else
    | with_reducible intro _
    | (simp only [↓kept_mk]; with_reducible apply kept_parts)
    | split
    | with_reducible refine kept_of_pair (by assumption) ?_
    | dsimp only

theorem State.abortMem_kept {s : State} (h : Kept q z n o c s) (n_ : Nat) (idx : Nat) : Kept q z n o c (State.abortMem s n_ idx) := by
  unfold State.abortMem
  repeat' first
    | with_reducible assumption
    | with_reducible apply State.abortJob_kept
    | with_reducible apply kept_foldl
    | with_reducible apply kept_foldl_fst
    | with_reducible apply kept_else
    | with_reducible intro _
    | (simp only [↓kept_mk]; with_reducible apply kept_parts)
    | split
    | with_reducible refine kept_of_pair (by assumption) ?_
    | dsimp only

theorem State.abortRetired_kept {s : State} (h : Kept q z n o c s) (p : Nat) : Kept q z n o c (State.abortRetired s p) := by
  unfold State.abortRetired
  repeat' first
    | with_reducible assumption
    | with_reducible apply State.forEach_kept
    | with_reducible apply State.abortJob_kept
    | with_reducible apply kept_foldl
    | with_reducible apply kept_foldl_fst
    | with_reducible apply kept_else
    | with_reducible intro _
    | (simp only [↓kept_mk]; with_reducible apply kept_parts)
    | split
    | with_reducible refine kept_of_pair (by assumption) ?_
    | dsimp only

theorem State.cluRetire_kept {s : State} (h : Kept q z n o c s) (k : Nat) : Kept q z n o c (State.cluRetire s k) := by
  unfold State.cluRetire
  repeat' first
    | with_reducible assumption
    | with_reducible apply State.rerouted_kept
    | with_reducible apply State.set_kept
    | with_reducible apply State.raise_kept
    | with_reducible apply State.channelRetired_kept
    | with_reducible apply State.abortRetired_kept
    | with_reducible apply kept_foldl
    | with_reducible apply kept_foldl_fst
    | with_reducible apply kept_else
    | with_reducible intro _
    | (simp only [↓kept_mk]; with_reducible apply kept_parts)
    | split
    | with_reducible refine kept_of_pair (by assumption) ?_
    | dsimp only

theorem State.cluUpset_kept {s : State} (h : Kept q z n o c s) (k : Nat) : Kept q z n o c (State.cluUpset s k) := by
  unfold State.cluUpset
  repeat' first
    | with_reducible assumption
    | with_reducible apply State.addUpset_kept
    | with_reducible apply State.cluRetire_kept
    | with_reducible apply kept_foldl
    | with_reducible apply kept_foldl_fst
    | with_reducible apply kept_else
    | with_reducible intro _
    | (simp only [↓kept_mk]; with_reducible apply kept_parts)
    | split
    | with_reducible refine kept_of_pair (by assumption) ?_
    | dsimp only

theorem State.completeTile_kept {s : State} (h : Kept q z n o c s) (p : Nat) (seq : Nat) : Kept q z n o c (State.completeTile s p seq) := by
  unfold State.completeTile
  repeat' first
    | with_reducible assumption
    | with_reducible apply State.unitBad_kept
    | with_reducible apply State.abortMem_kept
    | with_reducible apply State.endTile_kept
    | with_reducible apply kept_foldl
    | with_reducible apply kept_foldl_fst
    | with_reducible apply kept_else
    | with_reducible intro _
    | (simp only [↓kept_mk]; with_reducible apply kept_parts)
    | split
    | with_reducible refine kept_of_pair (by assumption) ?_
    | dsimp only

theorem State.fawnDone_kept {s : State} (h : Kept q z n o c s)  : Kept q z n o c (State.fawnDone s) := by
  unfold State.fawnDone
  repeat' first
    | with_reducible assumption
    | with_reducible apply State.fawnDesc_kept
    | with_reducible apply State.abortMem_kept
    | with_reducible apply State.count_kept
    | with_reducible apply State.drain_kept
    | with_reducible apply kept_foldl
    | with_reducible apply kept_foldl_fst
    | with_reducible apply kept_else
    | with_reducible intro _
    | (simp only [↓kept_mk]; with_reducible apply kept_parts)
    | split
    | with_reducible refine kept_of_pair (by assumption) ?_
    | dsimp only

theorem State.beginSlice_kept {s : State} (h : Kept q z n o c s) (p : Nat) (n_ : Nat) : Kept q z n o c (State.beginSlice s p n_) := by
  unfold State.beginSlice
  repeat' first
    | with_reducible assumption
    | with_reducible apply State.modJob_kept
    | with_reducible apply State.modSched_kept
    | with_reducible apply State.beginStep_kept
    | with_reducible apply State.advance_kept
    | with_reducible apply State.drain_kept
    | with_reducible apply kept_foldl
    | with_reducible apply kept_foldl_fst
    | with_reducible apply kept_else
    | with_reducible intro _
    | (simp only [↓kept_mk]; with_reducible apply kept_parts)
    | split
    | with_reducible refine kept_of_pair (by assumption) ?_
    | dsimp only

theorem State.giveTurn_kept {s : State} (h : Kept q z n o c s) (p f : Nat) : Kept q z n o c (s.giveTurn p f).1 := by
  induction f generalizing s with
  | zero => exact h
  | succ f ih =>
    unfold State.giveTurn
    split
    · exact h
    · dsimp only
      split
      · exact ih (State.modJob_kept (State.modSched_kept h _ _) _ _)
      · exact State.modSched_kept h _ _

theorem State.schedule_kept {s : State} (h : Kept q z n o c s) (p : Nat) : Kept q z n o c (State.schedule s p) := by
  unfold State.schedule
  repeat' first
    | with_reducible assumption
    | with_reducible apply State.refreshReady_kept
    | with_reducible apply State.drain_kept
    | with_reducible apply State.beginStep_kept
    | with_reducible apply State.advance_kept
    | with_reducible apply State.beginSlice_kept
    | with_reducible apply State.giveTurn_kept
    | with_reducible apply State.modSched_kept
    | with_reducible apply kept_foldl
    | with_reducible apply kept_foldl_fst
    | with_reducible apply kept_else
    | with_reducible intro _
    | (simp only [↓kept_mk]; with_reducible apply kept_parts)
    | split
    | with_reducible refine kept_of_pair (by assumption) ?_
    | dsimp only

theorem State.saveJob_kept {s : State} (h : Kept q z n o c s) (p : Nat) (n_ : Nat) : Kept q z n o c (State.saveJob s p n_) := by
  unfold State.saveJob
  repeat' first
    | with_reducible assumption
    | with_reducible apply State.modJob_kept
    | with_reducible apply State.forEach_kept
    | with_reducible apply State.devWrite_kept
    | with_reducible apply State.jobLine_kept
    | with_reducible apply kept_foldl
    | with_reducible apply kept_foldl_fst
    | with_reducible apply kept_else
    | with_reducible intro _
    | (simp only [↓kept_mk]; with_reducible apply kept_parts)
    | split
    | with_reducible refine kept_of_pair (by assumption) ?_
    | dsimp only

theorem State.restoreJob_kept {s : State} (h : Kept q z n o c s) (p : Nat) (n_ : Nat) : Kept q z n o c (State.restoreJob s p n_) := by
  unfold State.restoreJob
  repeat' first
    | with_reducible assumption
    | with_reducible apply State.forEach_kept
    | with_reducible apply State.sramWrite_kept
    | with_reducible apply State.jobLine_kept
    | with_reducible apply kept_foldl
    | with_reducible apply kept_foldl_fst
    | with_reducible apply kept_else
    | with_reducible intro _
    | (simp only [↓kept_mk]; with_reducible apply kept_parts)
    | split
    | with_reducible refine kept_of_pair (by assumption) ?_
    | dsimp only

theorem State.switchDone_kept {s : State} (h : Kept q z n o c s) (p : Nat) : Kept q z n o c (State.switchDone s p) := by
  unfold State.switchDone
  repeat' first
    | with_reducible assumption
    | with_reducible apply State.saveJob_kept
    | with_reducible apply State.restoreJob_kept
    | with_reducible apply State.pmc_kept
    | with_reducible apply State.beginSlice_kept
    | with_reducible apply kept_foldl
    | with_reducible apply kept_foldl_fst
    | with_reducible apply kept_else
    | with_reducible intro _
    | (simp only [↓kept_mk]; with_reducible apply kept_parts)
    | split
    | with_reducible refine kept_of_pair (by assumption) ?_
    | dsimp only

theorem State.sliceEnds_kept {s : State} (h : Kept q z n o c s) (p : Nat) : Kept q z n o c (State.sliceEnds s p) := by
  unfold State.sliceEnds
  repeat' first
    | with_reducible assumption
    | with_reducible apply State.refreshReady_kept
    | with_reducible apply State.modSched_kept
    | with_reducible apply State.drain_kept
    | with_reducible apply State.modJob_kept
    | with_reducible apply kept_foldl
    | with_reducible apply kept_foldl_fst
    | with_reducible apply kept_else
    | with_reducible intro _
    | (simp only [↓kept_mk]; with_reducible apply kept_parts)
    | split
    | with_reducible refine kept_of_pair (by assumption) ?_
    | dsimp only

theorem State.watchdogAbort_kept {s : State} (h : Kept q z n o c s) (p : Nat) : Kept q z n o c (State.watchdogAbort s p) := by
  unfold State.watchdogAbort
  repeat' first
    | with_reducible assumption
    | with_reducible apply State.abortJob_kept
    | with_reducible apply kept_foldl
    | with_reducible apply kept_foldl_fst
    | with_reducible apply kept_else
    | with_reducible intro _
    | (simp only [↓kept_mk]; with_reducible apply kept_parts)
    | split
    | with_reducible refine kept_of_pair (by assumption) ?_
    | dsimp only

theorem State.sqRun_kept {s : State} (h : Kept q z n o c s) (p : Nat) (q_ : Nat) (e : Nat) : Kept q z n o c (State.sqRun s p q_ e) := by
  unfold State.sqRun
  repeat' first
    | with_reducible assumption
    | with_reducible apply State.sqFetched_kept
    | with_reducible apply State.sqRefuse_kept
    | with_reducible apply State.sqTake_kept
    | with_reducible apply kept_foldl
    | with_reducible apply kept_foldl_fst
    | with_reducible apply kept_else
    | with_reducible intro _
    | (simp only [↓kept_mk]; with_reducible apply kept_parts)
    | split
    | with_reducible refine kept_of_pair (by assumption) ?_
    | dsimp only

theorem State.stopJob_kept {s : State} (h : Kept q z n o c s) (p : Nat) (q_ : Nat) (e : Nat) (j : Job) : Kept q z n o c (State.stopJob s p q_ e j) := by
  unfold State.stopJob
  repeat' first
    | with_reducible assumption
    | with_reducible apply State.completion_kept
    | with_reducible apply State.modJob_kept
    | with_reducible apply State.abortJob_kept
    | with_reducible apply State.endJob_kept
    | with_reducible apply State.endStream_kept
    | with_reducible apply State.set_kept
    | with_reducible apply kept_foldl
    | with_reducible apply kept_foldl_fst
    | with_reducible apply kept_else
    | with_reducible intro _
    | (simp only [↓kept_mk]; with_reducible apply kept_parts)
    | split
    | with_reducible refine kept_of_pair (by assumption) ?_
    | dsimp only

theorem State.sqStop_kept {s : State} (h : Kept q z n o c s) (p : Nat) (q_ : Nat) (e : Nat) : Kept q z n o c (State.sqStop s p q_ e) := by
  unfold State.sqStop
  repeat' first
    | with_reducible assumption
    | with_reducible apply State.sqFetched_kept
    | with_reducible apply State.sqRefuse_kept
    | with_reducible apply State.stopJob_kept
    | with_reducible apply kept_foldl
    | with_reducible apply kept_foldl_fst
    | with_reducible apply kept_else
    | with_reducible intro _
    | (simp only [↓kept_mk]; with_reducible apply kept_parts)
    | split
    | with_reducible refine kept_of_pair (by assumption) ?_
    | dsimp only

theorem State.sqFence_kept {s : State} (h : Kept q z n o c s) (p : Nat) (q_ : Nat) (e : Nat) : Kept q z n o c (State.sqFence s p q_ e) := by
  unfold State.sqFence
  repeat' first
    | with_reducible assumption
    | with_reducible apply State.sqFetched_kept
    | with_reducible apply State.sqRefuse_kept
    | with_reducible apply State.sqTake_kept
    | with_reducible apply kept_foldl
    | with_reducible apply kept_foldl_fst
    | with_reducible apply kept_else
    | with_reducible intro _
    | (simp only [↓kept_mk]; with_reducible apply kept_parts)
    | split
    | with_reducible refine kept_of_pair (by assumption) ?_
    | dsimp only

theorem State.sqUnknown_kept {s : State} (h : Kept q z n o c s) (p : Nat) (q_ : Nat) (e : Nat) : Kept q z n o c (State.sqUnknown s p q_ e) := by
  unfold State.sqUnknown
  repeat' first
    | with_reducible assumption
    | with_reducible apply State.sqFetched_kept
    | with_reducible apply State.sqRefuse_kept
    | with_reducible apply kept_foldl
    | with_reducible apply kept_foldl_fst
    | with_reducible apply kept_else
    | with_reducible intro _
    | (simp only [↓kept_mk]; with_reducible apply kept_parts)
    | split
    | with_reducible refine kept_of_pair (by assumption) ?_
    | dsimp only

theorem State.sqReadFails_kept {s : State} (h : Kept q z n o c s) (p : Nat) (q_ : Nat) : Kept q z n o c (State.sqReadFails s p q_) := by
  unfold State.sqReadFails
  repeat' first
    | with_reducible assumption
    | with_reducible apply State.sqError_kept
    | with_reducible apply kept_foldl
    | with_reducible apply kept_foldl_fst
    | with_reducible apply kept_else
    | with_reducible intro _
    | (simp only [↓kept_mk]; with_reducible apply kept_parts)
    | split
    | with_reducible refine kept_of_pair (by assumption) ?_
    | dsimp only

theorem State.cqTimer_kept {s : State} (h : Kept q z n o c s) (p : Nat) (c_ : Nat) : Kept q z n o c (State.cqTimer s p c_) := by
  unfold State.cqTimer
  repeat' first
    | with_reducible assumption
    | with_reducible apply State.cqMessage_kept
    | with_reducible apply kept_foldl
    | with_reducible apply kept_foldl_fst
    | with_reducible apply kept_else
    | with_reducible intro _
    | (simp only [↓kept_mk]; with_reducible apply kept_parts)
    | split
    | with_reducible refine kept_of_pair (by assumption) ?_
    | dsimp only

theorem State.planGo_kept {s : State} (h : Kept q z n o c s) (p : Nat) (k : Nat) (hold : Bool) : Kept q z n o c (State.planGo s p k hold) := by
  unfold State.planGo
  repeat' first
    | with_reducible assumption
    | with_reducible apply State.set_kept
    | with_reducible apply State.modSlot_kept
    | with_reducible apply kept_foldl
    | with_reducible apply kept_foldl_fst
    | with_reducible apply kept_else
    | with_reducible intro _
    | (simp only [↓kept_mk]; with_reducible apply kept_parts)
    | split
    | with_reducible refine kept_of_pair (by assumption) ?_
    | dsimp only

theorem State.planChecked_kept {s : State} (h : Kept q z n o c s) (p : Nat) (k : Nat) : Kept q z n o c (State.planChecked s p k) := by
  unfold State.planChecked
  repeat' first
    | with_reducible assumption
    | with_reducible apply State.consumeBad_kept
    | with_reducible apply State.modSlot_kept
    | with_reducible apply State.set_kept
    | with_reducible apply State.raise_kept
    | with_reducible apply kept_foldl
    | with_reducible apply kept_foldl_fst
    | with_reducible apply kept_else
    | with_reducible intro _
    | (simp only [↓kept_mk]; with_reducible apply kept_parts)
    | split
    | with_reducible refine kept_of_pair (by assumption) ?_
    | dsimp only

theorem State.releaseLoads_kept {s : State} (h : Kept q z n o c s) (p : Nat) : Kept q z n o c (State.releaseLoads s p) := by
  unfold State.releaseLoads
  repeat' first
    | with_reducible assumption
    | with_reducible apply State.forEach_kept
    | with_reducible apply State.modSlot_kept
    | with_reducible apply kept_foldl
    | with_reducible apply kept_foldl_fst
    | with_reducible apply kept_else
    | with_reducible intro _
    | (simp only [↓kept_mk]; with_reducible apply kept_parts)
    | split
    | with_reducible refine kept_of_pair (by assumption) ?_
    | dsimp only

theorem State.planUnload_kept {s : State} (h : Kept q z n o c s) (fn : Nat) (p : Nat) (k : Nat) (off : Nat) : Kept q z n o c (State.planUnload s fn p k off) := by
  unfold State.planUnload
  repeat' first
    | with_reducible assumption
    | with_reducible apply State.code_kept
    | with_reducible apply State.modSlot_kept
    | with_reducible apply State.set_kept
    | with_reducible apply State.emptySlot_kept
    | with_reducible apply kept_foldl
    | with_reducible apply kept_foldl_fst
    | with_reducible apply kept_else
    | with_reducible intro _
    | (simp only [↓kept_mk]; with_reducible apply kept_parts)
    | split
    | with_reducible refine kept_of_pair (by assumption) ?_
    | dsimp only

theorem State.partWrite_kept {s t : State} (h : Kept q z n o c s) (ht : Kept q z n o c t) (fn p off : Nat) :
    Kept q z n o c (s.partWrite fn p off t) := by
  unfold State.partWrite
  split
  · exact ht
  · split
    · exact State.code_kept h _ _ _ _
    · exact ht

theorem State.pageWrite_kept {s : State} (h : Kept q z n o c s) (p : Nat) (q_ : Nat) (page : Nat) (off : Nat) (bs : List Nat) : Kept q z n o c (State.pageWrite s p q_ page off bs) := by
  unfold State.pageWrite
  repeat' first
    | with_reducible assumption
    | with_reducible apply State.devWrite_kept
    | with_reducible apply State.forEach_kept
    | with_reducible apply State.jobLine_kept
    | with_reducible apply kept_foldl
    | with_reducible apply kept_foldl_fst
    | with_reducible apply kept_else
    | with_reducible intro _
    | (simp only [↓kept_mk]; with_reducible apply kept_parts)
    | split
    | with_reducible refine kept_of_pair (by assumption) ?_
    | dsimp only

theorem State.newEntry_kept {s : State} (h : Kept q z n o c s) (q_ : Nat) (a : BoxAcc) : Kept q z n o c (State.newEntry s q_ a).1 := by
  unfold State.newEntry
  repeat' first
    | with_reducible assumption
    | with_reducible apply State.takeHome_kept
    | with_reducible apply State.takeLocal_kept
    | with_reducible apply kept_foldl
    | with_reducible apply kept_foldl_fst
    | with_reducible apply kept_else
    | with_reducible intro _
    | (simp only [↓kept_mk]; with_reducible apply kept_parts)
    | split
    | with_reducible refine kept_of_pair (by assumption) ?_
    | dsimp only

theorem State.openPage_kept {s : State} (h : Kept q z n o c s) (e : Env) (d : Nat) (q_ : Nat) (b : Nat) (tok : Nat) (hi : Nat) (box : List Nat) (a : BoxAcc) : Kept q z n o c (State.openPage s e d q_ b tok hi box a).1 := by
  unfold State.openPage
  repeat' first
    | with_reducible assumption
    | with_reducible apply State.pageWrite_kept
    | with_reducible apply kept_foldl
    | with_reducible apply kept_foldl_fst
    | with_reducible apply kept_else
    | with_reducible intro _
    | (simp only [↓kept_mk]; with_reducible apply kept_parts)
    | split
    | with_reducible refine kept_of_pair (by assumption) ?_
    | dsimp only

theorem State.storeToken_kept {s : State} (h : Kept q z n o c s) (e : Env) (d : Nat) (q_ : Nat) (b : Nat) (tok : Nat) (index : Nat) (box : List Nat) (a : BoxAcc) : Kept q z n o c (State.storeToken s e d q_ b tok index box a).1 := by
  unfold State.storeToken
  repeat' first
    | with_reducible assumption
    | with_reducible apply State.pageWrite_kept
    | with_reducible apply State.count_kept
    | with_reducible apply kept_foldl
    | with_reducible apply kept_foldl_fst
    | with_reducible apply kept_else
    | with_reducible intro _
    | (simp only [↓kept_mk]; with_reducible apply kept_parts)
    | split
    | with_reducible refine kept_of_pair (by assumption) ?_
    | dsimp only

theorem State.cutTable_kept {s : State} (h : Kept q z n o c s) (q_ : Nat) (ev : Nat) (a : BoxAcc) : Kept q z n o c (State.cutTable s q_ ev a).1 := by
  unfold State.cutTable
  repeat' first
    | with_reducible assumption
    | with_reducible apply State.raise_kept
    | with_reducible apply kept_foldl
    | with_reducible apply kept_foldl_fst
    | with_reducible apply kept_else
    | with_reducible intro _
    | (simp only [↓kept_mk]; with_reducible apply kept_parts)
    | split
    | with_reducible refine kept_of_pair (by assumption) ?_
    | dsimp only

theorem State.appendToken_kept {s : State} (h : Kept q z n o c s) (e : Env) (d : Nat) (q_ : Nat) (b : Nat) (w : Nat) (box : List Nat) (a : BoxAcc) (tok : Nat) : Kept q z n o c (State.appendToken s e d q_ b w box a tok).1 := by
  unfold State.appendToken
  repeat' first
    | with_reducible assumption
    | with_reducible apply State.count_kept
    | with_reducible apply State.storeToken_kept
    | with_reducible apply State.cutTable_kept
    | with_reducible apply State.newEntry_kept
    | with_reducible apply State.openPage_kept
    | with_reducible apply kept_foldl
    | with_reducible apply kept_foldl_fst
    | with_reducible apply kept_else
    | with_reducible intro _
    | (simp only [↓kept_mk]; with_reducible apply kept_parts)
    | split
    | with_reducible refine kept_of_pair (by assumption) ?_
    | dsimp only

theorem State.boxStored_kept {s : State} (h : Kept q z n o c s) (e : Env) (q_ : Nat) (w : Nat) (a : BoxAcc) : Kept q z n o c (State.boxStored s e q_ w a).1 := by
  unfold State.boxStored
  repeat' first
    | with_reducible assumption
    | with_reducible apply State.forEach_kept
    | with_reducible apply State.pageWrite_kept
    | with_reducible apply State.peerSend_kept
    | with_reducible apply State.modPool_kept
    | with_reducible apply State.reapPushes_kept
    | with_reducible apply kept_foldl
    | with_reducible apply kept_foldl_fst
    | with_reducible apply kept_else
    | with_reducible intro _
    | (simp only [↓kept_mk]; with_reducible apply kept_parts)
    | split
    | with_reducible refine kept_of_pair (by assumption) ?_
    | dsimp only

theorem State.boxCut_kept {s : State} (h : Kept q z n o c s) (q_ : Nat) (old : Nat) (a : BoxAcc) : Kept q z n o c (State.boxCut s q_ old a).1 := by
  unfold State.boxCut
  repeat' first
    | with_reducible assumption
    | with_reducible apply State.forEach_kept
    | with_reducible apply State.freeLocal_kept
    | with_reducible apply kept_foldl
    | with_reducible apply kept_foldl_fst
    | with_reducible apply kept_else
    | with_reducible intro _
    | (simp only [↓kept_mk]; with_reducible apply kept_parts)
    | split
    | with_reducible refine kept_of_pair (by assumption) ?_
    | dsimp only

theorem State.skipBox_kept {s : State} (h : Kept q z n o c s) (box : List Nat) : Kept q z n o c (State.skipBox s box) := by
  unfold State.skipBox
  repeat' first
    | with_reducible assumption
    | with_reducible apply State.count_kept
    | with_reducible apply kept_foldl
    | with_reducible apply kept_foldl_fst
    | with_reducible apply kept_else
    | with_reducible intro _
    | (simp only [↓kept_mk]; with_reducible apply kept_parts)
    | split
    | with_reducible refine kept_of_pair (by assumption) ?_
    | dsimp only

theorem State.appendBox_kept {s : State} (h : Kept q z n o c s) (e : Env) (d : Nat) (b : Nat) : Kept q z n o c (State.appendBox s e d b).1 := by
  unfold State.appendBox
  repeat' first
    | with_reducible assumption
    | with_reducible apply State.skipBox_kept
    | with_reducible apply State.count_kept
    | with_reducible apply State.raise_kept
    | with_reducible apply State.appendToken_kept
    | with_reducible apply State.boxStored_kept
    | with_reducible apply State.boxCut_kept
    | with_reducible apply State.modTable_kept
    | with_reducible apply kept_foldl
    | with_reducible apply kept_foldl_fst
    | with_reducible apply kept_else
    | with_reducible intro _
    | (simp only [↓kept_mk]; with_reducible apply kept_parts)
    | split
    | with_reducible refine kept_of_pair (by assumption) ?_
    | dsimp only

theorem State.toIssue_some {s t : State} {p op : Nat} {j : Job} {P : Plan} {r : StepRun} {x : DescRun} (h : Kept q z n o c s)
    (e : s.toIssue p op = some (t, j, P, r, x)) : Kept q z n o c t := by
  unfold State.toIssue at e
  dsimp only at e
  repeat' (split at e)
  all_goals first
    | (cases e; done)
    | (simp only [Option.bind_eq_some_iff, Option.map_eq_some_iff, Prod.mk.injEq] at e
       obtain ⟨w, hw, cc, -, rfl, -⟩ := e
       refine State.modDesc_kept (State.firstUnit_some ?_ hw) _ _ _
       repeat' first
         | exact h
         | with_reducible apply State.advance_kept
         | with_reducible apply State.beginStep_kept
         | split)

theorem State.requestReads_kept {s : State} (h : Kept q z n o c s) (e : Env) (r : StepRun) (d : Nat) (x : DescRun) : Kept q z n o c (State.requestReads s e r d x) := by
  unfold State.requestReads
  repeat' first
    | with_reducible assumption
    | with_reducible apply State.forEach_kept
    | with_reducible apply State.jobLine_kept
    | with_reducible apply kept_foldl
    | with_reducible apply kept_foldl_fst
    | with_reducible apply kept_else
    | with_reducible intro _
    | (simp only [↓kept_mk]; with_reducible apply kept_parts)
    | split
    | with_reducible refine kept_of_pair (by assumption) ?_
    | dsimp only

theorem State.kvAppend_kept {s : State} (h : Kept q z n o c s) (p : Nat) : Kept q z n o c (State.kvAppend s p) := by
  unfold State.kvAppend
  repeat' first
    | with_reducible assumption
    | with_reducible apply State.toIssue_kept
    | with_reducible apply State.requestReads_kept
    | with_reducible apply State.unitBad_kept
    | with_reducible apply State.abortMem_kept
    | with_reducible apply State.appendBox_kept
    | with_reducible apply State.unitDone_kept
    | with_reducible apply kept_foldl
    | with_reducible apply kept_foldl_fst
    | with_reducible apply kept_else
    | with_reducible intro _
    | (simp only [↓kept_mk]; with_reducible apply kept_parts)
    | split
    | with_reducible refine State.toIssue_some ?_ (by assumption)
    | with_reducible refine kept_of_pair (by assumption) ?_
    | dsimp only

theorem State.pageRead_kept {s : State} (h : Kept q z n o c s) (n_ : Nat) (idx : Nat) (d : Nat) (q_ : Nat) (page : Nat) (img : List Nat) : Kept q z n o c (State.pageRead s n_ idx d q_ page img).1 := by
  unfold State.pageRead
  repeat' first
    | with_reducible assumption
    | with_reducible apply State.modJob_kept
    | with_reducible apply State.raise_kept
    | with_reducible apply State.count_kept
    | with_reducible apply kept_foldl
    | with_reducible apply kept_foldl_fst
    | with_reducible apply kept_else
    | with_reducible intro _
    | (simp only [↓kept_mk]; with_reducible apply kept_parts)
    | split
    | with_reducible refine kept_of_pair (by assumption) ?_
    | dsimp only

theorem State.modAttn_kept {s : State} (h : Kept q z n o c s) (which : AttnRun → Bool) (f : AttnRun → AttnRun) : Kept q z n o c (State.modAttn s which f) := by
  unfold State.modAttn
  repeat' first
    | with_reducible assumption
    | with_reducible apply kept_foldl
    | with_reducible apply kept_foldl_fst
    | with_reducible apply kept_else
    | with_reducible intro _
    | (simp only [↓kept_mk]; with_reducible apply kept_parts)
    | split
    | with_reducible refine kept_of_pair (by assumption) ?_
    | dsimp only

theorem State.giveUnits_kept {s : State} (h : Kept q z n o c s)  : Kept q z n o c (State.giveUnits s) := by
  unfold State.giveUnits
  repeat' first
    | with_reducible assumption
    | with_reducible apply State.forEach_kept
    | with_reducible apply State.modAttn_kept
    | with_reducible apply kept_foldl
    | with_reducible apply kept_foldl_fst
    | with_reducible apply kept_else
    | with_reducible intro _
    | (simp only [↓kept_mk]; with_reducible apply kept_parts)
    | split
    | with_reducible refine kept_of_pair (by assumption) ?_
    | dsimp only

theorem State.sendReqs_kept {s : State} (h : Kept q z n o c s)  : Kept q z n o c (State.sendReqs s) := by
  unfold State.sendReqs
  repeat' first
    | with_reducible assumption
    | with_reducible apply State.forEach_kept
    | with_reducible apply State.takeLocal_kept
    | with_reducible apply State.modAttn_kept
    | with_reducible apply State.peerSend_kept
    | with_reducible apply kept_foldl
    | with_reducible apply kept_foldl_fst
    | with_reducible apply kept_else
    | with_reducible intro _
    | (simp only [↓kept_mk]; with_reducible apply kept_parts)
    | split
    | with_reducible refine kept_of_pair (by assumption) ?_
    | dsimp only

theorem State.readBox_kept {s : State} (h : Kept q z n o c s) (e : Env) (n_ : Nat) (idx : Nat) (d : Nat) (i : Nat) : Kept q z n o c (State.readBox s e n_ idx d i).1 := by
  unfold State.readBox
  repeat' first
    | with_reducible assumption
    | with_reducible apply State.skipBox_kept
    | with_reducible apply State.raise_kept
    | with_reducible apply State.modTable_kept
    | with_reducible apply State.forEach_kept
    | with_reducible apply State.jobLine_kept
    | with_reducible apply State.consumeBad_kept
    | with_reducible apply State.pageRead_kept
    | with_reducible apply kept_foldl
    | with_reducible apply kept_foldl_fst
    | with_reducible apply kept_else
    | with_reducible intro _
    | (simp only [↓kept_mk]; with_reducible apply kept_parts)
    | split
    | with_reducible refine kept_of_pair (by assumption) ?_
    | dsimp only

theorem State.attnWrite_kept {s : State} (h : Kept q z n o c s) (a : AttnRun) : Kept q z n o c (State.attnWrite s a) := by
  unfold State.attnWrite
  repeat' first
    | with_reducible assumption
    | with_reducible apply State.attnDrop_kept
    | with_reducible apply State.count_kept
    | with_reducible apply State.putTile_kept
    | with_reducible apply State.unitDone_kept
    | with_reducible apply kept_foldl
    | with_reducible apply kept_foldl_fst
    | with_reducible apply kept_else
    | with_reducible intro _
    | (simp only [↓kept_mk]; with_reducible apply kept_parts)
    | split
    | with_reducible refine kept_of_pair (by assumption) ?_
    | dsimp only

theorem State.readBoxes_kept {s : State} (h : Kept q z n o c s) (e : Env) (no : Nat) (idx : Nat) (d : Nat) (n_ : Nat) (bad : Bool) : Kept q z n o c (State.readBoxes s e no idx d n_ bad).1 := by
  unfold State.readBoxes
  repeat' first
    | with_reducible assumption
    | with_reducible apply State.readBox_kept
    | with_reducible apply kept_foldl
    | with_reducible apply kept_foldl_fst
    | with_reducible apply kept_else
    | with_reducible intro _
    | (simp only [↓kept_mk]; with_reducible apply kept_parts)
    | split
    | with_reducible refine kept_of_pair (by assumption) ?_
    | dsimp only

theorem State.attnStart_kept {s : State} (h : Kept q z n o c s) (a : AttnRun) (bad : Bool) : Kept q z n o c (State.attnStart s a bad) := by
  unfold State.attnStart
  repeat' first
    | with_reducible assumption
    | with_reducible apply State.abortMem_kept
    | with_reducible apply State.attnWrite_kept
    | with_reducible apply State.sendReqs_kept
    | with_reducible apply State.giveUnits_kept
    | with_reducible apply kept_foldl
    | with_reducible apply kept_foldl_fst
    | with_reducible apply kept_else
    | with_reducible intro _
    | (simp only [↓kept_mk]; with_reducible apply kept_parts)
    | split
    | with_reducible refine kept_of_pair (by assumption) ?_
    | dsimp only

theorem State.attnIssue_kept {s : State} (h : Kept q z n o c s) (p : Nat) : Kept q z n o c (State.attnIssue s p) := by
  unfold State.attnIssue
  repeat' first
    | with_reducible assumption
    | with_reducible apply State.toIssue_kept
    | with_reducible apply State.requestReads_kept
    | with_reducible apply State.unitBad_kept
    | with_reducible apply State.readBoxes_kept
    | with_reducible apply State.forEach_kept
    | with_reducible apply State.skipBox_kept
    | with_reducible apply State.attnStart_kept
    | with_reducible apply kept_foldl
    | with_reducible apply kept_foldl_fst
    | with_reducible apply kept_else
    | with_reducible intro _
    | (simp only [↓kept_mk]; with_reducible apply kept_parts)
    | split
    | with_reducible refine State.toIssue_some ?_ (by assumption)
    | with_reducible refine kept_of_pair (by assumption) ?_
    | dsimp only

theorem State.unitEnds_kept {s : State} (h : Kept q z n o c s) (k : Nat) : Kept q z n o c (State.unitEnds s k) := by
  unfold State.unitEnds
  repeat' first
    | with_reducible assumption
    | with_reducible apply State.modAttn_kept
    | with_reducible apply State.count_kept
    | with_reducible apply State.pmc_kept
    | with_reducible apply State.attnWrite_kept
    | with_reducible apply State.drain_kept
    | with_reducible apply State.sendReqs_kept
    | with_reducible apply State.giveUnits_kept
    | with_reducible apply kept_foldl
    | with_reducible apply kept_foldl_fst
    | with_reducible apply kept_else
    | with_reducible intro _
    | (simp only [↓kept_mk]; with_reducible apply kept_parts)
    | split
    | with_reducible refine kept_of_pair (by assumption) ?_
    | dsimp only

theorem State.pageMissing_kept {s : State} (h : Kept q z n o c s) (a : AttnRun) (q_ : PageReq) : Kept q z n o c (State.pageMissing s a q_) := by
  unfold State.pageMissing
  repeat' first
    | with_reducible assumption
    | with_reducible apply State.modAttn_kept
    | with_reducible apply State.raise_kept
    | with_reducible apply State.count_kept
    | with_reducible apply kept_foldl
    | with_reducible apply kept_foldl_fst
    | with_reducible apply kept_else
    | with_reducible intro _
    | (simp only [↓kept_mk]; with_reducible apply kept_parts)
    | split
    | with_reducible refine kept_of_pair (by assumption) ?_
    | dsimp only

theorem State.pageReply_kept {s : State} (h : Kept q z n o c s) (a : AttnRun) (q_ : PageReq) (img : List Nat) : Kept q z n o c (State.pageReply s a q_ img) := by
  unfold State.pageReply
  repeat' first
    | with_reducible assumption
    | with_reducible apply State.pageMissing_kept
    | with_reducible apply State.pageWrite_kept
    | with_reducible apply State.pageRead_kept
    | with_reducible apply State.modAttn_kept
    | with_reducible apply kept_foldl
    | with_reducible apply kept_foldl_fst
    | with_reducible apply kept_else
    | with_reducible intro _
    | (simp only [↓kept_mk]; with_reducible apply kept_parts)
    | split
    | with_reducible refine kept_of_pair (by assumption) ?_
    | dsimp only

theorem State.kvPage_kept {s : State} (h : Kept q z n o c s) (g : Nat) (m : PeerMsg) : Kept q z n o c (State.kvPage s g m) := by
  unfold State.kvPage
  repeat' first
    | with_reducible assumption
    | with_reducible apply State.pageReply_kept
    | with_reducible apply State.sendReqs_kept
    | with_reducible apply State.count_kept
    | with_reducible apply State.devWriteFor_kept
    | with_reducible apply State.modPool_kept
    | with_reducible apply kept_foldl
    | with_reducible apply kept_foldl_fst
    | with_reducible apply kept_else
    | with_reducible intro _
    | (simp only [↓kept_mk]; with_reducible apply kept_parts)
    | split
    | with_reducible refine kept_of_pair (by assumption) ?_
    | dsimp only

theorem State.kvReq_kept {s : State} (h : Kept q z n o c s) (g : Nat) (m : PeerMsg) : Kept q z n o c (State.kvReq s g m) := by
  unfold State.kvReq
  repeat' first
    | with_reducible assumption
    | with_reducible apply State.count_kept
    | with_reducible apply State.peerSend_kept
    | with_reducible apply State.countRd_kept
    | with_reducible apply State.consumeBad_kept
    | with_reducible apply kept_foldl
    | with_reducible apply kept_foldl_fst
    | with_reducible apply kept_else
    | with_reducible intro _
    | (simp only [↓kept_mk]; with_reducible apply kept_parts)
    | split
    | with_reducible refine kept_of_pair (by assumption) ?_
    | dsimp only

theorem State.peerReadTimeout_kept {s : State} (h : Kept q z n o c s)  : Kept q z n o c (State.peerReadTimeout s) := by
  unfold State.peerReadTimeout
  repeat' first
    | with_reducible assumption
    | with_reducible apply State.pageMissing_kept
    | with_reducible apply kept_foldl
    | with_reducible apply kept_foldl_fst
    | with_reducible apply kept_else
    | with_reducible intro _
    | (simp only [↓kept_mk]; with_reducible apply kept_parts)
    | split
    | with_reducible refine kept_of_pair (by assumption) ?_
    | dsimp only

theorem State.cacheFill_kept {s : State} (h : Kept q z n o c s) (p : Nat) (job : Nat) (d : DecImage) : Kept q z n o c (State.cacheFill s p job d) := by
  unfold State.cacheFill
  repeat' first
    | with_reducible assumption
    | with_reducible apply State.devWriteFor_kept
    | with_reducible apply kept_foldl
    | with_reducible apply kept_foldl_fst
    | with_reducible apply kept_else
    | with_reducible intro _
    | (simp only [↓kept_mk]; with_reducible apply kept_parts)
    | split
    | with_reducible refine kept_of_pair (by assumption) ?_
    | dsimp only

theorem State.cacheCommit_kept {s : State} (h : Kept q z n o c s) (p : Nat) (job : Nat) (entries : List (List Nat)) : Kept q z n o c (State.cacheCommit s p job entries) := by
  unfold State.cacheCommit
  repeat' first
    | with_reducible assumption
    | with_reducible apply State.forEach_kept
    | with_reducible apply State.devWriteFor_kept
    | with_reducible apply kept_foldl
    | with_reducible apply kept_foldl_fst
    | with_reducible apply kept_else
    | with_reducible intro _
    | (simp only [↓kept_mk]; with_reducible apply kept_parts)
    | split
    | with_reducible refine kept_of_pair (by assumption) ?_
    | dsimp only

theorem State.cacheFlush_kept {s : State} (h : Kept q z n o c s)  : Kept q z n o c (State.cacheFlush s) := by
  unfold State.cacheFlush
  repeat' first
    | with_reducible assumption
    | with_reducible apply State.forEach_kept
    | with_reducible apply State.devWriteFor_kept
    | with_reducible apply kept_foldl
    | with_reducible apply kept_foldl_fst
    | with_reducible apply kept_else
    | with_reducible intro _
    | (simp only [↓kept_mk]; with_reducible apply kept_parts)
    | split
    | with_reducible refine kept_of_pair (by assumption) ?_
    | dsimp only

theorem State.modDec_kept {s : State} (h : Kept q z n o c s) (x : DecFetch) (f : DecFetch → DecFetch) : Kept q z n o c (State.modDec s x f) := by
  unfold State.modDec
  repeat' first
    | with_reducible assumption
    | with_reducible apply kept_foldl
    | with_reducible apply kept_foldl_fst
    | with_reducible apply kept_else
    | with_reducible intro _
    | (simp only [↓kept_mk]; with_reducible apply kept_parts)
    | split
    | with_reducible refine kept_of_pair (by assumption) ?_
    | dsimp only

theorem State.giveSlots_kept {s : State} (h : Kept q z n o c s)  : Kept q z n o c (State.giveSlots s) := by
  unfold State.giveSlots
  repeat' first
    | with_reducible assumption
    | with_reducible apply State.forEach_kept
    | with_reducible apply State.modDec_kept
    | with_reducible apply kept_foldl
    | with_reducible apply kept_foldl_fst
    | with_reducible apply kept_else
    | with_reducible intro _
    | (simp only [↓kept_mk]; with_reducible apply kept_parts)
    | split
    | with_reducible refine kept_of_pair (by assumption) ?_
    | dsimp only

theorem State.decFetch_kept {s : State} (h : Kept q z n o c s) (p : Nat) : Kept q z n o c (State.decFetch s p) := by
  unfold State.decFetch
  repeat' first
    | with_reducible assumption
    | with_reducible apply State.toIssue_kept
    | with_reducible apply State.forEach_kept
    | with_reducible apply State.jobLine_kept
    | with_reducible apply State.ueFound_kept
    | with_reducible apply State.abortMem_kept
    | with_reducible apply State.giveSlots_kept
    | with_reducible apply kept_foldl
    | with_reducible apply kept_foldl_fst
    | with_reducible apply kept_else
    | with_reducible intro _
    | (simp only [↓kept_mk]; with_reducible apply kept_parts)
    | split
    | with_reducible refine State.toIssue_some ?_ (by assumption)
    | with_reducible refine kept_of_pair (by assumption) ?_
    | dsimp only

theorem State.sampleDecoded_kept {s : State} (h : Kept q z n o c s) (k : Nat) : Kept q z n o c (State.sampleDecoded s k) := by
  unfold State.sampleDecoded
  repeat' first
    | with_reducible assumption
    | with_reducible apply State.modDec_kept
    | with_reducible apply State.giveSlots_kept
    | with_reducible apply State.forEach_kept
    | with_reducible apply State.jobLine_kept
    | with_reducible apply State.ueFound_kept
    | with_reducible apply State.abortMem_kept
    | with_reducible apply State.count_kept
    | with_reducible apply State.pmc_kept
    | with_reducible apply kept_foldl
    | with_reducible apply kept_foldl_fst
    | with_reducible apply kept_else
    | with_reducible intro _
    | (simp only [↓kept_mk]; with_reducible apply kept_parts)
    | split
    | with_reducible refine kept_of_pair (by assumption) ?_
    | dsimp only

theorem State.sampleEvents_kept {s : State} (h : Kept q z n o c s) (job : Nat) (slot : Nat) (img : DecImage) : Kept q z n o c (State.sampleEvents s job slot img) := by
  unfold State.sampleEvents
  repeat' first
    | with_reducible assumption
    | with_reducible apply State.count_kept
    | with_reducible apply State.raise_kept
    | with_reducible apply kept_foldl
    | with_reducible apply kept_foldl_fst
    | with_reducible apply kept_else
    | with_reducible intro _
    | (simp only [↓kept_mk]; with_reducible apply kept_parts)
    | split
    | with_reducible refine kept_of_pair (by assumption) ?_
    | dsimp only

theorem State.deliver_kept {s : State} (h : Kept q z n o c s) (x : DecFetch) (img : DecImage) : Kept q z n o c (State.deliver s x img) := by
  unfold State.deliver
  repeat' first
    | with_reducible assumption
    | with_reducible apply State.putTile_kept
    | with_reducible apply State.cacheFill_kept
    | with_reducible apply State.sampleEvents_kept
    | with_reducible apply State.modDec_kept
    | with_reducible apply State.giveSlots_kept
    | with_reducible apply State.unitDone_kept
    | with_reducible apply kept_foldl
    | with_reducible apply kept_foldl_fst
    | with_reducible apply kept_else
    | with_reducible intro _
    | (simp only [↓kept_mk]; with_reducible apply kept_parts)
    | split
    | with_reducible refine kept_of_pair (by assumption) ?_
    | dsimp only

theorem State.sampleDelivered_kept {s : State} (h : Kept q z n o c s)  : Kept q z n o c (State.sampleDelivered s) := by
  unfold State.sampleDelivered
  repeat' first
    | with_reducible assumption
    | with_reducible apply State.deliver_kept
    | with_reducible apply kept_foldl
    | with_reducible apply kept_foldl_fst
    | with_reducible apply kept_else
    | with_reducible intro _
    | (simp only [↓kept_mk]; with_reducible apply kept_parts)
    | split
    | with_reducible refine kept_of_pair (by assumption) ?_
    | dsimp only

theorem State.decCommit_kept {s : State} (h : Kept q z n o c s) (p : Nat) : Kept q z n o c (State.decCommit s p) := by
  unfold State.decCommit
  repeat' first
    | with_reducible assumption
    | with_reducible apply State.toIssue_kept
    | with_reducible apply State.putList_kept
    | with_reducible apply State.cacheCommit_kept
    | with_reducible apply State.unitDone_kept
    | with_reducible apply kept_foldl
    | with_reducible apply kept_foldl_fst
    | with_reducible apply kept_else
    | with_reducible intro _
    | (simp only [↓kept_mk]; with_reducible apply kept_parts)
    | split
    | with_reducible refine State.toIssue_some ?_ (by assumption)
    | with_reducible refine kept_of_pair (by assumption) ?_
    | dsimp only

theorem State.flushWrite_kept {s : State} (h : Kept q z n o c s)  : Kept q z n o c (State.flushWrite s) := by
  unfold State.flushWrite
  repeat' first
    | with_reducible assumption
    | with_reducible apply State.cacheFlush_kept
    | with_reducible apply kept_foldl
    | with_reducible apply kept_foldl_fst
    | with_reducible apply kept_else
    | with_reducible intro _
    | (simp only [↓kept_mk]; with_reducible apply kept_parts)
    | split
    | with_reducible refine kept_of_pair (by assumption) ?_
    | dsimp only

theorem State.pmcDetect_kept {s : State} (h : Kept q z n o c s) (n_ : Nat) (v : Nat) : Kept q z n o c (State.pmcDetect s n_ v) := by
  unfold State.pmcDetect
  repeat' first
    | with_reducible assumption
    | with_reducible apply State.set_kept
    | with_reducible apply State.raise_kept
    | with_reducible apply State.pmc_kept
    | with_reducible apply kept_foldl
    | with_reducible apply kept_foldl_fst
    | with_reducible apply kept_else
    | with_reducible intro _
    | (simp only [↓kept_mk]; with_reducible apply kept_parts)
    | split
    | with_reducible refine kept_of_pair (by assumption) ?_
    | dsimp only

theorem State.pmcTicks_kept {s : State} (h : Kept q z n o c s) (k : Nat) (n_ : Nat) : Kept q z n o c (State.pmcTicks s k n_) := by
  unfold State.pmcTicks
  repeat' first
    | with_reducible assumption
    | with_reducible apply State.pmcAdd_kept
    | with_reducible apply State.set_kept
    | with_reducible apply State.pmcDetect_kept
    | with_reducible apply kept_foldl
    | with_reducible apply kept_foldl_fst
    | with_reducible apply kept_else
    | with_reducible intro _
    | (simp only [↓kept_mk]; with_reducible apply kept_parts)
    | split
    | with_reducible refine kept_of_pair (by assumption) ?_
    | dsimp only

theorem State.pmcCluTicks_kept {s : State} (h : Kept q z n o c s) (k : Nat) (phys : Nat) : Kept q z n o c (State.pmcCluTicks s k phys) := by
  unfold State.pmcCluTicks
  repeat' first
    | with_reducible assumption
    | with_reducible apply State.forEach_kept
    | with_reducible apply State.code_kept
    | with_reducible apply State.set_kept
    | with_reducible apply State.raise_kept
    | with_reducible apply kept_foldl
    | with_reducible apply kept_foldl_fst
    | with_reducible apply kept_else
    | with_reducible intro _
    | (simp only [↓kept_mk]; with_reducible apply kept_parts)
    | split
    | with_reducible refine kept_of_pair (by assumption) ?_
    | dsimp only

theorem State.pmcSample_kept {s : State} (h : Kept q z n o c s) (k : Nat) : Kept q z n o c (State.pmcSample s k) := by
  unfold State.pmcSample
  repeat' first
    | with_reducible assumption
    | with_reducible apply State.forEach_kept
    | with_reducible apply State.pmcTicks_kept
    | with_reducible apply State.pmcCluTicks_kept
    | with_reducible apply kept_foldl
    | with_reducible apply kept_foldl_fst
    | with_reducible apply kept_else
    | with_reducible intro _
    | (simp only [↓kept_mk]; with_reducible apply kept_parts)
    | split
    | with_reducible refine kept_of_pair (by assumption) ?_
    | dsimp only

theorem State.runTicks_kept {s : State} (h : Kept q z n o c s) (k : Nat) : Kept q z n o c (State.runTicks s k) := by
  unfold State.runTicks
  repeat' first
    | with_reducible assumption
    | with_reducible apply State.pmcSample_kept
    | with_reducible apply State.pass_kept
    | with_reducible apply kept_foldl
    | with_reducible apply kept_foldl_fst
    | with_reducible apply kept_else
    | with_reducible intro _
    | (simp only [↓kept_mk]; with_reducible apply kept_parts)
    | split
    | with_reducible refine kept_of_pair (by assumption) ?_
    | dsimp only

theorem State.runTo_kept {s : State} (h : Kept q z n o c s) (tick : Nat) : Kept q z n o c (State.runTo s tick) := by
  unfold State.runTo
  repeat' first
    | with_reducible assumption
    | with_reducible apply State.runTicks_kept
    | with_reducible apply kept_foldl
    | with_reducible apply kept_foldl_fst
    | with_reducible apply kept_else
    | with_reducible intro _
    | (simp only [↓kept_mk]; with_reducible apply kept_parts)
    | split
    | with_reducible refine kept_of_pair (by assumption) ?_
    | dsimp only

theorem State.runToTime_kept {s : State} (h : Kept q z n o c s) (sec : Nat) (ns : Nat) : Kept q z n o c (State.runToTime s sec ns) := by
  unfold State.runToTime
  repeat' first
    | with_reducible assumption
    | with_reducible apply State.runTicks_kept
    | with_reducible apply kept_foldl
    | with_reducible apply kept_foldl_fst
    | with_reducible apply kept_else
    | with_reducible intro _
    | (simp only [↓kept_mk]; with_reducible apply kept_parts)
    | split
    | with_reducible refine kept_of_pair (by assumption) ?_
    | dsimp only

theorem State.runToNs_kept {s : State} (h : Kept q z n o c s) (t : Nat) : Kept q z n o c (State.runToNs s t) := by
  unfold State.runToNs
  repeat' first
    | with_reducible assumption
    | with_reducible apply State.runToTime_kept
    | with_reducible apply kept_foldl
    | with_reducible apply kept_foldl_fst
    | with_reducible apply kept_else
    | with_reducible intro _
    | (simp only [↓kept_mk]; with_reducible apply kept_parts)
    | split
    | with_reducible refine kept_of_pair (by assumption) ?_
    | dsimp only

theorem State.encEnable_kept {s : State} (h : Kept q z n o c s) (fn : Nat) (e : Nat) : Kept q z n o c (State.encEnable s fn e) := by
  unfold State.encEnable
  repeat' first
    | with_reducible assumption
    | with_reducible apply State.code_kept
    | with_reducible apply State.set_kept
    | with_reducible apply State.clearFlds_kept
    | with_reducible apply kept_foldl
    | with_reducible apply kept_foldl_fst
    | with_reducible apply kept_else
    | with_reducible intro _
    | (simp only [↓kept_mk]; with_reducible apply kept_parts)
    | split
    | with_reducible refine kept_of_pair (by assumption) ?_
    | dsimp only

theorem State.activeGone_kept {s : State} (h : Kept q z n o c s)  : Kept q z n o c (State.activeGone s) := by
  unfold State.activeGone
  repeat' first
    | with_reducible assumption
    | with_reducible apply State.set_kept
    | with_reducible apply State.raise_kept
    | with_reducible apply State.trkBackup_kept
    | with_reducible apply State.capPosition_kept
    | with_reducible apply State.beltAbandon_kept
    | with_reducible apply kept_foldl
    | with_reducible apply kept_foldl_fst
    | with_reducible apply kept_else
    | with_reducible intro _
    | (simp only [↓kept_mk]; with_reducible apply kept_parts)
    | split
    | with_reducible refine kept_of_pair (by assumption) ?_
    | dsimp only

theorem State.encRetire_kept {s : State} (h : Kept q z n o c s) (e : Nat) : Kept q z n o c (State.encRetire s e) := by
  unfold State.encRetire
  repeat' first
    | with_reducible assumption
    | with_reducible apply State.set_kept
    | with_reducible apply State.raise_kept
    | with_reducible apply State.channelRetired_kept
    | with_reducible apply State.activeGone_kept
    | with_reducible apply kept_foldl
    | with_reducible apply kept_foldl_fst
    | with_reducible apply kept_else
    | with_reducible intro _
    | (simp only [↓kept_mk]; with_reducible apply kept_parts)
    | split
    | with_reducible refine kept_of_pair (by assumption) ?_
    | dsimp only

theorem State.encUpset_kept {s : State} (h : Kept q z n o c s) (e : Nat) : Kept q z n o c (State.encUpset s e) := by
  unfold State.encUpset
  repeat' first
    | with_reducible assumption
    | with_reducible apply State.addUpset_kept
    | with_reducible apply State.encRetire_kept
    | with_reducible apply kept_foldl
    | with_reducible apply kept_foldl_fst
    | with_reducible apply kept_else
    | with_reducible intro _
    | (simp only [↓kept_mk]; with_reducible apply kept_parts)
    | split
    | with_reducible refine kept_of_pair (by assumption) ?_
    | dsimp only

theorem State.encTaken_kept {s : State} (h : Kept q z n o c s) (e : Nat) (delta : Int) : Kept q z n o c (State.encTaken s e delta) := by
  unfold State.encTaken
  repeat' first
    | with_reducible assumption
    | with_reducible apply State.encCounts_kept
    | with_reducible apply State.set_kept
    | with_reducible apply State.capPosition_kept
    | with_reducible apply kept_foldl
    | with_reducible apply kept_foldl_fst
    | with_reducible apply kept_else
    | with_reducible intro _
    | (simp only [↓kept_mk]; with_reducible apply kept_parts)
    | split
    | with_reducible refine kept_of_pair (by assumption) ?_
    | dsimp only

theorem State.encEdge_kept {s : State} (h : Kept q z n o c s) (e : Nat) (a : Bool) (b : Bool) : Kept q z n o c (State.encEdge s e a b) := by
  unfold State.encEdge
  repeat' first
    | with_reducible assumption
    | with_reducible apply State.set_kept
    | with_reducible apply State.encTaken_kept
    | with_reducible apply State.count_kept
    | with_reducible apply State.raise_kept
    | with_reducible apply State.encUpset_kept
    | with_reducible apply kept_foldl
    | with_reducible apply kept_foldl_fst
    | with_reducible apply kept_else
    | with_reducible intro _
    | (simp only [↓kept_mk]; with_reducible apply kept_parts)
    | split
    | with_reducible refine kept_of_pair (by assumption) ?_
    | dsimp only

theorem State.encIndex_kept {s : State} (h : Kept q z n o c s) (e : Nat) (high : Bool) : Kept q z n o c (State.encIndex s e high) := by
  unfold State.encIndex
  repeat' first
    | with_reducible assumption
    | with_reducible apply State.set_kept
    | with_reducible apply State.countWrap_kept
    | with_reducible apply State.raise_kept
    | with_reducible apply State.timCapture_kept
    | with_reducible apply kept_foldl
    | with_reducible apply kept_foldl_fst
    | with_reducible apply kept_else
    | with_reducible intro _
    | (simp only [↓kept_mk]; with_reducible apply kept_parts)
    | split
    | with_reducible refine kept_of_pair (by assumption) ?_
    | dsimp only

theorem State.encBad_kept {s : State} (h : Kept q z n o c s) (e : Nat) : Kept q z n o c (State.encBad s e) := by
  unfold State.encBad
  repeat' first
    | with_reducible assumption
    | with_reducible apply State.count_kept
    | with_reducible apply State.set_kept
    | with_reducible apply State.raise_kept
    | with_reducible apply State.encUpset_kept
    | with_reducible apply State.encRetire_kept
    | with_reducible apply kept_foldl
    | with_reducible apply kept_foldl_fst
    | with_reducible apply kept_else
    | with_reducible intro _
    | (simp only [↓kept_mk]; with_reducible apply kept_parts)
    | split
    | with_reducible refine kept_of_pair (by assumption) ?_
    | dsimp only

theorem State.absComplete_kept {s : State} (h : Kept q z n o c s) (e : Nat) (samples : List Bool) : Kept q z n o c (State.absComplete s e samples) := by
  unfold State.absComplete
  repeat' first
    | with_reducible assumption
    | with_reducible apply State.set_kept
    | with_reducible apply State.encBad_kept
    | with_reducible apply State.encTaken_kept
    | with_reducible apply kept_foldl
    | with_reducible apply kept_foldl_fst
    | with_reducible apply kept_else
    | with_reducible intro _
    | (simp only [↓kept_mk]; with_reducible apply kept_parts)
    | split
    | with_reducible refine kept_of_pair (by assumption) ?_
    | dsimp only

theorem State.scSample_kept {s : State} (h : Kept q z n o c s) (e : Nat) (sn : Int) (cs : Int) : Kept q z n o c (State.scSample s e sn cs) := by
  unfold State.scSample
  repeat' first
    | with_reducible assumption
    | with_reducible apply State.runTo_kept
    | with_reducible apply State.set_kept
    | with_reducible apply State.encBad_kept
    | with_reducible apply State.encTaken_kept
    | with_reducible apply kept_foldl
    | with_reducible apply kept_foldl_fst
    | with_reducible apply kept_else
    | with_reducible intro _
    | (simp only [↓kept_mk]; with_reducible apply kept_parts)
    | split
    | with_reducible refine kept_of_pair (by assumption) ?_
    | dsimp only

theorem State.encRequest_kept {s : State} (h : Kept q z n o c s) (e : Nat) (unit : Nat) : Kept q z n o c (State.encRequest s e unit) := by
  unfold State.encRequest
  repeat' first
    | with_reducible assumption
    | with_reducible apply State.count_kept
    | with_reducible apply State.raise_kept
    | with_reducible apply State.set_kept
    | with_reducible apply kept_foldl
    | with_reducible apply kept_foldl_fst
    | with_reducible apply kept_else
    | with_reducible intro _
    | (simp only [↓kept_mk]; with_reducible apply kept_parts)
    | split
    | with_reducible refine kept_of_pair (by assumption) ?_
    | dsimp only

theorem State.ejtSpeed_kept {s : State} (h : Kept q z n o c s) (rate : Nat) : Kept q z n o c (State.ejtSpeed s rate) := by
  unfold State.ejtSpeed
  repeat' first
    | with_reducible assumption
    | with_reducible apply State.set_kept
    | with_reducible apply State.raise_kept
    | with_reducible apply State.reserveAll_kept
    | with_reducible apply kept_foldl
    | with_reducible apply kept_foldl_fst
    | with_reducible apply kept_else
    | with_reducible intro _
    | (simp only [↓kept_mk]; with_reducible apply kept_parts)
    | split
    | with_reducible refine kept_of_pair (by assumption) ?_
    | dsimp only

theorem State.speedEnd_kept {s : State} (h : Kept q z n o c s) (e : Nat) : Kept q z n o c (State.speedEnd s e) := by
  unfold State.speedEnd
  repeat' first
    | with_reducible assumption
    | with_reducible apply State.runTo_kept
    | with_reducible apply State.set_kept
    | with_reducible apply State.ejtSpeed_kept
    | with_reducible apply kept_foldl
    | with_reducible apply kept_foldl_fst
    | with_reducible apply kept_else
    | with_reducible intro _
    | (simp only [↓kept_mk]; with_reducible apply kept_parts)
    | split
    | with_reducible refine kept_of_pair (by assumption) ?_
    | dsimp only

theorem State.encSelect_kept {s : State} (h : Kept q z n o c s) (fn : Nat) (belt : Nat) (backup : Nat) (en : Bool) : Kept q z n o c (State.encSelect s fn belt backup en) := by
  unfold State.encSelect
  repeat' first
    | with_reducible assumption
    | with_reducible apply State.code_kept
    | with_reducible apply State.set_kept
    | with_reducible apply kept_foldl
    | with_reducible apply kept_foldl_fst
    | with_reducible apply kept_else
    | with_reducible intro _
    | (simp only [↓kept_mk]; with_reducible apply kept_parts)
    | split
    | with_reducible refine kept_of_pair (by assumption) ?_
    | dsimp only

theorem State.setTarget_kept {s : State} (h : Kept q z n o c s) (n_ : Nat) (t : Nat) : Kept q z n o c (State.setTarget s n_ t) := by
  unfold State.setTarget
  repeat' first
    | with_reducible assumption
    | with_reducible apply State.set_kept
    | with_reducible apply kept_foldl
    | with_reducible apply kept_foldl_fst
    | with_reducible apply kept_else
    | with_reducible intro _
    | (simp only [↓kept_mk]; with_reducible apply kept_parts)
    | split
    | with_reducible refine kept_of_pair (by assumption) ?_
    | dsimp only

theorem State.cmpArm_kept {s : State} (h : Kept q z n o c s) (n_ : Nat) : Kept q z n o c (State.cmpArm s n_) := by
  unfold State.cmpArm
  repeat' first
    | with_reducible assumption
    | with_reducible apply State.set_kept
    | with_reducible apply kept_foldl
    | with_reducible apply kept_foldl_fst
    | with_reducible apply kept_else
    | with_reducible intro _
    | (simp only [↓kept_mk]; with_reducible apply kept_parts)
    | split
    | with_reducible refine kept_of_pair (by assumption) ?_
    | dsimp only

theorem State.cmpAdvance_kept {s : State} (h : Kept q z n o c s) (n_ : Nat) : Kept q z n o c (State.cmpAdvance s n_) := by
  unfold State.cmpAdvance
  repeat' first
    | with_reducible assumption
    | with_reducible apply State.set_kept
    | with_reducible apply State.setTarget_kept
    | with_reducible apply State.count_kept
    | with_reducible apply State.raise_kept
    | with_reducible apply kept_foldl
    | with_reducible apply kept_foldl_fst
    | with_reducible apply kept_else
    | with_reducible intro _
    | (simp only [↓kept_mk]; with_reducible apply kept_parts)
    | split
    | with_reducible refine kept_of_pair (by assumption) ?_
    | dsimp only

theorem State.cmpServe_kept {s : State} (h : Kept q z n o c s) (n_ : Nat) : Kept q z n o c (State.cmpServe s n_) := by
  unfold State.cmpServe
  repeat' first
    | with_reducible assumption
    | with_reducible apply State.raise_kept
    | with_reducible apply State.forEach_kept
    | with_reducible apply State.encRequest_kept
    | with_reducible apply State.capTimeTrigger_kept
    | with_reducible apply State.pmcFreezeNow_kept
    | with_reducible apply kept_foldl
    | with_reducible apply kept_foldl_fst
    | with_reducible apply kept_else
    | with_reducible intro _
    | (simp only [↓kept_mk]; with_reducible apply kept_parts)
    | split
    | with_reducible refine kept_of_pair (by assumption) ?_
    | dsimp only

theorem State.cmpFire_kept {s : State} (h : Kept q z n o c s) (n_ : Nat) : Kept q z n o c (State.cmpFire s n_) := by
  unfold State.cmpFire
  repeat' first
    | with_reducible assumption
    | with_reducible apply State.cmpAdvance_kept
    | with_reducible apply State.cmpServe_kept
    | with_reducible apply kept_foldl
    | with_reducible apply kept_foldl_fst
    | with_reducible apply kept_else
    | with_reducible intro _
    | (simp only [↓kept_mk]; with_reducible apply kept_parts)
    | split
    | with_reducible refine kept_of_pair (by assumption) ?_
    | dsimp only

theorem State.cmpDue_kept {s : State} (h : Kept q z n o c s)  : Kept q z n o c (State.cmpDue s) := by
  unfold State.cmpDue
  repeat' first
    | with_reducible assumption
    | with_reducible apply State.forEach_kept
    | with_reducible apply State.cmpFire_kept
    | with_reducible apply kept_foldl
    | with_reducible apply kept_foldl_fst
    | with_reducible apply kept_else
    | with_reducible intro _
    | (simp only [↓kept_mk]; with_reducible apply kept_parts)
    | split
    | with_reducible refine kept_of_pair (by assumption) ?_
    | dsimp only

theorem State.cmpMatch_kept {s : State} (h : Kept q z n o c s) (n_ : Nat) : Kept q z n o c (State.cmpMatch s n_) := by
  unfold State.cmpMatch
  repeat' first
    | with_reducible assumption
    | with_reducible apply State.runToTime_kept
    | with_reducible apply State.cmpFire_kept
    | with_reducible apply kept_foldl
    | with_reducible apply kept_foldl_fst
    | with_reducible apply kept_else
    | with_reducible intro _
    | (simp only [↓kept_mk]; with_reducible apply kept_parts)
    | split
    | with_reducible refine kept_of_pair (by assumption) ?_
    | dsimp only

theorem State.tickOne_kept {s : State} (h : Kept q z n o c s)  : Kept q z n o c (State.tickOne s) := by
  unfold State.tickOne
  repeat' first
    | with_reducible assumption
    | with_reducible apply State.runTicks_kept
    | with_reducible apply State.cmpDue_kept
    | with_reducible apply kept_foldl
    | with_reducible apply kept_foldl_fst
    | with_reducible apply kept_else
    | with_reducible intro _
    | (simp only [↓kept_mk]; with_reducible apply kept_parts)
    | split
    | with_reducible refine kept_of_pair (by assumption) ?_
    | dsimp only

theorem State.timeLoad_kept {s : State} (h : Kept q z n o c s)  : Kept q z n o c (State.timeLoad s) := by
  unfold State.timeLoad
  repeat' first
    | with_reducible assumption
    | with_reducible apply State.raise_kept
    | with_reducible apply kept_foldl
    | with_reducible apply kept_foldl_fst
    | with_reducible apply kept_else
    | with_reducible intro _
    | (simp only [↓kept_mk]; with_reducible apply kept_parts)
    | split
    | with_reducible refine kept_of_pair (by assumption) ?_
    | dsimp only

theorem State.timeSet_kept {s : State} (h : Kept q z n o c s) (fn : Nat) (v : Nat) : Kept q z n o c (State.timeSet s fn v) := by
  unfold State.timeSet
  repeat' first
    | with_reducible assumption
    | with_reducible apply State.code_kept
    | with_reducible apply State.set_kept
    | with_reducible apply State.timeLoad_kept
    | with_reducible apply State.cmpDue_kept
    | with_reducible apply kept_foldl
    | with_reducible apply kept_foldl_fst
    | with_reducible apply kept_else
    | with_reducible intro _
    | (simp only [↓kept_mk]; with_reducible apply kept_parts)
    | split
    | with_reducible refine kept_of_pair (by assumption) ?_
    | dsimp only

theorem State.timeAdjust_kept {s : State} (h : Kept q z n o c s) (fn : Nat) (v : Nat) : Kept q z n o c (State.timeAdjust s fn v) := by
  unfold State.timeAdjust
  repeat' first
    | with_reducible assumption
    | with_reducible apply State.code_kept
    | with_reducible apply State.cmpDue_kept
    | with_reducible apply kept_foldl
    | with_reducible apply kept_foldl_fst
    | with_reducible apply kept_else
    | with_reducible intro _
    | (simp only [↓kept_mk]; with_reducible apply kept_parts)
    | split
    | with_reducible refine kept_of_pair (by assumption) ?_
    | dsimp only

theorem State.timeSetHeld_kept {s : State} (h : Kept q z n o c s) (fn : Nat) (off : Nat) (act : State → State) (ha : ∀ t, Kept q z n o c t → Kept q z n o c (act t)) : Kept q z n o c (State.timeSetHeld s fn off act) := by
  unfold State.timeSetHeld
  repeat' first
    | with_reducible assumption
    | with_reducible apply State.code_kept
    | with_reducible apply ha
    | with_reducible apply kept_foldl
    | with_reducible apply kept_foldl_fst
    | with_reducible apply kept_else
    | with_reducible intro _
    | (simp only [↓kept_mk]; with_reducible apply kept_parts)
    | split
    | with_reducible refine kept_of_pair (by assumption) ?_
    | dsimp only

theorem State.ppsEdge_kept {s : State} (h : Kept q z n o c s) (rising : Bool) : Kept q z n o c (State.ppsEdge s rising) := by
  unfold State.ppsEdge
  repeat' first
    | with_reducible assumption
    | with_reducible apply State.set_kept
    | with_reducible apply State.timeLoad_kept
    | with_reducible apply State.timCapture_kept
    | with_reducible apply State.cmpDue_kept
    | with_reducible apply kept_foldl
    | with_reducible apply kept_foldl_fst
    | with_reducible apply kept_else
    | with_reducible intro _
    | (simp only [↓kept_mk]; with_reducible apply kept_parts)
    | split
    | with_reducible refine kept_of_pair (by assumption) ?_
    | dsimp only

theorem State.secondEnds_kept {s : State} (h : Kept q z n o c s)  : Kept q z n o c (State.secondEnds s) := by
  unfold State.secondEnds
  repeat' first
    | with_reducible assumption
    | with_reducible apply State.runToTime_kept
    | with_reducible apply kept_foldl
    | with_reducible apply kept_foldl_fst
    | with_reducible apply kept_else
    | with_reducible intro _
    | (simp only [↓kept_mk]; with_reducible apply kept_parts)
    | split
    | with_reducible refine kept_of_pair (by assumption) ?_
    | dsimp only

theorem State.refLost_kept {s : State} (h : Kept q z n o c s)  : Kept q z n o c (State.refLost s) := by
  unfold State.refLost
  repeat' first
    | with_reducible assumption
    | with_reducible apply State.set_kept
    | with_reducible apply State.raise_kept
    | with_reducible apply kept_foldl
    | with_reducible apply kept_foldl_fst
    | with_reducible apply kept_else
    | with_reducible intro _
    | (simp only [↓kept_mk]; with_reducible apply kept_parts)
    | split
    | with_reducible refine kept_of_pair (by assumption) ?_
    | dsimp only

theorem State.refBack_kept {s : State} (h : Kept q z n o c s)  : Kept q z n o c (State.refBack s) := by
  unfold State.refBack
  repeat' first
    | with_reducible assumption
    | with_reducible apply State.set_kept
    | with_reducible apply kept_foldl
    | with_reducible apply kept_foldl_fst
    | with_reducible apply kept_else
    | with_reducible intro _
    | (simp only [↓kept_mk]; with_reducible apply kept_parts)
    | split
    | with_reducible refine kept_of_pair (by assumption) ?_
    | dsimp only

end Sys2Proof.Machine
end

