-- ==== Sys2Proof/Laws/Kept5.lean ====
section
/-!
SUPPORT. Laws/Kept5.lean: the operations of the machine keep the queue, the fuses, the clock, the outputs and the stores.
-/
namespace Sys2Proof.Machine

set_option linter.unusedSimpArgs false

variable {q : List Instr} {z : Fuses} {n : Nat} {o : List Output} {c : Prop}

theorem State.fioEnable_kept {s : State} (h : Kept q z n o c s)  : Kept q z n o c (State.fioEnable s) := by
  unfold State.fioEnable
  repeat' first
    | with_reducible assumption
    | with_reducible apply State.set_kept
    | with_reducible apply State.forEach_kept
    | with_reducible apply kept_foldl
    | with_reducible apply kept_foldl_fst
    | with_reducible apply kept_else
    | with_reducible intro _
    | (simp only [↓kept_mk]; with_reducible apply kept_parts)
    | split
    | with_reducible refine kept_of_pair (by assumption) ?_
    | dsimp only

theorem State.setLevel_kept {s : State} (h : Kept q z n o c s) (i : Nat) (on : Bool) : Kept q z n o c (State.setLevel s i on) := by
  unfold State.setLevel
  repeat' first
    | with_reducible assumption
    | with_reducible apply State.set_kept
    | with_reducible apply kept_foldl
    | with_reducible apply kept_foldl_fst
    | with_reducible apply kept_else
    | with_reducible intro _
    | (simp only [↓kept_mk]; with_reducible apply kept_parts)
    | split
    | with_reducible refine kept_of_pair (by assumption) ?_
    | dsimp only

theorem State.fioRetire_kept {s : State} (h : Kept q z n o c s) (i : Nat) : Kept q z n o c (State.fioRetire s i) := by
  unfold State.fioRetire
  repeat' first
    | with_reducible assumption
    | with_reducible apply State.set_kept
    | with_reducible apply State.setLevel_kept
    | with_reducible apply State.raise_kept
    | with_reducible apply State.channelRetired_kept
    | with_reducible apply kept_foldl
    | with_reducible apply kept_foldl_fst
    | with_reducible apply kept_else
    | with_reducible intro _
    | (simp only [↓kept_mk]; with_reducible apply kept_parts)
    | split
    | with_reducible refine kept_of_pair (by assumption) ?_
    | dsimp only

theorem State.fioEdge_kept {s : State} (h : Kept q z n o c s) (i : Nat) (rising : Bool) : Kept q z n o c (State.fioEdge s i rising) := by
  unfold State.fioEdge
  repeat' first
    | with_reducible assumption
    | with_reducible apply State.setLevel_kept
    | with_reducible apply State.set_kept
    | with_reducible apply State.countWrap_kept
    | with_reducible apply State.count_kept
    | with_reducible apply State.raiseMask_kept
    | with_reducible apply State.timCapture_kept
    | with_reducible apply kept_foldl
    | with_reducible apply kept_foldl_fst
    | with_reducible apply kept_else
    | with_reducible intro _
    | (simp only [↓kept_mk]; with_reducible apply kept_parts)
    | split
    | with_reducible refine kept_of_pair (by assumption) ?_
    | dsimp only

theorem State.fioBroken_kept {s : State} (h : Kept q z n o c s) (i : Nat) : Kept q z n o c (State.fioBroken s i) := by
  unfold State.fioBroken
  repeat' first
    | with_reducible assumption
    | with_reducible apply State.set_kept
    | with_reducible apply State.count_kept
    | with_reducible apply State.raise_kept
    | with_reducible apply State.addUpset_kept
    | with_reducible apply State.fioRetire_kept
    | with_reducible apply kept_foldl
    | with_reducible apply kept_foldl_fst
    | with_reducible apply kept_else
    | with_reducible intro _
    | (simp only [↓kept_mk]; with_reducible apply kept_parts)
    | split
    | with_reducible refine kept_of_pair (by assumption) ?_
    | dsimp only

theorem State.fioCount_kept {s : State} (h : Kept q z n o c s) (i : Nat) (on : Bool) : Kept q z n o c (State.fioCount s i on) := by
  unfold State.fioCount
  repeat' first
    | with_reducible assumption
    | with_reducible apply State.set_kept
    | with_reducible apply State.fioEdge_kept
    | with_reducible apply kept_foldl
    | with_reducible apply kept_foldl_fst
    | with_reducible apply kept_else
    | with_reducible intro _
    | (simp only [↓kept_mk]; with_reducible apply kept_parts)
    | split
    | with_reducible refine kept_of_pair (by assumption) ?_
    | dsimp only

theorem State.fioBreak_kept {s : State} (h : Kept q z n o c s) (i : Nat) (broken : Bool) : Kept q z n o c (State.fioBreak s i broken) := by
  unfold State.fioBreak
  repeat' first
    | with_reducible assumption
    | with_reducible apply State.set_kept
    | with_reducible apply State.fioBroken_kept
    | with_reducible apply kept_foldl
    | with_reducible apply kept_foldl_fst
    | with_reducible apply kept_else
    | with_reducible intro _
    | (simp only [↓kept_mk]; with_reducible apply kept_parts)
    | split
    | with_reducible refine kept_of_pair (by assumption) ?_
    | dsimp only

theorem State.fioInput_kept {s : State} (h : Kept q z n o c s) (i : Nat) (band : Nat) : Kept q z n o c (State.fioInput s i band) := by
  unfold State.fioInput
  repeat' first
    | with_reducible assumption
    | with_reducible apply State.set_kept
    | with_reducible apply State.fioCount_kept
    | with_reducible apply State.fioBreak_kept
    | with_reducible apply kept_foldl
    | with_reducible apply kept_foldl_fst
    | with_reducible apply kept_else
    | with_reducible intro _
    | (simp only [↓kept_mk]; with_reducible apply kept_parts)
    | split
    | with_reducible refine kept_of_pair (by assumption) ?_
    | dsimp only

theorem State.fioReadback_kept {s : State} (h : Kept q z n o c s) (k : Nat) : Kept q z n o c (State.fioReadback s k) := by
  unfold State.fioReadback
  repeat' first
    | with_reducible assumption
    | with_reducible apply State.set_kept
    | with_reducible apply State.count_kept
    | with_reducible apply State.raise_kept
    | with_reducible apply kept_foldl
    | with_reducible apply kept_foldl_fst
    | with_reducible apply kept_else
    | with_reducible intro _
    | (simp only [↓kept_mk]; with_reducible apply kept_parts)
    | split
    | with_reducible refine kept_of_pair (by assumption) ?_
    | dsimp only

theorem State.fioSample_kept {s : State} (h : Kept q z n o c s) (on : Nat) (broken : Nat) (rb : Nat) : Kept q z n o c (State.fioSample s on broken rb) := by
  unfold State.fioSample
  repeat' first
    | with_reducible assumption
    | with_reducible apply State.forEach_kept
    | with_reducible apply State.fioInput_kept
    | with_reducible apply State.set_kept
    | with_reducible apply State.fioReadback_kept
    | with_reducible apply kept_foldl
    | with_reducible apply kept_foldl_fst
    | with_reducible apply kept_else
    | with_reducible intro _
    | (simp only [↓kept_mk]; with_reducible apply kept_parts)
    | split
    | with_reducible refine kept_of_pair (by assumption) ?_
    | dsimp only

theorem State.outputSet_kept {s : State} (h : Kept q z n o c s) (v : Nat) : Kept q z n o c (State.outputSet s v) := by
  unfold State.outputSet
  repeat' first
    | with_reducible assumption
    | with_reducible apply State.set_kept
    | with_reducible apply State.foUpdate_kept
    | with_reducible apply kept_foldl
    | with_reducible apply kept_foldl_fst
    | with_reducible apply kept_else
    | with_reducible intro _
    | (simp only [↓kept_mk]; with_reducible apply kept_parts)
    | split
    | with_reducible refine kept_of_pair (by assumption) ?_
    | dsimp only

theorem State.safeHold_kept {s : State} (h : Kept q z n o c s) (cause : Nat) : Kept q z n o c (State.safeHold s cause) := by
  unfold State.safeHold
  repeat' first
    | with_reducible assumption
    | with_reducible apply State.set_kept
    | with_reducible apply State.foUpdate_kept
    | with_reducible apply State.markSafeHeld_kept
    | with_reducible apply kept_foldl
    | with_reducible apply kept_foldl_fst
    | with_reducible apply kept_else
    | with_reducible intro _
    | (simp only [↓kept_mk]; with_reducible apply kept_parts)
    | split
    | with_reducible refine kept_of_pair (by assumption) ?_
    | dsimp only

theorem State.wdogExpire_kept {s : State} (h : Kept q z n o c s)  : Kept q z n o c (State.wdogExpire s) := by
  unfold State.wdogExpire
  repeat' first
    | with_reducible assumption
    | with_reducible apply State.safeHold_kept
    | with_reducible apply State.count_kept
    | with_reducible apply State.raise_kept
    | with_reducible apply State.set_kept
    | with_reducible apply kept_foldl
    | with_reducible apply kept_foldl_fst
    | with_reducible apply kept_else
    | with_reducible intro _
    | (simp only [↓kept_mk]; with_reducible apply kept_parts)
    | split
    | with_reducible refine kept_of_pair (by assumption) ?_
    | dsimp only

theorem State.wdogEnds_kept {s : State} (h : Kept q z n o c s)  : Kept q z n o c (State.wdogEnds s) := by
  unfold State.wdogEnds
  repeat' first
    | with_reducible assumption
    | with_reducible apply State.runTo_kept
    | with_reducible apply State.wdogExpire_kept
    | with_reducible apply kept_foldl
    | with_reducible apply kept_foldl_fst
    | with_reducible apply kept_else
    | with_reducible intro _
    | (simp only [↓kept_mk]; with_reducible apply kept_parts)
    | split
    | with_reducible refine kept_of_pair (by assumption) ?_
    | dsimp only

theorem State.wdogWord_kept {s : State} (h : Kept q z n o c s) (fn : Nat) (v : Nat) : Kept q z n o c (State.wdogWord s fn v) := by
  unfold State.wdogWord
  repeat' first
    | with_reducible assumption
    | with_reducible apply State.code_kept
    | with_reducible apply State.set_kept
    | with_reducible apply kept_foldl
    | with_reducible apply kept_foldl_fst
    | with_reducible apply kept_else
    | with_reducible intro _
    | (simp only [↓kept_mk]; with_reducible apply kept_parts)
    | split
    | with_reducible refine kept_of_pair (by assumption) ?_
    | dsimp only

theorem State.wdogKick_kept {s : State} (h : Kept q z n o c s) (v : Nat) : Kept q z n o c (State.wdogKick s v) := by
  unfold State.wdogKick
  repeat' first
    | with_reducible assumption
    | with_reducible apply State.wdogExpire_kept
    | with_reducible apply State.set_kept
    | with_reducible apply kept_foldl
    | with_reducible apply kept_foldl_fst
    | with_reducible apply kept_else
    | with_reducible intro _
    | (simp only [↓kept_mk]; with_reducible apply kept_parts)
    | split
    | with_reducible refine kept_of_pair (by assumption) ?_
    | dsimp only

theorem State.safeRelease_kept {s : State} (h : Kept q z n o c s) (fn : Nat) : Kept q z n o c (State.safeRelease s fn) := by
  unfold State.safeRelease
  repeat' first
    | with_reducible assumption
    | with_reducible apply State.code_kept
    | with_reducible apply State.set_kept
    | with_reducible apply State.forEach_kept
    | with_reducible apply State.foUpdate_kept
    | with_reducible apply kept_foldl
    | with_reducible apply kept_foldl_fst
    | with_reducible apply kept_else
    | with_reducible intro _
    | (simp only [↓kept_mk]; with_reducible apply kept_parts)
    | split
    | with_reducible refine kept_of_pair (by assumption) ?_
    | dsimp only

theorem State.ejtEnable_kept {s : State} (h : Kept q z n o c s) (fn : Nat) : Kept q z n o c (State.ejtEnable s fn) := by
  unfold State.ejtEnable
  repeat' first
    | with_reducible assumption
    | with_reducible apply State.code_kept
    | with_reducible apply State.set_kept
    | with_reducible apply State.reserveAll_kept
    | with_reducible apply kept_foldl
    | with_reducible apply kept_foldl_fst
    | with_reducible apply kept_else
    | with_reducible intro _
    | (simp only [↓kept_mk]; with_reducible apply kept_parts)
    | split
    | with_reducible refine kept_of_pair (by assumption) ?_
    | dsimp only

theorem State.portRetire_kept {s : State} (h : Kept q z n o c s) (n_ : Nat) : Kept q z n o c (State.portRetire s n_) := by
  unfold State.portRetire
  repeat' first
    | with_reducible assumption
    | with_reducible apply State.portLost_kept
    | with_reducible apply State.raise_kept
    | with_reducible apply State.channelRetired_kept
    | with_reducible apply kept_foldl
    | with_reducible apply kept_foldl_fst
    | with_reducible apply kept_else
    | with_reducible intro _
    | (simp only [↓kept_mk]; with_reducible apply kept_parts)
    | split
    | with_reducible refine kept_of_pair (by assumption) ?_
    | dsimp only

theorem State.frameCheck_kept {s : State} (h : Kept q z n o c s) (n_ : Nat) (ret : Nat) : Kept q z n o c (State.frameCheck s n_ ret) := by
  unfold State.frameCheck
  repeat' first
    | with_reducible assumption
    | with_reducible apply State.count_kept
    | with_reducible apply State.raise_kept
    | with_reducible apply State.addUpset_kept
    | with_reducible apply State.portRetire_kept
    | with_reducible apply kept_foldl
    | with_reducible apply kept_foldl_fst
    | with_reducible apply kept_else
    | with_reducible intro _
    | (simp only [↓kept_mk]; with_reducible apply kept_parts)
    | split
    | with_reducible refine kept_of_pair (by assumption) ?_
    | dsimp only

theorem State.frameBegin_kept {s : State} (h : Kept q z n o c s) (n_ : Nat) : Kept q z n o c (State.frameBegin s n_) := by
  unfold State.frameBegin
  repeat' first
    | with_reducible assumption
    | with_reducible apply State.set_kept
    | with_reducible apply kept_foldl
    | with_reducible apply kept_foldl_fst
    | with_reducible apply kept_else
    | with_reducible intro _
    | (simp only [↓kept_mk]; with_reducible apply kept_parts)
    | split
    | with_reducible refine kept_of_pair (by assumption) ?_
    | dsimp only

theorem State.frameBoundary_kept {s : State} (h : Kept q z n o c s) (rets : List Nat) : Kept q z n o c (State.frameBoundary s rets) := by
  unfold State.frameBoundary
  repeat' first
    | with_reducible assumption
    | with_reducible apply State.runTo_kept
    | with_reducible apply State.forEach_kept
    | with_reducible apply State.frameCheck_kept
    | with_reducible apply State.frameBegin_kept
    | with_reducible apply State.set_kept
    | with_reducible apply kept_foldl
    | with_reducible apply kept_foldl_fst
    | with_reducible apply kept_else
    | with_reducible intro _
    | (simp only [↓kept_mk]; with_reducible apply kept_parts)
    | split
    | with_reducible refine kept_of_pair (by assumption) ?_
    | dsimp only

theorem State.commitDue_kept {s : State} (h : Kept q z n o c s) (span : Bool) (id : Nat) : Kept q z n o c (State.commitDue s span id) := by
  unfold State.commitDue
  repeat' first
    | with_reducible assumption
    | with_reducible apply State.recCommit_kept
    | with_reducible apply kept_foldl
    | with_reducible apply kept_foldl_fst
    | with_reducible apply kept_else
    | with_reducible intro _
    | (simp only [↓kept_mk]; with_reducible apply kept_parts)
    | split
    | with_reducible refine kept_of_pair (by assumption) ?_
    | dsimp only

theorem State.onDue_kept {s : State} (h : Kept q z n o c s) (span : Bool) (id : Nat) (bank : Nat) : Kept q z n o c (State.onDue s span id bank) := by
  unfold State.onDue
  repeat' first
    | with_reducible assumption
    | with_reducible apply State.firingOn_kept
    | with_reducible apply kept_foldl
    | with_reducible apply kept_foldl_fst
    | with_reducible apply kept_else
    | with_reducible intro _
    | (simp only [↓kept_mk]; with_reducible apply kept_parts)
    | split
    | with_reducible refine kept_of_pair (by assumption) ?_
    | dsimp only

theorem State.offDue_kept {s : State} (h : Kept q z n o c s) (span : Bool) (id : Nat) (bank : Nat) : Kept q z n o c (State.offDue s span id bank) := by
  unfold State.offDue
  repeat' first
    | with_reducible assumption
    | with_reducible apply State.firingOff_kept
    | with_reducible apply kept_foldl
    | with_reducible apply kept_foldl_fst
    | with_reducible apply kept_else
    | with_reducible intro _
    | (simp only [↓kept_mk]; with_reducible apply kept_parts)
    | split
    | with_reducible refine kept_of_pair (by assumption) ?_
    | dsimp only

theorem State.holdEnds_kept {s : State} (h : Kept q z n o c s) (path : Nat) (num : Nat) : Kept q z n o c (State.holdEnds s path num) := by
  unfold State.holdEnds
  repeat' first
    | with_reducible assumption
    | with_reducible apply State.runTo_kept
    | with_reducible apply State.valveDue_kept
    | with_reducible apply kept_foldl
    | with_reducible apply kept_foldl_fst
    | with_reducible apply kept_else
    | with_reducible intro _
    | (simp only [↓kept_mk]; with_reducible apply kept_parts)
    | split
    | with_reducible refine kept_of_pair (by assumption) ?_
    | dsimp only

theorem State.limitEnds_kept {s : State} (h : Kept q z n o c s) (path : Nat) (num : Nat) : Kept q z n o c (State.limitEnds s path num) := by
  unfold State.limitEnds
  repeat' first
    | with_reducible assumption
    | with_reducible apply State.runTo_kept
    | with_reducible apply State.valveMaxOn_kept
    | with_reducible apply kept_foldl
    | with_reducible apply kept_foldl_fst
    | with_reducible apply kept_else
    | with_reducible intro _
    | (simp only [↓kept_mk]; with_reducible apply kept_parts)
    | split
    | with_reducible refine kept_of_pair (by assumption) ?_
    | dsimp only

theorem State.deadlineCheck_kept {s : State} (h : Kept q z n o c s) (id : Nat) : Kept q z n o c (State.deadlineCheck s id) := by
  unfold State.deadlineCheck
  repeat' first
    | with_reducible assumption
    | with_reducible apply State.modRec_kept
    | with_reducible apply State.count_kept
    | with_reducible apply State.raise_kept
    | with_reducible apply kept_foldl
    | with_reducible apply kept_foldl_fst
    | with_reducible apply kept_else
    | with_reducible intro _
    | (simp only [↓kept_mk]; with_reducible apply kept_parts)
    | split
    | with_reducible refine kept_of_pair (by assumption) ?_
    | dsimp only

theorem State.tableFreed_kept {s : State} (h : Kept q z n o c s) (id : Nat) : Kept q z n o c (State.tableFreed s id) := by
  unfold State.tableFreed
  repeat' first
    | with_reducible assumption
    | with_reducible apply State.tablePages_kept
    | with_reducible apply State.modTrk_kept
    | with_reducible apply State.bumpGen_kept
    | with_reducible apply State.giveId_kept
    | with_reducible apply kept_foldl
    | with_reducible apply kept_foldl_fst
    | with_reducible apply kept_else
    | with_reducible intro _
    | (simp only [↓kept_mk]; with_reducible apply kept_parts)
    | split
    | with_reducible refine kept_of_pair (by assumption) ?_
    | dsimp only

theorem State.laneFail_kept {s : State} (h : Kept q z n o c s) (l : Nat) : Kept q z n o c (State.laneFail s l) := by
  unfold State.laneFail
  repeat' first
    | with_reducible assumption
    | with_reducible apply State.laneRetire_kept
    | with_reducible apply State.channelRetired_kept
    | with_reducible apply State.peerFollow_kept
    | with_reducible apply State.peerDown_kept
    | with_reducible apply kept_foldl
    | with_reducible apply kept_foldl_fst
    | with_reducible apply kept_else
    | with_reducible intro _
    | (simp only [↓kept_mk]; with_reducible apply kept_parts)
    | split
    | with_reducible refine kept_of_pair (by assumption) ?_
    | dsimp only

theorem State.laneUpset_kept {s : State} (h : Kept q z n o c s) (l : Nat) : Kept q z n o c (State.laneUpset s l) := by
  unfold State.laneUpset
  repeat' first
    | with_reducible assumption
    | with_reducible apply State.addUpset_kept
    | with_reducible apply State.laneFail_kept
    | with_reducible apply kept_foldl
    | with_reducible apply kept_foldl_fst
    | with_reducible apply kept_else
    | with_reducible intro _
    | (simp only [↓kept_mk]; with_reducible apply kept_parts)
    | split
    | with_reducible refine kept_of_pair (by assumption) ?_
    | dsimp only

theorem State.codeError_kept {s : State} (h : Kept q z n o c s) (l : Nat) : Kept q z n o c (State.codeError s l) := by
  unfold State.codeError
  repeat' first
    | with_reducible assumption
    | with_reducible apply State.count_kept
    | with_reducible apply State.pmc_kept
    | with_reducible apply State.set_kept
    | with_reducible apply State.raise_kept
    | with_reducible apply State.laneUpset_kept
    | with_reducible apply kept_foldl
    | with_reducible apply kept_foldl_fst
    | with_reducible apply kept_else
    | with_reducible intro _
    | (simp only [↓kept_mk]; with_reducible apply kept_parts)
    | split
    | with_reducible refine kept_of_pair (by assumption) ?_
    | dsimp only

theorem State.windowClear_kept {s : State} (h : Kept q z n o c s)  : Kept q z n o c (State.windowClear s) := by
  unfold State.windowClear
  repeat' first
    | with_reducible assumption
    | with_reducible apply State.forEach_kept
    | with_reducible apply State.clearFlds_kept
    | with_reducible apply kept_foldl
    | with_reducible apply kept_foldl_fst
    | with_reducible apply kept_else
    | with_reducible intro _
    | (simp only [↓kept_mk]; with_reducible apply kept_parts)
    | split
    | with_reducible refine kept_of_pair (by assumption) ?_
    | dsimp only

theorem State.windowEnds_kept {s : State} (h : Kept q z n o c s)  : Kept q z n o c (State.windowEnds s) := by
  unfold State.windowEnds
  repeat' first
    | with_reducible assumption
    | with_reducible apply State.runTo_kept
    | with_reducible apply State.windowClear_kept
    | with_reducible apply kept_foldl
    | with_reducible apply kept_foldl_fst
    | with_reducible apply kept_else
    | with_reducible intro _
    | (simp only [↓kept_mk]; with_reducible apply kept_parts)
    | split
    | with_reducible refine kept_of_pair (by assumption) ?_
    | dsimp only

theorem State.sramCount_kept {s : State} (h : Kept q z n o c s) (p : PageId) (cnt : Fld) (win : Fld) (done : Fld) (thr : Fld) (ev : Nat) : Kept q z n o c (State.sramCount s p cnt win done thr ev) := by
  unfold State.sramCount
  repeat' first
    | with_reducible assumption
    | with_reducible apply State.count_kept
    | with_reducible apply State.set_kept
    | with_reducible apply State.raise_kept
    | with_reducible apply kept_foldl
    | with_reducible apply kept_foldl_fst
    | with_reducible apply kept_else
    | with_reducible intro _
    | (simp only [↓kept_mk]; with_reducible apply kept_parts)
    | split
    | with_reducible refine kept_of_pair (by assumption) ?_
    | dsimp only

theorem State.sramCorrected_kept {s : State} (h : Kept q z n o c s) (site : SramSite) (addr : Nat) : Kept q z n o c (State.sramCorrected s site addr) := by
  unfold State.sramCorrected
  repeat' first
    | with_reducible assumption
    | with_reducible apply State.set_kept
    | with_reducible apply State.sramCount_kept
    | with_reducible apply kept_foldl
    | with_reducible apply kept_foldl_fst
    | with_reducible apply kept_else
    | with_reducible intro _
    | (simp only [↓kept_mk]; with_reducible apply kept_parts)
    | split
    | with_reducible refine kept_of_pair (by assumption) ?_
    | dsimp only

theorem State.abortRunning_kept {s : State} (h : Kept q z n o c s) (p : Nat) : Kept q z n o c (State.abortRunning s p) := by
  unfold State.abortRunning
  repeat' first
    | with_reducible assumption
    | with_reducible apply State.abortMem_kept
    | with_reducible apply kept_foldl
    | with_reducible apply kept_foldl_fst
    | with_reducible apply kept_else
    | with_reducible intro _
    | (simp only [↓kept_mk]; with_reducible apply kept_parts)
    | split
    | with_reducible refine kept_of_pair (by assumption) ?_
    | dsimp only

theorem State.sramBad_kept {s : State} (h : Kept q z n o c s) (site : SramSite) (addr : Nat) : Kept q z n o c (State.sramBad s site addr) := by
  unfold State.sramBad
  repeat' first
    | with_reducible assumption
    | with_reducible apply State.set_kept
    | with_reducible apply State.count_kept
    | with_reducible apply State.raise_kept
    | with_reducible apply State.abortRunning_kept
    | with_reducible apply State.cluUpset_kept
    | with_reducible apply State.abortMem_kept
    | with_reducible apply State.modTable_kept
    | with_reducible apply kept_foldl
    | with_reducible apply kept_foldl_fst
    | with_reducible apply kept_else
    | with_reducible intro _
    | (simp only [↓kept_mk]; with_reducible apply kept_parts)
    | split
    | with_reducible refine kept_of_pair (by assumption) ?_
    | dsimp only

theorem State.markBad_kept {s : State} (h : Kept q z n o c s) (key : Nat) : Kept q z n o c (State.markBad s key) := by
  unfold State.markBad
  repeat' first
    | with_reducible assumption
    | with_reducible apply kept_hbmWrite
    | with_reducible apply kept_foldl
    | with_reducible apply kept_foldl_fst
    | with_reducible apply kept_else
    | with_reducible intro _
    | (simp only [↓kept_mk]; with_reducible apply kept_parts)
    | split
    | with_reducible refine kept_of_pair (by assumption) ?_
    | dsimp only

theorem State.lnpConsumes_kept {s : State} (h : Kept q z n o c s) (c_ : Nat) : Kept q z n o c (State.lnpConsumes s c_) := by
  unfold State.lnpConsumes
  repeat' first
    | with_reducible assumption
    | with_reducible apply State.loseStripe_kept
    | with_reducible apply kept_foldl
    | with_reducible apply kept_foldl_fst
    | with_reducible apply kept_else
    | with_reducible intro _
    | (simp only [↓kept_mk]; with_reducible apply kept_parts)
    | split
    | with_reducible refine kept_of_pair (by assumption) ?_
    | dsimp only

theorem State.loadConsumes_kept {s : State} (h : Kept q z n o c s) (p : Nat) (k : Nat) (key : Nat) : Kept q z n o c (State.loadConsumes s p k key) := by
  unfold State.loadConsumes
  repeat' first
    | with_reducible assumption
    | with_reducible apply State.code_kept
    | with_reducible apply State.modSlot_kept
    | with_reducible apply State.set_kept
    | with_reducible apply State.raise_kept
    | with_reducible apply kept_foldl
    | with_reducible apply kept_foldl_fst
    | with_reducible apply kept_else
    | with_reducible intro _
    | (simp only [↓kept_mk]; with_reducible apply kept_parts)
    | split
    | with_reducible refine kept_of_pair (by assumption) ?_
    | dsimp only

theorem State.replayConsumes_kept {s : State} (h : Kept q z n o c s) (c_ : Nat) : Kept q z n o c (State.replayConsumes s c_) := by
  unfold State.replayConsumes
  repeat' first
    | with_reducible assumption
    | with_reducible apply State.modCtx_kept
    | with_reducible apply State.raise_kept
    | with_reducible apply kept_foldl
    | with_reducible apply kept_foldl_fst
    | with_reducible apply kept_else
    | with_reducible intro _
    | (simp only [↓kept_mk]; with_reducible apply kept_parts)
    | split
    | with_reducible refine kept_of_pair (by assumption) ?_
    | dsimp only

theorem State.hostUe_kept {s : State} (h : Kept q z n o c s) (fn : Nat) : Kept q z n o c (State.hostUe s fn) := by
  unfold State.hostUe
  repeat' first
    | with_reducible assumption
    | with_reducible apply State.count_kept
    | with_reducible apply State.raise_kept
    | with_reducible apply kept_foldl
    | with_reducible apply kept_foldl_fst
    | with_reducible apply kept_else
    | with_reducible intro _
    | (simp only [↓kept_mk]; with_reducible apply kept_parts)
    | split
    | with_reducible refine kept_of_pair (by assumption) ?_
    | dsimp only

theorem State.wordConsumed_kept {s : State} (h : Kept q z n o c s) (pc : Nat) (word : Nat) (by' : Consumer) : Kept q z n o c (State.wordConsumed s pc word by') := by
  unfold State.wordConsumed
  repeat' first
    | with_reducible assumption
    | with_reducible apply State.markBad_kept
    | with_reducible apply State.ueFound_kept
    | with_reducible apply State.abortRunning_kept
    | with_reducible apply State.lnpConsumes_kept
    | with_reducible apply State.loadConsumes_kept
    | with_reducible apply State.replayConsumes_kept
    | with_reducible apply State.hostUe_kept
    | with_reducible apply kept_foldl
    | with_reducible apply kept_foldl_fst
    | with_reducible apply kept_else
    | with_reducible intro _
    | (simp only [↓kept_mk]; with_reducible apply kept_parts)
    | split
    | with_reducible refine kept_of_pair (by assumption) ?_
    | dsimp only

theorem State.scrubLine_kept {s : State} (h : Kept q z n o c s)  : Kept q z n o c (State.scrubLine s) := by
  unfold State.scrubLine
  repeat' first
    | with_reducible assumption
    | with_reducible apply State.forEach_kept
    | with_reducible apply State.ceFound_kept
    | with_reducible apply State.ueFound_kept
    | with_reducible apply State.set_kept
    | with_reducible apply State.count_kept
    | with_reducible apply State.raise_kept
    | with_reducible apply kept_hbmWrite
    | with_reducible apply kept_foldl
    | with_reducible apply kept_foldl_fst
    | with_reducible apply kept_else
    | with_reducible intro _
    | (simp only [↓kept_mk]; with_reducible apply kept_parts)
    | split
    | with_reducible refine kept_of_pair (by assumption) ?_
    | dsimp only

theorem State.permanent_kept {s : State} (h : Kept q z n o c s) (t : Nat) (i : Nat) : Kept q z n o c (State.permanent s t i) := by
  unfold State.permanent
  repeat' first
    | with_reducible assumption
    | with_reducible apply State.pcRetire_kept
    | with_reducible apply State.laneFail_kept
    | with_reducible apply State.cluRetire_kept
    | with_reducible apply State.encRetire_kept
    | with_reducible apply State.portRetire_kept
    | with_reducible apply State.fioRetire_kept
    | with_reducible apply kept_foldl
    | with_reducible apply kept_foldl_fst
    | with_reducible apply kept_else
    | with_reducible intro _
    | (simp only [↓kept_mk]; with_reducible apply kept_parts)
    | split
    | with_reducible refine kept_of_pair (by assumption) ?_
    | dsimp only

theorem State.faultForce_kept {s : State} (h : Kept q z n o c s) (fn : Nat) (v : Nat) : Kept q z n o c (State.faultForce s fn v) := by
  unfold State.faultForce
  repeat' first
    | with_reducible assumption
    | with_reducible apply State.code_kept
    | with_reducible apply State.plainWrite_kept
    | with_reducible apply State.permanent_kept
    | with_reducible apply kept_foldl
    | with_reducible apply kept_foldl_fst
    | with_reducible apply kept_else
    | with_reducible intro _
    | (simp only [↓kept_mk]; with_reducible apply kept_parts)
    | split
    | with_reducible refine kept_of_pair (by assumption) ?_
    | dsimp only

theorem State.leakWindow_kept {s : State} (h : Kept q z n o c s) (t : Nat) : Kept q z n o c (State.leakWindow s t) := by
  unfold State.leakWindow
  repeat' first
    | with_reducible assumption
    | with_reducible apply State.runTo_kept
    | with_reducible apply State.leak_kept
    | with_reducible apply kept_foldl
    | with_reducible apply kept_foldl_fst
    | with_reducible apply kept_else
    | with_reducible intro _
    | (simp only [↓kept_mk]; with_reducible apply kept_parts)
    | split
    | with_reducible refine kept_of_pair (by assumption) ?_
    | dsimp only

theorem State.recordRetired_kept {s : State} (h : Kept q z n o c s)  : Kept q z n o c (State.recordRetired s) := by
  unfold State.recordRetired
  repeat' first
    | with_reducible assumption
    | with_reducible apply kept_foldl
    | with_reducible apply kept_foldl_fst
    | with_reducible apply kept_else
    | with_reducible intro _
    | (simp only [↓kept_mk]; with_reducible apply kept_parts)
    | split
    | with_reducible refine kept_of_pair (by assumption) ?_
    | dsimp only

theorem State.retireClear_kept {s : State} (h : Kept q z n o c s) (fn : Nat) (v : Nat) : Kept q z n o c (State.retireClear s fn v) := by
  unfold State.retireClear
  repeat' first
    | with_reducible assumption
    | with_reducible apply State.code_kept
    | with_reducible apply State.plainWrite_kept
    | with_reducible apply kept_foldl
    | with_reducible apply kept_foldl_fst
    | with_reducible apply kept_else
    | with_reducible intro _
    | (simp only [↓kept_mk]; with_reducible apply kept_parts)
    | split
    | with_reducible refine kept_of_pair (by assumption) ?_
    | dsimp only

theorem State.modMgt_kept {s : State} (h : Kept q z n o c s) (f : MgtState → MgtState) : Kept q z n o c (State.modMgt s f) := by
  unfold State.modMgt
  repeat' first
    | with_reducible assumption
    | with_reducible apply kept_foldl
    | with_reducible apply kept_foldl_fst
    | with_reducible apply kept_else
    | with_reducible intro _
    | (simp only [↓kept_mk]; with_reducible apply kept_parts)
    | split
    | with_reducible refine kept_of_pair (by assumption) ?_
    | dsimp only

theorem State.whenAwake_kept {s : State} (h : Kept q z n o c s) (act : State → State) (ha : ∀ t, Kept q z n o c t → Kept q z n o c (act t)) : Kept q z n o c (State.whenAwake s act) := by
  unfold State.whenAwake
  repeat' first
    | with_reducible assumption
    | with_reducible apply ha
    | with_reducible apply kept_foldl
    | with_reducible apply kept_foldl_fst
    | with_reducible apply kept_else
    | with_reducible intro _
    | (simp only [↓kept_mk]; with_reducible apply kept_parts)
    | split
    | with_reducible refine kept_of_pair (by assumption) ?_
    | dsimp only

theorem State.startOk_kept {s : State} (h : Kept q z n o c s) (fn : Nat) : Kept q z n o c (State.startOk s fn) := by
  unfold State.startOk
  repeat' first
    | with_reducible assumption
    | with_reducible apply State.set_kept
    | with_reducible apply State.modMgt_kept
    | with_reducible apply State.code_kept
    | with_reducible apply State.raise_kept
    | with_reducible apply kept_foldl
    | with_reducible apply kept_foldl_fst
    | with_reducible apply kept_else
    | with_reducible intro _
    | (simp only [↓kept_mk]; with_reducible apply kept_parts)
    | split
    | with_reducible refine kept_of_pair (by assumption) ?_
    | dsimp only

theorem State.okWindowEnds_kept {s : State} (h : Kept q z n o c s)  : Kept q z n o c (State.okWindowEnds s) := by
  unfold State.okWindowEnds
  repeat' first
    | with_reducible assumption
    | with_reducible apply State.runTo_kept
    | with_reducible apply State.modMgt_kept
    | with_reducible apply kept_foldl
    | with_reducible apply kept_foldl_fst
    | with_reducible apply kept_else
    | with_reducible intro _
    | (simp only [↓kept_mk]; with_reducible apply kept_parts)
    | split
    | with_reducible refine kept_of_pair (by assumption) ?_
    | dsimp only

theorem State.snapGo_kept {s : State} (h : Kept q z n o c s) (fn : Nat) : Kept q z n o c (State.snapGo s fn) := by
  unfold State.snapGo
  repeat' first
    | with_reducible assumption
    | with_reducible apply State.code_kept
    | with_reducible apply State.set_kept
    | with_reducible apply State.modMgt_kept
    | with_reducible apply State.capture_kept
    | with_reducible apply kept_foldl
    | with_reducible apply kept_foldl_fst
    | with_reducible apply kept_else
    | with_reducible intro _
    | (simp only [↓kept_mk]; with_reducible apply kept_parts)
    | split
    | with_reducible refine kept_of_pair (by assumption) ?_
    | dsimp only

theorem State.snapDone_kept {s : State} (h : Kept q z n o c s) (ok : Bool) : Kept q z n o c (State.snapDone s ok) := by
  unfold State.snapDone
  repeat' first
    | with_reducible assumption
    | with_reducible apply State.capture_kept
    | with_reducible apply State.set_kept
    | with_reducible apply State.modMgt_kept
    | with_reducible apply State.count_kept
    | with_reducible apply State.raise_kept
    | with_reducible apply kept_foldl
    | with_reducible apply kept_foldl_fst
    | with_reducible apply kept_else
    | with_reducible intro _
    | (simp only [↓kept_mk]; with_reducible apply kept_parts)
    | split
    | with_reducible refine kept_of_pair (by assumption) ?_
    | dsimp only

theorem State.velvetErase_kept {s : State} (h : Kept q z n o c s) (fn : Nat) : Kept q z n o c (State.velvetErase s fn) := by
  unfold State.velvetErase
  repeat' first
    | with_reducible assumption
    | with_reducible apply State.code_kept
    | with_reducible apply kept_foldl
    | with_reducible apply kept_foldl_fst
    | with_reducible apply kept_else
    | with_reducible intro _
    | (simp only [↓kept_mk]; with_reducible apply kept_parts)
    | split
    | with_reducible refine kept_of_pair (by assumption) ?_
    | dsimp only

theorem State.attestGo_kept {s : State} (h : Kept q z n o c s) (fn : Nat) : Kept q z n o c (State.attestGo s fn) := by
  unfold State.attestGo
  repeat' first
    | with_reducible assumption
    | with_reducible apply State.code_kept
    | with_reducible apply State.set_kept
    | with_reducible apply State.modMgt_kept
    | with_reducible apply kept_foldl
    | with_reducible apply kept_foldl_fst
    | with_reducible apply kept_else
    | with_reducible intro _
    | (simp only [↓kept_mk]; with_reducible apply kept_parts)
    | split
    | with_reducible refine kept_of_pair (by assumption) ?_
    | dsimp only

theorem State.attestDone_kept {s : State} (h : Kept q z n o c s)  : Kept q z n o c (State.attestDone s) := by
  unfold State.attestDone
  repeat' first
    | with_reducible assumption
    | with_reducible apply State.hostOut_kept
    | with_reducible apply State.set_kept
    | with_reducible apply State.raise_kept
    | with_reducible apply kept_foldl
    | with_reducible apply kept_foldl_fst
    | with_reducible apply kept_else
    | with_reducible intro _
    | (simp only [↓kept_mk]; with_reducible apply kept_parts)
    | split
    | with_reducible refine kept_of_pair (by assumption) ?_
    | dsimp only

theorem State.attestHeld_kept {s : State} (h : Kept q z n o c s) (fn : Nat) (off : Nat) (act : State → State) (ha : ∀ t, Kept q z n o c t → Kept q z n o c (act t)) : Kept q z n o c (State.attestHeld s fn off act) := by
  unfold State.attestHeld
  repeat' first
    | with_reducible assumption
    | with_reducible apply State.code_kept
    | with_reducible apply ha
    | with_reducible apply kept_foldl
    | with_reducible apply kept_foldl_fst
    | with_reducible apply kept_else
    | with_reducible intro _
    | (simp only [↓kept_mk]; with_reducible apply kept_parts)
    | split
    | with_reducible refine kept_of_pair (by assumption) ?_
    | dsimp only

theorem State.startEnds_kept {s : State} (h : Kept q z n o c s)  : Kept q z n o c (State.startEnds s) := by
  unfold State.startEnds
  repeat' first
    | with_reducible assumption
    | with_reducible apply State.set_kept
    | with_reducible apply State.foUpdate_kept
    | with_reducible apply State.modTrk_kept
    | with_reducible apply State.modMgt_kept
    | with_reducible apply State.raise_kept
    | with_reducible apply kept_foldl
    | with_reducible apply kept_foldl_fst
    | with_reducible apply kept_else
    | with_reducible intro _
    | (simp only [↓kept_mk]; with_reducible apply kept_parts)
    | split
    | with_reducible refine kept_of_pair (by assumption) ?_
    | dsimp only

theorem State.startMoves_kept {s : State} (h : Kept q z n o c s)  : Kept q z n o c (State.startMoves s) := by
  unfold State.startMoves
  repeat' first
    | with_reducible assumption
    | with_reducible apply State.set_kept
    | with_reducible apply State.startEnds_kept
    | with_reducible apply kept_foldl
    | with_reducible apply kept_foldl_fst
    | with_reducible apply kept_else
    | with_reducible intro _
    | (simp only [↓kept_mk]; with_reducible apply kept_parts)
    | split
    | with_reducible refine kept_of_pair (by assumption) ?_
    | dsimp only

theorem State.fusesLoaded_kept {s : State} (h : Kept q z n o c s)  : Kept q z n o c (State.fusesLoaded s) := by
  unfold State.fusesLoaded
  repeat' first
    | with_reducible assumption
    | with_reducible apply State.modMgt_kept
    | with_reducible apply State.startMoves_kept
    | with_reducible apply kept_foldl
    | with_reducible apply kept_foldl_fst
    | with_reducible apply kept_else
    | with_reducible intro _
    | (simp only [↓kept_mk]; with_reducible apply kept_parts)
    | split
    | with_reducible refine kept_of_pair (by assumption) ?_
    | dsimp only

theorem State.retiredAtStart_kept {s : State} (h : Kept q z n o c s) (t : Nat) (i : Nat) : Kept q z n o c (State.retiredAtStart s t i) := by
  unfold State.retiredAtStart
  repeat' first
    | with_reducible assumption
    | with_reducible apply State.set_kept
    | with_reducible apply State.raise_kept
    | with_reducible apply State.laneRetire_kept
    | with_reducible apply kept_foldl
    | with_reducible apply kept_foldl_fst
    | with_reducible apply kept_else
    | with_reducible intro _
    | (simp only [↓kept_mk]; with_reducible apply kept_parts)
    | split
    | with_reducible refine kept_of_pair (by assumption) ?_
    | dsimp only

theorem State.windowOpens_kept {s : State} (h : Kept q z n o c s)  : Kept q z n o c (State.windowOpens s) := by
  unfold State.windowOpens
  repeat' first
    | with_reducible assumption
    | with_reducible apply State.set_kept
    | with_reducible apply State.modMgt_kept
    | with_reducible apply kept_foldl
    | with_reducible apply kept_foldl_fst
    | with_reducible apply kept_else
    | with_reducible intro _
    | (simp only [↓kept_mk]; with_reducible apply kept_parts)
    | split
    | with_reducible refine kept_of_pair (by assumption) ?_
    | dsimp only

theorem State.stepThree_kept {s : State} (h : Kept q z n o c s)  : Kept q z n o c (State.stepThree s) := by
  unfold State.stepThree
  repeat' first
    | with_reducible assumption
    | with_reducible apply State.modMgt_kept
    | with_reducible apply State.windowOpens_kept
    | with_reducible apply State.startMoves_kept
    | with_reducible apply kept_foldl
    | with_reducible apply kept_foldl_fst
    | with_reducible apply kept_else
    | with_reducible intro _
    | (simp only [↓kept_mk]; with_reducible apply kept_parts)
    | split
    | with_reducible refine kept_of_pair (by assumption) ?_
    | dsimp only

theorem State.velvetChecked_kept {s : State} (h : Kept q z n o c s) (coolant : Bool) (dirUe : Bool) (recUe0 : Bool) (recUe1 : Bool) : Kept q z n o c (State.velvetChecked s coolant dirUe recUe0 recUe1) := by
  unfold State.velvetChecked
  repeat' first
    | with_reducible assumption
    | with_reducible apply State.set_kept
    | with_reducible apply State.raise_kept
    | with_reducible apply State.forEach_kept
    | with_reducible apply State.retiredAtStart_kept
    | with_reducible apply State.modMgt_kept
    | with_reducible apply State.stepThree_kept
    | with_reducible apply State.startMoves_kept
    | with_reducible apply kept_foldl
    | with_reducible apply kept_foldl_fst
    | with_reducible apply kept_else
    | with_reducible intro _
    | (simp only [↓kept_mk]; with_reducible apply kept_parts)
    | split
    | with_reducible refine kept_of_pair (by assumption) ?_
    | dsimp only

theorem State.coolantRises_kept {s : State} (h : Kept q z n o c s)  : Kept q z n o c (State.coolantRises s) := by
  unfold State.coolantRises
  repeat' first
    | with_reducible assumption
    | with_reducible apply State.stepThree_kept
    | with_reducible apply kept_foldl
    | with_reducible apply kept_foldl_fst
    | with_reducible apply kept_else
    | with_reducible intro _
    | (simp only [↓kept_mk]; with_reducible apply kept_parts)
    | split
    | with_reducible refine kept_of_pair (by assumption) ?_
    | dsimp only

theorem State.hbmTrained_kept {s : State} (h : Kept q z n o c s) (kept : Bool) : Kept q z n o c (State.hbmTrained s kept) := by
  unfold State.hbmTrained
  repeat' first
    | with_reducible assumption
    | with_reducible apply State.modMgt_kept
    | with_reducible apply State.startMoves_kept
    | with_reducible apply kept_hbmWrite
    | with_reducible apply kept_foldl
    | with_reducible apply kept_foldl_fst
    | with_reducible apply kept_else
    | with_reducible intro _
    | (simp only [↓kept_mk]; with_reducible apply kept_parts)
    | split
    | with_reducible refine kept_of_pair (by assumption) ?_
    | dsimp only

theorem State.scrubbed_kept {s : State} (h : Kept q z n o c s)  : Kept q z n o c (State.scrubbed s) := by
  unfold State.scrubbed
  repeat' first
    | with_reducible assumption
    | with_reducible apply State.set_kept
    | with_reducible apply State.modMgt_kept
    | with_reducible apply State.startMoves_kept
    | with_reducible apply kept_hbmClear
    | with_reducible apply kept_hbmWrite
    | with_reducible apply kept_foldl
    | with_reducible apply kept_foldl_fst
    | with_reducible apply kept_else
    | with_reducible intro _
    | (simp only [↓kept_mk]; with_reducible apply kept_parts)
    | split
    | with_reducible refine kept_of_pair (by assumption) ?_
    | dsimp only

theorem State.linkFalls_kept {s : State} (h : Kept q z n o c s)  : Kept q z n o c (State.linkFalls s) := by
  unfold State.linkFalls
  repeat' first
    | with_reducible assumption
    | with_reducible apply State.set_kept
    | with_reducible apply State.count_kept
    | with_reducible apply State.raise_kept
    | with_reducible apply kept_foldl
    | with_reducible apply kept_foldl_fst
    | with_reducible apply kept_else
    | with_reducible intro _
    | (simp only [↓kept_mk]; with_reducible apply kept_parts)
    | split
    | with_reducible refine kept_of_pair (by assumption) ?_
    | dsimp only

theorem State.linkRises_kept {s : State} (h : Kept q z n o c s) (rate : Nat) (modules : Nat) (repaired : Nat) : Kept q z n o c (State.linkRises s rate modules repaired) := by
  unfold State.linkRises
  repeat' first
    | with_reducible assumption
    | with_reducible apply State.set_kept
    | with_reducible apply State.raiseMask_kept
    | with_reducible apply State.modMgt_kept
    | with_reducible apply State.windowOpens_kept
    | with_reducible apply State.startMoves_kept
    | with_reducible apply kept_foldl
    | with_reducible apply kept_foldl_fst
    | with_reducible apply kept_else
    | with_reducible intro _
    | (simp only [↓kept_mk]; with_reducible apply kept_parts)
    | split
    | with_reducible refine kept_of_pair (by assumption) ?_
    | dsimp only

theorem State.windowCloses_kept {s : State} (h : Kept q z n o c s) (fetch : Bool) : Kept q z n o c (State.windowCloses s fetch) := by
  unfold State.windowCloses
  repeat' first
    | with_reducible assumption
    | with_reducible apply State.set_kept
    | with_reducible apply State.modMgt_kept
    | with_reducible apply State.startMoves_kept
    | with_reducible apply kept_foldl
    | with_reducible apply kept_foldl_fst
    | with_reducible apply kept_else
    | with_reducible intro _
    | (simp only [↓kept_mk]; with_reducible apply kept_parts)
    | split
    | with_reducible refine kept_of_pair (by assumption) ?_
    | dsimp only

theorem State.patchCtrl_kept {s : State} (h : Kept q z n o c s) (fn : Nat) (v : Nat) : Kept q z n o c (State.patchCtrl s fn v) := by
  unfold State.patchCtrl
  repeat' first
    | with_reducible assumption
    | with_reducible apply State.code_kept
    | with_reducible apply State.set_kept
    | with_reducible apply State.windowCloses_kept
    | with_reducible apply kept_foldl
    | with_reducible apply kept_foldl_fst
    | with_reducible apply kept_else
    | with_reducible intro _
    | (simp only [↓kept_mk]; with_reducible apply kept_parts)
    | split
    | with_reducible refine kept_of_pair (by assumption) ?_
    | dsimp only

theorem State.windowTimesOut_kept {s : State} (h : Kept q z n o c s)  : Kept q z n o c (State.windowTimesOut s) := by
  unfold State.windowTimesOut
  repeat' first
    | with_reducible assumption
    | with_reducible apply State.runTo_kept
    | with_reducible apply State.windowCloses_kept
    | with_reducible apply kept_foldl
    | with_reducible apply kept_foldl_fst
    | with_reducible apply kept_else
    | with_reducible intro _
    | (simp only [↓kept_mk]; with_reducible apply kept_parts)
    | split
    | with_reducible refine kept_of_pair (by assumption) ?_
    | dsimp only

theorem State.patchHeld_kept {s : State} (h : Kept q z n o c s) (fn : Nat) (off : Nat) (act : State → State) (ha : ∀ t, Kept q z n o c t → Kept q z n o c (act t)) : Kept q z n o c (State.patchHeld s fn off act) := by
  unfold State.patchHeld
  repeat' first
    | with_reducible assumption
    | with_reducible apply State.code_kept
    | with_reducible apply ha
    | with_reducible apply kept_foldl
    | with_reducible apply kept_foldl_fst
    | with_reducible apply kept_else
    | with_reducible intro _
    | (simp only [↓kept_mk]; with_reducible apply kept_parts)
    | split
    | with_reducible refine kept_of_pair (by assumption) ?_
    | dsimp only

theorem State.patchChecked_kept {s : State} (h : Kept q z n o c s) (b : List Nat) (fetched : Bool) : Kept q z n o c (State.patchChecked s b fetched) := by
  unfold State.patchChecked
  repeat' first
    | with_reducible assumption
    | with_reducible apply State.set_kept
    | with_reducible apply State.modMgt_kept
    | with_reducible apply State.raise_kept
    | with_reducible apply State.startMoves_kept
    | with_reducible apply kept_foldl
    | with_reducible apply kept_foldl_fst
    | with_reducible apply kept_else
    | with_reducible intro _
    | (simp only [↓kept_mk]; with_reducible apply kept_parts)
    | split
    | with_reducible refine kept_of_pair (by assumption) ?_
    | dsimp only

theorem State.stopNow_kept {s : State} (h : Kept q z n o c s) (coolant : Bool) : Kept q z n o c (State.stopNow s coolant) := by
  unfold State.stopNow
  repeat' first
    | with_reducible assumption
    | with_reducible apply State.modMgt_kept
    | with_reducible apply State.safeHold_kept
    | with_reducible apply State.forEach_kept
    | with_reducible apply State.laneSleep_kept
    | with_reducible apply State.set_kept
    | with_reducible apply State.sendVid_kept
    | with_reducible apply State.raise_kept
    | with_reducible apply kept_foldl
    | with_reducible apply kept_foldl_fst
    | with_reducible apply kept_else
    | with_reducible intro _
    | (simp only [↓kept_mk]; with_reducible apply kept_parts)
    | split
    | with_reducible refine kept_of_pair (by assumption) ?_
    | dsimp only

theorem State.wiped_kept {s : State} (h : Kept q z n o c s) (next : NextStart) (keepLink : Bool) : Kept q z n o c (State.wiped s next keepLink) := by
  unfold State.wiped
  repeat' first
    | with_reducible assumption
    | with_reducible apply State.forEach_kept
    | with_reducible apply State.set_kept
    | exact { kept_parts h with regs := fun _ => rfl, shadow := fun _ => rfl }
    | with_reducible apply kept_hbmWrite
    | with_reducible apply kept_foldl
    | with_reducible apply kept_foldl_fst
    | with_reducible apply kept_else
    | with_reducible intro _
    | (simp only [↓kept_mk]; with_reducible apply kept_parts)
    | split
    | with_reducible refine kept_of_pair (by assumption) ?_
    | dsimp only

theorem State.startBegins_kept {s : State} (h : Kept q z n o c s)  : Kept q z n o c (State.startBegins s) := by
  unfold State.startBegins
  repeat' first
    | with_reducible assumption
    | with_reducible apply State.set_kept
    | with_reducible apply State.modMgt_kept
    | with_reducible apply State.startMoves_kept
    | with_reducible apply kept_hbmWrite
    | with_reducible apply kept_foldl
    | with_reducible apply kept_foldl_fst
    | with_reducible apply kept_else
    | with_reducible intro _
    | (simp only [↓kept_mk]; with_reducible apply kept_parts)
    | split
    | with_reducible refine kept_of_pair (by assumption) ?_
    | dsimp only

theorem State.resetFalls_kept {s : State} (h : Kept q z n o c s)  : Kept q z n o c (State.resetFalls s) := by
  unfold State.resetFalls
  repeat' first
    | with_reducible assumption
    | with_reducible apply State.modMgt_kept
    | with_reducible apply kept_foldl
    | with_reducible apply kept_foldl_fst
    | with_reducible apply kept_else
    | with_reducible intro _
    | (simp only [↓kept_mk]; with_reducible apply kept_parts)
    | split
    | with_reducible refine kept_of_pair (by assumption) ?_
    | dsimp only

theorem State.resetTaken_kept {s : State} (h : Kept q z n o c s)  : Kept q z n o c (State.resetTaken s) := by
  unfold State.resetTaken
  repeat' first
    | with_reducible assumption
    | with_reducible apply State.wiped_kept
    | with_reducible apply kept_hbmWrite
    | with_reducible apply kept_foldl
    | with_reducible apply kept_foldl_fst
    | with_reducible apply kept_else
    | with_reducible intro _
    | (simp only [↓kept_mk]; with_reducible apply kept_parts)
    | split
    | with_reducible refine kept_of_pair (by assumption) ?_
    | dsimp only

theorem State.resetRises_kept {s : State} (h : Kept q z n o c s) (refsel : Bool) : Kept q z n o c (State.resetRises s refsel) := by
  unfold State.resetRises
  repeat' first
    | with_reducible assumption
    | with_reducible apply State.modMgt_kept
    | with_reducible apply State.set_kept
    | with_reducible apply State.startBegins_kept
    | with_reducible apply kept_foldl
    | with_reducible apply kept_foldl_fst
    | with_reducible apply kept_else
    | with_reducible intro _
    | (simp only [↓kept_mk]; with_reducible apply kept_parts)
    | split
    | with_reducible refine kept_of_pair (by assumption) ?_
    | dsimp only

theorem State.powerRises_kept {s : State} (h : Kept q z n o c s)  : Kept q z n o c (State.powerRises s) := by
  unfold State.powerRises
  repeat' first
    | with_reducible assumption
    | with_reducible apply State.modMgt_kept
    | with_reducible apply State.wiped_kept
    | with_reducible apply kept_sramClear
    | with_reducible apply kept_foldl
    | with_reducible apply kept_foldl_fst
    | with_reducible apply kept_else
    | with_reducible intro _
    | (simp only [↓kept_mk]; with_reducible apply kept_parts)
    | split
    | with_reducible refine kept_of_pair (by assumption) ?_
    | dsimp only

theorem State.railFalls_kept {s : State} (h : Kept q z n o c s)  : Kept q z n o c (State.railFalls s) := by
  unfold State.railFalls
  repeat' first
    | with_reducible assumption
    | with_reducible apply State.modMgt_kept
    | with_reducible apply State.wiped_kept
    | with_reducible apply kept_foldl
    | with_reducible apply kept_foldl_fst
    | with_reducible apply kept_else
    | with_reducible intro _
    | (simp only [↓kept_mk]; with_reducible apply kept_parts)
    | split
    | with_reducible refine kept_of_pair (by assumption) ?_
    | dsimp only

theorem State.resetWrite_kept {s : State} (h : Kept q z n o c s) (fn : Nat) (v : Nat) : Kept q z n o c (State.resetWrite s fn v) := by
  unfold State.resetWrite
  repeat' first
    | with_reducible assumption
    | with_reducible apply State.code_kept
    | with_reducible apply State.set_kept
    | with_reducible apply State.modMgt_kept
    | with_reducible apply kept_foldl
    | with_reducible apply kept_foldl_fst
    | with_reducible apply kept_else
    | with_reducible intro _
    | (simp only [↓kept_mk]; with_reducible apply kept_parts)
    | split
    | with_reducible refine kept_of_pair (by assumption) ?_
    | dsimp only

theorem State.resetRuns_kept {s : State} (h : Kept q z n o c s)  : Kept q z n o c (State.resetRuns s) := by
  unfold State.resetRuns
  repeat' first
    | with_reducible assumption
    | with_reducible apply State.wiped_kept
    | with_reducible apply State.startBegins_kept
    | with_reducible apply kept_hbmWrite
    | with_reducible apply kept_foldl
    | with_reducible apply kept_foldl_fst
    | with_reducible apply kept_else
    | with_reducible intro _
    | (simp only [↓kept_mk]; with_reducible apply kept_parts)
    | split
    | with_reducible refine kept_of_pair (by assumption) ?_
    | dsimp only

theorem State.cqTimerEnds_kept {s : State} (h : Kept q z n o c s) (p : Nat) (c_ : Nat) : Kept q z n o c (State.cqTimerEnds s p c_) := by
  unfold State.cqTimerEnds
  repeat' first
    | with_reducible assumption
    | with_reducible apply State.runTo_kept
    | with_reducible apply State.cqTimer_kept
    | with_reducible apply kept_foldl
    | with_reducible apply kept_foldl_fst
    | with_reducible apply kept_else
    | with_reducible intro _
    | (simp only [↓kept_mk]; with_reducible apply kept_parts)
    | split
    | with_reducible refine kept_of_pair (by assumption) ?_
    | dsimp only

theorem State.slicePasses_kept {s : State} (h : Kept q z n o c s) (p : Nat) : Kept q z n o c (State.slicePasses s p) := by
  unfold State.slicePasses
  repeat' first
    | with_reducible assumption
    | with_reducible apply State.runToNs_kept
    | with_reducible apply State.sliceEnds_kept
    | with_reducible apply kept_foldl
    | with_reducible apply kept_foldl_fst
    | with_reducible apply kept_else
    | with_reducible intro _
    | (simp only [↓kept_mk]; with_reducible apply kept_parts)
    | split
    | with_reducible refine kept_of_pair (by assumption) ?_
    | dsimp only

theorem State.watchdogPasses_kept {s : State} (h : Kept q z n o c s) (p : Nat) : Kept q z n o c (State.watchdogPasses s p) := by
  unfold State.watchdogPasses
  repeat' first
    | with_reducible assumption
    | with_reducible apply State.runTo_kept
    | with_reducible apply State.watchdogAbort_kept
    | with_reducible apply kept_foldl
    | with_reducible apply kept_foldl_fst
    | with_reducible apply kept_else
    | with_reducible intro _
    | (simp only [↓kept_mk]; with_reducible apply kept_parts)
    | split
    | with_reducible refine kept_of_pair (by assumption) ?_
    | dsimp only

theorem State.refreshOf_kept {s : State} (h : Kept q z n o c s) (pc : Nat) : Kept q z n o c (State.refreshOf s pc) := by
  unfold State.refreshOf
  repeat' first
    | with_reducible assumption
    | with_reducible apply State.count_kept
    | with_reducible apply State.pmc_kept
    | with_reducible apply kept_foldl
    | with_reducible apply kept_foldl_fst
    | with_reducible apply kept_else
    | with_reducible intro _
    | (simp only [↓kept_mk]; with_reducible apply kept_parts)
    | split
    | with_reducible refine kept_of_pair (by assumption) ?_
    | dsimp only

theorem State.correctableIn_kept {s : State} (h : Kept q z n o c s) (pc : Nat) (line : Nat) : Kept q z n o c (State.correctableIn s pc line) := by
  unfold State.correctableIn
  repeat' first
    | with_reducible assumption
    | with_reducible apply State.ceFound_kept
    | with_reducible apply State.sramCount_kept
    | with_reducible apply kept_foldl
    | with_reducible apply kept_foldl_fst
    | with_reducible apply kept_else
    | with_reducible intro _
    | (simp only [↓kept_mk]; with_reducible apply kept_parts)
    | split
    | with_reducible refine kept_of_pair (by assumption) ?_
    | dsimp only

theorem State.bwWindows_kept {s : State} (h : Kept q z n o c s)  : Kept q z n o c (State.bwWindows s) := by
  unfold State.bwWindows
  repeat' first
    | with_reducible assumption
    | with_reducible apply State.forEach_kept
    | with_reducible apply State.bwWindow_kept
    | with_reducible apply kept_foldl
    | with_reducible apply kept_foldl_fst
    | with_reducible apply kept_else
    | with_reducible intro _
    | (simp only [↓kept_mk]; with_reducible apply kept_parts)
    | split
    | with_reducible refine kept_of_pair (by assumption) ?_
    | dsimp only

theorem State.peerReadPasses_kept {s : State} (h : Kept q z n o c s)  : Kept q z n o c (State.peerReadPasses s) := by
  unfold State.peerReadPasses
  repeat' first
    | with_reducible assumption
    | with_reducible apply State.runTo_kept
    | with_reducible apply State.peerReadTimeout_kept
    | with_reducible apply kept_foldl
    | with_reducible apply kept_foldl_fst
    | with_reducible apply kept_else
    | with_reducible intro _
    | (simp only [↓kept_mk]; with_reducible apply kept_parts)
    | split
    | with_reducible refine kept_of_pair (by assumption) ?_
    | dsimp only

theorem State.takeSpan_kept {s : State} (h : Kept q z n o c s)  : Kept q z n o c (State.takeSpan s) := by
  unfold State.takeSpan
  repeat' first
    | with_reducible assumption
    | with_reducible apply State.modTrk_kept
    | with_reducible apply State.spanTake_kept
    | with_reducible apply kept_foldl
    | with_reducible apply kept_foldl_fst
    | with_reducible apply kept_else
    | with_reducible intro _
    | (simp only [↓kept_mk]; with_reducible apply kept_parts)
    | split
    | with_reducible refine kept_of_pair (by assumption) ?_
    | dsimp only

theorem State.takeEntry_kept {s : State} (h : Kept q z n o c s) (k : Nat) (act : State → PartEntry → State)
    (ha : ∀ t e, Kept q z n o c t → Kept q z n o c (act t e)) : Kept q z n o c (s.takeEntry k act) := by
  unfold State.takeEntry
  split
  · exact h
  · split
    · exact ha _ _ (State.modTrk_kept h _)
    · exact h

theorem State.takeVerdict_kept {s : State} (h : Kept q z n o c s) (final : Bool) : Kept q z n o c (State.takeVerdict s final) := by
  unfold State.takeVerdict
  repeat' first
    | with_reducible assumption
    | with_reducible apply State.verdicts_kept
    | with_reducible apply State.modTrk_kept
    | with_reducible apply State.trkVerdict_kept
    | with_reducible apply kept_foldl
    | with_reducible apply kept_foldl_fst
    | with_reducible apply kept_else
    | with_reducible intro _
    | (simp only [↓kept_mk]; with_reducible apply kept_parts)
    | split
    | with_reducible refine kept_of_pair (by assumption) ?_
    | dsimp only

theorem State.hostRead_kept {s : State} (h : Kept q z n o c s) (fn : Nat) (off : Nat) : Kept q z n o c (State.hostRead s fn off) := by
  unfold State.hostRead
  repeat' first
    | with_reducible assumption
    | with_reducible apply State.emit_kept
    | exact { kept_parts h with given := List.IsPrefix.trans (kept_parts h).given (List.prefix_append _ _) }
    | with_reducible apply kept_foldl
    | with_reducible apply kept_foldl_fst
    | with_reducible apply kept_else
    | with_reducible intro _
    | (simp only [↓kept_mk]; with_reducible apply kept_parts)
    | split
    | with_reducible refine kept_of_pair (by assumption) ?_
    | dsimp only

end Sys2Proof.Machine
end

