-- ==== Sys2Proof/Laws/Kept6.lean ====
section
/-!
SUPPORT. Laws/Kept6.lean: the operations of the machine keep the queue, the fuses, the clock, the outputs and the stores.
-/
namespace Sys2Proof.Machine

set_option linter.unusedSimpArgs false

variable {q : List Instr} {z : Fuses} {n : Nat} {o : List Output} {c : Prop}

theorem State.enableRise_kept {s : State} (h : Kept q z n o c s) (fn : Nat) (p : PageId) : Kept q z n o c (State.enableRise s fn p) := by
  unfold State.enableRise
  repeat' first
    | with_reducible assumption
    | with_reducible apply State.enableLane_kept
    | with_reducible apply State.code_kept
    | with_reducible apply State.capEnable_kept
    | with_reducible apply State.capStop_kept
    | with_reducible apply State.lnpEnable_kept
    | with_reducible apply State.poolEnable_kept
    | with_reducible apply State.regionEnable_kept
    | with_reducible apply State.encEnable_kept
    | with_reducible apply State.ejtEnable_kept
    | with_reducible apply State.fioEnable_kept
    | with_reducible apply kept_foldl
    | with_reducible apply kept_foldl_fst
    | with_reducible apply kept_else
    | with_reducible intro _
    | (simp only [↓kept_mk]; with_reducible apply kept_parts)
    | split
    | with_reducible refine kept_of_pair (by assumption) ?_
    | dsimp only

theorem State.enableFall_kept {s : State} (h : Kept q z n o c s) (fn : Nat) (p : PageId) : Kept q z n o c (State.enableFall s fn p) := by
  unfold State.enableFall
  repeat' first
    | with_reducible assumption
    | with_reducible apply State.code_kept
    | with_reducible apply State.disableLane_kept
    | with_reducible apply State.peerFollow_kept
    | with_reducible apply State.capStop_kept
    | with_reducible apply State.set_kept
    | with_reducible apply State.spillAll_kept
    | with_reducible apply State.reserveAll_kept
    | with_reducible apply kept_foldl
    | with_reducible apply kept_foldl_fst
    | with_reducible apply kept_else
    | with_reducible intro _
    | (simp only [↓kept_mk]; with_reducible apply kept_parts)
    | split
    | with_reducible refine kept_of_pair (by assumption) ?_
    | dsimp only

theorem State.enableWrite_kept {s : State} (h : Kept q z n o c s) (fn : Nat) (p : PageId) (on : Bool) : Kept q z n o c (State.enableWrite s fn p on) := by
  unfold State.enableWrite
  repeat' first
    | with_reducible assumption
    | with_reducible apply State.enableRise_kept
    | with_reducible apply State.enableFall_kept
    | with_reducible apply kept_foldl
    | with_reducible apply kept_foldl_fst
    | with_reducible apply kept_else
    | with_reducible intro _
    | (simp only [↓kept_mk]; with_reducible apply kept_parts)
    | split
    | with_reducible refine kept_of_pair (by assumption) ?_
    | dsimp only

theorem State.quiesceRise_kept {s : State} (h : Kept q z n o c s) (p : PageId) : Kept q z n o c (State.quiesceRise s p) := by
  unfold State.quiesceRise
  repeat' first
    | with_reducible assumption
    | with_reducible apply State.set_kept
    | with_reducible apply State.capStop_kept
    | with_reducible apply State.spillAll_kept
    | with_reducible apply State.reserveAll_kept
    | with_reducible apply kept_foldl
    | with_reducible apply kept_foldl_fst
    | with_reducible apply kept_else
    | with_reducible intro _
    | (simp only [↓kept_mk]; with_reducible apply kept_parts)
    | split
    | with_reducible refine kept_of_pair (by assumption) ?_
    | dsimp only

theorem State.quiesceFall_kept {s : State} (h : Kept q z n o c s) (p : PageId) : Kept q z n o c (State.quiesceFall s p) := by
  unfold State.quiesceFall
  repeat' first
    | with_reducible assumption
    | with_reducible apply State.set_kept
    | with_reducible apply State.assignCredits_kept
    | with_reducible apply State.reserveAll_kept
    | with_reducible apply State.issueWaiting_kept
    | with_reducible apply kept_foldl
    | with_reducible apply kept_foldl_fst
    | with_reducible apply kept_else
    | with_reducible intro _
    | (simp only [↓kept_mk]; with_reducible apply kept_parts)
    | split
    | with_reducible refine kept_of_pair (by assumption) ?_
    | dsimp only

theorem State.quiesceWrite_kept {s : State} (h : Kept q z n o c s) (p : PageId) (on : Bool) : Kept q z n o c (State.quiesceWrite s p on) := by
  unfold State.quiesceWrite
  repeat' first
    | with_reducible assumption
    | with_reducible apply State.quiesceRise_kept
    | with_reducible apply State.quiesceFall_kept
    | with_reducible apply kept_foldl
    | with_reducible apply kept_foldl_fst
    | with_reducible apply kept_else
    | with_reducible intro _
    | (simp only [↓kept_mk]; with_reducible apply kept_parts)
    | split
    | with_reducible refine kept_of_pair (by assumption) ?_
    | dsimp only

theorem State.startRegs_kept {s : State} (h : Kept q z n o c s) (p : PageId) : Kept q z n o c (State.startRegs s p) := by
  unfold State.startRegs
  repeat' first
    | with_reducible assumption
    | with_reducible apply State.forEach_kept
    | with_reducible apply State.count_kept
    | with_reducible apply State.set_kept
    | with_reducible apply State.setShadow_kept
    | with_reducible apply kept_foldl
    | with_reducible apply kept_foldl_fst
    | with_reducible apply kept_else
    | with_reducible intro _
    | (simp only [↓kept_mk]; with_reducible apply kept_parts)
    | split
    | with_reducible refine kept_of_pair (by assumption) ?_
    | dsimp only

theorem State.softReset_kept {s : State} (h : Kept q z n o c s) (p : PageId) : Kept q z n o c (State.softReset s p) := by
  unfold State.softReset
  repeat' first
    | with_reducible assumption
    | with_reducible apply State.keepGen_kept
    | with_reducible apply State.startRegs_kept
    | with_reducible apply State.set_kept
    | with_reducible apply State.clearFlds_kept
    | with_reducible apply State.countWrap_kept
    | with_reducible apply State.dropLock_kept
    | with_reducible apply State.modCtx_kept
    | with_reducible apply State.dropGens_kept
    | with_reducible apply State.reserveAll_kept
    | with_reducible apply State.safeHold_kept
    | with_reducible apply kept_foldl
    | with_reducible apply kept_foldl_fst
    | with_reducible apply kept_else
    | with_reducible intro _
    | (simp only [↓kept_mk]; with_reducible apply kept_parts)
    | split
    | with_reducible refine kept_of_pair (by assumption) ?_
    | dsimp only

theorem State.softResetWrite_kept {s : State} (h : Kept q z n o c s) (fn : Nat) (p : PageId) : Kept q z n o c (State.softResetWrite s fn p) := by
  unfold State.softResetWrite
  repeat' first
    | with_reducible assumption
    | with_reducible apply State.code_kept
    | with_reducible apply State.softReset_kept
    | with_reducible apply kept_foldl
    | with_reducible apply kept_foldl_fst
    | with_reducible apply kept_else
    | with_reducible intro _
    | (simp only [↓kept_mk]; with_reducible apply kept_parts)
    | split
    | with_reducible refine kept_of_pair (by assumption) ?_
    | dsimp only

theorem State.ctrlWrite_kept {s : State} (h : Kept q z n o c s) (fn : Nat) (p : PageId) (v : Nat) : Kept q z n o c (State.ctrlWrite s fn p v) := by
  unfold State.ctrlWrite
  repeat' first
    | with_reducible assumption
    | with_reducible apply State.softResetWrite_kept
    | with_reducible apply State.quiesceWrite_kept
    | with_reducible apply State.enableWrite_kept
    | with_reducible apply kept_foldl
    | with_reducible apply kept_foldl_fst
    | with_reducible apply kept_else
    | with_reducible intro _
    | (simp only [↓kept_mk]; with_reducible apply kept_parts)
    | split
    | with_reducible refine kept_of_pair (by assumption) ?_
    | dsimp only

theorem State.evtEnableWrite_kept {s : State} (h : Kept q z n o c s) (p : PageId) (v : Nat) : Kept q z n o c (State.evtEnableWrite s p v) := by
  unfold State.evtEnableWrite
  repeat' first
    | with_reducible assumption
    | with_reducible apply State.set_kept
    | with_reducible apply State.signal_kept
    | with_reducible apply kept_foldl
    | with_reducible apply kept_foldl_fst
    | with_reducible apply kept_else
    | with_reducible intro _
    | (simp only [↓kept_mk]; with_reducible apply kept_parts)
    | split
    | with_reducible refine kept_of_pair (by assumption) ?_
    | dsimp only

theorem State.evtForceWrite_kept {s : State} (h : Kept q z n o c s) (p : PageId) (v : Nat) : Kept q z n o c (State.evtForceWrite s p v) := by
  unfold State.evtForceWrite
  repeat' first
    | with_reducible assumption
    | with_reducible apply State.raiseMask_kept
    | with_reducible apply kept_foldl
    | with_reducible apply kept_foldl_fst
    | with_reducible apply kept_else
    | with_reducible intro _
    | (simp only [↓kept_mk]; with_reducible apply kept_parts)
    | split
    | with_reducible refine kept_of_pair (by assumption) ?_
    | dsimp only

theorem State.errInfoWrite_kept {s : State} (h : Kept q z n o c s) (p : PageId) (v : Nat) : Kept q z n o c (State.errInfoWrite s p v) := by
  unfold State.errInfoWrite
  repeat' first
    | with_reducible assumption
    | with_reducible apply State.set_kept
    | with_reducible apply kept_foldl
    | with_reducible apply kept_foldl_fst
    | with_reducible apply kept_else
    | with_reducible intro _
    | (simp only [↓kept_mk]; with_reducible apply kept_parts)
    | split
    | with_reducible refine kept_of_pair (by assumption) ?_
    | dsimp only

theorem State.ownerSet_kept {s : State} (h : Kept q z n o c s) (fn : Nat) (p : PageId) (v : Nat) : Kept q z n o c (State.ownerSet s fn p v) := by
  unfold State.ownerSet
  repeat' first
    | with_reducible assumption
    | with_reducible apply State.code_kept
    | with_reducible apply State.rerouted_kept
    | with_reducible apply State.set_kept
    | with_reducible apply kept_foldl
    | with_reducible apply kept_foldl_fst
    | with_reducible apply kept_else
    | with_reducible intro _
    | (simp only [↓kept_mk]; with_reducible apply kept_parts)
    | split
    | with_reducible refine kept_of_pair (by assumption) ?_
    | dsimp only

theorem State.lockSet_kept {s : State} (h : Kept q z n o c s) (p : PageId) (v : Nat) : Kept q z n o c (State.lockSet s p v) := by
  unfold State.lockSet
  repeat' first
    | with_reducible assumption
    | with_reducible apply State.set_kept
    | with_reducible apply kept_foldl
    | with_reducible apply kept_foldl_fst
    | with_reducible apply kept_else
    | with_reducible intro _
    | (simp only [↓kept_mk]; with_reducible apply kept_parts)
    | split
    | with_reducible refine kept_of_pair (by assumption) ?_
    | dsimp only

theorem State.commitWrite_kept {s : State} (h : Kept q z n o c s) (fn : Nat) (p : PageId) (v : Nat) : Kept q z n o c (State.commitWrite s fn p v) := by
  unfold State.commitWrite
  repeat' first
    | with_reducible assumption
    | with_reducible apply State.set_kept
    | with_reducible apply State.code_kept
    | with_reducible apply kept_foldl
    | with_reducible apply kept_foldl_fst
    | with_reducible apply kept_else
    | with_reducible intro _
    | (simp only [↓kept_mk]; with_reducible apply kept_parts)
    | split
    | with_reducible refine kept_of_pair (by assumption) ?_
    | dsimp only

theorem State.putVals_kept {s : State} (h : Kept q z n o c s) (r : CommitRec) : Kept q z n o c (State.putVals s r) := by
  unfold State.putVals
  repeat' first
    | with_reducible assumption
    | with_reducible apply State.forEach_kept
    | with_reducible apply State.set_kept
    | with_reducible apply kept_foldl
    | with_reducible apply kept_foldl_fst
    | with_reducible apply kept_else
    | with_reducible intro _
    | (simp only [↓kept_mk]; with_reducible apply kept_parts)
    | split
    | with_reducible refine kept_of_pair (by assumption) ?_
    | dsimp only

theorem State.activateCommit_kept {s : State} (h : Kept q z n o c s) (r : CommitRec) : Kept q z n o c (State.activateCommit s r) := by
  unfold State.activateCommit
  repeat' first
    | with_reducible assumption
    | with_reducible apply State.keepGen_kept
    | with_reducible apply State.putVals_kept
    | with_reducible apply State.countWrap_kept
    | with_reducible apply State.dropLock_kept
    | with_reducible apply State.peerFollow_kept
    | with_reducible apply State.dropGens_kept
    | with_reducible apply State.boundary_kept
    | with_reducible apply State.set_kept
    | with_reducible apply State.reserveAll_kept
    | with_reducible apply kept_foldl
    | with_reducible apply kept_foldl_fst
    | with_reducible apply kept_else
    | with_reducible intro _
    | (simp only [↓kept_mk]; with_reducible apply kept_parts)
    | split
    | with_reducible refine kept_of_pair (by assumption) ?_
    | dsimp only

theorem State.commitReached_kept {s : State} (h : Kept q z n o c s) (p : PageId) : Kept q z n o c (State.commitReached s p) := by
  unfold State.commitReached
  repeat' first
    | with_reducible assumption
    | with_reducible apply State.code_kept
    | with_reducible apply State.activateCommit_kept
    | with_reducible apply State.raise_kept
    | with_reducible apply kept_foldl
    | with_reducible apply kept_foldl_fst
    | with_reducible apply kept_else
    | with_reducible intro _
    | (simp only [↓kept_mk]; with_reducible apply kept_parts)
    | split
    | with_reducible refine kept_of_pair (by assumption) ?_
    | dsimp only

theorem State.releaseCommits_kept {s : State} (h : Kept q z n o c s) (ok : PageId → Bool) : Kept q z n o c (State.releaseCommits s ok) := by
  unfold State.releaseCommits
  repeat' first
    | with_reducible assumption
    | with_reducible apply kept_foldl
    | with_reducible apply kept_foldl_fst
    | with_reducible apply kept_else
    | with_reducible intro _
    | (simp only [↓kept_mk]; with_reducible apply kept_parts)
    | split
    | with_reducible refine kept_of_pair (by assumption) ?_
    | dsimp only

theorem State.releaseEverything_kept {s : State} (h : Kept q z n o c s)  : Kept q z n o c (State.releaseEverything s) := by
  unfold State.releaseEverything
  repeat' first
    | with_reducible assumption
    | with_reducible apply State.releaseCommits_kept
    | with_reducible apply State.forEach_kept
    | with_reducible apply State.releaseLoads_kept
    | with_reducible apply kept_foldl
    | with_reducible apply kept_foldl_fst
    | with_reducible apply kept_else
    | with_reducible intro _
    | (simp only [↓kept_mk]; with_reducible apply kept_parts)
    | split
    | with_reducible refine kept_of_pair (by assumption) ?_
    | dsimp only

theorem State.releasePart_kept {s : State} (h : Kept q z n o c s) (p : Nat) : Kept q z n o c (State.releasePart s p) := by
  unfold State.releasePart
  repeat' first
    | with_reducible assumption
    | with_reducible apply State.releaseCommits_kept
    | with_reducible apply State.releaseLoads_kept
    | with_reducible apply kept_foldl
    | with_reducible apply kept_foldl_fst
    | with_reducible apply kept_else
    | with_reducible intro _
    | (simp only [↓kept_mk]; with_reducible apply kept_parts)
    | split
    | with_reducible refine kept_of_pair (by assumption) ?_
    | dsimp only

theorem State.originWrite_kept {s : State} (h : Kept q z n o c s) (p : PageId) (j : Nat) (v : Nat) : Kept q z n o c (State.originWrite s p j v) := by
  unfold State.originWrite
  repeat' first
    | with_reducible assumption
    | with_reducible apply State.dropLow_kept
    | with_reducible apply State.setShadow_kept
    | with_reducible apply kept_foldl
    | with_reducible apply kept_foldl_fst
    | with_reducible apply kept_else
    | with_reducible intro _
    | (simp only [↓kept_mk]; with_reducible apply kept_parts)
    | split
    | with_reducible refine kept_of_pair (by assumption) ?_
    | dsimp only

theorem State.writeWhole_kept {s : State} (h : Kept q z n o c s) (i : Nat) (f : Fld) (j : Nat) (x : Nat) : Kept q z n o c (State.writeWhole s i f j x) := by
  unfold State.writeWhole
  repeat' first
    | with_reducible assumption
    | with_reducible apply State.setShadow_kept
    | with_reducible apply State.set_kept
    | with_reducible apply kept_foldl
    | with_reducible apply kept_foldl_fst
    | with_reducible apply kept_else
    | with_reducible intro _
    | (simp only [↓kept_mk]; with_reducible apply kept_parts)
    | split
    | with_reducible refine kept_of_pair (by assumption) ?_
    | dsimp only

theorem State.regWord_kept {s : State} (h : Kept q z n o c s) (p : PageId) (woff : Nat) (v : Nat) : Kept q z n o c (State.regWord s p woff v) := by
  unfold State.regWord
  repeat' first
    | with_reducible assumption
    | with_reducible apply State.latchLow_kept
    | with_reducible apply State.originWrite_kept
    | with_reducible apply State.plainWrite_kept
    | with_reducible apply State.dropLow_kept
    | with_reducible apply State.writeWhole_kept
    | with_reducible apply kept_foldl
    | with_reducible apply kept_foldl_fst
    | with_reducible apply kept_else
    | with_reducible intro _
    | (simp only [↓kept_mk]; with_reducible apply kept_parts)
    | split
    | with_reducible refine kept_of_pair (by assumption) ?_
    | dsimp only

theorem State.regGuard_kept {s : State} (h : Kept q z n o c s) (fn : Nat) (p : PageId) (woff : Nat) (v : Nat) (bad : Bool) (code : Nat) : Kept q z n o c (State.regGuard s fn p woff v bad code) := by
  unfold State.regGuard
  repeat' first
    | with_reducible assumption
    | with_reducible apply State.code_kept
    | with_reducible apply State.regWord_kept
    | with_reducible apply kept_foldl
    | with_reducible apply kept_foldl_fst
    | with_reducible apply kept_else
    | with_reducible intro _
    | (simp only [↓kept_mk]; with_reducible apply kept_parts)
    | split
    | with_reducible refine kept_of_pair (by assumption) ?_
    | dsimp only

theorem State.slip_kept {s : State} (h : Kept q z n o c s) (l : Nat) : Kept q z n o c (State.slip s l) := by
  unfold State.slip
  repeat' first
    | with_reducible assumption
    | with_reducible apply State.countWrap_kept
    | with_reducible apply kept_foldl
    | with_reducible apply kept_foldl_fst
    | with_reducible apply kept_else
    | with_reducible intro _
    | (simp only [↓kept_mk]; with_reducible apply kept_parts)
    | split
    | with_reducible refine kept_of_pair (by assumption) ?_
    | dsimp only

theorem State.lanWord_kept {s : State} (h : Kept q z n o c s) (fn : Nat) (l : Nat) (woff : Nat) (v : Nat) : Kept q z n o c (State.lanWord s fn l woff v) := by
  unfold State.lanWord
  repeat' first
    | with_reducible assumption
    | with_reducible apply State.code_kept
    | with_reducible apply State.regWord_kept
    | with_reducible apply State.writePower_kept
    | with_reducible apply State.peerFollow_kept
    | with_reducible apply State.slip_kept
    | with_reducible apply State.clearFlds_kept
    | with_reducible apply State.mailboxSend_kept
    | with_reducible apply kept_foldl
    | with_reducible apply kept_foldl_fst
    | with_reducible apply kept_else
    | with_reducible intro _
    | (simp only [↓kept_mk]; with_reducible apply kept_parts)
    | split
    | with_reducible refine kept_of_pair (by assumption) ?_
    | dsimp only

theorem State.peerWord_kept {s : State} (h : Kept q z n o c s) (fn : Nat) (g : Nat) (woff : Nat) (v : Nat) : Kept q z n o c (State.peerWord s fn g woff v) := by
  unfold State.peerWord
  repeat' first
    | with_reducible assumption
    | with_reducible apply State.peerEnable_kept
    | with_reducible apply State.peerDisable_kept
    | with_reducible apply State.peerTrainWrite_kept
    | with_reducible apply State.clearFlds_kept
    | with_reducible apply State.regWord_kept
    | with_reducible apply kept_foldl
    | with_reducible apply kept_foldl_fst
    | with_reducible apply kept_else
    | with_reducible intro _
    | (simp only [↓kept_mk]; with_reducible apply kept_parts)
    | split
    | with_reducible refine kept_of_pair (by assumption) ?_
    | dsimp only

theorem State.capWord_kept {s : State} (h : Kept q z n o c s) (woff : Nat) (v : Nat) : Kept q z n o c (State.capWord s woff v) := by
  unfold State.capWord
  repeat' first
    | with_reducible assumption
    | with_reducible apply State.settleArm_kept
    | with_reducible apply State.regWord_kept
    | with_reducible apply kept_foldl
    | with_reducible apply kept_foldl_fst
    | with_reducible apply kept_else
    | with_reducible intro _
    | (simp only [↓kept_mk]; with_reducible apply kept_parts)
    | split
    | with_reducible refine kept_of_pair (by assumption) ?_
    | dsimp only

theorem State.capCtxWord_kept {s : State} (h : Kept q z n o c s) (fn : Nat) (c_ : Nat) (woff : Nat) (v : Nat) : Kept q z n o c (State.capCtxWord s fn c_ woff v) := by
  unfold State.capCtxWord
  repeat' first
    | with_reducible assumption
    | with_reducible apply State.replayPush_kept
    | with_reducible apply State.clearFlds_kept
    | with_reducible apply State.regWord_kept
    | with_reducible apply kept_foldl
    | with_reducible apply kept_foldl_fst
    | with_reducible apply kept_else
    | with_reducible intro _
    | (simp only [↓kept_mk]; with_reducible apply kept_parts)
    | split
    | with_reducible refine kept_of_pair (by assumption) ?_
    | dsimp only

theorem State.lnpWord_kept {s : State} (h : Kept q z n o c s) (woff : Nat) (v : Nat) : Kept q z n o c (State.lnpWord s woff v) := by
  unfold State.lnpWord
  repeat' first
    | with_reducible assumption
    | with_reducible apply State.clearFlds_kept
    | with_reducible apply State.regWord_kept
    | with_reducible apply kept_foldl
    | with_reducible apply kept_foldl_fst
    | with_reducible apply kept_else
    | with_reducible intro _
    | (simp only [↓kept_mk]; with_reducible apply kept_parts)
    | split
    | with_reducible refine kept_of_pair (by assumption) ?_
    | dsimp only

theorem State.lnpCtxWord_kept {s : State} (h : Kept q z n o c s) (fn : Nat) (c_ : Nat) (woff : Nat) (v : Nat) : Kept q z n o c (State.lnpCtxWord s fn c_ woff v) := by
  unfold State.lnpCtxWord
  repeat' first
    | with_reducible assumption
    | with_reducible apply State.regGuard_kept
    | with_reducible apply State.clearFlds_kept
    | with_reducible apply State.regWord_kept
    | with_reducible apply kept_foldl
    | with_reducible apply kept_foldl_fst
    | with_reducible apply kept_else
    | with_reducible intro _
    | (simp only [↓kept_mk]; with_reducible apply kept_parts)
    | split
    | with_reducible refine kept_of_pair (by assumption) ?_
    | dsimp only

theorem State.shareWrite_kept {s : State} (h : Kept q z n o c s) (fn : Nat) (k : Nat) (woff : Nat) (v : Nat) : Kept q z n o c (State.shareWrite s fn k woff v) := by
  unfold State.shareWrite
  repeat' first
    | with_reducible assumption
    | with_reducible apply State.regGuard_kept
    | with_reducible apply kept_foldl
    | with_reducible apply kept_foldl_fst
    | with_reducible apply kept_else
    | with_reducible intro _
    | (simp only [↓kept_mk]; with_reducible apply kept_parts)
    | split
    | with_reducible refine kept_of_pair (by assumption) ?_
    | dsimp only

theorem State.cluSelect_kept {s : State} (h : Kept q z n o c s) (fn : Nat) (k : Nat) (c_ : Nat) (woff : Nat) (v : Nat) : Kept q z n o c (State.cluSelect s fn k c_ woff v) := by
  unfold State.cluSelect
  repeat' first
    | with_reducible assumption
    | with_reducible apply State.code_kept
    | with_reducible apply State.regGuard_kept
    | with_reducible apply kept_foldl
    | with_reducible apply kept_foldl_fst
    | with_reducible apply kept_else
    | with_reducible intro _
    | (simp only [↓kept_mk]; with_reducible apply kept_parts)
    | split
    | with_reducible refine kept_of_pair (by assumption) ?_
    | dsimp only

theorem State.cluWord_kept {s : State} (h : Kept q z n o c s) (fn : Nat) (k : Nat) (woff : Nat) (v : Nat) : Kept q z n o c (State.cluWord s fn k woff v) := by
  unfold State.cluWord
  repeat' first
    | with_reducible assumption
    | with_reducible apply State.shareWrite_kept
    | with_reducible apply State.clearFlds_kept
    | with_reducible apply State.set_kept
    | with_reducible apply State.cluSelect_kept
    | with_reducible apply State.regGuard_kept
    | with_reducible apply State.regWord_kept
    | with_reducible apply kept_foldl
    | with_reducible apply kept_foldl_fst
    | with_reducible apply kept_else
    | with_reducible intro _
    | (simp only [↓kept_mk]; with_reducible apply kept_parts)
    | split
    | with_reducible refine kept_of_pair (by assumption) ?_
    | dsimp only

theorem State.fwnWord_kept {s : State} (h : Kept q z n o c s) (fn : Nat) (woff : Nat) (v : Nat) : Kept q z n o c (State.fwnWord s fn woff v) := by
  unfold State.fwnWord
  repeat' first
    | with_reducible assumption
    | with_reducible apply State.regGuard_kept
    | with_reducible apply State.clearFlds_kept
    | with_reducible apply State.regWord_kept
    | with_reducible apply kept_foldl
    | with_reducible apply kept_foldl_fst
    | with_reducible apply kept_else
    | with_reducible intro _
    | (simp only [↓kept_mk]; with_reducible apply kept_parts)
    | split
    | with_reducible refine kept_of_pair (by assumption) ?_
    | dsimp only

theorem State.atnWord_kept {s : State} (h : Kept q z n o c s) (woff : Nat) (v : Nat) : Kept q z n o c (State.atnWord s woff v) := by
  unfold State.atnWord
  repeat' first
    | with_reducible assumption
    | with_reducible apply State.clearFlds_kept
    | with_reducible apply State.regWord_kept
    | with_reducible apply kept_foldl
    | with_reducible apply kept_foldl_fst
    | with_reducible apply kept_else
    | with_reducible intro _
    | (simp only [↓kept_mk]; with_reducible apply kept_parts)
    | split
    | with_reducible refine kept_of_pair (by assumption) ?_
    | dsimp only

theorem State.poolWord_kept {s : State} (h : Kept q z n o c s) (fn : Nat) (q_ : Nat) (woff : Nat) (v : Nat) : Kept q z n o c (State.poolWord s fn q_ woff v) := by
  unfold State.poolWord
  repeat' first
    | with_reducible assumption
    | with_reducible apply State.regGuard_kept
    | with_reducible apply State.clearFlds_kept
    | with_reducible apply State.regWord_kept
    | with_reducible apply kept_foldl
    | with_reducible apply kept_foldl_fst
    | with_reducible apply kept_else
    | with_reducible intro _
    | (simp only [↓kept_mk]; with_reducible apply kept_parts)
    | split
    | with_reducible refine kept_of_pair (by assumption) ?_
    | dsimp only

theorem State.memPcWord_kept {s : State} (h : Kept q z n o c s) (k : Nat) (woff : Nat) (v : Nat) : Kept q z n o c (State.memPcWord s k woff v) := by
  unfold State.memPcWord
  repeat' first
    | with_reducible assumption
    | with_reducible apply State.clearFlds_kept
    | with_reducible apply State.regWord_kept
    | with_reducible apply kept_foldl
    | with_reducible apply kept_foldl_fst
    | with_reducible apply kept_else
    | with_reducible intro _
    | (simp only [↓kept_mk]; with_reducible apply kept_parts)
    | split
    | with_reducible refine kept_of_pair (by assumption) ?_
    | dsimp only

theorem State.memWord_kept {s : State} (h : Kept q z n o c s) (woff : Nat) (v : Nat) : Kept q z n o c (State.memWord s woff v) := by
  unfold State.memWord
  repeat' first
    | with_reducible assumption
    | with_reducible apply State.clearFlds_kept
    | with_reducible apply State.regWord_kept
    | with_reducible apply kept_foldl
    | with_reducible apply kept_foldl_fst
    | with_reducible apply kept_else
    | with_reducible intro _
    | (simp only [↓kept_mk]; with_reducible apply kept_parts)
    | split
    | with_reducible refine kept_of_pair (by assumption) ?_
    | dsimp only

theorem State.memPartWord_kept {s : State} (h : Kept q z n o c s) (fn : Nat) (p : Nat) (woff : Nat) (v : Nat) : Kept q z n o c (State.memPartWord s fn p woff v) := by
  unfold State.memPartWord
  repeat' first
    | with_reducible assumption
    | with_reducible apply State.regGuard_kept
    | with_reducible apply State.clearFlds_kept
    | with_reducible apply State.regWord_kept
    | with_reducible apply kept_foldl
    | with_reducible apply kept_foldl_fst
    | with_reducible apply kept_else
    | with_reducible intro _
    | (simp only [↓kept_mk]; with_reducible apply kept_parts)
    | split
    | with_reducible refine kept_of_pair (by assumption) ?_
    | dsimp only

theorem State.cacheWord_kept {s : State} (h : Kept q z n o c s) (fn : Nat) (woff : Nat) (v : Nat) : Kept q z n o c (State.cacheWord s fn woff v) := by
  unfold State.cacheWord
  repeat' first
    | with_reducible assumption
    | with_reducible apply State.code_kept
    | with_reducible apply State.regWord_kept
    | with_reducible apply State.dropLow_kept
    | with_reducible apply State.cacheFlush_kept
    | with_reducible apply kept_foldl
    | with_reducible apply kept_foldl_fst
    | with_reducible apply kept_else
    | with_reducible intro _
    | (simp only [↓kept_mk]; with_reducible apply kept_parts)
    | split
    | with_reducible refine kept_of_pair (by assumption) ?_
    | dsimp only

theorem State.decWord_kept {s : State} (h : Kept q z n o c s) (fn : Nat) (woff : Nat) (v : Nat) : Kept q z n o c (State.decWord s fn woff v) := by
  unfold State.decWord
  repeat' first
    | with_reducible assumption
    | with_reducible apply State.cacheWord_kept
    | with_reducible apply State.flushWrite_kept
    | with_reducible apply State.clearFlds_kept
    | with_reducible apply State.regWord_kept
    | with_reducible apply kept_foldl
    | with_reducible apply kept_foldl_fst
    | with_reducible apply kept_else
    | with_reducible intro _
    | (simp only [↓kept_mk]; with_reducible apply kept_parts)
    | split
    | with_reducible refine kept_of_pair (by assumption) ?_
    | dsimp only

theorem State.encWord_kept {s : State} (h : Kept q z n o c s) (fn : Nat) (e : Nat) (woff : Nat) (v : Nat) : Kept q z n o c (State.encWord s fn e woff v) := by
  unfold State.encWord
  repeat' first
    | with_reducible assumption
    | with_reducible apply State.regGuard_kept
    | with_reducible apply State.clearFlds_kept
    | with_reducible apply State.encSelect_kept
    | with_reducible apply State.regWord_kept
    | with_reducible apply kept_foldl
    | with_reducible apply kept_foldl_fst
    | with_reducible apply kept_else
    | with_reducible intro _
    | (simp only [↓kept_mk]; with_reducible apply kept_parts)
    | split
    | with_reducible refine kept_of_pair (by assumption) ?_
    | dsimp only

theorem State.cmpWord_kept {s : State} (h : Kept q z n o c s) (fn : Nat) (n_ : Nat) (rel : Nat) (woff : Nat) (v : Nat) : Kept q z n o c (State.cmpWord s fn n_ rel woff v) := by
  unfold State.cmpWord
  repeat' first
    | with_reducible assumption
    | with_reducible apply State.set_kept
    | with_reducible apply State.cmpArm_kept
    | with_reducible apply State.code_kept
    | with_reducible apply State.regGuard_kept
    | with_reducible apply State.regWord_kept
    | with_reducible apply kept_foldl
    | with_reducible apply kept_foldl_fst
    | with_reducible apply kept_else
    | with_reducible intro _
    | (simp only [↓kept_mk]; with_reducible apply kept_parts)
    | split
    | with_reducible refine kept_of_pair (by assumption) ?_
    | dsimp only

theorem State.timWord_kept {s : State} (h : Kept q z n o c s) (fn : Nat) (woff : Nat) (v : Nat) : Kept q z n o c (State.timWord s fn woff v) := by
  unfold State.timWord
  repeat' first
    | with_reducible assumption
    | with_reducible apply State.regGuard_kept
    | with_reducible apply State.timeSetHeld_kept
    | with_reducible apply State.regWord_kept
    | with_reducible apply State.timeSet_kept
    | with_reducible apply State.timeAdjust_kept
    | with_reducible apply State.cmpWord_kept
    | with_reducible apply kept_foldl
    | with_reducible apply kept_foldl_fst
    | with_reducible apply kept_else
    | with_reducible intro _
    | (simp only [↓kept_mk]; with_reducible apply kept_parts)
    | split
    | with_reducible refine kept_of_pair (by assumption) ?_
    | dsimp only

theorem State.trkWord_kept {s : State} (h : Kept q z n o c s) (woff : Nat) (v : Nat) : Kept q z n o c (State.trkWord s woff v) := by
  unfold State.trkWord
  repeat' first
    | with_reducible assumption
    | with_reducible apply State.clearFlds_kept
    | with_reducible apply State.regWord_kept
    | with_reducible apply State.reserveAll_kept
    | with_reducible apply kept_foldl
    | with_reducible apply kept_foldl_fst
    | with_reducible apply kept_else
    | with_reducible intro _
    | (simp only [↓kept_mk]; with_reducible apply kept_parts)
    | split
    | with_reducible refine kept_of_pair (by assumption) ?_
    | dsimp only

theorem State.ejtWord_kept {s : State} (h : Kept q z n o c s) (woff : Nat) (v : Nat) : Kept q z n o c (State.ejtWord s woff v) := by
  unfold State.ejtWord
  repeat' first
    | with_reducible assumption
    | with_reducible apply State.clearFlds_kept
    | with_reducible apply State.set_kept
    | with_reducible apply State.regWord_kept
    | with_reducible apply kept_foldl
    | with_reducible apply kept_foldl_fst
    | with_reducible apply kept_else
    | with_reducible intro _
    | (simp only [↓kept_mk]; with_reducible apply kept_parts)
    | split
    | with_reducible refine kept_of_pair (by assumption) ?_
    | dsimp only

theorem State.fioWord_kept {s : State} (h : Kept q z n o c s) (fn : Nat) (woff : Nat) (v : Nat) : Kept q z n o c (State.fioWord s fn woff v) := by
  unfold State.fioWord
  repeat' first
    | with_reducible assumption
    | with_reducible apply State.regWord_kept
    | with_reducible apply State.foUpdate_kept
    | with_reducible apply State.outputSet_kept
    | with_reducible apply State.wdogWord_kept
    | with_reducible apply State.wdogKick_kept
    | with_reducible apply State.safeRelease_kept
    | with_reducible apply State.clearFlds_kept
    | with_reducible apply kept_foldl
    | with_reducible apply kept_foldl_fst
    | with_reducible apply kept_else
    | with_reducible intro _
    | (simp only [↓kept_mk]; with_reducible apply kept_parts)
    | split
    | with_reducible refine kept_of_pair (by assumption) ?_
    | dsimp only

theorem State.hlkWord_kept {s : State} (h : Kept q z n o c s) (woff : Nat) (v : Nat) : Kept q z n o c (State.hlkWord s woff v) := by
  unfold State.hlkWord
  repeat' first
    | with_reducible assumption
    | with_reducible apply State.linkFalls_kept
    | with_reducible apply State.clearFlds_kept
    | with_reducible apply State.regWord_kept
    | with_reducible apply kept_foldl
    | with_reducible apply kept_foldl_fst
    | with_reducible apply kept_else
    | with_reducible intro _
    | (simp only [↓kept_mk]; with_reducible apply kept_parts)
    | split
    | with_reducible refine kept_of_pair (by assumption) ?_
    | dsimp only

theorem State.partWord_kept {s : State} (h : Kept q z n o c s) (fn : Nat) (p : Nat) (woff : Nat) (v : Nat) : Kept q z n o c (State.partWord s fn p woff v) := by
  unfold State.partWord
  repeat' first
    | with_reducible assumption
    | with_reducible apply State.rerouted_kept
    | with_reducible apply State.partWrite_kept
    | with_reducible apply State.regWord_kept
    | with_reducible apply kept_foldl
    | with_reducible apply kept_foldl_fst
    | with_reducible apply kept_else
    | with_reducible intro _
    | (simp only [↓kept_mk]; with_reducible apply kept_parts)
    | split
    | with_reducible refine kept_of_pair (by assumption) ?_
    | dsimp only

theorem State.unmasked_kept {s : State} (h : Kept q z n o c s) (fn : Nat) (vec : Nat) : Kept q z n o c (State.unmasked s fn vec) := by
  unfold State.unmasked
  repeat' first
    | with_reducible assumption
    | with_reducible apply State.setPba_kept
    | with_reducible apply State.sendMsix_kept
    | with_reducible apply kept_foldl
    | with_reducible apply kept_foldl_fst
    | with_reducible apply kept_else
    | with_reducible intro _
    | (simp only [↓kept_mk]; with_reducible apply kept_parts)
    | split
    | with_reducible refine kept_of_pair (by assumption) ?_
    | dsimp only

theorem State.msixTableWord_kept {s : State} (h : Kept q z n o c s) (p : PageId) (fn : Nat) (idx : Nat) (woff : Nat) (v : Nat) : Kept q z n o c (State.msixTableWord s p fn idx woff v) := by
  unfold State.msixTableWord
  repeat' first
    | with_reducible assumption
    | with_reducible apply State.regWord_kept
    | with_reducible apply State.unmasked_kept
    | with_reducible apply kept_foldl
    | with_reducible apply kept_foldl_fst
    | with_reducible apply kept_else
    | with_reducible intro _
    | (simp only [↓kept_mk]; with_reducible apply kept_parts)
    | split
    | with_reducible refine kept_of_pair (by assumption) ?_
    | dsimp only

theorem State.cmdWord_kept {s : State} (h : Kept q z n o c s) (fn : Nat) (woff : Nat) (v : Nat) : Kept q z n o c (State.cmdWord s fn woff v) := by
  unfold State.cmdWord
  repeat' first
    | with_reducible assumption
    | with_reducible apply State.partWord_kept
    | with_reducible apply State.msixTableWord_kept
    | with_reducible apply State.regWord_kept
    | with_reducible apply kept_foldl
    | with_reducible apply kept_foldl_fst
    | with_reducible apply kept_else
    | with_reducible intro _
    | (simp only [↓kept_mk]; with_reducible apply kept_parts)
    | split
    | with_reducible refine kept_of_pair (by assumption) ?_
    | dsimp only

theorem State.planWord_kept {s : State} (h : Kept q z n o c s) (fn : Nat) (p : Nat) (k : Nat) (rel : Nat) (woff : Nat) (v : Nat) : Kept q z n o c (State.planWord s fn p k rel woff v) := by
  unfold State.planWord
  repeat' first
    | with_reducible assumption
    | with_reducible apply State.set_kept
    | with_reducible apply State.planGo_kept
    | with_reducible apply State.planUnload_kept
    | with_reducible apply State.regWord_kept
    | with_reducible apply kept_foldl
    | with_reducible apply kept_foldl_fst
    | with_reducible apply kept_else
    | with_reducible intro _
    | (simp only [↓kept_mk]; with_reducible apply kept_parts)
    | split
    | with_reducible refine kept_of_pair (by assumption) ?_
    | dsimp only

theorem State.sqWord_kept {s : State} (h : Kept q z n o c s) (fn : Nat) (p : Nat) (q_ : Nat) (rel : Nat) (woff : Nat) (v : Nat) : Kept q z n o c (State.sqWord s fn p q_ rel woff v) := by
  unfold State.sqWord
  repeat' first
    | with_reducible assumption
    | with_reducible apply State.regGuard_kept
    | with_reducible apply State.code_kept
    | with_reducible apply State.regWord_kept
    | with_reducible apply State.set_kept
    | with_reducible apply State.sqDoorbell_kept
    | with_reducible apply kept_foldl
    | with_reducible apply kept_foldl_fst
    | with_reducible apply kept_else
    | with_reducible intro _
    | (simp only [↓kept_mk]; with_reducible apply kept_parts)
    | split
    | with_reducible refine kept_of_pair (by assumption) ?_
    | dsimp only

theorem State.cqWord_kept {s : State} (h : Kept q z n o c s) (fn : Nat) (p : Nat) (c_ : Nat) (rel : Nat) (woff : Nat) (v : Nat) : Kept q z n o c (State.cqWord s fn p c_ rel woff v) := by
  unfold State.cqWord
  repeat' first
    | with_reducible assumption
    | with_reducible apply State.regGuard_kept
    | with_reducible apply State.code_kept
    | with_reducible apply State.regWord_kept
    | with_reducible apply State.cqFlush_kept
    | with_reducible apply State.cqHead_kept
    | with_reducible apply kept_foldl
    | with_reducible apply kept_foldl_fst
    | with_reducible apply kept_else
    | with_reducible intro _
    | (simp only [↓kept_mk]; with_reducible apply kept_parts)
    | split
    | with_reducible refine kept_of_pair (by assumption) ?_
    | dsimp only

theorem State.digWord_kept {s : State} (h : Kept q z n o c s) (fn : Nat) (p : Nat) (woff : Nat) (v : Nat) : Kept q z n o c (State.digWord s fn p woff v) := by
  unfold State.digWord
  repeat' first
    | with_reducible assumption
    | with_reducible apply State.code_kept
    | with_reducible apply State.regWord_kept
    | with_reducible apply State.set_kept
    | with_reducible apply kept_foldl
    | with_reducible apply kept_foldl_fst
    | with_reducible apply kept_else
    | with_reducible intro _
    | (simp only [↓kept_mk]; with_reducible apply kept_parts)
    | split
    | with_reducible refine kept_of_pair (by assumption) ?_
    | dsimp only

theorem State.cmdPartWord_kept {s : State} (h : Kept q z n o c s) (fn : Nat) (p : Nat) (woff : Nat) (v : Nat) : Kept q z n o c (State.cmdPartWord s fn p woff v) := by
  unfold State.cmdPartWord
  repeat' first
    | with_reducible assumption
    | with_reducible apply State.releasePart_kept
    | with_reducible apply State.clearFlds_kept
    | with_reducible apply State.regGuard_kept
    | with_reducible apply State.digWord_kept
    | with_reducible apply State.planWord_kept
    | with_reducible apply State.sqWord_kept
    | with_reducible apply State.cqWord_kept
    | with_reducible apply State.msixTableWord_kept
    | with_reducible apply State.regWord_kept
    | with_reducible apply kept_foldl
    | with_reducible apply kept_foldl_fst
    | with_reducible apply kept_else
    | with_reducible intro _
    | (simp only [↓kept_mk]; with_reducible apply kept_parts)
    | split
    | with_reducible refine kept_of_pair (by assumption) ?_
    | dsimp only

theorem State.pmcControl_kept {s : State} (h : Kept q z n o c s) (freeze : Bool) (unfreeze : Bool) : Kept q z n o c (State.pmcControl s freeze unfreeze) := by
  unfold State.pmcControl
  repeat' first
    | with_reducible assumption
    | with_reducible apply State.pmcFreezeNow_kept
    | with_reducible apply State.set_kept
    | with_reducible apply kept_foldl
    | with_reducible apply kept_foldl_fst
    | with_reducible apply kept_else
    | with_reducible intro _
    | (simp only [↓kept_mk]; with_reducible apply kept_parts)
    | split
    | with_reducible refine kept_of_pair (by assumption) ?_
    | dsimp only

theorem State.pmcClear_kept {s : State} (h : Kept q z n o c s) (fn : Nat) (mask : Nat) : Kept q z n o c (State.pmcClear s fn mask) := by
  unfold State.pmcClear
  repeat' first
    | with_reducible assumption
    | with_reducible apply State.forEach_kept
    | with_reducible apply State.set_kept
    | with_reducible apply State.code_kept
    | with_reducible apply kept_foldl
    | with_reducible apply kept_foldl_fst
    | with_reducible apply kept_else
    | with_reducible intro _
    | (simp only [↓kept_mk]; with_reducible apply kept_parts)
    | split
    | with_reducible refine kept_of_pair (by assumption) ?_
    | dsimp only

theorem State.pmcStart_kept {s : State} (h : Kept q z n o c s) (n_ : Nat) : Kept q z n o c (State.pmcStart s n_) := by
  unfold State.pmcStart
  repeat' first
    | with_reducible assumption
    | with_reducible apply State.set_kept
    | with_reducible apply kept_foldl
    | with_reducible apply kept_foldl_fst
    | with_reducible apply kept_else
    | with_reducible intro _
    | (simp only [↓kept_mk]; with_reducible apply kept_parts)
    | split
    | with_reducible refine kept_of_pair (by assumption) ?_
    | dsimp only

theorem State.pmcSelect_kept {s : State} (h : Kept q z n o c s) (fn : Nat) (n_ : Nat) (woff : Nat) (v : Nat) : Kept q z n o c (State.pmcSelect s fn n_ woff v) := by
  unfold State.pmcSelect
  repeat' first
    | with_reducible assumption
    | with_reducible apply State.code_kept
    | with_reducible apply State.regWord_kept
    | with_reducible apply State.pmcStart_kept
    | with_reducible apply kept_foldl
    | with_reducible apply kept_foldl_fst
    | with_reducible apply kept_else
    | with_reducible intro _
    | (simp only [↓kept_mk]; with_reducible apply kept_parts)
    | split
    | with_reducible refine kept_of_pair (by assumption) ?_
    | dsimp only

theorem State.pmcWord_kept {s : State} (h : Kept q z n o c s) (fn : Nat) (woff : Nat) (v : Nat) : Kept q z n o c (State.pmcWord s fn woff v) := by
  unfold State.pmcWord
  repeat' first
    | with_reducible assumption
    | with_reducible apply State.regWord_kept
    | with_reducible apply State.pmcControl_kept
    | with_reducible apply State.pmcClear_kept
    | with_reducible apply State.pmcSelect_kept
    | with_reducible apply State.regGuard_kept
    | with_reducible apply kept_foldl
    | with_reducible apply kept_foldl_fst
    | with_reducible apply kept_else
    | with_reducible intro _
    | (simp only [↓kept_mk]; with_reducible apply kept_parts)
    | split
    | with_reducible refine kept_of_pair (by assumption) ?_
    | dsimp only

theorem State.pwrWord_kept {s : State} (h : Kept q z n o c s) (fn : Nat) (woff : Nat) (v : Nat) : Kept q z n o c (State.pwrWord s fn woff v) := by
  unfold State.pwrWord
  repeat' first
    | with_reducible assumption
    | with_reducible apply State.regGuard_kept
    | with_reducible apply kept_foldl
    | with_reducible apply kept_foldl_fst
    | with_reducible apply kept_else
    | with_reducible intro _
    | (simp only [↓kept_mk]; with_reducible apply kept_parts)
    | split
    | with_reducible refine kept_of_pair (by assumption) ?_
    | dsimp only

theorem State.modeWord'_kept {s : State} (h : Kept q z n o c s) (woff : Nat) (v : Nat) : Kept q z n o c (State.modeWord' s woff v) := by
  unfold State.modeWord'
  repeat' first
    | with_reducible assumption
    | with_reducible apply State.regWord_kept
    | with_reducible apply State.toPoint_kept
    | with_reducible apply kept_foldl
    | with_reducible apply kept_foldl_fst
    | with_reducible apply kept_else
    | with_reducible intro _
    | (simp only [↓kept_mk]; with_reducible apply kept_parts)
    | split
    | with_reducible refine kept_of_pair (by assumption) ?_
    | dsimp only

theorem State.mgtWord_kept {s : State} (h : Kept q z n o c s) (fn : Nat) (woff : Nat) (v : Nat) : Kept q z n o c (State.mgtWord s fn woff v) := by
  unfold State.mgtWord
  repeat' first
    | with_reducible assumption
    | with_reducible apply State.modeWord'_kept
    | with_reducible apply State.releaseEverything_kept
    | with_reducible apply State.resetWrite_kept
    | with_reducible apply State.startOk_kept
    | with_reducible apply State.faultForce_kept
    | with_reducible apply State.regWord_kept
    | with_reducible apply kept_foldl
    | with_reducible apply kept_foldl_fst
    | with_reducible apply kept_else
    | with_reducible intro _
    | (simp only [↓kept_mk]; with_reducible apply kept_parts)
    | split
    | with_reducible refine kept_of_pair (by assumption) ?_
    | dsimp only

theorem State.secWord_kept {s : State} (h : Kept q z n o c s) (fn : Nat) (woff : Nat) (v : Nat) : Kept q z n o c (State.secWord s fn woff v) := by
  unfold State.secWord
  repeat' first
    | with_reducible assumption
    | with_reducible apply State.patchHeld_kept
    | with_reducible apply State.regWord_kept
    | with_reducible apply State.patchCtrl_kept
    | with_reducible apply State.attestHeld_kept
    | with_reducible apply State.attestGo_kept
    | with_reducible apply kept_foldl
    | with_reducible apply kept_foldl_fst
    | with_reducible apply kept_else
    | with_reducible intro _
    | (simp only [↓kept_mk]; with_reducible apply kept_parts)
    | split
    | with_reducible refine kept_of_pair (by assumption) ?_
    | dsimp only

theorem State.retCtrl_kept {s : State} (h : Kept q z n o c s) (fn : Nat) (v : Nat) : Kept q z n o c (State.retCtrl s fn v) := by
  unfold State.retCtrl
  repeat' first
    | with_reducible assumption
    | with_reducible apply State.snapGo_kept
    | with_reducible apply State.velvetErase_kept
    | with_reducible apply kept_foldl
    | with_reducible apply kept_foldl_fst
    | with_reducible apply kept_else
    | with_reducible intro _
    | (simp only [↓kept_mk]; with_reducible apply kept_parts)
    | split
    | with_reducible refine kept_of_pair (by assumption) ?_
    | dsimp only

theorem State.retWord_kept {s : State} (h : Kept q z n o c s) (fn : Nat) (woff : Nat) (v : Nat) : Kept q z n o c (State.retWord s fn woff v) := by
  unfold State.retWord
  repeat' first
    | with_reducible assumption
    | with_reducible apply State.retCtrl_kept
    | with_reducible apply State.retireClear_kept
    | with_reducible apply State.regWord_kept
    | with_reducible apply kept_foldl
    | with_reducible apply kept_foldl_fst
    | with_reducible apply kept_else
    | with_reducible intro _
    | (simp only [↓kept_mk]; with_reducible apply kept_parts)
    | split
    | with_reducible refine kept_of_pair (by assumption) ?_
    | dsimp only

theorem State.blockWord_kept {s : State} (h : Kept q z n o c s) (fn : Nat) (p : PageId) (woff : Nat) (v : Nat) : Kept q z n o c (State.blockWord s fn p woff v) := by
  unfold State.blockWord
  repeat' first
    | with_reducible assumption
    | with_reducible apply State.lanWord_kept
    | with_reducible apply State.peerWord_kept
    | with_reducible apply State.capWord_kept
    | with_reducible apply State.capCtxWord_kept
    | with_reducible apply State.lnpWord_kept
    | with_reducible apply State.lnpCtxWord_kept
    | with_reducible apply State.cluWord_kept
    | with_reducible apply State.regWord_kept
    | with_reducible apply State.fwnWord_kept
    | with_reducible apply State.atnWord_kept
    | with_reducible apply State.poolWord_kept
    | with_reducible apply State.memPcWord_kept
    | with_reducible apply State.memWord_kept
    | with_reducible apply State.memPartWord_kept
    | with_reducible apply State.decWord_kept
    | with_reducible apply State.encWord_kept
    | with_reducible apply State.timWord_kept
    | with_reducible apply State.trkWord_kept
    | with_reducible apply State.ejtWord_kept
    | with_reducible apply State.fioWord_kept
    | with_reducible apply State.hlkWord_kept
    | with_reducible apply State.cmdWord_kept
    | with_reducible apply State.cmdPartWord_kept
    | with_reducible apply State.pmc_kept
    | with_reducible apply State.pmcWord_kept
    | with_reducible apply State.pwrWord_kept
    | with_reducible apply State.mgtWord_kept
    | with_reducible apply State.secWord_kept
    | with_reducible apply State.retWord_kept
    | with_reducible apply kept_foldl
    | with_reducible apply kept_foldl_fst
    | with_reducible apply kept_else
    | with_reducible intro _
    | (simp only [↓kept_mk]; with_reducible apply kept_parts)
    | split
    | with_reducible refine kept_of_pair (by assumption) ?_
    | dsimp only

theorem State.headerWord_kept {s : State} (h : Kept q z n o c s) (fn : Nat) (p : PageId) (woff : Nat) (v : Nat) : Kept q z n o c (State.headerWord s fn p woff v) := by
  unfold State.headerWord
  repeat' first
    | with_reducible assumption
    | with_reducible apply State.ctrlWrite_kept
    | with_reducible apply State.set_kept
    | with_reducible apply State.evtEnableWrite_kept
    | with_reducible apply State.evtForceWrite_kept
    | with_reducible apply State.errInfoWrite_kept
    | with_reducible apply State.commitWrite_kept
    | with_reducible apply State.ownerSet_kept
    | with_reducible apply State.lockSet_kept
    | with_reducible apply kept_foldl
    | with_reducible apply kept_foldl_fst
    | with_reducible apply kept_else
    | with_reducible intro _
    | (simp only [↓kept_mk]; with_reducible apply kept_parts)
    | split
    | with_reducible refine kept_of_pair (by assumption) ?_
    | dsimp only

theorem State.hostWord_kept {s : State} (h : Kept q z n o c s) (fn : Nat) (p : PageId) (woff : Nat) (v : Nat) : Kept q z n o c (State.hostWord s fn p woff v) := by
  unfold State.hostWord
  repeat' first
    | with_reducible assumption
    | with_reducible apply State.code_kept
    | with_reducible apply State.count_kept
    | with_reducible apply State.headerWord_kept
    | with_reducible apply State.blockWord_kept
    | with_reducible apply kept_foldl
    | with_reducible apply kept_foldl_fst
    | with_reducible apply kept_else
    | with_reducible intro _
    | (simp only [↓kept_mk]; with_reducible apply kept_parts)
    | split
    | with_reducible refine kept_of_pair (by assumption) ?_
    | dsimp only

theorem State.lockedWords_kept {s : State} (h : Kept q z n o c s) (fn : Nat) (p : PageId) (ws : List (Nat × Nat)) : Kept q z n o c (State.lockedWords s fn p ws) := by
  unfold State.lockedWords
  repeat' first
    | with_reducible assumption
    | with_reducible apply State.forEach_kept
    | with_reducible apply State.hostWord_kept
    | with_reducible apply State.count_kept
    | with_reducible apply kept_foldl
    | with_reducible apply kept_foldl_fst
    | with_reducible apply kept_else
    | with_reducible intro _
    | (simp only [↓kept_mk]; with_reducible apply kept_parts)
    | split
    | with_reducible refine kept_of_pair (by assumption) ?_
    | dsimp only

theorem State.barWrite_kept {s : State} (h : Kept q z n o c s) (fn : Nat) (off : Nat) (size : Nat) (v : Nat) : Kept q z n o c (State.barWrite s fn off size v) := by
  unfold State.barWrite
  repeat' first
    | with_reducible assumption
    | with_reducible apply State.deny_kept
    | with_reducible apply State.hostReach_kept
    | with_reducible apply State.lockedWords_kept
    | with_reducible apply kept_foldl
    | with_reducible apply kept_foldl_fst
    | with_reducible apply kept_else
    | with_reducible intro _
    | (simp only [↓kept_mk]; with_reducible apply kept_parts)
    | split
    | with_reducible refine kept_of_pair (by assumption) ?_
    | dsimp only

theorem State.bar0Write_kept {s : State} (h : Kept q z n o c s) (fn : Nat) (off : Nat) (size : Nat) (v : Nat) : Kept q z n o c (State.bar0Write s fn off size v) := by
  unfold State.bar0Write
  repeat' first
    | with_reducible assumption
    | with_reducible apply State.barWrite_kept
    | with_reducible apply kept_foldl
    | with_reducible apply kept_foldl_fst
    | with_reducible apply kept_else
    | with_reducible intro _
    | (simp only [↓kept_mk]; with_reducible apply kept_parts)
    | split
    | with_reducible refine kept_of_pair (by assumption) ?_
    | dsimp only

theorem State.hostRow_kept {s : State} (h : Kept q z n o c s) (fn : Nat) (p : PageId) (woff : Nat) (v : Nat) : Kept q z n o c (State.hostRow s fn p woff v) := by
  unfold State.hostRow
  repeat' first
    | with_reducible assumption
    | with_reducible apply State.hostGate_kept
    | with_reducible apply State.hostWord_kept
    | with_reducible apply kept_foldl
    | with_reducible apply kept_foldl_fst
    | with_reducible apply kept_else
    | with_reducible intro _
    | (simp only [↓kept_mk]; with_reducible apply kept_parts)
    | split
    | with_reducible refine kept_of_pair (by assumption) ?_
    | dsimp only

theorem State.snapCaptured_kept {s : State} (h : Kept q z n o c s)  : Kept q z n o c (State.snapCaptured s) := by
  unfold State.snapCaptured
  repeat' first
    | with_reducible assumption
    | with_reducible apply State.forEach_kept
    | with_reducible apply State.barWrite_kept
    | with_reducible apply kept_foldl
    | with_reducible apply kept_foldl_fst
    | with_reducible apply kept_else
    | with_reducible intro _
    | (simp only [↓kept_mk]; with_reducible apply kept_parts)
    | split
    | with_reducible refine kept_of_pair (by assumption) ?_
    | dsimp only

theorem State.bar2Traffic_kept {s : State} (h : Kept q z n o c s) (fn : Nat) (a : Nat) (n_ : Nat) (write : Bool) : Kept q z n o c (State.bar2Traffic s fn a n_ write) := by
  unfold State.bar2Traffic
  repeat' first
    | with_reducible assumption
    | with_reducible apply State.countWr_kept
    | with_reducible apply State.countRd_kept
    | with_reducible apply State.forEach_kept
    | with_reducible apply State.bwRequest_kept
    | with_reducible apply kept_foldl
    | with_reducible apply kept_foldl_fst
    | with_reducible apply kept_else
    | with_reducible intro _
    | (simp only [↓kept_mk]; with_reducible apply kept_parts)
    | split
    | with_reducible refine kept_of_pair (by assumption) ?_
    | dsimp only

theorem State.bar2Word_kept {s : State} (h : Kept q z n o c s) (a : Nat) (bytes : List (Nat × Bool)) : Kept q z n o c (State.bar2Word s a bytes) := by
  unfold State.bar2Word
  repeat' first
    | with_reducible assumption
    | with_reducible apply State.devWrite_kept
    | with_reducible apply State.raise_kept
    | with_reducible apply State.forEach_kept
    | with_reducible apply kept_foldl
    | with_reducible apply kept_foldl_fst
    | with_reducible apply kept_else
    | with_reducible intro _
    | (simp only [↓kept_mk]; with_reducible apply kept_parts)
    | split
    | with_reducible refine kept_of_pair (by assumption) ?_
    | dsimp only

theorem State.bar2Write_kept {s : State} (h : Kept q z n o c s) (fn : Nat) (off : Nat) (data : List Nat) : Kept q z n o c (State.bar2Write s fn off data) := by
  unfold State.bar2Write
  repeat' first
    | with_reducible assumption
    | with_reducible apply State.forEach_kept
    | with_reducible apply State.bar2Word_kept
    | with_reducible apply State.bar2Traffic_kept
    | with_reducible apply State.deny_kept
    | with_reducible apply kept_foldl
    | with_reducible apply kept_foldl_fst
    | with_reducible apply kept_else
    | with_reducible intro _
    | (simp only [↓kept_mk]; with_reducible apply kept_parts)
    | split
    | with_reducible refine kept_of_pair (by assumption) ?_
    | dsimp only

theorem State.bar2Read_kept {s : State} (h : Kept q z n o c s) (fn : Nat) (off : Nat) (n_ : Nat) : Kept q z n o c (State.bar2Read s fn off n_) := by
  unfold State.bar2Read
  repeat' first
    | with_reducible assumption
    | with_reducible apply State.emit_kept
    | with_reducible apply State.bar2Traffic_kept
    | with_reducible apply State.forEach_kept
    | with_reducible apply State.ueFound_kept
    | with_reducible apply State.hostUe_kept
    | with_reducible apply kept_foldl
    | with_reducible apply kept_foldl_fst
    | with_reducible apply kept_else
    | with_reducible intro _
    | (simp only [↓kept_mk]; with_reducible apply kept_parts)
    | split
    | with_reducible refine kept_of_pair (by assumption) ?_
    | dsimp only

theorem State.enableRow_kept {s : State} (h : Kept q z n o c s) (fn : Nat) (p : PageId) : Kept q z n o c (State.enableRow s fn p) := by
  unfold State.enableRow
  repeat' first
    | with_reducible assumption
    | with_reducible apply State.hostRow_kept
    | with_reducible apply kept_foldl
    | with_reducible apply kept_foldl_fst
    | with_reducible apply kept_else
    | with_reducible intro _
    | (simp only [↓kept_mk]; with_reducible apply kept_parts)
    | split
    | with_reducible refine kept_of_pair (by assumption) ?_
    | dsimp only

theorem State.streamEnd_kept {s : State} (h : Kept q z n o c s) (l : Nat) (crcOk : Bool) (violation : Bool) (broke : Bool) : Kept q z n o c (State.streamEnd s l crcOk violation broke) := by
  unfold State.streamEnd
  repeat' first
    | with_reducible assumption
    | with_reducible apply State.count_kept
    | with_reducible apply State.pmc_kept
    | with_reducible apply State.raise_kept
    | with_reducible apply State.lineDiscard_kept
    | with_reducible apply kept_foldl
    | with_reducible apply kept_foldl_fst
    | with_reducible apply kept_else
    | with_reducible intro _
    | (simp only [↓kept_mk]; with_reducible apply kept_parts)
    | split
    | with_reducible refine kept_of_pair (by assumption) ?_
    | dsimp only

theorem State.mbxSent_kept {s : State} (h : Kept q z n o c s) (l : Nat) : Kept q z n o c (State.mbxSent s l) := by
  unfold State.mbxSent
  repeat' first
    | with_reducible assumption
    | with_reducible apply State.set_kept
    | with_reducible apply State.raise_kept
    | with_reducible apply State.settleArm_kept
    | with_reducible apply kept_foldl
    | with_reducible apply kept_foldl_fst
    | with_reducible apply kept_else
    | with_reducible intro _
    | (simp only [↓kept_mk]; with_reducible apply kept_parts)
    | split
    | with_reducible refine kept_of_pair (by assumption) ?_
    | dsimp only

theorem State.nextSpeed_kept {s : State} (h : Kept q z n o c s) (l : Nat) : Kept q z n o c (State.nextSpeed s l) := by
  unfold State.nextSpeed
  repeat' first
    | with_reducible assumption
    | with_reducible apply State.set_kept
    | with_reducible apply kept_foldl
    | with_reducible apply kept_foldl_fst
    | with_reducible apply kept_else
    | with_reducible intro _
    | (simp only [↓kept_mk]; with_reducible apply kept_parts)
    | split
    | with_reducible refine kept_of_pair (by assumption) ?_
    | dsimp only

theorem State.lockLate_kept {s : State} (h : Kept q z n o c s) (l : Nat) : Kept q z n o c (State.lockLate s l) := by
  unfold State.lockLate
  repeat' first
    | with_reducible assumption
    | with_reducible apply State.raise_kept
    | with_reducible apply kept_foldl
    | with_reducible apply kept_foldl_fst
    | with_reducible apply kept_else
    | with_reducible intro _
    | (simp only [↓kept_mk]; with_reducible apply kept_parts)
    | split
    | with_reducible refine kept_of_pair (by assumption) ?_
    | dsimp only

theorem State.loseLock_kept {s : State} (h : Kept q z n o c s) (l : Nat) : Kept q z n o c (State.loseLock s l) := by
  unfold State.loseLock
  repeat' first
    | with_reducible assumption
    | with_reducible apply State.dropLock_kept
    | with_reducible apply State.count_kept
    | with_reducible apply State.raise_kept
    | with_reducible apply State.peerFollow_kept
    | with_reducible apply State.laneUpset_kept
    | with_reducible apply kept_foldl
    | with_reducible apply kept_foldl_fst
    | with_reducible apply kept_else
    | with_reducible intro _
    | (simp only [↓kept_mk]; with_reducible apply kept_parts)
    | split
    | with_reducible refine kept_of_pair (by assumption) ?_
    | dsimp only

theorem State.flipPolarity_kept {s : State} (h : Kept q z n o c s) (l : Nat) : Kept q z n o c (State.flipPolarity s l) := by
  unfold State.flipPolarity
  repeat' first
    | with_reducible assumption
    | with_reducible apply State.set_kept
    | with_reducible apply State.raise_kept
    | with_reducible apply kept_foldl
    | with_reducible apply kept_foldl_fst
    | with_reducible apply kept_else
    | with_reducible intro _
    | (simp only [↓kept_mk]; with_reducible apply kept_parts)
    | split
    | with_reducible refine kept_of_pair (by assumption) ?_
    | dsimp only

theorem State.rawWord_kept {s : State} (h : Kept q z n o c s) (l : Nat) (word : Nat) : Kept q z n o c (State.rawWord s l word) := by
  unfold State.rawWord
  repeat' first
    | with_reducible assumption
    | with_reducible apply State.set_kept
    | with_reducible apply State.raise_kept
    | with_reducible apply kept_foldl
    | with_reducible apply kept_foldl_fst
    | with_reducible apply kept_else
    | with_reducible intro _
    | (simp only [↓kept_mk]; with_reducible apply kept_parts)
    | split
    | with_reducible refine kept_of_pair (by assumption) ?_
    | dsimp only

theorem State.wakeDone_kept {s : State} (h : Kept q z n o c s) (l : Nat) : Kept q z n o c (State.wakeDone s l) := by
  unfold State.wakeDone
  repeat' first
    | with_reducible assumption
    | with_reducible apply State.set_kept
    | with_reducible apply State.wakeSettled_kept
    | with_reducible apply State.raise_kept
    | with_reducible apply kept_foldl
    | with_reducible apply kept_foldl_fst
    | with_reducible apply kept_else
    | with_reducible intro _
    | (simp only [↓kept_mk]; with_reducible apply kept_parts)
    | split
    | with_reducible refine kept_of_pair (by assumption) ?_
    | dsimp only

theorem State.peerBlocked_kept {s : State} (h : Kept q z n o c s) (g : Nat) : Kept q z n o c (State.peerBlocked s g) := by
  unfold State.peerBlocked
  repeat' first
    | with_reducible assumption
    | with_reducible apply State.set_kept
    | with_reducible apply kept_foldl
    | with_reducible apply kept_foldl_fst
    | with_reducible apply kept_else
    | with_reducible intro _
    | (simp only [↓kept_mk]; with_reducible apply kept_parts)
    | split
    | with_reducible refine kept_of_pair (by assumption) ?_
    | dsimp only

theorem State.peerLockLate_kept {s : State} (h : Kept q z n o c s) (g : Nat) : Kept q z n o c (State.peerLockLate s g) := by
  unfold State.peerLockLate
  repeat' first
    | with_reducible assumption
    | with_reducible apply State.peerFail_kept
    | with_reducible apply kept_foldl
    | with_reducible apply kept_foldl_fst
    | with_reducible apply kept_else
    | with_reducible intro _
    | (simp only [↓kept_mk]; with_reducible apply kept_parts)
    | split
    | with_reducible refine kept_of_pair (by assumption) ?_
    | dsimp only

theorem State.helloLate_kept {s : State} (h : Kept q z n o c s) (g : Nat) : Kept q z n o c (State.helloLate s g) := by
  unfold State.helloLate
  repeat' first
    | with_reducible assumption
    | with_reducible apply State.peerFail_kept
    | with_reducible apply kept_foldl
    | with_reducible apply kept_foldl_fst
    | with_reducible apply kept_else
    | with_reducible intro _
    | (simp only [↓kept_mk]; with_reducible apply kept_parts)
    | split
    | with_reducible refine kept_of_pair (by assumption) ?_
    | dsimp only

theorem State.peerLaneLost_kept {s : State} (h : Kept q z n o c s) (g : Nat) (lane : Nat) : Kept q z n o c (State.peerLaneLost s g lane) := by
  unfold State.peerLaneLost
  repeat' first
    | with_reducible assumption
    | with_reducible apply State.loseLock_kept
    | with_reducible apply State.set_kept
    | with_reducible apply State.peerDown_kept
    | with_reducible apply kept_foldl
    | with_reducible apply kept_foldl_fst
    | with_reducible apply kept_else
    | with_reducible intro _
    | (simp only [↓kept_mk]; with_reducible apply kept_parts)
    | split
    | with_reducible refine kept_of_pair (by assumption) ?_
    | dsimp only

theorem State.peerRetrain_kept {s : State} (h : Kept q z n o c s) (g : Nat) : Kept q z n o c (State.peerRetrain s g) := by
  unfold State.peerRetrain
  repeat' first
    | with_reducible assumption
    | with_reducible apply State.peerLock_kept
    | with_reducible apply kept_foldl
    | with_reducible apply kept_foldl_fst
    | with_reducible apply kept_else
    | with_reducible intro _
    | (simp only [↓kept_mk]; with_reducible apply kept_parts)
    | split
    | with_reducible refine kept_of_pair (by assumption) ?_
    | dsimp only

theorem State.peerMessage_kept {s : State} (h : Kept q z n o c s) (g typ : Nat) (f : PeerFrame) (crc : Nat) (act : State → PeerMsg → State)
    (ha : ∀ t m, Kept q z n o c t → Kept q z n o c (act t m)) : Kept q z n o c (s.peerMessage g typ f crc act) := by
  unfold State.peerMessage
  repeat' first
    | with_reducible assumption
    | with_reducible apply State.peerReceive_kept
    | with_reducible apply ha
    | with_reducible apply kept_else
    | with_reducible intro _
    | split
    | dsimp only

theorem State.peerVerdict_kept {s : State} (h : Kept q z n o c s) (g : Nat) (m : PeerMsg) : Kept q z n o c (State.peerVerdict s g m) := by
  unfold State.peerVerdict
  repeat' first
    | with_reducible assumption
    | with_reducible apply State.trkVerdict_kept
    | with_reducible apply kept_foldl
    | with_reducible apply kept_foldl_fst
    | with_reducible apply kept_else
    | with_reducible intro _
    | (simp only [↓kept_mk]; with_reducible apply kept_parts)
    | split
    | with_reducible refine kept_of_pair (by assumption) ?_
    | dsimp only

theorem State.pushesSettle_kept {s : State} (h : Kept q z n o c s)  : Kept q z n o c (State.pushesSettle s) := by
  unfold State.pushesSettle
  repeat' first
    | with_reducible assumption
    | with_reducible apply State.reapPushes_kept
    | with_reducible apply State.sendReqs_kept
    | with_reducible apply kept_foldl
    | with_reducible apply kept_foldl_fst
    | with_reducible apply kept_else
    | with_reducible intro _
    | (simp only [↓kept_mk]; with_reducible apply kept_parts)
    | split
    | with_reducible refine kept_of_pair (by assumption) ?_
    | dsimp only

theorem State.ackDue_kept {s : State} (h : Kept q z n o c s) (g : Nat) : Kept q z n o c (State.ackDue s g) := by
  unfold State.ackDue
  repeat' first
    | with_reducible assumption
    | with_reducible apply State.peerAck_kept
    | with_reducible apply kept_foldl
    | with_reducible apply kept_foldl_fst
    | with_reducible apply kept_else
    | with_reducible intro _
    | (simp only [↓kept_mk]; with_reducible apply kept_parts)
    | split
    | with_reducible refine kept_of_pair (by assumption) ?_
    | dsimp only

theorem State.replayDue_kept {s : State} (h : Kept q z n o c s) (g : Nat) : Kept q z n o c (State.replayDue s g) := by
  unfold State.replayDue
  repeat' first
    | with_reducible assumption
    | with_reducible apply State.peerResend_kept
    | with_reducible apply kept_foldl
    | with_reducible apply kept_foldl_fst
    | with_reducible apply kept_else
    | with_reducible intro _
    | (simp only [↓kept_mk]; with_reducible apply kept_parts)
    | split
    | with_reducible refine kept_of_pair (by assumption) ?_
    | dsimp only

theorem State.windowCloses'_kept {s : State} (h : Kept q z n o c s) (n_ : Nat) : Kept q z n o c (State.windowCloses' s n_) := by
  unfold State.windowCloses'
  repeat' first
    | with_reducible assumption
    | with_reducible apply State.runToNs_kept
    | with_reducible apply State.expireDue_kept
    | with_reducible apply kept_foldl
    | with_reducible apply kept_foldl_fst
    | with_reducible apply kept_else
    | with_reducible intro _
    | (simp only [↓kept_mk]; with_reducible apply kept_parts)
    | split
    | with_reducible refine kept_of_pair (by assumption) ?_
    | dsimp only

theorem State.groupCloses_kept {s : State} (h : Kept q z n o c s) (c_ : Nat) : Kept q z n o c (State.groupCloses s c_) := by
  unfold State.groupCloses
  repeat' first
    | with_reducible assumption
    | with_reducible apply State.runTo_kept
    | with_reducible apply State.groupTimeout_kept
    | with_reducible apply kept_foldl
    | with_reducible apply kept_foldl_fst
    | with_reducible apply kept_else
    | with_reducible intro _
    | (simp only [↓kept_mk]; with_reducible apply kept_parts)
    | split
    | with_reducible refine kept_of_pair (by assumption) ?_
    | dsimp only

theorem State.holdExpires_kept {s : State} (h : Kept q z n o c s) (c_ : Nat) : Kept q z n o c (State.holdExpires s c_) := by
  unfold State.holdExpires
  repeat' first
    | with_reducible assumption
    | with_reducible apply State.notice_kept
    | with_reducible apply State.runToNs_kept
    | with_reducible apply State.spillDue_kept
    | with_reducible apply kept_foldl
    | with_reducible apply kept_foldl_fst
    | with_reducible apply kept_else
    | with_reducible intro _
    | (simp only [↓kept_mk]; with_reducible apply kept_parts)
    | split
    | with_reducible refine kept_of_pair (by assumption) ?_
    | dsimp only

theorem State.ringWritten_kept {s : State} (h : Kept q z n o c s) (c_ : Nat) : Kept q z n o c (State.ringWritten s c_) := by
  unfold State.ringWritten
  repeat' first
    | with_reducible assumption
    | with_reducible apply State.modCtx_kept
    | with_reducible apply State.ringWrite_kept
    | with_reducible apply State.ringReady_kept
    | with_reducible apply State.refreshReady_kept
    | with_reducible apply kept_foldl
    | with_reducible apply kept_foldl_fst
    | with_reducible apply kept_else
    | with_reducible intro _
    | (simp only [↓kept_mk]; with_reducible apply kept_parts)
    | split
    | with_reducible refine kept_of_pair (by assumption) ?_
    | dsimp only

theorem State.slotRead_kept {s : State} (h : Kept q z n o c s) (c_ : Nat) : Kept q z n o c (State.slotRead s c_) := by
  unfold State.slotRead
  repeat' first
    | with_reducible assumption
    | with_reducible apply State.replayRead_kept
    | with_reducible apply kept_foldl
    | with_reducible apply kept_foldl_fst
    | with_reducible apply kept_else
    | with_reducible intro _
    | (simp only [↓kept_mk]; with_reducible apply kept_parts)
    | split
    | with_reducible refine kept_of_pair (by assumption) ?_
    | dsimp only

end Sys2Proof.Machine
end

