-- ==== Sys2Proof/Laws/Kept7.lean ====
section
/-!
SUPPORT. Laws/Kept7.lean: the operations of the machine keep the queue, the fuses, the clock, the outputs and the stores.
-/
namespace Sys2Proof.Machine

set_option linter.unusedSimpArgs false

variable {q : List Instr} {z : Fuses} {n : Nat} {o : List Output} {c : Prop}

theorem State.restoreFld_kept {s : State} (h : Kept q z n o c s) (i : Nat) (f : Fld) (j : Nat) (woff : Nat) (v : Nat) : Kept q z n o c (State.restoreFld s i f j woff v) := by
  unfold State.restoreFld
  repeat' first
    | with_reducible assumption
    | with_reducible apply State.set_kept
    | with_reducible apply State.setShadow_kept
    | with_reducible apply kept_foldl
    | with_reducible apply kept_foldl_fst
    | with_reducible apply kept_else
    | with_reducible intro _
    | (simp only [↓kept_mk]; with_reducible apply kept_parts)
    | split
    | with_reducible refine kept_of_pair (by assumption) ?_
    | dsimp only

theorem State.restoreWord_kept {s : State} (h : Kept q z n o c s) (p : PageId) (woff : Nat) (v : Nat) : Kept q z n o c (State.restoreWord s p woff v) := by
  unfold State.restoreWord
  repeat' first
    | with_reducible assumption
    | with_reducible apply State.ownerSet_kept
    | with_reducible apply State.evtEnableWrite_kept
    | with_reducible apply State.forEach_kept
    | with_reducible apply State.restoreFld_kept
    | with_reducible apply State.blockWord_kept
    | with_reducible apply kept_foldl
    | with_reducible apply kept_foldl_fst
    | with_reducible apply kept_else
    | with_reducible intro _
    | (simp only [↓kept_mk]; with_reducible apply kept_parts)
    | split
    | with_reducible refine kept_of_pair (by assumption) ?_
    | dsimp only

theorem State.restoreFirst_kept {s : State} (h : Kept q z n o c s) (es : List (Nat × Nat)) : Kept q z n o c (State.restoreFirst s es) := by
  unfold State.restoreFirst
  repeat' first
    | with_reducible assumption
    | with_reducible apply State.forEach_kept
    | with_reducible apply State.count_kept
    | with_reducible apply State.restoreWord_kept
    | with_reducible apply kept_foldl
    | with_reducible apply kept_foldl_fst
    | with_reducible apply kept_else
    | with_reducible intro _
    | (simp only [↓kept_mk]; with_reducible apply kept_parts)
    | split
    | with_reducible refine kept_of_pair (by assumption) ?_
    | dsimp only

theorem State.enableTried_kept {s : State} (h : Kept q z n o c s) (on : Bool) : Kept q z n o c (State.enableTried s on) := by
  unfold State.enableTried
  repeat' first
    | with_reducible assumption
    | with_reducible apply State.count_kept
    | with_reducible apply State.raise_kept
    | with_reducible apply kept_foldl
    | with_reducible apply kept_foldl_fst
    | with_reducible apply kept_else
    | with_reducible intro _
    | (simp only [↓kept_mk]; with_reducible apply kept_parts)
    | split
    | with_reducible refine kept_of_pair (by assumption) ?_
    | dsimp only

theorem State.restoreEnable_kept {s : State} (h : Kept q z n o c s) (p : PageId) : Kept q z n o c (State.restoreEnable s p) := by
  unfold State.restoreEnable
  repeat' first
    | with_reducible assumption
    | with_reducible apply State.code_kept
    | with_reducible apply State.enableWrite_kept
    | with_reducible apply State.enableTried_kept
    | with_reducible apply kept_foldl
    | with_reducible apply kept_foldl_fst
    | with_reducible apply kept_else
    | with_reducible intro _
    | (simp only [↓kept_mk]; with_reducible apply kept_parts)
    | split
    | with_reducible refine kept_of_pair (by assumption) ?_
    | dsimp only

theorem State.restorePart_kept {s : State} (h : Kept q z n o c s) (es : List (Nat × Nat)) (p : Nat) : Kept q z n o c (State.restorePart s es p) := by
  unfold State.restorePart
  repeat' first
    | with_reducible assumption
    | with_reducible apply State.partWord_kept
    | with_reducible apply State.enableTried_kept
    | with_reducible apply kept_foldl
    | with_reducible apply kept_foldl_fst
    | with_reducible apply kept_else
    | with_reducible intro _
    | (simp only [↓kept_mk]; with_reducible apply kept_parts)
    | split
    | with_reducible refine kept_of_pair (by assumption) ?_
    | dsimp only

theorem State.restorePeer_kept {s : State} (h : Kept q z n o c s) (es : List (Nat × Nat)) (g : Nat) : Kept q z n o c (State.restorePeer s es g) := by
  unfold State.restorePeer
  repeat' first
    | with_reducible assumption
    | with_reducible apply State.peerEnable_kept
    | with_reducible apply State.enableTried_kept
    | with_reducible apply kept_foldl
    | with_reducible apply kept_foldl_fst
    | with_reducible apply kept_else
    | with_reducible intro _
    | (simp only [↓kept_mk]; with_reducible apply kept_parts)
    | split
    | with_reducible refine kept_of_pair (by assumption) ?_
    | dsimp only

theorem State.restoreKind_kept {s : State} (h : Kept q z n o c s) (es : List (Nat × Nat)) (k : PageKind) : Kept q z n o c (State.restoreKind s es k) := by
  unfold State.restoreKind
  repeat' first
    | with_reducible assumption
    | with_reducible apply State.forEach_kept
    | with_reducible apply State.count_kept
    | with_reducible apply State.restorePeer_kept
    | with_reducible apply State.restoreEnable_kept
    | with_reducible apply kept_foldl
    | with_reducible apply kept_foldl_fst
    | with_reducible apply kept_else
    | with_reducible intro _
    | (simp only [↓kept_mk]; with_reducible apply kept_parts)
    | split
    | with_reducible refine kept_of_pair (by assumption) ?_
    | dsimp only

theorem State.restoreEnables_kept {s : State} (h : Kept q z n o c s) (es : List (Nat × Nat)) : Kept q z n o c (State.restoreEnables s es) := by
  unfold State.restoreEnables
  repeat' first
    | with_reducible assumption
    | with_reducible apply State.restoreKind_kept
    | with_reducible apply State.forEach_kept
    | with_reducible apply State.restorePart_kept
    | with_reducible apply kept_foldl
    | with_reducible apply kept_foldl_fst
    | with_reducible apply kept_else
    | with_reducible intro _
    | (simp only [↓kept_mk]; with_reducible apply kept_parts)
    | split
    | with_reducible refine kept_of_pair (by assumption) ?_
    | dsimp only

theorem State.restoreLocks_kept {s : State} (h : Kept q z n o c s) (es : List (Nat × Nat)) : Kept q z n o c (State.restoreLocks s es) := by
  unfold State.restoreLocks
  repeat' first
    | with_reducible assumption
    | with_reducible apply State.forEach_kept
    | with_reducible apply State.set_kept
    | with_reducible apply kept_foldl
    | with_reducible apply kept_foldl_fst
    | with_reducible apply kept_else
    | with_reducible intro _
    | (simp only [↓kept_mk]; with_reducible apply kept_parts)
    | split
    | with_reducible refine kept_of_pair (by assumption) ?_
    | dsimp only

theorem State.restoreLanes_kept {s : State} (h : Kept q z n o c s)  : Kept q z n o c (State.restoreLanes s) := by
  unfold State.restoreLanes
  repeat' first
    | with_reducible assumption
    | with_reducible apply State.forEach_kept
    | with_reducible apply State.dropLock_kept
    | with_reducible apply State.laneSleep_kept
    | with_reducible apply kept_foldl
    | with_reducible apply kept_foldl_fst
    | with_reducible apply kept_else
    | with_reducible intro _
    | (simp only [↓kept_mk]; with_reducible apply kept_parts)
    | split
    | with_reducible refine kept_of_pair (by assumption) ?_
    | dsimp only

theorem State.settingsRestored_kept {s : State} (h : Kept q z n o c s) (ue0 : Bool) (ue1 : Bool) : Kept q z n o c (State.settingsRestored s ue0 ue1) := by
  unfold State.settingsRestored
  repeat' first
    | with_reducible assumption
    | with_reducible apply State.raise_kept
    | with_reducible apply State.set_kept
    | with_reducible apply State.restoreLanes_kept
    | with_reducible apply State.startEnds_kept
    | with_reducible apply State.count_kept
    | with_reducible apply State.restoreFirst_kept
    | with_reducible apply State.restoreEnables_kept
    | with_reducible apply State.restoreLocks_kept
    | with_reducible apply kept_foldl
    | with_reducible apply kept_foldl_fst
    | with_reducible apply kept_else
    | with_reducible intro _
    | (simp only [↓kept_mk]; with_reducible apply kept_parts)
    | split
    | with_reducible refine kept_of_pair (by assumption) ?_
    | dsimp only

theorem State.throttle_kept {s : State} (h : Kept q z n o c s) (sect : Nat) (on : Bool) : Kept q z n o c (State.throttle s sect on) := by
  unfold State.throttle
  repeat' first
    | with_reducible assumption
    | with_reducible apply kept_foldl
    | with_reducible apply kept_foldl_fst
    | with_reducible apply kept_else
    | with_reducible intro _
    | (simp only [↓kept_mk]; with_reducible apply kept_parts)
    | split
    | with_reducible refine kept_of_pair (by assumption) ?_
    | dsimp only

theorem State.wrapEnds_kept {s : State} (h : Kept q z n o c s) (n_ : Nat) : Kept q z n o c (State.wrapEnds s n_) := by
  unfold State.wrapEnds
  repeat' first
    | with_reducible assumption
    | with_reducible apply State.runTicks_kept
    | with_reducible apply kept_foldl
    | with_reducible apply kept_foldl_fst
    | with_reducible apply kept_else
    | with_reducible intro _
    | (simp only [↓kept_mk]; with_reducible apply kept_parts)
    | split
    | with_reducible refine kept_of_pair (by assumption) ?_
    | dsimp only

theorem State.crossNow_kept {s : State} (h : Kept q z n o c s) (n_ : Nat) : Kept q z n o c (State.crossNow s n_) := by
  unfold State.crossNow
  repeat' first
    | with_reducible assumption
    | with_reducible apply State.runTicks_kept
    | with_reducible apply kept_foldl
    | with_reducible apply kept_foldl_fst
    | with_reducible apply kept_else
    | with_reducible intro _
    | (simp only [↓kept_mk]; with_reducible apply kept_parts)
    | split
    | with_reducible refine kept_of_pair (by assumption) ?_
    | dsimp only

end Sys2Proof.Machine
end

