-- ==== Sys2Proof/Laws/PerInstr.lean ====
section
/-!
SUPPORT. Laws/PerInstr.lean: for each command, what its well-formedness says of the pages it names.
-/
namespace Sys2Proof.Laws

/-- A page that `pageAt` finds is one of the page map. -/
theorem pageAt_ok {off : Nat} {p : PageId} (h : pageAt off = some p) : p.ok = true := by
  simp only [pageAt, Option.map_eq_some_iff] at h
  obtain ⟨k, hk, rfl⟩ := h
  have := List.find?_some hk
  simp only [Bool.and_eq_true, decide_eq_true_eq] at this
  simp only [PageId.ok, decide_eq_true_eq]
  omega

/-- A well-formed command names pages of the page map only (R43). -/
def WellFormed.Statement (i : Instr) : Prop := i.wf = true → ∀ p ∈ i.pages, p.ok = true

theorem WellFormed.registerWrite (fn : Fn) (off : Nat) (size : Nat) (value : BitVec 64) : WellFormed.Statement (.registerWrite fn off size value) := by
  intro _ p hp
  exact pageAt_ok (Option.mem_toList.1 hp)

theorem WellFormed.lowWordRead (fn : Fn) (off : Nat) : WellFormed.Statement (.lowWordRead fn off) := by
  intro _ p hp
  exact pageAt_ok (Option.mem_toList.1 hp)

theorem WellFormed.bar2Write (fn : Fn) (off : Nat) (data : List Byte) : WellFormed.Statement (.bar2Write fn off data) := by
  intro _ p hp; cases hp

theorem WellFormed.bar2Read (fn : Fn) (off : Nat) (len : Nat) : WellFormed.Statement (.bar2Read fn off len) := by
  intro _ p hp; cases hp

theorem WellFormed.evtForce (fn : Fn) (page : PageId) (mask : BitVec 32) : WellFormed.Statement (.evtForce fn page mask) := by
  intro h p hp
  cases List.mem_singleton.1 hp
  exact h

theorem WellFormed.softReset (fn : Fn) (page : PageId) : WellFormed.Statement (.softReset fn page) := by
  intro h p hp
  cases List.mem_singleton.1 hp
  exact h

theorem WellFormed.quiesce (fn : Fn) (page : PageId) : WellFormed.Statement (.quiesce fn page) := by
  intro h p hp
  cases List.mem_singleton.1 hp
  exact h

theorem WellFormed.enableClear (fn : Fn) (page : PageId) : WellFormed.Statement (.enableClear fn page) := by
  intro h p hp
  cases List.mem_singleton.1 hp
  exact h

theorem WellFormed.laneEnable (fn : Fn) (lane : Lane) : WellFormed.Statement (.laneEnable fn lane) := by
  intro _ p hp
  cases List.mem_singleton.1 hp
  simp [PageId.ok, PageKind.count]

theorem WellFormed.capContextEnable (fn : Fn) (ctx : Ctx) : WellFormed.Statement (.capContextEnable fn ctx) := by
  intro _ p hp
  cases List.mem_singleton.1 hp
  simp [PageId.ok, PageKind.count]

theorem WellFormed.lnpContextEnable (fn : Fn) (ctx : Ctx) : WellFormed.Statement (.lnpContextEnable fn ctx) := by
  intro _ p hp
  cases List.mem_singleton.1 hp
  simp [PageId.ok, PageKind.count]

theorem WellFormed.atnPoolEnable (fn : Fn) (pool : Pool) : WellFormed.Statement (.atnPoolEnable fn pool) := by
  intro _ p hp
  cases List.mem_singleton.1 hp
  simp [PageId.ok, PageKind.count]

theorem WellFormed.memRegionEnable (fn : Fn) (part : Part) : WellFormed.Statement (.memRegionEnable fn part) := by
  intro _ p hp
  cases List.mem_singleton.1 hp
  simp [PageId.ok, PageKind.count]

theorem WellFormed.encPortEnable (fn : Fn) (port : EncPort) : WellFormed.Statement (.encPortEnable fn port) := by
  intro _ p hp
  cases List.mem_singleton.1 hp
  simp [PageId.ok, PageKind.count]

theorem WellFormed.ejtEnable (fn : Fn) : WellFormed.Statement (.ejtEnable fn) := by
  intro _ p hp
  cases List.mem_singleton.1 hp
  simp [PageId.ok, PageKind.count]

theorem WellFormed.fioEnable (fn : Fn) : WellFormed.Statement (.fioEnable fn) := by
  intro _ p hp
  cases List.mem_singleton.1 hp
  simp [PageId.ok, PageKind.count]

theorem WellFormed.commitGo (fn : Fn) (page : PageId) (boundary : BitVec 3) (cmp : Unit16) (hold : Bool) : WellFormed.Statement (.commitGo fn page boundary cmp hold) := by
  intro h p hp
  cases List.mem_singleton.1 hp
  exact h

theorem WellFormed.commitApply (page : PageId) : WellFormed.Statement (.commitApply page) := by
  intro h p hp
  cases List.mem_singleton.1 hp
  exact h

theorem WellFormed.mgtCommitRelease (fn : Fn) : WellFormed.Statement (.mgtCommitRelease fn) := by
  intro _ p hp
  cases List.mem_singleton.1 hp
  simp [PageId.ok, PageKind.count]

theorem WellFormed.cmdCommitRelease (fn : Fn) (part : Part) : WellFormed.Statement (.cmdCommitRelease fn part) := by
  intro _ p hp
  cases List.mem_singleton.1 hp
  simp [PageId.ok, PageKind.count]

theorem WellFormed.ownerWrite (fn : Fn) (page : PageId) (part : Part) (valid : Bool) : WellFormed.Statement (.ownerWrite fn page part valid) := by
  intro h p hp
  cases List.mem_singleton.1 hp
  exact h

theorem WellFormed.lockSticky (fn : Fn) (page : PageId) : WellFormed.Statement (.lockSticky fn page) := by
  intro h p hp
  cases List.mem_singleton.1 hp
  exact h

theorem WellFormed.msixUnmask (fn : Fn) (vec : Vec) : WellFormed.Statement (.msixUnmask fn vec) := by
  intro _ p hp; cases hp

theorem WellFormed.errorWindowEnd : WellFormed.Statement (.errorWindowEnd) := by
  intro _ p hp; cases hp

theorem WellFormed.streamPacket (lane : Lane) (crcOk : Bool) (violation : Bool) (broke : Bool) : WellFormed.Statement (.streamPacket lane crcOk violation broke) := by
  intro _ p hp
  cases List.mem_singleton.1 hp
  simp [PageId.ok, PageKind.count]

theorem WellFormed.controlPacketReceived (lane : Lane) (kind : MbxKind) (payload : List Byte) : WellFormed.Statement (.controlPacketReceived lane kind payload) := by
  intro _ p hp
  cases List.mem_singleton.1 hp
  simp [PageId.ok, PageKind.count]

theorem WellFormed.mailboxSend (fn : Fn) (lane : Lane) : WellFormed.Statement (.mailboxSend fn lane) := by
  intro _ p hp
  cases List.mem_singleton.1 hp
  simp [PageId.ok, PageKind.count]

theorem WellFormed.mbxTxDone (lane : Lane) : WellFormed.Statement (.mbxTxDone lane) := by
  intro _ p hp
  cases List.mem_singleton.1 hp
  simp [PageId.ok, PageKind.count]

theorem WellFormed.cxpDiscoveryStep (lane : Lane) : WellFormed.Statement (.cxpDiscoveryStep lane) := by
  intro _ p hp
  cases List.mem_singleton.1 hp
  simp [PageId.ok, PageKind.count]

theorem WellFormed.lanePowerWrite (fn : Fn) (lane : Lane) (rx : Power) (tx : Power) : WellFormed.Statement (.lanePowerWrite fn lane rx tx) := by
  intro _ p hp
  cases List.mem_singleton.1 hp
  simp [PageId.ok, PageKind.count]

theorem WellFormed.lockGained (lane : Lane) : WellFormed.Statement (.lockGained lane) := by
  intro _ p hp
  cases List.mem_singleton.1 hp
  simp [PageId.ok, PageKind.count]

theorem WellFormed.lockTimeout (lane : Lane) : WellFormed.Statement (.lockTimeout lane) := by
  intro _ p hp
  cases List.mem_singleton.1 hp
  simp [PageId.ok, PageKind.count]

theorem WellFormed.lockLost (lane : Lane) : WellFormed.Statement (.lockLost lane) := by
  intro _ p hp
  cases List.mem_singleton.1 hp
  simp [PageId.ok, PageKind.count]

theorem WellFormed.codeError (lane : Lane) : WellFormed.Statement (.codeError lane) := by
  intro _ p hp
  cases List.mem_singleton.1 hp
  simp [PageId.ok, PageKind.count]

theorem WellFormed.polFlip (lane : Lane) : WellFormed.Statement (.polFlip lane) := by
  intro _ p hp
  cases List.mem_singleton.1 hp
  simp [PageId.ok, PageKind.count]

theorem WellFormed.laneSlip (fn : Fn) (lane : Lane) : WellFormed.Statement (.laneSlip fn lane) := by
  intro _ p hp
  cases List.mem_singleton.1 hp
  simp [PageId.ok, PageKind.count]

theorem WellFormed.trainMatch (lane : Lane) (word : Nat) : WellFormed.Statement (.trainMatch lane word) := by
  intro _ p hp
  cases List.mem_singleton.1 hp
  simp [PageId.ok, PageKind.count]

theorem WellFormed.peerGroupEnable (fn : Fn) (grp : Group) : WellFormed.Statement (.peerGroupEnable fn grp) := by
  intro _ p hp
  cases List.mem_singleton.1 hp
  simp [PageId.ok, PageKind.count]

theorem WellFormed.peerTrain (fn : Fn) (grp : Group) : WellFormed.Statement (.peerTrain fn grp) := by
  intro _ p hp
  cases List.mem_singleton.1 hp
  simp [PageId.ok, PageKind.count]

theorem WellFormed.peerBlockLock (grp : Group) : WellFormed.Statement (.peerBlockLock grp) := by
  intro _ p hp
  cases List.mem_singleton.1 hp
  simp [PageId.ok, PageKind.count]

theorem WellFormed.peerLockTimeout (grp : Group) : WellFormed.Statement (.peerLockTimeout grp) := by
  intro _ p hp
  cases List.mem_singleton.1 hp
  simp [PageId.ok, PageKind.count]

theorem WellFormed.peerMarkersFound (grp : Group) (order : List Nat) (skewPs : Nat) : WellFormed.Statement (.peerMarkersFound grp order skewPs) := by
  intro _ p hp
  cases List.mem_singleton.1 hp
  simp [PageId.ok, PageKind.count]

theorem WellFormed.helloSend (grp : Group) : WellFormed.Statement (.helloSend grp) := by
  intro _ p hp
  cases List.mem_singleton.1 hp
  simp [PageId.ok, PageKind.count]

theorem WellFormed.helloFrame (grp : Group) (frame : PeerFrame) (crc : Nat) : WellFormed.Statement (.helloFrame grp frame crc) := by
  intro _ p hp
  cases List.mem_singleton.1 hp
  simp [PageId.ok, PageKind.count]

theorem WellFormed.helloTimeout (grp : Group) : WellFormed.Statement (.helloTimeout grp) := by
  intro _ p hp
  cases List.mem_singleton.1 hp
  simp [PageId.ok, PageKind.count]

theorem WellFormed.peerLaneLockLost (grp : Group) (lane : Quad) : WellFormed.Statement (.peerLaneLockLost grp lane) := by
  intro _ p hp
  cases List.mem_singleton.1 hp
  simp [PageId.ok, PageKind.count]

theorem WellFormed.peerRetrainDelay (grp : Group) : WellFormed.Statement (.peerRetrainDelay grp) := by
  intro _ p hp
  cases List.mem_singleton.1 hp
  simp [PageId.ok, PageKind.count]

theorem WellFormed.peerStripeFrame (grp : Group) (frame : PeerFrame) (crc : Nat) : WellFormed.Statement (.peerStripeFrame grp frame crc) := by
  intro _ p hp
  cases List.mem_singleton.1 hp
  simp [PageId.ok, PageKind.count]

theorem WellFormed.peerVerdictFrame (grp : Group) (frame : PeerFrame) (crc : Nat) : WellFormed.Statement (.peerVerdictFrame grp frame crc) := by
  intro _ p hp
  cases List.mem_singleton.1 hp
  simp [PageId.ok, PageKind.count]

theorem WellFormed.kvpageFrame (grp : Group) (frame : PeerFrame) (crc : Nat) : WellFormed.Statement (.kvpageFrame grp frame crc) := by
  intro _ p hp
  cases List.mem_singleton.1 hp
  simp [PageId.ok, PageKind.count]

theorem WellFormed.kvreqFrame (grp : Group) (frame : PeerFrame) (crc : Nat) : WellFormed.Statement (.kvreqFrame grp frame crc) := by
  intro _ p hp
  cases List.mem_singleton.1 hp
  simp [PageId.ok, PageKind.count]

theorem WellFormed.ackFrame (grp : Group) (frame : PeerFrame) (crc : Nat) : WellFormed.Statement (.ackFrame grp frame crc) := by
  intro _ p hp
  cases List.mem_singleton.1 hp
  simp [PageId.ok, PageKind.count]

theorem WellFormed.nakFrame (grp : Group) (frame : PeerFrame) (crc : Nat) : WellFormed.Statement (.nakFrame grp frame crc) := by
  intro _ p hp
  cases List.mem_singleton.1 hp
  simp [PageId.ok, PageKind.count]

theorem WellFormed.creditFrame (grp : Group) (frame : PeerFrame) (crc : Nat) : WellFormed.Statement (.creditFrame grp frame crc) := by
  intro _ p hp
  cases List.mem_singleton.1 hp
  simp [PageId.ok, PageKind.count]

theorem WellFormed.creditSend (grp : Group) : WellFormed.Statement (.creditSend grp) := by
  intro _ p hp
  cases List.mem_singleton.1 hp
  simp [PageId.ok, PageKind.count]

theorem WellFormed.ackTimer (grp : Group) : WellFormed.Statement (.ackTimer grp) := by
  intro _ p hp
  cases List.mem_singleton.1 hp
  simp [PageId.ok, PageKind.count]

theorem WellFormed.replayTimeout (grp : Group) : WellFormed.Statement (.replayTimeout grp) := by
  intro _ p hp
  cases List.mem_singleton.1 hp
  simp [PageId.ok, PageKind.count]

theorem WellFormed.lineArrival (cam : Cam) (frameStart : Bool) (startOk : Bool) : WellFormed.Statement (.lineArrival cam frameStart startOk) := by
  intro _ p hp
  cases List.mem_singleton.1 hp
  simp [PageId.ok, PageKind.count]

theorem WellFormed.pairingWindowExpiry (cam : Cam) : WellFormed.Statement (.pairingWindowExpiry cam) := by
  intro _ p hp
  cases List.mem_singleton.1 hp
  simp [PageId.ok, PageKind.count]

theorem WellFormed.lineComplete (cam : Cam) (samples : List Nat) : WellFormed.Statement (.lineComplete cam samples) := by
  intro _ p hp
  cases List.mem_singleton.1 hp
  simp [PageId.ok, PageKind.count]

theorem WellFormed.groupAlignTimeout (ctx : Ctx) : WellFormed.Statement (.groupAlignTimeout ctx) := by
  intro _ p hp
  cases List.mem_singleton.1 hp
  simp [PageId.ok, PageKind.count]

theorem WellFormed.ringWriteDone (ctx : Ctx) : WellFormed.Statement (.ringWriteDone ctx) := by
  intro _ p hp
  cases List.mem_singleton.1 hp
  simp [PageId.ok, PageKind.count]

theorem WellFormed.settleForce (fn : Fn) (cam : Cam) : WellFormed.Statement (.settleForce fn cam) := by
  intro _ p hp
  cases List.mem_singleton.1 hp
  simp [PageId.ok, PageKind.count]

theorem WellFormed.replayPush (fn : Fn) (ctx : Ctx) : WellFormed.Statement (.replayPush fn ctx) := by
  intro _ p hp
  cases List.mem_singleton.1 hp
  simp [PageId.ok, PageKind.count]

theorem WellFormed.replaySlotRead (ctx : Ctx) : WellFormed.Statement (.replaySlotRead ctx) := by
  intro _ p hp
  cases List.mem_singleton.1 hp
  simp [PageId.ok, PageKind.count]

theorem WellFormed.lnpNotice (ctx : Ctx) : WellFormed.Statement (.lnpNotice ctx) := by
  intro _ p hp
  cases List.mem_singleton.1 hp
  simp [PageId.ok, PageKind.count]

theorem WellFormed.creditReturn (ctx : Ctx) : WellFormed.Statement (.creditReturn ctx) := by
  intro _ p hp
  cases List.mem_singleton.1 hp
  simp [PageId.ok, PageKind.count]

theorem WellFormed.holdLimitExpiry (ctx : Ctx) : WellFormed.Statement (.holdLimitExpiry ctx) := by
  intro _ p hp
  cases List.mem_singleton.1 hp
  simp [PageId.ok, PageKind.count]

theorem WellFormed.lnpStripeBegin : WellFormed.Statement (.lnpStripeBegin) := by
  intro _ p hp
  cases List.mem_singleton.1 hp
  simp [PageId.ok, PageKind.count]

theorem WellFormed.tableBlockArrived (ctx : Ctx) : WellFormed.Statement (.tableBlockArrived ctx) := by
  intro _ p hp
  cases List.mem_singleton.1 hp
  simp [PageId.ok, PageKind.count]

theorem WellFormed.lnpStripeDone : WellFormed.Statement (.lnpStripeDone) := by
  intro _ p hp
  cases List.mem_singleton.1 hp
  simp [PageId.ok, PageKind.count]

theorem WellFormed.uncorrectableRead (pc : Pc) (word : Nat) (consumer : Consumer) : WellFormed.Statement (.uncorrectableRead pc word consumer) := by
  intro _ p hp
  cases List.mem_singleton.1 hp
  simp [PageId.ok, PageKind.count]

theorem WellFormed.correctableRead (pc : Pc) (line : Nat) : WellFormed.Statement (.correctableRead pc line) := by
  intro _ p hp
  cases List.mem_singleton.1 hp
  simp [PageId.ok, PageKind.count]

theorem WellFormed.eccWriteback (pc : Pc) : WellFormed.Statement (.eccWriteback pc) := by
  intro _ p hp
  cases List.mem_singleton.1 hp
  simp [PageId.ok, PageKind.count]

theorem WellFormed.jobSchedule (part : Part) : WellFormed.Statement (.jobSchedule part) := by
  intro _ p hp
  cases List.mem_singleton.1 hp
  simp [PageId.ok, PageKind.count]

theorem WellFormed.tileAssign (part : Part) : WellFormed.Statement (.tileAssign part) := by
  intro _ p hp
  cases List.mem_singleton.1 hp
  simp [PageId.ok, PageKind.count]

theorem WellFormed.memoryReadReturn (part : Part) (seq : Nat) : WellFormed.Statement (.memoryReadReturn part seq) := by
  intro _ p hp
  cases List.mem_singleton.1 hp
  simp [PageId.ok, PageKind.count]

theorem WellFormed.tileComplete (part : Part) (seq : Nat) : WellFormed.Statement (.tileComplete part seq) := by
  intro _ p hp
  cases List.mem_singleton.1 hp
  simp [PageId.ok, PageKind.count]

theorem WellFormed.fawnPassReady (part : Part) : WellFormed.Statement (.fawnPassReady part) := by
  intro _ p hp
  cases List.mem_singleton.1 hp
  simp [PageId.ok, PageKind.count]

theorem WellFormed.fawnPassDone : WellFormed.Statement (.fawnPassDone) := by
  intro _ p hp
  cases List.mem_singleton.1 hp
  simp [PageId.ok, PageKind.count]

theorem WellFormed.sramCorrected (site : SramSite) (addr : Nat) : WellFormed.Statement (.sramCorrected site addr) := by
  intro _ p hp; cases hp

theorem WellFormed.sramUe (site : SramSite) (addr : Nat) : WellFormed.Statement (.sramUe site addr) := by
  intro _ p hp; cases hp

theorem WellFormed.partOpen : WellFormed.Statement (.partOpen) := by
  intro _ p hp
  cases List.mem_singleton.1 hp
  simp [PageId.ok, PageKind.count]

theorem WellFormed.partOpenClose : WellFormed.Statement (.partOpenClose) := by
  intro _ p hp
  cases List.mem_singleton.1 hp
  simp [PageId.ok, PageKind.count]

theorem WellFormed.partCont : WellFormed.Statement (.partCont) := by
  intro _ p hp
  cases List.mem_singleton.1 hp
  simp [PageId.ok, PageKind.count]

theorem WellFormed.partClose : WellFormed.Statement (.partClose) := by
  intro _ p hp
  cases List.mem_singleton.1 hp
  simp [PageId.ok, PageKind.count]

theorem WellFormed.partMerged : WellFormed.Statement (.partMerged) := by
  intro _ p hp
  cases List.mem_singleton.1 hp
  simp [PageId.ok, PageKind.count]

theorem WellFormed.partSpan : WellFormed.Statement (.partSpan) := by
  intro _ p hp
  cases List.mem_singleton.1 hp
  simp [PageId.ok, PageKind.count]

theorem WellFormed.verdictArm : WellFormed.Statement (.verdictArm) := by
  intro _ p hp
  cases List.mem_singleton.1 hp
  simp [PageId.ok, PageKind.count]

theorem WellFormed.verdictFinal : WellFormed.Statement (.verdictFinal) := by
  intro _ p hp
  cases List.mem_singleton.1 hp
  simp [PageId.ok, PageKind.count]

theorem WellFormed.recordCommit (span : Bool) (id : PartId) : WellFormed.Statement (.recordCommit span id) := by
  intro _ p hp
  cases List.mem_singleton.1 hp
  simp [PageId.ok, PageKind.count]

theorem WellFormed.deadlinePoint (id : PartId) : WellFormed.Statement (.deadlinePoint id) := by
  intro _ p hp
  cases List.mem_singleton.1 hp
  simp [PageId.ok, PageKind.count]

theorem WellFormed.firingOn (span : Bool) (id : PartId) (bank : Bank) : WellFormed.Statement (.firingOn span id bank) := by
  intro _ p hp
  cases List.mem_singleton.1 hp
  simp [PageId.ok, PageKind.count]

theorem WellFormed.firingOff (span : Bool) (id : PartId) (bank : Bank) : WellFormed.Statement (.firingOff span id bank) := by
  intro _ p hp
  cases List.mem_singleton.1 hp
  simp [PageId.ok, PageKind.count]

theorem WellFormed.tableFreed (id : PartId) : WellFormed.Statement (.tableFreed id) := by
  intro _ p hp
  cases List.mem_singleton.1 hp
  simp [PageId.ok, PageKind.count]

theorem WellFormed.minTimeHoldEnd (path : ValvePath) (valve : ValveNo) : WellFormed.Statement (.minTimeHoldEnd path valve) := by
  intro _ p hp
  cases List.mem_singleton.1 hp
  simp [PageId.ok, PageKind.count]

theorem WellFormed.maxOnExpiry (path : ValvePath) (valve : ValveNo) : WellFormed.Statement (.maxOnExpiry path valve) := by
  intro _ p hp
  cases List.mem_singleton.1 hp
  simp [PageId.ok, PageKind.count]

theorem WellFormed.vpFrameBoundary (ret0 : BitVec 128) (ret1 : BitVec 128) (ret2 : BitVec 128) (ret3 : BitVec 128) : WellFormed.Statement (.vpFrameBoundary ret0 ret1 ret2 ret3) := by
  intro _ p hp
  cases List.mem_singleton.1 hp
  simp [PageId.ok, PageKind.count]

theorem WellFormed.kvAppendIssue (part : Part) : WellFormed.Statement (.kvAppendIssue part) := by
  intro _ p hp
  cases List.mem_singleton.1 hp
  simp [PageId.ok, PageKind.count]

theorem WellFormed.attnIssue (part : Part) : WellFormed.Statement (.attnIssue part) := by
  intro _ p hp
  cases List.mem_singleton.1 hp
  simp [PageId.ok, PageKind.count]

theorem WellFormed.atnWorkUnitDone (engine : Engine) : WellFormed.Statement (.atnWorkUnitDone engine) := by
  intro _ p hp
  cases List.mem_singleton.1 hp
  simp [PageId.ok, PageKind.count]

theorem WellFormed.peerReadTimeout : WellFormed.Statement (.peerReadTimeout) := by
  intro _ p hp
  cases List.mem_singleton.1 hp
  simp [PageId.ok, PageKind.count]

theorem WellFormed.planLoadGo (fn : Fn) (part : Part) (slot : PlanSlot) (hold : Bool) : WellFormed.Statement (.planLoadGo fn part slot hold) := by
  intro _ p hp
  cases List.mem_singleton.1 hp
  simp [PageId.ok, PageKind.count]

theorem WellFormed.planCheckDone (part : Part) (slot : PlanSlot) : WellFormed.Statement (.planCheckDone part slot) := by
  intro _ p hp
  cases List.mem_singleton.1 hp
  simp [PageId.ok, PageKind.count]

theorem WellFormed.planSwitch (part : Part) (slot : PlanSlot) : WellFormed.Statement (.planSwitch part slot) := by
  intro _ p hp
  cases List.mem_singleton.1 hp
  simp [PageId.ok, PageKind.count]

theorem WellFormed.planUnload (fn : Fn) (part : Part) (slot : PlanSlot) : WellFormed.Statement (.planUnload fn part slot) := by
  intro _ p hp
  cases List.mem_singleton.1 hp
  simp [PageId.ok, PageKind.count]

theorem WellFormed.partitionConfigWrite (fn : Fn) (part : Part) (reg : PartReg) : WellFormed.Statement (.partitionConfigWrite fn part reg) := by
  intro _ p hp
  cases List.mem_singleton.1 hp
  simp [PageId.ok, PageKind.count]

theorem WellFormed.sqDoorbell (fn : Fn) (part : Part) (sq : Unit16) (tail : BitVec 32) : WellFormed.Statement (.sqDoorbell fn part sq tail) := by
  intro _ p hp
  cases List.mem_singleton.1 hp
  simp [PageId.ok, PageKind.count]

theorem WellFormed.sqRun (part : Part) (sq : Unit16) (entry : BitVec 512) : WellFormed.Statement (.sqRun part sq entry) := by
  intro _ p hp
  cases List.mem_singleton.1 hp
  simp [PageId.ok, PageKind.count]

theorem WellFormed.sqStop (part : Part) (sq : Unit16) (entry : BitVec 512) : WellFormed.Statement (.sqStop part sq entry) := by
  intro _ p hp
  cases List.mem_singleton.1 hp
  simp [PageId.ok, PageKind.count]

theorem WellFormed.sqFence (part : Part) (sq : Unit16) (entry : BitVec 512) : WellFormed.Statement (.sqFence part sq entry) := by
  intro _ p hp
  cases List.mem_singleton.1 hp
  simp [PageId.ok, PageKind.count]

theorem WellFormed.cqHeadWrite (fn : Fn) (part : Part) (cq : Unit32) (head : BitVec 32) : WellFormed.Statement (.cqHeadWrite fn part cq head) := by
  intro _ p hp
  cases List.mem_singleton.1 hp
  simp [PageId.ok, PageKind.count]

theorem WellFormed.cqCoalesceTimer (part : Part) (cq : Unit32) : WellFormed.Statement (.cqCoalesceTimer part cq) := by
  intro _ p hp
  cases List.mem_singleton.1 hp
  simp [PageId.ok, PageKind.count]

theorem WellFormed.sliceEnd (part : Part) : WellFormed.Statement (.sliceEnd part) := by
  intro _ p hp
  cases List.mem_singleton.1 hp
  simp [PageId.ok, PageKind.count]

theorem WellFormed.jobSwitchDone (part : Part) : WellFormed.Statement (.jobSwitchDone part) := by
  intro _ p hp
  cases List.mem_singleton.1 hp
  simp [PageId.ok, PageKind.count]

theorem WellFormed.nonpreemptWatchdog (part : Part) : WellFormed.Statement (.nonpreemptWatchdog part) := by
  intro _ p hp
  cases List.mem_singleton.1 hp
  simp [PageId.ok, PageKind.count]

theorem WellFormed.bwWindowStart : WellFormed.Statement (.bwWindowStart) := by
  intro _ p hp; cases hp

theorem WellFormed.refresh (pc : Pc) : WellFormed.Statement (.refresh pc) := by
  intro _ p hp
  cases List.mem_singleton.1 hp
  simp [PageId.ok, PageKind.count]

theorem WellFormed.scrubRead : WellFormed.Statement (.scrubRead) := by
  intro _ p hp
  cases List.mem_singleton.1 hp
  simp [PageId.ok, PageKind.count]

theorem WellFormed.encoderEdge (port : EncPort) (a : Bool) (b : Bool) : WellFormed.Statement (.encoderEdge port a b) := by
  intro _ p hp
  cases List.mem_singleton.1 hp
  simp [PageId.ok, PageKind.count]

theorem WellFormed.indexEdge (port : EncPort) (high : Bool) : WellFormed.Statement (.indexEdge port high) := by
  intro _ p hp
  cases List.mem_singleton.1 hp
  simp [PageId.ok, PageKind.count]

theorem WellFormed.absFrameComplete (port : EncPort) (samples : List Bool) : WellFormed.Statement (.absFrameComplete port samples) := by
  intro _ p hp
  cases List.mem_singleton.1 hp
  simp [PageId.ok, PageKind.count]

theorem WellFormed.sincosSample (port : EncPort) (sn : BitVec 14) (cs : BitVec 14) : WellFormed.Statement (.sincosSample port sn cs) := by
  intro _ p hp
  cases List.mem_singleton.1 hp
  simp [PageId.ok, PageKind.count]

theorem WellFormed.speedWindowEnd (port : EncPort) : WellFormed.Statement (.speedWindowEnd port) := by
  intro _ p hp
  cases List.mem_singleton.1 hp
  simp [PageId.ok, PageKind.count]

theorem WellFormed.encSelWrite (fn : Fn) (belt : EncPort) (backup : EncPort) (backupEn : Bool) : WellFormed.Statement (.encSelWrite fn belt backup backupEn) := by
  intro _ p hp
  cases List.mem_singleton.1 hp
  simp [PageId.ok, PageKind.count]

theorem WellFormed.timeSetImmediate (fn : Fn) : WellFormed.Statement (.timeSetImmediate fn) := by
  intro _ p hp
  cases List.mem_singleton.1 hp
  simp [PageId.ok, PageKind.count]

theorem WellFormed.timeSetAtPps (fn : Fn) : WellFormed.Statement (.timeSetAtPps fn) := by
  intro _ p hp
  cases List.mem_singleton.1 hp
  simp [PageId.ok, PageKind.count]

theorem WellFormed.timeSetCancel (fn : Fn) : WellFormed.Statement (.timeSetCancel fn) := by
  intro _ p hp
  cases List.mem_singleton.1 hp
  simp [PageId.ok, PageKind.count]

theorem WellFormed.timeAdjust (fn : Fn) (value : BitVec 32) : WellFormed.Statement (.timeAdjust fn value) := by
  intro _ p hp
  cases List.mem_singleton.1 hp
  simp [PageId.ok, PageKind.count]

theorem WellFormed.ppsEdge (rising : Bool) : WellFormed.Statement (.ppsEdge rising) := by
  intro _ p hp
  cases List.mem_singleton.1 hp
  simp [PageId.ok, PageKind.count]

theorem WellFormed.secondsRollover : WellFormed.Statement (.secondsRollover) := by
  intro _ p hp
  cases List.mem_singleton.1 hp
  simp [PageId.ok, PageKind.count]

theorem WellFormed.compareArm (fn : Fn) (unit : Unit16) : WellFormed.Statement (.compareArm fn unit) := by
  intro _ p hp
  cases List.mem_singleton.1 hp
  simp [PageId.ok, PageKind.count]

theorem WellFormed.compareMatch (unit : Unit16) : WellFormed.Statement (.compareMatch unit) := by
  intro _ p hp
  cases List.mem_singleton.1 hp
  simp [PageId.ok, PageKind.count]

theorem WellFormed.refLost : WellFormed.Statement (.refLost) := by
  intro _ p hp
  cases List.mem_singleton.1 hp
  simp [PageId.ok, PageKind.count]

theorem WellFormed.refReturn : WellFormed.Statement (.refReturn) := by
  intro _ p hp
  cases List.mem_singleton.1 hp
  simp [PageId.ok, PageKind.count]

theorem WellFormed.fieldInputSample (on : BitVec 32) (broken : BitVec 32) (readback : BitVec 16) : WellFormed.Statement (.fieldInputSample on broken readback) := by
  intro _ p hp
  cases List.mem_singleton.1 hp
  simp [PageId.ok, PageKind.count]

theorem WellFormed.outputSetWrite (fn : Fn) (value : BitVec 32) : WellFormed.Statement (.outputSetWrite fn value) := by
  intro _ p hp
  cases List.mem_singleton.1 hp
  simp [PageId.ok, PageKind.count]

theorem WellFormed.watchdogEnable (fn : Fn) : WellFormed.Statement (.watchdogEnable fn) := by
  intro _ p hp
  cases List.mem_singleton.1 hp
  simp [PageId.ok, PageKind.count]

theorem WellFormed.watchdogKick (fn : Fn) (value : BitVec 32) : WellFormed.Statement (.watchdogKick fn value) := by
  intro _ p hp
  cases List.mem_singleton.1 hp
  simp [PageId.ok, PageKind.count]

theorem WellFormed.watchdogExpiry : WellFormed.Statement (.watchdogExpiry) := by
  intro _ p hp
  cases List.mem_singleton.1 hp
  simp [PageId.ok, PageKind.count]

theorem WellFormed.safeRelease (fn : Fn) : WellFormed.Statement (.safeRelease fn) := by
  intro _ p hp
  cases List.mem_singleton.1 hp
  simp [PageId.ok, PageKind.count]

theorem WellFormed.linkDown : WellFormed.Statement (.linkDown) := by
  intro _ p hp
  cases List.mem_singleton.1 hp
  simp [PageId.ok, PageKind.count]

theorem WellFormed.linkUp (rate : LinkRate) (modules : Modules) (repaired : Byte) : WellFormed.Statement (.linkUp rate modules repaired) := by
  intro _ p hp
  cases List.mem_singleton.1 hp
  simp [PageId.ok, PageKind.count]

theorem WellFormed.linkRetrain (fn : Fn) : WellFormed.Statement (.linkRetrain fn) := by
  intro _ p hp
  cases List.mem_singleton.1 hp
  simp [PageId.ok, PageKind.count]

theorem WellFormed.powerOn : WellFormed.Statement (.powerOn) := by
  intro _ p hp; cases hp

theorem WellFormed.resetNFall : WellFormed.Statement (.resetNFall) := by
  intro _ p hp; cases hp

theorem WellFormed.resetRecognised : WellFormed.Statement (.resetRecognised) := by
  intro _ p hp; cases hp

theorem WellFormed.resetNRise (refsel : Bool) : WellFormed.Statement (.resetNRise refsel) := by
  intro _ p hp; cases hp

theorem WellFormed.railUndervoltage : WellFormed.Statement (.railUndervoltage) := by
  intro _ p hp; cases hp

theorem WellFormed.mgtReset (fn : Fn) (cold : Bool) (scrub : Bool) (key : BitVec 16) : WellFormed.Statement (.mgtReset fn cold scrub key) := by
  intro _ p hp
  cases List.mem_singleton.1 hp
  simp [PageId.ok, PageKind.count]

theorem WellFormed.mgtResetExecute : WellFormed.Statement (.mgtResetExecute) := by
  intro _ p hp
  cases List.mem_singleton.1 hp
  simp [PageId.ok, PageKind.count]

theorem WellFormed.startCoolantWaitEnd : WellFormed.Statement (.startCoolantWaitEnd) := by
  intro _ p hp; cases hp

theorem WellFormed.memoryScrubDone : WellFormed.Statement (.memoryScrubDone) := by
  intro _ p hp; cases hp

theorem WellFormed.patchGo (fn : Fn) : WellFormed.Statement (.patchGo fn) := by
  intro _ p hp
  cases List.mem_singleton.1 hp
  simp [PageId.ok, PageKind.count]

theorem WellFormed.patchNone (fn : Fn) : WellFormed.Statement (.patchNone fn) := by
  intro _ p hp
  cases List.mem_singleton.1 hp
  simp [PageId.ok, PageKind.count]

theorem WellFormed.patchWindowTimeout : WellFormed.Statement (.patchWindowTimeout) := by
  intro _ p hp
  cases List.mem_singleton.1 hp
  simp [PageId.ok, PageKind.count]

theorem WellFormed.patchCheckDone (bundle : List Byte) (fetched : Bool) : WellFormed.Statement (.patchCheckDone bundle fetched) := by
  intro _ p hp
  cases List.mem_singleton.1 hp
  simp [PageId.ok, PageKind.count]

theorem WellFormed.settingsRestore (ue0 : Bool) (ue1 : Bool) : WellFormed.Statement (.settingsRestore ue0 ue1) := by
  intro _ p hp
  cases List.mem_singleton.1 hp
  simp [PageId.ok, PageKind.count]

theorem WellFormed.startOk (fn : Fn) : WellFormed.Statement (.startOk fn) := by
  intro _ p hp
  cases List.mem_singleton.1 hp
  simp [PageId.ok, PageKind.count]

theorem WellFormed.startOkWindowEnd : WellFormed.Statement (.startOkWindowEnd) := by
  intro _ p hp
  cases List.mem_singleton.1 hp
  simp [PageId.ok, PageKind.count]

theorem WellFormed.coolantStop : WellFormed.Statement (.coolantStop) := by
  intro _ p hp; cases hp

theorem WellFormed.thermalStop : WellFormed.Statement (.thermalStop) := by
  intro _ p hp; cases hp

theorem WellFormed.faultForce (fn : Fn) (typ : BitVec 3) (inst : BitVec 7) : WellFormed.Statement (.faultForce fn typ inst) := by
  intro _ p hp
  cases List.mem_singleton.1 hp
  simp [PageId.ok, PageKind.count]

theorem WellFormed.classifierLeak (typ : ChannelType) : WellFormed.Statement (.classifierLeak typ) := by
  intro _ p hp
  cases List.mem_singleton.1 hp
  simp [PageId.ok, PageKind.count]

theorem WellFormed.retirementRecorded : WellFormed.Statement (.retirementRecorded) := by
  intro _ p hp
  cases List.mem_singleton.1 hp
  simp [PageId.ok, PageKind.count]

theorem WellFormed.retireClear (fn : Fn) (typ : BitVec 3) (inst : BitVec 7) : WellFormed.Statement (.retireClear fn typ inst) := by
  intro _ p hp
  cases List.mem_singleton.1 hp
  simp [PageId.ok, PageKind.count]

theorem WellFormed.snapshot (fn : Fn) : WellFormed.Statement (.snapshot fn) := by
  intro _ p hp
  cases List.mem_singleton.1 hp
  simp [PageId.ok, PageKind.count]

theorem WellFormed.snapshotCaptured : WellFormed.Statement (.snapshotCaptured) := by
  intro _ p hp
  cases List.mem_singleton.1 hp
  simp [PageId.ok, PageKind.count]

theorem WellFormed.snapshotDone (ok : Bool) : WellFormed.Statement (.snapshotDone ok) := by
  intro _ p hp
  cases List.mem_singleton.1 hp
  simp [PageId.ok, PageKind.count]

theorem WellFormed.velvetErase (fn : Fn) : WellFormed.Statement (.velvetErase fn) := by
  intro _ p hp
  cases List.mem_singleton.1 hp
  simp [PageId.ok, PageKind.count]

theorem WellFormed.attestGo (fn : Fn) : WellFormed.Statement (.attestGo fn) := by
  intro _ p hp
  cases List.mem_singleton.1 hp
  simp [PageId.ok, PageKind.count]

theorem WellFormed.attestDone : WellFormed.Statement (.attestDone) := by
  intro _ p hp
  cases List.mem_singleton.1 hp
  simp [PageId.ok, PageKind.count]

theorem WellFormed.voltageWaitEnd (reached : Bool) : WellFormed.Statement (.voltageWaitEnd reached) := by
  intro _ p hp
  cases List.mem_singleton.1 hp
  simp [PageId.ok, PageKind.count]

theorem WellFormed.railThrottleOn (sect : Sect) : WellFormed.Statement (.railThrottleOn sect) := by
  intro _ p hp
  cases List.mem_singleton.1 hp
  simp [PageId.ok, PageKind.count]

theorem WellFormed.railThrottleOff (sect : Sect) : WellFormed.Statement (.railThrottleOff sect) := by
  intro _ p hp
  cases List.mem_singleton.1 hp
  simp [PageId.ok, PageKind.count]

theorem WellFormed.pmcFreeze (fn : Fn) : WellFormed.Statement (.pmcFreeze fn) := by
  intro _ p hp
  cases List.mem_singleton.1 hp
  simp [PageId.ok, PageKind.count]

theorem WellFormed.pmcUnfreeze (fn : Fn) : WellFormed.Statement (.pmcUnfreeze fn) := by
  intro _ p hp
  cases List.mem_singleton.1 hp
  simp [PageId.ok, PageKind.count]

theorem WellFormed.pmcClear (fn : Fn) (mask : BitVec 32) : WellFormed.Statement (.pmcClear fn mask) := by
  intro _ p hp
  cases List.mem_singleton.1 hp
  simp [PageId.ok, PageKind.count]

theorem WellFormed.pmcWrap (counter : Unit32) : WellFormed.Statement (.pmcWrap counter) := by
  intro _ p hp
  cases List.mem_singleton.1 hp
  simp [PageId.ok, PageKind.count]

theorem WellFormed.pmcCrossing (counter : Unit32) : WellFormed.Statement (.pmcCrossing counter) := by
  intro _ p hp
  cases List.mem_singleton.1 hp
  simp [PageId.ok, PageKind.count]

theorem WellFormed.decFetchIssue (part : Part) : WellFormed.Statement (.decFetchIssue part) := by
  intro _ p hp
  cases List.mem_singleton.1 hp
  simp [PageId.ok, PageKind.count]

theorem WellFormed.decSampleDecoded (engine : Unit32) : WellFormed.Statement (.decSampleDecoded engine) := by
  intro _ p hp
  cases List.mem_singleton.1 hp
  simp [PageId.ok, PageKind.count]

theorem WellFormed.decSampleDelivered : WellFormed.Statement (.decSampleDelivered) := by
  intro _ p hp
  cases List.mem_singleton.1 hp
  simp [PageId.ok, PageKind.count]

theorem WellFormed.decCommitIssue (part : Part) : WellFormed.Statement (.decCommitIssue part) := by
  intro _ p hp
  cases List.mem_singleton.1 hp
  simp [PageId.ok, PageKind.count]

theorem WellFormed.decCacheFlush (fn : Fn) : WellFormed.Statement (.decCacheFlush fn) := by
  intro _ p hp
  cases List.mem_singleton.1 hp
  simp [PageId.ok, PageKind.count]

theorem WellFormed.laneWakeEnd (lane : Lane) : WellFormed.Statement (.laneWakeEnd lane) := by
  intro _ p hp
  cases List.mem_singleton.1 hp
  simp [PageId.ok, PageKind.count]

theorem WellFormed.fuseLoadDone : WellFormed.Statement (.fuseLoadDone) := by
  intro _ p hp
  cases List.mem_singleton.1 hp
  simp [PageId.ok, PageKind.count]

theorem WellFormed.velvetCheckDone (coolant : Bool) (dirUe : Bool) (recUe0 : Bool) (recUe1 : Bool) : WellFormed.Statement (.velvetCheckDone coolant dirUe recUe0 recUe1) := by
  intro _ p hp
  cases List.mem_singleton.1 hp
  simp [PageId.ok, PageKind.count]

theorem WellFormed.hbmTrainingDone (kept : Bool) : WellFormed.Statement (.hbmTrainingDone kept) := by
  intro _ p hp; cases hp

theorem WellFormed.hostReadFailed (part : Part) (sq : Unit16) : WellFormed.Statement (.hostReadFailed part sq) := by
  intro _ p hp
  cases List.mem_singleton.1 hp
  simp [PageId.ok, PageKind.count]

theorem WellFormed.refusedOpcode (part : Part) (sq : Unit16) (entry : BitVec 512) : WellFormed.Statement (.refusedOpcode part sq entry) := by
  intro _ p hp
  cases List.mem_singleton.1 hp
  simp [PageId.ok, PageKind.count]

end Sys2Proof.Laws
end

