-- ==== Sys2Proof/Laws/Rows.lean ====
section
/-!
SUPPORT. Laws/Rows.lean: what the claims about single commands use: a gate that is open, a block that works, events raised and kept, frames
built update by update, and registers that an operation does not reach.
-/
namespace Sys2Proof.Machine

/-! ## Gates -/

theorem State.hostRow_open {s : State} {fn : Nat} {p : PageId} {off : Nat} (h : s.gateOpen fn p off = true) (v : Nat) :
    s.hostRow fn p off v = s.hostWord fn p off v := by
  simp only [State.gateOpen, Bool.and_eq_true, Bool.not_eq_true', Bool.or_eq_true, Option.isNone_iff_eq_none] at h
  obtain ⟨⟨⟨⟨⟨hl, hh⟩, hr⟩, hs⟩, hc⟩, hk⟩ := h
  have hb : ((s.isOn .MGTX_STOPPED || !s.isOn .MGT_STATUS_ready) && !mgmtPage p.kind) = false := by
    rcases hr with hr | ⟨h1, h2⟩
    · simp [hr]
    · simp [h1, h2]
  simp only [State.hostRow, State.hostGate, hl, hh, State.hostApply, State.hostReach, hb, hs, hc, hk, Bool.not_true, Bool.true_or,
    Bool.false_eq_true, if_false]

theorem State.hostRow_opens {s : State} {fn : Nat} {p : PageId} {off : Nat} (h : s.opens fn p off = true) (v : Nat) :
    s.hostRow fn p off v = if off < 0x100 then s.headerWord fn p off v else s.blockWord fn p off v := by
  simp only [State.opens, Bool.and_eq_true, Bool.not_eq_true'] at h
  rw [State.hostRow_open h.1, State.hostWord, h.2]
  simp

theorem State.whenAwake_awake {s : State} (h : s.awake = true) (act : State → State) : s.whenAwake act = act s := by
  simp [State.whenAwake, h]

theorem pageRow_ok {p : PageId} (h : p.ok = true) (t : State) : pageRow p t = .next t := by simp [pageRow, h]

theorem answers_of_next {c : Instr} {s t : State} {P : State → Prop} (e : exec c s = .next t) (h : P t) : Answers c s P := ⟨t, e, h⟩

/-! ## Offsets -/

theorem kinds_apart : allKinds.all (fun k => allKinds.all (fun j => k == j || decide (j.base + j.count * 0x1000 ≤ k.base) ||
    decide (k.base + k.count * 0x1000 ≤ j.base))) = true := by decide

theorem mem_allKinds (k : PageKind) : k ∈ allKinds := by cases k <;> decide

theorem find_kind {k : PageKind} {x off : Nat} (h1 : k.base ≤ x) (h2 : x + 0x1000 ≤ k.base + k.count * 0x1000) (ho : off < 0x1000) :
    ∀ l : List PageKind, k ∈ l → l.find? (fun j => j.base ≤ x + off && x + off < j.base + j.count * 0x1000) = some k := by
  intro l hk
  induction l with
  | nil => cases hk
  | cons a l ih =>
    rw [List.find?_cons]
    have hd := List.all_eq_true.mp (List.all_eq_true.mp kinds_apart k (mem_allKinds k)) a (mem_allKinds a)
    simp only [Bool.or_eq_true, beq_iff_eq, decide_eq_true_eq] at hd
    by_cases e : k = a
    · subst e
      have : (decide (k.base ≤ x + off) && decide (x + off < k.base + k.count * 0x1000)) = true := by
        simp only [Bool.and_eq_true, decide_eq_true_eq]; omega
      rw [this]
    · have : (decide (a.base ≤ x + off) && decide (x + off < a.base + a.count * 0x1000)) = false := by
        simp only [e, false_or] at hd
        simp only [Bool.and_eq_false_iff, decide_eq_false_iff_not]; omega
      rw [this]
      simp only [List.mem_cons, e, false_or] at hk
      exact ih hk

/-- An offset within a page names that page. -/
theorem pageAt_base {p : PageId} (h : p.ok = true) {off : Nat} (ho : off < 0x1000) : pageAt (p.base + off) = some p := by
  obtain ⟨k, i⟩ := p
  simp only [PageId.ok, decide_eq_true_eq] at h
  have hm : (i + 1) * 0x1000 ≤ k.count * 0x1000 := Nat.mul_le_mul_right _ h
  obtain ⟨x, hx⟩ : ∃ x, x = (PageId.mk k i).base := ⟨_, rfl⟩
  have hb : x = k.base + i * 0x1000 := hx
  rw [← hx, pageAt, find_kind (by omega) (by omega) ho allKinds (mem_allKinds k)]
  simp only [Option.map_some, Option.some.injEq, PageId.mk.injEq, true_and]
  omega

theorem State.opens_gate {s : State} {fn : Nat} {p : PageId} {off : Nat} (h : s.opens fn p off = true) : s.gateOpen fn p off = true := by
  simp only [State.opens, Bool.and_eq_true] at h; exact h.1

/-- A word write by its address through an open gate. -/
theorem barWrite_word {s : State} {fn : Nat} {p : PageId} {off : Nat} (hp : p.ok = true) (hoff : off < 0x1000) (h4 : off % 4 = 0) (ho : s.opens fn p off = true) (v : Nat) (hv : v < 2 ^ 32) :
    s.bar0Write fn (p.base + off) 4 v = if off < 0x100 then s.headerWord fn p off v else s.blockWord fn p off v := by
  have hg := State.opens_gate ho
  have e := State.hostRow_opens ho v
  simp only [State.gateOpen, Bool.and_eq_true, Bool.not_eq_true', Bool.or_eq_true, Option.isNone_iff_eq_none] at hg
  obtain ⟨⟨⟨⟨⟨hl, hh⟩, hr⟩, hs⟩, hc⟩, hk⟩ := hg
  have hbase : p.base % 4 = 0 ∧ p.base + off < bar0Size := by
    obtain ⟨k, i⟩ := p
    simp only [PageId.ok, decide_eq_true_eq] at hp
    constructor
    · cases k <;> simp only [PageId.base, PageKind.base] <;> omega
    · cases k <;> simp only [PageKind.count] at hp <;> simp only [PageId.base, PageKind.base, bar0Size] <;> omega
  have ha : accessOk (p.base + off) 4 = true := by
    simp only [accessOk, Bool.and_eq_true, decide_eq_true_eq, beq_iff_eq]
    refine ⟨⟨by decide, ?_⟩, hbase.2⟩; omega
  have hw : accessWords off 4 v = [(off, v)] := by
    simp only [accessWords, show (4 : Nat) / 4 = 1 from rfl, show List.range 1 = [0] from rfl, List.map_cons, List.map_nil, Nat.mul_zero, Nat.add_zero, bits, Nat.shiftRight_zero]
    congr 2
    exact Nat.mod_eq_of_lt hv
  have hb : ((s.isOn .MGTX_STOPPED || !s.isOn .MGT_STATUS_ready) && !mgmtPage p.kind) = false := by
    rcases hr with hr | ⟨h1, h2⟩
    · simp [hr]
    · simp [h1, h2]
  have hsub : p.base + off - p.base = off := by omega
  simp only [State.hostRow, State.hostGate, hl, hh, State.hostApply, State.hostReach, hb, hs, hc, hk, Bool.not_true, Bool.true_or,
    Bool.false_eq_true, if_false] at e
  simp only [State.bar0Write, hl, ha, hh, State.barWrite, pageAt_base hp hoff, hsub, State.hostReach, hb, hs, hc, Bool.not_true, Bool.true_or, Bool.or_self, Bool.false_eq_true, if_false,
    State.lockedWords, hw, List.any_cons, hk, List.any_nil, List.filter_cons, List.filter_nil, Bool.not_false, if_true, State.forEach, List.foldl_cons, List.foldl_nil]
  exact e

theorem block_high : allKinds.all (fun k => k == .mgt || (blockFlds k).all (fun f => decide (0x100 ≤ f.off))) = true := by decide

theorem State.startRegs_header (s : State) (p : PageId) (hm : p.kind ≠ .mgt) {f : Fld} (hf : f.off < 0x100) (i j : Nat) : (s.startRegs p).get f i j = s.get f i j := by
  have hb := List.all_eq_true.mp block_high p.kind (mem_allKinds _)
  simp only [Bool.or_eq_true, beq_iff_eq, hm, false_or] at hb
  have key : ∀ (l : List Fld), (∀ g ∈ l, 0x100 ≤ g.off) → ∀ t : State, (t.forEach l (fun s f =>
    s.forEach (List.range f.count) (fun s j =>
      let v := s.startVal f p.inst j
      if f.acc == .rws then (s.set f p.inst j v).setShadow f p.inst j v else s.set f p.inst j v))).get f i j = t.get f i j := by
    intro l
    induction l with
    | nil => intro _ _; rfl
    | cons g l ih =>
      intro hl t
      have hd : f.diff g = true := by
        have := hl g (by simp)
        simp only [Fld.diff, Bool.or_eq_true, bne_iff_ne]; left; left; omega
      have inner : ∀ (r : List Nat) (t : State), (t.forEach r (fun s j =>
          let v := s.startVal g p.inst j
          if g.acc == .rws then (s.set g p.inst j v).setShadow g p.inst j v else s.set g p.inst j v)).get f i j = t.get f i j := by
        intro r
        induction r with
        | nil => intro _; rfl
        | cons a r ih2 =>
          intro t
          refine (ih2 _).trans ?_
          dsimp only
          split
          · rw [State.get_setShadow, State.get_set_other _ hd]
          · rw [State.get_set_other _ hd]
      exact (ih (fun g hg => hl g (List.mem_cons_of_mem _ hg)) _).trans (inner _ _)
  exact key _ (fun g hg => by
    have := List.all_eq_true.mp hb g (List.mem_filter.mp hg).1
    simpa using this) _

/-! ## Bits -/

theorem bit_eq (v n : Nat) : bit v n = v.testBit n := by
  simp only [bit, Nat.testBit_eq_decide_div_mod_eq, Nat.shiftRight_eq_div_pow]
  by_cases h : v / 2 ^ n % 2 = 1 <;> simp [h]

theorem bit_or (a b n : Nat) : bit (a ||| b) n = (bit a n || bit b n) := by
  simp only [bit_eq, Nat.testBit_or]

theorem bit_mod {a w n : Nat} (h : n < w) : bit (a % 2 ^ w) n = bit a n := by
  simp only [bit_eq, Nat.testBit_mod_two_pow, h, decide_true, Bool.true_and]

theorem bit_two_pow (m n : Nat) : bit (2 ^ m) n = decide (m = n) := by
  simp only [bit_eq, Nat.testBit_two_pow]

/-! ## Events -/

theorem State.event_congr {s t : State} {p : PageId} {n : Nat} (h : t.get (.EVT_STATUS p.kind) p.inst = s.get (.EVT_STATUS p.kind) p.inst) :
    t.event p n = s.event p n := by simp only [State.event, h]

/-- Events raised together are recorded, and those recorded before stay. -/
theorem State.raiseMask_event (s : State) (p : PageId) (mask detail : Nat) (forced : Bool) {n : Nat} (hn : n < 32) :
    (s.raiseMask p mask detail forced).event p n = (s.event p n || bit mask n) := by
  simp only [State.event, State.raiseMask_status, bit_mod hn, bit_or]

theorem State.raise_event (s : State) (p : PageId) (d : Nat) {n : Nat} (hn : n < 32) : (s.raise p n d).event p n = true := by
  rw [State.raise, State.raiseMask_event _ _ _ _ _ hn, bit_two_pow]; simp

theorem State.code_event (s : State) (p : PageId) (fn off c : Nat) : (s.code p fn off c).event p 31 = true :=
  State.raise_event _ _ _ (by decide)

theorem State.event_set (s : State) {g : Fld} {p : PageId} (h : (Fld.EVT_STATUS p.kind).diff g = true) (i j v n : Nat) :
    (s.set g i j v).event p n = s.event p n := State.event_congr (State.get_set_other s h _ _ _ _ _)

theorem onesOf_two_pow {n : Nat} (h : n < 32) : onesOf 32 (2 ^ n) = [n] := by
  have : ∀ n : Fin 32, onesOf 32 (2 ^ n.val) = [n.val] := by decide
  exact this ⟨n, h⟩

theorem popCount_two_pow {n : Nat} (h : n < 32) : popCount 32 (2 ^ n) = 1 := by
  have e := onesOf_two_pow h
  simp only [onesOf] at e
  simp [popCount, e]

/-- ERR_INFO after an event on a page that held none. -/
theorem State.raise_fresh (s : State) (p : PageId) (d : Nat) {n : Nat} (hn : n < 32) (h : s.isOn (.ERR_INFO_valid p.kind) p.inst = false) :
    (s.raise p n d).get (.ERR_INFO_valid p.kind) p.inst = 1 ∧ (s.raise p n d).get (.ERR_INFO_forced p.kind) p.inst = 0 ∧
    (s.raise p n d).get (.ERR_INFO_event p.kind) p.inst = n ∧ (s.raise p n d).get (.ERR_INFO_detail p.kind) p.inst = d % 2 ^ 24 ∧
    (s.raise p n d).get (.ERR_INFO_overflow p.kind) p.inst = s.get (.ERR_INFO_overflow p.kind) p.inst := by
  have hs : ∀ (t : State) (b : Bool) (f : Fld), msgFlds.all (fun g => f.diff g) = true →
      (t.signal p b).get f p.inst = t.get f p.inst := fun t b f hf =>
    (State.only_signal [] t p b).cells _ _ _ (by simp only [untouched, outside, hf, List.all_nil, Bool.and_self])
  have hv : (s.set (.EVT_STATUS p.kind) p.inst 0 (s.get (.EVT_STATUS p.kind) p.inst ||| 2 ^ n)).isOn (.ERR_INFO_valid p.kind) p.inst = false := by
    rw [State.isOn, State.get_set_other _ rfl]; exact h
  have hm : ((2 : Nat) ^ n == 0) = false := by simp
  have hw : n % 2 ^ 5 = n := Nat.mod_eq_of_lt (by omega)
  simp only [State.raise, State.raiseMask, State.capture, hm, hv, onesOf_two_pow hn, popCount_two_pow hn, Bool.false_eq_true, if_false,
    Nat.lt_irrefl, gt_iff_lt, List.headD_cons]
  refine ⟨?_, ?_, ?_, ?_, ?_⟩
  · rw [hs _ _ _ rfl]; repeat (first | rw [State.get_set_self] | rw [State.get_set_other _ rfl])
    rfl
  · rw [hs _ _ _ rfl]; repeat (first | rw [State.get_set_self] | rw [State.get_set_other _ rfl])
    rfl
  · rw [hs _ _ _ rfl]; repeat (first | rw [State.get_set_self] | rw [State.get_set_other _ rfl])
    exact hw
  · rw [hs _ _ _ rfl]; repeat (first | rw [State.get_set_self] | rw [State.get_set_other _ rfl])
    rfl
  · rw [hs _ _ _ rfl]; repeat (first | rw [State.get_set_self] | rw [State.get_set_other _ rfl])

/-- ERR_INFO after an event on a page that held one already. -/
theorem State.raise_again (s : State) (p : PageId) (d : Nat) {n : Nat} (h : s.isOn (.ERR_INFO_valid p.kind) p.inst = true) :
    (s.raise p n d).get (.ERR_INFO_overflow p.kind) p.inst = 1 ∧
    (s.raise p n d).get (.ERR_INFO_event p.kind) p.inst = s.get (.ERR_INFO_event p.kind) p.inst ∧
    (s.raise p n d).get (.ERR_INFO_detail p.kind) p.inst = s.get (.ERR_INFO_detail p.kind) p.inst := by
  have hs : ∀ (t : State) (b : Bool) (f : Fld), msgFlds.all (fun g => f.diff g) = true →
      (t.signal p b).get f p.inst = t.get f p.inst := fun t b f hf =>
    (State.only_signal [] t p b).cells _ _ _ (by simp only [untouched, outside, hf, List.all_nil, Bool.and_self])
  have hv : (s.set (.EVT_STATUS p.kind) p.inst 0 (s.get (.EVT_STATUS p.kind) p.inst ||| 2 ^ n)).isOn (.ERR_INFO_valid p.kind) p.inst = true := by
    rw [State.isOn, State.get_set_other _ rfl]; exact h
  have hm : ((2 : Nat) ^ n == 0) = false := by simp
  simp only [State.raise, State.raiseMask, State.capture, hm, hv, Bool.false_eq_true, if_false, if_true]
  refine ⟨?_, ?_, ?_⟩
  · rw [hs _ _ _ rfl, State.get_set_self]; rfl
  · rw [hs _ _ _ rfl, State.get_set_other _ rfl, State.get_set_other _ rfl]
  · rw [hs _ _ _ rfl, State.get_set_other _ rfl, State.get_set_other _ rfl]

/-! ## Frames, update by update -/

theorem State.Only.set {l : List CellId} {s t : State} (h : State.Only l s t) {g : Fld} {i j : Nat} (v : Nat) (hg : (g, i, j) ∈ l) :
    State.Only l s (t.set g i j v) := h.trans (State.only_set hg t v)

theorem State.Only.count {l : List CellId} {s t : State} (h : State.Only l s t) {g : Fld} {i j : Nat} (v : Nat) (hg : (g, i, j) ∈ l) :
    State.Only l s (t.count g i j v) := h.trans (State.only_set hg t _)

theorem State.Only.countWrap {l : List CellId} {s t : State} (h : State.Only l s t) {g : Fld} {i j : Nat} (v : Nat) (hg : (g, i, j) ∈ l) :
    State.Only l s (t.countWrap g i j v) := h.trans (State.only_set hg t _)

theorem State.Only.emit {l : List CellId} {s t : State} (h : State.Only l s t) (x : Output) : State.Only l s (t.emit x) :=
  h.trans (State.only_emit l t x)

theorem State.Only.raiseMask {l : List CellId} {s t : State} (h : State.Only l s t) {p : PageId} (mask d : Nat) (b : Bool)
    (hl : ∀ g ∈ evtCells p, g ∈ l) : State.Only l s (t.raiseMask p mask d b) := h.trans ((State.only_raiseMask t p mask d b).mono hl)

theorem State.Only.raise {l : List CellId} {s t : State} (h : State.Only l s t) {p : PageId} (n d : Nat) (hl : ∀ g ∈ evtCells p, g ∈ l) :
    State.Only l s (t.raise p n d) := h.raiseMask _ _ _ hl

theorem State.Only.code {l : List CellId} {s t : State} (h : State.Only l s t) {p : PageId} (fn off c : Nat) (hl : ∀ g ∈ evtCells p, g ∈ l) :
    State.Only l s (t.code p fn off c) := h.raiseMask _ _ _ hl

theorem State.Only.ite {l : List CellId} {s a b : State} {c : Prop} [Decidable c] (ha : State.Only l s a) (hb : State.Only l s b) :
    State.Only l s (if c then a else b) := by split <;> assumption

theorem State.refuses_code (s : State) (p : PageId) (fn off c : Nat) : State.Refuses s (s.code p fn off c) p fn off c where
  event := State.code_event _ _ _ _ _
  detail := fun h => by
    obtain ⟨-, -, h3, h4, -⟩ := State.raise_fresh s p (c + fn * 2 ^ 8 + off / 4 * 2 ^ 12) (n := 31) (by decide) h
    exact ⟨h3, h4⟩
  only := State.only_code _ _ _ _ _

/-! ## Registers that an operation does not reach -/

/-- The predicate that picks one field. -/
def oneFld (f : Fld) (g : Fld) : Bool := g == f

theorem avoid_one {f : Fld} {ks : List PageKind} (h : ks.contains f.kind = false) (hm : msgFlds.all (fun g => f.diff g) = true) :
    Avoid (oneFld f) ks := by
  refine ⟨fun g _ hk x hx => ?_, fun g hg x hx => ?_⟩
  · simp only [oneFld, beq_iff_eq] at hx
    subst hx
    have : x.kind ≠ g.kind := fun e => by rw [e, hk] at h; cases h
    simp [Fld.diff, this]
  · simp only [oneFld, beq_iff_eq] at hx
    subst hx
    simp only [List.contains_eq_mem, decide_eq_true_eq] at hg
    exact List.all_eq_true.mp hm g hg

theorem avoid_calm_one {f : Fld} (h : f.calm = true) (ks : List PageKind) : Avoid (oneFld f) ks := by
  refine ⟨fun g hg _ x hx => ?_, fun g hg x hx => ?_⟩
  · simp only [oneFld, beq_iff_eq] at hx
    subst hx
    exact Fld.diff_of_calm h hg
  · simp only [oneFld, beq_iff_eq] at hx
    subst hx
    simp only [msgFlds, List.contains_eq_mem, List.mem_cons, List.not_mem_nil, or_false, decide_eq_true_eq] at hg
    obtain rfl | rfl | rfl := hg <;> exact Fld.diff_of_calm h rfl

theorem get_of_held {s t : State} {f : Fld} (h : Held (oneFld f) (fun g i j => s.get g i j) t) (i j : Nat) : t.get f i j = s.get f i j :=
  h f i j (by simp [oneFld])

/-- A register that a counting of events cannot reach. -/
theorem State.get_pmc (s : State) (code inst amt : Nat) (part : Option Nat) {f : Fld} (h : [PageKind.pmc].contains f.kind = false)
    (hm : msgFlds.all (fun g => f.diff g) = true) (i j : Nat) : (s.pmc code inst amt part).get f i j = s.get f i j :=
  get_of_held (State.pmc_stays (held_self s) (avoid_one h hm) _ _ _ _) i j

end Sys2Proof.Machine
end

