-- ==== Sys2Proof/Tests/Slice0.lean ====
section
/-!
SUPPORT. Tests/Slice0.lean: small tests of the model, and for each statement of Certificates/Slice0 that has hypotheses a state and operands that
meet them (`wit_<statement>_<clause>`). Every test concerns one step on a state made by the helpers.
-/
namespace Sys2Proof.Tests
open Sys2Proof.Machine

set_option maxRecDepth 40000
set_option exponentiation.threshold 700

/-! ## Helpers -/

/-- A state with the listed register cells set. -/
def put (s : State) (l : List (CellId × Nat)) : State := l.foldl (fun s x => s.set x.1.1 x.1.2.1 x.1.2.2 x.2) s

/-- The block at work: the link is up and the device is ready. -/
def live : State := put State.reset [((.HLK_LINK_STATUS_up, 0, 0), 1), ((.MGT_STATUS_ready, 0, 0), 1)]

/-- `live` with more cells set. -/
def liveWith (l : List (CellId × Nat)) : State := put live l

/-- The answer of a command is a next state for which a test holds. -/
def answers (c : Instr) (s : State) (f : State → Bool) : Bool :=
  match exec c s with
  | .next t => f t
  | _ => false

theorem next_of_answers {c : Instr} {s : State} {f : State → Bool} (h : answers c s f = true) : ∃ t, exec c s = .next t ∧ f t = true := by
  unfold answers at h
  split at h
  · rename_i t e; exact ⟨t, e, h⟩
  · cases h

theorem all_none {α : Type} {o : Option α} {P : α → Prop} (h : o = none) : ∀ a, o = some a → P a := by
  intro a ha; rw [h] at ha; cases ha

theorem all_some {α : Type} {o : Option α} {P : α → Prop} {a : α} (h : o = some a) (p : P a) : ∀ b, o = some b → P b := by
  intro b hb; rw [h] at hb; cases hb; exact p

/-! ## Steps and the whole machine -/

theorem wit_StepRunsTheOldestCommand :
    ({ State.reset with pending := [.refresh 63, .ackTimer 0] } : State).pending = .refresh 63 :: [.ackTimer 0] := by decide

theorem wit_IdleStepMovesTheClockOn : State.reset.pending = [] := by decide

theorem wit_ResetLeavesTheTableValues : Fld.LAN_STATUS_speed.key 23 0 ≠ Fld.MGT_RESET_CAUSE_power_on.key 0 0 := by decide

theorem wit_EveryStepKeepsStoresCanonical :
    live.canonical = true ∧ ∃ t, step { live with pending := [.refresh 63] } = .next t :=
  ⟨by decide, by obtain ⟨t, h, -⟩ := next_of_answers (c := .refresh 63) (s := live) (f := fun _ => true) (by decide); exact ⟨t, h⟩⟩

theorem wit_EveryWellFormedCommandAnswers : (Instr.lineComplete 11 [1, 2, 3]).wf = true ∧ (Instr.refresh 63).wf = true := by decide

theorem wit_AbsentPagesStop : (⟨.lan, 24⟩ : PageId).ok = false ∧ (⟨.mgt, 1⟩ : PageId).ok = false ∧ (⟨.clu, 72⟩ : PageId).ok = false := by decide

theorem wit_CommandsStayWithinTheirReach : reach (.refresh 63) = some [.memPc, .pmc] ∧ (∃ t, exec (.refresh 63) live = .next t) ∧
    ([PageKind.memPc, .pmc].contains Fld.TRK_HOLD.kind) = false ∧ msgFlds.all (fun g => Fld.TRK_HOLD.diff g) = true :=
  ⟨rfl, by obtain ⟨t, h, -⟩ := next_of_answers (c := .refresh 63) (s := live) (f := fun _ => true) (by decide); exact ⟨t, h⟩, by decide, by decide⟩

theorem wit_EventsLeaveTheHeaderSettings : (reach (.refresh 63)).isSome = true ∧ (∃ t, exec (.refresh 63) live = .next t) ∧
    Fld.calm (.CTRL_enable .memPart) = true ∧ Fld.calm (.LOCK_sticky .lan) = true :=
  ⟨by decide, by obtain ⟨t, h, -⟩ := next_of_answers (c := .refresh 63) (s := live) (f := fun _ => true) (by decide); exact ⟨t, h⟩, by decide, by decide⟩

/-! ## The host -/

theorem wit_LinkDownLosesHostAccesses : State.reset.linkUp = false ∧ (Instr.laneSlip 8 23).wf = true ∧
    target (.laneSlip 8 23) = some (8, lanePage 23, 0x118) := by decide

theorem wit_HostWritesWait_held : ({ live with held := some [] } : State).linkUp = true ∧ (Instr.laneSlip 0 23).wf = true ∧
    target (.laneSlip 0 23) = some (0, lanePage 23, 0x118) ∧ ({ live with held := some [] } : State).held = some [] := by decide

theorem wit_HostWritesWait_ready : let s := put State.reset [((.HLK_LINK_STATUS_up, 0, 0), 1)]
    s.linkUp = true ∧ s.held = none ∧ mgmtPage (lanePage 0).kind = false ∧ s.isOn .MGT_STATUS_ready = false := by decide

theorem wit_HostWritesWait_stopped : let s := liveWith [((.MGTX_STOPPED, 0, 0), 1)]
    s.linkUp = true ∧ s.held = none ∧ mgmtPage (lanePage 0).kind = false ∧ s.stopped = true := by decide

theorem wit_HostWritesNeedTheirPage_denied : live.linkUp = true ∧ live.held = none ∧ live.sees 8 (lanePage 23) = false ∧
    live.isOn (.ERR_INFO_valid .hlk) = false ∧ (live.isOn .MGT_STATUS_ready && !live.stopped) = true ∧
    let u := liveWith [((.ERR_INFO_valid .hlk, 0, 0), 1)]
    u.sees 8 (lanePage 23) = false ∧ u.isOn (.ERR_INFO_valid .hlk) = true := by decide

theorem wit_HostWritesNeedTheirPage_locked :
    let s := liveWith [((.OWNER_valid .capCtx, 63, 0), 1), ((.OWNER_partition .capCtx, 63, 0), 7), ((.LOCK_locked .capCtx, 63, 0), 1)]
    s.sees 8 (capPage 63) = true ∧ (capPage 63).kind ≠ .clu ∧ s.lockDenies 8 (capPage 63) 0x158 = true ∧
    target (.replayPush 8 63) = some (8, capPage 63, 0x158) := by decide

theorem wit_HostWritesNeedTheirPage_closed : live.gateOpen 8 ⟨.memPart, 7⟩ 0x8 = true ∧ memPartOpen 0x8 = false ∧
    target (.memRegionEnable 8 7) = some (8, ⟨.memPart, 7⟩, 0x8) := by decide

theorem wit_EventBitsAreForcedAndCleared : (lanePage 23).ok = true ∧ live.opens 0 (lanePage 23) 0x18 = true ∧
    onesOf 32 (0x80000002 &&& (lanePage 23).events) = [1, 31] ∧ live.isOn (.ERR_INFO_valid .lan) 23 = false ∧
    live.opens 0 (lanePage 23) 0x10 = true := by decide

theorem wit_SoftResetCountsAGeneration : (lanePage 23).ok = true ∧ live.opens 0 (lanePage 23) 0x8 = true ∧
    live.enableShown (lanePage 23) = false ∧ live.opens 0 (encPage 3) 0x8 = true ∧ live.enableShown (encPage 3) = false ∧
    live.opens 0 ⟨.trk, 0⟩ 0x8 = true ∧ live.enableShown ⟨.trk, 0⟩ = true ∧ (⟨.trk, 0⟩ : PageId).kind.ownEnable = false := by decide

theorem wit_QuiesceAndEnableClearStopWork : live.opens 0 (encPage 3) 0x8 = true ∧ (encPage 3).kind.ownEnable = true ∧
    live.opens 0 ⟨.trk, 0⟩ 0x8 = true ∧ (⟨.trk, 0⟩ : PageId).kind.ownEnable = false ∧ live.regionBusy 7 = false ∧
    (let s := liveWith [((.CTRL_enable .enc, 3, 0), 1), ((.ENCX_BUSY, 3, 0), 1)]
     s.isOn (.CTRL_enable .enc) 3 = true ∧ s.active (encPage 3) = true) := by decide

theorem wit_QuiesceAndEnableClearStopWork_busy :
    let s := liveWith [((.CTRL_enable .memPart, 7, 0), 1), ((.OWNER_valid .atnPool, 7, 0), 1), ((.OWNER_partition .atnPool, 7, 0), 7),
      ((.CTRL_enable .atnPool, 7, 0), 1)]
    s.opens 0 ⟨.memPart, 7⟩ 0x8 = true ∧ s.isOn (.CTRL_enable .memPart) 7 = true ∧ s.regionBusy 7 = true := by decide

/-- A commit of CAP context 63 that waits, released. -/
def committed : State := { live with commits := [⟨capPage 63, 0, 0, 0, true, [], false⟩] }

theorem wit_CommitGoCapturesTheShadows : (capPage 63).ok = true ∧ live.opens 0 (capPage 63) 0x20 = true ∧
    live.commitPending (capPage 63) = false ∧ PageKind.boundaries .capCtx = [0, 1, 4] ∧ committed.opens 0 (capPage 63) 0x20 = true ∧
    committed.commitPending (capPage 63) = true := by decide

theorem wit_CommitApplyActivates : committed.awake = true ∧
    committed.commits.find? (fun c => c.page == capPage 63 && c.released) = some ⟨capPage 63, 0, 0, 0, true, [], false⟩ ∧
    committed.commitCode ⟨capPage 63, 0, 0, 0, true, [], false⟩ = none := by decide

theorem wit_CommitApplyActivates_refused : let r : CommitRec := ⟨fioPage, 0, 0, 0, true, [(Fld.FIO_THR_on.key 0 0, 0)], false⟩
    let s := { live with commits := [r] }
    s.awake = true ∧ s.commits.find? (fun c => c.page == fioPage && c.released) = some r ∧ s.commitCode r = some 0xB0 := by decide

theorem wit_ReleasesFreeHeldCommits : live.opens 0 mgtPage 0x104 = true ∧ live.opens 0 (cmdPage 7) 0x104 = true := by decide

theorem wit_OwnersAndLocksAreSet : (capPage 63).ok = true ∧ live.opens 0 (capPage 63) 0x28 = true ∧ (capPage 63).kind.assignable = true ∧
    live.active (capPage 63) = false ∧ live.isOn (.CTRL_enable .capCtx) 63 = false ∧ live.opens 0 (lanePage 23) 0x28 = true ∧
    (lanePage 23).kind.assignable = false ∧ live.opens 0 (capPage 63) 0x2C = true := by decide

theorem wit_OwnersAndLocksAreSet_enabled : let s := liveWith [((.CTRL_enable .capCtx, 63, 0), 1)]
    s.opens 0 (capPage 63) 0x28 = true ∧ s.isOn (.CTRL_enable .capCtx) 63 = true := by decide

/-- Vector 10 of PF0 masked, with a pending message of the encoder page 0. -/
def pendingVec : State := liveWith [((.MSIX_PBA_PF0, 0, 0), 2 ^ 10), ((.EVT_STATUS .enc, 0, 0), 1), ((.EVT_ENABLE .enc, 0, 0), 1)]

theorem wit_MsixUnmaskSendsThePending : live.opens 0 (msixControl 0 63).1 (msixControl 0 63).2 = true ∧ live.linkUp = true ∧
    bit (live.msixPba 0) 63 = false ∧ pendingVec.opens 0 (msixControl 0 10).1 (msixControl 0 10).2 = true ∧ bit (pendingVec.msixPba 0) 10 = true ∧
    pendingVec.vecOr 0 10 = true ∧ bit ((liveWith [((.MSIX_PBA_PF0, 0, 0), 2 ^ 10)]).msixPba 0) 10 = true ∧
    (liveWith [((.MSIX_PBA_PF0, 0, 0), 2 ^ 10)]).vecOr 0 10 = false := by decide

/-! ## A configured block -/

/-- Partition 0 with one cluster and a region of 64 MiB, and capture and line context 0 and pool 0 that it owns. -/
def rig : State := liveWith [((.CMD_PART_CFG_enable, 0, 0), 1), ((.CMD_PART_CLU, 0, 0), 1), ((.MEM_PART_MASK, 0, 0), 1),
  ((.MEM_PART_SLICE_size_mib, 0, 0), 64), ((.CTRL_enable .memPart, 0, 0), 1), ((.OWNER_valid .capCtx, 0, 0), 1),
  ((.OWNER_valid .lnpCtx, 0, 0), 1), ((.OWNER_valid .atnPool, 0, 0), 1), ((.CAP_RING_BASE, 0, 0), 0x100000), ((.CAP_RING_CFG_slot_kib, 0, 0), 64),
  ((.CAP_RING_CFG_slots, 0, 0), 2), ((.CAP_CTX_SRC_kind, 0, 0), 2), ((.LNP_TBL_SIZE, 0, 0), 4), ((.LNP_LB_CFG_slot_kib, 0, 0), 768), ((.LNP_LB_CFG_slots, 0, 0), 2), ((.CLU_SRAM_CFG_lb_kib, 0, 0), 1536)]

theorem wit_EnablesTurnTheirPageOn_lane : live.opens 0 (lanePage 23) 0x8 = true ∧ live.isOn (.CTRL_enable .lan) 23 = false ∧
    live.laneRetired 23 = false := by decide

theorem wit_EnablesTurnTheirPageOn_contexts : rig.opens 0 (capPage 0) 0x8 = true ∧ rig.isOn (.CTRL_enable .capCtx) 0 = false ∧
    rig.capEnableCode 0 = none ∧ rig.isOn (.CTRL_quiesce .capCtx) 0 = false ∧ rig.opens 1 (lnpPage 0) 0x8 = true ∧
    rig.isOn (.CTRL_enable .lnpCtx) 0 = false ∧ rig.lnpEnableCode 0 = none ∧ rig.opens 1 (poolPage 0) 0x8 = true ∧ rig.poolOn 0 = false ∧
    rig.poolRefused 0 = false := by decide

theorem wit_EnablesTurnTheirPageOn_rest :
    let s := liveWith [((.MEM_PART_MASK, 7, 0), 2 ^ 63), ((.MEM_PART_SLICE_size_mib, 7, 0), 768), ((.EJT_BANK_CFG_enable, 0, 7), 1)]
    s.opens 0 ⟨.memPart, 7⟩ 0x8 = true ∧ s.regionOn 7 = false ∧ s.regionRefused 7 = false ∧ s.opens 0 (encPage 3) 0x8 = true ∧
    s.encOn 3 = false ∧ s.encRefused 3 = false ∧ s.opens 0 ejtPage 0x8 = true ∧ s.isOn (.CTRL_enable .ejt) = false ∧
    (List.range 8).any (fun b => s.isOn .EJT_BANK_CFG_enable 0 b) = true ∧ s.opens 0 fioPage 0x8 = true ∧ s.isOn (.CTRL_enable .fio) = false := by
  decide

theorem wit_EnablesAreChecked : let s := liveWith [((.ENC_SC_k, 3, 0), 11)]
    s.capEnableCode 63 = some 0x21 ∧ s.lnpEnableCode 63 = some 0x32 ∧ s.poolRefused 7 = true ∧ s.regionRefused 7 = true ∧ s.encRefused 3 = true ∧
    s.opens 0 (capPage 63) 0x8 = true ∧ s.opens 0 (lnpPage 63) 0x8 = true ∧ s.opens 0 (poolPage 7) 0x8 = true ∧
    s.opens 0 ⟨.memPart, 7⟩ 0x8 = true ∧ s.opens 0 (encPage 3) 0x8 = true ∧ s.opens 0 ejtPage 0x8 = true ∧
    (List.range 8).any (fun b => s.isOn .EJT_BANK_CFG_enable 0 b) = false := by decide

theorem wit_EnablesAreChecked_codes : (put rig [((.CAP_CTX_SRC_kind, 0, 0), 3), ((.CAP_CTX_SRC_peer_group, 0, 0), 6)]).capEnableCode 0 = some 0x22 ∧
    (put rig [((.LNP_TBL_SIZE, 0, 0), 0)]).lnpEnableCode 0 = some 0x30 := by decide

theorem wit_EnablesAreChecked_on :
    let s := liveWith [((.CTRL_enable .ejt, 0, 0), 1), ((.CTRL_enable .lan, 23, 0), 1), ((.CTRL_enable .capCtx, 63, 0), 1), ((.CTRL_enable .lnpCtx, 63, 0), 1),
      ((.CTRL_enable .atnPool, 7, 0), 1), ((.CTRL_enable .memPart, 7, 0), 1), ((.CTRL_enable .enc, 3, 0), 1)]
    [ejtPage, lanePage 23, capPage 63, lnpPage 63, poolPage 7, ⟨.memPart, 7⟩, encPage 3].all (fun p =>
      s.opens 0 p 0x8 && s.isOn (.CTRL_enable p.kind) p.inst) = true := by decide

/-! ## Lanes -/

/-- Lane 23 enabled as the one lane of camera 11, with more cells. -/
def laned (l : List (CellId × Nat)) : State := liveWith ([((.CTRL_enable .lan, 23, 0), 1), ((.LAN_MODE_mode, 23, 0), 1), ((.LAN_MODE_cam, 23, 0), 11),
  ((.LANX_RX_TARGET, 23, 0), 0), ((.LANX_TX_TARGET, 23, 0), 0), ((.LAN_STATUS_rx_now, 23, 0), 0), ((.LAN_STATUS_tx_now, 23, 0), 0)] ++ l)

theorem wit_LanesLock : (let s := laned [((.LAN_RATE_cxp_speed, 23, 0), 7), ((.LAN_STATUS_rx_now, 23, 0), 1)]
    s.awake = true ∧ s.isOn .LAN_STATUS_locked 23 = false ∧ s.laneMode 23 = 1 ∧ s.laneRetired 23 = false ∧ s.get .LAN_STATUS_rx_now 23 ≠ 2 ∧
    s.get .LAN_RATE_cxp_speed 23 ≠ 0 ∧ s.get .LANX_RX_TARGET 23 < s.get .LAN_STATUS_rx_now 23) ∧
    (let s := laned [((.LAN_STATUS_waking, 23, 0), 1), ((.LAN_STATUS_rx_now, 23, 0), 2)]
     s.isOn .LAN_STATUS_waking 23 = true ∧ s.isOn .LAN_STATUS_locked 23 = false ∧ s.get .LANX_RX_TARGET 23 < s.get .LAN_STATUS_rx_now 23) ∧
    (let s := laned [((.LAN_STATUS_locked, 23, 0), 1)]
     s.isOn .LAN_STATUS_locked 23 = true ∧ s.get .LAN_STATUS_rx_now 23 = 0 ∧ (put s [((.LAN_STATUS_rx_now, 23, 0), 1)]).get .LAN_STATUS_rx_now 23 ≠ 0) := by
  decide

theorem wit_LanesCarryPackets_stream : let s := laned [((.LAN_STATUS_locked, 23, 0), 1), ((.LAN_STATUS_rx_now, 23, 0), 0)]
    s.awake = true ∧ s.laneMode 23 = 1 ∧ s.isOn .LAN_STATUS_locked 23 = true ∧ s.get .LAN_STATUS_rx_now 23 = 0 ∧ s.get .LAN_MODE_index 23 = 0 ∧
    (s.get .LAN_MBX_RXHEAD 23 + 8 - s.get .LAN_MBX_RXTAIL 23) % 8 ≠ 4 ∧
    let u := put s [((.LAN_MBX_RXHEAD, 23, 0), 3), ((.LAN_MBX_RXTAIL, 23, 0), 7)]
    (u.get .LAN_MBX_RXHEAD 23 + 8 - u.get .LAN_MBX_RXTAIL 23) % 8 = 4 := by decide

theorem wit_LanesCarryPackets_send : let s := laned [((.LAN_MBX_TXLEN, 23, 0), 512), ((.LAN_STATUS_tx_now, 23, 0), 0)]
    s.opens 0 (lanePage 23) 0x180 = true ∧ s.isOn .LAN_MBX_CTRL_send 23 = false ∧ s.laneMode 23 = 1 ∧ s.get .LAN_MODE_index 23 = 0 ∧
    s.get .LAN_STATUS_tx_now 23 = 0 ∧ s.get .LANX_TX_TARGET 23 = 0 ∧ s.get .LAN_MBX_TXLEN 23 = 512 ∧
    (put s [((.LAN_MBX_TXLEN, 23, 0), 516)]).get .LAN_MBX_TXLEN 23 = 516 ∧ (put s [((.LAN_MBX_TXLEN, 23, 0), 0)]).get .LAN_MBX_TXLEN 23 = 0 ∧
    (put s [((.LAN_MODE_index, 23, 0), 1)]).get .LAN_MODE_index 23 ≠ 0 ∧ (put s [((.LAN_MBX_CTRL_send, 23, 0), 1)]).isOn .LAN_MBX_CTRL_send 23 = true := by
  decide

theorem wit_LanesAdapt : live.opens 0 (lanePage 23) 0x110 = true ∧ live.isOn (.CTRL_enable .lan) 23 = false ∧ live.opens 0 (lanePage 23) 0x118 = true ∧
    (let s := laned [((.LAN_STATUS_tx_now, 23, 0), 2), ((.LAN_POL_rx_auto, 23, 0), 1), ((.LAN_STATUS_rx_now, 23, 0), 0)]
     s.laneRetired 23 = false ∧ s.isOn (.CTRL_enable .lan) 23 = true ∧ s.get .LANX_TX_TARGET 23 < s.get .LAN_STATUS_tx_now 23 ∧ s.laneMode 23 ≠ 0 ∧
     s.get .LAN_STATUS_rx_now 23 ≠ 2 ∧ s.isOn .LAN_POL_rx_auto 23 = true ∧ s.get .LAN_RATE_cxp_speed 23 = 0 ∧ s.isOn .LAN_STATUS_locked 23 = false ∧
     s.get .LANX_RX_TARGET 23 < 2) ∧
    (let s := laned [((.LAN_MODE_mode, 23, 0), 2)]
     s.laneMode 23 = 2 ∧ s.get .LAN_STATUS_rx_now 23 = 0 ∧ 5 % 2 ^ s.get .LAN_RAW_CFG_word_bits 23 ≠ s.get .LAN_RAW_TRAIN 23) := by decide

theorem wit_ErrorWindowsCount : let s := laned [((.LAN_BURST_CFG_threshold, 23, 0), 2)]
    s.awake = true ∧ s.laneMode 23 ≠ 0 ∧ s.get .LAN_STATUS_rx_now 23 ≠ 2 ∧ s.get .LANX_WIN_ERRORS 23 + 1 < s.get .LAN_BURST_CFG_threshold 23 ∧
    s.isOn .LANX_BURST 23 = false ∧
    (put s [((.LANX_WIN_ERRORS, 23, 0), 1)]).get .LAN_BURST_CFG_threshold 23 ≤ (put s [((.LANX_WIN_ERRORS, 23, 0), 1)]).get .LANX_WIN_ERRORS 23 + 1 ∧
    ({ live with mgt := { live.mgt with fuseTick := some 0 } } : State).windowEnd.isSome = true := by decide

/-! ## Peer groups -/

/-- Group 5 in a state, enabled, with more cells. -/
def peered (n : Nat) (l : List (CellId × Nat)) : State := liveWith ([((.LAN_PEER_CTRL_enable, 5, 0), 1), ((.LAN_PEER_STATUS_state, 5, 0), n)] ++ l)

theorem wit_PeerGroupsTrain_enable : live.opens 0 (peerPage 5) 0x100 = true ∧ live.isOn .LAN_PEER_CTRL_enable 5 = false ∧
    (laned []).get .LAN_MODE_mode (4 * 5 + 3) ≠ 0 ∧ (List.range 4).all (fun i => live.get .LAN_MODE_mode (4 * 5 + i) == 0) = true ∧
    ((List.range 6).filter (fun k => live.isOn .LAN_PEER_CTRL_enable k)).length < 3 ∧
    let s := liveWith [((.LAN_PEER_CTRL_enable, 0, 0), 1), ((.LAN_PEER_CTRL_enable, 1, 0), 1), ((.LAN_PEER_CTRL_enable, 2, 0), 1)]
    3 ≤ ((List.range 6).filter (fun k => s.isOn .LAN_PEER_CTRL_enable k)).length := by decide

theorem wit_PeerGroupsTrain_states : (peered 0 []).peerTrainable 5 = true ∧ (peered 0 []).peerState 5 = 0 ∧ (peered 1 []).peerState 5 = 1 ∧
    (peered 1 []).isOn .LAN_PEER_CFG_manual_align 5 = false ∧ (peered 2 []).peerState 5 = 2 ∧ (peered 3 []).peerState 5 = 3 ∧
    (peered 4 []).peerState 5 = 4 ∧ (peered 5 []).peerState 5 = 5 ∧ (peered 4 []).awake = true := by decide

/-- A frame with an empty payload. -/
def frame (typ seq : Nat) (last : Bool) : PeerFrame := ⟨typ, true, last, seq, 0, 0, 0, []⟩

theorem wit_PeerGroupsGreet : (peered 3 []).awake = true ∧ (peered 3 []).peerState 5 = 3 ∧ frameCrc (frame 5 0 true) ≠ 0 := by decide

theorem wit_PeerMessagesArrive_waits : (peered 4 []).peerIsUp 5 = true ∧ ((peered 4 []).peer 5).drop = false ∧
    (frame 1 0 false).seq = ((peered 4 []).peer 5).expect ∧ (frame 1 0 false).last = false ∧ (peered 3 []).peerIsUp 5 = false ∧
    ({ peered 4 [] with peers := List.replicate 6 { drop := true } } : State).peerIsUp 5 = true ∧
    (({ peered 4 [] with peers := List.replicate 6 { drop := true } } : State).peer 5).drop = true ∧ frameCrc (frame 1 0 false) ≠ 0 := by decide

theorem wit_PeerMessagesArrive_message : ((peered 4 []).peerReceive 5 (frame 2 0 true) (frameCrc (frame 2 0 true))).2.isSome = true := by decide

theorem wit_PeerGroupsAcknowledge :
    let s := { peered 4 [] with peers := List.replicate 6 { unacked := [frame 1 3 true], nextSeq := 4, sinceAck := 1, resends := 8 } }
    s.awake = true ∧ s.peerIsUp 5 = true ∧ s.attn = [] ∧ (s.peer 5).waiting = [] ∧ (unackedAfter (s.peer 5).unacked 3).length ≠ (s.peer 5).unacked.length ∧
    (s.peer 5).unacked ≠ [] ∧ 8 ≤ (s.peer 5).resends ∧ (s.peer 5).drop = false ∧ (s.peer 5).sinceAck ≠ 0 ∧
    let u := { s with peers := List.replicate 6 { unacked := [frame 1 3 true], resends := 7 } }
    (u.peer 5).resends < 8 ∧ (u.peer 5).unacked ≠ [] := by decide

/-! ## Capture -/

theorem wit_LinesArriveAndComplete_plain : live.awake = true ∧ live.camDelivers 11 = false ∧
    (laned [((.LAN_STATUS_locked, 23, 0), 1)]).camDelivers 11 = true ∧
    (liveWith [((.TIM_CAP_CFG_src, 0, 15), 3), ((.TIM_CAP_CFG_sel, 0, 15), 11)]).get .TIM_CAP_CFG_src 0 15 = 3 ∧ (live.cam 11).line = none := by decide

/-- Camera 11 in TIME mode feeds context 63, and a pairing window is open. -/
def trigged : State :=
  let s := laned [((.LAN_STATUS_locked, 23, 0), 1), ((.CAP_TRIG_MODE_mode, 0, 11), 1)]
  let s := s.modCtx 63 (fun x => { x with running := true, mems := [(11, 0)] })
  s.modCam 11 (fun x => { x with wins := [⟨0, ⟨5, 0, 0⟩, 0, 1000⟩] })

theorem wit_LinesArriveAndComplete_window : trigged.awake = true ∧ trigged.camDelivers 11 = true ∧ (trigged.camFeeds 11).isEmpty = false ∧
    trigged.get .CAP_TRIG_MODE_mode 0 11 ≠ 0 ∧ (trigged.cam 11).wins ≠ [] ∧
    (∀ w ∈ (trigged.cam 11).wins, trigged.sec * 10 ^ 9 + trigged.ns < w.closes) ∧
    (∀ w ∈ (trigged.cam 11).wins, w.opens ≤ trigged.sec * 10 ^ 9 + trigged.ns) := by decide

theorem wit_LinesArriveAndComplete_line :
    let x : LineIn := { tag := ⟨5, 0, 0⟩, places := [], beyond := [], noWindow := true }
    let s := trigged.modCam 11 (fun y => { y with line := some x })
    (s.cam 11).line = some x ∧ [1].length ≠ s.camWidth 11 * s.get .CAP_CAM_FMT_channels 0 11 ∧
    (List.replicate 4096 0).length = s.camWidth 11 * s.get .CAP_CAM_FMT_channels 0 11 ∧ x.noWindow = true ∧ x.beyond = [] ∧ x.places = [] := by decide

theorem wit_CaptureIntervalsEnd : (live.cam 11).wins = [] ∧ earliest ((trigged.cam 11).wins.map (fun x => x.closes)) = some 1000 ∧
    live.groupDue 63 = none ∧ ((live.modCtx 63 (fun x => { x with kind := 1, opens := [{ win := 0, parts := [], arrivals := [], emptyGens := none }] })).groupDue 63).isSome = true := by
  decide

theorem wit_CaptureRingAndReplay : live.opens 0 capShared (0x118 + 11 * 0x20) = true ∧ live.opens 0 (capPage 63) 0x158 = true ∧
    (live.capCtx 63).replay.length < 16 ∧
    16 ≤ ((live.modCtx 63 (fun x => { x with replay := List.replicate 16 0 })).capCtx 63).replay.length ∧ (live.capCtx 63).running = false ∧
    (live.capCtx 63).writing = [] := by decide

/-- A raw ring slot at address 0 that holds one member of one column, and a context that is to read it. -/
def slotted : State :=
  let s := { rig with hbm := { bytes := [(0, 1), (1, 1), (12, 16), (0x40, 16), (0x44, 1), (0x49, 2), (0x4C, 64)] } }
  s.modCtx 0 (fun x => { x with running := true, kind := 2, replay := [0] })

theorem wit_CaptureRingAndReplay_slot : (slotted.capCtx 0).running = true ∧ (slotted.capCtx 0).kind = 2 ∧ (slotted.capCtx 0).replay = 0 :: [] ∧
    slotOk (slotted.devRead 0 256) (slotted.get .CAP_RING_CFG_slot_kib 0 * 1024) = true ∧ slotted.hasBad 0 256 = false ∧
    slotted.hasBad 0 (slotParse (slotted.devRead 0 256) (fun off n => slotted.devRead (0 + off) n)).size = false ∧
    slotOk ({ slotted with hbm := {} }.devRead 0 256) (slotted.get .CAP_RING_CFG_slot_kib 0 * 1024) = false := by decide

/-- A stripe of one row of context 0. -/
def stripe0 : StripeRec :=
  { ctx := 0, no := 0, kind := 0, lines := 1, flags := 0, missing := 0, short := 0, settling := 0, capGen := 0, lnpGen := 0, s := 0, e := 1,
    period := 1, members := [⟨0, 1, 0, 1, 1, 0, 0, 0, 0, [⟨0, 0, 0⟩], [[7]]⟩], origCtx := 0, origNo := 0, origCapGen := 0, origLnpGen := 0 }

theorem wit_CaptureRingAndReplay_writing : ((live.modCtx 63 (fun x => { x with writing := [stripe0] })).capCtx 63).writing = stripe0 :: [] := by decide

/-! ## Line correction -/

/-- A stripe that LNP holds. -/
def held0 (credit : Bool) : LnpStripe := { stripe := stripe0, order := 0, notice := 10, limit := 20, credit := credit, spilled := false, intake := true, gen := 0 }

theorem wit_LineNoticesAndCredits : live.lnp.notices.find? (fun r => r.ctx == 63) = none ∧
    ({ live with lnp := { live.lnp with notices := [stripe0] } } : State).lnp.notices.find? (fun r => r.ctx == 0) = some stripe0 ∧
    live.intakeUsed + stripe0.rowsBytes ≤ 8 * 2 ^ 20 ∧ 8 * 2 ^ 20 < live.intakeUsed + ({ stripe0 with lines := 2 ^ 18 } : StripeRec).rowsBytes ∧
    (live.lnpCtx 63).returning = 0 ∧ ((live.modLnp 63 (fun x => { x with returning := 1 })).lnpCtx 63).returning ≠ 0 ∧ (live.lnpCtx 63).stripes = [] ∧
    (([held0 false].filter (fun x => !x.credit && !x.spilled && !bit x.stripe.flags 4)).map (fun x => x.notice + x.limit)) = [30] ∧
    earliest [30] = some 30 := by decide

/-- A stripe with a credit in context 0, its table block there. -/
def feeding : State := rig.modLnp 0 (fun x => { x with stripes := [held0 true], table := some 0 })

theorem wit_LinePipelineRuns : (live.lnpCtx 63).stripes.find? (fun x => x.credit) = none ∧ live.lnpNext = none ∧
    (feeding.lnpCtx 0).stripes.find? (fun x => x.credit) = some (held0 true) ∧ feeding.lnp.busy = none ∧ feeding.lnpNext = some (0, held0 true) ∧
    (feeding.lnpCtx 0).table.isSome = true ∧ ((feeding.modLnp 0 (fun x => { x with table := none })).lnpCtx 0).table = none := by decide

theorem wit_LinePipelineRuns_begins :
    let u := feeding.modLnp 0 (fun y => { y with table := none })
    u.lnpHeld 0 (u.lnpSource 0 (held0 true)).1.lnpGen = some (u.lnpActive 0) ∧ (u.lnpSource 0 (held0 true)).2 = false ∧
    u.hasBad (u.lnpActive 0).tblBase ((u.lnpActive 0).tblKib * 1024) = false ∧
    slotBytes (u.lnpActive 0) (u.lnpSource 0 (held0 true)).1.lines (stripeChannels (u.lnpSource 0 (held0 true)).1).length ≤
      feeding.get .LNP_LB_CFG_slot_kib 0 * 1024 ∧
    u.lnpHeld 0 1 = none := by decide

theorem wit_LinePipelineRuns_done : let b : LnpBusy := { ctx := 0, stripe := held0 true, result := ⟨[], [], 0, 0, false, []⟩ }
    ({ feeding with lnp := { feeding.lnp with busy := some b } } : State).lnp.busy = some b := by decide

/-! ## Registers, partitions and memory -/

theorem wit_RegistersTakeWritesAndReads : live.opens 0 (capPage 63) 0x150 = true ∧
    ({ live with lowWrites := [((capPage 63).base + 0x150, 5)] } : State).lowWrites.find? (fun x => x.1 == (capPage 63).base + 0x150) =
      some ((capPage 63).base + 0x150, 5) ∧ ((capPage 63).base + 0x150) % 4 = 0 ∧ live.lowOf ((capPage 63).base + 0x150) = true ∧
    live.highReads.find? (fun x => x.1 == (capPage 63).base + 0x150) = none ∧ live.lowOf ((capPage 63).base + 0x154) = false ∧
    ({ live with highReads := [(4, 5)] } : State).highReads.find? (fun x => x.1 == 4) = some (4, 5) := by decide

theorem wit_PartitionsAreConfigured : live.opens 0 cmdGlobal (0x100 + 7 * 0x20) = true ∧
    partRefused live (live.set .CMD_PART_CLU 0 7 1) 7 = none ∧ live.get .CMD_PART_CLU 0 7 ≠ 2 ∧
    (let s := liveWith [((.CMD_PLAN_STATUS_state, 7, 0), 1)]
     partRefused s (s.set .CMD_PART_CLU 0 7 2) 7 = some 0xC0 ∧ s.opens 0 cmdGlobal (0x100 + 7 * 0x20) = true) ∧
    1 ≤ bits 0x10000 26 16 ∧ bits 0x4000000 26 16 ≤ 1024 ∧
    (let s := liveWith [((.CMD_PART_CLU, 0, 7), 1)]
     partRefused s (s.plainWrite cmdGlobal (0x100 + 7 * 0x20) 0x10001) 7 = none) ∧
    (partRefused live (live.plainWrite cmdGlobal (0x100 + 7 * 0x20) 0x10001) 7).isSome = true ∧ live.isOn .CMD_PART_CFG_enable 0 7 ≠ bit 0x10001 0 := by
  decide

theorem wit_HostReachesItsMemory : rig.linkUp = true ∧ 8 % 8 = 0 ∧ 8 + 8 ≤ bar2Size ∧ rig.stopped = false ∧ rig.bar2Addr 1 8 = some 8 ∧
    (∀ i, i < 8 → rig.bar2Takes 1 (8 + i) = true) ∧ rig.keyOf 8 = some 8 ∧ rig.badKeys 8 8 = [] ∧
    rig.bar2Addr 2 8 = none ∧ (∀ i, i < 8 → rig.bar2Takes 2 (8 + i) = false) ∧
    (let s := { rig with hbm := { rig.hbm with bad := [1] } }
     s.bar2Addr 1 8 = some 8 ∧ s.badKeys 8 8 = [8]) ∧ (put rig [((.MGTX_STOPPED, 0, 0), 1)]).stopped = true := by decide

theorem wit_MemoryErrorsAreCounted : live.awake = true ∧ pcWords - 1 < pcWords ∧ (Consumer.lnp 0 : Consumer) ≠ .scrubber ∧
    ((live.modSlot 7 7 (fun x => { x with load := some ⟨0, 4096, false, none⟩ })).slotSt 7 7).load = some ⟨0, 4096, false, none⟩ ∧
    ((live.modCtx 63 (fun x => { x with replay := [9] })).capCtx 63).replay = 9 :: [] := by decide

theorem wit_MemoryErrorsAreCounted_corrected :
    let s := { live with hbm := { live.hbm with writeBacks := [63 * 2 ^ 24 + 7] } }
    s.awake = true ∧ 12582911 < 12582912 ∧ s.hbm.writeBacks.find? (fun x => x * 64 / 2 ^ 30 == 63) = some (63 * 2 ^ 24 + 7) ∧
    live.hbm.writeBacks.find? (fun x => x * 64 / 2 ^ 30 == 63) = none ∧ live.isOn .PCX_CE_DONE 63 = false ∧
    live.get .PCX_WIN_CE 63 + 1 < live.get .MEM_PC_CE_THR 63 ∧
    (liveWith [((.MEM_PC_CE_THR, 63, 0), 1)]).get .MEM_PC_CE_THR 63 ≤ live.get .PCX_WIN_CE 63 + 1 ∧ live.pageLine 0 = false ∧
    (put rig [((.CTRL_enable .atnPool, 0, 0), 1), ((.ATN_POOL_PAGES, 0, 0), 1), ((.ATN_POOL_BASE, 0, 0), 0)]).pageLine 0 = true := by decide

theorem wit_MemoryRunsOn : live.awake = true ∧ (put live [((.MEM_SCRUB_mode, 0, 0), 0)]).isOn .MEM_SCRUB_mode = false ∧
    (put live [((.MEM_SCRUB_mode, 0, 0), 1)]).isOn .MEM_SCRUB_mode = true ∧ live.get .MEM_SCRUB_POS + 1 < 12582912 ∧
    (liveWith [((.MEM_SCRUB_POS, 0, 0), 12582911)]).get .MEM_SCRUB_POS = 12582911 ∧ rig.regionOn 0 = true ∧ live.regionOn 0 = false ∧
    live.mgt.selfRefresh = false ∧ ({ live with mgt := { live.mgt with selfRefresh := true } } : State).mgt.selfRefresh = true := by decide

/-! ## The array -/

/-- A plan of descriptors. -/
def planOf (batch : Bool) (descs : List Nat) : Plan :=
  { base := 0, size := 4096, batch := batch, fawn := false, frc := true, clusters := 1, need := 0, ctxs := 0, descs := descs, headers := [], tables := [],
    digest := 5 }

/-- A descriptor in progress with four units, one of them begun. -/
def descAt (idx : Nat) : DescRun :=
  { idx := idx, units := 4, parts := 1, assigned := 1, done := [], complete := false, rowLo := 0, rowHi := 0, partials := [], codes := [], extra := [],
    amax := 0, sat := 0, written := 0, first := some 0 }

/-- A tile thread that waits for nothing more to issue. -/
def tile0 : TileRun := { seq := 0, desc := 0, unit := 0, pos := 0, reads := [(0, 2)], left := [] }

/-- A step in progress. -/
def stepOf (ds : List DescRun) (tiles : List TileRun) : StepRun :=
  { ready := none, start := 0, descs := ds, tiles := tiles, seq := 1, idle := false, fixed := false, refresh := 0, replays := 0, replay := false }

/-- A BATCH job in its slot 0. -/
def jobOf (no part : Nat) (state : JobState) (run : Option StepRun) : Job :=
  { no := no, part := part, slot := 0, batch := true, state := state, save := 0, s0 := 0, step := 0, steps := 1, ran := 0, seed := 0, epoch := 0,
    slice := 100000, debt := 0, tag := 9, sq := 0, stops := [], ending := false, relaxed := false, started := true, order := 1, next := 0, run := run,
    loaded := [], status := 0, desc := 0, time := 0, kfmt := [], saved := [] }

/-- A partition 0 whose job 1 runs a step of a plan. -/
def running (P : Plan) (r : StepRun) : State :=
  let s := rig.modSlot 0 0 (fun x => { x with active := some P })
  { s with cmd := { s.cmd with jobs := [jobOf 1 0 .running (some r)], sched := listMod s.cmd.sched 0 (fun x => { x with running := some 1 }) } }

/-- A descriptor that the array runs (operation 0x01), and one that Fawn runs. -/
def plain : State := running (planOf true [1]) (stepOf [descAt 0] [tile0])

theorem wit_TilesRunOnClusters_assign : plain.awake = true ∧ plain.partWorks 0 = true ∧ (plain.sch 0).running = some 1 ∧ (plain.sch 0).ending = false ∧
    (plain.beginStep 1).advance 1 = plain ∧
    plain.current 0 = some (jobOf 1 0 .running (some (stepOf [descAt 0] [tile0])), planOf true [1], stepOf [descAt 0] [tile0]) ∧
    (stepOf [descAt 0] [tile0]).descs.find? (fun y => y.assigned < y.units) = some (descAt 0) ∧ onArray ((planOf true [1]).descs.getD 0 0) = true ∧
    (stepOf [descAt 0] [tile0]).inTurn (planOf true [1]) 0 = true ∧ 0 < (descAt 0).assigned ∧
    (∀ y ∈ (stepOf [descAt 0] [tile0]).tiles, y.seq ≠ (stepOf [descAt 0] [tile0]).seq) ∧
    ∀ pos, ((stepOf [descAt 0] [tile0]).tiles.filter (fun y => y.pos == pos)).length < 256 :=
  ⟨by decide, by decide, by decide, by decide, by decide, by decide, by decide, by decide, by decide, by decide, by decide,
    fun _ => Nat.lt_of_le_of_lt (List.length_filter_le _ _) (by decide)⟩

theorem wit_TilesRunOnClusters_read : (plain.sch 0).running = some 1 ∧
    ∀ j ∈ plain.cmd.jobs, j.no = 1 → ∀ u, j.run = some u → ∀ y ∈ u.tiles, y.left = [] := by
  refine ⟨by decide, fun j hj _ u hu y hy => ?_⟩
  have h : plain.cmd.jobs = [jobOf 1 0 .running (some (stepOf [descAt 0] [tile0]))] := by decide
  rw [h, List.mem_singleton] at hj; subst hj; cases hu
  rw [show (stepOf [descAt 0] [tile0]).tiles = [tile0] from rfl, List.mem_singleton] at hy; subst hy; rfl

/-- `plain` with a tile that has read everything. -/
def ready0 : State := running (planOf true [1]) (stepOf [descAt 0] [{ tile0 with reads := [] }])

theorem wit_TilesRunOnClusters_end : (plain.tileToEnd 0 0) = none ∧
    ∃ j P r y x, ready0.tileToEnd 0 0 = some (j, P, r, y, x) ∧ (ready0.unitBad (ready0.envOf j P r y.desc) r.descs (P.descs.getD y.desc 0) x y.unit).2 = false :=
  ⟨by decide, jobOf 1 0 .running (some (stepOf [descAt 0] [{ tile0 with reads := [] }])), planOf true [1], stepOf [descAt 0] [{ tile0 with reads := [] }],
    { tile0 with reads := [] }, descAt 0, by decide, by decide⟩

/-- A descriptor of Fawn (operation 0x01 with its Fawn bit) and its step. -/
def fawnStep : StepRun := stepOf [{ descAt 0 with assigned := 0 }] []

/-- A partition whose job gives Fawn a pass. -/
def fawning : State := running (planOf true [1 + 2 ^ 18]) fawnStep

theorem wit_FawnRunsPasses : fawning.awake = true ∧ fawning.partWorks 0 = true ∧ (fawning.sch 0).running = some 1 ∧ (fawning.sch 0).ending = false ∧
    (fawning.beginStep 1).advance 1 = fawning ∧ (fawning.current 0).isSome = true ∧
    passOf (planOf true [1 + 2 ^ 18]) fawnStep = 0 :: [] ∧ fawning.fwn.length < 8 ∧
    fawnStep.inTurn (planOf true [1 + 2 ^ 18]) 0 = true ∧
    fawning.current 0 = some (jobOf 1 0 .running (some fawnStep), planOf true [1 + 2 ^ 18], fawnStep) ∧
    fawning.blocked (fawning.envOf (jobOf 1 0 .running (some fawnStep)) (planOf true [1 + 2 ^ 18])
      fawnStep 0) { fawnStep with descs := [{ descAt 0 with assigned := 0 }] } 0 0 = false := by
  decide

theorem wit_FawnRunsPasses_queue : let x : FwnPass := { part := 0, job := 1, descs := [0], be := false }
    let y : FwnPass := { part := 1, job := 2, descs := [0], be := true }
    ({ live with fwn := [y] } : State).fwn = y :: [] ∧ y.be = true ∧ x.be = false ∧ live.fwn = [] := by decide

theorem wit_SramErrorsAreCounted : live.awake = true ∧ live.cluDisabled 71 = true ∧ live.cluDisabled 63 = false ∧ live.isOn .CLUX_CE_DONE 63 = false ∧
    (liveWith [((.CLU_CE_THR, 63, 0), 1)]).get .CLU_CE_THR 63 ≤ live.get .CLUX_WIN_CE 63 + 1 ∧ (liveWith [((.CLUX_CE_DONE, 63, 0), 1)]).isOn .CLUX_CE_DONE 63 = true ∧
    live.cluPart 63 = none ∧ (live.addUpset 2 63).2 = false ∧ live.fwn = [] ∧ live.attn = [] ∧ live.isOn .FWNX_CE_DONE = false ∧ live.isOn .ATNX_CE_DONE = false := by
  decide

/-! ## Plans, queues and jobs -/

theorem wit_PlansComeAndGo_go : live.opens 8 (cmdPage 7) (0x20C + 7 * 0x40) = true ∧ live.switchDue 7 7 = none ∧ live.mayUnload 7 7 = true ∧
    live.slotBusy 7 7 = false := by decide

/-- A load whose checks have ended. -/
def pendingPlan : State := rig.modSlot 0 7 (fun x => { x with load := some ⟨0, 4096, false, some (planOf true [1])⟩ })

theorem wit_PlansComeAndGo_switch : pendingPlan.awake = true ∧ pendingPlan.switchDue 0 7 = some (planOf true [1]) := by decide

theorem wit_PlansComeAndGo_refused : let s := rig.modSlot 0 7 (fun x => { x with load := some ⟨0, 4096, false, none⟩ })
    s.awake = true ∧ (s.slotSt 0 7).load = some ⟨0, 4096, false, none⟩ ∧ (⟨0, 4096, false, none⟩ : PlanLoad).plan = none ∧
    (s.partList 0).any (fun n => s.cluRetired ((s.physOf n).getD 0)) = false ∧ s.planRefused 0 7 0 4096 (s.otherCtxs 0 7) = some (0x41, 0) := by decide

/-- A plan image at address 0: a STREAM plan for context 0 with one NOP. -/
def imaged : State := { rig with hbm := { bytes := [(0, 0x52), (1, 0x50), (2, 0x4C), (3, 0x4E), (4, 1), (8, 1), (12, 1), (0x18, 1)] } }

theorem wit_PlansComeAndGo_accepted : let s := imaged.modSlot 0 0 (fun x => { x with load := some ⟨0, 256, false, none⟩ })
    s.awake = true ∧ (s.slotSt 0 0).load = some ⟨0, 256, false, none⟩ ∧
    (s.partList 0).any (fun n => s.cluRetired ((s.physOf n).getD 0)) = false ∧ s.planRefused 0 0 0 256 (s.otherCtxs 0 0) = none := by decide

theorem wit_PlansComeAndGo_unload : plain.opens 1 (cmdPage 0) 0x20C = true ∧ plain.mayUnload 0 0 = false ∧
    (let s := running (planOf false [1]) (stepOf [descAt 0] [])
     let s := { s with cmd := { s.cmd with jobs := s.cmd.jobs.map (fun j : Job => { j with batch := false }) } }
     s.mayUnload 0 0 = true ∧ s.slotBusy 0 0 = true) := by decide

/-- Submission queue 15 of partition 0, of 16 entries, with one entry, and a completion queue. -/
def queued (s : State) : State := put s [((.CMD_SQ_CFG_enable, 0, 15), 1), ((.CMD_SQ_CFG_size_log2, 0, 15), 4), ((.CMD_SQ_CFG_cq, 0, 15), 31),
  ((.CMD_SQ_TAIL, 0, 15), 1), ((.CMD_CQ_CFG_enable, 0, 31), 1), ((.CMD_CQ_CFG_size_log2, 0, 31), 4)]

theorem wit_RefusedEntriesComplete : (queued rig).awake = true ∧ (queued rig).sqReady 0 15 = true ∧ (queued rig).cqOf 0 15 = 31 ∧
    (queued rig).isOn .CMD_CQ_CFG_enable 0 31 = true ∧ (queued rig).cqFull 0 31 = false ∧ (queued rig).cqWaits 0 31 = false ∧
    (queued rig).isOn .CMD_CQ_CFG_irq 0 31 = false ∧ sqOpcode 0 = 0 ∧ 3 < sqOpcode 4 ∧ sqOpcode 1 = 1 ∧ (queued rig).partIsBe 0 = false ∧
    sqOpcode 2 = 2 ∧ (queued rig).job (sqJob 2) = none ∧ sqOpcode (3 + 2 ^ 11) = 3 ∧ sqBitsOk (3 + 2 ^ 11) = false := by decide

/-- Partition 0 as the BE partition with an idle BATCH plan. -/
def batching : State :=
  let s := (put (queued rig) [((.CMD_PART_CFG_class, 0, 0), 1), ((.CMD_PART_CFG_jobs, 0, 0), 1), ((.CMD_PLAN_STATUS_state, 0, 0), 1)]).modSlot 0 0
    (fun x => { x with active := some (planOf true [1]) })
  s

/-- A RUN entry with a slice of 100 µs, and one with 99. -/
def runEntry (slice : Nat) : BitVec 512 := BitVec.ofNat 512 (1 + slice * 2 ^ 160)

theorem wit_RefusedEntriesComplete_slice : batching.awake = true ∧ batching.sqReady 0 15 = true ∧ sqOpcode (runEntry 99).toNat = 1 ∧
    batching.partIsBe 0 = true ∧ batching.get .CMD_PLAN_STATUS_state 0 (sqSlot (runEntry 99).toNat) = 1 ∧
    (batching.slotSt 0 (sqSlot (runEntry 99).toNat)).active.map (fun P => P.batch) = some true ∧ sqSlice (runEntry 99).toNat < 100 ∧
    10000 < sqSlice (runEntry 10001).toNat := by decide

theorem wit_QueuesTakeEntries_doorbell : (queued rig).opens 1 (cmdPage 0) (0x40C + 15 * 0x20) = true ∧ (queued rig).isOn .CMD_SQ_CFG_enable 0 15 = true ∧
    2 ^ (queued rig).get .CMD_SQ_CFG_size_log2 0 15 < (17 % 2 ^ 16 + 2 ^ 16 - (queued rig).get .CMD_SQ_HEAD 0 15) % 2 ^ 16 ∧
    (16 % 2 ^ 16 + 2 ^ 16 - (queued rig).get .CMD_SQ_HEAD 0 15) % 2 ^ 16 ≤ 2 ^ (queued rig).get .CMD_SQ_CFG_size_log2 0 15 ∧
    (queued rig).opens 1 (cmdPage 0) (0x60C + 31 * 0x20) = true := by decide

theorem wit_QueuesTakeEntries_run : batching.awake = true ∧ batching.sqReady 0 15 = true ∧ sqBitsOk (runEntry 100).toNat = true ∧
    sqOpcode (runEntry 100).toNat = 1 ∧ batching.partIsBe 0 = true ∧ batching.get .CMD_PLAN_STATUS_state 0 (sqSlot (runEntry 100).toNat) = 1 ∧
    (batching.slotSt 0 (sqSlot (runEntry 100).toNat)).active.map (fun P => P.batch) = some true ∧ 100 ≤ sqSlice (runEntry 100).toNat ∧
    sqSlice (runEntry 10000).toNat ≤ 10000 ∧ batching.runWaits 0 15 (runEntry 100).toNat = false ∧
    (let s := { batching with cmd := { batching.cmd with jobs := [jobOf 1 0 .ready none] } }
     s.runWaits 0 15 (runEntry 100).toNat = true) := by decide

theorem wit_QueuesTakeEntries_others : sqOpcode 3 = 3 ∧ sqBitsOk 3 = true ∧ (queued rig).fenceWaits 0 15 = false ∧
    (queued (running (planOf true [1]) (stepOf [descAt 0] []))).fenceWaits 0 0 = true ∧ sqOpcode (2 + 2 ^ 320) = 2 ∧ sqBitsOk (2 + 2 ^ 320) = true ∧
    sqJob (2 + 2 ^ 320) = 1 ∧ sqAbort (2 + 2 ^ 320) = false ∧ (queued plain).sqReady 0 15 = true ∧
    ((queued plain).job 1).map (fun j => (j.part, j.state == .ended, j.run.isSome)) = some (0, false, true) := by decide

theorem wit_ClustersChangeHands_none : live.awake = true ∧ live.partWorks 7 = false ∧ (live.sch 7).switchTo = none ∧ live.partIsBe 7 = false ∧
    live.watched 7 = none ∧ live.cmd.cqs.find? (fun x => x.part == 7 && x.cq == 31) = none := by decide

/-- A READY STREAM job of partition 0. -/
def streaming : State :=
  let s := rig.modSlot 0 0 (fun x => { x with active := some (planOf false [1]) })
  { s with cmd := { s.cmd with jobs := [{ jobOf 1 0 .ready none with batch := false }] } }

theorem wit_ClustersChangeHands_stream : streaming.partWorks 0 = true ∧ (streaming.refreshReady.sch 0).running = none ∧
    (streaming.refreshReady.sch 0).switchTo = none ∧ streaming.refreshReady.partIsBe 0 = false ∧
    (streaming.refreshReady.streamJob 0 0).map (fun j => j.state) = some .ready := by decide

theorem wit_ClustersChangeHands_batch : let s := { batching with cmd := { batching.cmd with jobs := [jobOf 1 0 .ready none] } }
    s.partWorks 0 = true ∧ (s.refreshReady.sch 0).running = none ∧ (s.refreshReady.sch 0).switchTo = none ∧ s.refreshReady.partIsBe 0 = true ∧
    ((s.refreshReady.giveTurn 0 4).2).map (fun j => (j.no, j.started)) = some (1, true) ∧ (s.refreshReady.sch 0).last ≠ some 1 := by decide

theorem wit_ClustersChangeHands_switch : let s := rig.modSched 0 (fun x => { x with switchTo := some 1, last := none })
    let t := rig.modSched 0 (fun x => { x with switchTo := some 1, last := some 2 })
    (s.sch 0).switchTo = some 1 ∧ (s.sch 0).last = none ∧ (t.sch 0).switchTo = some 1 ∧ (t.sch 0).last = some 2 := by decide

theorem wit_ClustersChangeHands_times :
    let s := put plain [((.CMD_PART_CFG_class, 0, 0), 1)]
    let n : State := running (planOf true [1 + 2 ^ 17]) (stepOf [descAt 0] [])
    let c : State := put { live with cmd := { live.cmd with cqs := [⟨0, 31, 1, 0⟩] } } [((.CMD_CQ_CFG_coal_us, 0, 31), 1)]
    s.partIsBe 0 = true ∧ (s.sch 0).running.isSome = true ∧ (s.sch 0).ending = false ∧ n.watched 0 = some (1, 0, 0) ∧
    c.cmd.cqs.find? (fun x => x.part == 0 && x.cq == 31) = some ⟨0, 31, 1, 0⟩ ∧ c.get .CMD_CQ_CFG_coal_us 0 31 ≠ 0 := by decide

/-! ## Records, firings and valves -/

/-- An entry of a part list, and a record. -/
def entryOf (kind id : Nat) : PartEntry :=
  { ctx := 0, kind := kind, cut := true, ovf := false, cls := 3, id := id, gen := 0, into := 1, first := 10, last := 20, colFirst := 0, colLast := 1, pixels := 9 }

def recOf (span : Bool) (id state held : Nat) : TrkRec :=
  { span := span, id := id, gen := 0, state := state, cls := 2, flags := 16, reasons := 0, ctx := 0, held := held, table := true, banks := 0, pixels := 5,
    first := 8, last := 12, colFirst := 0, colLast := 1, commit := 0, opened := 0, digest := 0, resv := 0, lateCls := 0, lateDigest := 0, tVerdict := 0,
    tCommit := 0, tOn := 0, tOff := 0, deadline := false }

/-- TRK with records, waiting entries and verdicts. -/
def trk (recs : List TrkRec) (entries : List PartEntry) (verdicts : List VerdictMsg) : State :=
  { live with trk := { live.trk with recs := recs, entries := entries, verdicts := verdicts } }

theorem wit_RecordsFollowTheirParts_open : let s := trk [] [entryOf kindOpen 4095] []
    s.awake = true ∧ s.trk.entries = entryOf kindOpen 4095 :: [] ∧ (entryOf kindOpen 4095).ovf = false ∧ (entryOf kindOpen 4095).kind = kindOpen ∧
    s.partRec false 4095 = none ∧ (entryOf kindOpen 4095).gen = s.genOf 4095 ∧
    (let t := s.modTrk (fun t => { t with gens := [(4095, 255)] })
     (entryOf kindOpen 4095).gen ≠ t.genOf 4095) ∧ (entryOf kindOpen 4095).kind ≠ kindOpenClose := by decide

theorem wit_RecordsFollowTheirParts_cont : let s := trk [recOf false 0 1 0, recOf false 1 1 0] [entryOf kindClose 0] []
    s.awake = true ∧ s.trk.entries = entryOf kindClose 0 :: [] ∧ s.partRec false 0 = some (recOf false 0 1 0) ∧
    (entryOf kindClose 0).gen = (recOf false 0 1 0).gen ∧ (recOf false 0 1 0).early = true ∧ (entryOf kindClose 0).kind = kindClose ∧
    (trk [] [entryOf kindCont 0] []).partRec false 0 = none ∧ (entryOf kindMerged 0).into ≠ (entryOf kindMerged 0).id ∧
    s.partRec false (entryOf kindMerged 0).into = some (recOf false 1 1 0) := by decide

theorem wit_RecordsFollowTheirParts_span : let s := trk [recOf true 63 1 0] [entryOf kindSpan 0] []
    s.trk.entries = entryOf kindSpan 0 :: [] ∧
    ((s.trk.recs.filter (fun x => x.span && x.ctx == 0)).filter TrkRec.early).getLast? = some (recOf true 63 1 0) ∧ s.partRec true 63 = some (recOf true 63 1 0) ∧
    (entryOf kindSpan 0).first ≤ s.recEnd (recOf true 63 1 0) + s.get .TRK_CFG_span_gap ∧
    (trk [] [entryOf kindSpan 0] []).trk.recs.filter (fun x => x.span && x.ctx == 0) = [] ∧
    (List.range 64).find? (fun x => ((trk [] [entryOf kindSpan 0] []).partRec true x).isNone) = some 0 ∧
    (let t := trk ((List.range 64).map (fun n => { recOf true n 1 0 with ctx := 1 })) [entryOf kindSpan 0] []
     (t.trk.recs.filter (fun x => x.span && x.ctx == 0) = [] ∧ (List.range 64).find? (fun x => (t.partRec true x).isNone) = none)) := by decide

theorem wit_StaleVerdictsAreIgnored : live.partRec false 7 = none ∧ live.isOn (.ERR_INFO_valid .trk) = false ∧
    (trk [recOf false 7 7 0, { recOf false 8 1 0 with gen := 1 }] [] [⟨7, 0, 3, true, 0⟩]).trk.verdicts = ⟨7, 0, 3, true, 0⟩ :: [] ∧
    (∀ r, (trk [recOf false 7 7 0] [] []).partRec false 7 = some r → r.state = 7 ∨ r.gen ≠ 0) ∧
    (∀ r, (trk [{ recOf false 8 1 0 with gen := 1 }] [] []).partRec false 8 = some r → r.state = 7 ∨ r.gen ≠ 0) :=
  ⟨by decide, by decide, by decide, all_some (a := recOf false 7 7 0) (by decide) (by decide), all_some (a := { recOf false 8 1 0 with gen := 1 }) (by decide) (by decide)⟩

theorem wit_WithoutEjtNothingFires : let s := put (trk [recOf false 7 1 0] [] []) [((.TRK_HOLD, 0, 0), 0)]
    s.isOn (.CTRL_enable .ejt) = false ∧ s.awake = true ∧ s.partRec false 7 = some (recOf false 7 1 0) ∧ (recOf false 7 1 0).early = true ∧ s.beltRuns = true ∧
    s.beltPos < (recOf false 7 1 0).first + s.get .TRK_HOLD ∧ s.opens 0 ejtPage 0x8 = true ∧
    (List.range 8).any (fun b => s.isOn .EJT_BANK_CFG_enable 0 b) = false ∧
    ({ recOf false 7 1 0 with first := 0 } : TrkRec).first + s.get .TRK_HOLD ≤ s.beltPos := by decide

theorem wit_VerdictsDecideAndCommitsFix_late : let s := trk [recOf false 7 5 0] [] [⟨7, 0, 3, true, 0⟩]
    s.awake = true ∧ s.trk.verdicts = ⟨7, 0, 3, true, 0⟩ :: [] ∧ s.partRec false 7 = some (recOf false 7 5 0) ∧ (recOf false 7 5 0).gen = 0 ∧
    (recOf false 7 5 0).state ≠ 7 ∧ 5 ≤ (recOf false 7 5 0).state := by decide

theorem wit_VerdictsDecideAndCommitsFix_decides : let s := put (trk [recOf false 7 4 2] [] [⟨7, 0, 3, false, 0⟩]) [((.TRK_HOLD, 0, 0), 5)]
    s.partRec false 7 = some (recOf false 7 4 2) ∧ (recOf false 7 4 2).state < 5 ∧ s.atCommit (recOf false 7 4 2) = false ∧ (recOf false 7 4 2).held = 2 ∧
    (recOf false 7 4 1).held ≠ 2 ∧ s.atCommit (recOf false 7 4 1) = false := by decide

theorem wit_VerdictsDecideAndCommitsFix_commit : let r := { recOf false 7 1 0 with first := -100 }
    let s := put (trk [r] [] []) [((.TRK_HOLD, 0, 0), 5)]
    s.partRec false 7 = some r ∧ r.early = true ∧ s.atCommit r = true ∧ r.has flInView = true ∧ (s.commitClass r).2 = true := by decide

theorem wit_VerdictsDecideAndCommitsFix_deadline : let r := { recOf false 7 1 0 with first := -100 }
    let s := put (streaming) [((.CMD_PART_DEADLINE, 0, 0), 5)]
    let s : State := { s with cmd := { s.cmd with slots := [[{ active := some { planOf false [1] with ctxs := 1 } }]] }, trk := { s.trk with recs := [r] } }
    s.partRec false 7 = some r ∧ s.deadlinePart r.ctx = some 0 ∧ r.deadline = false ∧ s.beltRuns = true ∧
    s.commitPoint r - (s.get .CMD_PART_DEADLINE 0 0 : Int) ≤ s.beltPos ∧ r.held ≠ 2 ∧ r.early = true := by decide

/-- A firing of record 7 in bank 7 on the direct outputs. -/
def firingOf (phase : Nat) (start stop : Int) : Firing :=
  { span := false, id := 7, bank := 7, path := 4, lo := 0, hi := 1, start := start, stop := stop, mech := 0, minOn := 0, minOff := 0, maxOn := 5, phase := phase }

/-- TRK with firings and valves. -/
def fired (fs : List Firing) (vs : List Valve) : State :=
  { live with trk := { live.trk with recs := [recOf false 7 5 2], firings := fs, valves := vs } }

theorem wit_FiringsDriveValves_on : let s := fired [firingOf 0 0 9] []
    s.awake = true ∧ s.firing false 7 7 = some (firingOf 0 0 9) ∧ (firingOf 0 0 9).phase = 0 ∧ s.beltRuns = true ∧
    (firingOf 0 0 9).start - s.leadFor 4 0 ≤ s.beltPos ∧ s.valve 4 0 = none ∧ s.beltPos < (firingOf 0 1000000 1000000).start - s.leadFor 4 0 := by decide

theorem wit_FiringsDriveValves_off : let vs := [⟨4, 0, true, 0, 0, 0⟩, ⟨4, 1, true, 0, 0, 0⟩]
    let s := fired [firingOf 1 0 0] vs
    s.firing false 7 7 = some (firingOf 1 0 0) ∧ s.beltRuns = true ∧ (firingOf 1 0 0).stop - s.leadFor 4 0 ≤ s.beltPos ∧
    s.beltPos < (firingOf 1 0 1000000).stop - s.leadFor 4 0 ∧
    (∀ n, n ≤ 1 → (s.valve 4 n).map (fun v => v.on && v.owed == 0 && decide (v.since + minTicks 4 (s.minOnUs 4 n) ≤ s.tick)) = some true ∧
      (s.firingsOn 4 n).all (fun g => g.phase != 1 || (g.span == false && g.id == 7 && g.bank == 7)) = true) ∧
    s.valveLimit 4 0 ≠ 0 := by decide

theorem wit_FiringsDriveValves_times : let s := fired [] [⟨4, 15, true, 0, 2, 100⟩]
    s.valve 4 15 = some ⟨4, 15, true, 0, 2, 100⟩ ∧ live.valve 4 15 = none ∧ live.isOn (.CTRL_enable .ejt) = false ∧
    (∀ n, n < 4 → (liveWith [((.CTRL_enable .ejt, 0, 0), 1)]).isOn .EJT_VP_LEN_check 0 n = false) := by decide

/-- A page table that is released. -/
def table7 (readers : Nat) (pool : Option Nat) : AtnTable :=
  { id := 7, gen := 0, releasing := true, pool := pool, entries := [], tokens := 0, trunc := false, readers := readers, localPage := none, lost := [] }

theorem wit_FiringsDriveValves_freed : ({ live with tables := [table7 0 none] } : State).table 7 = some (table7 0 none) ∧ (table7 0 none).releasing = true ∧
    (table7 0 none).readers = 0 ∧ (table7 1 none).readers ≠ 0 := by decide

/-! ## Attention and samples -/

theorem wit_AttentionAndSamplesRun_none : live.awake = true ∧ (live.toIssue 7 0x10).isNone = true ∧ (live.toIssue 7 0x29).isNone = true ∧
    live.attn.find? (fun a => a.units.any (fun u => u.engine == some 7)) = none ∧ live.openReq (fun _ => true) = none ∧
    live.dec.find? (fun x => x.running.any (fun r => r.2 == 31)) = none ∧ live.dec.find? (fun x => x.readySlot.isSome) = none ∧ live.bePart = none ∧
    live.opens 0 decPage 0x114 = true := by decide

/-- A fetch of one entry, slot 0 on engine 31 or decoded. -/
def fetchOf (running : List (Nat × Nat)) (decoded : List (Nat × DecImage)) : DecFetch :=
  { part := 0, job := 1, desc := 0, entries := [some (List.replicate 32 0)], next := 1, delivered := 0, running := running, decoded := decoded, status := [] }

/-- A partition whose step has a descriptor of an operation to issue. -/
def issuing (op : Nat) (ds : List Nat) : State := running (planOf true (op :: ds)) (stepOf [{ descAt 0 with units := 1, assigned := 0 }] [])

theorem wit_AttentionAndSamplesRun_issue : ((issuing 0x10 []).toIssue 0 0x10).isSome = true ∧ ((issuing 0x11 []).toIssue 0 0x11).isSome = true ∧
    ((issuing 0x28 []).toIssue 0 0x28).isSome = true ∧ ((issuing 0x29 []).toIssue 0 0x29).isSome = true := by decide

theorem wit_AttentionAndSamplesRun_append :
    ∃ u j P r x, (issuing 0x10 []).toIssue 0 0x10 = some (u, j, P, r, x) ∧
      ((u.requestReads (u.envOf j P r x.idx) r (P.descs.getD x.idx 0) { x with assigned := x.units }).unitBad (u.envOf j P r x.idx) r.descs
        (P.descs.getD x.idx 0) { x with assigned := x.units } 0).2 = false := by
  refine ⟨_, _, _, _, _, rfl, ?_⟩; decide

theorem wit_AttentionAndSamplesRun_attn : ∃ u j P r x, (issuing 0x11 []).toIssue 0 0x11 = some (u, j, P, r, x) ∧
    ((u.requestReads (u.envOf j P r x.idx) r (P.descs.getD x.idx 0) x).unitBad (u.envOf j P r x.idx) r.descs (P.descs.getD x.idx 0) x 0).2 = false := by
  refine ⟨_, _, _, _, _, rfl, ?_⟩; decide

theorem wit_AttentionAndSamplesRun_fetched : (∃ u j P r x, (issuing 0x28 []).toIssue 0 0x28 = some (u, j, P, r, x) ∧
      (u.unitList (u.envOf j P r x.idx) (P.descs.getD x.idx 0)).flatMap (fun l => u.badKeys l.1 l.2) = []) ∧
    (∃ u j P r x, (issuing 0x29 []).toIssue 0 0x29 = some (u, j, P, r, x) ∧
      u.dec.find? (fun y => y.job == j.no && y.desc == dField (P.descs.getD x.idx 0) 0x30 15 0) = none) ∧
    ∀ n, n < 2 → ∃ u j P r x, ({ issuing 0x29 [] with dec := [{ fetchOf [] [] with delivered := n }] } : State).toIssue 0 0x29 = some (u, j, P, r, x) ∧
      u.dec.find? (fun y => y.job == j.no && y.desc == dField (P.descs.getD x.idx 0) 0x30 15 0) = some { fetchOf [] [] with delivered := n } ∧
      (n = 0 → n < (fetchOf [] []).entries.length) ∧ (n = 1 → (fetchOf [] []).entries.length ≤ n) := by
  refine ⟨⟨_, _, _, _, _, rfl, by decide⟩, ⟨_, _, _, _, _, rfl, by decide⟩, fun n hn => ?_⟩
  match n, hn with
  | 0, _ => exact ⟨_, _, _, _, _, rfl, by decide, by decide, by decide⟩
  | 1, _ => exact ⟨_, _, _, _, _, rfl, by decide, by decide, by decide⟩

/-- A pool's table and what a box that names it needs. -/
theorem wit_AttentionAndSamplesRun_boxes : let t (p : Option Nat) : State := { live with tables := [{ table7 0 p with releasing := false }] }
    let box := leBytes 4 7
    (live.boxTable box).isNone = true ∧ (t none).boxTable box = some { table7 0 none with releasing := false } ∧
    ((t (some 7)).boxTable box).map (fun x => x.pool) = some (some 7) ∧ (t (some 7)).poolOn 7 = false ∧
    (put (t (some 7)) [((.CTRL_enable .atnPool, 7, 0), 1)]).poolOn 7 = true ∧ (t (some 7)).shapeDiffers 0 0 7 = true := by decide

/-- An attention descriptor with units on engines, and a page that is awaited. -/
def attending (us : List AtnUnit) (rs : List PageReq) : State :=
  { live with attn := [{ part := 0, job := 1, desc := 0, boxes := [], units := us, reqs := rs }] }

theorem wit_AttentionAndSamplesRun_units : let u : AtnUnit := ⟨[0], 0, 0, 0, 2, some 7⟩
    let s := attending [u, ⟨[1], 0, 0, 0, 2, none⟩] []
    s.attn.find? (fun a => a.units.any (fun u => u.engine == some 7)) = some { part := 0, job := 1, desc := 0, boxes := [], units := [u, ⟨[1], 0, 0, 0, 2, none⟩], reqs := [] } ∧
    ([u, ⟨[1], 0, 0, 0, 2, none⟩].find? (fun u => u.engine == some 7)) = some u ∧
    ({ part := 0, job := 1, desc := 0, boxes := [], units := [u], reqs := [] } : AttnRun).settled u = true ∧ [u].erase u = [] ∧
    [u, ⟨[1], 0, 0, 0, 2, none⟩].erase u ≠ [] := by decide

theorem wit_AttentionAndSamplesRun_missing : let q : PageReq := ⟨7, 3, 0, 5, 5, some 2, 10, false, false⟩
    (attending [] [q]).openReq (fun _ => true) = some ({ part := 0, job := 1, desc := 0, boxes := [], units := [], reqs := [q] }, q) := by decide

/-- A rejected picture. -/
def image0 : DecImage :=
  { entry := List.replicate 32 0, status := 2, trunc := true, hit := false, symbols := 0, w := 0, h := 0, chans := 0, prec := 8, codes := [] }

theorem wit_AttentionAndSamplesRun_fetch : let s := { issuing 0x28 [] with dec := [fetchOf [(0, 31)] []] }
    s.dec.find? (fun x => x.running.any (fun r => r.2 == 31)) = some (fetchOf [(0, 31)] []) ∧
    (fetchOf [(0, 31)] []).running.find? (fun r => r.2 == 31) = some (0, 31) ∧ (s.fetchEnv (fetchOf [(0, 31)] [])).isSome = true ∧
    (fetchOf [(0, 31)] []).entries.getD 0 none = some (List.replicate 32 0) ∧
    ((s.decodeSlot 0 0x28 (List.replicate 32 0)).2.1.map (fun w => s.badKeys w.1 w.2)).getD [] = [] := by decide

theorem wit_AttentionAndSamplesRun_deliver : let s := { issuing 0x28 [] with dec := [fetchOf [] [(0, image0)]] }
    s.dec.find? (fun x => x.readySlot.isSome) = some (fetchOf [] [(0, image0)]) ∧ (fetchOf [] [(0, image0)]).readySlot = some image0 ∧
    (∃ j P r y d, s.fetchEnv (fetchOf [] [(0, image0)]) = some (j, P, r, y, d) ∧ s.blocked (s.envOf j P r 0) r 0 0 = false) ∧ image0.status = 2 ∧ image0.trunc = true := by
  refine ⟨by decide, by decide, ⟨_, _, _, _, _, rfl, by decide⟩, by decide, by decide⟩

theorem wit_AttentionAndSamplesRun_cache : let s := put rig [((.CMD_PART_CFG_class, 0, 0), 1), ((.DEC_CACHE_CFG_slots, 0, 0), 1), ((.DEC_CACHE_CFG_slot_kib, 0, 0), 4)]
    s.bePart = some 0 ∧ 0 < s.get .DEC_CACHE_CFG_slots ∧ s.cacheSlot 0 0 = some (0, 4096) ∧ s.opens 0 decPage 0x114 = true := by decide

/-! ## Position, time and field signals -/

/-- Encoder port 3 at work in a mode, with more cells. -/
def encoding (mode : Nat) (l : List (CellId × Nat)) : State := liveWith ([((.CTRL_enable .enc, 3, 0), 1), ((.ENC_CFG_mode, 3, 0), mode)] ++ l)

theorem wit_EncodersFollowTheBelt_edges : (encoding 0 []).awake = true ∧ (encoding 0 []).encLive 3 = true ∧ live.encLive 3 = false ∧
    (encoding 0 []).get .ENC_CFG_mode 3 = 0 ∧ (quadIndex true false + 4 - quadIndex false false) % 4 = 1 ∧
    (quadIndex true true + 4 - quadIndex false false) % 4 = 2 ∧ bit ((encoding 0 []).get .ENC_STATUS_abz 3) 2 = false ∧
    (encoding 0 [((.ENC_CFG_z_gate, 3, 0), 1), ((.ENC_STATUS_abz, 3, 0), 3)]).isOn .ENC_CFG_z_gate 3 = true := by decide

theorem wit_EncodersFollowTheBelt_abs : let s := encoding 1 [((.ENCX_BUSY, 3, 0), 1), ((.ENC_ABS_crc, 3, 0), 0), ((.ENC_ABS_bits, 3, 0), 8)]
    s.get .ENC_CFG_mode 3 = 1 ∧ s.isOn .ENCX_BUSY 3 = true ∧ s.encGone 3 = false ∧ s.absFrame 3 [] = none ∧
    (s.absFrame 3 [true, true, true]).isSome = true ∧ 8 ≤ s.get .ENC_ABS_bits 3 ∧ s.get .ENC_ABS_bits 3 ≤ 48 ∧
    (encoding 1 [((.ENCX_WVALID, 3, 0), 1)]).isOn .ENCX_WVALID 3 = true := by decide

theorem wit_EncodersFollowTheBelt_sincos : let s := encoding 2 [((.ENCX_BUSY, 3, 0), 1)]
    s.get .ENC_CFG_mode 3 = 2 ∧ s.isOn .ENCX_BUSY 3 = true ∧ s.encGone 3 = false ∧
    (let u := s.runTo (s.get .ENCX_LAST 3 - 1 + 176)
     let A : Int := u.get .ENC_SC_nominal 3
     (100 * (0 * 0 + 0 * 0) : Int) < (u.get .ENC_SC_WIN_lo 3 : Int) * (A * A) ∧ (u.get .ENC_SC_WIN_lo 3 : Int) * (A * A) ≤ 100 * (A * A + 0 * 0) ∧
     100 * (A * A + 0 * 0) ≤ (u.get .ENC_SC_WIN_hi 3 : Int) * (A * A) ∧ A ≠ 0) ∧
    (encoding 2 [((.ENCX_AVALID, 3, 0), 1)]).isOn .ENCX_AVALID 3 = true := by decide

theorem wit_EncodersFollowTheBelt_select : live.encOn 3 = false ∧ (encoding 0 []).encOn 3 = true ∧ live.opens 0 (encPage 0) 0x200 = true ∧
    live.encoderCapture = false ∧ live.isOn (.CTRL_enable .ejt) = false ∧
    (live.modCtx 63 (fun x => { x with running := true, kind := 1, mode := 1 })).encoderCapture = true ∧ live.isOn .ENC_SEL_belt_ok = true ∧
    live.backupReady = false ∧ (encoding 0 [((.ENC_SEL_backup_en, 0, 0), 1), ((.ENC_SEL_backup, 0, 0), 3)]).backupReady = true := by decide

theorem wit_DeviceTimeIsSetAndKept_set : live.opens 0 timPage 0x124 = true ∧ live.isOn .TIM_SET_go = false ∧ live.get .TIM_SET_at < 4 ∧
    (let s := liveWith [((.TIM_SET_go, 0, 0), 1), ((.TIM_SET_at, 0, 0), 1)]
     s.isOn .TIM_SET_go = true ∧ s.get .TIM_SET_at ≠ 0 ∧ s.get .TIM_SET_at = 1) ∧
    (let s := liveWith [((.TIM_SET_go, 0, 0), 1), ((.TIM_SET_at, 0, 0), 0)]
     s.isOn .TIM_SET_go = true ∧ s.get .TIM_SET_at = 0) ∧
    live.opens 0 timPage 0x128 = true ∧ 999999999 < (BitVec.ofNat 32 1000000000).toInt.natAbs ∧
    (BitVec.ofInt 32 (-999999999)).toInt.natAbs ≤ 999999999 ∧ (live.timeNs : Int) + (BitVec.ofInt 32 (-999999999)).toInt < 0 ∧
    0 ≤ (live.timeNs : Int) + (BitVec.ofNat 32 999999999).toInt := by decide

theorem wit_DeviceTimeIsSetAndKept_clock : live.ns < 10 ^ 9 ∧ live.frac < 2 ^ 32 ∧ live.get .TIMX_DRIFT < 171799 ∧
    live.opens 0 timPage (0x210 + 15 * 0x20) = true ∧ live.isOn .TIM_CMP_CTRL_arm 0 15 = false ∧
    (let s := liveWith [((.TIM_CMP_CTRL_arm, 0, 15), 1), ((.TIM_CMP_NEXT_NS, 0, 15), 10), ((.TIM_CMP_PER, 0, 15), 3), ((.TIM_CMP_CTRL_irq, 0, 15), 1)]
     s.isOn .TIM_CMP_CTRL_arm 0 15 = true ∧ s.isOn .TIM_CMP_CTRL_irq 0 15 = true ∧
     (let u := s.runToTime (s.get .TIM_CMP_NEXT_SEC 0 15) (s.get .TIM_CMP_NEXT_NS 0 15)
      u.cmpTarget 15 ≤ u.timeNs ∧ 0 < u.get .TIM_CMP_PER 0 15 ∧ u.timeNs + u.get .TIM_CMP_PER 0 15 < 2 ^ 64 * 10 ^ 9)) ∧
    live.isOn .TIM_STATUS_ref_ok = true ∧ (liveWith [((.TIM_STATUS_ref_ok, 0, 0), 0)]).isOn .TIM_STATUS_ref_ok = false ∧
    (liveWith [((.TIM_CAP_CFG_src, 0, 15), 1), ((.TIM_CAP_CFG_edge, 0, 15), 3)]).get .TIM_CAP_CFG_edge 0 15 = 3 := by decide

theorem wit_FieldSignalsAndSafeState_sample : live.awake = true ∧ live.isOn (.CTRL_enable .fio) = false ∧
    (let s := liveWith [((.CTRL_enable .fio, 0, 0), 1), ((.FIO_IN_CFG_n, 0, 31), 1), ((.FIO_IN_CFG_break_en, 0, 31), 1), ((.FIO_RB_CFG_enable, 0, 0), 2 ^ 15),
       ((.FIOX_MISMATCH, 0, 15), 3)]
     s.isOn (.CTRL_enable .fio) = true ∧ s.isOn (.CTRL_quiesce .fio) = false ∧ s.get .FIO_IN_CFG_n 0 31 = 1 ∧ s.get .FIO_IN_STAT_q 0 31 = 0 ∧
     min 1 (0 + 1) = 1 ∧ s.isOn .FIO_IN_STAT_state 0 31 = false ∧ bit (s.get .FIO_RETIRED) 31 = false ∧ s.isOn .FIO_IN_CFG_break_en 0 31 = true ∧
     min 1 (s.get .FIO_IN_STAT_b 0 31 + 1) = 1 ∧ bit (s.get .FIO_IN_BROKEN) 31 = false ∧ bit (s.get .FIO_RB_CFG_enable) 15 = true ∧
     s.get .FIOX_CHANGED 0 15 = 0 ∧ bit 0x8000 15 ≠ bit (s.get .FIO_OUT_PIN_drive) 15 ∧ 3 ≤ s.get .FIOX_MISMATCH 0 15) ∧
    (liveWith [((.FIO_IN_STAT_state, 0, 31), 1)]).isOn .FIO_IN_STAT_state 0 31 = true := by decide

theorem wit_FieldSignalsAndSafeState_watchdog : live.opens 0 fioPage 0x11C = true ∧ live.isOn .FIOX_SAFE_LOW = true ∧
    (let s := liveWith [((.FIOX_SAFE_LOW, 0, 0), 0), ((.FIO_SAFE_held, 0, 0), 0)]
     s.isOn .FIOX_SAFE_LOW = false ∧ s.isOn .FIO_SAFE_held = false) ∧
    live.isOn .FIO_SAFE_held = true ∧ live.opens 0 fioPage 0x130 = true ∧ live.get .FIO_WDOG_period_ms < 2 ^ 14 ∧ live.isOn .FIO_WDOG_enable = false ∧
    live.opens 0 fioPage 0x134 = true ∧
    (let s := liveWith [((.FIO_WDOG_enable, 0, 0), 1), ((.FIOX_WD_END, 0, 0), 1), ((.FIOX_KICKED, 0, 0), 1), ((.FIO_SAFE_cause, 0, 0), 2), ((.FIOX_KICK, 0, 0), 2)]
     s.isOn .FIO_WDOG_enable = true ∧ s.tick < s.get .FIOX_WD_END ∧ 1 ≠ s.get .FIOX_KICK ∧ 2 = s.get .FIOX_KICK ∧ s.isOn .FIOX_KICKED = true ∧
     s.get .FIO_SAFE_cause ≠ 3 ∧ s.isOn .FIO_SAFE_held = true ∧ s.opens 0 fioPage 0x138 = true) ∧
    (0xA5A5 % 2 ^ 16 = 0xA5A5 ∧ 0x5A5A % 2 ^ 16 ≠ 0xA5A5) ∧ (liveWith [((.FIO_SAFE_cause, 0, 0), 3)]).get .FIO_SAFE_cause = 3 := by decide

/-! ## Link, counters and management -/

theorem wit_LinkPowerAndCounters_link : State.reset.linkUp = false ∧ live.linkUp = true ∧ live.opens 0 hlkPage 0x104 = true ∧
    State.reset.mgt.inReset = false ∧ (2 : Modules) ≠ 0 ∧ ({ live with mgt := { live.mgt with inReset := true } } : State).mgt.inReset = true ∧
    live.awake = true ∧ live.pwr.raise = none ∧ ({ live with pwr := { live.pwr with raise := some 3 } } : State).pwr.raise = some 3 := by decide

theorem wit_LinkPowerAndCounters_counters : live.opens 0 pmcPage 0x100 = true ∧ live.opens 0 pmcPage 0x110 = true ∧ live.isOn .PMC_CTRL_frozen = false ∧
    live.pmcOpen 31 = true ∧ (liveWith [((.PMC_CNT_SEL_enable, 0, 31), 1)]).pmcOpen 31 = false ∧ (live.pmcRate 31).1 = 0 ∧ (live.pmcRate 31).2 = none := by decide

/-- Counter 30 counts TRK's records that are not free, every tick. -/
def counting (l : List (CellId × Nat)) : State :=
  put (trk [recOf false 0 1 0] [] []) ([((.PMC_CNT_SEL_enable, 0, 30), 1), ((.PMC_CNT_SEL_event, 0, 30), 0x30), ((.PMC_CNT_SEL_mode, 0, 30), 1)] ++ l)

theorem wit_LinkPowerAndCounters_occupancy : (counting []).awake = true ∧ ((counting []).pmcRate 30).1 ≠ 0 ∧ (counting []).get .PMC_CNT 0 30 < 2 ^ 32 ∧
    (counting []).pmcChained 31 = false ∧ ((counting []).pmcRate 30).2 = some 1 ∧ (counting []).get .PMC_CNT_THR_thr 0 30 = 0 ∧
    (let s := counting [((.PMC_CNT_THR_thr, 0, 30), 1)]
     s.get .PMC_CNT_THR_thr 0 30 ≤ 1 ∧ s.get .PMC_CNT_THR_thr 0 30 ≠ 0 ∧ s.isOn .PMCX_DISARMED 0 30 = false) := by decide

/-- A management controller with some fields changed. -/
def mgtWith (f : MgtState → MgtState) : State := live.modMgt f

theorem wit_ResetsAndStartsGoTheirSteps_pins : State.reset.mgt.resetLow = false ∧
    (let s := mgtWith (fun m => { m with resetLow := true })
     s.mgt.resetLow = true ∧ s.mgt.inReset = false ∧ s.stopped = false) ∧
    (let s := mgtWith (fun m => { m with resetLow := true, inReset := true })
     s.mgt.resetLow = true ∧ s.mgt.inReset = true) ∧
    (let s := put (mgtWith (fun m => { m with resetLow := true })) [((.MGTX_STOPPED, 0, 0), 1)]
     s.mgt.resetLow = true ∧ s.mgt.inReset = false ∧ s.stopped = true) := by decide

theorem wit_ResetsAndStartsGoTheirSteps_request : live.opens 0 mgtPage 0x10C = true ∧ (0xC0DD : BitVec 16) ≠ 0xC0DE ∧ live.mgt.request = none ∧
    (mgtWith (fun m => { m with request := some (true, false) })).mgt.request = some (true, false) ∧ live.isOn .RET_STATUS_busy = false ∧
    live.flt.unrecorded = [] := by decide

theorem wit_ResetsAndStartsGoTheirSteps_steps : live.mgt.inReset = false ∧ live.mgt.fuseTick = none ∧
    (let s := mgtWith (fun m => { m with fuseTick := some 0 })
     s.mgt.fuseTick ≠ none ∧ s.mgt.velvetOk = false ∧ s.mgt.coolantWait = false) ∧
    3 ≤ ({ live with velvet := { live.velvet with fails := 3 } } : State).velvet.fails ∧
    ({ live with velvet := { live.velvet with recs := [{ seq := 1, marks := [(2, 71)] }, {}] } } : State).velvet.recs.any (fun r => r.marks.contains (2, 71)) = true ∧
    (mgtWith (fun m => { m with coolantWait := true })).mgt.coolantWait = true ∧
    (let s := mgtWith (fun m => { m with velvetOk := true })
     s.mgt.velvetOk = true ∧ s.mgt.hbmOk = false) ∧
    (let s := mgtWith (fun m => { m with hbmOk := true })
     s.mgt.hbmOk = true ∧ s.mgt.scrubOk = false) := by decide

/-- A start at its last step. -/
def restoring : State :=
  put (State.reset.modMgt (fun m => { m with fuseTick := some 0, velvetOk := true, linkOk := true, hbmOk := true, patchOk := true, scrubOk := true }))
    [((.HLK_LINK_STATUS_up, 0, 0), 1)]

theorem wit_ResetsAndStartsGoTheirSteps_restore : restoring.mayRestore = true ∧ restoring.isOn .MGT_RESET_CAUSE_minimal = false ∧
    restoring.velvet.best false false = none ∧ live.mayRestore = false := by decide

theorem wit_ResetsAndStartsGoTheirSteps_ok : live.opens 0 mgtPage 0x110 = true ∧ live.isOn .MGT_STATUS_ready = true ∧ live.mgt.okEnded = false ∧
    live.tick < live.mgt.readyTick + okTicks ∧ live.mgt.okTaken = false ∧ (mgtWith (fun m => { m with okTaken := true })).mgt.okTaken = true ∧
    (mgtWith (fun m => { m with okEnded := true })).mgt.okEnded = true ∧ live.mgt.late = false := by decide

theorem wit_ManagementStopsAndRecords_stop : live.mgt.inReset = false ∧ live.stopped = false ∧ live.mgt.velvetOk = false ∧
    (mgtWith (fun m => { m with velvetOk := true })).mgt.velvetOk = true ∧ live.mgt.fuseTick = none ∧
    (mgtWith (fun m => { m with fuseTick := some 0 })).mgt.fuseTick ≠ none ∧ plain.cmd.jobs.any (fun j => j.run.isSome) = true := by decide

theorem wit_ManagementStopsAndRecords_faults : live.opens 0 mgtPage 0x1A0 = true ∧ faultCount 5 ≤ 32 ∧ 31 < faultCount 5 ∧ 71 < faultCount 2 ∧ faultCount 2 ≤ 72 ∧
    faultCount 6 ≤ 0 ∧ live.cluRetired 71 = false ∧ (liveWith [((.STATUS_retired .clu, 71, 0), 1)]).cluRetired 71 = true ∧ live.flt.unrecorded = [] ∧
    ({ live with flt := { live.flt with unrecorded := [(2, 71, 9)] } } : State).flt.unrecorded = (2, 71, 9) :: [] ∧
    live.velvet.recs = [({} : RetireRec), ({} : RetireRec)] ∧ live.opens 0 retPage 0x148 = true := by decide

theorem wit_ManagementStopsAndRecords_bundle : live.opens 0 secPage 0x14C = true ∧ live.isOn .SEC_PATCH_STATUS_window = false ∧
    (liveWith [((.SEC_PATCH_STATUS_window, 0, 0), 1)]).isOn .SEC_PATCH_STATUS_window = true ∧ live.mgt.fetching = false ∧
    (mgtWith (fun m => { m with fetching := true })).mgt.fetching = true := by decide

theorem wit_ManagementStopsAndRecords_snapshot : live.opens 0 retPage 0x100 = true ∧ live.stopped = false ∧ live.isOn .MGT_STATUS_ready = true ∧
    live.isOn .RET_STATUS_busy = false ∧ live.commits = [] ∧ committed.commits ≠ [] ∧ live.held = none ∧
    ({ live with held := some [] } : State).held = some [] ∧ live.mgt.capture = none ∧ (mgtWith (fun m => { m with capture := some [] })).mgt.capture = some [] ∧
    live.opens 0 secPage 0x188 = true ∧ live.get .SEC_ATT_STATUS_state ≠ 1 ∧ live.get .SEC_ATT_ADDR % 64 = 0 ∧
    (liveWith [((.SEC_ATT_STATUS_state, 0, 0), 1)]).get .SEC_ATT_STATUS_state = 1 ∧ (put State.reset [((.SEC_ATT_STATUS_state, 0, 0), 1)]).linkUp = false ∧
    (liveWith [((.SEC_ATT_ADDR, 0, 0), 32)]).get .SEC_ATT_ADDR % 64 ≠ 0 ∧ (liveWith [((.MGTX_STOPPED, 0, 0), 1)]).stopped = true := by decide

theorem wit_ErasedVelvetIsBlank : live.opens 0 retPage 0x100 = true ∧ live.isOn .RET_STATUS_busy = false ∧
    (liveWith [((.RET_STATUS_busy, 0, 0), 1)]).isOn .RET_STATUS_busy = true ∧ restoring.mayRestore = true ∧ restoring.isOn .MGT_RESET_CAUSE_minimal = false ∧
    restoring.velvet = ({ live with velvet := { live.velvet with copies := live.velvet.copies.map (fun c => { c with magic := 0 }) } } : State).velvet := by decide

/-! ## Ill-formed commands -/

theorem test_wf_access : (Instr.registerWrite 0 6 4 0).wf = false ∧ (Instr.registerWrite 0 8 2 0).wf = false ∧
    (Instr.registerWrite 0 bar0Size 4 0).wf = false ∧ (Instr.registerWrite 0 8 4 (2 ^ 32)).wf = false ∧ (Instr.lowWordRead 0 2).wf = false ∧
    (Instr.lowWordRead 0 bar0Size).wf = false := by decide

theorem test_wf_window : (Instr.bar2Write 0 0 []).wf = false ∧ (Instr.bar2Write 0 bar2Size [1]).wf = false ∧ (Instr.bar2Read 0 0 0).wf = false ∧
    (Instr.bar2Read 0 bar2Size 1).wf = false := by decide

theorem test_wf_pages : (Instr.evtForce 0 ⟨.lan, 24⟩ 0).wf = false ∧ (Instr.softReset 0 ⟨.lan, 24⟩).wf = false ∧ (Instr.quiesce 0 ⟨.capCtx, 64⟩).wf = false ∧
    (Instr.enableClear 0 ⟨.enc, 4⟩).wf = false ∧ (Instr.commitGo 0 ⟨.clu, 72⟩ 0 0 false).wf = false ∧ (Instr.commitApply ⟨.memPc, 64⟩).wf = false ∧
    (Instr.ownerWrite 0 ⟨.atnPool, 8⟩ 0 true).wf = false ∧ (Instr.lockSticky 0 ⟨.mgt, 1⟩).wf = false := by decide

theorem test_wf_operands : (Instr.trainMatch 0 (2 ^ 20)).wf = false ∧ (Instr.peerMarkersFound 0 [0, 1, 2] 0).wf = false ∧
    (Instr.peerMarkersFound 0 [0, 1, 2, 4] 0).wf = false ∧ (Instr.ackFrame 0 (frame 256 0 true) 0).wf = false ∧
    (Instr.nakFrame 0 (frame 9 65536 true) 0).wf = false ∧ (Instr.creditFrame 0 (frame 10 0 true) (2 ^ 32)).wf = false ∧
    (Instr.lineComplete 0 [65536]).wf = false ∧ (Instr.uncorrectableRead 0 100663296 .scrubber).wf = false ∧
    (Instr.correctableRead 0 12582912).wf = false ∧ (Instr.minTimeHoldEnd 4 16).wf = false ∧ (Instr.maxOnExpiry 4 16).wf = false := by decide

/-! ## Single steps -/

/-- A write of EVT_STATUS clears the bits written as 1 (R10). -/
theorem test_w1c : answers (.registerWrite 0 ((lanePage 0).base + 0x10) 4 2) (liveWith [((.EVT_STATUS .lan, 0, 0), 7)])
    (fun t => t.get (.EVT_STATUS .lan) == 5) = true := by decide

/-- A shadowed register changes at the commit and not before (R50). -/
theorem test_shadow : answers (.registerWrite 0 ((capPage 0).base + 0x128) 8 0x5000) live (fun t => t.get .CAP_RING_BASE == 0 &&
    answers (.commitGo 0 (capPage 0) 0 0 false) t (fun u => u.get .CAP_RING_BASE == 0 &&
      answers (.commitApply (capPage 0)) u (fun v => v.get .CAP_RING_BASE == 0x5000 && v.get (.GEN .capCtx) == 1))) = true := by decide

/-- ENC_SEL with backup equal to belt is discarded with code 0x91 (R335). -/
theorem test_enc_sel : answers (.encSelWrite 0 1 1 true) live (fun t => t.get (.ERR_INFO_detail .enc) == 0x91 + 0x80 * 2 ^ 12) = true := by decide

/-- PF1 sees no lane page: OWN_DENY (R41). -/
theorem test_own_deny : answers (.laneSlip 1 0) live (fun t => t.event hlkPage 0 && t.get (.ERR_INFO_detail .hlk) == 1) = true := by decide

/-- R293: the address that a region gives the key of one of its bytes is the byte's own address again. -/
theorem test_map_back :
    let s := put rig [((.MEM_PART_MASK, 0, 0), 0b10110)]
    [0, 300, 70000, 123456789].all (fun x => let a := s.regionBase 0 + x % 2 ^ 26
      s.addrIn 0 ((s.mapIn 0 a).1 * 2 ^ 30 + (s.mapIn 0 a).2) == some a) = true := by decide

/-- R121: two members of 64 lines have their row tables at 0x100 and their data from 0x900 and 0xC0900. -/
theorem test_slot_layout : dataOffsets 64 [12288, 4096] = ([0x900, 0xC0900], 1050880) := by decide

/-- A second of device time has passed at a rollover (R341): 400,000,000 ticks. -/
theorem test_rollover : answers .secondsRollover live (fun t => t.sec == 1 && t.ns == 0 && t.tick == 400000000) = true := by decide

end Sys2Proof.Tests
end

/-!
PROOFS. The event registers of a page header (R10, R45, R46): EVT_FORCE and the clearing write of EVT_STATUS.
-/
namespace Sys2Proof.Machine

/-! ## Masks of event bits -/

theorem onesOf_zero (w : Nat) : onesOf w 0 = [] := by
  simp [onesOf, bit_eq]

theorem lt_of_onesOf_cons {w v n : Nat} {l : List Nat} (h : onesOf w v = n :: l) : n < w := by
  have hn : n ∈ onesOf w v := by simp [h]
  exact List.mem_range.mp (List.mem_filter.mp hn).1

theorem bit_zero (n : Nat) : bit 0 n = false := by simp [bit_eq]

/-- The mask that a W1C write leaves holds the bits that were not written as 1 (R10). -/
theorem bit_and_complement (a v : Nat) {w n : Nat} (hv : v < 2 ^ w) (hn : n < w) :
    bit (a &&& (2 ^ w - 1 - v)) n = (bit a n && !bit v n) := by
  rw [Nat.sub_sub, Nat.add_comm 1 v]
  simp only [bit_eq, Nat.testBit_and, Nat.testBit_two_pow_sub_succ hv, hn, decide_true, Bool.true_and]

/-! ## What a raised mask leaves in ERR_INFO -/

/-- Interrupt messages leave every register that is none of theirs. -/
theorem State.get_signal (s : State) (p : PageId) (before : Bool) {f : Fld} (hf : msgFlds.all (fun g => f.diff g) = true) (i j : Nat) :
    (s.signal p before).get f i j = s.get f i j :=
  (State.only_signal [] s p before).cells f i j (by simp only [untouched, outside, hf, List.all_nil, Bool.and_self])

/-- While ERR_INFO is free, it takes the lowest of the events (R46). -/
theorem State.capture_lowest {s : State} {p : PageId} {mask n : Nat} {l : List Nat} (hm : onesOf 32 mask = n :: l)
    (hfree : s.isOn (.ERR_INFO_valid p.kind) p.inst = false) (detail : Nat) (forced : Bool) :
    (s.capture p mask detail forced).get (.ERR_INFO_valid p.kind) p.inst = 1 ∧
    (s.capture p mask detail forced).get (.ERR_INFO_forced p.kind) p.inst = b2n forced ∧
    (s.capture p mask detail forced).get (.ERR_INFO_event p.kind) p.inst = n := by
  have hmask : (mask == 0) = false := by
    rw [beq_eq_false_iff_ne]
    rintro rfl
    rw [onesOf_zero] at hm
    cases hm
  have hn : n % 2 ^ 5 = n := Nat.mod_eq_of_lt (lt_of_onesOf_cons hm)
  have hover : ∀ (t : State) (c : Prop) [Decidable c] {f : Fld}, f.diff (.ERR_INFO_overflow p.kind) = true →
      (if c then t.set (.ERR_INFO_overflow p.kind) p.inst 0 1 else t).get f p.inst = t.get f p.inst := by
    intro t c _ f hf
    split
    · exact State.get_set_other t hf _ _ _ _ _
    · rfl
  simp only [State.capture, hmask, hfree, hm, List.headD_cons, Bool.false_eq_true, if_false]
  refine ⟨?_, ?_, ?_⟩
  · rw [hover _ _ rfl, State.get_set_other _ rfl, State.get_set_other _ rfl, State.get_set_other _ rfl, State.get_set_self]
    rfl
  · rw [hover _ _ rfl, State.get_set_other _ rfl, State.get_set_other _ rfl, State.get_set_self]
    cases forced <;> rfl
  · rw [hover _ _ rfl, State.get_set_other _ rfl, State.get_set_self]
    exact hn

/-- Events raised together on a page whose ERR_INFO is free: it takes the lowest of them (R45, R46). -/
theorem State.raiseMask_lowest {s : State} {p : PageId} {mask n : Nat} {l : List Nat} (hm : onesOf 32 mask = n :: l)
    (hfree : s.isOn (.ERR_INFO_valid p.kind) p.inst = false) (detail : Nat) (forced : Bool) :
    (s.raiseMask p mask detail forced).get (.ERR_INFO_valid p.kind) p.inst = 1 ∧
    (s.raiseMask p mask detail forced).get (.ERR_INFO_forced p.kind) p.inst = b2n forced ∧
    (s.raiseMask p mask detail forced).get (.ERR_INFO_event p.kind) p.inst = n := by
  have hset : (s.set (.EVT_STATUS p.kind) p.inst 0 (s.get (.EVT_STATUS p.kind) p.inst ||| mask)).isOn (.ERR_INFO_valid p.kind) p.inst = false := by
    rw [State.isOn, State.get_set_other _ rfl]
    exact hfree
  obtain ⟨hvalid, hforced, hevent⟩ := State.capture_lowest hm hset detail forced
  simp only [State.raiseMask]
  exact ⟨(State.get_signal _ _ _ rfl _ _).trans hvalid, (State.get_signal _ _ _ rfl _ _).trans hforced,
    (State.get_signal _ _ _ rfl _ _).trans hevent⟩

/-! ## EVT_FORCE -/

theorem exec_evtForce_open {fn : Fn} {p : PageId} {s : State} (hp : p.ok = true) (ho : s.opens fn p 0x18 = true) (m : BitVec 32) :
    exec (.evtForce fn p m) s = .next (s.evtForceWrite p m.toNat) := by
  change pageRow p (s.hostRow fn p 0x18 m.toNat) = _
  rw [pageRow_ok hp, State.hostRow_opens ho]
  rfl

/-- A write of EVT_FORCE raises the bits that the page has, as forced; of none of them it is no write at all (R45, R46). -/
theorem State.evtForceWrite_cases (s : State) (p : PageId) (v : Nat) :
    (v &&& p.events = 0 ∧ s.evtForceWrite p v = s) ∨
    (v &&& p.events ≠ 0 ∧ s.evtForceWrite p v = s.raiseMask p (v &&& p.events) 0 true) := by
  unfold State.evtForceWrite
  split
  · rename_i h
    exact .inl ⟨beq_iff_eq.mp h, rfl⟩
  · rename_i h
    exact .inr ⟨fun h0 => h (beq_iff_eq.mpr h0), rfl⟩

theorem State.only_evtForceWrite (s : State) (p : PageId) (v : Nat) : State.Only (evtCells p) s (s.evtForceWrite p v) := by
  obtain ⟨-, h⟩ | ⟨-, h⟩ := s.evtForceWrite_cases p v
  · rw [h]; exact State.Only.refl _ s
  · rw [h]; exact State.only_raiseMask _ _ _ _ _

theorem State.evtForceWrite_event (s : State) (p : PageId) (v : Nat) {n : Nat} (hn : n < 32) :
    (s.evtForceWrite p v).event p n = (s.event p n || bit (v &&& p.events) n) := by
  obtain ⟨h0, h⟩ | ⟨-, h⟩ := s.evtForceWrite_cases p v
  · rw [h, h0, bit_zero, Bool.or_false]
  · rw [h, State.raiseMask_event _ _ _ _ _ hn]

theorem State.evtForceWrite_lowest {s : State} {p : PageId} {v n : Nat} {l : List Nat} (hm : onesOf 32 (v &&& p.events) = n :: l)
    (hfree : s.isOn (.ERR_INFO_valid p.kind) p.inst = false) :
    (s.evtForceWrite p v).get (.ERR_INFO_valid p.kind) p.inst = 1 ∧ (s.evtForceWrite p v).get (.ERR_INFO_forced p.kind) p.inst = 1 ∧
    (s.evtForceWrite p v).get (.ERR_INFO_event p.kind) p.inst = n := by
  obtain ⟨h0, -⟩ | ⟨-, h⟩ := s.evtForceWrite_cases p v
  · rw [h0, onesOf_zero] at hm
    cases hm
  · rw [h]
    exact State.raiseMask_lowest hm hfree 0 true

/-! ## EVT_STATUS -/

/-- The effect of a clearing write of EVT_STATUS (R10). -/
def State.clearEvents (s : State) (p : PageId) (v : Nat) : State :=
  s.set (.EVT_STATUS p.kind) p.inst 0 (s.get (.EVT_STATUS p.kind) p.inst &&& (2 ^ 32 - 1 - v))

theorem exec_registerWrite_evtStatus {fn : Fn} {p : PageId} {s : State} {v : BitVec 64} (hp : p.ok = true) (hv : v.toNat < 2 ^ 32)
    (ho : s.opens fn p 0x10 = true) : exec (.registerWrite fn (p.base + 0x10) 4 v) s = .next (s.clearEvents p v.toNat) := by
  change Host.Outcome.next (s.bar0Write fn (p.base + 0x10) 4 v.toNat) = _
  rw [barWrite_word hp (by decide) (by decide) ho v.toNat hv, State.clearEvents, ← Nat.mod_eq_of_lt hv]
  simp [State.headerWord]

theorem State.clearEvents_event (s : State) (p : PageId) {v n : Nat} (hv : v < 2 ^ 32) (hn : n < 32) :
    (s.clearEvents p v).event p n = (s.event p n && !bit v n) := by
  simp only [State.event, State.clearEvents, State.get_set_self]
  exact (bit_mod hn).trans (bit_and_complement _ _ hv hn)

end Sys2Proof.Machine

section
open Sys2Proof Sys2Proof.Machine

/-- Settles O13: the forced bits are those of a raised mask, and a clearing write is one write of EVT_STATUS. -/
theorem eventBitsAreForcedAndCleared : Obligations.EventBitsAreForcedAndCleared := by
  refine ⟨fun fn p m s hp ho => ?_, fun fn p v s hp hv ho => ?_⟩
  · refine answers_of_next (exec_evtForce_open hp ho m) ⟨s.only_evtForceWrite p _, fun n hn => ?_, fun n l hm hfree => ?_⟩
    · exact s.evtForceWrite_event p _ hn
    · exact State.evtForceWrite_lowest hm hfree
  · refine answers_of_next (exec_registerWrite_evtStatus hp hv ho) ⟨State.only_set (by simp) s _, fun n hn => ?_⟩
    exact s.clearEvents_event p hv hn
end

/-!
PROOFS. BAR2 (R42, R294, R313, R314): bytes of HBM after a write, what the counting of traffic leaves, and the writes and reads of one word.
-/
namespace Sys2Proof.Machine

/-! ## Bytes of a memory -/

theorem memByte_filter {p : Host.Cell → Bool} {x : Nat} (hp : ∀ c : Host.Cell, c.1 = x → p c = true) (m : Memory) :
    memByte (m.filter p) x = memByte m x := by
  induction m with
  | nil => rfl
  | cons c m ih =>
    by_cases hc : c.1 = x
    · simp [hp c hc, memByte, hc]
    · by_cases hpc : p c = true
      · simp [hpc, memByte, hc, ih]
      · simp [hpc, memByte, hc, ih]

theorem memByte_append_of_left {m : Memory} {x : Nat} (h : ∀ c ∈ m, c.1 ≠ x) (l : Memory) : memByte (m ++ l) x = memByte l x := by
  induction m with
  | nil => rfl
  | cons c m ih =>
    simp only [List.cons_append, memByte, h c List.mem_cons_self, if_false]
    exact ih fun d hd => h d (List.mem_cons_of_mem c hd)

theorem memByte_append_of_right {l : Memory} {x : Nat} (h : ∀ c ∈ l, c.1 ≠ x) (m : Memory) : memByte (m ++ l) x = memByte m x := by
  induction m with
  | nil => simpa using memByte_append_of_left h []
  | cons c m ih => simp only [List.cons_append, memByte, ih]

/-- The bytes of a run, each cut to 8 bits. -/
theorem memByte_runCells (bs : List Nat) (a : Nat) {i : Nat} (hi : i < bs.length) : memByte (runCells a bs) (a + i) = bs[i] % 256 := by
  induction bs generalizing a i with
  | nil => cases hi
  | cons b bs ih =>
    have hrest : ∀ c ∈ runCells (a + 1) bs, c.1 ≠ a := fun c hc => by have := mem_runCells hc; omega
    cases i with
    | zero =>
      simp only [runCells, Nat.add_zero, List.getElem_cons_zero]
      split
      · rename_i hb
        rw [hb]
        simpa [memByte] using memByte_append_of_left hrest []
      · simp [memByte]
    | succ i =>
      have hi' : i < bs.length := by simpa using hi
      have hshift : a + (i + 1) = a + 1 + i := by omega
      simp only [runCells, List.getElem_cons_succ, hshift]
      split
      · exact ih (a + 1) hi'
      · simp only [memByte, show a ≠ a + 1 + i by omega, if_false]
        exact ih (a + 1) hi'

theorem memByte_memWrite_inside (m : Memory) (a : Nat) (bs : List Nat) {i : Nat} (hi : i < bs.length) :
    memByte (memWrite m a bs) (a + i) = bs[i] % 256 := by
  rw [memWrite, memByte_append_of_right, memByte_append_of_left, memByte_runCells bs a hi]
  · intro c hc
    have := (List.mem_filter.mp hc).2
    simp only [decide_eq_true_eq] at this
    omega
  · intro c hc
    have := (List.mem_filter.mp hc).2
    simp only [decide_eq_true_eq] at this
    omega

theorem memByte_memWrite_outside (m : Memory) (a : Nat) (bs : List Nat) {x : Nat} (hx : x < a ∨ a + bs.length ≤ x) :
    memByte (memWrite m a bs) x = memByte m x := by
  have hrun : ∀ c ∈ runCells a bs, c.1 ≠ x := fun c hc => by have := mem_runCells hc; omega
  rw [memWrite]
  obtain hx | hx := hx
  · rw [memByte_append_of_right, memByte_append_of_right hrun, memByte_filter]
    · intro c hc
      simp only [decide_eq_true_eq]
      omega
    · intro c hc
      have := (List.mem_filter.mp hc).2
      simp only [decide_eq_true_eq] at this
      omega
  · rw [List.append_assoc, memByte_append_of_left, memByte_append_of_left hrun, memByte_filter]
    · intro c hc
      simp only [decide_eq_true_eq]
      omega
    · intro c hc
      have := (List.mem_filter.mp hc).2
      simp only [decide_eq_true_eq] at this
      omega

theorem memRead_eq (m : Memory) (a n : Nat) : memRead m a n = (List.range n).map (fun i => memByte m (a + i)) := by
  refine List.map_congr_left fun i hi => memByte_filter (fun c hc => ?_) m
  have := List.mem_range.mp hi
  simp only [Bool.and_eq_true, decide_eq_true_eq]
  omega

/-- What was written is read back, each byte cut to 8 bits. -/
theorem memRead_memWrite (m : Memory) (a : Nat) (bs : List Nat) : memRead (memWrite m a bs) a bs.length = bs.map (· % 256) := by
  rw [memRead_eq]
  refine List.ext_getElem (by simp) fun i hi hi' => ?_
  simp only [List.length_map, List.length_range] at hi
  simp [memByte_memWrite_inside m a bs hi]

/-! ## Aligned words -/

theorem granules_word {a : Nat} (ha : a % 8 = 0) : granules a 8 = [(a, 8)] := by
  have hn : (a % 256 + 8 + 255) / 256 = 1 := by omega
  have hlo : max a (a / 256 * 256) = a := by omega
  have hhi : min (a + 8) ((a / 256 + 1) * 256) - a = 8 := by omega
  simp [granules, hn, hlo, hhi]

theorem wordRuns_word {off : Nat} (ho : off % 8 = 0) : wordRuns off 8 = [(off, 8)] := by
  have hlo : max off (off / 8 * 8) = off := by omega
  have hhi : min (off + 8) ((off / 8 + 1) * 8) - off = 8 := by omega
  simp [wordRuns, ho, hlo, hhi]

/-- Every byte of a word run is one of the whole run. -/
theorem wordRuns_inside {off n : Nat} {w : Nat × Nat} (hw : w ∈ wordRuns off n) {j : Nat} (hj : j < w.2) :
    off ≤ w.1 + j ∧ w.1 + j < off + n := by
  simp only [wordRuns, List.mem_map, List.mem_range] at hw
  obtain ⟨i, -, rfl⟩ := hw
  simp only at hj ⊢
  omega

theorem State.keyOf_eq_mapIn {s : State} {a key : Nat} (h : s.keyOf a = some key) :
    ∃ p, key = (s.mapIn p a).1 * 2 ^ 30 + (s.mapIn p a).2 := by
  simp only [State.keyOf, Option.map_eq_some_iff] at h
  obtain ⟨p, -, hp⟩ := h
  exact ⟨p, hp.symm⟩

/-- The map of regions keeps the place of a byte within its word (R293). -/
theorem State.keyOf_aligned {s : State} {a key : Nat} (h : s.keyOf a = some key) (ha : a % 8 = 0) : key % 8 = 0 := by
  obtain ⟨p, rfl⟩ := State.keyOf_eq_mapIn h
  simp only [State.mapIn]
  omega

/-! ## A whole word of HBM -/

theorem State.devRead_word {s : State} {a key : Nat} (ha : a % 8 = 0) (hk : s.keyOf a = some key) :
    s.devRead a 8 = memRead s.hbm.bytes key 8 := by
  simp [State.devRead, granules_word ha, hk]

theorem State.devWrite_word {s : State} {a key : Nat} {bs : List Nat} (ha : a % 8 = 0) (hk : s.keyOf a = some key) (hl : bs.length = 8) :
    s.devWrite a bs = { s with hbm := s.hbm.write key bs } := by
  simp [State.devWrite, hl, granules_word ha, hk, List.take_of_length_le (Nat.le_of_eq hl)]

/-- A whole word that is written is uncorrectable no more (R314). -/
theorem HbmState.write_replaces (h : HbmState) {key w : Nat} {bs : List Nat} (hl : bs.length = 8) (hw : w ∈ (h.write key bs).bad) :
    w * 8 ≠ key := by
  simp only [HbmState.write, HbmState.replace, List.mem_filter, hl, Bool.not_eq_true', Bool.and_eq_false_iff, decide_eq_false_iff_not] at hw
  omega

/-- Two words that overlap are the same word. -/
theorem State.badKeys_word_eq_nil {s : State} {a key : Nat} (ha : a % 8 = 0) (hk : s.keyOf a = some key) (hw : ∀ w ∈ s.hbm.bad, w * 8 ≠ key) :
    s.badKeys a 8 = [] := by
  have halign := State.keyOf_aligned hk ha
  simp only [State.badKeys, granules_word ha, hk, List.flatMap_cons, List.flatMap_nil, List.append_nil, List.map_eq_nil_iff,
    List.filter_eq_nil_iff, Bool.and_eq_true, decide_eq_true_eq]
  intro w hmem
  have := hw w hmem
  omega

/-! ## The map of the regions -/

/-- The registers of a MEM partition page that place its region (R292, R293), and the count of uncorrectable words that its host met. -/
def regionFlds : List Fld :=
  [.CTRL_enable .memPart, .MEM_PART_BASE, .MEM_PART_MASK, .MEM_PART_SLICE_base_mib, .MEM_PART_SLICE_size_mib, .MEM_CNT_HOST_UE]

/-- The predicate that picks the registers of the regions. -/
def isRegionFld (f : Fld) : Bool := regionFlds.contains f

/-- Two states agree on the registers of the regions. -/
def State.SameRegions (s t : State) : Prop := Held isRegionFld (fun f i j => s.get f i j) t

theorem State.SameRegions.get {s t : State} (h : s.SameRegions t) {f : Fld} (hf : isRegionFld f = true) (i : Nat) : t.get f i = s.get f i :=
  h f i 0 hf

theorem State.SameRegions.regionOn {s t : State} (h : s.SameRegions t) (p : Nat) : t.regionOn p = s.regionOn p := by
  simp only [State.regionOn, State.isOn, h.get (f := .CTRL_enable .memPart) rfl]

theorem State.SameRegions.regionBase {s t : State} (h : s.SameRegions t) (p : Nat) : t.regionBase p = s.regionBase p := h.get rfl p

theorem State.SameRegions.regionPcs {s t : State} (h : s.SameRegions t) (p : Nat) : t.regionPcs p = s.regionPcs p := by
  simp only [State.regionPcs, h.get (f := .MEM_PART_MASK) rfl]

theorem State.SameRegions.regionSize {s t : State} (h : s.SameRegions t) (p : Nat) : t.regionSize p = s.regionSize p := by
  simp only [State.regionSize, h.regionPcs, h.get (f := .MEM_PART_SLICE_size_mib) rfl]

theorem State.SameRegions.keyOf {s t : State} (h : s.SameRegions t) (a : Nat) : t.keyOf a = s.keyOf a := by
  simp only [State.keyOf, State.regionOf, State.inRegion, State.mapIn, h.regionOn, h.regionBase, h.regionSize, h.regionPcs,
    h.get (f := .MEM_PART_SLICE_base_mib) rfl]

theorem State.SameRegions.bar2Addr {s t : State} (h : s.SameRegions t) (fn off : Nat) : t.bar2Addr fn off = s.bar2Addr fn off := by
  simp only [State.bar2Addr, h.regionOn, h.regionBase, h.regionSize]

theorem State.SameRegions.badKeys {s t : State} (h : s.SameRegions t) (hm : t.hbm = s.hbm) (a n : Nat) : t.badKeys a n = s.badKeys a n := by
  simp only [State.badKeys, h.keyOf, hm]

theorem off_isRegionFld {g : Fld} (h : regionFlds.all (fun f => f.diff g) = true) : Off isRegionFld g := fun f hf =>
  List.all_eq_true.mp h f (by simpa [isRegionFld] using hf)

theorem avoid_isRegionFld {ks : List PageKind} (h : ks.contains .memPart = false) : Avoid isRegionFld ks := by
  have hone : ∀ f, isRegionFld f = true → Avoid (oneFld f) ks := by
    intro f hf
    simp only [isRegionFld, regionFlds, List.contains_eq_mem, List.mem_cons, List.not_mem_nil, or_false, decide_eq_true_eq] at hf
    obtain rfl | rfl | rfl | rfl | rfl | rfl := hf <;> exact avoid_one h rfl
  exact ⟨fun g hg hk f hf => (hone f hf).1 g hg hk f (by simp [oneFld]), fun g hg f hf => (hone f hf).2 g hg f (by simp [oneFld])⟩

/-! ## What the counting of traffic leaves -/

section
variable {s : State} {m : Fld → Nat → Nat → Nat}

theorem State.bwRequest_regions (h : Held isRegionFld m s) (p cost : Nat) (job : Bool) : Held isRegionFld m (s.bwRequest p cost job) := by
  have hpmc : Avoid isRegionFld [.pmc] := avoid_isRegionFld rfl
  have hused := State.count_stays h .BWX_USED p 0 cost (off_isRegionFld rfl)
  unfold State.bwRequest
  split
  · exact h
  split
  · exact State.pmc_stays (State.count_stays (State.count_stays h _ _ _ _ (off_isRegionFld rfl)) _ _ _ _ (off_isRegionFld rfl)) hpmc _ _ _ _
  dsimp only
  split
  · exact State.set_stays hused _ _ _ _ (off_isRegionFld rfl)
  · exact State.count_stays hused _ _ _ _ (off_isRegionFld rfl)

/-- Traffic is counted, then each line of a partition's function is charged to it (R300). -/
theorem State.bar2Traffic_eq (s : State) (fn a n : Nat) (write : Bool) :
    s.bar2Traffic fn a n write = (if write then s.countWr a n (fnPart fn) else s.countRd a n (fnPart fn)).forEach
      (if fn = 0 then [] else runLines a n) (fun t l => t.bwRequest (fn - 1) l.2 false) := by
  by_cases h : fn = 0
  · simp only [State.bar2Traffic, fnPart, h, if_true]
    rfl
  · simp only [State.bar2Traffic, fnPart, h, if_false]

theorem State.bar2Traffic_regions (h : Held isRegionFld m s) (fn a n : Nat) (write : Bool) :
    Held isRegionFld m (s.bar2Traffic fn a n write) := by
  have hks : Avoid isRegionFld [.memPc, .pmc] := avoid_isRegionFld rfl
  have hcount : Held isRegionFld m (if write then s.countWr a n (fnPart fn) else s.countRd a n (fnPart fn)) := by
    split
    · exact State.countWr_stays h hks _ _ _
    · exact State.countRd_stays h hks _ _ _
  rw [State.bar2Traffic_eq]
  exact State.forEach_stays hcount _ fun t l ht => State.bwRequest_regions ht _ _ _

end

theorem State.forEach_hbm {α : Type} {l : List α} {g : State → α → State} (hg : ∀ t, ∀ x ∈ l, (g t x).hbm = t.hbm) (s : State) :
    (s.forEach l g).hbm = s.hbm := by
  unfold State.forEach
  induction l generalizing s with
  | nil => rfl
  | cons x l ih => rw [List.foldl_cons, ih fun t y hy => hg t y (List.mem_cons_of_mem x hy), hg s x List.mem_cons_self]

theorem State.forEach_self {α : Type} {l : List α} {g : State → α → State} (hg : ∀ t, ∀ x ∈ l, g t x = t) (s : State) : s.forEach l g = s := by
  unfold State.forEach
  induction l with
  | nil => rfl
  | cons x l ih => rw [List.foldl_cons, hg s x List.mem_cons_self, ih fun t y hy => hg t y (List.mem_cons_of_mem x hy)]

@[simp] theorem State.count_hbm (s : State) (f : Fld) (i j n : Nat) : (s.count f i j n).hbm = s.hbm := rfl

@[simp] theorem State.pmcFreezeNow_hbm (s : State) : s.pmcFreezeNow.hbm = s.hbm := by
  unfold State.pmcFreezeNow
  split <;> simp

@[simp] theorem State.pmcWrapped_hbm (s : State) (n : Nat) : (s.pmcWrapped n).hbm = s.hbm := by
  unfold State.pmcWrapped
  dsimp only
  split <;> split <;> simp

@[simp] theorem State.pmcAddTop_hbm (s : State) (n amt : Nat) : (s.pmcAddTop n amt).hbm = s.hbm := by
  unfold State.pmcAddTop
  dsimp only
  split <;> simp

@[simp] theorem State.pmcAdd_hbm (s : State) (n amt : Nat) : (s.pmcAdd n amt).hbm = s.hbm := by
  unfold State.pmcAdd
  dsimp only
  split
  · split
    · simp
    · split <;> simp
  · simp

@[simp] theorem State.pmc_hbm (s : State) (code inst amt : Nat) (part : Option Nat) : (s.pmc code inst amt part).hbm = s.hbm := by
  unfold State.pmc
  split
  · rfl
  · refine State.forEach_hbm (fun t n _ => ?_) s
    split <;> simp

@[simp] theorem State.countWr_hbm (s : State) (a n : Nat) (part : Option Nat) : (s.countWr a n part).hbm = s.hbm := by
  refine State.forEach_hbm (fun t r _ => ?_) s
  split <;> simp

@[simp] theorem State.countRd_hbm (s : State) (a n : Nat) (part : Option Nat) : (s.countRd a n part).hbm = s.hbm := by
  refine State.forEach_hbm (fun t r _ => ?_) s
  split <;> simp

@[simp] theorem State.bwRequest_hbm (s : State) (p cost : Nat) (job : Bool) : (s.bwRequest p cost job).hbm = s.hbm := by
  unfold State.bwRequest
  split
  · rfl
  split
  · simp
  dsimp only
  split <;> simp

@[simp] theorem State.bar2Traffic_hbm (s : State) (fn a n : Nat) (write : Bool) : (s.bar2Traffic fn a n write).hbm = s.hbm := by
  have hcount : (if write then s.countWr a n (fnPart fn) else s.countRd a n (fnPart fn)).hbm = s.hbm := by
    split <;> simp
  rw [State.bar2Traffic_eq]
  exact (State.forEach_hbm (fun t l _ => t.bwRequest_hbm _ _ _) _).trans hcount

/-! ## What the consumption of an uncorrectable word leaves -/

@[simp] theorem State.setBucket_hbm (s : State) (t i b : Nat) : (s.setBucket t i b).hbm = s.hbm := rfl

@[simp] theorem State.channelRetired_hbm (s : State) (t i : Nat) : (s.channelRetired t i).hbm = s.hbm := by
  simp [State.channelRetired]

@[simp] theorem State.pcRetire_hbm (s : State) (k : Nat) : (s.pcRetire k).hbm = s.hbm := by
  simp [State.pcRetire]

@[simp] theorem State.pcUpset_hbm (s : State) (k : Nat) : (s.pcUpset k).hbm = s.hbm := by
  unfold State.pcUpset
  dsimp only [State.addUpset]
  split
  · rfl
  · split <;> simp

@[simp] theorem State.ueFound_hbm (s : State) (key : Nat) (scrub : Bool) : (s.ueFound key scrub).hbm = s.hbm := by
  unfold State.ueFound
  dsimp only
  split <;> split <;> simp

@[simp] theorem State.hostUe_hbm (s : State) (fn : Nat) : (s.hostUe fn).hbm = s.hbm := by
  unfold State.hostUe
  split <;> simp

@[simp] theorem State.deny_hbm (s : State) (event fn bar off : Nat) : (s.deny event fn bar off).hbm = s.hbm := by
  unfold State.deny
  dsimp only
  split <;> simp

theorem State.deny_event (s : State) (fn bar off : Nat) {n : Nat} (hn : n < 32) : (s.deny n fn bar off).event hlkPage n = true := by
  have hraise := State.raise_event s hlkPage (fn + bar * 2 ^ 4) hn
  unfold State.deny
  dsimp only
  split
  · exact hraise
  · exact (State.event_set _ rfl _ _ _ _).trans hraise

theorem State.ueFound_hostUeCount (s : State) (key : Nat) (scrub : Bool) (i : Nat) :
    (s.ueFound key scrub).get .MEM_CNT_HOST_UE i = s.get .MEM_CNT_HOST_UE i :=
  get_of_held (State.ueFound_stays (held_self s) (avoid_one rfl rfl) key scrub) i 0

/-- A partition's host that met an uncorrectable word: the event and the count of its MEM partition page (R313). -/
theorem State.hostUe_counted (s : State) {fn : Nat} (hfn : fn ≠ 0) :
    (s.hostUe fn).event ⟨.memPart, fn - 1⟩ 0 = true ∧
    (s.hostUe fn).get .MEM_CNT_HOST_UE (fn - 1) = satAdd Fld.MEM_CNT_HOST_UE.width (s.get .MEM_CNT_HOST_UE (fn - 1)) 1 := by
  have hfits : satAdd Fld.MEM_CNT_HOST_UE.width (s.get .MEM_CNT_HOST_UE (fn - 1)) 1 < 2 ^ Fld.MEM_CNT_HOST_UE.width := by
    simp only [satAdd, show Fld.MEM_CNT_HOST_UE.width = 32 from rfl]
    omega
  simp only [State.hostUe, hfn, if_false]
  refine ⟨State.raise_event _ _ _ (by decide), ?_⟩
  rw [State.get_raise _ _ _ _ _ rfl, State.count, State.get_set_self, Nat.mod_eq_of_lt hfits]

/-! ## Writes through BAR2 -/

/-- A word of which no byte is taken is left (R42). -/
theorem State.bar2Word_untaken (s : State) (a : Nat) {bytes : List (Nat × Bool)} (h : ∀ b ∈ bytes, b.2 = false) : s.bar2Word a bytes = s := by
  have hnone : bytes.zipIdx.filter (fun b => b.1.2) = [] := by
    rw [List.filter_eq_nil_iff]
    rintro ⟨b, i⟩ hb
    simp [h b (List.fst_mem_of_mem_zipIdx hb)]
  unfold State.bar2Word
  simp only [hnone]
  split <;> rfl

/-- A word of which every byte is taken is written whole, uncorrectable or not (R314). -/
theorem State.bar2Word_whole (s : State) (a : Nat) {bytes : List (Nat × Bool)} (hl : bytes.length = 8) (h : ∀ b ∈ bytes, b.2 = true) :
    s.bar2Word a bytes = s.devWrite a (bytes.map (fun b => b.1)) := by
  have hall : bytes.zipIdx.filter (fun b => b.1.2) = bytes.zipIdx := by
    rw [List.filter_eq_self]
    rintro ⟨b, i⟩ hb
    exact h b (List.fst_mem_of_mem_zipIdx hb)
  have hwhole : (bytes.zipIdx.length == 8) = true := by simp [hl]
  have hsome : bytes.zipIdx.isEmpty = false := by
    rw [List.isEmpty_eq_false_iff, ← List.length_pos_iff, List.length_zipIdx]
    omega
  unfold State.bar2Word
  simp only [hall, hwhole, hsome, if_true, Bool.false_eq_true, if_false]
  split <;> rfl

theorem exec_bar2Write (fn : Fn) (off : Nat) (data : List Byte) (s : State) :
    exec (.bar2Write fn off data) s = .next (s.bar2Write fn off (data.map BitVec.toNat)) := rfl

theorem State.bar2Write_stopped {s : State} (h : s.stopped = true) (fn off : Nat) (data : List Nat) : s.bar2Write fn off data = s := by
  simp [State.bar2Write, h]

theorem State.keyOf_of_bar2Takes {s : State} {fn off a : Nat} (ha : s.bar2Addr fn off = some a) (ht : s.bar2Takes fn off = true) :
    ∃ key, s.keyOf a = some key := by
  simp only [State.bar2Takes, ha, Bool.and_eq_true] at ht
  rw [← Option.isSome_iff_exists, State.keyOf, Option.isSome_map]
  exact ht.1

/-- The words that a BAR2 write stores, before its traffic is counted and a denial is raised. -/
def State.bar2Store (s : State) (fn off : Nat) (data : List Nat) : State :=
  s.forEach (wordRuns off data.length) (fun t w =>
    match s.bar2Addr fn w.1 with
    | none => t
    | some a => t.bar2Word a (((data.drop (w.1 - off)).take w.2).zipIdx.map (fun b => (b.1, s.bar2Takes fn (w.1 + b.2)))))

theorem State.bar2Store_untaken {s : State} {fn off : Nat} {data : List Nat} (ht : ∀ i, i < data.length → s.bar2Takes fn (off + i) = false) :
    s.bar2Store fn off data = s := by
  refine State.forEach_self (fun t w hw => ?_) s
  split
  · rfl
  · refine State.bar2Word_untaken t _ fun b hb => ?_
    obtain ⟨⟨x, j⟩, hx, rfl⟩ := List.mem_map.mp hb
    have hj : j < w.2 := Nat.lt_of_lt_of_le (List.snd_lt_of_mem_zipIdx hx) (List.length_take_le _ _)
    obtain ⟨hlo, hhi⟩ := wordRuns_inside hw hj
    have hbyte := ht (w.1 + j - off) (by omega)
    rwa [Nat.add_sub_cancel' hlo] at hbyte

theorem State.bar2Store_whole {s : State} {fn off a : Nat} {data : List Nat} (ho : off % 8 = 0) (hl : data.length = 8)
    (ha : s.bar2Addr fn off = some a) (ht : ∀ i, i < 8 → s.bar2Takes fn (off + i) = true) : s.bar2Store fn off data = s.devWrite a data := by
  have hbytes : ∀ b ∈ data.zipIdx.map (fun b => (b.1, s.bar2Takes fn (off + b.2))), b.2 = true := by
    intro b hb
    obtain ⟨⟨x, i⟩, hx, rfl⟩ := List.mem_map.mp hb
    exact ht i (hl ▸ List.snd_lt_of_mem_zipIdx hx)
  have hdata : (data.zipIdx.map (fun b => (b.1, s.bar2Takes fn (off + b.2)))).map (fun b => b.1) = data := by
    rw [List.map_map]
    exact List.zipIdx_map_fst 0 data
  simp only [State.bar2Store, hl, wordRuns_word ho, State.forEach, List.foldl_cons, List.foldl_nil, ha, Nat.sub_self, List.drop_zero,
    List.take_of_length_le (Nat.le_of_eq hl)]
  rw [State.bar2Word_whole s a (by simp [hl]) hbytes, hdata]

/-- A write whose bytes are all taken is stored, then its traffic is counted. -/
theorem State.bar2Write_taken {s : State} {fn off a : Nat} {data : List Nat} (hlink : s.linkUp = true) (hrun : s.stopped = false)
    (hsize : off + data.length ≤ bar2Size) (ha : s.bar2Addr fn off = some a)
    (ht : ∀ i, i < data.length → s.bar2Takes fn (off + i) = true) :
    s.bar2Write fn off data = (s.bar2Store fn off data).bar2Traffic fn a (s.bar2Span fn off data.length) true := by
  have hfind : ((List.range data.length).map (fun i => off + i)).find? (fun o => !s.bar2Takes fn o) = none := by
    rw [List.find?_eq_none]
    intro o ho
    obtain ⟨i, hi, rfl⟩ := List.mem_map.mp ho
    simp [ht i (List.mem_range.mp hi)]
  simp only [State.bar2Write, hlink, hrun, Nat.not_lt.mpr hsize, Bool.not_true, Bool.or_self, decide_false, Bool.false_eq_true, if_false,
    hfind, ha]
  rfl

/-- A write with a byte that is not taken ends with a denial, and nothing but its store reaches HBM. -/
theorem State.bar2Write_denied {s : State} {fn off i : Nat} {data : List Nat} (hlink : s.linkUp = true) (hrun : s.stopped = false)
    (hsize : off + data.length ≤ bar2Size) (hi : i < data.length) (ht : s.bar2Takes fn (off + i) = false) :
    ∃ (t : State) (o : Nat), t.hbm = (s.bar2Store fn off data).hbm ∧ s.bar2Write fn off data = t.deny 0 fn 1 o := by
  obtain ⟨o, hfind⟩ : ∃ o, ((List.range data.length).map (fun i => off + i)).find? (fun o => !s.bar2Takes fn o) = some o := by
    rw [← Option.isSome_iff_exists, List.find?_isSome]
    exact ⟨off + i, List.mem_map.mpr ⟨i, List.mem_range.mpr hi, rfl⟩, by rw [ht]; rfl⟩
  simp only [State.bar2Write, hlink, hrun, Nat.not_lt.mpr hsize, Bool.not_true, Bool.or_self, decide_false, Bool.false_eq_true, if_false,
    hfind]
  refine ⟨_, o, ?_, rfl⟩
  split
  · exact State.bar2Traffic_hbm _ _ _ _ _
  · rfl

/-- What a write of a whole word that is taken leaves (R42, R314): the word reads back, is correctable, and the other bytes of HBM stay. -/
theorem State.bar2Write_word {s : State} {fn off a : Nat} {data : List Nat} (hlink : s.linkUp = true) (hrun : s.stopped = false)
    (ho : off % 8 = 0) (hsize : off + 8 ≤ bar2Size) (hl : data.length = 8) (hbyte : ∀ b ∈ data, b < 256)
    (ha : s.bar2Addr fn off = some a) (halign : a % 8 = 0) (ht : ∀ i, i < 8 → s.bar2Takes fn (off + i) = true) :
    (s.bar2Write fn off data).devRead a 8 = data ∧ (s.bar2Write fn off data).badKeys a 8 = [] ∧
    ∀ key, s.keyOf a = some key → ∀ x, (x < key ∨ key + 8 ≤ x) →
      memByte (s.bar2Write fn off data).hbm.bytes x = memByte s.hbm.bytes x := by
  obtain ⟨key, hkey⟩ : ∃ key, s.keyOf a = some key := State.keyOf_of_bar2Takes ha (ht 0 (by decide))
  have hwrite : s.bar2Write fn off data = (s.devWrite a data).bar2Traffic fn a (s.bar2Span fn off 8) true := by
    rw [State.bar2Write_taken hlink hrun (hl ▸ hsize) ha (hl ▸ ht), State.bar2Store_whole ho hl ha ht, hl]
  have hhbm : (s.bar2Write fn off data).hbm = s.hbm.write key data := by
    rw [hwrite, State.bar2Traffic_hbm, State.devWrite_word halign hkey hl]
  have hsame : s.SameRegions (s.bar2Write fn off data) := by
    rw [hwrite]
    exact State.bar2Traffic_regions (State.devWrite_stays (held_self s) (avoid_isRegionFld rfl) a data) fn a _ true
  have hkey' := (hsame.keyOf a).trans hkey
  refine ⟨?_, ?_, fun k hk x hx => ?_⟩
  · rw [State.devRead_word halign hkey', hhbm, HbmState.write, ← hl, memRead_memWrite]
    exact (List.map_congr_left fun b hb => Nat.mod_eq_of_lt (hbyte b hb)).trans (List.map_id data)
  · exact State.badKeys_word_eq_nil halign hkey' fun w hw => HbmState.write_replaces s.hbm hl (hhbm ▸ hw)
  · obtain rfl : key = k := Option.some.inj (hkey.symm.trans hk)
    rw [hhbm]
    exact memByte_memWrite_outside _ _ _ (hl ▸ hx)

/-! ## Reads through BAR2 -/

@[simp] theorem State.emit_bar2Addr (s : State) (x : Output) (fn off : Nat) : (s.emit x).bar2Addr fn off = s.bar2Addr fn off := rfl

@[simp] theorem State.emit_bar2Span (s : State) (x : Output) (fn off n : Nat) : (s.emit x).bar2Span fn off n = s.bar2Span fn off n := rfl

@[simp] theorem State.emit_badKeys (s : State) (x : Output) (a n : Nat) : (s.emit x).badKeys a n = s.badKeys a n := rfl

@[simp] theorem State.bar2Traffic_bar2Addr (s : State) (fn a n : Nat) (write : Bool) (fn' off : Nat) :
    (s.bar2Traffic fn a n write).bar2Addr fn' off = s.bar2Addr fn' off :=
  State.SameRegions.bar2Addr (State.bar2Traffic_regions (held_self s) fn a n write) fn' off

@[simp] theorem State.bar2Traffic_badKeys (s : State) (fn a n : Nat) (write : Bool) (b k : Nat) :
    (s.bar2Traffic fn a n write).badKeys b k = s.badKeys b k :=
  State.SameRegions.badKeys (State.bar2Traffic_regions (held_self s) fn a n write) (s.bar2Traffic_hbm fn a n write) b k

theorem State.bar2Traffic_hostUeCount (s : State) (fn a n : Nat) (write : Bool) (i : Nat) :
    (s.bar2Traffic fn a n write).get .MEM_CNT_HOST_UE i = s.get .MEM_CNT_HOST_UE i :=
  State.SameRegions.get (State.bar2Traffic_regions (held_self s) fn a n write) rfl i

/-- The uncorrectable words that a host read meets are consumed (R313). -/
def State.hostConsumes (s : State) (fn : Nat) (keys : List Nat) : State := s.forEach keys (fun t k => (t.ueFound k false).hostUe fn)

theorem State.hostConsumes_one (s : State) (fn k : Nat) : s.hostConsumes fn [k] = (s.ueFound k false).hostUe fn := rfl

theorem exec_bar2Read (fn : Fn) (off n : Nat) (s : State) : exec (.bar2Read fn off n) s = .next (s.bar2Read fn off n) := rfl

theorem State.bar2Read_outside {s : State} {fn off : Nat} (hlink : s.linkUp = true) (ho : off % 8 = 0) (hsize : off + 8 ≤ bar2Size)
    (ha : s.bar2Addr fn off = none) : s.bar2Read fn off 8 = s.emit (.bar2Data fn off (List.replicate 8 0)) := by
  simp only [State.bar2Read, hlink, Nat.not_lt.mpr hsize, Bool.not_true, Bool.false_eq_true, if_false, wordRuns_word ho, List.flatMap_cons,
    List.flatMap_nil, List.append_nil, State.bar2Bytes, ha, State.emit_bar2Addr, State.forEach, List.foldl_cons, List.foldl_nil]

/-- The read of a word inside the window: the data, then its traffic, then the consumption of an uncorrectable word (R313). -/
theorem State.bar2Read_word {s : State} {fn off a : Nat} (hlink : s.linkUp = true) (ho : off % 8 = 0) (hsize : off + 8 ≤ bar2Size)
    (ha : s.bar2Addr fn off = some a) :
    s.bar2Read fn off 8 = ((s.emit (.bar2Data fn off (if (s.badKeys a 8).isEmpty then s.devRead a 8 else List.replicate 8 255))).bar2Traffic fn a
      (s.bar2Span fn off 8) false).hostConsumes fn (s.badKeys a 8) := by
  simp only [State.bar2Read, hlink, Nat.not_lt.mpr hsize, Bool.not_true, Bool.false_eq_true, if_false, wordRuns_word ho, List.flatMap_cons,
    List.flatMap_nil, List.append_nil, State.bar2Bytes, ha, State.emit_bar2Addr, State.emit_bar2Span, State.bar2Traffic_bar2Addr,
    State.bar2Traffic_badKeys, State.emit_badKeys, State.hostConsumes, State.forEach, List.foldl_cons, List.foldl_nil]

theorem State.hostConsumes_hbm (s : State) (fn : Nat) (keys : List Nat) : (s.hostConsumes fn keys).hbm = s.hbm :=
  State.forEach_hbm (fun t k _ => by rw [State.hostUe_hbm, State.ueFound_hbm]) s

/-- Neither traffic nor the consumption of words takes back what was given to the outside. -/
theorem State.out_kept_by_hostConsumes (s : State) (fn a n : Nat) (write : Bool) (keys : List Nat) :
    s.out <+: ((s.bar2Traffic fn a n write).hostConsumes fn keys).out :=
  (kept_parts (State.forEach_kept (State.bar2Traffic_kept (kept_self s) fn a n write) keys fun _ k ht =>
    State.hostUe_kept (State.ueFound_kept ht k false) fn)).given

/-- What the read of a word inside the window gives, and that it leaves HBM. -/
theorem State.bar2Read_gives {s : State} {fn off a : Nat} (hlink : s.linkUp = true) (ho : off % 8 = 0) (hsize : off + 8 ≤ bar2Size)
    (ha : s.bar2Addr fn off = some a) :
    (s.out ++ [.bar2Data fn off (if (s.badKeys a 8).isEmpty then s.devRead a 8 else List.replicate 8 255)]) <+: (s.bar2Read fn off 8).out ∧
    (s.bar2Read fn off 8).hbm = s.hbm := by
  rw [State.bar2Read_word hlink ho hsize ha, ← State.emit_out]
  refine ⟨State.out_kept_by_hostConsumes _ _ _ _ _ _, ?_⟩
  rw [State.hostConsumes_hbm, State.bar2Traffic_hbm, State.emit_hbm]

/-- A partition's read of an uncorrectable word is counted for it (R313). -/
theorem State.bar2Read_counts_ue {s : State} {fn off a k : Nat} (hlink : s.linkUp = true) (ho : off % 8 = 0) (hsize : off + 8 ≤ bar2Size)
    (ha : s.bar2Addr fn off = some a) (hk : s.badKeys a 8 = [k]) (hfn : fn ≠ 0) :
    (s.bar2Read fn off 8).event ⟨.memPart, fn - 1⟩ 0 = true ∧
    (s.bar2Read fn off 8).get .MEM_CNT_HOST_UE (fn - 1) = satAdd Fld.MEM_CNT_HOST_UE.width (s.get .MEM_CNT_HOST_UE (fn - 1)) 1 := by
  rw [State.bar2Read_word hlink ho hsize ha, hk, State.hostConsumes_one]
  obtain ⟨hevent, hnumber⟩ := State.hostUe_counted (State.ueFound _ k false) hfn
  rw [State.ueFound_hostUeCount, State.bar2Traffic_hostUeCount, State.get_emit] at hnumber
  exact ⟨hevent, hnumber⟩

end Sys2Proof.Machine

section
open Sys2Proof Sys2Proof.Machine

/-- Settles O38: a whole word goes through one granule of the map, which the counting of its traffic leaves as it is. -/
theorem hostReachesItsMemory : Obligations.HostReachesItsMemory := by
  intro fn off s hlink ho hsize
  refine ⟨fun data a hrun hl ha halign ht => ?_, fun data hrun hdata hlen ht => ?_, fun data hstop => ?_, fun ha => ?_, fun a ha hbad => ?_,
    fun a k ha hbad hfn => ?_⟩
  · refine answers_of_next (exec_bar2Write fn off data s) (State.bar2Write_word hlink hrun ho hsize (by simpa using hl) ?_ ha halign ht)
    simp only [List.mem_map]
    rintro _ ⟨b, -, rfl⟩
    exact b.isLt
  · have hpos : 0 < (data.map BitVec.toNat).length := by simpa [List.length_pos_iff] using hdata
    obtain ⟨t, o, hhbm, hwrite⟩ := State.bar2Write_denied (data := data.map BitVec.toNat) hlink hrun (by simpa using hlen) hpos
      (ht 0 (by simpa using hpos))
    rw [State.bar2Store_untaken (by simpa using ht)] at hhbm
    refine answers_of_next ((exec_bar2Write fn off data s).trans (congrArg _ hwrite)) ⟨?_, State.deny_event _ _ _ _ (by decide)⟩
    rw [State.deny_hbm, hhbm]
  · rw [exec_bar2Write, State.bar2Write_stopped hstop]
  · rw [exec_bar2Read, State.bar2Read_outside hlink ho hsize ha]
    rfl
  · refine answers_of_next (exec_bar2Read fn off 8 s) ?_
    have hgives := State.bar2Read_gives hlink ho hsize ha
    rw [hbad] at hgives
    exact hgives
  · have hval : fn.val ≠ 0 := fun h => hfn (Fin.ext h)
    obtain ⟨hout, hhbm⟩ := State.bar2Read_gives hlink ho hsize ha
    rw [hbad] at hout
    exact answers_of_next (exec_bar2Read fn off 8 s) ⟨hout, hhbm, State.bar2Read_counts_ue hlink ho hsize ha hbad hval⟩
end

/-!
PROOFS. Commands that name a page outside the page map (R43), and the enables of the pages that have one of their own (R47, R566).
-/
namespace Sys2Proof.Machine

/-! ## Pages outside the map -/

theorem pageRow_absent {p : PageId} (h : p.ok = false) (t : State) : pageRow p t = .fault .noSuchInstance := by simp [pageRow, h]

/-! ## The write of CTRL.enable -/

theorem bit_enableWord (q : Bool) : bit (1 + 4 * b2n q) 0 = true ∧ bit (1 + 4 * b2n q) 1 = false ∧ bit (1 + 4 * b2n q) 2 = q := by
  cases q <;> decide

theorem State.quiesceWrite_same (s : State) (p : PageId) : s.quiesceWrite p (s.isOn (.CTRL_quiesce p.kind) p.inst) = s := by
  simp [State.quiesceWrite]

/-- A write of CTRL that sets enable and keeps quiesce is a write of enable alone. -/
theorem State.ctrlWrite_enable (s : State) (fn : Nat) (p : PageId) :
    s.ctrlWrite fn p (1 + 4 * b2n (s.isOn (.CTRL_quiesce p.kind) p.inst)) = s.enableWrite fn p true := by
  obtain ⟨henable, hreset, hquiesce⟩ := bit_enableWord (s.isOn (.CTRL_quiesce p.kind) p.inst)
  simp only [State.ctrlWrite, henable, hreset, hquiesce, Bool.false_eq_true, if_false, State.quiesceWrite_same]

theorem State.enableRow_opens {s : State} {fn : Nat} {p : PageId} (h : s.opens fn p 0x8 = true) : s.enableRow fn p = s.enableWrite fn p true := by
  rw [State.enableRow, State.hostRow_opens h]
  exact s.ctrlWrite_enable fn p

/-- An enable of a page that is on changes nothing (R47). -/
theorem State.enableRow_on {s : State} {fn : Nat} {p : PageId} (ho : s.opens fn p 0x8 = true)
    (h : s.isOn (.CTRL_enable p.kind) p.inst = true) : s.enableRow fn p = s := by
  simp [State.enableRow_opens ho, State.enableWrite, h]

theorem State.enableRow_off {s : State} {fn : Nat} {p : PageId} (ho : s.opens fn p 0x8 = true) (hown : p.kind.ownEnable = true)
    (h : s.isOn (.CTRL_enable p.kind) p.inst = false) : s.enableRow fn p = s.enableRise fn p := by
  simp [State.enableRow_opens ho, State.enableWrite, hown, h]

/-- An enable whose rise answers a code is discarded with it (R49). -/
theorem answers_enable_refused {c : Instr} {s : State} {fn x : Nat} {p : PageId} (he : exec c s = .next (s.enableRow fn p))
    (ho : s.opens fn p 0x8 = true) (hown : p.kind.ownEnable = true) (h : s.isOn (.CTRL_enable p.kind) p.inst = false)
    (hx : s.enableRise fn p = s.code p fn 0x8 x) : Answers c s (fun t => State.Refuses s t p fn 0x8 x) := by
  refine answers_of_next he ?_
  rw [State.enableRow_off ho hown h, hx]
  exact State.refuses_code _ _ _ _ _

/-! ## The codes of the checks -/

theorem State.capRefused_code {s : State} {c x : Nat} (h : s.capRefused c = some x) : x = 0x21 ∨ x = 0x22 := by
  unfold State.capRefused at h
  split at h
  · exact .inl (Option.some.inj h).symm
  split at h
  · exact .inr (Option.some.inj h).symm
  split at h
  · exact .inr (Option.some.inj h).symm
  · cases h

theorem State.capEnableCode_code {s : State} {c x : Nat} (h : s.capEnableCode c = some x) : x = 0x21 ∨ x = 0x22 := by
  unfold State.capEnableCode at h
  split at h
  · rename_i y hy
    exact Option.some.inj h ▸ State.capRefused_code hy
  split at h
  · exact .inr (Option.some.inj h).symm
  split at h
  · exact .inr (Option.some.inj h).symm
  · cases h

theorem State.lnpRefused_code {s : State} {c x : Nat} (h : s.lnpRefused c = some x) : x = 0x30 ∨ x = 0x32 := by
  unfold State.lnpRefused at h
  split at h
  · exact .inr (Option.some.inj h).symm
  split at h
  · exact .inl (Option.some.inj h).symm
  · cases h

theorem State.lnpEnableCode_code {s : State} {c x : Nat} (h : s.lnpEnableCode c = some x) : x = 0x30 ∨ x = 0x32 := by
  unfold State.lnpEnableCode at h
  split at h
  · rename_i y hy
    exact Option.some.inj h ▸ State.lnpRefused_code hy
  split at h
  · exact .inl (Option.some.inj h).symm
  · cases h

/-! ## Enables that a check refuses -/

theorem State.enableRise_capCtx {s : State} {c x : Nat} (h : s.capEnableCode c = some x) (fn : Nat) :
    s.enableRise fn (capPage c) = s.code (capPage c) fn 0x8 x := by
  simp [State.enableRise, capPage, h]

theorem State.enableRise_lnpCtx {s : State} {c x : Nat} (h : s.lnpEnableCode c = some x) (fn : Nat) :
    s.enableRise fn (lnpPage c) = s.code (lnpPage c) fn 0x8 x := by
  simp [State.enableRise, lnpPage, h]

theorem State.enableRise_atnPool {s : State} {q : Nat} (hoff : s.poolOn q = false) (h : s.poolRefused q = true) (fn : Nat) :
    s.enableRise fn (poolPage q) = s.code (poolPage q) fn 0x8 0x70 := by
  simp [State.enableRise, poolPage, State.poolEnable, hoff, h]

theorem State.enableRise_memPart {s : State} {p : Nat} (hoff : s.regionOn p = false) (h : s.regionRefused p = true) (fn : Nat) :
    s.enableRise fn ⟨.memPart, p⟩ = s.code ⟨.memPart, p⟩ fn 0x8 0x80 := by
  simp [State.enableRise, State.regionEnable, hoff, h]

theorem State.enableRise_enc {s : State} {e : Nat} (hoff : s.encOn e = false) (h : s.encRefused e = true) (fn : Nat) :
    s.enableRise fn (encPage e) = s.code (encPage e) fn 0x8 0x92 := by
  simp [State.enableRise, encPage, State.encEnable, hoff, h]

theorem State.enableRise_ejt {s : State} (hoff : s.isOn (.CTRL_enable .ejt) = false)
    (h : (List.range 8).any (fun b => s.isOn .EJT_BANK_CFG_enable 0 b) = false) (fn : Nat) :
    s.enableRise fn ejtPage = s.code ejtPage fn 0x8 0xA2 := by
  simp [State.enableRise, ejtPage, State.ejtEnable, hoff, h]

end Sys2Proof.Machine

section
open Sys2Proof Sys2Proof.Machine

/-- Settles O7: each of these commands looks its page up in the map before it does anything. -/
theorem absentPagesStop : Obligations.AbsentPagesStop := by
  intro c s fn p hp hc
  obtain rfl | rfl | rfl | rfl | rfl | ⟨m, rfl⟩ | ⟨b, k, h, rfl⟩ | ⟨q, v, rfl⟩ := hc <;> exact pageRow_absent hp _

/-- Settles O22: an enable that keeps quiesce is the rise of enable, which answers the code of the check that fails, or finds enable set. -/
theorem enablesAreChecked : Obligations.EnablesAreChecked := by
  intro fn s
  refine ⟨fun c x ho hoff hx => ⟨State.capEnableCode_code hx, ?_⟩, fun c x ho hoff hx => ⟨State.lnpEnableCode_code hx, ?_⟩,
    fun q ho hoff hx => ?_, fun p ho hoff hx => ?_, fun e ho hoff hx => ?_, fun ho hoff hx => ?_, fun c p hc ho hon => ?_⟩
  · exact answers_enable_refused rfl ho rfl hoff (State.enableRise_capCtx hx fn)
  · exact answers_enable_refused rfl ho rfl hoff (State.enableRise_lnpCtx hx fn)
  · exact answers_enable_refused rfl ho rfl hoff (State.enableRise_atnPool hoff hx fn)
  · exact answers_enable_refused rfl ho rfl hoff (State.enableRise_memPart hoff hx fn)
  · exact answers_enable_refused rfl ho rfl hoff (State.enableRise_enc hoff hx fn)
  · exact answers_enable_refused rfl ho rfl hoff (State.enableRise_ejt hoff hx fn)
  · have hrow : exec c s = .next (s.enableRow fn p) := by
      simp only [List.mem_cons, Prod.mk.injEq, List.not_mem_nil, or_false] at hc
      obtain (⟨rfl, rfl⟩ | ⟨rfl, rfl⟩) | ⟨l, rfl, rfl⟩ | ⟨x, rfl, rfl⟩ | ⟨x, rfl, rfl⟩ | ⟨q, rfl, rfl⟩ | ⟨q, rfl, rfl⟩ | ⟨e, rfl, rfl⟩ := hc <;> rfl
    rw [hrow, State.enableRow_on ho hon]
end

/-!
PROOFS. OWNER and LOCK of a page header (R54, R55).
-/
namespace Sys2Proof.Machine

/-! ## Words of OWNER and LOCK -/

theorem bits_ownerWord (q : Part) (v : Bool) : bits (q + 128 * b2n v) 2 0 = q ∧ bit (q + 128 * b2n v) 7 = v := by
  revert q v
  decide

theorem bit_stickyWord (l : Bool) : bit (2 + b2n l) 0 = l ∧ bit (2 + b2n l) 1 = true := by
  cases l <;> decide

theorem isOn_of_get_b2n {s : State} {f : Fld} {i : Nat} {b : Bool} (h : s.get f i = b2n b) : s.isOn f i = b := by
  rw [State.isOn, h]
  cases b <;> rfl

/-! ## OWNER -/

/-- The messages of a change of routes are all that it brings beside the change (R58, R59). -/
theorem State.only_rerouted (before after : State) : State.Only [] after (before.rerouted after) := by
  unfold State.rerouted State.forEach
  generalize (List.range 9).flatMap (fun fn => (List.range 14).map (fun v => (fn, v))) = l
  have key : ∀ t : State, State.Only [] after t → State.Only [] after (l.foldl (fun s x =>
      if !before.vecOr x.1 x.2 && after.vecOr x.1 x.2 then s.sendMsix x.1 x.2 else s) t) := by
    induction l with
    | nil => exact fun t ht => ht
    | cons x l ih => exact fun t ht => ih _ ((ht.trans (State.only_sendMsix _ _ _ _)).ite ht)
  exact key after (State.Only.refl _ _)

theorem State.get_rerouted (before after : State) {f : Fld} (hf : msgFlds.all (fun g => f.diff g) = true) (i j : Nat) :
    (before.rerouted after).get f i j = after.get f i j :=
  (State.only_rerouted before after).cells f i j (by simp only [untouched, outside, hf, List.all_nil, Bool.and_self])

theorem exec_ownerWrite_open {fn : Fn} {p : PageId} {s : State} (hp : p.ok = true) (ho : s.opens fn p 0x28 = true) (q : Part) (v : Bool) :
    exec (.ownerWrite fn p q v) s = .next (s.ownerSet fn p (q + 128 * b2n v)) := by
  change pageRow p (s.hostRow fn p 0x28 (q + 128 * b2n v)) = _
  rw [pageRow_ok hp, State.hostRow_opens ho]
  rfl

/-- The cells of OWNER. -/
def ownerCells (p : PageId) : List CellId := [(.OWNER_partition p.kind, p.inst, 0), (.OWNER_valid p.kind, p.inst, 0)]

/-- PF0 gives a page that can be given a new owner (R54). -/
theorem State.ownerSet_given {s : State} {p : PageId} (ha : p.kind.assignable = true) (hw : s.active p = false)
    (he : s.isOn (.CTRL_enable p.kind) p.inst = false) (q : Part) (v : Bool) :
    (s.ownerSet 0 p (q + 128 * b2n v)).get (.OWNER_partition p.kind) p.inst = q ∧
    (s.ownerSet 0 p (q + 128 * b2n v)).get (.OWNER_valid p.kind) p.inst = b2n v ∧
    State.Only (ownerCells p) s (s.ownerSet 0 p (q + 128 * b2n v)) := by
  obtain ⟨hpart, hvalid⟩ := bits_ownerWord q v
  have hset : s.ownerSet 0 p (q + 128 * b2n v) =
      s.rerouted ((s.set (.OWNER_partition p.kind) p.inst 0 q).set (.OWNER_valid p.kind) p.inst 0 (b2n v)) := by
    simp [State.ownerSet, ha, hw, he, hpart, hvalid]
  rw [hset]
  refine ⟨?_, ?_, ?_⟩
  · rw [State.get_rerouted _ _ rfl, State.get_set_other _ rfl, State.get_set_self]
    exact Nat.mod_eq_of_lt q.isLt
  · rw [State.get_rerouted _ _ rfl, State.get_set_self]
    cases v <;> rfl
  · exact (((State.Only.refl _ s).set _ (by simp [ownerCells])).set _ (by simp [ownerCells])).trans
      ((State.only_rerouted _ _).mono (by simp))

/-- Any other write of OWNER is discarded (R54). -/
theorem State.ownerSet_refused {s : State} {fn : Nat} {p : PageId}
    (h : fn ≠ 0 ∨ p.kind.assignable = false ∨ s.active p = true ∨ s.isOn (.CTRL_enable p.kind) p.inst = true) (v : Nat) :
    s.ownerSet fn p v = s.code p fn 0x28 0x04 := by
  have hbad : (fn != 0 || !p.kind.assignable || s.active p || s.isOn (.CTRL_enable p.kind) p.inst) = true := by
    obtain h | h | h | h := h <;> simp [h]
  simp only [State.ownerSet, hbad, if_true]

/-! ## LOCK -/

theorem exec_lockSticky_open {fn : Fn} {p : PageId} {s : State} (hp : p.ok = true) (ho : s.opens fn p 0x2C = true) :
    exec (.lockSticky fn p) s = .next (s.lockSet p (2 + b2n (s.isOn (.LOCK_locked p.kind) p.inst))) := by
  change pageRow p (s.hostRow fn p 0x2C (2 + b2n (s.isOn (.LOCK_locked p.kind) p.inst))) = _
  rw [pageRow_ok hp, State.hostRow_opens ho]
  rfl

/-- The cells of the two LOCK bits. -/
def lockCells (p : PageId) : List CellId := [(.LOCK_locked p.kind, p.inst, 0), (.LOCK_sticky p.kind, p.inst, 0)]

/-- A write of LOCK that sets sticky gives locked its written value and changes nothing else (R55). -/
theorem State.lockSet_sticky (s : State) (p : PageId) (l : Bool) :
    (s.lockSet p (2 + b2n l)).get (.LOCK_sticky p.kind) p.inst = 1 ∧ (s.lockSet p (2 + b2n l)).isOn (.LOCK_locked p.kind) p.inst = l ∧
    State.Only (lockCells p) s (s.lockSet p (2 + b2n l)) := by
  obtain ⟨hlocked, hsticky⟩ := bit_stickyWord l
  simp only [State.lockSet, hlocked, hsticky, if_true]
  refine ⟨?_, isOn_of_get_b2n ?_, ?_⟩
  · rw [State.get_set_self]
    rfl
  · rw [State.get_set_other _ rfl, State.get_set_self]
    cases l <;> rfl
  · exact ((State.Only.refl _ s).set _ (by simp [lockCells])).set _ (by simp [lockCells])

/-- While LOCK.sticky is set, every function's write is turned away, but for the exempt words (R55). -/
theorem State.lockDenies_of_sticky {s : State} {p : PageId} (h : s.get (.LOCK_sticky p.kind) p.inst = 1) (fn : Nat) {off : Nat}
    (ho : lockExempt off = false) : s.lockDenies fn p off = true := by
  simp [State.lockDenies, State.isOn, h, ho]

end Sys2Proof.Machine

section
open Sys2Proof Sys2Proof.Machine

/-- Settles O19: a new owner moves only interrupt messages beside OWNER, and LOCK.sticky alone makes the lock deny. -/
theorem ownersAndLocksAreSet : Obligations.OwnersAndLocksAreSet := by
  refine ⟨fun fn p q v s hp ho => ⟨?_, fun h => ?_⟩, fun fn p s hp ho => ?_⟩
  · rintro rfl ha hw he
    exact answers_of_next (exec_ownerWrite_open hp ho q v) (State.ownerSet_given ha hw he q v)
  · refine answers_of_next (exec_ownerWrite_open hp ho q v) ?_
    have hfn : fn.val ≠ 0 ∨ p.kind.assignable = false ∨ s.active p = true ∨ s.isOn (.CTRL_enable p.kind) p.inst = true :=
      h.imp_left fun hne h0 => hne (Fin.ext h0)
    rw [State.ownerSet_refused hfn]
    exact State.refuses_code _ _ _ _ _
  · obtain ⟨hsticky, hlocked, honly⟩ := s.lockSet_sticky p (s.isOn (.LOCK_locked p.kind) p.inst)
    exact answers_of_next (exec_lockSticky_open hp ho) ⟨hsticky, hlocked, fun g off => State.lockDenies_of_sticky hsticky g, honly⟩
end

/-!
PROOFS. The two releases of held commits and plan loads (R52, R186).
-/
namespace Sys2Proof.Machine

/-! ## Plan slots after an update -/

theorem getD_listMod {α : Type} {f : α → α} {d : α} (hf : f d = d) (l : List α) (i j : Nat) :
    (listMod l i f).getD j d = if j = i then f (l.getD j d) else l.getD j d := by
  induction l generalizing i j with
  | nil => simp [listMod, hf]
  | cons x l ih =>
    cases i with
    | zero => cases j <;> simp [listMod]
    | succ i =>
      cases j with
      | zero => simp [listMod]
      | succ j => simpa [listMod] using ih i j

theorem State.slotSt_modSlot {f : PlanSt → PlanSt} (hf : f {} = {}) (s : State) (p k q j : Nat) :
    (s.modSlot p k f).slotSt q j = if q = p ∧ j = k then f (s.slotSt q j) else s.slotSt q j := by
  have hslots : (s.modSlot p k f).slotSt q j = ((listMod s.cmd.slots p (fun l => listMod l k f)).getD q []).getD j {} := rfl
  rw [hslots, getD_listMod (f := fun l => listMod l k f) rfl]
  by_cases hq : q = p
  · rw [if_pos hq, getD_listMod hf]
    simp only [hq, true_and]
    rfl
  · rw [if_neg hq, if_neg fun h => hq h.1]
    rfl

/-! ## Loads -/

/-- A plan slot whose load is released. -/
def PlanSt.released (x : PlanSt) : PlanSt := { x with load := x.load.map (fun l => { l with hold := false }) }

theorem PlanSt.released_released (x : PlanSt) : x.released.released = x.released := by
  obtain ⟨a, l, u, w⟩ := x
  cases l <;> rfl

theorem State.slotSt_releaseSlots (s : State) (p : Nat) (ks : List Nat) (q j : Nat) :
    (s.forEach ks (fun s k => s.modSlot p k PlanSt.released)).slotSt q j =
      if q = p ∧ j ∈ ks then (s.slotSt q j).released else s.slotSt q j := by
  unfold State.forEach
  induction ks generalizing s with
  | nil => simp
  | cons k ks ih =>
    rw [List.foldl_cons, ih, State.slotSt_modSlot rfl]
    by_cases hq : q = p <;> by_cases hj : j = k <;> by_cases hm : j ∈ ks <;> simp [hq, hj, hm, PlanSt.released_released]

/-- A partition's release frees the loads of its eight slots (R186). -/
theorem State.slotSt_releaseLoads (s : State) (p q j : Nat) :
    (s.releaseLoads p).slotSt q j = if q = p ∧ j < 8 then (s.slotSt q j).released else s.slotSt q j := by
  have h := s.slotSt_releaseSlots p (List.range 8) q j
  simp only [List.mem_range] at h
  exact h

theorem State.slotSt_releaseAllLoads (s : State) (ps : List Nat) (q j : Nat) :
    (s.forEach ps (fun s p => s.releaseLoads p)).slotSt q j = if q ∈ ps ∧ j < 8 then (s.slotSt q j).released else s.slotSt q j := by
  unfold State.forEach
  induction ps generalizing s with
  | nil => simp
  | cons p ps ih =>
    rw [List.foldl_cons, ih, State.slotSt_releaseLoads]
    by_cases hq : q = p <;> by_cases hm : q ∈ ps <;> by_cases hj : j < 8 <;> simp [hq, hm, hj, PlanSt.released_released]

/-! ## What a release leaves -/

/-- A part of the state that every effect leaves is left by all of them. -/
theorem State.forEach_keeps {α β : Type} {l : List α} {g : State → α → State} (part : State → β)
    (hg : ∀ t, ∀ x ∈ l, part (g t x) = part t) (s : State) : part (s.forEach l g) = part s := by
  unfold State.forEach
  induction l generalizing s with
  | nil => rfl
  | cons x l ih => rw [List.foldl_cons, ih fun t y hy => hg t y (List.mem_cons_of_mem x hy), hg s x List.mem_cons_self]

@[simp] theorem State.releaseLoads_regs (s : State) (p : Nat) : (s.releaseLoads p).regs = s.regs := by
  unfold State.releaseLoads
  refine State.forEach_keeps State.regs (fun t k _ => ?_) s
  rfl

@[simp] theorem State.releaseLoads_commits (s : State) (p : Nat) : (s.releaseLoads p).commits = s.commits := by
  unfold State.releaseLoads
  refine State.forEach_keeps State.commits (fun t k _ => ?_) s
  rfl

theorem State.releaseEverything_regs (s : State) : s.releaseEverything.regs = s.regs :=
  State.forEach_keeps State.regs (fun t p _ => t.releaseLoads_regs p) _

theorem State.releaseEverything_commits (s : State) : s.releaseEverything.commits = s.commits.map (fun r => { r with released := true }) :=
  State.forEach_keeps State.commits (fun t p _ => t.releaseLoads_commits p) _

theorem State.releaseEverything_load (s : State) {p k : Nat} (hp : p < 8) (hk : k < 8) :
    (s.releaseEverything.slotSt p k).load = ((s.slotSt p k).load).map (fun l => { l with hold := false }) := by
  rw [State.releaseEverything, State.slotSt_releaseAllLoads, if_pos ⟨List.mem_range.mpr hp, hk⟩]
  rfl

theorem State.releasePart_regs (s : State) (p : Nat) : (s.releasePart p).regs = s.regs := State.releaseLoads_regs _ p

theorem State.releasePart_commits (s : State) (p : Nat) :
    (s.releasePart p).commits = s.commits.map (fun r => if s.owner r.page == some p then { r with released := true } else r) :=
  State.releaseLoads_commits _ p

theorem State.releasePart_load (s : State) (p : Nat) {k : Nat} (hk : k < 8) :
    ((s.releasePart p).slotSt p k).load = ((s.slotSt p k).load).map (fun l => { l with hold := false }) := by
  rw [State.releasePart, State.slotSt_releaseLoads, if_pos ⟨rfl, hk⟩]
  rfl

/-! ## The two commands -/

theorem exec_mgtCommitRelease_open {fn : Fn} {s : State} (ho : s.opens fn mgtPage 0x104 = true) :
    exec (.mgtCommitRelease fn) s = .next s.releaseEverything :=
  congrArg Host.Outcome.next (State.hostRow_opens ho 1)

theorem exec_cmdCommitRelease_open {fn : Fn} {q : Part} {s : State} (ho : s.opens fn (cmdPage q) 0x104 = true) :
    exec (.cmdCommitRelease fn q) s = .next (s.releasePart q) :=
  congrArg Host.Outcome.next (State.hostRow_opens ho 1)

end Sys2Proof.Machine

section
open Sys2Proof Sys2Proof.Machine

/-- Settles O18: both releases change the marks of commits and of loads, and nothing else. -/
theorem releasesFreeHeldCommits : Obligations.ReleasesFreeHeldCommits := by
  refine ⟨fun fn s ho => ?_, fun fn q s ho => ?_⟩
  · exact answers_of_next (exec_mgtCommitRelease_open ho)
      ⟨s.releaseEverything_commits, s.releaseEverything_regs, fun p k hp hk => s.releaseEverything_load hp hk⟩
  · exact answers_of_next (exec_cmdCommitRelease_open ho)
      ⟨s.releasePart_commits q, s.releasePart_regs q, fun k hk => s.releasePart_load q hk⟩
end

/-!
PROOFS. The unmasking of an MSI-X vector (R59, R409): the function's table and pending bits as registers, and what the OR of R59 reads.
-/
namespace Sys2Proof.Machine

/-! ## Table and pending bits of a function -/

/-- The register that holds the MSI-X table of a function. -/
def msixFld (fn : Nat) : Fld := if fn = 0 then .MSIX_TABLE_PF0 else .MSIX_TABLE

/-- The register that holds the pending bits of a function. -/
def pbaFld (fn : Nat) : Fld := if fn = 0 then .MSIX_PBA_PF0 else .MSIX_PBA

theorem msixFld_cases {Q : Fld → Prop} (h0 : Q .MSIX_TABLE_PF0) (h1 : Q .MSIX_TABLE) (fn : Nat) : Q (msixFld fn) := by
  unfold msixFld
  split <;> assumption

theorem pbaFld_cases {Q : Fld → Prop} (h0 : Q .MSIX_PBA_PF0) (h1 : Q .MSIX_PBA) (fn : Nat) : Q (pbaFld fn) := by
  unfold pbaFld
  split <;> assumption

theorem msixFld_diff_pbaFld (fn : Nat) : (msixFld fn).diff (pbaFld fn) = true := by
  unfold msixFld pbaFld
  split <;> rfl

theorem Fld.diff_comm (f g : Fld) : f.diff g = g.diff f := by
  simp only [Fld.diff, bne_comm]

theorem State.msixWord_eq (s : State) (fn vec w : Nat) : s.msixWord fn vec w = s.get (msixFld fn) (fn - 1) (vec * 4 + w) := by
  by_cases h : fn = 0 <;> simp [State.msixWord, msixFld, h]

theorem State.msixPba_eq (s : State) (fn : Nat) : s.msixPba fn = s.get (pbaFld fn) (fn - 1) := by
  by_cases h : fn = 0 <;> simp [State.msixPba, pbaFld, h]

theorem State.setPba_eq (s : State) (fn v : Nat) : s.setPba fn v = s.set (pbaFld fn) (fn - 1) 0 v := by
  by_cases h : fn = 0 <;> simp [State.setPba, pbaFld, h]

@[simp] theorem State.msixWord_emit (s : State) (x : Output) (fn vec w : Nat) : (s.emit x).msixWord fn vec w = s.msixWord fn vec w := rfl

@[simp] theorem State.msixPba_emit (s : State) (x : Output) (fn : Nat) : (s.emit x).msixPba fn = s.msixPba fn := rfl

theorem State.msixWord_setPba (s : State) (fn v vec w : Nat) : (s.setPba fn v).msixWord fn vec w = s.msixWord fn vec w := by
  rw [State.msixWord_eq, State.msixWord_eq, State.setPba_eq, State.get_set_other _ (msixFld_diff_pbaFld fn)]

theorem State.msixPba_setPba (s : State) (fn v : Nat) : (s.setPba fn v).msixPba fn = v % 2 ^ 64 := by
  rw [State.msixPba_eq, State.setPba_eq, State.get_set_self]
  exact congrArg (v % 2 ^ ·) (pbaFld_cases (Q := fun f => f.width = 64) rfl rfl fn)

theorem State.linkUp_setPba (s : State) (fn v : Nat) : (s.setPba fn v).linkUp = s.linkUp := by
  rw [State.setPba_eq, State.linkUp, State.linkUp, State.isOn, State.isOn,
    State.get_set_other _ (pbaFld_cases (Q := fun f => Fld.HLK_LINK_STATUS_up.diff f = true) rfl rfl fn)]

/-! ## What the OR of R59 reads -/

/-- The registers by which a page's events reach a function: its events and their enables, its owner, and the partitions of the clusters. -/
def routeFlds : List Fld :=
  [.CMD_PART_CFG_enable, .CMD_PART_CFG_class, .CMD_PART_CLU, .STATUS_retired .clu] ++
  allKinds.flatMap (fun k => [.EVT_STATUS k, .EVT_ENABLE k, .OWNER_valid k, .OWNER_partition k])

/-- The predicate that picks the registers of the routes. -/
def isRouteFld (f : Fld) : Bool := routeFlds.contains f

theorem off_isRouteFld {g : Fld} (h : routeFlds.all (fun f => f.diff g) = true) : Off isRouteFld g := fun f hf =>
  List.all_eq_true.mp h f (by simpa [isRouteFld] using hf)

/-- Two states agree on the registers of the routes. -/
def State.SameRoutes (s t : State) : Prop := Held isRouteFld (fun f i j => s.get f i j) t

theorem isRouteFld_page {k : PageKind} {f : Fld} (hf : f ∈ [Fld.EVT_STATUS k, .EVT_ENABLE k, .OWNER_valid k, .OWNER_partition k]) :
    isRouteFld f = true := by
  simp only [isRouteFld, routeFlds, List.contains_eq_mem, List.mem_append, List.mem_flatMap, decide_eq_true_eq]
  exact .inr ⟨k, mem_allKinds k, hf⟩

theorem State.SameRoutes.evtPending {s t : State} (h : s.SameRoutes t) (p : PageId) : t.evtPending p = s.evtPending p := by
  have hstatus : ∀ k i, t.get (.EVT_STATUS k) i = s.get (.EVT_STATUS k) i := fun k i => h _ i 0 (isRouteFld_page (k := k) (by simp))
  have henable : ∀ k i, t.get (.EVT_ENABLE k) i = s.get (.EVT_ENABLE k) i := fun k i => h _ i 0 (isRouteFld_page (k := k) (by simp))
  simp only [State.evtPending, hstatus, henable]

/-- The classes and cluster sets of the partitions place every cluster (R410). -/
theorem State.SameRoutes.partClu {s t : State} (h : s.SameRoutes t) (hz : t.fuses = s.fuses) (p : Nat) : t.partClu p = s.partClu p := by
  have hexists : ∀ p, t.partExists p = s.partExists p := fun p => congrArg (· != 0) (h .CMD_PART_CFG_enable 0 p (by decide))
  have hbe : ∀ p, t.partIsBe p = s.partIsBe p := fun p => congrArg (· != 0) (h .CMD_PART_CFG_class 0 p (by decide))
  have hset : ∀ p, t.get .CMD_PART_CLU 0 p = s.get .CMD_PART_CLU 0 p := fun p => h _ 0 p (by decide)
  have hretired : ∀ k, t.cluRetired k = s.cluRetired k := fun k => congrArg (· != 0) (h (.STATUS_retired .clu) k 0 (by decide))
  have hlc : t.lcClusters = s.lcClusters := by simp only [State.lcClusters, hexists, hbe, hset]
  have hbeSet : t.beClusters = s.beClusters := by
    simp only [State.beClusters, State.physOf, State.enabledClu, State.cluDisabled, hz, hlc, hretired]
  simp only [State.partClu, hexists, hbe, hset, hbeSet]

theorem State.SameRoutes.cluPart {s t : State} (h : s.SameRoutes t) (hz : t.fuses = s.fuses) (k : Nat) : t.cluPart k = s.cluPart k := by
  simp only [State.cluPart, State.logicalOf, State.enabledClu, State.cluDisabled, hz, h.partClu hz]

theorem State.SameRoutes.owner {s t : State} (h : s.SameRoutes t) (hz : t.fuses = s.fuses) (p : PageId) : t.owner p = s.owner p := by
  have hvalid : ∀ k i, t.get (.OWNER_valid k) i = s.get (.OWNER_valid k) i := fun k i => h _ i 0 (isRouteFld_page (k := k) (by simp))
  have hpart : ∀ k i, t.get (.OWNER_partition k) i = s.get (.OWNER_partition k) i := fun k i => h _ i 0 (isRouteFld_page (k := k) (by simp))
  simp only [State.owner, State.isOn, h.cluPart hz, hvalid, hpart] <;> rfl

/-- The OR of R59 depends on the registers of the routes and the fuses alone. -/
theorem State.SameRoutes.vecOr {s t : State} (h : s.SameRoutes t) (hz : t.fuses = s.fuses) (fn vec : Nat) : t.vecOr fn vec = s.vecOr fn vec := by
  simp only [State.vecOr, State.route, h.evtPending, h.owner hz]

/-- Writes of the table and of the pending bits of a function move no route. -/
theorem State.SameRoutes.msix {s t : State} (h : s.SameRoutes t) (fn i j v : Nat) : s.SameRoutes (t.set (msixFld fn) i j v) :=
  State.set_stays h _ _ _ _ (msixFld_cases (Q := Off isRouteFld) (off_isRouteFld (by decide)) (off_isRouteFld (by decide)) fn)

theorem State.SameRoutes.setPba {s t : State} (h : s.SameRoutes t) (fn v : Nat) : s.SameRoutes (t.setPba fn v) := by
  rw [State.setPba_eq]
  exact State.set_stays h _ _ _ _ (pbaFld_cases (Q := Off isRouteFld) (off_isRouteFld (by decide)) (off_isRouteFld (by decide)) fn)

/-! ## The write of a control word -/

/-- The offset past the words of a field. -/
def Fld.past (f : Fld) : Nat := f.off + if f.stride = 0 then 4 * ((f.lo + f.width + 31) / 32) else f.count * f.stride

/-- Does a field have no word between two offsets? -/
def Fld.apart (lo hi : Nat) (f : Fld) : Bool := hi ≤ f.off || f.past ≤ lo

theorem fieldsAt_cons (f : Fld) (l : List Fld) (woff : Nat) : fieldsAt (f :: l) woff = fieldsAt [f] woff ++ fieldsAt l woff := by
  simp [fieldsAt]

theorem fieldsAt_append (a b : List Fld) (woff : Nat) : fieldsAt (a ++ b) woff = fieldsAt a woff ++ fieldsAt b woff := by
  simp [fieldsAt]

theorem fieldsAt_one_apart {f : Fld} {lo hi woff : Nat} (h : f.apart lo hi = true) (hlo : lo ≤ woff) (hhi : woff < hi) :
    fieldsAt [f] woff = [] := by
  simp only [Fld.apart, Bool.or_eq_true, decide_eq_true_eq] at h
  by_cases hs : f.stride = 0
  · simp only [Fld.past, hs, if_true] at h
    have hout : ¬ (f.off ≤ woff ∧ woff < f.off + 4 * ((f.lo + f.width + 31) / 32)) := by omega
    simp [fieldsAt, hs, hout]
  · simp only [Fld.past, hs, if_false] at h
    have hout : ¬ (f.off ≤ woff ∧ (woff - f.off) / f.stride < f.count) := by
      rintro ⟨hoff, hj⟩
      have := (Nat.div_lt_iff_lt_mul (Nat.pos_of_ne_zero hs)).mp hj
      omega
    have hcond : ∀ c : Prop, ¬ ((f.off ≤ woff ∧ (woff - f.off) / f.stride < f.count) ∧ c) := fun c h => hout h.1
    simp [fieldsAt, hs, hcond]

theorem fieldsAt_apart {l : List Fld} {lo hi woff : Nat} (h : l.all (Fld.apart lo hi) = true) (hlo : lo ≤ woff) (hhi : woff < hi) :
    fieldsAt l woff = [] := by
  induction l with
  | nil => rfl
  | cons f l ih =>
    obtain ⟨hf, hl⟩ := (Bool.and_eq_true _ _).mp (List.all_cons ▸ h)
    rw [fieldsAt_cons, fieldsAt_one_apart hf hlo hhi, ih hl, List.append_nil]

/-- Where every 64-bit register lies elsewhere, a word is none of theirs. -/
theorem wide64_apart {l : List Fld} {lo hi woff : Nat}
    (h : (l.filter (fun f => f.lo == 0 && 32 < f.width && f.width ≤ 64)).all (Fld.apart lo hi) = true) (hlo : lo ≤ woff) (hhi : woff < hi) :
    wide64 l woff = none := by
  have hnone : l.flatMap (fun f => if f.lo == 0 && 32 < f.width && f.width ≤ 64 then fieldsAt [f] woff else []) = [] := by
    rw [List.flatMap_eq_nil_iff]
    intro f hf
    split
    · rename_i hwide
      exact fieldsAt_one_apart (List.all_eq_true.mp h f (List.mem_filter.mpr ⟨hf, hwide⟩)) hlo hhi
    · rfl
  rw [wide64, hnone]
  rfl

/-- A word of an array of 32-bit registers is one element of it. -/
theorem fieldsAt_array {f : Fld} {j : Nat} (hs : f.stride = 4) (hj : j < f.count) (hlo : f.lo = 0) (hw : f.width = 32) :
    fieldsAt [f] (f.off + j * 4) = [(f, j)] := by
  simp [fieldsAt, hs, hj, hlo, hw, Fld.word]

/-- The control word of a vector is one plain register of the CMD page (R409). -/
theorem cmdFlds_control (v : Vec) : fieldsAt (blockFlds .cmd) (0x800 + v * 16 + 12) = [(Fld.MSIX_TABLE_PF0, v.val * 4 + 3)] ∧
    wide64 ((blockFlds .cmd).filter Fld.plain) (0x800 + v * 16 + 12) = none := by
  have hv := v.isLt
  have hoff : 0x800 + v.val * 16 + 12 = Fld.MSIX_TABLE_PF0.off + (v.val * 4 + 3) * 4 := by
    simp only [Fld.MSIX_TABLE_PF0]
    omega
  have hsplit : blockFlds .cmd = cmdFlds.take 9 ++ .MSIX_TABLE_PF0 :: [.MSIX_PBA_PF0] := rfl
  refine ⟨?_, wide64_apart (lo := 0x800) (hi := 0xC00) (by decide) (by omega) (by omega)⟩
  rw [hsplit, fieldsAt_append, fieldsAt_cons, fieldsAt_apart (lo := 0x800) (hi := 0xC00) (by decide) (by omega) (by omega),
    fieldsAt_apart (l := [Fld.MSIX_PBA_PF0]) (lo := 0x800) (hi := 0xC00) (by decide) (by omega) (by omega), hoff]
  exact (List.append_nil _).trans (fieldsAt_array rfl (by simp only [Fld.MSIX_TABLE_PF0]; omega) rfl rfl)

/-- The control word of a vector is one plain register of a CMD partition page (R409). -/
theorem cmdPartFlds_control (v : Vec) : fieldsAt (blockFlds .cmdPart) (0xB00 + v * 16 + 12) = [(Fld.MSIX_TABLE, v.val * 4 + 3)] ∧
    wide64 ((blockFlds .cmdPart).filter Fld.plain) (0xB00 + v * 16 + 12) = none := by
  have hv := v.isLt
  have hoff : 0xB00 + v.val * 16 + 12 = Fld.MSIX_TABLE.off + (v.val * 4 + 3) * 4 := by
    simp only [Fld.MSIX_TABLE]
    omega
  have hsplit : blockFlds .cmdPart = cmdPartFlds.take 59 ++ .MSIX_TABLE :: [.MSIX_PBA] := rfl
  refine ⟨?_, wide64_apart (lo := 0xB00) (hi := 0xF00) (by decide) (by omega) (by omega)⟩
  rw [hsplit, fieldsAt_append, fieldsAt_cons, fieldsAt_apart (lo := 0xB00) (hi := 0xF00) (by decide) (by omega) (by omega),
    fieldsAt_apart (l := [Fld.MSIX_PBA]) (lo := 0xB00) (hi := 0xF00) (by decide) (by omega) (by omega), hoff]
  exact (List.append_nil _).trans (fieldsAt_array rfl (by simp only [Fld.MSIX_TABLE]; omega) rfl rfl)

theorem inArray_at {woff base stride count j r : Nat} (hw : woff = base + j * stride + r) (hr : r < stride) (hj : j < count) :
    inArray woff base stride count = some (j, r) := by
  subst hw
  have hmul : (j + 1) * stride ≤ count * stride := Nat.mul_le_mul_right _ hj
  have hsub : base + j * stride + r - base = r + j * stride := by omega
  have hin : (base ≤ base + j * stride + r ∧ base + j * stride + r < base + stride * count) := by
    rw [Nat.mul_comm stride count]
    rw [Nat.add_mul, Nat.one_mul] at hmul
    omega
  simp only [inArray, hin, decide_true, Bool.and_self, if_true, hsub, Option.some.injEq, Prod.mk.injEq]
  exact ⟨by rw [Nat.add_mul_div_right _ _ (Nat.zero_lt_of_lt hr), Nat.div_eq_of_lt hr, Nat.zero_add],
    by rw [Nat.add_mul_mod_self_right, Nat.mod_eq_of_lt hr]⟩

theorem inArray_past {woff base stride count : Nat} (h : base + stride * count ≤ woff) : inArray woff base stride count = none := by
  simp only [inArray, Nat.not_lt.mpr h, decide_false, Bool.and_false, Bool.false_eq_true, if_false]

theorem State.set_mod (s : State) (f : Fld) (i j v : Nat) : s.set f i j (v % 2 ^ f.width) = s.set f i j v := by
  simp only [State.set, Nat.mod_mod]

/-- A word that is one plain register takes the value written (R10). -/
theorem State.regWord_one {p : PageId} {woff j : Nat} {f : Fld} (hp : p.kind ≠ .cap)
    (hw : wide64 ((blockFlds p.kind).filter Fld.plain) woff = none) (hf : fieldsAt (blockFlds p.kind) woff = [(f, j)])
    (hacc : f.acc = .rw) (hrng : f.rng = []) (hlo : f.lo = 0) (hwidth : f.width = 32) (s : State) (v : Nat) :
    s.regWord p woff v = s.set f p.inst j v := by
  have horigin : originPair p woff = none := by simp [originPair, hp]
  have hv : mergeWord f j (s.get f p.inst j) woff v = v % 2 ^ f.width := by
    simp [mergeWord, hlo, hwidth, bits]
  have haccepts : f.accepts (v % 2 ^ f.width) = true := by simp [Fld.accepts, hrng]
  simp only [State.regWord, horigin, hw, State.plainWrite, hf, State.forEach, List.foldl_cons, List.foldl_nil, State.writeFld, hacc, hv,
    haccepts, if_true, State.set_mod]

/-- A control word of PF0's table: the table takes it, then the vector's pending message is looked at. -/
theorem State.cmdWord_control (s : State) (v : Vec) (x : Nat) :
    s.cmdWord 0 (0x800 + v * 16 + 12) x = (s.set .MSIX_TABLE_PF0 0 (v * 4 + 3) x).unmasked 0 v := by
  obtain ⟨hfield, hwide⟩ := cmdFlds_control v
  have hv := v.isLt
  have hentry : (v.val * 4 + 3) / 4 = v := by omega
  have hpart : inArray (0x800 + v * 16 + 12) 0x100 0x20 8 = none := inArray_past (by omega)
  have htable : inArray (0x800 + v * 16 + 12) 0x800 4 256 = some (v.val * 4 + 3, 0) := inArray_at (by omega) (by decide) (by omega)
  have hreg : s.regWord cmdGlobal (0x800 + v * 16 + 12) x = s.set .MSIX_TABLE_PF0 0 (v * 4 + 3) x :=
    State.regWord_one (p := cmdGlobal) (by decide) hwide hfield rfl rfl rfl rfl s x
  simp only [State.cmdWord, hpart, htable, State.msixTableWord, hreg, hentry]

/-- A control word of a partition function's table. -/
theorem State.cmdPartWord_control (s : State) (q : Nat) (v : Vec) (x : Nat) :
    s.cmdPartWord (q + 1) q (0xB00 + v * 16 + 12) x = (s.set .MSIX_TABLE q (v * 4 + 3) x).unmasked (q + 1) v := by
  obtain ⟨hfield, hwide⟩ := cmdPartFlds_control v
  have hv := v.isLt
  obtain ⟨off, hoff⟩ : ∃ off, off = 0xB00 + v.val * 16 + 12 := ⟨_, rfl⟩
  have hentry : (v.val * 4 + 3) / 4 = v := by omega
  have hslot : inArray off 0x200 0x40 8 = none := inArray_past (by omega)
  have hsq : inArray off 0x400 0x20 16 = none := inArray_past (by omega)
  have hcq : inArray off 0x600 0x20 32 = none := inArray_past (by omega)
  have htable : inArray off 0xB00 4 256 = some (v.val * 4 + 3, 0) := inArray_at (by omega) (by decide) (by omega)
  have hreg : s.regWord (cmdPage q) off x = s.set .MSIX_TABLE q (v * 4 + 3) x := by
    rw [hoff]
    exact State.regWord_one (p := cmdPage q) (by simp [cmdPage]) hwide hfield rfl rfl rfl rfl s x
  have hother : off ≠ 0x104 ∧ off ≠ 0x12C ∧ off ≠ 0x140 ∧ off ≠ 0x144 ∧ off ≠ 0x148 := by omega
  obtain ⟨hrelease, hclear, hlow, hhigh, hdig⟩ := hother
  rw [← hoff]
  simp only [State.cmdPartWord, hrelease, hclear, hlow, hhigh, hdig, if_false, Bool.or_self, decide_false, Bool.false_eq_true, hslot, hsq, hcq,
    htable, BEq.rfl, if_true, State.msixTableWord, hreg, hentry]

theorem State.blockWord_msixControl (s : State) (fn : Nat) (v : Vec) (x : Nat) :
    s.blockWord fn (msixControl fn v).1 (msixControl fn v).2 x = (s.set (msixFld fn) (fn - 1) (v * 4 + 3) x).unmasked fn v := by
  cases fn with
  | zero => exact s.cmdWord_control v x
  | succ q => exact s.cmdPartWord_control q v x

theorem msixControl_block (fn : Nat) (v : Vec) : ¬ (msixControl fn v).2 < 0x100 := by
  unfold msixControl
  split <;> simp only <;> omega

/-- The table entry of a vector with its mask bit cleared. -/
def State.maskCleared (s : State) (fn : Nat) (v : Vec) : State := s.set (msixFld fn) (fn - 1) (v * 4 + 3) (s.msixWord fn v 3 / 2 * 2)

theorem exec_msixUnmask_open {fn : Fn} {v : Vec} {s : State} (ho : s.opens fn (msixControl fn v).1 (msixControl fn v).2 = true) :
    exec (.msixUnmask fn v) s = .next ((s.maskCleared fn v).unmasked fn v) := by
  refine congrArg Host.Outcome.next ((State.hostRow_opens ho _).trans ?_)
  rw [if_neg (msixControl_block fn v), State.blockWord_msixControl]
  rfl

/-! ## What clearing the mask bit leaves -/

theorem State.maskCleared_mask (s : State) (fn : Nat) (v : Vec) : bit ((s.maskCleared fn v).msixWord fn v 3) 0 = false := by
  have hwidth : 0 < (msixFld fn).width := msixFld_cases (Q := fun f => 0 < f.width) (by decide) (by decide) fn
  rw [State.msixWord_eq, State.maskCleared, State.get_set_self, bit_mod hwidth]
  simp [bit]

theorem State.maskCleared_word (s : State) (fn : Nat) (v : Vec) {w : Nat} (hw : w ≠ 3) :
    (s.maskCleared fn v).msixWord fn v w = s.msixWord fn v w := by
  rw [State.msixWord_eq, State.msixWord_eq]
  exact State.get_set_elem _ _ _ _ _ (by omega) _

theorem State.maskCleared_pba (s : State) (fn : Nat) (v : Vec) : (s.maskCleared fn v).msixPba fn = s.msixPba fn := by
  rw [State.msixPba_eq, State.msixPba_eq]
  exact State.get_set_other _ ((Fld.diff_comm _ _).trans (msixFld_diff_pbaFld fn)) _ _ _ _ _

theorem State.maskCleared_linkUp (s : State) (fn : Nat) (v : Vec) : (s.maskCleared fn v).linkUp = s.linkUp := by
  simp only [State.linkUp, State.isOn, State.maskCleared]
  rw [State.get_set_other _ (msixFld_cases (Q := fun f => Fld.HLK_LINK_STATUS_up.diff f = true) rfl rfl fn)]

theorem State.maskCleared_vecOr (s : State) (fn : Nat) (v : Vec) (n vec : Nat) : (s.maskCleared fn v).vecOr n vec = s.vecOr n vec :=
  State.SameRoutes.vecOr (State.SameRoutes.msix (held_self s) fn _ _ _) rfl n vec

/-! ## A vector that is not masked -/

theorem bit_putBit_false (v n : Nat) : bit (putBit v n false) n = false := by
  have hform : putBit v n false = v % 2 ^ n + v >>> (n + 1) * 2 * 2 ^ n := by
    simp only [putBit, putBits, b2n, Bool.false_eq_true, if_false, Nat.zero_mod, Nat.zero_mul, Nat.add_zero, Nat.pow_succ]
    rw [Nat.mul_assoc, Nat.mul_comm 2]
  rw [hform, bit, Nat.shiftRight_eq_div_pow, Nat.add_mul_div_right _ _ (Nat.two_pow_pos n), Nat.div_eq_of_lt (Nat.mod_lt _ (Nat.two_pow_pos n))]
  simp

theorem State.unmasked_idle {s : State} {fn vec : Nat} (h : bit (s.msixPba fn) vec = false) : s.unmasked fn vec = s := by
  simp [State.unmasked, h]

/-- The message that the table of a function spells for a vector (R59). -/
def State.vecMsg (s : State) (fn vec : Nat) : Output :=
  .msix fn vec (s.msixWord fn vec 0 + 2 ^ 32 * s.msixWord fn vec 1) (s.msixWord fn vec 2)

theorem State.sendMsix_open {s : State} {fn vec : Nat} (hm : bit (s.msixWord fn vec 3) 0 = false) (hl : s.linkUp = true) :
    s.sendMsix fn vec = s.emit (s.vecMsg fn vec) := by
  simp only [State.sendMsix, hm, Bool.false_eq_true, if_false, State.hostOut, hl, if_true]
  rfl

/-- A pending message of a vector that is not masked: its bit clears, and it is sent unless its OR has fallen (R59). -/
theorem State.unmasked_pending {s : State} {fn vec : Nat} (hp : bit (s.msixPba fn) vec = true) (hm : bit (s.msixWord fn vec 3) 0 = false)
    (hl : s.linkUp = true) : s.unmasked fn vec =
      if vec < 32 ∧ s.vecOr fn vec = false then s.setPba fn (putBit (s.msixPba fn) vec false)
      else (s.setPba fn (putBit (s.msixPba fn) vec false)).emit (s.vecMsg fn vec) := by
  have hor : (s.setPba fn (putBit (s.msixPba fn) vec false)).vecOr fn vec = s.vecOr fn vec :=
    State.SameRoutes.vecOr (State.SameRoutes.setPba (held_self s) fn _) (by rw [State.setPba_eq]; rfl) fn vec
  have hsend : (s.setPba fn (putBit (s.msixPba fn) vec false)).sendMsix fn vec =
      (s.setPba fn (putBit (s.msixPba fn) vec false)).emit (s.vecMsg fn vec) := by
    rw [State.sendMsix_open (by rw [State.msixWord_setPba, hm]) (by rw [State.linkUp_setPba, hl])]
    simp only [State.vecMsg, State.msixWord_setPba]
  simp only [State.unmasked, hp, hm, Bool.not_true, Bool.or_self, Bool.false_eq_true, if_false, hor, hsend, Bool.and_eq_true,
    decide_eq_true_eq, Bool.not_eq_true']

/-- What looking at a vector that is not masked leaves of its table entry, its pending bit and the outputs. -/
theorem State.unmasked_gives {s : State} {fn : Nat} {v : Vec} (hm : bit (s.msixWord fn v 3) 0 = false) (hl : s.linkUp = true) :
    bit ((s.unmasked fn v).msixWord fn v 3) 0 = false ∧
    (bit (s.msixPba fn) v = false → (s.unmasked fn v).out = s.out ∧ (s.unmasked fn v).msixPba fn = s.msixPba fn) ∧
    (bit (s.msixPba fn) v = true → bit ((s.unmasked fn v).msixPba fn) v = false ∧
      ((32 ≤ v.val ∨ s.vecOr fn v = true) → (s.unmasked fn v).out = s.out ++ [s.vecMsg fn v]) ∧
      (v.val < 32 → s.vecOr fn v = false → (s.unmasked fn v).out = s.out)) := by
  have hout : (s.setPba fn (putBit (s.msixPba fn) v false)).out = s.out := by rw [State.setPba_eq]; rfl
  have hpba : bit ((s.setPba fn (putBit (s.msixPba fn) v false)).msixPba fn) v = false := by
    rw [State.msixPba_setPba, bit_mod v.isLt, bit_putBit_false]
  cases hp : bit (s.msixPba fn) v with
  | false =>
    rw [State.unmasked_idle hp]
    exact ⟨hm, fun _ => ⟨rfl, rfl⟩, nofun⟩
  | true =>
    rw [State.unmasked_pending hp hm hl]
    by_cases hfallen : v.val < 32 ∧ s.vecOr fn v = false
    · rw [if_pos hfallen, State.msixWord_setPba]
      refine ⟨hm, nofun, fun _ => ⟨hpba, fun h => ?_, fun _ _ => hout⟩⟩
      obtain ⟨hlow, hor⟩ := hfallen
      obtain h | h := h
      · omega
      · rw [hor] at h
        cases h
    · rw [if_neg hfallen, State.msixWord_emit, State.msixWord_setPba, State.msixPba_emit, State.emit_out, hout]
      exact ⟨hm, nofun, fun _ => ⟨hpba, fun _ => rfl, fun hlow hor => absurd ⟨hlow, hor⟩ hfallen⟩⟩

end Sys2Proof.Machine

section
open Sys2Proof Sys2Proof.Machine

/-- Settles O20: the control word is one register of the function's table, and neither it nor the pending bits are read by the OR of R59. -/
theorem msixUnmaskSendsThePending : Obligations.MsixUnmaskSendsThePending := by
  intro fn v s ho hlink
  have hgives := State.unmasked_gives (s.maskCleared_mask fn v) ((s.maskCleared_linkUp fn v).trans hlink)
  have hmsg : (s.maskCleared fn v).vecMsg fn v = s.vecMsg fn v := by
    simp only [State.vecMsg, s.maskCleared_word fn v (w := 0) (by decide), s.maskCleared_word fn v (w := 1) (by decide),
      s.maskCleared_word fn v (w := 2) (by decide)]
  rw [s.maskCleared_pba, s.maskCleared_vecOr, hmsg] at hgives
  exact answers_of_next (exec_msixUnmask_open ho) hgives
end

/-!
PROOFS. A commit at its boundary (R50 to R53): the captured values become active together, and the block's own effects reach none of them.
-/
namespace Sys2Proof.Machine

/-! ## The registers that a commit gives -/

/-- The shadowed registers of a kind of page (R50). -/
def shadowedFlds (k : PageKind) : List Fld := (blockFlds k).filter (fun f => f.acc == .rws)

/-- The registers that hold the effect of a commit on a kind of page: GEN, and the shadowed registers. EJT is left out of the second, since no
claim speaks of its values. -/
def commitFlds (k : PageKind) : List Fld := .GEN k :: if k = .ejt then [] else shadowedFlds k

/-- The predicate that picks the registers of a commit. -/
def isCommitFld (k : PageKind) (f : Fld) : Bool := (commitFlds k).contains f

theorem isCommitFld_gen (k : PageKind) : isCommitFld k (.GEN k) = true := by simp [isCommitFld, commitFlds]

theorem isCommitFld_shadowed {k : PageKind} (hk : k ≠ .ejt) {f : Fld} (hf : f ∈ shadowedFlds k) : isCommitFld k f = true := by
  simp [isCommitFld, commitFlds, hk, hf]

theorem mem_shadowed {p : PageId} {f : Fld} {j : Nat} : (f, j) ∈ shadowed p ↔ f ∈ shadowedFlds p.kind ∧ j < f.count := by
  simp only [shadowed, shadowedFlds, List.mem_flatMap, List.mem_map, List.mem_range, Prod.mk.injEq]
  constructor
  · rintro ⟨g, hg, i, hi, rfl, rfl⟩
    exact ⟨hg, hi⟩
  · rintro ⟨hf, hj⟩
    exact ⟨f, hf, j, hj, rfl, rfl⟩

theorem off_isCommitFld {k : PageKind} {g : Fld} (h : (commitFlds k).all (fun f => f.diff g) = true) : Off (isCommitFld k) g := fun f hf =>
  List.all_eq_true.mp h f (by simpa [isCommitFld] using hf)

theorem avoid_isCommitFld {k : PageKind} {ks : List PageKind}
    (h : (commitFlds k).all (fun f => f.calm || !ks.contains f.kind && msgFlds.all (fun g => f.diff g)) = true) : Avoid (isCommitFld k) ks := by
  have hone : ∀ f, isCommitFld k f = true → Avoid (oneFld f) ks := by
    intro f hf
    have hcheck := List.all_eq_true.mp h f (by simpa [isCommitFld] using hf)
    simp only [Bool.or_eq_true, Bool.and_eq_true, Bool.not_eq_true'] at hcheck
    obtain hcalm | ⟨hkind, hmsg⟩ := hcheck
    · exact avoid_calm_one hcalm ks
    · exact avoid_one hkind hmsg
  exact ⟨fun g hg hk f hf => (hone f hf).1 g hg hk f (by simp [oneFld]), fun g hg f hf => (hone f hf).2 g hg f (by simp [oneFld])⟩

/-! ## The captured values -/

/-- No two shadowed registers of a page share a cell, and none lies in a page header. -/
theorem shadowedFlds_apart (k : PageKind) : (shadowedFlds k).Pairwise (fun f g => f.diff g = true) ∧ ∀ f ∈ shadowedFlds k, f.diff (.GEN k) = true := by
  cases k <;> decide

theorem shadowed_keys (p : PageId) : (shadowed p).Pairwise (fun a b => a.1.key p.inst a.2 ≠ b.1.key p.inst b.2) := by
  rw [shadowed, List.pairwise_flatMap]
  refine ⟨fun f _ => ?_, (shadowedFlds_apart p.kind).1.imp fun hd a ha b hb => ?_⟩
  · rw [List.pairwise_map]
    exact List.pairwise_lt_range.imp fun hlt heq => by
      simp only [Fld.key, RegKey.mk.injEq] at heq
      omega
  · obtain ⟨i, -, rfl⟩ := List.mem_map.mp ha
    obtain ⟨j, -, rfl⟩ := List.mem_map.mp hb
    exact Fld.key_ne hd _ _ _ _

/-- The write of one captured value. -/
def State.putVal (r : CommitRec) (s : State) (fj : Fld × Nat) : State := s.set fj.1 r.page.inst fj.2 (s.newVal r fj.1 fj.2)

theorem State.putVals_eq (s : State) (r : CommitRec) : s.putVals r = (shadowed r.page).foldl (State.putVal r) s := rfl

theorem State.get_putVal_key {r : CommitRec} {f g : Fld} {i j l : Nat} (h : f.key i j ≠ g.key r.page.inst l) (s : State) :
    (State.putVal r s (g, l)).get f i j = s.get f i j := State.get_set_key s _ h

theorem State.newVal_congr {s t : State} {r : CommitRec} {f : Fld} {j : Nat} (h : t.get f r.page.inst j = s.get f r.page.inst j) :
    t.newVal r f j = s.newVal r f j := by
  simp only [State.newVal, h]

/-- Writes of captured values to other cells leave a cell. -/
theorem State.get_putVals_other {r : CommitRec} {f : Fld} {i j : Nat} {l : List (Fld × Nat)} (h : ∀ gl ∈ l, f.key i j ≠ gl.1.key r.page.inst gl.2)
    (s : State) : (l.foldl (State.putVal r) s).get f i j = s.get f i j := by
  induction l generalizing s with
  | nil => rfl
  | cons gl l ih =>
    rw [List.foldl_cons, ih fun x hx => h x (List.mem_cons_of_mem _ hx)]
    exact State.get_putVal_key (h gl List.mem_cons_self) s

/-- Captured values written to cells of their own: each cell takes its value, cut to its width. -/
theorem State.get_putVals_self {r : CommitRec} {l : List (Fld × Nat)}
    (hl : l.Pairwise (fun a b => a.1.key r.page.inst a.2 ≠ b.1.key r.page.inst b.2)) {f : Fld} {j : Nat} (hf : (f, j) ∈ l) (s : State) :
    (l.foldl (State.putVal r) s).get f r.page.inst j = s.newVal r f j % 2 ^ f.width := by
  induction l generalizing s with
  | nil => cases hf
  | cons gl l ih =>
    obtain ⟨hhead, htail⟩ := List.pairwise_cons.mp hl
    rw [List.foldl_cons]
    obtain rfl | hmem := List.mem_cons.mp hf
    · rw [State.get_putVals_other hhead]
      exact State.get_set_self _ _ _ _ _
    · rw [ih htail hmem, State.newVal_congr (State.get_putVal_key (hhead _ hmem).symm s)]

/-- The captured values become active together (R53). -/
theorem State.putVals_get (s : State) (r : CommitRec) {f : Fld} {j : Nat} (hf : (f, j) ∈ shadowed r.page) :
    (s.putVals r).get f r.page.inst j = s.newVal r f j % 2 ^ f.width :=
  State.get_putVals_self (shadowed_keys r.page) hf s

theorem State.putVals_gen (s : State) (r : CommitRec) (i : Nat) : (s.putVals r).get (.GEN r.page.kind) i = s.get (.GEN r.page.kind) i := by
  refine State.get_putVals_other (fun gl hgl => ?_) s
  have hd := (shadowedFlds_apart r.page.kind).2 gl.1 (mem_shadowed.mp hgl).1
  exact (Fld.key_ne hd _ _ _ _).symm

/-! ## The effects of a block on an activation -/

/-- A commit's values are active and GEN has counted (R53), before the block acts on them. -/
def State.commitTaken (s : State) (r : CommitRec) : State :=
  ((if r.page.kind == .lnpCtx then s.keepGen r.page.inst else s).putVals r).countWrap (.GEN r.page.kind) r.page.inst 0 1

theorem State.keepGen_get (s : State) (c : Nat) (f : Fld) (i j : Nat) : (s.keepGen c).get f i j = s.get f i j := by
  unfold State.keepGen
  split <;> rfl

theorem State.commitTaken_gen (s : State) (r : CommitRec) :
    (s.commitTaken r).get (.GEN r.page.kind) r.page.inst = (s.get (.GEN r.page.kind) r.page.inst + 1) % 2 ^ 32 := by
  have hkeep : ∀ f i j, (if r.page.kind == .lnpCtx then s.keepGen r.page.inst else s).get f i j = s.get f i j := by
    intro f i j
    split
    · exact State.keepGen_get _ _ _ _ _
    · rfl
  rw [State.commitTaken, State.countWrap, State.get_set_self, State.putVals_gen, hkeep]
  rfl

theorem State.commitTaken_val (s : State) (r : CommitRec) {f : Fld} {j : Nat} (hf : (f, j) ∈ shadowed r.page) :
    (s.commitTaken r).get f r.page.inst j = s.newVal r f j % 2 ^ f.width := by
  have hd := (shadowedFlds_apart r.page.kind).2 f (mem_shadowed.mp hf).1
  rw [State.commitTaken, State.countWrap, State.get_set_other _ hd, State.putVals_get _ _ hf]
  split
  · rw [State.newVal_congr (State.keepGen_get s _ f _ j)]
  · rfl

section
variable {s : State} {m : Fld → Nat → Nat → Nat}

/-- A lane that drops its lock keeps its settings (R93). -/
theorem State.dropLock_commit (h : Held (isCommitFld .lan) m s) (l : Nat) : Held (isCommitFld .lan) m (s.dropLock l) := by
  unfold State.dropLock
  have hlocked := State.set_stays h .LAN_STATUS_locked l 0 0 (off_isCommitFld (by decide))
  have hspeed := State.set_stays hlocked .LAN_STATUS_speed l 0 0 (off_isCommitFld (by decide))
  have hmatch := State.set_stays hspeed .LAN_STATUS_train_match l 0 0 (off_isCommitFld (by decide))
  have hinv := State.set_stays hmatch .LAN_STATUS_train_match_inv l 0 0 (off_isCommitFld (by decide))
  exact State.set_stays hinv .LANX_TRY_SPEED l 0 1 (off_isCommitFld (by decide))

/-- The generations that a context drops are none of its settings (R141). -/
theorem State.dropGens_commit (h : Held (isCommitFld .lnpCtx) m s) (c : Nat) : Held (isCommitFld .lnpCtx) m (s.dropGens c) :=
  State.set_stays (State.modLnp_stays h (avoid_isCommitFld (by decide)) c _) _ _ _ _ (off_isCommitFld (by decide))

end

/-- What a block does when a commit has become active (R93, R141, R373): `moved` says that a value changed. -/
def State.commitEffect (u : State) (r : CommitRec) (moved : Bool) : State :=
  match r.page.kind with
  | .lan => if moved then (u.dropLock r.page.inst).peerFollow r.page.inst else u
  | .lnpCtx => u.dropGens r.page.inst
  | .memPart => if r.boundary = 2 then u.set .BWX_CEIL r.page.inst 0 (u.bwReg .MEM_BW_CEIL r.page.inst) else u
  | .ejt => u.reserveAll
  | _ => u

theorem State.activateCommit_eq (s : State) (r : CommitRec) :
    s.activateCommit r = (s.commitTaken r).commitEffect r (s.commitChanges r (shadowed r.page)) := rfl

theorem State.commitEffect_stays {m : Fld → Nat → Nat → Nat} {u : State} {r : CommitRec} (h : Held (isCommitFld r.page.kind) m u)
    (moved : Bool) : Held (isCommitFld r.page.kind) m (u.commitEffect r moved) := by
  unfold State.commitEffect
  generalize r.page.kind = k at h ⊢
  split
  · split
    · exact State.peerFollow_stays (State.dropLock_commit h _) (avoid_isCommitFld (by decide)) _
    · exact h
  · exact State.dropGens_commit h _
  · split
    · exact State.set_stays h _ _ _ _ (off_isCommitFld (by decide))
    · exact h
  · exact State.reserveAll_stays h (avoid_isCommitFld (by decide))
  · exact h

/-! ## An active commit -/

/-- GEN counts an activation by one (R53). -/
theorem State.activateCommit_gen (s : State) (r : CommitRec) :
    (s.activateCommit r).get (.GEN r.page.kind) r.page.inst = (s.get (.GEN r.page.kind) r.page.inst + 1) % 2 ^ 32 := by
  rw [State.activateCommit_eq]
  exact (State.commitEffect_stays (held_self (s.commitTaken r)) _ _ _ _ (isCommitFld_gen _)).trans (s.commitTaken_gen r)

/-- Every shadowed register of the page takes its captured value (R53). -/
theorem State.activateCommit_val (s : State) {r : CommitRec} (hk : r.page.kind ≠ .ejt) {f : Fld} {j : Nat} (hf : (f, j) ∈ shadowed r.page) :
    (s.activateCommit r).get f r.page.inst j = s.newVal r f j % 2 ^ f.width := by
  have hfld := isCommitFld_shadowed hk (mem_shadowed.mp hf).1
  rw [State.activateCommit_eq]
  exact (State.commitEffect_stays (held_self (s.commitTaken r)) _ _ _ _ hfld).trans (s.commitTaken_val r hf)

/-! ## The list of waiting commits -/

@[simp] theorem State.reserve_commits (s : State) (span : Bool) (id : Nat) : (s.reserve span id).commits = s.commits := by
  unfold State.reserve
  split
  · rfl
  · refine State.forEach_keeps State.commits (fun t b _ => ?_) _
    split <;> rfl

@[simp] theorem State.peerDown_commits (s : State) (g : Nat) : (s.peerDown g).commits = s.commits := by
  unfold State.peerDown
  dsimp only
  split
  · exact State.raise_commits _ _ _ _
  · rfl

@[simp] theorem State.peerFollow_commits (s : State) (l : Nat) : (s.peerFollow l).commits = s.commits := by
  unfold State.peerFollow
  dsimp only
  split
  · rfl
  · split
    · exact State.peerDown_commits _ _
    · rfl

@[simp] theorem State.keepGen_commits (s : State) (c : Nat) : (s.keepGen c).commits = s.commits := by
  unfold State.keepGen
  split <;> rfl

@[simp] theorem State.putVals_commits (s : State) (r : CommitRec) : (s.putVals r).commits = s.commits := by
  refine State.forEach_keeps State.commits (fun t fj _ => ?_) s
  rfl

theorem State.commitTaken_commits (s : State) (r : CommitRec) : (s.commitTaken r).commits = s.commits := by
  refine (State.putVals_commits _ r).trans ?_
  split
  · exact State.keepGen_commits _ _
  · rfl

theorem State.commitEffect_commits (u : State) (r : CommitRec) (moved : Bool) : (u.commitEffect r moved).commits = u.commits := by
  unfold State.commitEffect
  split
  · split
    · exact State.peerFollow_commits _ _
    · rfl
  · rfl
  · split <;> rfl
  · exact State.forEach_keeps State.commits (fun t r _ => t.reserve_commits r.span r.id) u
  · rfl

theorem State.activateCommit_commits (s : State) (r : CommitRec) : (s.activateCommit r).commits = s.commits := by
  rw [State.activateCommit_eq, State.commitEffect_commits, State.commitTaken_commits]

/-! ## The boundary -/

/-- The state without the commits of a page. -/
def State.withoutCommits (s : State) (p : PageId) : State := { s with commits := s.commits.filter (fun c => c.page != p) }

theorem commitPending_of_commits {s t : State} {p : PageId} (h : t.commits = (s.withoutCommits p).commits) : t.commitPending p = false := by
  rw [State.commitPending, h, State.withoutCommits, List.any_eq_false]
  intro c hc
  have hne := (List.mem_filter.mp hc).2
  simpa using hne

theorem exec_commitApply_awake {p : PageId} {s : State} (hp : p.ok = true) (ha : s.awake = true) :
    exec (.commitApply p) s = .next (s.commitReached p) := by
  change pageRow p (s.whenAwake (fun s => s.commitReached p)) = _
  rw [pageRow_ok hp, State.whenAwake_awake ha]

/-- A commit whose check fails is discarded whole with the check's code (R52). -/
theorem State.commitReached_refused {s : State} {p : PageId} {r : CommitRec} {x : Nat}
    (hr : s.commits.find? (fun c => c.page == p && c.released) = some r) (hx : s.commitCode r = some x) :
    s.commitReached p = (s.withoutCommits p).code p r.fn 0x20 x := by
  simp only [State.commitReached, hr, hx]
  rfl

/-- A commit whose checks pass becomes active, unless it waits for a settings set (R53, R141). -/
theorem State.commitReached_active {s : State} {p : PageId} {r : CommitRec}
    (hr : s.commits.find? (fun c => c.page == p && c.released) = some r) (hx : s.commitCode r = none)
    (hroom : p.kind = .lnpCtx → s.gensFull p.inst = false) : s.commitReached p = (s.withoutCommits p).activateCommit r := by
  have hgo : (!(p.kind == .lnpCtx && s.gensFull p.inst)) = true := by
    by_cases hk : p.kind = .lnpCtx
    · simp [hroom hk]
    · simp [hk]
  simp only [State.commitReached, hr, hx, hgo, if_true]
  rfl

end Sys2Proof.Machine

section
open Sys2Proof Sys2Proof.Machine

/-- Settles O17: the captured values go to cells of their own, which no effect of a block reaches. -/
theorem commitApplyActivates : Obligations.CommitApplyActivates := by
  intro p s r hp ha hr
  obtain rfl : r.page = p := by
    have hfound := List.find?_some hr
    simp only [Bool.and_eq_true, beq_iff_eq] at hfound
    exact hfound.1
  refine ⟨fun hx hroom => ?_, fun x hx => ?_⟩
  · refine answers_of_next (exec_commitApply_awake hp ha) ?_
    rw [State.commitReached_active hr hx hroom]
    exact ⟨State.activateCommit_gen _ r, commitPending_of_commits (State.activateCommit_commits _ r),
      fun hk f j hf => State.activateCommit_val _ hk hf⟩
  · refine answers_of_next (exec_commitApply_awake hp ha) ?_
    have hcommits : ((s.withoutCommits r.page).code r.page r.fn 0x20 x).commits = (s.withoutCommits r.page).commits :=
      State.code_commits _ _ _ _ _
    rw [State.commitReached_refused hr hx]
    refine ⟨commitPending_of_commits hcommits, ?_⟩
    rw [hcommits]
    exact State.refuses_code _ _ _ _ _
end

/-!
PROOFS. The pipeline of line correction (R130, R131, R136, R139, R152): its table block, the begin of a stripe, and a stripe that is done.
-/
namespace Sys2Proof.Machine

/-! ## Effects on registers alone -/

/-- Between two states only registers, outputs and the management state moved. -/
def State.RegsOnly (s t : State) : Prop := t = { s with regs := t.regs, out := t.out, mgt := t.mgt }

theorem State.RegsOnly.refl (s : State) : s.RegsOnly s := rfl

theorem State.RegsOnly.trans {s t u : State} (h : s.RegsOnly t) (k : t.RegsOnly u) : s.RegsOnly u := by
  unfold State.RegsOnly at *
  rw [k, h]

theorem State.RegsOnly.lnp {s t : State} (h : s.RegsOnly t) : t.lnp = s.lnp := by rw [h]

theorem State.RegsOnly.set {s t : State} (h : s.RegsOnly t) (f : Fld) (i j v : Nat) : s.RegsOnly (t.set f i j v) := h.trans rfl

theorem State.RegsOnly.raise {s t : State} (h : s.RegsOnly t) (p : PageId) (n d : Nat) : s.RegsOnly (t.raise p n d) :=
  h.trans (State.only_raise t p n d).rest

theorem State.RegsOnly.ite {s t u : State} {c : Prop} [Decidable c] (ht : s.RegsOnly t) (hu : s.RegsOnly u) :
    s.RegsOnly (if c then t else u) := by
  split <;> assumption

theorem State.regsOnly_forEach {α : Type} {g : State → α → State} (hg : ∀ t x, State.RegsOnly t (g t x)) (s : State) (l : List α) :
    s.RegsOnly (s.forEach l g) := by
  unfold State.forEach
  induction l generalizing s with
  | nil => exact State.RegsOnly.refl s
  | cons x l ih => exact (hg s x).trans (ih (g s x))

theorem State.regsOnly_pmcFreezeNow (s : State) : s.RegsOnly s.pmcFreezeNow :=
  (State.RegsOnly.refl s).ite (((State.RegsOnly.refl s).set ..).raise ..)

theorem State.regsOnly_pmcWrapped (s : State) (n : Nat) : s.RegsOnly (s.pmcWrapped n) := by
  have hovf := (State.RegsOnly.refl s).set .PMC_OVF 0 0 (putBit (s.get .PMC_OVF) n true)
  unfold State.pmcWrapped
  generalize s.set .PMC_OVF 0 0 (putBit (s.get .PMC_OVF) n true) = t at hovf ⊢
  have hirq := (hovf.raise ⟨.pmc, 0⟩ 0 n).ite (c := t.isOn .PMC_CNT_SEL_ovf_irq 0 n = true) hovf
  exact (hirq.trans (State.regsOnly_pmcFreezeNow _)).ite hirq

theorem State.regsOnly_pmcAddTop (s : State) (n amt : Nat) : s.RegsOnly (s.pmcAddTop n amt) := by
  have hset := (State.RegsOnly.refl s).set .PMC_CNT 0 n (s.get .PMC_CNT 0 n + amt)
  exact hset.ite (hset.trans (State.regsOnly_pmcWrapped _ n))

theorem State.regsOnly_pmcAdd (s : State) (n amt : Nat) : s.RegsOnly (s.pmcAdd n amt) := by
  have hset := (State.RegsOnly.refl s).set .PMC_CNT 0 n (s.get .PMC_CNT 0 n + amt)
  exact (hset.ite ((hset.trans (State.regsOnly_pmcAddTop _ _ _)).ite hset)).ite (State.regsOnly_pmcAddTop s n amt)

theorem State.regsOnly_pmc (s : State) (code inst amt : Nat) (part : Option Nat) : s.RegsOnly (s.pmc code inst amt part) :=
  (State.RegsOnly.refl s).ite (State.regsOnly_forEach (fun t n => (State.regsOnly_pmcAdd t n amt).ite (State.RegsOnly.refl t)) s _)

theorem State.regsOnly_countWr (s : State) (a n : Nat) (part : Option Nat) : s.RegsOnly (s.countWr a n part) := by
  refine State.regsOnly_forEach (fun t r => ?_) s _
  split
  · exact State.RegsOnly.refl t
  · exact ((State.RegsOnly.refl t).set ..).trans (State.regsOnly_pmc ..)

/-! ## What leaves LNP's own state -/

@[simp] theorem State.count_lnp (s : State) (f : Fld) (i j n : Nat) : (s.count f i j n).lnp = s.lnp := rfl

@[simp] theorem State.pmc_lnp (s : State) (code inst amt : Nat) (part : Option Nat) : (s.pmc code inst amt part).lnp = s.lnp :=
  (s.regsOnly_pmc code inst amt part).lnp

@[simp] theorem State.devWriteFor_lnp (s : State) (part : Option Nat) (a : Nat) (bs : List Nat) : (s.devWriteFor part a bs).lnp = s.lnp :=
  (State.regsOnly_countWr (s.devWrite a bs) a bs.length part).lnp

@[simp] theorem State.lbWrite_lnp (s : State) (p x : Nat) (bs : List Nat) : (s.lbWrite p x bs).lnp = s.lnp := by
  refine State.forEach_keeps State.lnp (fun t r _ => ?_) s
  rfl

@[simp] theorem State.makeReady_lnp (s : State) (n : Nat) : (s.makeReady n).lnp = s.lnp := by
  unfold State.makeReady
  split
  · rfl
  · dsimp only
    split <;> rfl

@[simp] theorem State.refreshReady_lnp (s : State) : s.refreshReady.lnp = s.lnp := by
  refine State.forEach_keeps State.lnp (fun t j _ => ?_) s
  split
  · rfl
  · split
    · exact State.makeReady_lnp _ _
    · rfl

/-- What the pipeline holds: its stripe, and the context that it served last (R131). -/
def State.pipeline (s : State) : Option LnpBusy × Option Nat := (s.lnp.busy, s.lnp.lastCtx)

theorem State.pipeline_congr {s t : State} (h : t.lnp = s.lnp) : t.pipeline = s.pipeline := by simp only [State.pipeline, h]

@[simp] theorem State.modLnp_pipeline (s : State) (c : Nat) (f : LnpCtxSt → LnpCtxSt) : (s.modLnp c f).pipeline = s.pipeline := rfl

@[simp] theorem State.raise_pipeline (s : State) (p : PageId) (n d : Nat) : (s.raise p n d).pipeline = s.pipeline :=
  State.pipeline_congr (s.raise_lnp p n d)

@[simp] theorem State.dropGens_pipeline (s : State) (c : Nat) : (s.dropGens c).pipeline = s.pipeline := rfl

/-- A spill episode ends with its mark, LNP_CREDIT.inline and its event, or goes on (R135). -/
theorem State.episodeCheck_cases (s : State) (c : Nat) :
    s.episodeCheck c = ((s.modLnp c (fun x => { x with episode := false })).set .LNP_CREDIT_inline c 0 1).raise (lnpPage c) 1 ∨
    s.episodeCheck c = s := by
  unfold State.episodeCheck
  dsimp only
  exact (Decidable.em _).imp (fun hends => if_pos hends) (fun hgoes => if_neg hgoes)

@[simp] theorem State.episodeCheck_pipeline (s : State) (c : Nat) : (s.episodeCheck c).pipeline = s.pipeline := by
  obtain h | h := s.episodeCheck_cases c
  · rw [h, State.raise_pipeline]
    rfl
  · rw [h]

@[simp] theorem State.readyCheck_pipeline (s : State) (c : Nat) : (s.readyCheck c).pipeline = s.pipeline := by
  refine (State.forEach_keeps State.pipeline (fun t d _ => ?_) _).trans (s.modLnp_pipeline c _)
  rfl

/-! ## The table block (R152) -/

theorem exec_tableBlockArrived_awake {c : Ctx} {s : State} (h : s.awake = true) : exec (.tableBlockArrived c) s = .next (s.tableArrives c) := by
  change Host.Outcome.next (s.whenAwake (fun s => s.tableArrives c)) = _
  rw [State.whenAwake_awake h]

theorem State.tableArrives_idle {s : State} {c : Nat} (h : (s.lnpCtx c).stripes.find? (fun x => x.credit) = none) : s.tableArrives c = s := by
  simp only [State.tableArrives, h]

theorem State.tableArrives_oldest {s : State} {c : Nat} {x : LnpStripe} (h : (s.lnpCtx c).stripes.find? (fun x => x.credit) = some x) :
    s.tableArrives c = s.modLnp c (fun y => { y with table := some x.gen }) := by
  simp only [State.tableArrives, h]

/-! ## The begin of a stripe (R130, R131, R139) -/

theorem exec_lnpStripeBegin_awake {s : State} (h : s.awake = true) : exec .lnpStripeBegin s = .next s.lnpBegin := by
  change Host.Outcome.next (s.whenAwake (fun s => s.lnpBegin)) = _
  rw [State.whenAwake_awake h]

/-- A pipeline that is busy, or has no stripe to serve, begins none. -/
theorem State.lnpBegin_waits {s : State} (h : s.lnp.busy.isSome = true ∨ s.lnpNext = none) : s.lnpBegin = s := by
  unfold State.lnpBegin
  split
  · rename_i hbusy hnext
    simp [hbusy, hnext] at h
  · rfl

/-- The pipeline takes a stripe of a context, as it was read, with its result. -/
def State.takeStripe (s : State) (c : Nat) (x : LnpStripe) (r : StripeRec) (res : LnpResult) : State :=
  let s := s.modLnp c (fun y => { y with stripes := y.stripes.filter (fun z => z.order != x.order) })
  { s with lnp := { s.lnp with busy := some { ctx := c, stripe := { x with stripe := r }, result := res }, lastCtx := some c } }

/-- The clocks of a stripe that begins, and the change of context before it (R131). -/
def State.chargeStripe (s : State) (c cost : Nat) (switch : Bool) (part : Option Nat) : State :=
  let s := if switch then (s.count .LNP_CNT_SWITCH 0 0 1).pmc 0x0A c 1 part else s
  s.count .LNP_BUSY 0 0 ((if switch then 48 else 0) + cost)

/-- A bad table is marked and raised. -/
def State.noteTable (s : State) (c : Nat) (bad : Bool) (mark : LnpCtxSt → LnpCtxSt) : State :=
  if bad then (s.modLnp c mark).raise (lnpPage c) 2 else s

/-- The events of a stripe's table, once a generation, and its open defects (R152, R153). -/
def State.noteDefects (s : State) (c gen : Nat) (t : LnpTable) (defectOpen : Nat) : State :=
  let s := s.noteTable c (t.badBlock && (s.lnpCtx c).badBlock != some gen) (fun y => { y with badBlock := some gen })
  let s := s.noteTable c (t.badEntry && (s.lnpCtx c).badEntry != some gen) (fun y => { y with badEntry := some gen })
  if defectOpen = 0 then s else (s.count .LNP_CNT_DEFECT_OPEN c 0 defectOpen).raise (lnpPage c) 5

theorem State.takeStripe_pipeline (s : State) (c : Nat) (x : LnpStripe) (r : StripeRec) (res : LnpResult) :
    (s.takeStripe c x r res).pipeline = (some { ctx := c, stripe := { x with stripe := r }, result := res }, some c) := rfl

theorem State.chargeStripe_pipeline (s : State) (c cost : Nat) (switch : Bool) (part : Option Nat) :
    (s.chargeStripe c cost switch part).pipeline = s.pipeline :=
  State.pipeline_congr (by cases switch <;> simp [State.chargeStripe])

theorem State.noteTable_pipeline (s : State) (c : Nat) (bad : Bool) (mark : LnpCtxSt → LnpCtxSt) :
    (s.noteTable c bad mark).pipeline = s.pipeline := by
  cases bad <;> simp [State.noteTable]

theorem State.noteDefects_pipeline (s : State) (c gen : Nat) (t : LnpTable) (defectOpen : Nat) :
    (s.noteDefects c gen t defectOpen).pipeline = s.pipeline := by
  have htable := fun bad mark bad' mark' =>
    (State.noteTable_pipeline (s.noteTable c bad mark) c bad' mark').trans (s.noteTable_pipeline c bad mark)
  unfold State.noteDefects
  dsimp only
  split
  · exact htable _ _ _ _
  · rw [State.raise_pipeline]
    exact htable _ _ _ _

section
variable {s u : State} {c : Nat} {x : LnpStripe}

theorem State.lnpBegin_untabled (hbusy : s.lnp.busy = none) (hnext : s.lnpNext = some (c, x)) (htable : (s.lnpCtx c).table = none) :
    s.lnpBegin = s := by
  simp [State.lnpBegin, hbusy, hnext, htable]

/-- A stripe whose settings are gone is lost (R139). -/
theorem State.lnpBegin_lost (hbusy : s.lnp.busy = none) (hnext : s.lnpNext = some (c, x)) (htable : (s.lnpCtx c).table.isSome = true)
    (hu : s.modLnp c (fun y => { y with table := none }) = u) (hgone : u.lnpHeld c (u.lnpSource c x).1.lnpGen = none) :
    s.lnpBegin = u.loseStripe c x 1 := by
  have hnone : (s.lnpCtx c).table.isNone = false := by simpa using htable
  simp only [State.lnpBegin, hbusy, hnext, hnone, hu, hgone, Bool.false_eq_true, if_false]

/-- A stripe that can be corrected is taken, then charged and noted (R130, R131). -/
theorem State.lnpBegin_taken (hbusy : s.lnp.busy = none) (hnext : s.lnpNext = some (c, x)) (htable : (s.lnpCtx c).table.isSome = true)
    (hu : s.modLnp c (fun y => { y with table := none }) = u) {set : LnpSet} (hset : u.lnpHeld c (u.lnpSource c x).1.lnpGen = some set)
    (hsource : (u.lnpSource c x).2 = false) (hblock : u.hasBad set.tblBase (set.tblKib * 1024) = false)
    (hfits : slotBytes set (u.lnpSource c x).1.lines (stripeChannels (u.lnpSource c x).1).length ≤ s.get .LNP_LB_CFG_slot_kib c * 1024) :
    ∃ t res cost switch, s.lnpBegin =
      ((u.takeStripe c x (u.lnpSource c x).1 res).chargeStripe c cost switch (u.owner (lnpPage c))).noteDefects c
        (u.lnpSource c x).1.lnpGen t res.defectOpen := by
  have hnone : (s.lnpCtx c).table.isNone = false := by simpa using htable
  have hslot : u.get .LNP_LB_CFG_slot_kib c = s.get .LNP_LB_CFG_slot_kib c := hu ▸ rfl
  simp only [State.lnpBegin, hbusy, hnext, hnone, hu, hset, hsource, hblock, hslot, Nat.not_lt.mpr hfits, Bool.or_self, Bool.false_eq_true,
    if_false]
  exact ⟨_, _, _, _, rfl⟩

end

/-! ## A stripe that is done (R136) -/

theorem exec_lnpStripeDone_awake {s : State} (h : s.awake = true) : exec .lnpStripeDone s = .next s.lnpDone.refreshReady := by
  change Host.Outcome.next (s.whenAwake (fun s => s.lnpDone.refreshReady)) = _
  rw [State.whenAwake_awake h]

/-- The pipeline is free. -/
def State.freePipeline (s : State) : State := { s with lnp := { s.lnp with busy := none } }

/-- The image of a stripe in its slot of the line buffer, and its statistics block (R155, R156). -/
def State.storeStripe (s : State) (b : LnpBusy) (part : Option Nat) (slot : Nat) : State :=
  let s := s.forEach b.result.image (fun s x => s.lbWrite (part.getD 0) (s.lbSlot b.ctx slot + x.1) x.2)
  let set := (s.lnpHeld b.ctx b.stripe.stripe.lnpGen).getD (s.lnpActive b.ctx)
  let blocks := s.get .LNP_STAT_CFG_blocks b.ctx
  if set.statEn && blocks != 0 then
    (s.devWriteFor part (s.get .LNP_STAT_BASE b.ctx + b.stripe.stripe.no % blocks * 0x4800) b.result.stats).set .LNP_STAT_LAST b.ctx 0
      b.stripe.stripe.no
  else s

/-- A stripe that is done is counted and shown, with its dynamic defects and its clipping. -/
def State.showStripe (s : State) (b : LnpBusy) : State :=
  let s := (s.count .LNP_CNT_STRIPES b.ctx 0 1).set .LNP_STRIPE_DONE b.ctx 0 b.stripe.stripe.no
  let s := s.count .LNP_CNT_DYN b.ctx 0 b.result.dynCount
  if b.result.clip then s.raise (lnpPage b.ctx) 4 else s

/-- A stripe that is done leaves LNP: it waits for its ring slot, and its generation and a spill episode may end with it (R135, R136, R141). -/
def State.handStripe (s : State) (b : LnpBusy) (slot slots : Nat) : State :=
  let c := b.ctx
  let r := b.stripe.stripe
  let written := (s.capCtx c).ring.any (fun y => y.no == r.no && y.written)
  let inRing := (s.capCtx c).writing.any (fun y => y.no == r.no)
  let s := if b.stripe.spilled then s.ringCaught c r.no else s
  let s := s.modLnp c (fun y => { y with
    nextSlot := (slot + 1) % slots
    tail := some { no := r.no, origCtx := r.origCtx, origNo := r.origNo, rows := b.result.tail }
    waitReady := y.waitReady ++ [⟨r.no, slot, bit r.flags 4 || written || !inRing⟩] })
  ((s.dropGens c).episodeCheck c).readyCheck c

theorem State.lnpDone_eq {s : State} {b : LnpBusy} (h : s.lnp.busy = some b) :
    ∃ slot slots, s.lnpDone = ((s.freePipeline.storeStripe b (s.owner (lnpPage b.ctx)) slot).showStripe b).handStripe b slot slots := by
  simp only [State.lnpDone, h]
  exact ⟨_, _, rfl⟩

theorem State.storeStripe_pipeline (s : State) (b : LnpBusy) (part : Option Nat) (slot : Nat) :
    (s.storeStripe b part slot).pipeline = s.pipeline := by
  have himage : (s.forEach b.result.image (fun s x => s.lbWrite (part.getD 0) (s.lbSlot b.ctx slot + x.1) x.2)).lnp = s.lnp :=
    State.forEach_keeps State.lnp (fun t x _ => t.lbWrite_lnp _ _ _) s
  refine State.pipeline_congr ?_
  unfold State.storeStripe
  dsimp only
  split <;> simp [himage]

theorem State.showStripe_pipeline (s : State) (b : LnpBusy) : (s.showStripe b).pipeline = s.pipeline := by
  refine State.pipeline_congr ?_
  unfold State.showStripe
  dsimp only
  split <;> simp

theorem State.handStripe_pipeline (s : State) (b : LnpBusy) (slot slots : Nat) : (s.handStripe b slot slots).pipeline = s.pipeline := by
  simp only [State.handStripe, State.readyCheck_pipeline, State.episodeCheck_pipeline, State.dropGens_pipeline, State.modLnp_pipeline]
  split <;> rfl

/-! ## The registers that show a stripe that is done -/

/-- The predicate that picks the registers of a list. -/
def listed (l : List Fld) (f : Fld) : Bool := l.contains f

theorem off_listed {l : List Fld} {g : Fld} (h : l.all (fun f => f.diff g) = true) : Off (listed l) g := fun f hf =>
  List.all_eq_true.mp h f (by simpa [listed] using hf)

theorem avoid_listed {l : List Fld} {ks : List PageKind}
    (h : l.all (fun f => !ks.contains f.kind && msgFlds.all (fun g => f.diff g)) = true) : Avoid (listed l) ks := by
  have hone : ∀ f, listed l f = true → Avoid (oneFld f) ks := by
    intro f hf
    have hcheck := List.all_eq_true.mp h f (by simpa [listed] using hf)
    simp only [Bool.and_eq_true, Bool.not_eq_true'] at hcheck
    exact avoid_one hcheck.1 hcheck.2
  exact ⟨fun g hg hk f hf => (hone f hf).1 g hg hk f (by simp [oneFld]), fun g hg f hf => (hone f hf).2 g hg f (by simp [oneFld])⟩

theorem State.raise_listed {l : List Fld} {m : Fld → Nat → Nat → Nat} {s : State} (hs : Held (listed l) m s) {p : PageId}
    (h : l.all (fun f => (evtFlds p.kind).all (fun g => f.diff g)) = true) (n d : Nat) : Held (listed l) m (s.raise p n d) := fun f i j hf => by
  rw [State.get_raise _ _ _ _ f (List.all_eq_true.mp h f (by simpa [listed] using hf))]
  exact hs f i j hf

/-- The registers of a context that count and show the stripes that are done (R136). -/
def doneFlds : List Fld := [.LNP_CNT_STRIPES, .LNP_STRIPE_DONE]

section
variable {s : State} {m : Fld → Nat → Nat → Nat}

theorem State.storeStripe_done (h : Held (listed doneFlds) m s) (b : LnpBusy) (part : Option Nat) (slot : Nat) :
    Held (listed doneFlds) m (s.storeStripe b part slot) := by
  have himage := State.forEach_stays h b.result.image (g := fun s x => s.lbWrite (part.getD 0) (s.lbSlot b.ctx slot + x.1) x.2)
    fun t x ht => State.lbWrite_stays ht (avoid_listed rfl) _ _ _
  unfold State.storeStripe
  dsimp only
  split
  · exact State.set_stays (State.devWriteFor_stays himage (avoid_listed rfl) _ _ _) _ _ _ _ (off_listed rfl)
  · exact himage

theorem State.episodeCheck_done (h : Held (listed doneFlds) m s) (c : Nat) : Held (listed doneFlds) m (s.episodeCheck c) := by
  obtain heq | heq := s.episodeCheck_cases c
  · rw [heq]
    exact State.raise_listed (State.set_stays (State.modLnp_stays h (avoid_listed rfl) _ _) _ _ _ _ (off_listed rfl)) rfl _ _
  · rwa [heq]

theorem State.handStripe_done (h : Held (listed doneFlds) m s) (b : LnpBusy) (slot slots : Nat) :
    Held (listed doneFlds) m (s.handStripe b slot slots) := by
  have hcaught : Held (listed doneFlds) m (if b.stripe.spilled then s.ringCaught b.ctx b.stripe.stripe.no else s) := by
    split
    · exact State.ringCaught_stays h (avoid_listed rfl) _ _
    · exact h
  have hgens : ∀ t, Held (listed doneFlds) m t → Held (listed doneFlds) m (t.dropGens b.ctx) := fun t ht =>
    State.set_stays (State.modLnp_stays ht (avoid_listed rfl) _ _) _ _ _ _ (off_listed rfl)
  exact State.readyCheck_stays (State.episodeCheck_done (hgens _ (State.modLnp_stays hcaught (avoid_listed rfl) _ _)) _) (avoid_listed rfl) _

end

theorem satAdd_lt (w a n : Nat) : satAdd w a n < 2 ^ w := by
  have hpos := Nat.two_pow_pos w
  unfold satAdd
  omega

theorem State.showStripe_get (s : State) (b : LnpBusy) :
    (s.showStripe b).get .LNP_CNT_STRIPES b.ctx = satAdd Fld.LNP_CNT_STRIPES.width (s.get .LNP_CNT_STRIPES b.ctx) 1 ∧
    (s.showStripe b).get .LNP_STRIPE_DONE b.ctx = b.stripe.stripe.no % 2 ^ Fld.LNP_STRIPE_DONE.width := by
  have hclip : ∀ (t : State) {f : Fld}, (evtFlds .lnpCtx).all (fun g => f.diff g) = true →
      (if b.result.clip then t.raise (lnpPage b.ctx) 4 else t).get f b.ctx = t.get f b.ctx := by
    intro t f hf
    split
    · exact State.get_raise _ _ _ _ f hf _ _
    · rfl
  simp only [State.showStripe]
  refine ⟨?_, ?_⟩
  · rw [hclip _ rfl, State.count, State.get_set_other _ rfl, State.get_set_other _ rfl, State.count, State.get_set_self]
    exact Nat.mod_eq_of_lt (satAdd_lt _ _ _)
  · rw [hclip _ rfl, State.count, State.get_set_other _ rfl, State.get_set_self]

/-- What a stripe that is done leaves (R136): it is counted and shown, and the pipeline is free. -/
theorem State.lnpDone_shows {s : State} {b : LnpBusy} (h : s.lnp.busy = some b) :
    s.lnpDone.refreshReady.lnp.busy = none ∧
    s.lnpDone.refreshReady.get .LNP_CNT_STRIPES b.ctx = satAdd Fld.LNP_CNT_STRIPES.width (s.get .LNP_CNT_STRIPES b.ctx) 1 ∧
    s.lnpDone.refreshReady.get .LNP_STRIPE_DONE b.ctx = b.stripe.stripe.no % 2 ^ Fld.LNP_STRIPE_DONE.width := by
  obtain ⟨slot, slots, heq⟩ := State.lnpDone_eq h
  have hstored := State.storeStripe_done (s := s.freePipeline) (held_self s) b (s.owner (lnpPage b.ctx)) slot
  generalize hv : s.freePipeline.storeStripe b (s.owner (lnpPage b.ctx)) slot = v at heq hstored
  have hkept := State.refreshReady_stays (State.handStripe_done (held_self (v.showStripe b)) b slot slots) (avoid_listed rfl)
  obtain ⟨hcount, hshown⟩ := v.showStripe_get b
  have hfree : (v.showStripe b).pipeline = s.freePipeline.pipeline := by rw [State.showStripe_pipeline, ← hv, State.storeStripe_pipeline]
  rw [heq]
  refine ⟨?_, (hkept _ _ _ rfl).trans (hcount.trans (by rw [hstored _ _ _ rfl])), (hkept _ _ _ rfl).trans hshown⟩
  rw [State.refreshReady_lnp]
  exact congrArg Prod.fst ((State.handStripe_pipeline _ b slot slots).trans hfree)

end Sys2Proof.Machine

section
open Sys2Proof Sys2Proof.Machine

/-- Settles O35: a begin is told by what the pipeline, the table and the settings hold; what follows the taking of a stripe, or its count,
reaches neither the pipeline nor the two registers. -/
theorem linePipelineRuns : Obligations.LinePipelineRuns := by
  refine ⟨fun c s ha => ⟨fun hidle => ?_, fun x hx => ?_⟩, fun s ha => ⟨fun hwait => ?_, fun c x hbusy hnext => ⟨fun htable => ?_,
    fun htable => ⟨fun hgone => ?_, fun set hset hsource hblock hfits => ?_⟩⟩, fun b hb => ?_⟩⟩
  · rw [exec_tableBlockArrived_awake ha, State.tableArrives_idle hidle]
  · rw [exec_tableBlockArrived_awake ha, State.tableArrives_oldest hx]
  · rw [exec_lnpStripeBegin_awake ha, State.lnpBegin_waits hwait]
  · rw [exec_lnpStripeBegin_awake ha, State.lnpBegin_untabled hbusy hnext htable]
  · rw [exec_lnpStripeBegin_awake ha, State.lnpBegin_lost hbusy hnext htable rfl hgone]
  · obtain ⟨t, res, cost, switch, heq⟩ := State.lnpBegin_taken hbusy hnext htable rfl hset hsource hblock hfits
    have hpipeline := congrArg State.pipeline heq
    rw [State.noteDefects_pipeline, State.chargeStripe_pipeline, State.takeStripe_pipeline] at hpipeline
    exact answers_of_next (exec_lnpStripeBegin_awake ha)
      ⟨⟨_, congrArg Prod.fst hpipeline, rfl, rfl⟩, congrArg Prod.snd hpipeline⟩
  · exact answers_of_next (exec_lnpStripeDone_awake ha) (State.lnpDone_shows hb)
end

/-!
PROOFS. Errors of SRAM (R188, R193, R286, R567): the count of a corrected error and its threshold, and what an uncorrectable one reaches.
-/
namespace Sys2Proof.Machine

/-! ## Counters and frames -/

theorem State.get_count_self (s : State) (f : Fld) (i j n : Nat) : (s.count f i j n).get f i j = satAdd f.width (s.get f i j) n := by
  rw [State.count, State.get_set_self, Nat.mod_eq_of_lt (satAdd_lt _ _ _)]

theorem State.get_count_other (s : State) {f g : Fld} (h : f.diff g = true) (i j k l n : Nat) :
    (s.count g k l n).get f i j = s.get f i j := State.get_set_other s h _ _ _ _ _

/-- A change of a table is the only one beside those before it. -/
theorem State.Only.modTable {l : List CellId} {s t : State} (h : State.Only l s t) (id : Nat) (f : AtnTable → AtnTable) :
    State.Only l { s with tables := (t.modTable id f).tables } (t.modTable id f) where
  rest := by
    unfold State.modTable
    rw [h.rest]
  lost := h.lost
  cells := h.cells

/-! ## A corrected error -/

theorem exec_sramCorrected_awake {s : State} (h : s.awake = true) (site : SramSite) (addr : Nat) :
    exec (.sramCorrected site addr) s = .next (s.sramCorrected site addr) := by
  change Host.Outcome.next (s.whenAwake (fun s => s.sramCorrected site addr)) = _
  rw [State.whenAwake_awake h]

/-- The registers of a site's corrected errors: count, errors of this window, mark of the window's event, threshold. -/
structure CeFlds where
  cnt : Fld
  win : Fld
  done : Fld
  thr : Fld

/-- The registers of a site's corrected errors lie apart, and its events reach none but the mark's. -/
def CeFlds.apart (c : CeFlds) (k : PageKind) : Bool :=
  c.cnt.diff c.win && c.cnt.diff c.done && c.thr.diff c.cnt && c.thr.diff c.win && c.done.diff c.cnt && c.done.diff c.win &&
  (evtFlds k).all (fun g => c.cnt.diff g)

/-- A corrected error in the two counts of its site. -/
def State.tallied (s : State) (p : PageId) (c : CeFlds) : State :=
  (s.count c.cnt p.inst 0 1).set c.win p.inst 0 (s.get c.win p.inst + 1)

/-- A corrected error of a site with these registers (R567). -/
def State.ceCounted (s : State) (p : PageId) (c : CeFlds) (ev : Nat) : State := s.sramCount p c.cnt c.win c.done c.thr ev

/-- The first time in a window that the count reaches the threshold, the event is raised; else the error is only counted (R567). -/
theorem State.ceCounted_cases (s : State) (p : PageId) {c : CeFlds} (ev : Nat) (hc : c.apart p.kind = true) :
    (s.get c.thr p.inst ≤ s.get c.win p.inst + 1 ∧ s.isOn c.done p.inst = false ∧
      s.ceCounted p c ev = ((s.tallied p c).set c.done p.inst 0 1).raise p ev) ∨
    (¬ (s.get c.thr p.inst ≤ s.get c.win p.inst + 1 ∧ s.isOn c.done p.inst = false) ∧
      s.ceCounted p c ev = s.tallied p c) := by
  simp only [CeFlds.apart, Bool.and_eq_true] at hc
  obtain ⟨⟨⟨⟨⟨⟨-, -⟩, hthr⟩, hthr'⟩, hdone⟩, hdone'⟩, -⟩ := hc
  have ht : (s.tallied p c).get c.thr p.inst = s.get c.thr p.inst := by
    rw [State.tallied, State.get_set_other _ hthr', State.get_count_other _ hthr]
  have hd : (s.tallied p c).isOn c.done p.inst = s.isOn c.done p.inst := by
    rw [State.isOn, State.tallied, State.get_set_other _ hdone', State.get_count_other _ hdone, State.isOn]
  have hdef : s.ceCounted p c ev =
      if (s.tallied p c).get c.thr p.inst ≤ s.get c.win p.inst + 1 && !(s.tallied p c).isOn c.done p.inst then
        ((s.tallied p c).set c.done p.inst 0 1).raise p ev else s.tallied p c := rfl
  rw [hdef, ht, hd]
  by_cases hdue : s.get c.thr p.inst ≤ s.get c.win p.inst + 1 ∧ s.isOn c.done p.inst = false
  · exact .inl ⟨hdue.1, hdue.2, if_pos (by simp [hdue])⟩
  · exact .inr ⟨hdue, if_neg (by simpa using hdue)⟩

theorem State.ceCounted_get (s : State) (p : PageId) {c : CeFlds} (ev : Nat) (hc : c.apart p.kind = true) {f : Fld}
    (hf : (f.diff c.win && f.diff c.done && (evtFlds p.kind).all (fun g => f.diff g)) = true) :
    (s.ceCounted p c ev).get f p.inst = (s.count c.cnt p.inst 0 1).get f p.inst := by
  simp only [Bool.and_eq_true] at hf
  obtain ⟨⟨hwin, hdone⟩, hevt⟩ := hf
  have htally : (s.tallied p c).get f p.inst = (s.count c.cnt p.inst 0 1).get f p.inst := State.get_set_other _ hwin _ _ _ _ _
  obtain ⟨-, -, h⟩ | ⟨-, h⟩ := s.ceCounted_cases p ev hc
  · rw [h, State.get_raise _ _ _ _ _ hevt, State.get_set_other _ hdone, htally]
  · rw [h, htally]

theorem State.ceCounted_counts (s : State) (p : PageId) {c : CeFlds} (ev : Nat) (hc : c.apart p.kind = true) :
    (s.ceCounted p c ev).get c.cnt p.inst = satAdd c.cnt.width (s.get c.cnt p.inst) 1 := by
  have hcnt := hc
  simp only [CeFlds.apart, Bool.and_eq_true] at hcnt
  obtain ⟨⟨⟨⟨⟨⟨hwin, hdone⟩, -⟩, -⟩, -⟩, -⟩, hevt⟩ := hcnt
  rw [s.ceCounted_get p ev hc (by simp only [hwin, hdone, hevt, Bool.and_self]), State.get_count_self]

theorem State.ceCounted_event (s : State) (p : PageId) {c : CeFlds} {ev : Nat} (hev : ev < 32) (hc : c.apart p.kind = true)
    (hthr : s.get c.thr p.inst ≤ s.get c.win p.inst + 1) (hdone : s.isOn c.done p.inst = false) :
    (s.ceCounted p c ev).event p ev = true := by
  obtain ⟨-, -, h⟩ | ⟨hno, -⟩ := s.ceCounted_cases p ev hc
  · rw [h]
    exact State.raise_event _ _ _ hev
  · exact absurd ⟨hthr, hdone⟩ hno

theorem State.ceCounted_marked (s : State) (p : PageId) {c : CeFlds} (ev : Nat) (hc : c.apart p.kind = true)
    (hdone : s.isOn c.done p.inst = true) : s.ceCounted p c ev = s.tallied p c := by
  obtain ⟨-, hoff, -⟩ | ⟨-, h⟩ := s.ceCounted_cases p ev hc
  · rw [hdone] at hoff
    cases hoff
  · exact h

/-- The registers of a cluster's corrected errors (R188). -/
def cluCe : CeFlds := ⟨.CLU_ECC_CE, .CLUX_WIN_CE, .CLUX_CE_DONE, .CLU_CE_THR⟩

/-- The registers of Fawn's corrected errors (R193). -/
def fwnCe : CeFlds := ⟨.FWN_ECC_CE, .FWNX_WIN_CE, .FWNX_CE_DONE, .FWN_CE_THR⟩

/-- The registers of Table SRAM's corrected errors (R286). -/
def atnCe : CeFlds := ⟨.ATN_ECC_CE, .ATNX_WIN_CE, .ATNX_CE_DONE, .ATN_CE_THR⟩

theorem ceFlds_apart : cluCe.apart .clu = true ∧ fwnCe.apart .fwn = true ∧ atnCe.apart .atn = true := by decide

/-- The address of a cluster's last error, and whether it was uncorrectable. -/
def State.cluAddr (s : State) (k addr ue : Nat) : State := (s.set .CLU_ECC_ADDR_addr k 0 addr).set .CLU_ECC_ADDR_ue k 0 ue

theorem State.cluAddr_get (s : State) (k addr ue : Nat) {f : Fld}
    (hf : (f.diff .CLU_ECC_ADDR_addr && f.diff .CLU_ECC_ADDR_ue) = true) (i j : Nat) : (s.cluAddr k addr ue).get f i j = s.get f i j := by
  obtain ⟨haddr, hue⟩ := (Bool.and_eq_true _ _).mp hf
  rw [State.cluAddr, State.get_set_other _ hue, State.get_set_other _ haddr]

theorem State.cluAddr_shows (s : State) (k addr : Nat) {ue : Nat} (hue : ue < 2) :
    (s.cluAddr k addr ue).get .CLU_ECC_ADDR_addr k = addr % 2 ^ Fld.CLU_ECC_ADDR_addr.width ∧
    (s.cluAddr k addr ue).get .CLU_ECC_ADDR_ue k = ue := by
  refine ⟨?_, ?_⟩
  · rw [State.cluAddr, State.get_set_other _ rfl, State.get_set_self]
  · rw [State.cluAddr, State.get_set_self]
    exact Nat.mod_eq_of_lt hue

theorem State.only_cluAddr {l : List CellId} {s : State} {k : Nat} (addr ue : Nat) (haddr : (.CLU_ECC_ADDR_addr, k, 0) ∈ l)
    (hue : (.CLU_ECC_ADDR_ue, k, 0) ∈ l) : State.Only l s (s.cluAddr k addr ue) :=
  ((State.Only.refl l s).set _ haddr).set _ hue

theorem State.sramCorrected_disabled {s : State} {k : Clu} (h : s.cluDisabled k = true) (addr : Nat) :
    s.sramCorrected (.cluster k) addr = s := by
  simp [State.sramCorrected, h]

theorem State.sramCorrected_cluster {s : State} {k : Clu} (h : s.cluDisabled k = false) (addr : Nat) :
    s.sramCorrected (.cluster k) addr = (s.cluAddr k addr 0).ceCounted ⟨.clu, k⟩ cluCe 0 := by
  simp only [State.sramCorrected, h, Bool.false_eq_true, if_false]
  rfl

theorem State.sramCorrected_fawn (s : State) (addr : Nat) : s.sramCorrected .fawn addr = s.ceCounted ⟨.fwn, 0⟩ fwnCe 0 := rfl

theorem State.sramCorrected_table (s : State) (id : PartId) (e : Fin 256) (addr : Nat) :
    s.sramCorrected (.table id e) addr = s.ceCounted ⟨.atn, 0⟩ atnCe 1 := rfl

/-- A corrected error of a cluster: its count, its address, the event of the threshold, and nothing else once the window has had its event. -/
theorem State.sramCorrected_cluster_shows {s : State} {k : Clu} (h : s.cluDisabled k = false) (addr : Nat) {t : State}
    (ht : s.sramCorrected (.cluster k) addr = t) :
    t.get .CLU_ECC_CE k = satAdd Fld.CLU_ECC_CE.width (s.get .CLU_ECC_CE k) 1 ∧
    t.get .CLU_ECC_ADDR_addr k = addr % 2 ^ Fld.CLU_ECC_ADDR_addr.width ∧ t.get .CLU_ECC_ADDR_ue k = 0 ∧
    (s.get .CLU_CE_THR k ≤ s.get .CLUX_WIN_CE k + 1 → s.isOn .CLUX_CE_DONE k = false → t.event ⟨.clu, k⟩ 0 = true) ∧
    (s.isOn .CLUX_CE_DONE k = true → State.Only
      [(.CLU_ECC_CE, k, 0), (.CLU_ECC_ADDR_addr, k, 0), (.CLU_ECC_ADDR_ue, k, 0), (.CLUX_WIN_CE, k, 0)] s t) := by
  subst ht
  rw [State.sramCorrected_cluster h]
  have hc : cluCe.apart .clu = true := ceFlds_apart.1
  obtain ⟨haddr, hue⟩ := s.cluAddr_shows k addr (ue := 0) (by decide)
  have hget : ∀ {f : Fld}, (f.diff .CLU_ECC_ADDR_addr && f.diff .CLU_ECC_ADDR_ue) = true → (s.cluAddr k addr 0).get f k = s.get f k :=
    fun hf => s.cluAddr_get k addr 0 hf k 0
  have hdone : (s.cluAddr k addr 0).isOn .CLUX_CE_DONE k = s.isOn .CLUX_CE_DONE k := congrArg (· != 0) (hget rfl)
  have hleft : ∀ {f : Fld}, (f.diff cluCe.win && f.diff cluCe.done && (evtFlds .clu).all (fun g => f.diff g)) = true →
      f.diff cluCe.cnt = true → ((s.cluAddr k addr 0).ceCounted ⟨.clu, k⟩ cluCe 0).get f k = (s.cluAddr k addr 0).get f k :=
    fun hf hcnt => (State.ceCounted_get _ ⟨.clu, k⟩ 0 hc hf).trans (State.get_count_other _ hcnt _ _ _ _ _)
  refine ⟨?_, (hleft rfl rfl).trans haddr, (hleft rfl rfl).trans hue, fun hthr hoff => ?_, fun hon => ?_⟩
  · exact (State.ceCounted_counts _ ⟨.clu, k⟩ 0 hc).trans (congrArg (satAdd _ · 1) (hget rfl))
  · refine State.ceCounted_event _ ⟨.clu, k⟩ (by decide) hc ?_ (hdone.trans hoff)
    have hthr' : (s.cluAddr k addr 0).get .CLU_CE_THR k = s.get .CLU_CE_THR k := hget rfl
    have hwin' : (s.cluAddr k addr 0).get .CLUX_WIN_CE k = s.get .CLUX_WIN_CE k := hget rfl
    exact Nat.le_trans (Nat.le_of_eq hthr') (Nat.le_trans hthr (Nat.le_of_eq (congrArg (· + 1) hwin'.symm)))
  · rw [State.ceCounted_marked _ ⟨.clu, k⟩ 0 hc (hdone.trans hon), State.tallied]
    exact ((State.only_cluAddr addr 0 (by simp) (by simp)).count _ (by simp [cluCe])).set _ (by simp [cluCe])

/-! ## An uncorrectable error of a cluster -/

theorem exec_sramUe_awake {s : State} (h : s.awake = true) (site : SramSite) (addr : Nat) :
    exec (.sramUe site addr) s = .next (s.sramBad site addr) := by
  change Host.Outcome.next (s.whenAwake (fun s => s.sramBad site addr)) = _
  rw [State.whenAwake_awake h]

/-- The registers that place a cluster in its partition (R410). -/
def placeFlds : List Fld := [.CMD_PART_CFG_enable, .CMD_PART_CFG_class, .CMD_PART_CLU, .STATUS_retired .clu]

/-- The partition of a cluster depends on the fuses and on the registers that place it alone. -/
theorem State.cluPart_of_placed {s t : State} (h : Held (listed placeFlds) (fun f i j => s.get f i j) t) (hz : t.fuses = s.fuses) (k : Nat) :
    t.cluPart k = s.cluPart k := by
  have hexists : ∀ p, t.partExists p = s.partExists p := fun p => congrArg (· != 0) (h .CMD_PART_CFG_enable 0 p (by decide))
  have hbe : ∀ p, t.partIsBe p = s.partIsBe p := fun p => congrArg (· != 0) (h .CMD_PART_CFG_class 0 p (by decide))
  have hset : ∀ p, t.get .CMD_PART_CLU 0 p = s.get .CMD_PART_CLU 0 p := fun p => h _ 0 p (by decide)
  have hretired : ∀ k, t.cluRetired k = s.cluRetired k := fun k => congrArg (· != 0) (h (.STATUS_retired .clu) k 0 (by decide))
  simp only [State.cluPart, State.partClu, State.lcClusters, State.beClusters, State.logicalOf, State.physOf, State.enabledClu,
    State.cluDisabled, hz, hexists, hbe, hset, hretired]

/-- An uncorrectable error of a cluster in its registers and events, before anything consumes it. -/
def State.cluUeNoted (s : State) (k addr : Nat) : State := ((s.cluAddr k addr 1).count .CLU_ECC_UE k 0 1).raise ⟨.clu, k⟩ 1

theorem State.cluUeNoted_get (s : State) (k addr : Nat) {f : Fld} (hf : (f.diff .CLU_ECC_ADDR_addr && f.diff .CLU_ECC_ADDR_ue) = true)
    (hcnt : f.diff .CLU_ECC_UE = true) (hevt : (evtFlds .clu).all (fun g => f.diff g) = true) (i j : Nat) :
    (s.cluUeNoted k addr).get f i j = s.get f i j := by
  rw [State.cluUeNoted, State.get_raise _ _ _ _ _ hevt, State.get_count_other _ hcnt, State.cluAddr_get _ _ _ _ hf]

theorem State.cluUeNoted_shows (s : State) (k addr : Nat) :
    (s.cluUeNoted k addr).get .CLU_ECC_UE k = satAdd Fld.CLU_ECC_UE.width (s.get .CLU_ECC_UE k) 1 ∧
    (s.cluUeNoted k addr).event ⟨.clu, k⟩ 1 = true ∧
    (s.cluUeNoted k addr).get .CLU_ECC_ADDR_addr k = addr % 2 ^ Fld.CLU_ECC_ADDR_addr.width ∧
    (s.cluUeNoted k addr).get .CLU_ECC_ADDR_ue k = 1 := by
  obtain ⟨haddr, hue⟩ := s.cluAddr_shows k addr (ue := 1) (by decide)
  refine ⟨?_, State.raise_event _ _ _ (by decide), ?_, ?_⟩
  · rw [State.cluUeNoted, State.get_raise _ _ _ _ _ rfl, State.get_count_self, State.cluAddr_get _ _ _ _ rfl]
  · rw [State.cluUeNoted, State.get_raise _ _ _ _ _ rfl, State.get_count_other _ rfl, haddr]
  · rw [State.cluUeNoted, State.get_raise _ _ _ _ _ rfl, State.get_count_other _ rfl, hue]

theorem State.cluUeNoted_cluPart (s : State) (k addr n : Nat) : (s.cluUeNoted k addr).cluPart n = s.cluPart n := by
  have hfuses : (s.cluUeNoted k addr).fuses = s.fuses := State.raise_fuses _ _ _ _
  refine State.cluPart_of_placed (fun f i j hf => ?_) hfuses n
  simp only [listed, placeFlds, List.contains_eq_mem, List.mem_cons, List.not_mem_nil, or_false, decide_eq_true_eq] at hf
  obtain rfl | rfl | rfl | rfl := hf <;> exact s.cluUeNoted_get k addr rfl rfl rfl i j

theorem State.cluUeNoted_runningJob (s : State) (k addr p : Nat) : (s.cluUeNoted k addr).runningJob p = s.runningJob p := by
  have hcmd : (s.cluUeNoted k addr).cmd = s.cmd := State.raise_cmd _ _ _ _
  have hjob : (s.cluUeNoted k addr).job = s.job := funext fun n => by simp only [State.job, hcmd]
  simp only [State.runningJob, hjob, hcmd]

theorem State.cluUeNoted_cluRetired (s : State) (k addr n : Nat) : (s.cluUeNoted k addr).cluRetired n = s.cluRetired n :=
  congrArg (· != 0) (s.cluUeNoted_get k addr (f := .STATUS_retired .clu) rfl rfl rfl n 0)

theorem State.cluUeNoted_bucket (s : State) (k addr t i : Nat) : (s.cluUeNoted k addr).bucket t i = s.bucket t i := by
  have hflt : (s.cluUeNoted k addr).flt = s.flt := State.raise_flt _ _ _ _
  simp only [State.bucket, hflt]

theorem State.cluUeNoted_addUpset (s : State) (k addr t i : Nat) : ((s.cluUeNoted k addr).addUpset t i).2 = (s.addUpset t i).2 := by
  simp only [State.addUpset, State.cluUeNoted_bucket, s.cluUeNoted_get k addr (f := .MGT_FLT_CFG_thr) rfl rfl rfl]

/-- A partition on whose clusters no job runs has none to abort. -/
theorem State.abortRunning_idle {s : State} {p : Nat} (h : s.runningJob p = none) : s.abortRunning p = s := by
  simp only [State.abortRunning, h]

theorem State.bucket_setBucket_self (s : State) (t i : Nat) {b : Nat} (hb : b ≠ 0) : (s.setBucket t i b).bucket t i = b := by
  have hrest : (s.flt.buckets.filter (fun x => x.1 != (t, i))).find? (fun x => x.1 == (t, i)) = none := by
    rw [List.find?_eq_none]
    intro x hx
    simpa using (List.mem_filter.mp hx).2
  simp [State.setBucket, State.bucket, hb, hrest]

/-- An upset that makes no cluster permanent moves its bucket alone, and that only while the cluster is not retired (R502). -/
theorem State.cluUpset_transient {s : State} {k : Nat} (h : s.cluRetired k = true ∨ (s.addUpset 2 k).2 = false) :
    (s.cluUpset k).regs = s.regs ∧ (s.cluRetired k = false → (s.cluUpset k).bucket 2 k = s.bucket 2 k + 1) := by
  cases hr : s.cluRetired k with
  | true => simp [State.cluUpset, hr]
  | false =>
    have hkeep : (s.addUpset 2 k).2 = false := h.resolve_left (by simp [hr])
    have hset : s.cluUpset k = s.setBucket 2 k (s.bucket 2 k + 1) := by
      simp only [State.cluUpset, hr, hkeep, Bool.false_eq_true, if_false]
      rfl
    rw [hset]
    exact ⟨rfl, fun _ => State.bucket_setBucket_self s 2 k (Nat.succ_ne_zero _)⟩

theorem State.sramBad_disabled {s : State} {k : Clu} (h : s.cluDisabled k = true) (addr : Nat) : s.sramBad (.cluster k) addr = s := by
  simp [State.sramBad, h]

/-- On a cluster where no job runs, an uncorrectable error is noted and is an upset, and no more (R188). -/
theorem State.sramBad_cluster {s : State} {k : Clu} (h : s.cluDisabled k = false) (addr : Nat)
    (hidle : ∀ p, s.cluPart k = some p → s.runningJob p = none) :
    s.sramBad (.cluster k) addr = (s.cluUeNoted k addr).cluUpset k := by
  have hdef : s.sramBad (.cluster k) addr = State.cluUpset (match (s.cluUeNoted k addr).cluPart k with
      | some p => (s.cluUeNoted k addr).abortRunning p
      | none => s.cluUeNoted k addr) k := by
    simp only [State.sramBad, h, Bool.false_eq_true, if_false]
    rfl
  rw [hdef, State.cluUeNoted_cluPart]
  cases hp : s.cluPart k with
  | none => rfl
  | some p => exact congrArg (State.cluUpset · k) (State.abortRunning_idle ((s.cluUeNoted_runningJob k addr p).trans (hidle p hp)))

theorem State.sramBad_cluster_shows {s : State} {k : Clu} (h : s.cluDisabled k = false) (addr : Nat)
    (hidle : ∀ p, s.cluPart k = some p → s.runningJob p = none) (hkeep : s.cluRetired k = true ∨ (s.addUpset 2 k).2 = false) {t : State}
    (ht : s.sramBad (.cluster k) addr = t) :
    t.get .CLU_ECC_UE k = satAdd Fld.CLU_ECC_UE.width (s.get .CLU_ECC_UE k) 1 ∧ t.event ⟨.clu, k⟩ 1 = true ∧
    t.get .CLU_ECC_ADDR_addr k = addr % 2 ^ Fld.CLU_ECC_ADDR_addr.width ∧ t.get .CLU_ECC_ADDR_ue k = 1 ∧
    (s.cluRetired k = false → t.bucket 2 k = s.bucket 2 k + 1) := by
  rw [State.sramBad_cluster h addr hidle] at ht
  obtain ⟨hregs, hbucket⟩ := State.cluUpset_transient (s := s.cluUeNoted k addr) (k := k)
    (by rwa [s.cluUeNoted_cluRetired, s.cluUeNoted_addUpset])
  rw [ht] at hregs hbucket
  have hget : ∀ (f : Fld) (i j : Nat), t.get f i j = (s.cluUeNoted k addr).get f i j := State.get_congr hregs
  obtain ⟨hcount, hevent, haddr, hue⟩ := s.cluUeNoted_shows k addr
  refine ⟨(hget _ _ _).trans hcount, (State.event_congr (hget _ _ _)).trans hevent, (hget _ _ _).trans haddr, (hget _ _ _).trans hue, fun hr => ?_⟩
  rw [hbucket ((s.cluUeNoted_cluRetired k addr k).trans hr), s.cluUeNoted_bucket]

/-! ## An uncorrectable error that is counted and raised -/

/-- An uncorrectable error in the count and the event of its page. -/
theorem State.ueCounted_shows (s : State) (p : PageId) {f : Fld} {ev : Nat} (hev : ev < 32)
    (hf : (evtFlds p.kind).all (fun g => f.diff g) = true) :
    ((s.count f p.inst 0 1).raise p ev).get f p.inst = satAdd f.width (s.get f p.inst) 1 ∧
    ((s.count f p.inst 0 1).raise p ev).event p ev = true ∧
    State.Only ((f, p.inst, 0) :: evtCells p) s ((s.count f p.inst 0 1).raise p ev) := by
  refine ⟨?_, State.raise_event _ _ _ hev, ?_⟩
  · rw [State.get_raise _ _ _ _ _ hf, State.get_count_self]
  · exact ((State.Only.refl _ s).count _ List.mem_cons_self).raise _ _ fun g hg => List.mem_cons_of_mem _ hg

theorem State.sramBad_fawn_idle {s : State} (h : s.fwn = []) (addr : Nat) :
    s.sramBad .fawn addr = (s.count .FWN_ECC_UE 0 0 1).raise ⟨.fwn, 0⟩ 1 := by
  have hfwn : ((s.count .FWN_ECC_UE 0 0 1).raise ⟨.fwn, 0⟩ 1).fwn = [] := (State.raise_fwn _ _ _ _).trans h
  simp only [State.sramBad, hfwn]

/-- An entry of Part Table SRAM is lost: its table is cut at it (R286). -/
def AtnTable.loses (e : Nat) (t : AtnTable) : AtnTable :=
  { t with trunc := true, lost := if t.lost.contains e then t.lost else t.lost ++ [e] }

theorem AtnTable.loses_shows (e : Nat) (t : AtnTable) : (t.loses e).id = t.id ∧ (t.loses e).trunc = true ∧ e ∈ (t.loses e).lost := by
  refine ⟨rfl, rfl, ?_⟩
  simp only [AtnTable.loses]
  split
  · rename_i h
    simpa using h
  · simp

theorem State.mem_modTable_loses {s : State} {id e : Nat} {x : AtnTable} (hx : x ∈ (s.modTable id (AtnTable.loses e)).tables) (hid : x.id = id) :
    x.trunc = true ∧ e ∈ x.lost := by
  obtain ⟨y, -, rfl⟩ := List.mem_map.mp hx
  obtain ⟨hsame, htrunc, hlost⟩ := y.loses_shows e
  by_cases hy : y.id = id
  · simp [hy, htrunc, hlost]
  · simp [hy] at hid

theorem State.sramBad_table_idle {s : State} (h : s.attn = []) (id : PartId) (e : Fin 256) (addr : Nat) :
    s.sramBad (.table id e) addr = ((s.count .ATN_ECC_UE 0 0 1).raise ⟨.atn, 0⟩ 2).modTable id (AtnTable.loses e) := by
  have hattn : (((s.count .ATN_ECC_UE 0 0 1).raise ⟨.atn, 0⟩ 2).modTable id (AtnTable.loses e)).attn = [] :=
    (State.raise_attn _ _ _ _).trans h
  have hdef : s.sramBad (.table id e) addr =
      match (((s.count .ATN_ECC_UE 0 0 1).raise ⟨.atn, 0⟩ 2).modTable id (AtnTable.loses e)).attn.find?
        (fun x => x.boxes.any (fun b => b.table == some id.val)) with
      | some x => (((s.count .ATN_ECC_UE 0 0 1).raise ⟨.atn, 0⟩ 2).modTable id (AtnTable.loses e)).abortMem x.job x.desc
      | none => ((s.count .ATN_ECC_UE 0 0 1).raise ⟨.atn, 0⟩ 2).modTable id (AtnTable.loses e) := rfl
  rw [hdef, hattn]
  rfl

end Sys2Proof.Machine

section
open Sys2Proof Sys2Proof.Machine

/-- Settles O43: an error is counted and raised on its page; what more it could reach is idle here, and a cluster's upset moves its bucket alone. -/
theorem sramErrorsAreCounted : Obligations.SramErrorsAreCounted := by
  intro s addr ha
  obtain ⟨-, hfwnCe, hatn⟩ := ceFlds_apart
  refine ⟨fun k hk => ⟨?_, ?_⟩, fun k hk => ⟨?_, fun hidle hkeep => ?_⟩, ?_, fun hfwn => ?_, fun id e => ⟨?_, fun hattn => ?_⟩⟩
  · rw [exec_sramCorrected_awake ha, State.sramCorrected_disabled hk]
  · rw [exec_sramUe_awake ha, State.sramBad_disabled hk]
  · exact answers_of_next (exec_sramCorrected_awake ha _ _) (State.sramCorrected_cluster_shows hk addr rfl)
  · exact answers_of_next (exec_sramUe_awake ha _ _) (State.sramBad_cluster_shows hk addr hidle hkeep rfl)
  · refine answers_of_next (exec_sramCorrected_awake ha _ _) ?_
    rw [State.sramCorrected_fawn]
    exact ⟨State.ceCounted_counts s ⟨.fwn, 0⟩ 0 hfwnCe, State.ceCounted_event s ⟨.fwn, 0⟩ (by decide) hfwnCe⟩
  · refine answers_of_next (exec_sramUe_awake ha _ _) ?_
    rw [State.sramBad_fawn_idle hfwn]
    exact State.ueCounted_shows s ⟨.fwn, 0⟩ (by decide) rfl
  · refine answers_of_next (exec_sramCorrected_awake ha _ _) ?_
    rw [State.sramCorrected_table]
    exact ⟨State.ceCounted_counts s ⟨.atn, 0⟩ 1 hatn, State.ceCounted_event s ⟨.atn, 0⟩ (by decide) hatn⟩
  · refine answers_of_next (exec_sramUe_awake ha _ _) ?_
    rw [State.sramBad_table_idle hattn]
    obtain ⟨hcount, hevent, honly⟩ := State.ueCounted_shows s ⟨.atn, 0⟩ (f := .ATN_ECC_UE) (ev := 2) (by decide) rfl
    exact ⟨hcount, hevent, fun x hx hid => State.mem_modTable_loses hx hid, honly.modTable id _⟩
end

/-!
PROOFS. Fawn's passes (R180, R181): the place that a pass takes, a pass that becomes ready, and the end of the pass that runs.
-/
namespace Sys2Proof.Machine

/-! ## The place of a pass -/

/-- The passes after one of the Fawn partition has suspended the first, where that is of the BE partition. -/
def suspendFirst : List FwnPass → List FwnPass
  | [] => []
  | y :: ys => if y.be then { y with suspended := true } :: ys else y :: ys

theorem length_suspendFirst (l : List FwnPass) : (suspendFirst l).length = l.length := by
  cases l with
  | nil => rfl
  | cons y ys => cases hy : y.be <;> simp [suspendFirst, hy]

/-- Each pass is of the BE partition or not. -/
theorem length_passes_split (l : List FwnPass) : (l.filter (fun y => !y.be)).length + (l.filter (fun y => y.be)).length = l.length := by
  induction l with
  | nil => rfl
  | cons y ys ih =>
    cases hy : y.be
    · simp only [List.filter_cons, hy, Bool.not_false, if_true, Bool.false_eq_true, if_false, List.length_cons]
      omega
    · simp only [List.filter_cons, hy, Bool.not_true, if_true, Bool.false_eq_true, if_false, List.length_cons]
      omega

theorem State.queuePass_be {x : FwnPass} (h : x.be = true) (s : State) : (s.queuePass x).fwn = s.fwn ++ [x] := by
  simp [State.queuePass, h]

/-- A pass of the Fawn partition goes behind those of its partition and before those of the BE partition. -/
theorem State.queuePass_lc {x : FwnPass} (h : x.be = false) (s : State) :
    (s.queuePass x).fwn = (suspendFirst s.fwn).filter (fun y => !y.be) ++ x :: (suspendFirst s.fwn).filter (fun y => y.be) := by
  simp only [State.queuePass, h, Bool.false_eq_true, if_false]
  cases hl : s.fwn with
  | nil => simp [suspendFirst, hl]
  | cons y ys => cases hy : y.be <;> simp [suspendFirst, hl, hy]

theorem State.mem_queuePass (s : State) (x : FwnPass) : x ∈ (s.queuePass x).fwn := by
  cases h : x.be with
  | true => simp [State.queuePass_be h]
  | false => simp [State.queuePass_lc h]

theorem State.length_queuePass (s : State) (x : FwnPass) : (s.queuePass x).fwn.length = s.fwn.length + 1 := by
  cases h : x.be with
  | true => simp [State.queuePass_be h]
  | false =>
    have hsplit := length_passes_split (suspendFirst s.fwn)
    rw [length_suspendFirst] at hsplit
    rw [State.queuePass_lc h, List.length_append, List.length_cons, ← hsplit]
    omega

/-- The suspension of a pass is counted. -/
theorem State.queuePass_suspends {s : State} {x y : FwnPass} {ys : List FwnPass} (h : x.be = false) (hs : s.fwn = y :: ys) (hy : y.be = true) :
    (s.queuePass x).get .FWN_SUSPENDS = satAdd Fld.FWN_SUSPENDS.width (s.get .FWN_SUSPENDS) 1 := by
  have hregs : (s.queuePass x).regs = (s.count .FWN_SUSPENDS 0 0 1).regs := by simp [State.queuePass, h, hs, hy]
  rw [State.get_congr hregs, State.get_count_self]

/-! ## A pass that becomes ready -/

theorem exec_fawnPassReady_awake {s : State} (h : s.awake = true) (p : Part) : exec (.fawnPassReady p) s = .next (s.fawnReady p) := by
  change Host.Outcome.next (s.whenAwake (fun s => s.fawnReady p)) = _
  rw [State.whenAwake_awake h]

theorem State.toPoint_fwn (s : State) (k : Nat) : (s.toPoint k).fwn = s.fwn := by
  unfold State.toPoint
  split
  · rfl
  split
  · rfl
  split <;> rfl

theorem State.clockChoice_fwn (s : State) (phase : Nat → Option Phase) : (s.clockChoice phase).fwn = s.fwn := State.toPoint_fwn _ _

theorem State.loadScales_fwn {s t : State} {j : Job} {P : Plan} {r : StepRun} {idx : Nat} (h : s.loadScales j P r idx = some t) :
    t.fwn = s.fwn := by
  simp only [State.loadScales] at h
  split at h
  · cases h
  · exact Option.some.inj h ▸ rfl

/-- The preparation of a descriptor's first unit leaves Fawn's passes (R242, R428, R519). -/
theorem State.firstUnit_fwn (s : State) (j : Job) (P : Plan) (r : StepRun) (x : DescRun) :
    ((s.firstUnit j P r x).getD s).fwn = s.fwn := by
  unfold State.firstUnit
  split
  · rfl
  cases hload : s.loadScales j P r x.idx with
  | none => rfl
  | some t =>
    have hclock : (if t.isOn .MGT_MODE_freq_mode then t else t.clockChoice t.phaseOf).fwn = t.fwn := by
      split
      · rfl
      · exact t.clockChoice_fwn _
    exact hclock.trans (State.loadScales_fwn hload)

/-- The units of a pass's descriptors are assigned (R242, R428). -/
def State.assignPass (s : State) (P : Plan) (r : StepRun) (n : Nat) (l : List Nat) : State :=
  s.forEach l (fun s k => match s.job n with
    | none => s
    | some j => match j.run.bind (fun r => r.descs.find? (fun x => x.idx == k)) with
      | none => s
      | some x => ((s.firstUnit j P r x).getD s).modDesc j.no k (fun x => { x with assigned := 1 }))

theorem State.assignPass_fwn (s : State) (P : Plan) (r : StepRun) (n : Nat) (l : List Nat) : (s.assignPass P r n l).fwn = s.fwn := by
  refine State.forEach_keeps State.fwn (fun t k _ => ?_) s
  split
  · rfl
  split
  · rfl
  · exact t.firstUnit_fwn _ _ _ _

theorem State.job_no {s : State} {n : Nat} {j : Job} (h : s.job n = some j) : j.no = n := by
  simpa using List.find?_some h

/-- The job on a partition's clusters is the one that its schedule names. -/
theorem State.current_no {s : State} {p n : Nat} {j : Job} {P : Plan} {r : StepRun} (hn : (s.sch p).running = some n)
    (hc : s.current p = some (j, P, r)) : j.no = n := by
  unfold State.current at hc
  rw [hn, Option.bind_some] at hc
  split at hc
  · cases hc
  · rename_i k hk
    split at hc
    · cases hc
      exact State.job_no hk
    · cases hc

section
variable {s : State} {p n i : Nat} {j : Job} {P : Plan} {r : StepRun} {l : List Nat}

/-- A pass whose turn it is and that waits for nothing is assigned and takes its place (R181). -/
theorem State.fawnReady_takes (hw : s.partWorks p = true) (hn : (s.sch p).running = some n) (he : (s.sch p).ending = false)
    (hsame : (s.beginStep n).advance n = s) (hc : s.current p = some (j, P, r)) (hl : passOf P r = i :: l) (hroom : s.fwn.length < 8)
    (hturn : r.inTurn P i = true) (hfree : (i :: l).any (fun k => s.blocked (s.envOf j P r k)
      { r with descs := r.descs.filter (fun x => !(i :: l).contains x.idx || x.idx == k) } k 0) = false) :
    ∃ be, s.fawnReady p = (s.assignPass P r j.no (i :: l)).queuePass { part := p, job := j.no, descs := i :: l, be := be } := by
  refine ⟨(s.assignPass P r j.no (i :: l)).partIsBe p, ?_⟩
  simp only [State.fawnReady, hw, hn, he, hsame, hc, hl, hturn, hfree, Nat.not_le.mpr hroom, Bool.not_true, Bool.or_self, decide_false,
    Bool.false_eq_true, if_false]
  rfl

end

/-! ## The end of the pass that runs -/

theorem exec_fawnPassDone_awake {s : State} (h : s.awake = true) : exec .fawnPassDone s = .next s.fawnDone := by
  change Host.Outcome.next (s.whenAwake (fun s => s.fawnDone)) = _
  rw [State.whenAwake_awake h]

theorem State.fawnDone_idle {s : State} (h : s.fwn = []) : s.fawnDone = s := by simp only [State.fawnDone, h]

/-- One descriptor of the pass that ends: its results, or the abort of its job, unless one before it has aborted it. -/
def State.passDesc (n : Nat) (a : State × Bool) (i : Nat) : State × Bool :=
  if a.2 then a else
    let b := a.1.fawnDesc n i
    if b.2 then (b.1.abortMem n i, true) else (b.1, false)

theorem State.fawnDone_runs {s : State} {x : FwnPass} {xs : List FwnPass} (h : s.fwn = x :: xs) :
    s.fawnDone = ((x.descs.foldl (State.passDesc x.job) ({ s with fwn := xs }, false)).1.count .FWN_PASSES 0 0 1).drain x.part := by
  simp only [State.fawnDone, h]
  rfl

/-- What a descriptor of a pass does reaches no register of Fawn's page. -/
theorem State.passDesc_fawn {m : Fld → Nat → Nat → Nat} {a : State × Bool} (h : Held (oneFld .FWN_PASSES) m a.1) (n i : Nat) :
    Held (oneFld .FWN_PASSES) m (State.passDesc n a i).1 := by
  have hdesc := State.fawnDesc_stays h (avoid_one rfl rfl) n i
  unfold State.passDesc
  split
  · exact h
  dsimp only
  split
  · exact State.abortMem_stays hdesc (avoid_one rfl rfl) n i
  · exact hdesc

/-- The end of a pass is counted, whatever its descriptors did. -/
theorem State.fawnDone_counts {s : State} {x : FwnPass} {xs : List FwnPass} (h : s.fwn = x :: xs) :
    s.fawnDone.get .FWN_PASSES = satAdd Fld.FWN_PASSES.width (s.get .FWN_PASSES) 1 := by
  have hdescs : Held (oneFld .FWN_PASSES) (fun f i j => s.get f i j) (x.descs.foldl (State.passDesc x.job) ({ s with fwn := xs }, false)).1 :=
    held_foldl_fst (held_self s) x.descs fun a i ha => State.passDesc_fawn ha x.job i
  rw [State.fawnDone_runs h, get_of_held (State.drain_stays (held_self _) (avoid_one rfl rfl) x.part), State.get_count_self, get_of_held hdescs]

end Sys2Proof.Machine

section
open Sys2Proof Sys2Proof.Machine

/-- Settles O42: a ready pass is assigned, which leaves Fawn's passes, then takes its place; no descriptor of a pass reaches its count. -/
theorem fawnRunsPasses : Obligations.FawnRunsPasses := by
  intro s ha
  refine ⟨fun p n j P r i l hw hn he hsame hc hl hroom hturn hfree => ?_, fun x rest hs => ?_, fun hs => ?_, fun x hx => ⟨fun y rest hs hy => ?_, ?_⟩⟩
  · obtain ⟨be, htake⟩ := State.fawnReady_takes hw hn he hsame hc hl hroom hturn hfree
    refine answers_of_next (exec_fawnPassReady_awake ha p) ?_
    rw [htake, State.length_queuePass, State.assignPass_fwn]
    exact ⟨⟨_, State.mem_queuePass _ _, rfl, State.current_no hn hc, rfl⟩, rfl⟩
  · exact answers_of_next (exec_fawnPassDone_awake ha) (State.fawnDone_counts hs)
  · rw [exec_fawnPassDone_awake ha, State.fawnDone_idle hs]
  · exact State.queuePass_suspends hx hs hy
  · exact ⟨_, _, State.queuePass_lc hx s, fun y hy => by simpa using (List.mem_filter.mp hy).2, fun y hy => (List.mem_filter.mp hy).2⟩
end

/-!
PROOFS. Plans in their slots (R184 to R187, R414, R415): the word that loads and unloads, the checks of a load, the switch, and the unload.
-/
namespace Sys2Proof.Machine

/-! ## Plan slots -/

theorem listMod_listMod {α : Type} (f g : α → α) (l : List α) (i : Nat) : listMod (listMod l i f) i g = listMod l i (fun x => g (f x)) := by
  induction l generalizing i with
  | nil => rfl
  | cons x l ih =>
    cases i with
    | zero => rfl
    | succ i => simp only [listMod, ih]

/-- An entry that is there takes its update. -/
theorem getD_listMod_self {α : Type} {l : List α} {i : Nat} {d : α} (h : l.getD i d ≠ d) (f : α → α) :
    (listMod l i f).getD i d = f (l.getD i d) := by
  induction l generalizing i with
  | nil => simp at h
  | cons x l ih =>
    cases i with
    | zero => simp [listMod]
    | succ i => simpa [listMod] using ih (by simpa using h)

theorem State.modSlot_modSlot (s : State) (p k : Nat) (f g : PlanSt → PlanSt) :
    (s.modSlot p k f).modSlot p k g = s.modSlot p k (fun x => g (f x)) := by
  simp only [State.modSlot, listMod_listMod]

theorem State.slotSt_congr {s t : State} (h : t.cmd = s.cmd) (p k : Nat) : t.slotSt p k = s.slotSt p k := by
  simp only [State.slotSt, h]

/-- A slot that holds anything takes its update. -/
theorem State.slotSt_modSlot_held {s : State} {p k : Nat} (h : s.slotSt p k ≠ {}) (f : PlanSt → PlanSt) :
    (s.modSlot p k f).slotSt p k = f (s.slotSt p k) := by
  have hrow : s.cmd.slots.getD p [] ≠ [] := fun hnil => h (by rw [State.slotSt, hnil]; rfl)
  have hslots : (s.modSlot p k f).slotSt p k = ((listMod s.cmd.slots p (fun l => listMod l k f)).getD p []).getD k {} := rfl
  rw [hslots, getD_listMod_self hrow, getD_listMod_self h]
  rfl

theorem State.slotBusy_congr {s t : State} (h : t.cmd.jobs = s.cmd.jobs) (p k : Nat) : t.slotBusy p k = s.slotBusy p k := by
  simp only [State.slotBusy, State.partJobs, h]

/-! ## The word that loads and unloads (R187, R415) -/

/-- The word of CMD_PLAN_LOAD lies in its slot's block. -/
theorem State.cmdPartWord_planLoad (s : State) (fn p : Nat) (k : PlanSlot) (x : Nat) :
    s.cmdPartWord fn p (0x20C + k * 0x40) x = s.planWord fn p k 0xC (0x20C + k * 0x40) x := by
  have hk := k.isLt
  obtain ⟨off, hoff⟩ : ∃ off, off = 0x20C + k.val * 0x40 := ⟨_, rfl⟩
  have hslot : inArray off 0x200 0x40 8 = some (k.val, 0xC) := inArray_at (by omega) (by decide) hk
  have hother : off ≠ 0x104 ∧ off ≠ 0x12C ∧ off ≠ 0x140 ∧ off ≠ 0x144 ∧ off ≠ 0x148 := by omega
  obtain ⟨hrelease, hclear, hlow, hhigh, hdig⟩ := hother
  rw [← hoff]
  simp only [State.cmdPartWord, hrelease, hclear, hlow, hhigh, hdig, if_false, Bool.or_self, decide_false, Bool.false_eq_true, hslot]

theorem State.hostRow_planLoad {s : State} {fn : Nat} {p : Part} {k : PlanSlot} (ho : s.opens fn (cmdPage p) (0x20C + k * 0x40) = true)
    (x : Nat) : s.hostRow fn (cmdPage p) (0x20C + k * 0x40) x = s.planWord fn p k 0xC (0x20C + k * 0x40) x := by
  rw [State.hostRow_opens ho, if_neg (by omega)]
  exact s.cmdPartWord_planLoad fn p k x

theorem bit_goWord (hold : Bool) : bit (1 + 2 * b2n hold) 0 = true ∧ bit (1 + 2 * b2n hold) 1 = hold ∧ bit (1 + 2 * b2n hold) 2 = false := by
  cases hold <;> decide

theorem bit_unloadWord (hold : Bool) : bit (4 + 2 * b2n hold) 0 = false ∧ bit (4 + 2 * b2n hold) 1 = hold ∧ bit (4 + 2 * b2n hold) 2 = true := by
  cases hold <;> decide

/-- CMD_PLAN_LOAD.hold as it was written. -/
def State.setHold (s : State) (p k : Nat) (hold : Bool) : State := s.set .CMD_PLAN_LOAD_hold p k (b2n hold)

theorem exec_planLoadGo_open {s : State} {fn : Fn} {p : Part} {k : PlanSlot} (ho : s.opens fn (cmdPage p) (0x20C + k * 0x40) = true) (hold : Bool) :
    exec (.planLoadGo fn p k hold) s = .next ((s.setHold p k hold).planGo p k hold) := by
  obtain ⟨hgo, hhold, hunload⟩ := bit_goWord hold
  refine congrArg Host.Outcome.next ((State.hostRow_planLoad ho _).trans ?_)
  simp only [State.planWord, hgo, hhold, hunload, if_true, Bool.false_eq_true, if_false]
  rfl

theorem exec_planUnload_open {s : State} {fn : Fn} {p : Part} {k : PlanSlot} (ho : s.opens fn (cmdPage p) (0x20C + k * 0x40) = true) :
    exec (.planUnload fn p k) s =
      .next ((s.setHold p k (s.isOn .CMD_PLAN_LOAD_hold p k)).planUnload fn p k (0x20C + k * 0x40)) := by
  obtain ⟨hgo, hhold, hunload⟩ := bit_unloadWord (s.isOn .CMD_PLAN_LOAD_hold p k)
  refine congrArg Host.Outcome.next ((State.hostRow_planLoad ho _).trans ?_)
  simp only [State.planWord, hgo, hhold, hunload, if_true, Bool.false_eq_true, if_false]
  rfl

/-- A slot's waiting load, replaced. -/
def State.putLoad (s : State) (p k : Nat) (l : Option PlanLoad) : State := s.modSlot p k (fun x => { x with load := l })

theorem State.slotSt_putLoad_none (s : State) (p k : Nat) : ((s.putLoad p k none).slotSt p k).load = none := by
  rw [State.putLoad, State.slotSt_modSlot rfl, if_pos ⟨rfl, rfl⟩]

/-! ## A go (R187) -/

theorem State.Only.withCmd {l : List CellId} {s t : State} (h : State.Only l s t) (c : CmdState) : State.Only l { s with cmd := c } { t with cmd := c } where
  rest := by rw [h.rest]
  lost := h.lost
  cells := h.cells

/-- The cells that a go writes. -/
def planGoCells (p k : Nat) : List CellId := [(.CMD_PLAN_STATUS_load, p, k), (.CMD_PLAN_STATUS_code, p, k), (.CMD_PLAN_LOAD_hold, p, k)]

/-- What a go leaves: its registers, and its load in the place of the one that waited. -/
theorem State.planGo_shows (s : State) (p k : Nat) (hold : Bool) {t : State} (ht : (s.setHold p k hold).planGo p k hold = t) :
    t.get .CMD_PLAN_STATUS_load p k = 1 ∧ t.get .CMD_PLAN_STATUS_code p k = 0 ∧ t.get .CMD_PLAN_LOAD_hold p k = b2n hold ∧
    t.cmd = (s.modSlot p k (fun x =>
      { x with load := some ⟨s.get .CMD_PLAN_BASE p k, s.get .CMD_PLAN_SIZE p k, hold, none⟩ })).cmd ∧
    State.Only (planGoCells p k) { s with cmd := t.cmd } t := by
  have hbase : ((s.setHold p k hold).setHold p k hold).get .CMD_PLAN_BASE p k = s.get .CMD_PLAN_BASE p k := by
    rw [State.setHold, State.get_set_other _ rfl, State.setHold, State.get_set_other _ rfl]
  have hsize : ((s.setHold p k hold).setHold p k hold).get .CMD_PLAN_SIZE p k = s.get .CMD_PLAN_SIZE p k := by
    rw [State.setHold, State.get_set_other _ rfl, State.setHold, State.get_set_other _ rfl]
  have hb : b2n hold < 2 := by cases hold <;> decide
  have hdef : (s.setHold p k hold).planGo p k hold =
      ((((s.setHold p k hold).setHold p k hold).putLoad p k (some ⟨((s.setHold p k hold).setHold p k hold).get .CMD_PLAN_BASE p k,
        ((s.setHold p k hold).setHold p k hold).get .CMD_PLAN_SIZE p k, hold, none⟩)).set
        .CMD_PLAN_STATUS_load p k 1).set .CMD_PLAN_STATUS_code p k 0 := rfl
  rw [hdef, hbase, hsize] at ht
  subst ht
  refine ⟨?_, ?_, ?_, rfl, ?_⟩
  · rw [State.get_set_other _ rfl, State.get_set_self]
    rfl
  · rw [State.get_set_self]
    rfl
  · rw [State.get_set_other _ rfl, State.get_set_other _ rfl]
    exact (State.get_set_self _ _ _ _ _).trans (Nat.mod_eq_of_lt hb)
  · have hregs : State.Only (planGoCells p k) s
        ((((s.setHold p k hold).setHold p k hold).set .CMD_PLAN_STATUS_load p k 1).set .CMD_PLAN_STATUS_code p k 0) :=
      ((((State.Only.refl _ s).set _ (by simp [planGoCells])).set _ (by simp [planGoCells])).set _ (by simp [planGoCells])).set _
        (by simp [planGoCells])
    exact hregs.withCmd _

/-! ## The checks of a load (R184, R186) -/

theorem exec_planCheckDone_awake {s : State} (h : s.awake = true) (p : Part) (k : PlanSlot) :
    exec (.planCheckDone p k) s = .next (s.planChecked p k) := by
  change Host.Outcome.next (s.whenAwake (fun s => s.planChecked p k)) = _
  rw [State.whenAwake_awake h]

section
variable {s : State} {p k : Nat} {l : PlanLoad}

/-- A load whose checks pass is PENDING with the plan that was read. -/
theorem State.planChecked_passes (hload : (s.slotSt p k).load = some l) (hplan : l.plan = none)
    (hwork : (s.partList p).any (fun n => s.cluRetired ((s.physOf n).getD 0)) = false)
    (hok : s.planRefused p k l.base l.size (s.otherCtxs p k) = none) :
    s.planChecked p k = (s.putLoad p k (some { l with plan := some (s.readPlan p l.base l.size) })).set .CMD_PLAN_STATUS_load p k 2 := by
  simp only [State.planChecked, hload, hplan, hwork, hok, Option.isSome_none, Bool.false_eq_true, if_false]
  rfl

theorem State.planChecked_passes_shows (hload : (s.slotSt p k).load = some l) (hplan : l.plan = none)
    (hwork : (s.partList p).any (fun n => s.cluRetired ((s.physOf n).getD 0)) = false)
    (hok : s.planRefused p k l.base l.size (s.otherCtxs p k) = none) {t : State} (ht : s.planChecked p k = t) :
    t.get .CMD_PLAN_STATUS_load p k = 2 ∧ (t.slotSt p k).load = some { l with plan := some (s.readPlan p l.base l.size) } ∧
    State.Only [(.CMD_PLAN_STATUS_load, p, k)] { s with cmd := t.cmd } t := by
  rw [State.planChecked_passes hload hplan hwork hok] at ht
  subst ht
  have hheld : s.slotSt p k ≠ {} := fun hempty => by
    rw [hempty] at hload
    cases hload
  refine ⟨?_, ?_, ?_⟩
  · rw [State.get_set_self]
    rfl
  · rw [State.slotSt_congr (State.set_cmd _ _ _ _ _), State.putLoad, State.slotSt_modSlot_held hheld]
  · exact (State.only_set (l := [(.CMD_PLAN_STATUS_load, p, k)]) List.mem_cons_self s 2).withCmd _

/-- A load whose checks fail is gone, with its code and PLAN_REFUSED. -/
theorem State.planChecked_refused (hload : (s.slotSt p k).load = some l) (hplan : l.plan = none)
    (hwork : (s.partList p).any (fun n => s.cluRetired ((s.physOf n).getD 0)) = false) {x d : Nat}
    (hbad : s.planRefused p k l.base l.size (s.otherCtxs p k) = some (x, d)) :
    ∃ u detail, s.planChecked p k =
      (((State.putLoad u p k none).set .CMD_PLAN_STATUS_load p k 3).set .CMD_PLAN_STATUS_code p k x).raise (cmdPage p) 1 detail := by
  simp only [State.planChecked, hload, hplan, hwork, hbad, Option.isSome_none, Bool.false_eq_true, if_false]
  exact ⟨_, _, rfl⟩

theorem State.refusedLoad_shows (u : State) (p k x detail : Nat) {t : State}
    (ht : (((u.putLoad p k none).set .CMD_PLAN_STATUS_load p k 3).set .CMD_PLAN_STATUS_code p k x).raise (cmdPage p) 1 detail = t) :
    t.get .CMD_PLAN_STATUS_load p k = 3 ∧ t.get .CMD_PLAN_STATUS_code p k = x % 2 ^ 8 ∧ t.event (cmdPage p) 1 = true ∧
    (t.slotSt p k).load = none := by
  subst ht
  refine ⟨?_, ?_, State.raise_event _ _ _ (by decide), ?_⟩
  · rw [State.get_raise _ _ _ _ _ rfl, State.get_set_other _ rfl, State.get_set_self]
    rfl
  · rw [State.get_raise _ _ _ _ _ rfl, State.get_set_self]
    rfl
  · rw [State.slotSt_congr (State.raise_cmd _ _ _ _)]
    exact u.slotSt_putLoad_none p k

end

/-! ## The registers that show a slot -/

/-- The registers that show the plan of a slot. -/
def planFlds : List Fld := [.CMD_PLAN_STATUS_state, .CMD_PLAN_STATUS_load, .CMD_PLAN_STATUS_mode, .CMD_PLAN_DIGEST]

/-- The registers of a slot's job are none of its plan's. -/
theorem State.showJob_planFlds {m : Fld → Nat → Nat → Nat} {s : State} (h : Held (listed planFlds) m s) (p k : Nat) :
    Held (listed planFlds) m (s.showJob p k) := by
  have hctx := fun v => State.set_stays h .CMD_PLAN_JOB_ctx p k v (off_listed rfl)
  have hvalid := fun v w => State.set_stays (hctx v) .CMD_PLAN_JOB_valid p k w (off_listed rfl)
  have hsave := fun v w x => State.set_stays (hvalid v w) .CMD_PLAN_JOB_save p k x (off_listed rfl)
  unfold State.showJob
  split
  · exact State.set_stays (hsave _ _ _) _ _ _ _ (off_listed rfl)
  · exact hsave _ _ _

/-! ## The switch (R186) -/

theorem exec_planSwitch_awake {s : State} (h : s.awake = true) (p : Part) (k : PlanSlot) :
    exec (.planSwitch p k) s = .next (s.switchSlot p k) := by
  change Host.Outcome.next (s.whenAwake (fun s => s.switchSlot p k)) = _
  rw [State.whenAwake_awake h]

theorem State.switchSlot_waits {s : State} {p k : Nat} (h : s.switchDue p k = none) : s.switchSlot p k = s := by
  simp only [State.switchSlot, h]

/-- A plan that becomes active in its slot's registers. -/
def State.showPlan (s : State) (p k : Nat) (P : Plan) : State :=
  ((((s.set .CMD_PLAN_STATUS_state p k 1).set .CMD_PLAN_STATUS_load p k 0).set .CMD_PLAN_STATUS_code p k 0).set
    .CMD_PLAN_STATUS_mode p k (b2n P.batch)).set .CMD_PLAN_DIGEST p k P.digest

theorem State.showPlan_shows (s : State) (p k : Nat) (P : Plan) :
    (s.showPlan p k P).get .CMD_PLAN_STATUS_state p k = 1 ∧ (s.showPlan p k P).get .CMD_PLAN_STATUS_load p k = 0 ∧
    (s.showPlan p k P).get .CMD_PLAN_STATUS_mode p k = b2n P.batch ∧
    (s.showPlan p k P).get .CMD_PLAN_DIGEST p k = P.digest % 2 ^ 256 := by
  have hmode : b2n P.batch < 2 := by cases P.batch <;> decide
  unfold State.showPlan
  refine ⟨?_, ?_, ?_, State.get_set_self _ _ _ _ _⟩
  · repeat rw [State.get_set_other _ rfl]
    exact State.get_set_self _ _ _ _ _
  · repeat rw [State.get_set_other _ rfl]
    exact State.get_set_self _ _ _ _ _
  · rw [State.get_set_other _ rfl, State.get_set_self]
    exact Nat.mod_eq_of_lt hmode

/-- A plan that becomes active shows itself in its slot's registers; its job and the jobs that are ready come after, and reach none of them. -/
theorem State.activate_planFlds (s : State) (p k : Nat) (P : Plan) (s0 seed : Nat) :
    ∃ u, Held (listed planFlds) (fun f i j => (State.showPlan u p k P).get f i j) (s.activate p k P s0 seed) := by
  have hdef : ∃ u, s.activate p k P s0 seed =
      ((if P.batch then State.showPlan u p k P else ((State.showPlan u p k P).takeJob p k false s0 seed).1).showJob p k).refreshReady :=
    ⟨_, rfl⟩
  obtain ⟨u, hu⟩ := hdef
  have hshown := held_self (P := listed planFlds) (u.showPlan p k P)
  have hjob := held_else (p := P.batch = true) (State.takeJob_stays hshown (avoid_listed rfl) p k false s0 seed) fun _ => hshown
  rw [hu]
  exact ⟨u, State.refreshReady_stays (State.showJob_planFlds hjob p k) (avoid_listed rfl)⟩

/-- A plan that is due becomes active, with PLAN_SWITCH (R186). -/
theorem State.switchSlot_shows {s : State} {p k : Nat} {P : Plan} (h : s.switchDue p k = some P) :
    (s.switchSlot p k).event (cmdPage p) 0 = true ∧ (s.switchSlot p k).get .CMD_PLAN_STATUS_state p k = 1 ∧
    (s.switchSlot p k).get .CMD_PLAN_STATUS_load p k = 0 ∧ (s.switchSlot p k).isOn .CMD_PLAN_STATUS_mode p k = P.batch ∧
    (s.switchSlot p k).get .CMD_PLAN_DIGEST p k = P.digest % 2 ^ 256 := by
  obtain ⟨u, hu⟩ := s.activate_planFlds p k P (s.get .CMD_PLAN_S0 p k) (s.get .CMD_PLAN_SEED p k)
  have hdef : s.switchSlot p k = (s.activate p k P (s.get .CMD_PLAN_S0 p k) (s.get .CMD_PLAN_SEED p k)).raise (cmdPage p) 0 := by
    simp only [State.switchSlot, h]
  have hheld := State.raise_listed hu (p := cmdPage p) rfl 0 0
  obtain ⟨hstate, hload, hmode, hdigest⟩ := u.showPlan_shows p k P
  rw [hdef]
  refine ⟨State.raise_event _ _ _ (by decide), (hheld _ _ _ rfl).trans hstate, (hheld _ _ _ rfl).trans hload, ?_, (hheld _ _ _ rfl).trans hdigest⟩
  exact (congrArg (· != 0) ((hheld .CMD_PLAN_STATUS_mode p k rfl).trans hmode)).trans (by cases P.batch <;> rfl)

/-! ## The unload (R415) -/

/-- Holding a load moves neither what may be unloaded nor what runs. -/
theorem State.setHold_mayUnload (s : State) (p k : Nat) (hold : Bool) : (s.setHold p k hold).mayUnload p k = s.mayUnload p k := by
  have hon : ∀ f i, f.diff .CMD_PLAN_LOAD_hold = true → (s.setHold p k hold).isOn f i = s.isOn f i := fun f i hf =>
    congrArg (· != 0) (State.get_set_other s hf _ _ _ _ _)
  have hcmd : (s.setHold p k hold).cmd = s.cmd := rfl
  simp only [State.mayUnload, State.slotSt_congr hcmd, State.partJobs, hcmd, hon (.CTRL_enable .capCtx) _ rfl, hon (.CTRL_enable .lnpCtx) _ rfl]

theorem State.setHold_slotBusy (s : State) (p k : Nat) (hold : Bool) : (s.setHold p k hold).slotBusy p k = s.slotBusy p k :=
  State.slotBusy_congr rfl p k

/-- The load that waits in a slot is dropped. -/
def State.dropLoad (s : State) (p k : Nat) : State := (s.putLoad p k none).set .CMD_PLAN_STATUS_load p k 0

theorem State.dropLoad_slotBusy (s : State) (p k : Nat) : (s.dropLoad p k).slotBusy p k = s.slotBusy p k := State.slotBusy_congr rfl p k

theorem State.planUnload_refused {s : State} {p k : Nat} (h : s.mayUnload p k = false) (fn off : Nat) :
    s.planUnload fn p k off = s.code (cmdPage p) fn off 0xC4 := by
  simp [State.planUnload, h]

/-- An unload that may be drops the waiting load; the slot is EMPTY at once, or after the step in progress. -/
theorem State.planUnload_taken {s : State} {p k : Nat} (h : s.mayUnload p k = true) (fn off : Nat) :
    s.planUnload fn p k off = if s.slotBusy p k then (s.dropLoad p k).modSlot p k (fun x => { x with unloading := true })
      else (s.dropLoad p k).emptySlot p k := by
  rw [← State.dropLoad_slotBusy]
  simp only [State.planUnload, h, Bool.not_true, Bool.false_eq_true, if_false]
  rfl

/-- An EMPTY slot in its registers. -/
def State.showEmpty (s : State) (p k : Nat) : State :=
  ((s.set .CMD_PLAN_STATUS_state p k 0).set .CMD_PLAN_STATUS_load p k 0).set .CMD_PLAN_DIGEST p k 0

theorem State.showEmpty_shows (s : State) (p k : Nat) :
    (s.showEmpty p k).get .CMD_PLAN_STATUS_state p k = 0 ∧ (s.showEmpty p k).get .CMD_PLAN_STATUS_load p k = 0 ∧
    (s.showEmpty p k).get .CMD_PLAN_DIGEST p k = 0 := by
  unfold State.showEmpty
  refine ⟨?_, ?_, ?_⟩
  · rw [State.get_set_other _ rfl, State.get_set_other _ rfl, State.get_set_self, Nat.zero_mod]
  · rw [State.get_set_other _ rfl, State.get_set_self, Nat.zero_mod]
  · rw [State.get_set_self, Nat.zero_mod]

/-- A slot that becomes EMPTY shows no plan. -/
theorem State.emptySlot_shows (s : State) (p k : Nat) :
    (s.emptySlot p k).get .CMD_PLAN_STATUS_state p k = 0 ∧ (s.emptySlot p k).get .CMD_PLAN_STATUS_load p k = 0 ∧
    (s.emptySlot p k).get .CMD_PLAN_DIGEST p k = 0 := by
  have hdef : ∃ u, s.emptySlot p k = (State.showEmpty u p k).showJob p k := ⟨_, rfl⟩
  obtain ⟨u, hu⟩ := hdef
  have hheld := State.showJob_planFlds (held_self (u.showEmpty p k)) p k
  obtain ⟨hstate, hload, hdigest⟩ := u.showEmpty_shows p k
  rw [hu]
  exact ⟨(hheld _ _ _ rfl).trans hstate, (hheld _ _ _ rfl).trans hload, (hheld _ _ _ rfl).trans hdigest⟩

/-- An unload that may not be is discarded with its code (R49, R415). -/
theorem State.planUnload_refused_shows {s : State} {p k : Nat} (h : s.mayUnload p k = false) (hold : Bool) (fn off : Nat) {t : State}
    (ht : (s.setHold p k hold).planUnload fn p k off = t) :
    t.event (cmdPage p) 31 = true ∧
    (s.isOn (.ERR_INFO_valid .cmdPart) p = false → t.get (.ERR_INFO_detail .cmdPart) p % 2 ^ 8 = 0xC4) ∧
    State.Only ((.CMD_PLAN_LOAD_hold, p, k) :: evtCells (cmdPage p)) s t := by
  rw [State.planUnload_refused ((s.setHold_mayUnload p k hold).trans h)] at ht
  subst ht
  obtain ⟨hevent, hdetail, honly⟩ := State.refuses_code (s.setHold p k hold) (cmdPage p) fn off 0xC4
  have hvalid : (s.setHold p k hold).isOn (.ERR_INFO_valid .cmdPart) p = s.isOn (.ERR_INFO_valid .cmdPart) p :=
    congrArg (· != 0) (State.get_set_other s rfl _ _ _ _ _)
  refine ⟨hevent, fun hfree => ?_, (State.only_set List.mem_cons_self s _).trans (honly.mono fun g hg => List.mem_cons_of_mem _ hg)⟩
  obtain ⟨-, hcode⟩ := hdetail (hvalid.trans hfree)
  rw [show (cmdPage p).kind = .cmdPart from rfl, show (cmdPage p).inst = p from rfl] at hcode
  rw [hcode]
  omega

/-- An unload during a step drops the waiting load, and leaves the slot's plan until the step ends (R415). -/
theorem State.planUnload_busy_shows {s : State} {p k : Nat} (h : s.mayUnload p k = true) (hb : s.slotBusy p k = true) (hold : Bool)
    (fn off : Nat) {t : State} (ht : (s.setHold p k hold).planUnload fn p k off = t) :
    t.get .CMD_PLAN_STATUS_load p k = 0 ∧ t.get .CMD_PLAN_STATUS_state p k = s.get .CMD_PLAN_STATUS_state p k ∧
    t.cmd = (s.modSlot p k (fun x => { x with load := none, unloading := true })).cmd := by
  rw [State.planUnload_taken ((s.setHold_mayUnload p k hold).trans h), State.setHold_slotBusy, if_pos hb] at ht
  subst ht
  have hget : ∀ (f : Fld) (i j : Nat), (((s.setHold p k hold).dropLoad p k).modSlot p k (fun x => { x with unloading := true })).get f i j =
      ((s.setHold p k hold).set .CMD_PLAN_STATUS_load p k 0).get f i j := fun _ _ _ => rfl
  refine ⟨?_, ?_, ?_⟩
  · rw [hget, State.get_set_self]
    rfl
  · rw [hget, State.get_set_other _ rfl, State.setHold, State.get_set_other _ rfl]
  · have hslots := congrArg State.cmd (s.modSlot_modSlot p k (fun x => { x with load := none }) (fun x => { x with unloading := true }))
    exact hslots

end Sys2Proof.Machine

section
open Sys2Proof Sys2Proof.Machine

/-- Settles O44: each of these commands ends in a few writes of the slot and its registers, which nothing that follows reaches. -/
theorem plansComeAndGo : Obligations.PlansComeAndGo := by
  intro p k s
  refine ⟨fun fn hold ho => ?_, fun l ha hload hplan hwork => ⟨fun hok => ?_, fun x d hbad => ?_⟩, fun ha => ⟨fun P hdue => ?_, fun hwait => ?_⟩,
    fun fn ho => ⟨fun hmay => ?_, fun hmay hbusy => ?_, fun hmay hbusy => ?_⟩⟩
  · exact answers_of_next (exec_planLoadGo_open ho hold) (s.planGo_shows p k hold rfl)
  · exact answers_of_next (exec_planCheckDone_awake ha p k) (State.planChecked_passes_shows hload hplan hwork hok rfl)
  · obtain ⟨u, detail, hu⟩ := State.planChecked_refused hload hplan hwork hbad
    exact answers_of_next (exec_planCheckDone_awake ha p k) (u.refusedLoad_shows p k x detail hu.symm)
  · exact answers_of_next (exec_planSwitch_awake ha p k) (State.switchSlot_shows hdue)
  · rw [exec_planSwitch_awake ha, State.switchSlot_waits hwait]
  · exact answers_of_next (exec_planUnload_open ho) (State.planUnload_refused_shows hmay _ _ _ rfl)
  · refine answers_of_next (exec_planUnload_open ho) ?_
    rw [State.planUnload_taken ((s.setHold_mayUnload p k _).trans hmay), State.setHold_slotBusy, hbusy]
    exact State.emptySlot_shows _ p k
  · exact answers_of_next (exec_planUnload_open ho) (State.planUnload_busy_shows hmay hbusy _ _ _ rfl)
end

/-!
PROOFS. Errors of HBM (R312, R313, R315, R567): a word that proves uncorrectable and what its consumer does, a correctable error, and the write-back
of a line.
-/
namespace Sys2Proof.Machine

/-! ## Words and lines of a pseudo-channel -/

/-- The key of a word gives back its pseudo-channel and its line (R311). -/
theorem wordKey_parts (k : Nat) {word : Nat} (h : word < pcWords) : wordKey k word / 2 ^ 30 = k ∧ wordKey k word % 2 ^ 30 / 64 = word / 8 := by
  simp only [wordKey, Nat.mod_eq_of_lt h]
  simp only [pcWords] at h
  omega

/-- The key of a line gives back its pseudo-channel, its line and its place among all lines (R311). -/
theorem lineKey_parts (k : Nat) {line : Nat} (h : line < 12582912) : (k * 2 ^ 30 + line * 64) / 2 ^ 30 = k ∧
    (k * 2 ^ 30 + line * 64) % 2 ^ 30 / 64 = line ∧ (k * 2 ^ 30 + line * 64) / 64 = k * 2 ^ 24 + line := by
  omega

theorem State.markBad_bad (s : State) (key : Nat) : key / 8 ∈ (s.markBad key).hbm.bad := by
  simp only [State.markBad]
  split
  · rename_i h
    simpa using h
  · simp

/-- Interrupt messages reach registers of CMD and HLK alone, so a kind of page that is none of theirs is out of reach of all that avoids it. -/
theorem avoid_of_kind {f : Fld} {k : PageKind} (hf : f.kind = k) (hmsg : [PageKind.cmd, .cmdPart, .hlk].contains k = false)
    {ks : List PageKind} (hks : ks.contains k = false) : Avoid (oneFld f) ks := by
  simp only [List.contains_eq_mem, List.mem_cons, List.not_mem_nil, or_false, not_or, decide_eq_false_iff_not] at hmsg
  obtain ⟨hcmd, hpart, hhlk⟩ := hmsg
  exact avoid_one (hf ▸ hks) (by simp [msgFlds, Fld.diff, Fld.MSIX_PBA_PF0, Fld.MSIX_PBA, Fld.HLK_CNT_WR_LOST, hf, hcmd, hpart, hhlk])

/-! ## An upset of a pseudo-channel -/

/-- The registers that an upset of a pseudo-channel can reach (R315, R319, R503). -/
def upsetFlds : List Fld := [.STATUS_retired .memPc, .MEM_RETIRED] ++ (evtFlds .memPc ++ evtFlds .mgt)

theorem diff_evtFlds_of_upsetFlds {f : Fld} (hf : upsetFlds.all (fun g => f.diff g) = true) :
    (evtFlds .memPc).all (fun g => f.diff g) = true := by
  simp only [upsetFlds, List.all_append, Bool.and_eq_true] at hf
  obtain ⟨-, hpc, -⟩ := hf
  exact hpc

/-- Beside its bucket an upset changes nothing, unless it makes the pseudo-channel permanent (R502). -/
theorem State.pcUpset_cases (s : State) (k : Nat) :
    ∃ u : State, u = { s with flt := u.flt } ∧ (s.pcUpset k = u ∨ s.pcUpset k = u.pcRetire k) := by
  unfold State.pcUpset
  dsimp only
  split
  · exact ⟨s, rfl, .inl rfl⟩
  split
  · exact ⟨(s.addUpset 0 k).1, rfl, .inr rfl⟩
  · exact ⟨(s.addUpset 0 k).1, rfl, .inl rfl⟩

theorem State.pcRetire_cmd (s : State) (k : Nat) : (s.pcRetire k).cmd = s.cmd := by
  simp [State.pcRetire, State.channelRetired]

theorem State.pcRetire_cap (s : State) (k : Nat) : (s.pcRetire k).cap = s.cap := by
  simp [State.pcRetire, State.channelRetired]

theorem State.pcRetire_get (s : State) (k : Nat) {f : Fld} (hf : upsetFlds.all (fun g => f.diff g) = true) (i j : Nat) :
    (s.pcRetire k).get f i j = s.get f i j := by
  simp only [upsetFlds, List.all_append, List.all_cons, List.all_nil, Bool.and_true, Bool.and_eq_true] at hf
  obtain ⟨⟨hstatus, hretired⟩, hpc, hmgt⟩ := hf
  rw [State.pcRetire, State.channelRetired, State.get_raise _ _ _ _ f hmgt]
  refine (State.get_raise _ _ _ _ f hpc _ _).trans ?_
  rw [State.get_set_other _ hretired, State.get_set_other _ hstatus]

/-- The event of a permanent pseudo-channel leaves those recorded before (R45, R319). -/
theorem State.pcRetire_event {s : State} {k n : Nat} (hn : n < 32) (h : s.event ⟨.memPc, k⟩ n = true) :
    (s.pcRetire k).event ⟨.memPc, k⟩ n = true := by
  have hmgt : ∀ t i, (State.channelRetired t 0 i).event ⟨.memPc, k⟩ n = t.event ⟨.memPc, k⟩ n := fun t i =>
    State.event_congr (State.get_raise _ ⟨.mgt, 0⟩ _ _ _ rfl _ _)
  rw [State.pcRetire, hmgt, State.raise, State.raiseMask_event _ _ _ _ _ hn, State.event_set _ rfl, State.event_set _ rfl, h, Bool.true_or]

theorem State.pcUpset_get (s : State) (k : Nat) {f : Fld} (hf : upsetFlds.all (fun g => f.diff g) = true) (i j : Nat) :
    (s.pcUpset k).get f i j = s.get f i j := by
  obtain ⟨u, hu, h | h⟩ := s.pcUpset_cases k
  · rw [h, hu]
    rfl
  · rw [h, State.pcRetire_get u k hf, hu]
    rfl

theorem State.pcUpset_event {s : State} {k n : Nat} (hn : n < 32) (hevent : s.event ⟨.memPc, k⟩ n = true) :
    (s.pcUpset k).event ⟨.memPc, k⟩ n = true := by
  obtain ⟨u, hu, h | h⟩ := s.pcUpset_cases k
  · rw [h, hu]
    exact hevent
  · rw [h]
    exact State.pcRetire_event hn (by rw [hu]; exact hevent)

theorem State.pcUpset_cmd_cap (s : State) (k : Nat) : (s.pcUpset k).cmd = s.cmd ∧ (s.pcUpset k).cap = s.cap := by
  obtain ⟨u, hu, h | h⟩ := s.pcUpset_cases k
  · rw [h, hu]
    exact ⟨rfl, rfl⟩
  · rw [h, State.pcRetire_cmd, State.pcRetire_cap, hu]
    exact ⟨rfl, rfl⟩

/-! ## The consumption of an uncorrectable word -/

/-- The registers that an error of HBM can reach (R312, R315, R567). -/
def hbmErrFlds : List Fld :=
  [.MEM_PC_ERR_ADDR_line, .MEM_PC_ERR_ADDR_ue, .MEM_PC_UE, .MEM_PC_LATENT, .MEM_PC_CE, .PCX_WIN_CE, .PCX_CE_DONE] ++ upsetFlds

theorem diff_upsetFlds_of_hbmErrFlds {f : Fld} (hf : hbmErrFlds.all (fun g => f.diff g) = true) : upsetFlds.all (fun g => f.diff g) = true := by
  rw [hbmErrFlds, List.all_append, Bool.and_eq_true] at hf
  obtain ⟨-, hupset⟩ := hf
  exact hupset

/-- The count of uncorrectable words: of the scrubber, or of any other consumer (R315). -/
def ueFld (scrub : Bool) : Fld := if scrub then .MEM_PC_LATENT else .MEM_PC_UE

/-- The event of an uncorrectable word: UE_LATENT or UE (R315). -/
def ueEvent (scrub : Bool) : Nat := if scrub then 2 else 1

/-- An uncorrectable word in the registers and the event of its pseudo-channel. -/
def State.ueNoted (s : State) (k line : Nat) (scrub : Bool) : State :=
  (((s.set .MEM_PC_ERR_ADDR_line k 0 line).set .MEM_PC_ERR_ADDR_ue k 0 1).count (ueFld scrub) k 0 1).raise ⟨.memPc, k⟩ (ueEvent scrub) line

/-- After ready, an uncorrectable word makes a scrub due at the next start (R485). -/
def State.wantScrub (s : State) : State :=
  if s.isOn .MGT_STATUS_ready then { s with velvet := { s.velvet with scrubDue := true } } else s

theorem State.wantScrub_rest (s : State) : s.wantScrub = { s with velvet := s.wantScrub.velvet } := by
  unfold State.wantScrub
  split <;> rfl

/-- An uncorrectable word is noted, a scrub may become due, and it is an upset (R315, R485, R502). -/
theorem State.ueFound_eq (s : State) (key : Nat) (scrub : Bool) :
    s.ueFound key scrub = (s.ueNoted (key / 2 ^ 30) (key % 2 ^ 30 / 64) scrub).wantScrub.pcUpset (key / 2 ^ 30) := by
  cases scrub <;> rfl

theorem State.ueNoted_get (s : State) (k line : Nat) (scrub : Bool) {f : Fld} (hf : hbmErrFlds.all (fun g => f.diff g) = true) (i j : Nat) :
    (s.ueNoted k line scrub).get f i j = s.get f i j := by
  simp only [hbmErrFlds, upsetFlds, List.all_append, List.all_cons, List.all_nil, Bool.and_true, Bool.and_eq_true] at hf
  obtain ⟨⟨hline, hue, hcnt, hlatent, -⟩, -, hevt, -⟩ := hf
  have hcount : f.diff (ueFld scrub) = true := by cases scrub <;> assumption
  rw [State.ueNoted, State.get_raise _ _ _ _ f hevt, State.get_count_other _ hcount, State.get_set_other _ hue, State.get_set_other _ hline]

theorem State.ueFound_get (s : State) (key : Nat) (scrub : Bool) {f : Fld} (hf : hbmErrFlds.all (fun g => f.diff g) = true) (i j : Nat) :
    (s.ueFound key scrub).get f i j = s.get f i j := by
  rw [State.ueFound_eq, State.pcUpset_get _ _ (diff_upsetFlds_of_hbmErrFlds hf), State.wantScrub_rest]
  exact s.ueNoted_get _ _ scrub hf i j

theorem State.ueFound_cmd_cap (s : State) (key : Nat) (scrub : Bool) : (s.ueFound key scrub).cmd = s.cmd ∧ (s.ueFound key scrub).cap = s.cap := by
  obtain ⟨hcmd, hcap⟩ := (s.ueNoted (key / 2 ^ 30) (key % 2 ^ 30 / 64) scrub).wantScrub.pcUpset_cmd_cap (key / 2 ^ 30)
  rw [State.ueFound_eq, hcmd, hcap, State.wantScrub_rest]
  exact ⟨State.raise_cmd _ _ _ _, State.raise_cap _ _ _ _⟩

/-- An uncorrectable word of a pseudo-channel: the event, the count, and the line (R315). -/
theorem State.ueFound_shows (s : State) {k word : Nat} (h : word < pcWords) (scrub : Bool) {t : State}
    (ht : s.ueFound (wordKey k word) scrub = t) :
    t.event ⟨.memPc, k⟩ (ueEvent scrub) = true ∧ t.get (ueFld scrub) k = satAdd (ueFld scrub).width (s.get (ueFld scrub) k) 1 ∧
    t.get .MEM_PC_ERR_ADDR_line k = word / 8 ∧ t.get .MEM_PC_ERR_ADDR_ue k = 1 ∧ (scrub = true → t.get .MEM_PC_UE k = s.get .MEM_PC_UE k) := by
  obtain ⟨hpc, hline⟩ := wordKey_parts k h
  rw [State.ueFound_eq, hpc, hline] at ht
  subst ht
  have hget : ∀ {f : Fld}, upsetFlds.all (fun g => f.diff g) = true → ((s.ueNoted k (word / 8) scrub).wantScrub.pcUpset k).get f k =
      (((s.set .MEM_PC_ERR_ADDR_line k 0 (word / 8)).set .MEM_PC_ERR_ADDR_ue k 0 1).count (ueFld scrub) k 0 1).get f k := by
    intro f hf
    rw [State.pcUpset_get _ k hf, State.wantScrub_rest]
    exact State.get_raise _ _ _ _ f (diff_evtFlds_of_upsetFlds hf) _ _
  refine ⟨State.pcUpset_event (by cases scrub <;> decide) ?_, ?_, ?_, ?_, ?_⟩
  · rw [State.wantScrub_rest]
    exact State.raise_event _ ⟨.memPc, k⟩ _ (by cases scrub <;> decide)
  · rw [hget (by cases scrub <;> rfl), State.get_count_self, State.get_set_other _ (by cases scrub <;> rfl),
      State.get_set_other _ (by cases scrub <;> rfl)]
  · rw [hget rfl, State.get_count_other _ (by cases scrub <;> rfl), State.get_set_other _ rfl, State.get_set_self]
    simp only [pcWords] at h
    exact Nat.mod_eq_of_lt (by simp only [Fld.MEM_PC_ERR_ADDR_line]; omega)
  · rw [hget rfl, State.get_count_other _ (by cases scrub <;> rfl), State.get_set_self]
    rfl
  · rintro rfl
    rw [hget rfl, State.get_count_other _ rfl, State.get_set_other _ rfl, State.get_set_other _ rfl]

/-! ## What a consumer does -/

theorem exec_uncorrectableRead_awake {s : State} (h : s.awake = true) (k : Pc) (word : Nat) (by' : Consumer) :
    exec (.uncorrectableRead k word by') s = .next (s.wordConsumed k word by') := by
  change Host.Outcome.next (s.whenAwake (fun s => s.wordConsumed k word by')) = _
  rw [State.whenAwake_awake h]

/-- What a consumer does with a word that proved uncorrectable, once it is counted (R313). -/
def State.consumes (s : State) (by' : Consumer) (key : Nat) : State :=
  match by' with
  | .job p => s.abortRunning p
  | .lnp c => s.lnpConsumes c
  | .plan p k => s.loadConsumes p k key
  | .replay c => s.replayConsumes c
  | .home => s
  | .host fn => s.hostUe fn
  | .scrubber => s

theorem State.wordConsumed_eq (s : State) (k word : Nat) (by' : Consumer) : s.wordConsumed k word by' =
    (((s.markBad (wordKey k word)).ueFound (wordKey k word) (by' == .scrubber)).consumes by' (wordKey k word)) := by
  cases by' <;> rfl

/-- No consumer reaches a register of a pseudo-channel. -/
theorem State.consumes_memPc (s : State) (by' : Consumer) (key : Nat) {f : Fld} (hf : f.kind = .memPc) (i j : Nat) :
    (s.consumes by' key).get f i j = s.get f i j := by
  have hks : Avoid (oneFld f) [.cmdPart, .capCtx, .lnpCtx, .clu, .memPart, .trk, .ejt] := avoid_of_kind hf rfl rfl
  refine get_of_held ?_ i j
  cases by' with
  | job p => exact State.abortRunning_stays (held_self s) (hks.mono rfl) p
  | lnp c => exact State.lnpConsumes_stays (held_self s) (hks.mono rfl) c
  | plan p k => exact State.loadConsumes_stays (held_self s) (hks.mono rfl) p k key
  | replay c => exact State.replayConsumes_stays (held_self s) (hks.mono rfl) c
  | home => exact held_self s
  | host fn => exact State.hostUe_stays (held_self s) (hks.mono rfl) fn
  | scrubber => exact held_self s

/-- The page of the pseudo-channel after the whole of an uncorrectable read (R313, R315). -/
theorem State.wordConsumed_shows (s : State) {k word : Nat} (h : word < pcWords) (by' : Consumer) {t : State}
    (ht : s.wordConsumed k word by' = t) :
    t.event ⟨.memPc, k⟩ (ueEvent (by' == .scrubber)) = true ∧
    t.get (ueFld (by' == .scrubber)) k = satAdd (ueFld (by' == .scrubber)).width (s.get (ueFld (by' == .scrubber)) k) 1 ∧
    t.get .MEM_PC_ERR_ADDR_line k = word / 8 ∧ t.get .MEM_PC_ERR_ADDR_ue k = 1 ∧
    ((by' == .scrubber) = true → t.get .MEM_PC_UE k = s.get .MEM_PC_UE k) := by
  rw [State.wordConsumed_eq] at ht
  generalize (by' == .scrubber) = scrub at ht ⊢
  have hkeep : ∀ {f : Fld}, f.kind = .memPc → t.get f k = ((s.markBad (wordKey k word)).ueFound (wordKey k word) scrub).get f k := fun hf =>
    ht ▸ State.consumes_memPc _ by' _ hf k 0
  obtain ⟨hevent, hcount, hline, hue, hother⟩ := (s.markBad (wordKey k word)).ueFound_shows (k := k) h scrub rfl
  exact ⟨(State.event_congr (hkeep rfl)).trans hevent, (hkeep (by cases scrub <;> rfl)).trans hcount, (hkeep rfl).trans hline,
    (hkeep rfl).trans hue, fun hs => (hkeep rfl).trans (hother hs)⟩

theorem State.wordConsumed_scrubber_hbm (s : State) (k word : Nat) :
    (s.wordConsumed k word .scrubber).hbm = (s.markBad (wordKey k word)).hbm := State.ueFound_hbm _ _ _

/-- A partition's host that reads the word: its event, its count, and the word stays uncorrectable (R313). -/
theorem State.wordConsumed_host_shows (s : State) (k word : Nat) {fn : Fn} (hfn : fn ≠ 0) {t : State} (ht : s.wordConsumed k word (.host fn) = t) :
    t.event ⟨.memPart, fn.val - 1⟩ 0 = true ∧
    t.get .MEM_CNT_HOST_UE (fn.val - 1) = satAdd Fld.MEM_CNT_HOST_UE.width (s.get .MEM_CNT_HOST_UE (fn.val - 1)) 1 ∧
    wordKey k word / 8 ∈ t.hbm.bad := by
  subst ht
  obtain ⟨hevent, hcount⟩ := ((s.markBad (wordKey k word)).ueFound (wordKey k word) false).hostUe_counted (fun h0 => hfn (Fin.ext h0))
  rw [State.ueFound_hostUeCount] at hcount
  refine ⟨hevent, hcount, ?_⟩
  have hhbm : (s.wordConsumed k word (.host fn)).hbm = (s.markBad (wordKey k word)).hbm := (State.hostUe_hbm _ _).trans (State.ueFound_hbm _ _ _)
  rw [hhbm]
  exact s.markBad_bad _

/-- The code of a plan load that met an uncorrectable word: within the image, or beyond it (R184). -/
def State.loadCode (s : State) (l : PlanLoad) (key : Nat) : Nat := if (s.badKeys l.base l.size).contains key then 0x41 else 0x4A

theorem State.loadConsumes_pending {s : State} {p k : Nat} {l : PlanLoad} (hl : (s.slotSt p k).load = some l) (hp : l.plan = none) (key : Nat) :
    s.loadConsumes p k key = (((s.modSlot p k (fun x => { x with load := none })).set .CMD_PLAN_STATUS_load p k 3).set
      .CMD_PLAN_STATUS_code p k (s.loadCode l key)).raise (cmdPage p) 1 (s.loadCode l key) := by
  simp only [State.loadConsumes, hl, hp, Option.isSome_none, Bool.false_eq_true, if_false]
  rfl

/-- A pending plan load that meets an uncorrectable word fails, and its slot waits for no load (R184, R313). -/
theorem State.loadConsumes_shows {s : State} {p k : Nat} {l : PlanLoad} (hl : (s.slotSt p k).load = some l) (hp : l.plan = none) (key : Nat)
    {t : State} (ht : s.loadConsumes p k key = t) :
    t.event (cmdPage p) 1 = true ∧ t.get .CMD_PLAN_STATUS_load p k = 3 ∧
    (t.get .CMD_PLAN_STATUS_code p k = 0x41 ∨ t.get .CMD_PLAN_STATUS_code p k = 0x4A) ∧ (t.slotSt p k).load = none := by
  rw [State.loadConsumes_pending hl hp key] at ht
  subst ht
  refine ⟨State.raise_event _ _ _ (by decide), ?_, ?_, ?_⟩
  · rw [State.get_raise _ (cmdPage p) _ _ _ rfl, State.get_set_other _ rfl, State.get_set_self]
    rfl
  · rw [State.get_raise _ (cmdPage p) _ _ _ rfl, State.get_set_self, State.loadCode]
    split
    · exact .inl rfl
    · exact .inr rfl
  · rw [State.slotSt_congr (State.raise_cmd _ _ _ _)]
    have hslot : (s.modSlot p k (fun x => { x with load := none })).slotSt p k = { s.slotSt p k with load := none } :=
      State.slotSt_modSlot_held (fun h0 => by rw [h0] at hl; cases hl) _
    exact congrArg PlanSt.load hslot

/-- A context that holds anything takes its update. -/
theorem State.capCtx_modCtx_held {s : State} {c : Nat} (h : s.capCtx c ≠ {}) (f : CapCtxSt → CapCtxSt) :
    (s.modCtx c f).capCtx c = f (s.capCtx c) := getD_listMod_self h f

theorem State.capCtx_congr {s t : State} (h : t.cap = s.cap) (c : Nat) : t.capCtx c = s.capCtx c := by
  simp only [State.capCtx, h]

/-- The oldest slot of a replay that meets an uncorrectable word is bad and leaves; the last one empties the replay (R123, R313). -/
theorem State.replayConsumes_shows {s : State} {c x : Nat} {rest : List Nat} (h : (s.capCtx c).replay = x :: rest) {t : State}
    (ht : s.replayConsumes c = t) :
    t.event (capPage c) 5 = true ∧ (t.capCtx c).replay = rest ∧ (rest = [] → t.event (capPage c) 4 = true) := by
  have hctx : ((s.modCtx c (fun x => { x with replay := rest })).capCtx c).replay = rest := by
    rw [State.capCtx_modCtx_held (fun h0 => by rw [h0] at h; cases h)]
  have heq : s.replayConsumes c =
      if rest.isEmpty then ((s.modCtx c (fun x => { x with replay := rest })).raise (capPage c) 5).raise (capPage c) 4
      else (s.modCtx c (fun x => { x with replay := rest })).raise (capPage c) 5 := by
    simp only [State.replayConsumes, h]
  have hbad : ((s.modCtx c (fun x => { x with replay := rest })).raise (capPage c) 5).event (capPage c) 5 = true :=
    State.raise_event _ _ _ (by decide)
  have hleft : (((s.modCtx c (fun x => { x with replay := rest })).raise (capPage c) 5).capCtx c).replay = rest := by
    rw [State.capCtx_congr (State.raise_cap _ _ _ _), hctx]
  subst ht
  rw [heq]
  cases rest with
  | nil =>
    refine ⟨?_, ?_, fun _ => State.raise_event _ _ _ (by decide)⟩
    · rw [if_pos List.isEmpty_nil, State.raise, State.raiseMask_event _ _ _ _ _ (by decide), hbad, Bool.true_or]
    · rw [if_pos List.isEmpty_nil, State.capCtx_congr (State.raise_cap _ _ _ _), hleft]
  | cons y ys => exact ⟨hbad, hleft, nofun⟩

/-! ## A correctable error -/

theorem exec_correctableRead_awake {s : State} (h : s.awake = true) (k : Pc) (line : Nat) :
    exec (.correctableRead k line) s = .next (s.correctableIn k line) := by
  change Host.Outcome.next (s.whenAwake (fun s => s.correctableIn k line)) = _
  rw [State.whenAwake_awake h]

/-- A corrected line waits for its write-back, and holds no error any more (R312). -/
def HbmState.corrects (h : HbmState) (l : Nat) : HbmState :=
  { h with soft := h.soft.filter (fun x => x != l), writeBacks := if h.writeBacks.contains l then h.writeBacks else h.writeBacks ++ [l] }

theorem HbmState.corrects_shows (h : HbmState) (l : Nat) : l ∈ (h.corrects l).writeBacks ∧ l ∉ (h.corrects l).soft := by
  refine ⟨?_, by simp [HbmState.corrects]⟩
  simp only [HbmState.corrects]
  split
  · rename_i hl
    simpa using hl
  · simp

/-- A correctable error of line `line` of pseudo-channel `k`, line `l` of HBM, in the counts, the line and the waiting write-backs. -/
def State.ceNoted (s : State) (k line l : Nat) : State :=
  (((({ s with hbm := s.hbm.corrects l } : State).count .MEM_PC_CE k 0 1).set .MEM_PC_ERR_ADDR_line k 0 line).set .MEM_PC_ERR_ADDR_ue k 0 0).set
    .PCX_WIN_CE k 0 (s.get .PCX_WIN_CE k + 1)

/-- The cells that a correctable error writes without reaching the threshold. -/
def ceCells (k : Nat) : List CellId :=
  [(.MEM_PC_CE, k, 0), (.MEM_PC_ERR_ADDR_line, k, 0), (.MEM_PC_ERR_ADDR_ue, k, 0), (.PCX_WIN_CE, k, 0)]

theorem State.ceNoted_get (s : State) (k line l : Nat) {f : Fld}
    (hf : (f.diff .MEM_PC_CE && f.diff .MEM_PC_ERR_ADDR_line && f.diff .MEM_PC_ERR_ADDR_ue && f.diff .PCX_WIN_CE) = true) (i j : Nat) :
    (s.ceNoted k line l).get f i j = s.get f i j := by
  simp only [Bool.and_eq_true] at hf
  obtain ⟨⟨⟨hce, hline⟩, hue⟩, hwin⟩ := hf
  rw [State.ceNoted, State.get_set_other _ hwin, State.get_set_other _ hue, State.get_set_other _ hline, State.get_count_other _ hce]
  rfl

theorem State.ceNoted_shows (s : State) (k l : Nat) {line : Nat} (h : line < 12582912) :
    (s.ceNoted k line l).get .MEM_PC_CE k = satAdd Fld.MEM_PC_CE.width (s.get .MEM_PC_CE k) 1 ∧
    (s.ceNoted k line l).get .MEM_PC_ERR_ADDR_line k = line ∧ (s.ceNoted k line l).get .MEM_PC_ERR_ADDR_ue k = 0 := by
  refine ⟨?_, ?_, ?_⟩
  · rw [State.ceNoted, State.get_set_other _ rfl, State.get_set_other _ rfl, State.get_set_other _ rfl, State.get_count_self]
    rfl
  · rw [State.ceNoted, State.get_set_other _ rfl, State.get_set_other _ rfl, State.get_set_self]
    exact Nat.mod_eq_of_lt (by simp only [Fld.MEM_PC_ERR_ADDR_line]; omega)
  · rw [State.ceNoted, State.get_set_other _ rfl, State.get_set_self]
    rfl

theorem State.only_ceNoted (s : State) (k line l : Nat) :
    State.Only (ceCells k) { s with hbm := (s.ceNoted k line l).hbm } (s.ceNoted k line l) :=
  have hfirst : State.Only (ceCells k) { s with hbm := s.hbm.corrects l } (({ s with hbm := s.hbm.corrects l } : State).count .MEM_PC_CE k 0 1) :=
    State.only_count (by simp [ceCells]) _ 1
  ((hfirst.set line (by simp [ceCells])).set 0 (by simp [ceCells])).set (s.get .PCX_WIN_CE k + 1) (by simp [ceCells])

/-- The first time in a window that the count reaches the threshold, CE_THR is raised and it is an upset; else the error is only noted (R567). -/
theorem State.ceFound_cases (s : State) (k : Nat) {line : Nat} (h : line < 12582912) :
    (s.get .MEM_PC_CE_THR k ≤ s.get .PCX_WIN_CE k + 1 ∧ s.isOn .PCX_CE_DONE k = false ∧ s.ceFound (k * 2 ^ 30 + line * 64) =
      (((s.ceNoted k line (k * 2 ^ 24 + line)).set .PCX_CE_DONE k 0 1).raise ⟨.memPc, k⟩ 0).pcUpset k) ∨
    (¬ (s.get .MEM_PC_CE_THR k ≤ s.get .PCX_WIN_CE k + 1 ∧ s.isOn .PCX_CE_DONE k = false) ∧
      s.ceFound (k * 2 ^ 30 + line * 64) = s.ceNoted k line (k * 2 ^ 24 + line)) := by
  obtain ⟨hpc, hline, hl⟩ := lineKey_parts k h
  have hthr : (s.ceNoted k line (k * 2 ^ 24 + line)).get .MEM_PC_CE_THR k = s.get .MEM_PC_CE_THR k := s.ceNoted_get _ _ _ rfl _ _
  have hdone : (s.ceNoted k line (k * 2 ^ 24 + line)).isOn .PCX_CE_DONE k = s.isOn .PCX_CE_DONE k :=
    congrArg (· != 0) (s.ceNoted_get _ _ _ rfl _ _)
  have hwin : (((s.count .MEM_PC_CE k 0 1).set .MEM_PC_ERR_ADDR_line k 0 line).set .MEM_PC_ERR_ADDR_ue k 0 0).get .PCX_WIN_CE k =
      s.get .PCX_WIN_CE k := by
    rw [State.get_set_other _ rfl, State.get_set_other _ rfl, State.get_count_other _ rfl]
  have hdef : s.ceFound (k * 2 ^ 30 + line * 64) =
      if (s.ceNoted k line (k * 2 ^ 24 + line)).get .MEM_PC_CE_THR k ≤ s.get .PCX_WIN_CE k + 1 &&
          !(s.ceNoted k line (k * 2 ^ 24 + line)).isOn .PCX_CE_DONE k then
        (((s.ceNoted k line (k * 2 ^ 24 + line)).set .PCX_CE_DONE k 0 1).raise ⟨.memPc, k⟩ 0).pcUpset k
      else s.ceNoted k line (k * 2 ^ 24 + line) := by
    simp only [State.ceFound, State.ceNoted, hpc, hline, hl, ← hwin]
    rfl
  rw [hdef, hthr, hdone]
  by_cases hdue : s.get .MEM_PC_CE_THR k ≤ s.get .PCX_WIN_CE k + 1 ∧ s.isOn .PCX_CE_DONE k = false
  · exact .inl ⟨hdue.1, hdue.2, if_pos (by simp [hdue])⟩
  · exact .inr ⟨hdue, if_neg (by simpa using hdue)⟩

theorem State.ceFound_hbm (s : State) (k : Nat) {line : Nat} (h : line < 12582912) :
    (s.ceFound (k * 2 ^ 30 + line * 64)).hbm = s.hbm.corrects (k * 2 ^ 24 + line) := by
  obtain ⟨-, -, heq⟩ | ⟨-, heq⟩ := s.ceFound_cases k h
  · rw [heq, State.pcUpset_hbm, State.raise_hbm]
    rfl
  · rw [heq]
    rfl

/-- What follows a noted error reaches only the mark of the window and what an upset reaches. -/
theorem State.ceFound_noted (s : State) (k : Nat) {line : Nat} (h : line < 12582912) {f : Fld} (hdone : f.diff .PCX_CE_DONE = true)
    (hf : upsetFlds.all (fun g => f.diff g) = true) (i j : Nat) :
    (s.ceFound (k * 2 ^ 30 + line * 64)).get f i j = (s.ceNoted k line (k * 2 ^ 24 + line)).get f i j := by
  obtain ⟨-, -, heq⟩ | ⟨-, heq⟩ := s.ceFound_cases k h
  · rw [heq, State.pcUpset_get _ _ hf, State.get_raise _ _ _ _ f (diff_evtFlds_of_upsetFlds hf),
      State.get_set_other _ hdone]
  · rw [heq]

theorem State.ceFound_get (s : State) (k : Nat) {line : Nat} (h : line < 12582912) {f : Fld} (hf : hbmErrFlds.all (fun g => f.diff g) = true)
    (i j : Nat) : (s.ceFound (k * 2 ^ 30 + line * 64)).get f i j = s.get f i j := by
  have hupset := diff_upsetFlds_of_hbmErrFlds hf
  simp only [hbmErrFlds, List.all_append, List.all_cons, List.all_nil, Bool.and_true, Bool.and_eq_true] at hf
  obtain ⟨⟨hline, hue, -, -, hce, hwin, hdone⟩, -⟩ := hf
  rw [s.ceFound_noted k h hdone hupset]
  exact s.ceNoted_get _ _ _ (by simp only [hce, hline, hue, hwin, Bool.and_self]) _ _

/-- A correctable error of a line (R312, R567): the counts, the line, the write-back that it waits for, CE_THR, and what it leaves. -/
theorem State.ceFound_shows (s : State) (k : Nat) {line : Nat} (h : line < 12582912) {t : State} (ht : s.ceFound (k * 2 ^ 30 + line * 64) = t) :
    t.get .MEM_PC_CE k = satAdd Fld.MEM_PC_CE.width (s.get .MEM_PC_CE k) 1 ∧ t.get .MEM_PC_ERR_ADDR_line k = line ∧
    t.get .MEM_PC_ERR_ADDR_ue k = 0 ∧ t.hbm = s.hbm.corrects (k * 2 ^ 24 + line) ∧
    (s.get .MEM_PC_CE_THR k ≤ s.get .PCX_WIN_CE k + 1 → s.isOn .PCX_CE_DONE k = false → t.event ⟨.memPc, k⟩ 0 = true) ∧
    ((s.get .PCX_WIN_CE k + 1 < s.get .MEM_PC_CE_THR k ∨ s.isOn .PCX_CE_DONE k = true) → State.Only (ceCells k) { s with hbm := t.hbm } t) := by
  subst ht
  obtain ⟨hce, hline, hue⟩ := s.ceNoted_shows k (k * 2 ^ 24 + line) h
  refine ⟨(s.ceFound_noted k h rfl rfl _ _).trans hce, (s.ceFound_noted k h rfl rfl _ _).trans hline,
    (s.ceFound_noted k h rfl rfl _ _).trans hue, s.ceFound_hbm k h, fun hthr hdone => ?_, fun hno => ?_⟩
  · obtain ⟨-, -, heq⟩ | ⟨hnot, -⟩ := s.ceFound_cases k h
    · rw [heq]
      exact State.pcUpset_event (by decide) (State.raise_event _ _ _ (by decide))
    · exact absurd ⟨hthr, hdone⟩ hnot
  · obtain ⟨hthr, hdone, -⟩ | ⟨-, heq⟩ := s.ceFound_cases k h
    · obtain hlow | hmark := hno
      · omega
      · rw [hdone] at hmark
        cases hmark
    · rw [heq]
      exact s.only_ceNoted _ _ _

theorem State.ceCounted_hbm (s : State) (p : PageId) {c : CeFlds} (ev : Nat) (hc : c.apart p.kind = true) : (s.ceCounted p c ev).hbm = s.hbm := by
  obtain ⟨-, -, h⟩ | ⟨-, h⟩ := s.ceCounted_cases p ev hc
  · rw [h, State.raise_hbm]
    rfl
  · rw [h]
    rfl

/-- A page read counts the error in the attention unit's own counts too (R286). -/
theorem State.correctableIn_eq (s : State) (k : Nat) {line : Nat} (h : line < 12582912) : s.correctableIn k line =
    if s.pageLine (k * 2 ^ 30 + line * 64) then (s.ceFound (k * 2 ^ 30 + line * 64)).ceCounted ⟨.atn, 0⟩ atnCe 1
    else s.ceFound (k * 2 ^ 30 + line * 64) := by
  simp only [State.correctableIn, Nat.not_le.mpr h, if_false]
  rfl

/-- The attention unit's counts reach neither HBM nor a register of a pseudo-channel. -/
theorem State.correctableIn_found (s : State) (k : Nat) {line : Nat} (h : line < 12582912) :
    (s.correctableIn k line).hbm = (s.ceFound (k * 2 ^ 30 + line * 64)).hbm ∧
    ∀ (f : Fld) (i j : Nat), f.kind = .memPc → (s.correctableIn k line).get f i j = (s.ceFound (k * 2 ^ 30 + line * 64)).get f i j := by
  obtain ⟨-, -, hapart⟩ := ceFlds_apart
  rw [s.correctableIn_eq k h]
  split
  · refine ⟨State.ceCounted_hbm _ _ _ hapart, fun f i j hf => get_of_held ?_ i j⟩
    have hatn : Avoid (oneFld f) [.atn] := avoid_of_kind hf rfl rfl
    exact State.sramCount_stays (held_self _) hatn 1 (hatn.1 _ rfl rfl) (hatn.1 _ rfl rfl) (hatn.1 _ rfl rfl)
  · exact ⟨rfl, fun _ _ _ _ => rfl⟩

theorem State.correctableIn_page {s : State} {k line : Nat} (h : line < 12582912) (hp : s.pageLine (k * 2 ^ 30 + line * 64) = true) :
    (s.correctableIn k line).get .ATN_ECC_CE = satAdd Fld.ATN_ECC_CE.width (s.get .ATN_ECC_CE) 1 := by
  obtain ⟨-, -, hapart⟩ := ceFlds_apart
  rw [s.correctableIn_eq k h, if_pos hp]
  exact (State.ceCounted_counts _ ⟨.atn, 0⟩ 1 hapart).trans (congrArg (satAdd _ · 1) (s.ceFound_get k h rfl _ _))

/-! ## The write-back of a line -/

theorem exec_eccWriteback_awake {s : State} (h : s.awake = true) (k : Pc) : exec (.eccWriteback k) s = .next (s.writeBack k) := by
  change Host.Outcome.next (s.whenAwake (fun s => s.writeBack k)) = _
  rw [State.whenAwake_awake h]

/-- A line that is written back waits no more (R312). -/
def State.wroteBack (s : State) (l : Nat) : State := { s with hbm := { s.hbm with writeBacks := s.hbm.writeBacks.filter (fun x => x != l) } }

theorem State.writeBack_line {s : State} {k l : Nat} (h : s.hbm.writeBacks.find? (fun x => x * 64 / 2 ^ 30 == k) = some l) :
    s.writeBack k = (s.wroteBack l).count .MEM_PC_WB k 0 1 := by
  simp only [State.writeBack, h]
  rfl

theorem State.writeBack_idle {s : State} {k : Nat} (h : s.hbm.writeBacks.find? (fun x => x * 64 / 2 ^ 30 == k) = none) : s.writeBack k = s := by
  simp only [State.writeBack, h]

end Sys2Proof.Machine

section
open Sys2Proof Sys2Proof.Machine

/-- Settles O39: no consumer reaches the page of the pseudo-channel, and an upset or a count of the attention unit leaves what the error wrote. -/
theorem memoryErrorsAreCounted : Obligations.MemoryErrorsAreCounted := by
  refine ⟨fun k word by' s ha hw => ?_, fun k s ha => ⟨fun line hline => ?_, fun l hl => ?_, fun hnone => ?_⟩⟩
  · obtain ⟨hcmd, hcap⟩ := (s.markBad (wordKey k word)).ueFound_cmd_cap (wordKey k word) false
    have hexec := exec_uncorrectableRead_awake ha k word by'
    obtain ⟨hevent, hcount, haddr, hue, hother⟩ := s.wordConsumed_shows (k := k) hw by' rfl
    refine ⟨fun hby => answers_of_next hexec ?_, ?_, ?_, ?_, ?_⟩
    · rw [beq_eq_false_iff_ne.mpr hby] at hevent hcount
      exact ⟨hevent, hcount, haddr, hue⟩
    · rintro rfl
      refine answers_of_next hexec ⟨hevent, hcount, hother rfl, ?_, ?_⟩
      · rw [State.wordConsumed_scrubber_hbm]
        exact s.markBad_bad _
      · rw [State.wordConsumed_scrubber_hbm]
        rfl
    · rintro fn rfl hfn
      exact answers_of_next hexec (s.wordConsumed_host_shows k word hfn rfl)
    · rintro p q l rfl hload hplan
      exact answers_of_next hexec (State.loadConsumes_shows ((congrArg PlanSt.load (State.slotSt_congr hcmd p q)).trans hload) hplan _ rfl)
    · rintro c x rest rfl hreplay
      exact answers_of_next hexec (State.replayConsumes_shows ((congrArg CapCtxSt.replay (State.capCtx_congr hcap c)).trans hreplay) rfl)
  · obtain ⟨hhbm, hget⟩ := s.correctableIn_found k hline
    obtain ⟨hce, haddr, hue, hcorrects, hevent, honly⟩ := s.ceFound_shows k hline rfl
    obtain ⟨hwaits, hsound⟩ := s.hbm.corrects_shows (k.val * 2 ^ 24 + line)
    refine answers_of_next (exec_correctableRead_awake ha k line) ⟨(hget _ _ _ rfl).trans hce, (hget _ _ _ rfl).trans haddr,
      (hget _ _ _ rfl).trans hue, ?_, ?_, ?_, ?_, fun hthr hdone => (State.event_congr (hget _ _ _ rfl)).trans (hevent hthr hdone),
      State.correctableIn_page hline, fun hno hpage => ?_⟩
    · rwa [hhbm, hcorrects]
    · rwa [hhbm, hcorrects]
    · rw [hhbm, hcorrects]
      rfl
    · rw [hhbm, hcorrects]
      rfl
    · rw [s.correctableIn_eq k hline, if_neg (ne_true_of_eq_false hpage)]
      exact honly hno
  · refine answers_of_next (exec_eccWriteback_awake ha k) ?_
    rw [State.writeBack_line hl]
    exact ⟨State.get_count_self _ _ _ _ _, rfl, State.only_count (by simp) (s.wroteBack l) 1⟩
  · rw [exec_eccWriteback_awake ha, State.writeBack_idle hnone]
end

/-!
PROOFS. What runs on in memory (R297, R301, R316, R317): the scrubber's line, the windows of the bandwidth regulators, and a refresh.
-/
namespace Sys2Proof.Machine

/-! ## The scrubber -/

theorem exec_scrubRead_awake {s : State} (h : s.awake = true) : exec .scrubRead s = .next s.scrubLine := by
  change Host.Outcome.next (s.whenAwake (fun s => s.scrubLine)) = _
  rw [State.whenAwake_awake h]

theorem State.forEach_fixed {α : Type} {s : State} {l : List α} {g : State → α → State} (h : ∀ x ∈ l, g s x = s) : s.forEach l g = s := by
  unfold State.forEach
  induction l with
  | nil => rfl
  | cons x l ih => rw [List.foldl_cons, h x List.mem_cons_self, ih fun y hy => h y (List.mem_cons_of_mem x hy)]

/-- The correctable error of a line, where it has one, is met (R312). -/
def State.scrubSoft (s : State) (key : Nat) : State := if s.hbm.soft.contains (key / 64) then s.ceFound key else s

/-- The uncorrectable words of a line are met (R315). -/
def State.scrubBad (s : State) (key : Nat) : State :=
  s.forEach (s.hbm.bad.filter (fun w => w / 8 == key / 64)) (fun s w => s.ueFound (w * 8) true)

/-- The scrubber reads a line of one pseudo-channel (R317). -/
def State.scrubPc (line : Nat) (s : State) (pc : Nat) : State :=
  (s.scrubSoft (pc * 2 ^ 30 + line * 64)).scrubBad (pc * 2 ^ 30 + line * 64)

/-- The scrubber reads a line of every pseudo-channel. -/
def State.scrubAll (s : State) (line : Nat) : State := s.forEach (List.range 64) (State.scrubPc line)

theorem State.scrubLine_off {s : State} (h : s.isOn .MEM_SCRUB_mode = false) : s.scrubLine = s := by
  simp only [State.scrubLine, h, Bool.not_false, if_true]

theorem State.scrubLine_on {s : State} (h : s.isOn .MEM_SCRUB_mode = true) : s.scrubLine =
    if s.get .MEM_SCRUB_POS + 1 < 12582912 then (s.scrubAll (s.get .MEM_SCRUB_POS)).set .MEM_SCRUB_POS 0 0 (s.get .MEM_SCRUB_POS + 1)
    else (((s.scrubAll (s.get .MEM_SCRUB_POS)).set .MEM_SCRUB_POS 0 0 0).count .MEM_SCRUB_PASSES 0 0 1).raise ⟨.mem, 0⟩ 0 := by
  simp only [State.scrubLine, h, Bool.not_true, Bool.false_eq_true, if_false]
  rfl

theorem State.scrubBad_get (s : State) (key : Nat) {f : Fld} (hf : hbmErrFlds.all (fun g => f.diff g) = true) (i j : Nat) :
    (s.scrubBad key).get f i j = s.get f i j :=
  State.forEach_keeps (fun t : State => t.get f i j) (fun t w _ => t.ueFound_get (w * 8) true hf i j) s

theorem State.scrubBad_hbm (s : State) (key : Nat) : (s.scrubBad key).hbm = s.hbm :=
  State.forEach_hbm (fun t w _ => t.ueFound_hbm (w * 8) true) s

theorem State.scrubSoft_get (s : State) (pc : Nat) {line : Nat} (h : line < 12582912) {f : Fld}
    (hf : hbmErrFlds.all (fun g => f.diff g) = true) (i j : Nat) : (s.scrubSoft (pc * 2 ^ 30 + line * 64)).get f i j = s.get f i j := by
  unfold State.scrubSoft
  split
  · exact s.ceFound_get pc h hf i j
  · rfl

/-- The scrubber corrects no byte, and makes no word uncorrectable: a correctable error only waits for its write-back. -/
theorem State.scrubSoft_data (s : State) (pc : Nat) {line : Nat} (h : line < 12582912) :
    (s.scrubSoft (pc * 2 ^ 30 + line * 64)).hbm.bytes = s.hbm.bytes ∧ (s.scrubSoft (pc * 2 ^ 30 + line * 64)).hbm.bad = s.hbm.bad := by
  unfold State.scrubSoft
  split
  · rw [s.ceFound_hbm pc h]
    exact ⟨rfl, rfl⟩
  · exact ⟨rfl, rfl⟩

theorem State.scrubAll_get (s : State) {line : Nat} (h : line < 12582912) {f : Fld} (hf : hbmErrFlds.all (fun g => f.diff g) = true)
    (i j : Nat) : (s.scrubAll line).get f i j = s.get f i j :=
  State.forEach_keeps (fun t : State => t.get f i j)
    (fun t pc _ => ((t.scrubSoft _).scrubBad_get _ hf i j).trans (t.scrubSoft_get pc h hf i j)) s

theorem State.scrubPc_data (s : State) (pc : Nat) {line : Nat} (h : line < 12582912) :
    (State.scrubPc line s pc).hbm.bytes = s.hbm.bytes ∧ (State.scrubPc line s pc).hbm.bad = s.hbm.bad := by
  rw [State.scrubPc, State.scrubBad_hbm]
  exact s.scrubSoft_data pc h

theorem State.scrubAll_data (s : State) {line : Nat} (h : line < 12582912) :
    (s.scrubAll line).hbm.bytes = s.hbm.bytes ∧ (s.scrubAll line).hbm.bad = s.hbm.bad := by
  rw [State.scrubAll]
  exact ⟨State.forEach_keeps (fun t : State => t.hbm.bytes) (fun t pc _ => (t.scrubPc_data pc h).1) s,
    State.forEach_keeps (fun t : State => t.hbm.bad) (fun t pc _ => (t.scrubPc_data pc h).2) s⟩

/-- A line without an error in any pseudo-channel is read, and nothing more. -/
theorem State.scrubAll_clean {s : State} {line : Nat} (h : line < 12582912) (hsoft : ∀ l ∈ s.hbm.soft, l % 2 ^ 24 ≠ line)
    (hbad : ∀ w ∈ s.hbm.bad, w / 8 % 2 ^ 24 ≠ line) : s.scrubAll line = s := by
  refine State.forEach_fixed fun pc _ => ?_
  obtain ⟨-, -, hl⟩ := lineKey_parts pc h
  have hplace : (pc * 2 ^ 24 + line) % 2 ^ 24 = line := by omega
  have hnosoft : s.scrubSoft (pc * 2 ^ 30 + line * 64) = s := by
    have hno : ¬ s.hbm.soft.contains (pc * 2 ^ 24 + line) = true := fun hc =>
      hsoft _ (List.contains_iff_mem.mp hc) hplace
    rw [State.scrubSoft, hl, if_neg hno]
  have hnobad : s.hbm.bad.filter (fun w => w / 8 == pc * 2 ^ 24 + line) = [] :=
    List.filter_eq_nil_iff.mpr fun w hw heq => hbad w hw (by rw [beq_iff_eq.mp heq, hplace])
  rw [State.scrubPc, hnosoft, State.scrubBad, hl, hnobad]
  rfl

/-- Short of its last line, the scrubber goes on by one line (R317). -/
theorem State.scrubLine_goes_on {s : State} (hon : s.isOn .MEM_SCRUB_mode = true) (h : s.get .MEM_SCRUB_POS + 1 < 12582912) {t : State}
    (ht : s.scrubLine = t) :
    t.get .MEM_SCRUB_POS = s.get .MEM_SCRUB_POS + 1 ∧ t.hbm.bytes = s.hbm.bytes ∧ t.hbm.bad = s.hbm.bad ∧
    ((∀ l ∈ s.hbm.soft, l % 2 ^ 24 ≠ s.get .MEM_SCRUB_POS) → (∀ w ∈ s.hbm.bad, w / 8 % 2 ^ 24 ≠ s.get .MEM_SCRUB_POS) →
      State.Only [(.MEM_SCRUB_POS, 0, 0)] s t) := by
  have hline : s.get .MEM_SCRUB_POS < 12582912 := by omega
  rw [State.scrubLine_on hon, if_pos h] at ht
  subst ht
  obtain ⟨hbytes, hbad⟩ := s.scrubAll_data hline
  rw [State.set_hbm]
  refine ⟨?_, hbytes, hbad, fun hsoft hnobad => ?_⟩
  · rw [State.get_set_self]
    exact Nat.mod_eq_of_lt (by rw [show Fld.MEM_SCRUB_POS.width = 24 from rfl]; omega)
  · rw [State.scrubAll_clean hline hsoft hnobad]
    exact State.only_set List.mem_cons_self s _

/-- After its last line the scrubber starts a new pass, which is counted, with its event (R317). -/
theorem State.scrubLine_new_pass {s : State} (hon : s.isOn .MEM_SCRUB_mode = true) (h : s.get .MEM_SCRUB_POS = 12582911) {t : State}
    (ht : s.scrubLine = t) :
    t.get .MEM_SCRUB_POS = 0 ∧ t.get .MEM_SCRUB_PASSES = satAdd Fld.MEM_SCRUB_PASSES.width (s.get .MEM_SCRUB_PASSES) 1 ∧
    t.event ⟨.mem, 0⟩ 0 = true := by
  rw [State.scrubLine_on hon, if_neg (by omega)] at ht
  subst ht
  refine ⟨?_, ?_, State.raise_event _ _ _ (by decide)⟩
  · rw [State.get_raise _ _ _ _ _ rfl, State.get_count_other _ rfl, State.get_set_self]
    exact Nat.zero_mod _
  · rw [State.get_raise _ _ _ _ _ rfl, State.get_count_self, State.get_set_other _ rfl, State.scrubAll_get s (by omega) rfl]

/-! ## The bandwidth regulators -/

theorem exec_bwWindowStart_awake {s : State} (h : s.awake = true) : exec .bwWindowStart s = .next s.bwWindows := by
  change Host.Outcome.next (s.whenAwake (fun s => s.bwWindows)) = _
  rw [State.whenAwake_awake h]

/-- The registers of a MEM partition page are the same in two states. -/
def State.SamePart (p : Nat) (s t : State) : Prop := ∀ (f : Fld) (j : Nat), f.kind = .memPart → t.get f p j = s.get f p j

theorem State.SamePart.trans {p : Nat} {s t u : State} (h : State.SamePart p s t) (k : State.SamePart p t u) : State.SamePart p s u :=
  fun f j hf => (k f j hf).trans (h f j hf)

theorem State.SamePart.regionOn {p : Nat} {s t : State} (h : State.SamePart p s t) : t.regionOn p = s.regionOn p :=
  congrArg (· != 0) (h (.CTRL_enable .memPart) 0 rfl)

theorem State.SamePart.bwReg {p : Nat} {s t : State} (h : State.SamePart p s t) {f : Fld} (hf : f.kind = .memPart) : t.bwReg f p = s.bwReg f p :=
  congrArg (min · 25600) (h f 0 hf)

theorem State.pmc_samePart (s : State) (code inst amt : Nat) (part : Option Nat) (p : Nat) :
    State.SamePart p s (s.pmc code inst amt part) := fun _ j hf =>
  get_of_held (State.pmc_stays (held_self s) (avoid_of_kind hf rfl rfl) _ _ _ _) p j

/-- A window of one partition leaves the registers of the others. -/
theorem State.bwWindow_other (s : State) {p q : Nat} (h : p ≠ q) : State.SamePart p s (s.bwWindow q) := by
  unfold State.bwWindow
  split
  · exact fun _ _ _ => rfl
  · refine fun f j hf => ((State.pmc_samePart _ _ _ _ _ p).trans (State.pmc_samePart _ _ _ _ _ p) f j hf).trans ?_
    simp only [State.get_set_inst _ _ _ h]

/-- A window of a partition whose region is on shows what the last one used and refills its tokens (R297, R301). -/
theorem State.bwWindow_shows {s : State} {p : Nat} (h : s.regionOn p = true) {t : State} (ht : s.bwWindow p = t) :
    t.get .MEM_BW_USED_last p = s.get .BWX_USED p / 2 % 2 ^ Fld.MEM_BW_USED_last.width ∧
    t.get .BWX_TOKENS p = min (s.get .BWX_TOKENS p + 2 * s.bwReg .MEM_BW_RES p) (2 * s.bwReg .MEM_BW_RES p + 2 * s.bwReg .MEM_BW_BURST p) %
      2 ^ Fld.BWX_TOKENS.width ∧
    t.get .BWX_USED p = min (s.get .BWX_DEFERRED p) (2 * s.bwReg .MEM_BW_CEIL p) % 2 ^ Fld.BWX_USED.width := by
  simp only [State.bwWindow, h, Bool.not_true, Bool.false_eq_true, if_false] at ht
  subst ht
  have hpmc : ∀ (u : State) (a b : Nat) {f : Fld}, f.kind = .memPart → ((u.pmc 0x23 0 a (some p)).pmc 0x24 0 b (some p)).get f p = u.get f p :=
    fun u a b f hf => ((State.pmc_samePart _ _ _ _ _ p).trans (State.pmc_samePart _ _ _ _ _ p)) f 0 hf
  refine ⟨?_, ?_, ?_⟩
  · rw [hpmc _ _ _ rfl, State.get_set_other _ rfl, State.get_set_other _ rfl, State.get_set_other _ rfl, State.get_set_other _ rfl,
      State.get_set_other _ rfl, State.get_set_self]
  · rw [hpmc _ _ _ rfl, State.get_set_other _ rfl, State.get_set_other _ rfl, State.get_set_other _ rfl, State.get_set_self]
  · rw [hpmc _ _ _ rfl, State.get_set_other _ rfl, State.get_set_other _ rfl, State.get_set_self]

/-- Windows of other partitions leave the registers of a partition. -/
theorem State.bwWindows_others {p : Nat} {l : List Nat} (h : p ∉ l) (s : State) : State.SamePart p s (s.forEach l (fun s q => s.bwWindow q)) :=
  fun f j hf => State.forEach_keeps (fun t : State => t.get f p j)
    (fun t _ hq => t.bwWindow_other (ne_of_mem_of_not_mem hq h).symm f j hf) s

/-- Among the windows of several partitions each has its own once, on its own registers as they were. -/
theorem State.bwWindows_own {p : Nat} {l : List Nat} (hl : l.Nodup) (hp : p ∈ l) (s : State) :
    ∃ u : State, State.SamePart p s u ∧ State.SamePart p (u.bwWindow p) (s.forEach l (fun s q => s.bwWindow q)) := by
  induction l generalizing s with
  | nil => cases hp
  | cons q l ih =>
    obtain ⟨hq, hl⟩ := List.nodup_cons.mp hl
    obtain rfl | hp := List.mem_cons.mp hp
    · exact ⟨s, fun _ _ _ => rfl, State.bwWindows_others hq (s.bwWindow p)⟩
    · obtain ⟨u, hu, hrest⟩ := ih hl hp (s.bwWindow q)
      exact ⟨u, (s.bwWindow_other (ne_of_mem_of_not_mem hp hq)).trans hu, hrest⟩

theorem State.bwWindows_on {s : State} {p : Part} (h : s.regionOn p = true) :
    ∃ u : State, State.SamePart p s u ∧ State.SamePart p (u.bwWindow p) s.bwWindows :=
  State.bwWindows_own (List.nodup_range.filter _) (List.mem_filter.mpr ⟨List.mem_range.mpr p.isLt, h⟩) s

theorem State.bwWindows_off {s : State} {p : Part} (h : s.regionOn p = false) : State.SamePart p s s.bwWindows :=
  State.bwWindows_others (fun hp => Bool.false_ne_true (h.symm.trans (List.mem_filter.mp hp).2)) s

/-- The windows of the regulators, of a partition whose region is on (R297, R301). -/
theorem State.bwWindows_shows {s : State} {p : Part} (h : s.regionOn p = true) :
    s.bwWindows.get .MEM_BW_USED_last p = s.get .BWX_USED p / 2 % 2 ^ Fld.MEM_BW_USED_last.width ∧
    s.bwWindows.get .BWX_TOKENS p = min (s.get .BWX_TOKENS p + 2 * s.bwReg .MEM_BW_RES p)
      (2 * s.bwReg .MEM_BW_RES p + 2 * s.bwReg .MEM_BW_BURST p) % 2 ^ Fld.BWX_TOKENS.width ∧
    s.bwWindows.get .BWX_USED p = min (s.get .BWX_DEFERRED p) (2 * s.bwReg .MEM_BW_CEIL p) % 2 ^ Fld.BWX_USED.width := by
  obtain ⟨u, hu, hend⟩ := State.bwWindows_on h
  obtain ⟨hused, htokens, hnow⟩ := State.bwWindow_shows (hu.regionOn.trans h) rfl
  rw [hend _ _ rfl, hend _ _ rfl, hend _ _ rfl, hused, htokens, hnow, hu _ _ rfl, hu _ _ rfl, hu _ _ rfl, hu.bwReg rfl, hu.bwReg rfl,
    hu.bwReg rfl]
  exact ⟨rfl, rfl, rfl⟩

/-! ## Refresh -/

theorem exec_refresh_awake {s : State} (h : s.awake = true) (k : Pc) : exec (.refresh k) s = .next (s.refreshOf k) := by
  change Host.Outcome.next (s.whenAwake (fun s => s.refreshOf k)) = _
  rw [State.whenAwake_awake h]

theorem State.refreshOf_self {s : State} (h : s.mgt.selfRefresh = true) (k : Nat) : s.refreshOf k = s := by
  simp only [State.refreshOf, h, if_true]

/-- A refresh in the registers and the counters, before the steps that wait for it note it (R316). -/
def State.refreshCounted (s : State) (k : Nat) : State := (s.count .MEM_PC_REFRESH k 0 1).pmc 0x26 k 1 none

/-- The steps with a read outstanding at the pseudo-channel note a refresh, which is all that follows its counts (R468). -/
theorem State.refreshOf_counted {s : State} (h : s.mgt.selfRefresh = false) (k : Nat) :
    s.refreshOf k = { s.refreshCounted k with cmd := (s.refreshOf k).cmd } := by
  simp only [State.refreshOf, h, Bool.false_eq_true, if_false]
  rfl

theorem State.refreshOf_shows {s : State} (h : s.mgt.selfRefresh = false) (k : Nat) :
    (s.refreshOf k).get .MEM_PC_REFRESH k = satAdd Fld.MEM_PC_REFRESH.width (s.get .MEM_PC_REFRESH k) 1 ∧ (s.refreshOf k).hbm = s.hbm := by
  have hcount : (s.refreshCounted k).get .MEM_PC_REFRESH k = satAdd Fld.MEM_PC_REFRESH.width (s.get .MEM_PC_REFRESH k) 1 := by
    rw [State.refreshCounted, State.get_pmc _ _ _ _ _ rfl rfl, State.get_count_self]
  have hhbm : (s.refreshCounted k).hbm = s.hbm := State.pmc_hbm _ _ _ _ _
  rw [State.refreshOf_counted h]
  exact ⟨hcount, hhbm⟩

end Sys2Proof.Machine

section
open Sys2Proof Sys2Proof.Machine

/-- Settles O40: the errors that the scrubber meets reach neither its position nor its count of passes, and each window of the regulators
reads and writes the registers of its own partition. -/
theorem memoryRunsOn : Obligations.MemoryRunsOn := by
  intro s ha
  refine ⟨fun hoff => ?_, fun hon hpos => ?_, fun hon hpos => ?_, ?_, fun k => ⟨fun hrun => ?_, fun hself => ?_⟩⟩
  · rw [exec_scrubRead_awake ha, State.scrubLine_off hoff]
  · exact answers_of_next (exec_scrubRead_awake ha) (State.scrubLine_goes_on hon hpos rfl)
  · exact answers_of_next (exec_scrubRead_awake ha) (State.scrubLine_new_pass hon hpos rfl)
  · refine answers_of_next (exec_bwWindowStart_awake ha) fun p => ⟨fun hon => State.bwWindows_shows hon, fun hoff f hf => ?_⟩
    have hkind : f.kind = .memPart := by
      simp only [List.mem_cons, List.not_mem_nil, or_false] at hf
      obtain rfl | rfl | rfl | rfl | rfl := hf <;> rfl
    exact State.bwWindows_off hoff f 0 hkind
  · exact answers_of_next (exec_refresh_awake ha k) (State.refreshOf_shows hrun k)
  · rw [exec_refresh_awake ha, State.refreshOf_self hself]
end

/-!
PROOFS. Part records (R352 to R356): how a record is found after each kind of change, what the reservations of a record leave (R373), and
what its end does.
-/
namespace Sys2Proof.Machine

/-! ## Bits -/

/-- What the bits of a value are after one of them is set. -/
theorem bit_putBit (v n : Nat) (b : Bool) (m : Nat) : bit (putBit v n b) m = if m = n then b else bit v m := by
  have hlow : v % 2 ^ n < 2 ^ n := Nat.mod_lt _ (Nat.two_pow_pos n)
  have hform : putBit v n b = 2 ^ n * (2 ^ 1 * (v >>> (n + 1)) + b2n b) + v % 2 ^ n := by
    have hb : b2n b % 2 ^ 1 = b2n b := by cases b <;> rfl
    rw [putBit, putBits, hb, Nat.mul_add, ← Nat.mul_assoc, ← Nat.pow_add, Nat.mul_comm (2 ^ n) (b2n b), Nat.mul_comm (2 ^ (n + 1))]
    omega
  rw [hform, bit_eq, bit_eq, Nat.testBit_two_pow_mul_add _ hlow]
  obtain hm | rfl | hm := Nat.lt_trichotomy m n
  · rw [if_pos hm, if_neg (by omega), Nat.testBit_mod_two_pow, decide_eq_true hm, Bool.true_and]
  · have hb : b2n b < 2 ^ 1 := by cases b <;> decide
    rw [if_neg (Nat.lt_irrefl m), if_pos rfl, Nat.testBit_two_pow_mul_add _ hb, Nat.sub_self, if_pos Nat.one_pos]
    cases b <;> rfl
  · have hb : b2n b < 2 ^ 1 := by cases b <;> decide
    rw [if_neg (by omega), if_neg (by omega), Nat.testBit_two_pow_mul_add _ hb, if_neg (by omega), Nat.testBit_shiftRight]
    congr 1
    omega

theorem putBit_putBit (v n : Nat) (b c : Bool) : putBit (putBit v n b) n c = putBit v n c := by
  refine Nat.eq_of_testBit_eq fun m => ?_
  rw [← bit_eq, ← bit_eq, bit_putBit, bit_putBit, bit_putBit]
  split <;> rfl

theorem TrkRec.has_flag (r : TrkRec) (n : Nat) (b : Bool) (m : Nat) : (r.flag n b).has m = if m = n then b else r.has m :=
  bit_putBit _ _ _ _

/-! ## Finding a record -/

theorem State.partRec_congr {s t : State} (h : t.trk.recs = s.trk.recs) (span : Bool) (id : Nat) : t.partRec span id = s.partRec span id := by
  rw [State.partRec, State.partRec, h]

theorem State.partRec_name {s : State} {span : Bool} {id : Nat} {r : TrkRec} (h : s.partRec span id = some r) : r.span = span ∧ r.id = id := by
  have hfound := List.find?_some h
  rwa [Bool.and_eq_true, beq_iff_eq, beq_iff_eq] at hfound

/-- Records that agree in a view that keeps their names are found in agreement. -/
theorem State.partRec_of_view {s t : State} {view : TrkRec → TrkRec} (hview : ∀ r, (view r).span = r.span ∧ (view r).id = r.id)
    (h : t.trk.recs.map view = s.trk.recs.map view) (span : Bool) (id : Nat) :
    (t.partRec span id).map view = (s.partRec span id).map view := by
  have hfind : ∀ u : State, (u.partRec span id).map view = (u.trk.recs.map view).find? (fun r => r.span == span && r.id == id) := by
    intro u
    rw [List.find?_map, State.partRec]
    congr 2
    funext r
    simp only [Function.comp, (hview r).1, (hview r).2]
  rw [hfind, hfind, h]

/-- A record is found as it was changed, by a change that keeps its name. -/
theorem State.partRec_modRec {s : State} {span : Bool} {id : Nat} {r : TrkRec} (h : s.partRec span id = some r) (f : TrkRec → TrkRec)
    (hf : ∀ x, x.span = span → x.id = id → (f x).span = span ∧ (f x).id = id := by exact fun _ hs hi => ⟨hs, hi⟩) :
    (s.modRec span id f).partRec span id = some (f r) := by
  simp only [State.partRec, State.modRec, State.modTrk] at h ⊢
  generalize s.trk.recs = l at h ⊢
  induction l with
  | nil => cases h
  | cons x l ih =>
    rw [List.find?_cons] at h
    rw [List.map_cons, List.find?_cons]
    cases hx : x.span == span && x.id == id with
    | false =>
      rw [hx] at h
      simp only [Bool.false_eq_true, if_false, hx]
      exact ih h
    | true =>
      rw [hx] at h
      cases h
      rw [Bool.and_eq_true, beq_iff_eq, beq_iff_eq] at hx
      obtain ⟨hspan, hid⟩ := hf r hx.1 hx.2
      simp only [if_true, hspan, hid, BEq.rfl, Bool.and_self]

/-- Other records are found as they were. -/
theorem State.partRec_modRec_other {s : State} {span : Bool} {id j : Nat} (hj : j ≠ id) (f : TrkRec → TrkRec)
    (hf : ∀ x, x.span = span → x.id = id → (f x).span = span ∧ (f x).id = id := by exact fun _ hs hi => ⟨hs, hi⟩) :
    (s.modRec span id f).partRec span j = s.partRec span j := by
  simp only [State.partRec, State.modRec, State.modTrk]
  induction s.trk.recs with
  | nil => rfl
  | cons x l ih =>
    rw [List.map_cons, List.find?_cons, List.find?_cons, ih]
    cases hx : x.span == span && x.id == id with
    | false => simp
    | true =>
      rw [Bool.and_eq_true, beq_iff_eq, beq_iff_eq] at hx
      obtain ⟨hspan, hid⟩ := hf x hx.1 hx.2
      simp [hspan, hid, hx.2, beq_eq_false_iff_ne.mpr hj.symm]

/-- TRK with one more record. -/
def State.addRec (s : State) (r : TrkRec) : State := s.modTrk (fun t => { t with recs := t.recs ++ [r] })

theorem State.partRec_addRec {s : State} {span : Bool} {id : Nat} (h : s.partRec span id = none) {r : TrkRec} (hspan : r.span = span)
    (hid : r.id = id) : (s.addRec r).partRec span id = some r := by
  subst hspan hid
  rw [State.partRec] at h ⊢
  simp [State.addRec, State.modTrk, h]

theorem TrkRec.early_iff (r : TrkRec) : r.early = true ↔ 1 ≤ r.state ∧ r.state ≤ 4 := by
  rw [TrkRec.early, Bool.and_eq_true, decide_eq_true_iff, decide_eq_true_iff]

/-! ## What reservations leave -/

/-- A record without its reasons, its reservations and the marks of its firings: what settings, notices and the queuing of firings leave. -/
def TrkRec.body (r : TrkRec) : TrkRec := { r with reasons := 0, resv := 0, banks := 0, flags := putBit r.flags flFireLost false }

theorem TrkRec.body_flag_fireLost (r : TrkRec) : (r.flag flFireLost).body = r.body := by
  simp only [TrkRec.body, TrkRec.flag, putBit_putBit]

theorem TrkRec.has_of_body {r u : TrkRec} (h : u.body = r.body) {n : Nat} (hn : n ≠ flFireLost) : u.has n = r.has n := by
  have hflags : putBit u.flags flFireLost false = putBit r.flags flFireLost false := congrArg TrkRec.flags h
  have hbit := congrArg (bit · n) hflags
  simp only [bit_putBit, if_neg hn] at hbit
  exact hbit

/-- The bodies of TRK's records. -/
def State.bodies (s : State) : List TrkRec := s.trk.recs.map TrkRec.body

theorem State.bodies_congr {s t : State} (h : t.trk = s.trk) : t.bodies = s.bodies := by rw [State.bodies, State.bodies, h]

theorem State.partRec_of_bodies {s t : State} (h : t.bodies = s.bodies) {span : Bool} {id : Nat} {r : TrkRec}
    (hr : s.partRec span id = some r) : ∃ u, t.partRec span id = some u ∧ u.body = r.body := by
  have hsame := State.partRec_of_view (view := TrkRec.body) (fun _ => ⟨rfl, rfl⟩) h span id
  rw [hr] at hsame
  exact Option.map_eq_some_iff.mp hsame

theorem State.modRec_bodies (s : State) (span : Bool) (id : Nat) (f : TrkRec → TrkRec)
    (hf : ∀ r, (f r).body = r.body := by exact fun _ => rfl) : (s.modRec span id f).bodies = s.bodies := by
  refine (List.map_map ..).trans (List.map_congr_left fun r _ => ?_)
  simp only [Function.comp]
  split
  · exact hf r
  · rfl

/-- Between two states Hoof's reservations and the reasons of records moved, and with them the peak of its queue (R373, R388). -/
structure State.Settles (s t : State) : Prop where
  rest : t = { s with regs := t.regs, trk := t.trk }
  trk : t.trk = { s.trk with recs := t.trk.recs }
  bodies : t.bodies = s.bodies
  regs : ∀ (f : Fld) (i j : Nat), f.diff .EJT_QUEUE_peak = true → t.get f i j = s.get f i j

theorem State.Settles.refl (s : State) : s.Settles s := ⟨rfl, rfl, rfl, fun _ _ _ _ => rfl⟩

theorem State.Settles.trans {s t u : State} (h : s.Settles t) (k : t.Settles u) : s.Settles u where
  rest := by rw [k.rest, h.rest]
  trk := by rw [k.trk, h.trk]
  bodies := k.bodies.trans h.bodies
  regs := fun f i j hf => (k.regs f i j hf).trans (h.regs f i j hf)

theorem State.Settles.event {s t : State} (h : s.Settles t) (p : PageId) (n : Nat) : t.event p n = s.event p n :=
  State.event_congr (h.regs _ _ _ rfl)

theorem State.settles_modRec (s : State) (span : Bool) (id : Nat) (f : TrkRec → TrkRec)
    (hf : ∀ r, (f r).body = r.body := by exact fun _ => rfl) : s.Settles (s.modRec span id f) := ⟨rfl, rfl, State.modRec_bodies s span id f hf, fun _ _ _ _ => rfl⟩

theorem State.settles_notePeak (s : State) : s.Settles s.notePeak :=
  ⟨rfl, rfl, rfl, fun _ _ _ hf => State.get_set_other s hf _ _ _ _ _⟩

theorem State.settles_forEach {α : Type} {g : State → α → State} (hg : ∀ t x, State.Settles t (g t x)) (s : State) (l : List α) :
    s.Settles (s.forEach l g) := by
  unfold State.forEach
  induction l generalizing s with
  | nil => exact State.Settles.refl s
  | cons x l ih => exact (hg s x).trans (ih (g s x))

theorem State.settles_reserve (s : State) (span : Bool) (id : Nat) : s.Settles (s.reserve span id) := by
  unfold State.reserve
  split
  · exact State.Settles.refl s
  · refine State.Settles.trans (State.Settles.trans ?_ (State.settles_forEach (fun t b => ?_) _ _)) (State.settles_notePeak _)
    · exact State.settles_modRec s span id _
    · split
      · exact State.settles_modRec t span id _
      · exact State.Settles.refl t

theorem State.settles_setReasons (s : State) (span : Bool) (id mask : Nat) : s.Settles (s.setReasons span id mask) :=
  State.Settles.trans (State.settles_modRec s span id (fun r => { r with reasons := r.reasons ||| mask })) (State.settles_reserve _ _ _)

/-- A growth of a record before its commit only sets reasons (R118, R374). -/
theorem State.settles_recGrown {s : State} {span : Bool} {id : Nat} {r : TrkRec} (h : s.partRec span id = some r) (he : r.early = true) :
    s.Settles (s.recGrown span id) := by
  have hstate : ¬ 5 ≤ r.state := by
    have := r.early_iff.mp he
    omega
  simp only [State.recGrown, h, if_neg hstate]
  exact State.settles_setReasons _ _ _ _

/-! ## The end of a record -/

theorem State.pmc_trk (s : State) (code inst amt : Nat) (part : Option Nat) : (s.pmc code inst amt part).trk = s.trk := by
  rw [State.regsOnly_pmc]

theorem State.hostOut_trk (s : State) (x : Output) : (s.hostOut x).trk = s.trk := by
  rw [(State.only_hostOut [] s x).rest]

theorem State.logEntry_trk (s : State) (r : TrkRec) : (s.logEntry r).trk = s.trk := by
  unfold State.logEntry
  dsimp only
  split
  · rfl
  · split
    · exact State.raise_trk _ _ _ _
    · have hout : ∀ x, ((s.countWrap .TRK_LOG_SEQ 0 0 1).hostOut x).trk = s.trk := fun x => State.hostOut_trk _ x
      split
      · split
        · exact (State.raise_trk _ _ _ _).trans (hout _)
        · exact hout _
      · exact hout _

/-- A record as DONE (R356). -/
def TrkRec.done (r : TrkRec) : TrkRec := { r with state := 7, resv := 0 }

/-- A regular record that ends stays, as DONE; a span is FREE at once (R354, R356). -/
theorem State.recDone_trk {s : State} {span : Bool} {id : Nat} {r : TrkRec} (h : s.partRec span id = some r) :
    (s.recDone span id).trk = if span then { s.trk with recs := (s.modRec span id TrkRec.done).trk.recs.filter (fun x => !(x.span && x.id == id)) }
      else (s.modRec span id TrkRec.done).trk := by
  have hdone : (s.modRec span id (fun r => { r with state := 7, resv := 0 })).partRec span id = some r.done :=
    State.partRec_modRec h _
  simp only [State.recDone, hdone]
  cases span with
  | false => exact State.logEntry_trk _ _
  | true =>
    simp only [if_true, State.modTrk, State.logEntry_trk]
    rfl

theorem State.recDone_regular {s : State} {id : Nat} {r : TrkRec} (h : s.partRec false id = some r) :
    (s.recDone false id).trk = (s.modRec false id TrkRec.done).trk := State.recDone_trk h

theorem State.recDone_firings {s : State} {span : Bool} {id : Nat} {r : TrkRec} (h : s.partRec span id = some r) :
    (s.recDone span id).trk.firings = s.trk.firings := by
  rw [State.recDone_trk h]
  cases span <;> rfl

/-- What is still found of a record that ended is that record as DONE. -/
theorem State.partRec_recDone {s : State} {span : Bool} {id : Nat} {r : TrkRec} (h : s.partRec span id = some r) {u : TrkRec}
    (hu : (s.recDone span id).partRec span id = some u) : u = r.done := by
  cases span with
  | false =>
    rw [State.partRec_congr (congrArg TrkState.recs (State.recDone_regular h)), State.partRec_modRec h TrkRec.done] at hu
    exact (Option.some.inj hu).symm
  | true =>
    obtain ⟨hspan, hid⟩ := State.partRec_name hu
    have hmem := List.mem_of_find?_eq_some hu
    rw [State.recDone_trk h, if_pos rfl] at hmem
    have hgone := (List.mem_filter.mp hmem).2
    simp [hspan, hid] at hgone

/-- A record as FIRED (R356). -/
def TrkRec.fired (r : TrkRec) : TrkRec := { r with state := 6 }

/-- A FIRED record that is out of view ends (R356). -/
def State.endsFired (s : State) (span : Bool) (id : Nat) : State :=
  match s.partRec span id with
  | none => s
  | some r => if r.state == 6 && !r.has flInView then s.recDone span id else s

theorem State.endsFired_cases (s : State) (span : Bool) (id : Nat) : s.endsFired span id = s ∨
    ∃ r, s.partRec span id = some r ∧ r.state = 6 ∧ r.has flInView = false ∧ s.endsFired span id = s.recDone span id := by
  unfold State.endsFired
  split
  · exact .inl rfl
  · rename_i r hr
    split
    · rename_i hgone
      rw [Bool.and_eq_true, beq_iff_eq, Bool.not_eq_true'] at hgone
      exact .inr ⟨r, hr, hgone.1, hgone.2, rfl⟩
    · exact .inl rfl

theorem State.recCheck_eq {s : State} {span : Bool} {id : Nat} {r : TrkRec} (h : s.partRec span id = some r) :
    s.recCheck span id = (if r.state == 5 && !s.trk.firings.any (fun f => f.span == span && f.id == id)
      then s.modRec span id TrkRec.fired else s).endsFired span id := by
  simp only [State.recCheck, h]
  rfl

/-- The check of a record makes it FIRED when it has committed and no firing of it is left, and ends it once it is FIRED and out of view
(R356). -/
theorem State.recCheck_cases {s : State} {span : Bool} {id : Nat} {r : TrkRec} (h : s.partRec span id = some r) : ∃ u,
    (u = s ∨ r.state = 5 ∧ u = s.modRec span id TrkRec.fired) ∧ (s.recCheck span id = u ∨
      ∃ x, u.partRec span id = some x ∧ x.state = 6 ∧ x.has flInView = false ∧ s.recCheck span id = u.recDone span id) := by
  refine ⟨_, ?_, (State.recCheck_eq h) ▸ State.endsFired_cases _ span id⟩
  split
  · rename_i hfire
    rw [Bool.and_eq_true, beq_iff_eq] at hfire
    exact .inr ⟨hfire.1, rfl⟩
  · exact .inl rfl

/-- The check leaves a record that has not committed. -/
theorem State.recCheck_early {s : State} {span : Bool} {id : Nat} {r : TrkRec} (h : s.partRec span id = some r) (he : r.early = true) :
    s.recCheck span id = s := by
  have hstate := r.early_iff.mp he
  obtain ⟨u, rfl | ⟨hfive, -⟩, hend | ⟨x, hx, hsix, -⟩⟩ := State.recCheck_cases h
  · exact hend
  · cases h.symm.trans hx
    omega
  all_goals omega

/-- The check of a record that has committed and is in view only may make it FIRED. -/
theorem State.recCheck_inView {s : State} {span : Bool} {id : Nat} {r : TrkRec} (h : s.partRec span id = some r) (h5 : r.state = 5)
    (hv : r.has flInView = true) : (s.recCheck span id).regs = s.regs ∧
      ∃ n, (n = 5 ∨ n = 6) ∧ (s.recCheck span id).partRec span id = some { r with state := n } := by
  obtain ⟨u, rfl | ⟨-, rfl⟩, hend | ⟨x, hx, -, hgone, -⟩⟩ := State.recCheck_cases h
  · rw [hend]
    exact ⟨rfl, r.state, .inl h5, h⟩
  · cases h.symm.trans hx
    exact absurd (hv.symm.trans hgone) nofun
  · rw [hend]
    exact ⟨rfl, 6, .inr rfl, State.partRec_modRec h TrkRec.fired⟩
  · cases (State.partRec_modRec h TrkRec.fired).symm.trans hx
    exact absurd (hv.symm.trans hgone) nofun

/-- The queue of firings is this one, and what is found of a record has committed at this point and holds no reservation. -/
def State.FixedAt (s : State) (span : Bool) (id : Nat) (point : Int) (queue : List Firing) : Prop :=
  s.trk.firings = queue ∧ ∀ u, s.partRec span id = some u → 5 ≤ u.state ∧ u.commit = point ∧ u.resv = 0

theorem State.FixedAt.recDone {s : State} {span : Bool} {id : Nat} {point : Int} {queue : List Firing} (h : s.FixedAt span id point queue)
    {r : TrkRec} (hr : s.partRec span id = some r) : (s.recDone span id).FixedAt span id point queue := by
  refine ⟨(State.recDone_firings hr).trans h.1, fun u hu => ?_⟩
  obtain ⟨-, hcommit, -⟩ := h.2 r hr
  rw [State.partRec_recDone hr hu]
  exact ⟨Nat.le_add_right 5 2, hcommit, rfl⟩

theorem State.fixedAt_fired {s : State} {span : Bool} {id : Nat} {r : TrkRec} (h : s.partRec span id = some r) (hresv : r.resv = 0) :
    (s.modRec span id TrkRec.fired).FixedAt span id r.commit s.trk.firings := by
  refine ⟨rfl, fun u hu => ?_⟩
  cases (State.partRec_modRec h TrkRec.fired).symm.trans hu
  exact ⟨Nat.le_succ 5, rfl, hresv⟩

/-- The check of a record that has committed leaves its commit point and the queue of firings. -/
theorem State.recCheck_fixedAt {s : State} {span : Bool} {id : Nat} {r : TrkRec} (h : s.partRec span id = some r) (h5 : r.state = 5)
    (hresv : r.resv = 0) : (s.recCheck span id).FixedAt span id r.commit s.trk.firings := by
  obtain ⟨u, hu, hend⟩ := State.recCheck_cases h
  have hfixed : u.FixedAt span id r.commit s.trk.firings := by
    obtain rfl | ⟨-, rfl⟩ := hu
    · refine ⟨rfl, fun x hx => ?_⟩
      cases h.symm.trans hx
      exact ⟨Nat.le_of_eq h5.symm, rfl, hresv⟩
    · exact State.fixedAt_fired h hresv
  obtain hend | ⟨x, hx, -, -, hend⟩ := hend
  · exact hend ▸ hfixed
  · exact hend ▸ hfixed.recDone hx

end Sys2Proof.Machine

/-!
PROOFS. Verdicts, commits and deadline points of part records (R363, R364, R371 to R375, R429).
-/
namespace Sys2Proof.Machine

/-! ## The oldest verdict -/

/-- TRK with other verdicts waiting. -/
def State.withVerdicts (s : State) (rest : List VerdictMsg) : State := { s with trk := { s.trk with verdicts := rest } }

section
variable {s : State} {v : VerdictMsg} {rest : List VerdictMsg}

theorem State.takeVerdict_mode (hs : s.trk.verdicts = v :: rest) : s.takeVerdict v.final = (s.withVerdicts rest).trkVerdict v false := by
  simp only [State.takeVerdict, hs, BEq.rfl, if_true]
  rfl

theorem State.takeVerdict_other (hs : s.trk.verdicts = v :: rest) : s.takeVerdict (!v.final) = s := by
  have hmode : (v.final == !v.final) = false := by cases v.final <;> rfl
  simp only [State.takeVerdict, hs, hmode, Bool.false_eq_true, if_false]

theorem answers_verdict (ha : s.awake = true) (hs : s.trk.verdicts = v :: rest) {P : State → Prop}
    (h : P ((s.withVerdicts rest).trkVerdict v false)) : Answers (if v.final then .verdictFinal else .verdictArm) s P := by
  refine answers_of_next ?_ (State.takeVerdict_mode hs ▸ h)
  cases v.final <;> exact congrArg Host.Outcome.next (State.whenAwake_awake ha _)

/-- The command of the other mode leaves a verdict waiting. -/
theorem exec_verdict_other (ha : s.awake = true) (hs : s.trk.verdicts = v :: rest) :
    exec (if v.final then .verdictArm else .verdictFinal) s = .next s := by
  have hexec : exec (if v.final then .verdictArm else .verdictFinal) s = .next (s.takeVerdict (!v.final)) := by
    cases v.final <;> exact congrArg Host.Outcome.next (State.whenAwake_awake ha _)
  rw [hexec, State.takeVerdict_other hs]

end

/-! ## What a verdict does -/

/-- A stale verdict is counted, with its event (R364). -/
def State.staleVerdict (s : State) (v : VerdictMsg) : State := (s.count .TRK_CNT_STALE 0 0 1).raise ⟨.trk, 0⟩ 2 v.id

theorem State.trkVerdict_stale {s : State} {v : VerdictMsg} (h : ∀ r, s.partRec false v.id = some r → r.state = 7 ∨ r.gen ≠ v.gen) (peer : Bool) :
    s.trkVerdict v peer = s.staleVerdict v := by
  cases hr : s.partRec false v.id with
  | none => simp only [State.trkVerdict, hr, State.staleVerdict]
  | some r =>
    have hstale : (r.state == 7 || r.gen != v.gen) = true := by simpa using h r hr
    simp only [State.trkVerdict, hr, hstale, if_true, State.staleVerdict]

theorem State.staleVerdict_shows (s : State) (v : VerdictMsg) :
    (s.staleVerdict v).event ⟨.trk, 0⟩ 2 = true ∧
    (s.staleVerdict v).get .TRK_CNT_STALE = satAdd Fld.TRK_CNT_STALE.width (s.get .TRK_CNT_STALE) 1 ∧
    (s.isOn (.ERR_INFO_valid .trk) = false → (s.staleVerdict v).get (.ERR_INFO_detail .trk) = v.id % 2 ^ 24) ∧
    State.Only ((.TRK_CNT_STALE, 0, 0) :: evtCells ⟨.trk, 0⟩) s (s.staleVerdict v) := by
  refine ⟨State.raise_event _ _ _ (by decide), ?_, fun hfree => ?_, ?_⟩
  · rw [State.staleVerdict, State.get_raise _ _ _ _ _ rfl, State.get_count_self]
  · have hvalid : (s.count .TRK_CNT_STALE 0 0 1).isOn (.ERR_INFO_valid .trk) = false := by
      rw [State.isOn, State.get_count_other _ rfl]
      exact hfree
    obtain ⟨-, -, -, hdetail, -⟩ := State.raise_fresh _ ⟨.trk, 0⟩ v.id (n := 2) (by decide) hvalid
    exact hdetail
  · exact ((State.Only.refl _ s).count 1 List.mem_cons_self).raise _ _ fun _ => List.mem_cons_of_mem _

/-- A record with the verdict that came after its commit point (R372). -/
def TrkRec.changedLate (v : VerdictMsg) (r : TrkRec) : TrkRec := { r with reasons := r.reasons ||| 2 ^ 8, lateCls := v.cls, lateDigest := v.digest }

/-- A record with a verdict (R363). -/
def TrkRec.decided (v : VerdictMsg) (time : Nat) (peer : Bool) (r : TrkRec) : TrkRec :=
  let r := { r with state := if v.final then 4 else 3, held := if v.final then 2 else 1, cls := v.cls, digest := v.digest, tVerdict := time }
  if peer then r.flag flPeer else r

section
variable {s : State} {v : VerdictMsg} {r : TrkRec}

theorem State.trkVerdict_late (h : s.partRec false v.id = some r) (hgen : r.gen = v.gen) (hlive : r.state ≠ 7)
    (hfixed : 5 ≤ r.state ∨ s.atCommit r = true) (peer : Bool) :
    s.trkVerdict v peer = ((s.modRec false v.id (TrkRec.changedLate v)).count .EJT_CNT_LATE_CHANGE 0 0 1).raise ⟨.ejt, 0⟩ 0 := by
  have hsound : (r.state == 7 || r.gen != v.gen) = false := by simp [hgen, hlive]
  have hlate : (decide (5 ≤ r.state) || s.atCommit r) = true := by simpa using hfixed
  simp only [State.trkVerdict, h, hsound, hlate, Bool.false_eq_true, if_false, if_true]
  rfl

theorem State.trkVerdict_ignored (h : s.partRec false v.id = some r) (hgen : r.gen = v.gen) (hearly : r.state < 5)
    (hopen : s.atCommit r = false) (harm : v.final = false) (hheld : r.held = 2) (peer : Bool) :
    s.trkVerdict v peer = s.count .TRK_CNT_ARM_IGNORED 0 0 1 := by
  have hsound : (r.state == 7 || r.gen != v.gen) = false := by simp [hgen]; omega
  have hlate : (decide (5 ≤ r.state) || s.atCommit r) = false := by simp [hopen, hearly]
  simp [State.trkVerdict, h, hsound, hlate, harm, hheld]

theorem State.trkVerdict_ignored_shows (h : s.partRec false v.id = some r) (hgen : r.gen = v.gen) (hearly : r.state < 5)
    (hopen : s.atCommit r = false) (harm : v.final = false) (hheld : r.held = 2) {peer : Bool} {t : State} (ht : s.trkVerdict v peer = t) :
    t.get .TRK_CNT_ARM_IGNORED = satAdd Fld.TRK_CNT_ARM_IGNORED.width (s.get .TRK_CNT_ARM_IGNORED) 1 ∧
    State.Only [(.TRK_CNT_ARM_IGNORED, 0, 0)] s t := by
  rw [State.trkVerdict_ignored h hgen hearly hopen harm hheld] at ht
  subst ht
  exact ⟨State.get_count_self _ _ _ _ _, State.only_count List.mem_cons_self _ 1⟩

theorem State.trkVerdict_decides (h : s.partRec false v.id = some r) (hgen : r.gen = v.gen) (hearly : r.state < 5)
    (hopen : s.atCommit r = false) (hmode : v.final = true ∨ r.held ≠ 2) (peer : Bool) :
    s.trkVerdict v peer = (s.modRec false v.id (TrkRec.decided v s.t64 peer)).reserve false v.id := by
  have hsound : (r.state == 7 || r.gen != v.gen) = false := by simp [hgen]; omega
  have hlate : (decide (5 ≤ r.state) || s.atCommit r) = false := by simp [hopen, hearly]
  have htaken : (!v.final && r.held == 2) = false := by simpa [Decidable.or_iff_not_imp_left] using hmode
  simp only [State.trkVerdict, h, hsound, hlate, htaken, Bool.false_eq_true, if_false]
  rfl

theorem State.trkVerdict_late_shows (h : s.partRec false v.id = some r) (hgen : r.gen = v.gen) (hlive : r.state ≠ 7)
    (hfixed : 5 ≤ r.state ∨ s.atCommit r = true) {peer : Bool} {t : State} (ht : s.trkVerdict v peer = t) :
    t.event ⟨.ejt, 0⟩ 0 = true ∧ t.get .EJT_CNT_LATE_CHANGE = satAdd Fld.EJT_CNT_LATE_CHANGE.width (s.get .EJT_CNT_LATE_CHANGE) 1 ∧
    ∃ u, t.partRec false v.id = some u ∧ u.cls = r.cls ∧ u.state = r.state ∧ bit u.reasons 8 = true ∧ u.lateCls = v.cls := by
  rw [State.trkVerdict_late h hgen hlive hfixed] at ht
  subst ht
  refine ⟨State.raise_event _ _ _ (by decide), ?_, r.changedLate v, ?_, rfl, rfl, ?_, rfl⟩
  · rw [State.get_raise _ _ _ _ _ rfl, State.get_count_self]
    rfl
  · rw [State.partRec_congr (congrArg TrkState.recs (State.raise_trk _ _ _ _))]
    exact State.partRec_modRec h (TrkRec.changedLate v)
  · exact (bit_or _ _ _).trans (by rw [bit_two_pow, decide_eq_true rfl, Bool.or_true])

theorem State.trkVerdict_decides_shows (h : s.partRec false v.id = some r) (hgen : r.gen = v.gen) (hearly : r.state < 5)
    (hopen : s.atCommit r = false) (hmode : v.final = true ∨ r.held ≠ 2) {t : State} (ht : s.trkVerdict v false = t) :
    ∃ u, t.partRec false v.id = some u ∧ u.cls = v.cls ∧ u.digest = v.digest ∧ u.state = (if v.final then 4 else 3) ∧
      u.held = (if v.final then 2 else 1) ∧ u.tVerdict = s.t64 ∧ u.first = r.first ∧ u.last = r.last := by
  rw [State.trkVerdict_decides h hgen hearly hopen hmode] at ht
  have hmod : (s.modRec false v.id (TrkRec.decided v s.t64 false)).partRec false v.id = some (r.decided v s.t64 false) :=
    State.partRec_modRec h (TrkRec.decided v s.t64 false)
  obtain ⟨u, hu, hbody⟩ := State.partRec_of_bodies (ht ▸ State.settles_reserve _ false v.id).bodies hmod
  exact ⟨u, hu, congrArg TrkRec.cls hbody, congrArg TrkRec.digest hbody, congrArg TrkRec.state hbody, congrArg TrkRec.held hbody,
    congrArg TrkRec.tVerdict hbody, (congrArg TrkRec.first hbody :), (congrArg TrkRec.last hbody :)⟩

end

/-! ## The commit of a record -/

theorem exec_recordCommit_awake {s : State} (h : s.awake = true) (span : Bool) (id : PartId) :
    exec (.recordCommit span id) s = .next (s.commitDue span id) := congrArg Host.Outcome.next (State.whenAwake_awake h _)

theorem State.commitDue_due {s : State} {span : Bool} {id : Nat} {r : TrkRec} (h : s.partRec span id = some r) (he : r.early = true)
    (hc : s.atCommit r = true) : s.commitDue span id = s.recCommit r := by
  simp only [State.commitDue, h, he, hc, Bool.and_self, if_true]

theorem State.commitDue_waits {s : State} {span : Bool} {id : Nat} {r : TrkRec} (h : s.partRec span id = some r)
    (hc : s.atCommit r = false) : s.commitDue span id = s := by
  simp only [State.commitDue, h, hc, Bool.and_false, Bool.false_eq_true, if_false]

/-- A record as its commit fixes it (R356, R371, R374). -/
def State.fixedRec (s : State) (r : TrkRec) : TrkRec :=
  let x := { (s.commitClass r).1 with state := 5, commit := s.commitPoint r, tCommit := s.t64 }
  if x.has flInView then x.flag flFireTrunc else x

/-- A commit without a verdict is counted, with its event (R371). -/
def State.noteLate (s : State) (r : TrkRec) : State :=
  ((s.count .TRK_CNT_LATE 0 0 1).pmc 0x31 0 1 (s.owner ⟨.capCtx, r.ctx⟩)).raise ⟨.trk, 0⟩ 3

/-- The commit of a record before its firings are queued. -/
def State.fixRec (s : State) (r : TrkRec) : State :=
  let u := s.modRec r.span r.id (fun _ => s.fixedRec r)
  if (s.commitClass r).2 then u.noteLate r else u

/-- The firings of a record that commits with the class of `x` (R376). -/
def State.queueAll (s : State) (span : Bool) (id : Nat) (x : TrkRec) : State :=
  s.forEach ((List.range 8).filter (fun b => s.bankOn b && bit (s.classMask x.cls) b)) (fun t b => t.queueFiring ((t.partRec span id).getD x) b)

/-- A record without reservations. -/
def TrkRec.unreserved (r : TrkRec) : TrkRec := { r with resv := 0 }

theorem State.recCommit_eq (s : State) (r : TrkRec) : s.recCommit r =
    (((s.fixRec r).queueAll r.span r.id (s.fixedRec r)).modRec r.span r.id TrkRec.unreserved).recCheck r.span r.id := rfl

theorem State.commitClass_name (s : State) (r : TrkRec) : (s.commitClass r).1.span = r.span ∧ (s.commitClass r).1.id = r.id := by
  unfold State.commitClass
  split
  · exact ⟨rfl, rfl⟩
  split
  · exact ⟨rfl, rfl⟩
  split <;> exact ⟨rfl, rfl⟩

theorem State.commitClass_inView (s : State) (r : TrkRec) : (s.commitClass r).1.has flInView = r.has flInView := by
  unfold State.commitClass
  split
  · exact r.has_flag flDefaulted true flInView
  split
  · rfl
  split
  · exact r.has_flag flProvisional true flInView
  · exact r.has_flag flDefaulted true flInView

theorem State.fixedRec_shows (s : State) (r : TrkRec) :
    (s.fixedRec r).span = r.span ∧ (s.fixedRec r).id = r.id ∧ (s.fixedRec r).state = 5 ∧ (s.fixedRec r).cls = (s.commitClass r).1.cls ∧
    (s.fixedRec r).commit = s.commitPoint r ∧ (s.fixedRec r).tCommit = s.t64 := by
  obtain ⟨hspan, hid⟩ := s.commitClass_name r
  unfold State.fixedRec
  dsimp only
  split <;> exact ⟨hspan, hid, rfl, rfl, rfl, rfl⟩

/-- A record that commits in view keeps that flag and takes FIRE_TRUNC (R374). -/
theorem State.fixedRec_inView {s : State} {r : TrkRec} (h : r.has flInView = true) :
    (s.fixedRec r).has flInView = true ∧ (s.fixedRec r).has flFireTrunc = true := by
  have hview : ({ (s.commitClass r).1 with state := 5, commit := s.commitPoint r, tCommit := s.t64 } : TrkRec).has flInView = true :=
    (s.commitClass_inView r).trans h
  rw [State.fixedRec, if_pos hview]
  exact ⟨(TrkRec.has_flag _ _ _ _).trans hview, (TrkRec.has_flag _ _ _ _).trans (if_pos rfl)⟩

theorem State.noteLate_trk (s : State) (r : TrkRec) : (s.noteLate r).trk = s.trk := by
  rw [State.noteLate, State.raise_trk, State.pmc_trk]
  rfl

theorem State.fixRec_trk (s : State) (r : TrkRec) : (s.fixRec r).trk = (s.modRec r.span r.id (fun _ => s.fixedRec r)).trk := by
  unfold State.fixRec
  dsimp only
  split
  · exact State.noteLate_trk _ r
  · rfl

theorem State.partRec_fixRec {s : State} {span : Bool} {id : Nat} {r : TrkRec} (h : s.partRec span id = some r) :
    (s.fixRec r).partRec span id = some (s.fixedRec r) := by
  obtain ⟨rfl, rfl⟩ := State.partRec_name h
  obtain ⟨hspan, hid, -⟩ := s.fixedRec_shows r
  rw [State.partRec_congr (congrArg TrkState.recs (s.fixRec_trk r))]
  exact State.partRec_modRec h _ fun _ _ _ => ⟨hspan, hid⟩

theorem State.fixRec_late {s : State} {r : TrkRec} (h : (s.commitClass r).2 = true) :
    (s.fixRec r).event ⟨.trk, 0⟩ 3 = true ∧ (s.fixRec r).get .TRK_CNT_LATE = satAdd Fld.TRK_CNT_LATE.width (s.get .TRK_CNT_LATE) 1 := by
  simp only [State.fixRec, h, if_true]
  refine ⟨State.raise_event _ _ _ (by decide), ?_⟩
  rw [State.noteLate, State.get_raise _ _ _ _ _ rfl, State.get_pmc _ _ _ _ _ rfl rfl, State.get_count_self]
  rfl

/-- A queued firing, or one that finds no room, only marks its record (R376). -/
theorem State.queueFiring_bodies (s : State) (r : TrkRec) (b : Nat) : (s.queueFiring r b).bodies = s.bodies := by
  have hlost : (s.modRec r.span r.id (fun r => r.flag flFireLost)).bodies = s.bodies :=
    State.modRec_bodies s _ _ _ TrkRec.body_flag_fireLost
  unfold State.queueFiring
  dsimp only
  split
  · rfl
  split
  · exact hlost
  split
  · exact (State.bodies_congr (State.raise_trk _ _ _ _)).trans hlost
  · exact (State.bodies_congr (State.pmc_trk _ _ _ _ _)).trans (State.modRec_bodies s r.span r.id (fun x => { x with
      banks := x.banks ||| 2 ^ b, resv := if bit r.resv b then x.resv - 2 ^ b else x.resv }))

theorem State.queueAll_bodies (s : State) (span : Bool) (id : Nat) (x : TrkRec) : (s.queueAll span id x).bodies = s.bodies :=
  State.forEach_keeps State.bodies (fun t b _ => t.queueFiring_bodies _ b) s

theorem State.queueAll_get (s : State) (span : Bool) (id : Nat) (x : TrkRec) {f : Fld}
    (hk : [PageKind.ejt, .pmc].contains f.kind = false) (hm : msgFlds.all (fun g => f.diff g) = true) (i j : Nat) :
    (s.queueAll span id x).get f i j = s.get f i j :=
  get_of_held (State.forEach_stays (held_self s) _ fun _ _ ht => State.queueFiring_stays ht (avoid_one hk hm) _ _) i j

/-- What a commit in view leaves (R356, R371, R374). -/
theorem State.recCommit_inView {s : State} {span : Bool} {id : Nat} {r : TrkRec} (h : s.partRec span id = some r) (hv : r.has flInView = true)
    {t : State} (ht : s.recCommit r = t) :
    (∃ u, t.partRec span id = some u ∧ (u.state = 5 ∨ u.state = 6) ∧ u.cls = (s.commitClass r).1.cls ∧ u.commit = s.commitPoint r ∧
      u.tCommit = s.t64 ∧ u.resv = 0 ∧ u.has flFireTrunc = true) ∧
    ((s.commitClass r).2 = true → t.event ⟨.trk, 0⟩ 3 = true ∧
      t.get .TRK_CNT_LATE = satAdd Fld.TRK_CNT_LATE.width (s.get .TRK_CNT_LATE) 1) := by
  obtain ⟨rfl, rfl⟩ := State.partRec_name h
  obtain ⟨hview, htrunc⟩ := State.fixedRec_inView (s := s) hv
  obtain ⟨-, -, hstate, hcls, hcommit, htime⟩ := s.fixedRec_shows r
  obtain ⟨x, hx, hbody⟩ := State.partRec_of_bodies ((s.fixRec r).queueAll_bodies r.span r.id (s.fixedRec r)) (State.partRec_fixRec h)
  have hfree := State.partRec_modRec hx TrkRec.unreserved
  obtain ⟨hregs, n, hn, hu⟩ := State.recCheck_inView hfree ((congrArg TrkRec.state hbody).trans hstate)
    ((TrkRec.has_of_body hbody (by decide)).trans hview)
  rw [← s.recCommit_eq r, ht] at hregs hu
  refine ⟨⟨_, hu, hn, (congrArg TrkRec.cls hbody).trans hcls, (congrArg TrkRec.commit hbody).trans hcommit,
    (congrArg TrkRec.tCommit hbody).trans htime, rfl, (TrkRec.has_of_body hbody (by decide)).trans htrunc⟩, fun hlate => ?_⟩
  obtain ⟨hevent, hcount⟩ := State.fixRec_late hlate
  have hget : ∀ (f : Fld), [PageKind.ejt, .pmc].contains f.kind = false → msgFlds.all (fun g => f.diff g) = true →
      t.get f = (s.fixRec r).get f := fun f hk hm => (State.get_congr hregs f 0 0).trans (State.queueAll_get _ _ _ _ hk hm 0 0)
  exact ⟨(State.event_congr (hget _ rfl rfl)).trans hevent, (hget _ rfl rfl).trans hcount⟩

/-! ## Commits while EJT is off -/

section
variable {s : State} (hoff : s.isOn (.CTRL_enable .ejt) = false)
include hoff

theorem State.bankOn_off (b : Nat) : s.bankOn b = false := by
  rw [State.bankOn, hoff, Bool.false_and, Bool.false_and]

/-- Without a bank that applies a record commits TRK_HOLD after its first extent (R375). -/
theorem State.commitPoint_off (r : TrkRec) : s.commitPoint r = r.first + s.get .TRK_HOLD := by
  have hnone : (List.range 8).filter s.bankOn = [] := List.filter_eq_nil_iff.mpr fun b _ => by simp [State.bankOn_off hoff b]
  simp only [State.commitPoint, hnone, List.map_nil]

theorem State.queueAll_off (span : Bool) (id : Nat) (x : TrkRec) : s.queueAll span id x = s := by
  have hnone : (List.range 8).filter (fun b => s.bankOn b && bit (s.classMask x.cls) b) = [] :=
    List.filter_eq_nil_iff.mpr fun b _ => by simp [State.bankOn_off hoff b]
  rw [State.queueAll, hnone]
  rfl

theorem State.fixRec_off (r : TrkRec) : (s.fixRec r).isOn (.CTRL_enable .ejt) = false := by
  unfold State.fixRec
  dsimp only
  split
  · rw [State.isOn, State.noteLate, State.get_raise _ _ _ _ _ rfl, State.get_pmc _ _ _ _ _ rfl rfl, State.get_count_other _ rfl]
    exact hoff
  · exact hoff

/-- A commit while EJT is off queues no firing (R375). -/
theorem State.recCommit_off {span : Bool} {id : Nat} {r : TrkRec} (h : s.partRec span id = some r) {t : State} (ht : s.recCommit r = t) :
    t.trk.firings = s.trk.firings ∧
    ∀ u, t.partRec span id = some u → 5 ≤ u.state ∧ u.commit = r.first + s.get .TRK_HOLD ∧ u.resv = 0 := by
  obtain ⟨rfl, rfl⟩ := State.partRec_name h
  obtain ⟨-, -, hstate, -, hcommit, -⟩ := s.fixedRec_shows r
  obtain ⟨hfirings, hrec⟩ := State.recCheck_fixedAt (State.partRec_modRec (State.partRec_fixRec h) TrkRec.unreserved) hstate rfl
  rw [s.recCommit_eq r, State.queueAll_off (State.fixRec_off hoff r)] at ht
  rw [ht] at hfirings hrec
  refine ⟨hfirings.trans (congrArg TrkState.firings (s.fixRec_trk r) :), fun u hu => ?_⟩
  obtain ⟨hfive, hpoint, hfree⟩ := hrec u hu
  exact ⟨hfive, hpoint.trans (hcommit.trans (State.commitPoint_off hoff r)), hfree⟩

end

/-! ## The deadline point -/

theorem exec_deadlinePoint_awake {s : State} (h : s.awake = true) (id : PartId) : exec (.deadlinePoint id) s = .next (s.deadlineCheck id) :=
  congrArg Host.Outcome.next (State.whenAwake_awake h _)

/-- A record whose deadline point was checked (R429). -/
def TrkRec.checked (r : TrkRec) : TrkRec := { r with deadline := true }

section
variable {s : State} {id : Nat} {r : TrkRec} {p : Nat}

theorem State.deadlineCheck_waits (h : s.partRec false id = some r) (hp : s.deadlinePart r.ctx = some p)
    (hwait : r.deadline = true ∨ s.beltRuns = false ∨ s.beltPos < s.commitPoint r - s.get .CMD_PART_DEADLINE 0 p) : s.deadlineCheck id = s := by
  have hnot : (r.deadline || !s.beltRuns || decide (s.beltPos < s.commitPoint r - s.get .CMD_PART_DEADLINE 0 p)) = true := by
    simpa [or_assoc] using hwait
  simp only [State.deadlineCheck, h, hp, hnot, if_true]

variable (h : s.partRec false id = some r) (hp : s.deadlinePart r.ctx = some p) (hfirst : r.deadline = false) (hruns : s.beltRuns = true)
  (hreached : s.commitPoint r - s.get .CMD_PART_DEADLINE 0 p ≤ s.beltPos)
include h hp hfirst hruns hreached

theorem State.deadlineCheck_reached : s.deadlineCheck id = if r.held == 2 || !r.early then s.modRec false id TrkRec.checked
    else ((s.modRec false id TrkRec.checked).count .CMD_CNT_DEADLINE p 0 1).raise ⟨.cmdPart, p⟩ 4 id := by
  have hdue : (r.deadline || !s.beltRuns || decide (s.beltPos < s.commitPoint r - s.get .CMD_PART_DEADLINE 0 p)) = false := by
    simp [hfirst, hruns, hreached]
  simp only [State.deadlineCheck, h, hp, hdue, Bool.false_eq_true, if_false]
  rfl

theorem State.deadlineCheck_met (hmet : r.held = 2 ∨ r.early = false) : s.deadlineCheck id = s.modRec false id TrkRec.checked := by
  have hin : (r.held == 2 || !r.early) = true := by simpa using hmet
  rw [State.deadlineCheck_reached h hp hfirst hruns hreached, if_pos hin]

theorem State.deadlineCheck_missed (hheld : r.held ≠ 2) (he : r.early = true) {t : State} (ht : s.deadlineCheck id = t) :
    t.event ⟨.cmdPart, p⟩ 4 = true ∧ t.get .CMD_CNT_DEADLINE p = satAdd Fld.CMD_CNT_DEADLINE.width (s.get .CMD_CNT_DEADLINE p) 1 ∧
    t.trk = (s.modRec false id TrkRec.checked).trk := by
  have hin : ¬ (r.held == 2 || !r.early) = true := by simp [hheld, he]
  rw [State.deadlineCheck_reached h hp hfirst hruns hreached, if_neg hin] at ht
  subst ht
  refine ⟨State.raise_event _ _ _ (by decide), ?_, State.raise_trk _ _ _ _⟩
  rw [State.get_raise _ _ _ _ _ rfl, State.get_count_self]
  rfl

end

end Sys2Proof.Machine

section
open Sys2Proof Sys2Proof.Machine

/-- Settles O49: whether the verdict comes from the array or from a peer, no record that could take it is found. -/
theorem staleVerdictsAreIgnored : Obligations.StaleVerdictsAreIgnored := by
  intro s v h
  refine ⟨fun peer => ?_, fun rest ha hs => answers_verdict ha hs ?_⟩
  · rw [State.trkVerdict_stale h peer]
    exact s.staleVerdict_shows v
  · obtain ⟨hevent, hcount, -, honly⟩ := (s.withVerdicts rest).staleVerdict_shows v
    rw [State.trkVerdict_stale (s := s.withVerdicts rest) h false]
    exact ⟨hevent, hcount, honly⟩

/-- Settles O50: no bank applies, so that the list of banks to fire in is empty at every commit. -/
theorem withoutEjtNothingFires : Obligations.WithoutEjtNothingFires := by
  intro s hoff
  refine ⟨State.bankOn_off hoff, State.commitPoint_off hoff, fun span id r ha h he hruns => ⟨fun hreached => ?_, fun hbefore => ?_⟩,
    fun fn ho hbanks => ?_⟩
  · have hc : s.atCommit r = true := by simp [State.atCommit, hruns, State.commitPoint_off hoff, hreached]
    refine answers_of_next (exec_recordCommit_awake ha span id) ?_
    rw [State.commitDue_due h he hc]
    exact State.recCommit_off hoff h rfl
  · have hc : s.atCommit r = false := by simp [State.atCommit, State.commitPoint_off hoff, hbefore]
    rw [exec_recordCommit_awake ha, State.commitDue_waits h hc]
  · exact answers_enable_refused rfl ho rfl hoff (State.enableRise_ejt hoff hbanks fn)

/-- Settles O51: what a verdict or a deadline point does is told by the record it finds; the firings that a commit queues only mark their record. -/
theorem verdictsDecideAndCommitsFix : Obligations.VerdictsDecideAndCommitsFix := by
  intro s ha
  refine ⟨fun v rest r hs h hgen hlive => ⟨fun hfixed => ?_, fun hearly hopen hmode => ?_, fun hearly hopen harm hheld => ?_⟩,
    fun v rest hs => exec_verdict_other ha hs, fun span id r h he => ⟨fun hc hv => ?_, fun hc => ?_⟩,
    fun id r p h hp => ⟨fun hwait => ?_, fun hfirst hruns hreached => ⟨fun hmet => ?_, fun hheld he => ?_⟩⟩⟩
  · exact answers_verdict ha hs (State.trkVerdict_late_shows (s := s.withVerdicts rest) h hgen hlive hfixed rfl)
  · exact answers_verdict ha hs (State.trkVerdict_decides_shows (s := s.withVerdicts rest) h hgen hearly hopen hmode rfl)
  · have hmode : (if v.final then Instr.verdictFinal else .verdictArm) = .verdictArm := by
      rw [harm]
      rfl
    exact hmode ▸ answers_verdict ha hs (State.trkVerdict_ignored_shows (s := s.withVerdicts rest) h hgen hearly hopen harm hheld rfl)
  · refine answers_of_next (exec_recordCommit_awake ha span id) ?_
    rw [State.commitDue_due h he hc]
    exact State.recCommit_inView h hv rfl
  · rw [exec_recordCommit_awake ha, State.commitDue_waits h hc]
  · rw [exec_deadlinePoint_awake ha, State.deadlineCheck_waits h hp hwait]
  · rw [exec_deadlinePoint_awake ha, State.deadlineCheck_met h hp hfirst hruns hreached hmet]
    rfl
  · exact answers_of_next (exec_deadlinePoint_awake ha id) (State.deadlineCheck_missed h hp hfirst hruns hreached hheld he rfl)
end

/-!
PROOFS. Part list entries (R352 to R358, R362): the records that they open, move, end and merge, and the overflow spans.
-/
namespace Sys2Proof.Machine

/-! ## The oldest entry -/

/-- TRK with other part list entries waiting. -/
def State.withEntries (s : State) (rest : List PartEntry) : State := s.modTrk (fun t => { t with entries := rest })

section
variable {s : State} {e : PartEntry} {rest : List PartEntry} (hs : s.trk.entries = e :: rest)
include hs

theorem State.takeEntry_other {kind : Nat} (h : e.ovf = true ∨ e.kind ≠ kind) (act : State → PartEntry → State) : s.takeEntry kind act = s := by
  have hnot : (!e.ovf && e.kind == kind) = false := by simpa [Decidable.or_iff_not_imp_left] using h
  simp only [State.takeEntry, hs, hnot, Bool.false_eq_true, if_false]

theorem State.takeEntry_kind {kind : Nat} (hovf : e.ovf = false) (hkind : e.kind = kind) (act : State → PartEntry → State) :
    s.takeEntry kind act = act (s.withEntries rest) e := by
  simp only [State.takeEntry, hs, hovf, hkind, Bool.not_false, BEq.rfl, Bool.and_self, if_true]
  rfl

theorem State.takeSpan_other (hovf : e.ovf = false) (hkind : e.kind ≠ kindSpan) : s.takeSpan = s := by
  simp only [State.takeSpan, hs, hovf, beq_eq_false_iff_ne.mpr hkind, Bool.or_self, Bool.false_eq_true, if_false]

theorem State.takeSpan_span (h : e.ovf = true ∨ e.kind = kindSpan) : s.takeSpan = (s.withEntries rest).spanTake e.ctx e.first e.last := by
  have htakes : (e.ovf || e.kind == kindSpan) = true := by simpa using h
  simp only [State.takeSpan, hs, htakes, if_true]
  rfl

end

section
variable {s : State} (h : s.awake = true)
include h

theorem exec_partOpens_awake {c : Instr} {kind st : Nat}
    (hc : (c, kind, st) ∈ ([(.partOpen, kindOpen, 1), (.partOpenClose, kindOpenClose, 2)] : List (Instr × Nat × Nat))) :
    exec c s = .next (s.takeEntry kind (fun s e => s.recOpen e st)) := by
  simp only [List.mem_cons, List.not_mem_nil, or_false, Prod.mk.injEq] at hc
  obtain ⟨rfl, rfl, rfl⟩ | ⟨rfl, rfl, rfl⟩ := hc <;> exact congrArg Host.Outcome.next (State.whenAwake_awake h _)

theorem exec_partUpdates_awake {c : Instr} {kind : Nat} {close : Bool}
    (hc : (c, kind, close) ∈ ([(.partCont, kindCont, false), (.partClose, kindClose, true)] : List (Instr × Nat × Bool))) :
    exec c s = .next (s.takeEntry kind (fun s e => s.recUpdate e close)) := by
  simp only [List.mem_cons, List.not_mem_nil, or_false, Prod.mk.injEq] at hc
  obtain ⟨rfl, rfl, rfl⟩ | ⟨rfl, rfl, rfl⟩ := hc <;> exact congrArg Host.Outcome.next (State.whenAwake_awake h _)

theorem exec_partMerged_awake : exec .partMerged s = .next (s.takeEntry kindMerged (fun s e => s.recMerge e)) :=
  congrArg Host.Outcome.next (State.whenAwake_awake h _)

theorem exec_partSpan_awake : exec .partSpan s = .next s.takeSpan := congrArg Host.Outcome.next (State.whenAwake_awake h _)

end

/-- A stale entry is counted (R354), and changes nothing else. -/
theorem State.staleEntry_shows (s : State) {t : State} (ht : s.count .TRK_CNT_STALE 0 0 1 = t) :
    t.get .TRK_CNT_STALE = satAdd Fld.TRK_CNT_STALE.width (s.get .TRK_CNT_STALE) 1 ∧ t.trk = s.trk ∧
    State.Only [(.TRK_CNT_STALE, 0, 0)] s t := by
  subst ht
  exact ⟨State.get_count_self _ _ _ _ _, rfl, State.only_count List.mem_cons_self _ 1⟩

/-! ## A record that opens (R357) -/

/-- A record is as an entry opens it, in a state of R356 and at a time (R355, R357). -/
def TrkRec.Opens (e : PartEntry) (st now : Nat) (r : TrkRec) : Prop :=
  r.state = st ∧ r.gen = e.gen ∧ r.ctx = e.ctx ∧ r.cls = e.cls % 16 ∧ r.first = e.first ∧ r.last = e.last ∧ r.pixels = e.pixels ∧ r.held = 0 ∧
  r.opened = now ∧ r.has flInView = (st == 1)

theorem bit_inView (b : Bool) : bit (if b then 2 ^ flInView else 0) flInView = b := by cases b <;> decide

theorem TrkRec.Opens.of_body {e : PartEntry} {st now : Nat} {r u : TrkRec} (h : r.Opens e st now) (hb : u.body = r.body) : u.Opens e st now := by
  obtain ⟨hstate, hgen, hctx, hcls, hfirst, hlast, hpixels, hheld, hopened, hview⟩ := h
  exact ⟨(congrArg TrkRec.state hb).trans hstate, (congrArg TrkRec.gen hb).trans hgen, (congrArg TrkRec.ctx hb).trans hctx,
    (congrArg TrkRec.cls hb).trans hcls, (congrArg TrkRec.first hb).trans hfirst, (congrArg TrkRec.last hb).trans hlast,
    (congrArg TrkRec.pixels hb).trans hpixels, (congrArg TrkRec.held hb).trans hheld, (congrArg TrkRec.opened hb).trans hopened,
    (TrkRec.has_of_body hb (by decide)).trans hview⟩

/-- A part's table is made, with no entry (R264); its pool's lack is an event of ATN. -/
theorem State.tableCreate_shows (s : State) (id gen ctx w : Nat) :
    (s.tableCreate id gen ctx w).trk = s.trk ∧ (∃ x ∈ (s.tableCreate id gen ctx w).tables, x.id = id ∧ x.gen = gen ∧ x.entries = []) ∧
    ∀ (f : Fld), (evtFlds .atn).all (fun g => f.diff g) = true → (s.tableCreate id gen ctx w).get f = s.get f := by
  unfold State.tableCreate
  dsimp only
  split
  · refine ⟨State.raise_trk _ _ _ _, ?_, fun f hf => State.get_raise _ _ _ _ f hf 0 0⟩
    rw [State.raise_tables]
    exact ⟨_, List.mem_append_right _ List.mem_cons_self, rfl, rfl, rfl⟩
  · exact ⟨rfl, ⟨_, List.mem_append_right _ List.mem_cons_self, rfl, rfl, rfl⟩, fun _ _ => rfl⟩

/-- A record that opens, counted, with its table (R264, R357). -/
def State.noteOpened (s : State) (e : PartEntry) (r : TrkRec) : State :=
  ((s.addRec r).count .TRK_CNT_OPENED 0 0 1).tableCreate e.id e.gen e.ctx (e.colLast + 1 - e.colFirst)

theorem State.noteOpened_shows (s : State) (e : PartEntry) (r : TrkRec) : (s.noteOpened e r).trk = (s.addRec r).trk ∧
    (s.noteOpened e r).get .TRK_CNT_OPENED = satAdd Fld.TRK_CNT_OPENED.width (s.get .TRK_CNT_OPENED) 1 ∧
    ∃ x ∈ (s.noteOpened e r).tables, x.id = e.id ∧ x.gen = e.gen ∧ x.entries = [] := by
  obtain ⟨htrk, htable, hget⟩ :=
    State.tableCreate_shows ((s.addRec r).count .TRK_CNT_OPENED 0 0 1) e.id e.gen e.ctx (e.colLast + 1 - e.colFirst)
  exact ⟨htrk, (hget _ rfl).trans (State.get_count_self _ _ _ _ _), htable⟩

section
variable {s : State} {e : PartEntry} (h : s.partRec false e.id = none)
include h

theorem State.recOpen_stale (hgen : e.gen ≠ s.genOf e.id) (st : Nat) : s.recOpen e st = s.count .TRK_CNT_STALE 0 0 1 := by
  simp only [State.recOpen, h, bne_iff_ne.mpr hgen, if_true]

theorem State.recOpen_eq (hgen : e.gen = s.genOf e.id) (st : Nat) : ∃ r m, r.span = false ∧ r.id = e.id ∧ r.Opens e st s.t64 ∧
    s.recOpen e st = (s.noteOpened e r).setReasons false e.id m := by
  have hsame : ¬ (e.gen != s.genOf e.id) = true := by simp [hgen]
  simp only [State.recOpen, h, if_neg hsame]
  refine ⟨_, _, ?_, ?_, ?_, rfl⟩
  · rfl
  · rfl
  · exact ⟨rfl, rfl, rfl, rfl, rfl, rfl, rfl, rfl, rfl, bit_inView (st == 1)⟩

theorem State.recOpen_opens (hgen : e.gen = s.genOf e.id) (st : Nat) {t : State} (ht : s.recOpen e st = t) :
    t.trk.entries = s.trk.entries ∧ t.get .TRK_CNT_OPENED = satAdd Fld.TRK_CNT_OPENED.width (s.get .TRK_CNT_OPENED) 1 ∧
    (∃ r, t.partRec false e.id = some r ∧ r.Opens e st s.t64) ∧ ∃ x ∈ t.tables, x.id = e.id ∧ x.gen = e.gen ∧ x.entries = [] := by
  obtain ⟨r, m, hspan, hid, hopens, heq⟩ := State.recOpen_eq h hgen st
  obtain ⟨htrk, hcount, htable⟩ := s.noteOpened_shows e r
  have hsettles : (s.noteOpened e r).Settles t := ht ▸ heq ▸ State.settles_setReasons _ false e.id m
  obtain ⟨x, hx, hbody⟩ := State.partRec_of_bodies hsettles.bodies
    ((State.partRec_congr (congrArg TrkState.recs htrk) _ _).trans (State.partRec_addRec h hspan hid))
  refine ⟨?_, (hsettles.regs _ _ _ rfl).trans hcount, ⟨x, hx, hopens.of_body hbody⟩, ?_⟩
  · rw [hsettles.trk, htrk]
    rfl
  · rw [hsettles.rest]
    exact htable

end

/-! ## A record that goes on or closes (R357) -/

/-- A record `u` is `r` moved to the extent of an entry, and closed by a CLOSE (R356, R357). -/
def State.Moves (s : State) (e : PartEntry) (close : Bool) (r u : TrkRec) : Prop :=
  u.first = e.first ∧ u.last = e.last ∧ u.pixels = e.pixels ∧ u.colFirst = s.colOff r.ctx e.colFirst ∧ u.colLast = s.colOff r.ctx e.colLast ∧
  u.held = r.held ∧ u.cls = r.cls ∧ u.state = (if close && r.state == 1 then 2 else r.state) ∧
  (close = true → u.has flInView = false ∧ (e.cut = true → u.has flCut = true))

theorem State.Moves.of_body {s : State} {e : PartEntry} {close : Bool} {r x u : TrkRec} (h : s.Moves e close r x) (hb : u.body = x.body) :
    s.Moves e close r u := by
  obtain ⟨hfirst, hlast, hpixels, hcolFirst, hcolLast, hheld, hcls, hstate, hflags⟩ := h
  refine ⟨(congrArg TrkRec.first hb).trans hfirst, (congrArg TrkRec.last hb).trans hlast, (congrArg TrkRec.pixels hb).trans hpixels,
    (congrArg TrkRec.colFirst hb).trans hcolFirst, (congrArg TrkRec.colLast hb).trans hcolLast, (congrArg TrkRec.held hb).trans hheld,
    (congrArg TrkRec.cls hb).trans hcls, (congrArg TrkRec.state hb).trans hstate, fun hclose => ?_⟩
  rw [TrkRec.has_of_body hb (by decide), TrkRec.has_of_body hb (by decide)]
  exact hflags hclose

theorem State.Moves.early {s : State} {e : PartEntry} {close : Bool} {r u : TrkRec} (h : s.Moves e close r u) (he : r.early = true) :
    u.early = true := by
  obtain ⟨-, -, -, -, -, -, -, hstate, -⟩ := h
  rw [TrkRec.early_iff] at he ⊢
  rw [hstate]
  split <;> omega

theorem State.recUpdate_stale {s : State} {e : PartEntry} (h : ∀ r, s.partRec false e.id = some r → r.state = 7 ∨ e.gen ≠ r.gen) (close : Bool) :
    s.recUpdate e close = s.count .TRK_CNT_STALE 0 0 1 := by
  cases hr : s.partRec false e.id with
  | none => simp only [State.recUpdate, hr]
  | some r =>
    have hstale : (r.state == 7 || e.gen != r.gen) = true := by simpa using h r hr
    simp only [State.recUpdate, hr, hstale, if_true]

/-- The check of R354 that an entry is stale fails for a record that has not committed and has the entry's generation. -/
theorem TrkRec.not_stale_of_early {e : PartEntry} {r : TrkRec} (hgen : e.gen = r.gen) (he : r.early = true) :
    ¬ (r.state == 7 || e.gen != r.gen) = true := by
  have hstate := r.early_iff.mp he
  simp [hgen]
  omega

/-- A record as an entry moves it, and closes it (R356, R357). -/
def State.movedRec (s : State) (e : PartEntry) (close : Bool) (r : TrkRec) : TrkRec :=
  let x : TrkRec := { r with
    first := e.first, last := e.last, colFirst := s.colOff r.ctx e.colFirst, colLast := s.colOff r.ctx e.colLast, pixels := e.pixels }
  if close then
    let y := { x with state := if r.state == 1 then 2 else r.state }.flag flInView false
    if e.cut then y.flag flCut else y
  else x

theorem State.movedRec_name (s : State) (e : PartEntry) (close : Bool) (r : TrkRec) :
    (s.movedRec e close r).span = r.span ∧ (s.movedRec e close r).id = r.id := by
  cases close with
  | false => exact ⟨rfl, rfl⟩
  | true =>
    rw [State.movedRec, if_pos rfl]
    cases e.cut <;> exact ⟨rfl, rfl⟩

theorem State.movedRec_moves (s : State) (e : PartEntry) (close : Bool) (r : TrkRec) : s.Moves e close r (s.movedRec e close r) := by
  cases close with
  | false => exact ⟨rfl, rfl, rfl, rfl, rfl, rfl, rfl, rfl, nofun⟩
  | true =>
    rw [State.movedRec, if_pos rfl]
    cases hcut : e.cut with
    | false =>
      rw [if_neg Bool.false_ne_true]
      exact ⟨rfl, rfl, rfl, rfl, rfl, rfl, rfl, rfl, fun _ => ⟨TrkRec.has_flag _ _ _ _, fun h => absurd (hcut.symm.trans h) nofun⟩⟩
    | true =>
      rw [if_pos rfl]
      exact ⟨rfl, rfl, rfl, rfl, rfl, rfl, rfl, rfl, fun _ =>
        ⟨(TrkRec.has_flag _ _ _ _).trans (TrkRec.has_flag _ _ _ _), fun _ => TrkRec.has_flag _ _ _ _⟩⟩

section
variable {s : State} {e : PartEntry} {r : TrkRec} (h : s.partRec false e.id = some r) (hgen : e.gen = r.gen) (he : r.early = true)
include h hgen he

theorem State.recUpdate_eq (close : Bool) : ∃ u, s.recUpdate e close = u.recCheck false e.id ∧
    (u = (s.modRec false e.id (fun _ => s.movedRec e close r)).recGrown false e.id ∨
      u = (s.modRec false e.id (fun _ => s.movedRec e close r)).reserve false e.id) := by
  simp only [State.recUpdate, h, if_neg (TrkRec.not_stale_of_early hgen he)]
  refine ⟨_, rfl, ?_⟩
  split
  · exact .inl rfl
  · exact .inr rfl

/-- CONT and CLOSE move the extent of a record that has not committed (R357). -/
theorem State.recUpdate_moves (close : Bool) {t : State} (ht : s.recUpdate e close = t) :
    t.trk.entries = s.trk.entries ∧ ∃ u, t.partRec false e.id = some u ∧ s.Moves e close r u := by
  have hmoves := s.movedRec_moves e close r
  obtain ⟨hspan, hid⟩ := State.partRec_name h
  obtain ⟨u, heq, hu⟩ := State.recUpdate_eq h hgen he close
  have hmod := State.partRec_modRec h (fun _ => s.movedRec e close r) fun _ _ _ => (s.movedRec_name e close r).imp (·.trans hspan) (·.trans hid)
  have hentries : (s.modRec false e.id (fun _ => s.movedRec e close r)).trk.entries = s.trk.entries := rfl
  generalize s.modRec false e.id (fun _ => s.movedRec e close r) = w at hmod hu hentries
  have hsettles : w.Settles u := by
    obtain rfl | rfl := hu
    · exact State.settles_recGrown hmod (hmoves.early he)
    · exact State.settles_reserve _ _ _
  obtain ⟨x, hx, hbody⟩ := State.partRec_of_bodies hsettles.bodies hmod
  have hmoved := hmoves.of_body hbody
  rw [heq, State.recCheck_early hx (hmoved.early he)] at ht
  subst ht
  exact ⟨by rw [hsettles.trk, ← hentries], x, hx, hmoved⟩

end

/-! ## A record that is merged into another (R358) -/

/-- A record widened by one that is merged into it (R358). -/
def TrkRec.widened (a v : TrkRec) : TrkRec :=
  { v with
    first := min v.first a.first, last := max v.last a.last, colFirst := min v.colFirst a.colFirst, colLast := max v.colLast a.colLast,
    reasons := v.reasons ||| a.reasons, pixels := (v.pixels + a.pixels) % 2 ^ 32 }

/-- A record marked as merged, without its verdict (R358). -/
def TrkRec.merged (r : TrkRec) : TrkRec := { r.flag flMerged with held := 0 }

section
variable {s : State} {e : PartEntry} {a v : TrkRec} (ha : s.partRec false e.id = some a) (hgen : e.gen = a.gen) (hae : a.early = true)
  (hv : s.partRec false e.into = some v) (hve : v.early = true)
include ha hgen hae hv hve

theorem State.recMerge_eq : ∃ u, s.recMerge e = (u.modRec false e.id TrkRec.merged).recDone false e.id ∧
    (u = (s.modRec false e.into a.widened).recGrown false e.into ∨ u = (s.modRec false e.into a.widened).reserve false e.into) := by
  have hvstate := v.early_iff.mp hve
  have hlive : ¬ (v.state == 7) = true := by
    rw [beq_iff_eq]
    omega
  simp only [State.recMerge, ha, if_neg (TrkRec.not_stale_of_early hgen hae), hv, if_neg hlive, hae, if_true]
  refine ⟨_, rfl, ?_⟩
  split
  · exact .inl rfl
  · exact .inr rfl

/-- MERGED ends a record that has not committed and widens the one that it becomes part of (R358). -/
theorem State.recMerge_merges (hne : e.into ≠ e.id) {t : State} (ht : s.recMerge e = t) :
    (∃ u, t.partRec false e.id = some u ∧ u.state = 7 ∧ u.has flMerged = true ∧ u.resv = 0) ∧
    ∃ u, t.partRec false e.into = some u ∧ u.first = min v.first a.first ∧ u.last = max v.last a.last ∧
      u.pixels = (v.pixels + a.pixels) % 2 ^ 32 ∧ u.state = v.state := by
  obtain ⟨u, heq, hu⟩ := State.recMerge_eq ha hgen hae hv hve
  have hwide := State.partRec_modRec hv a.widened
  have hother := (State.partRec_modRec_other (s := s) hne.symm a.widened).trans ha
  generalize s.modRec false e.into a.widened = w at hwide hother hu
  have hsettles : w.Settles u := by
    obtain rfl | rfl := hu
    · exact State.settles_recGrown hwide hve
    · exact State.settles_reserve _ _ _
  obtain ⟨x, hx, -⟩ := State.partRec_of_bodies hsettles.bodies hother
  obtain ⟨y, hy, hbody⟩ := State.partRec_of_bodies hsettles.bodies hwide
  have hmerged := State.partRec_modRec hx TrkRec.merged
  have hrecs := congrArg TrkState.recs (heq.symm.trans ht ▸ State.recDone_regular hmerged)
  refine ⟨⟨x.merged.done, ?_, rfl, ?_, rfl⟩, y, ?_, (congrArg TrkRec.first hbody :), (congrArg TrkRec.last hbody :),
    (congrArg TrkRec.pixels hbody :), (congrArg TrkRec.state hbody :)⟩
  · exact (State.partRec_congr hrecs _ _).trans (State.partRec_modRec hmerged TrkRec.done)
  · exact (x.has_flag flMerged true flMerged).trans (if_pos rfl)
  · rw [State.partRec_congr hrecs, State.partRec_modRec_other hne TrkRec.done, State.partRec_modRec_other hne TrkRec.merged, hy]

end

/-! ## Overflow spans (R362) -/

/-- The open span of a context that an interval may widen (R362). -/
def State.openSpan (s : State) (ctx : Nat) : Option TrkRec := ((s.trk.recs.filter (fun x => x.span && x.ctx == ctx)).filter TrkRec.early).getLast?

/-- A span over a longer interval. -/
def TrkRec.spanned (first last : Int) (r : TrkRec) : TrkRec := { r with first := min r.first first, last := max r.last last }

theorem State.early_of_openSpan {s : State} {ctx : Nat} {r : TrkRec} (h : s.openSpan ctx = some r) : r.early = true :=
  (List.mem_filter.mp (List.mem_of_getLast? h)).2

theorem State.spanTake_widens {s : State} {ctx : Nat} {r : TrkRec} (h : s.openSpan ctx = some r) (hr : s.partRec true r.id = some r)
    {first : Int} (hgap : first ≤ s.recEnd r + s.get .TRK_CFG_span_gap) (last : Int) {t : State} (ht : s.spanTake ctx first last = t) :
    t.trk.entries = s.trk.entries ∧ ∃ u, t.partRec true r.id = some u ∧ u.first = min r.first first ∧ u.last = max r.last last := by
  have hmod := State.partRec_modRec hr (TrkRec.spanned first last)
  have heq : s.spanTake ctx first last = (s.modRec true r.id (TrkRec.spanned first last)).recGrown true r.id := by
    rw [State.openSpan] at h
    simp only [State.spanTake, h, if_pos hgap]
    rfl
  have hsettles := State.settles_recGrown hmod (State.early_of_openSpan h : r.early = true)
  rw [← heq, ht] at hsettles
  obtain ⟨u, hu, hbody⟩ := State.partRec_of_bodies hsettles.bodies hmod
  refine ⟨?_, u, hu, (congrArg TrkRec.first hbody :), (congrArg TrkRec.last hbody :)⟩
  rw [hsettles.trk]
  rfl

theorem State.spanTake_opens {s : State} {ctx : Nat} (h : s.trk.recs.filter (fun x => x.span && x.ctx == ctx) = []) (first last : Int) :
    s.spanTake ctx first last = s.spanOpen ctx first last := by
  simp only [State.spanTake, h, List.filter_nil, List.getLast?_nil]

/-- The lowest identifier of a FREE span record (R354, R362). -/
def State.freeSpan (s : State) : Option Nat := (List.range 64).find? (fun x => (s.partRec true x).isNone)

theorem State.spanOpen_lost {s : State} (h : s.freeSpan = none) (ctx : Nat) (first last : Int) {t : State} (ht : s.spanOpen ctx first last = t) :
    t.event ⟨.trk, 0⟩ 1 = true ∧ t.get .TRK_CNT_SPAN_LOST = satAdd Fld.TRK_CNT_SPAN_LOST.width (s.get .TRK_CNT_SPAN_LOST) 1 ∧
    t.trk = s.trk := by
  rw [State.freeSpan] at h
  simp only [State.spanOpen, h] at ht
  subst ht
  refine ⟨State.raise_event _ _ _ (by decide), ?_, State.raise_trk _ _ _ _⟩
  rw [State.get_raise _ _ _ _ _ rfl, State.get_count_self]

/-- A new span, counted and raised (R362). -/
def State.noteSpan (s : State) (r : TrkRec) : State := ((s.addRec r).count .TRK_CNT_SPAN 0 0 1).raise ⟨.trk, 0⟩ 0

theorem State.noteSpan_shows (s : State) (r : TrkRec) : (s.noteSpan r).trk = (s.addRec r).trk ∧ (s.noteSpan r).event ⟨.trk, 0⟩ 0 = true ∧
    (s.noteSpan r).get .TRK_CNT_SPAN = satAdd Fld.TRK_CNT_SPAN.width (s.get .TRK_CNT_SPAN) 1 := by
  refine ⟨State.raise_trk _ _ _ _, State.raise_event _ _ _ (by decide), ?_⟩
  rw [State.noteSpan, State.get_raise _ _ _ _ _ rfl, State.get_count_self]
  rfl

section
variable {s : State} {n : Nat} (h : s.freeSpan = some n) (ctx : Nat) (first last : Int)
include h

theorem State.spanOpen_eq : ∃ r m, r.span = true ∧ r.id = n ∧
    (r.state = 1 ∧ r.ctx = ctx ∧ r.first = first ∧ r.last = last ∧ r.cls = s.get .TRK_CFG_default_class) ∧
    s.spanOpen ctx first last = (s.noteSpan r).setReasons true n m := by
  rw [State.freeSpan] at h
  simp only [State.spanOpen, h]
  refine ⟨_, _, ?_, ?_, ?_, rfl⟩
  · rfl
  · rfl
  · exact ⟨rfl, rfl, rfl, rfl, rfl⟩

theorem State.spanOpen_opens {t : State} (ht : s.spanOpen ctx first last = t) : t.event ⟨.trk, 0⟩ 0 = true ∧
    t.get .TRK_CNT_SPAN = satAdd Fld.TRK_CNT_SPAN.width (s.get .TRK_CNT_SPAN) 1 ∧ ∃ u, t.partRec true n = some u ∧ u.state = 1 ∧ u.ctx = ctx ∧
      u.first = first ∧ u.last = last ∧ u.cls = s.get .TRK_CFG_default_class := by
  obtain ⟨r, m, hspan, hid, ⟨hstate, hctx, hfirst, hlast, hcls⟩, heq⟩ := State.spanOpen_eq h ctx first last
  obtain ⟨htrk, hevent, hcount⟩ := s.noteSpan_shows r
  have hfree : s.partRec true n = none := Option.isNone_iff_eq_none.mp (List.find?_some (p := fun x => (s.partRec true x).isNone) h)
  have hadded : (s.noteSpan r).partRec true n = some r :=
    (State.partRec_congr (congrArg TrkState.recs htrk) _ _).trans (State.partRec_addRec hfree hspan hid)
  have hsettles : (s.noteSpan r).Settles t := ht ▸ heq ▸ State.settles_setReasons _ true n m
  obtain ⟨u, hu, hbody⟩ := State.partRec_of_bodies hsettles.bodies hadded
  exact ⟨(hsettles.event _ _).trans hevent, (hsettles.regs _ _ _ rfl).trans hcount, u, hu, (congrArg TrkRec.state hbody).trans hstate,
    (congrArg TrkRec.ctx hbody).trans hctx, (congrArg TrkRec.first hbody).trans hfirst, (congrArg TrkRec.last hbody).trans hlast,
    (congrArg TrkRec.cls hbody).trans hcls⟩

end

end Sys2Proof.Machine

section
open Sys2Proof Sys2Proof.Machine

/-- Settles O48: each kind of entry makes or changes the record that it names, which reservations, reasons and the check that follow leave
but for these. -/
theorem recordsFollowTheirParts : Obligations.RecordsFollowTheirParts := by
  intro s e rest ha hs
  refine ⟨fun c k st hc => ⟨fun hk => ?_, fun hovf hk hfree => ⟨fun hgen => ?_, fun hgen => ?_⟩⟩,
    fun c k close hc => ⟨fun hk => ?_, fun hovf hk r hr hgen he => ?_, fun hovf hk hstale => ?_⟩, fun hk => ?_,
    fun hovf hk a v hrec hgen hae hne hv hve => ?_, fun hovf hk => ?_,
    fun hspan => ⟨fun r hopen hr hgap => ?_, fun hnone => ⟨fun n hn => ?_, fun hn => ?_⟩⟩⟩
  · rw [exec_partOpens_awake ha hc, State.takeEntry_other hs hk]
  · refine answers_of_next ((exec_partOpens_awake ha hc).trans (congrArg _ (State.takeEntry_kind hs hovf hk _))) ?_
    exact State.recOpen_opens (s := s.withEntries rest) hfree hgen st rfl
  · refine answers_of_next ((exec_partOpens_awake ha hc).trans (congrArg _ (State.takeEntry_kind hs hovf hk _))) ?_
    rw [State.recOpen_stale (s := s.withEntries rest) hfree hgen]
    exact (s.withEntries rest).staleEntry_shows rfl
  · rw [exec_partUpdates_awake ha hc, State.takeEntry_other hs hk]
  · refine answers_of_next ((exec_partUpdates_awake ha hc).trans (congrArg _ (State.takeEntry_kind hs hovf hk _))) ?_
    exact State.recUpdate_moves (s := s.withEntries rest) hr hgen he close rfl
  · refine answers_of_next ((exec_partUpdates_awake ha hc).trans (congrArg _ (State.takeEntry_kind hs hovf hk _))) ?_
    rw [State.recUpdate_stale (s := s.withEntries rest) hstale]
    exact (s.withEntries rest).staleEntry_shows rfl
  · rw [exec_partMerged_awake ha, State.takeEntry_other hs hk]
  · refine answers_of_next ((exec_partMerged_awake ha).trans (congrArg _ (State.takeEntry_kind hs hovf hk _))) ?_
    exact State.recMerge_merges (s := s.withEntries rest) hrec hgen hae hv hve hne rfl
  · rw [exec_partSpan_awake ha, State.takeSpan_other hs hovf hk]
  all_goals refine answers_of_next ((exec_partSpan_awake ha).trans (congrArg _ (State.takeSpan_span hs hspan))) ?_
  · exact State.spanTake_widens (s := s.withEntries rest) hopen hr hgap e.last rfl
  · rw [State.spanTake_opens (s := s.withEntries rest) hnone]
    exact State.spanOpen_opens (s := s.withEntries rest) hn e.ctx e.first e.last rfl
  · rw [State.spanTake_opens (s := s.withEntries rest) hnone]
    exact State.spanOpen_lost (s := s.withEntries rest) hn e.ctx e.first e.last rfl
end

/-!
PROOFS. FIO (R392 to R400): what a sample of one input or output moves, and that the samples of the others leave it; the levels that drive the
outputs, the watchdog and the release.
-/
namespace Sys2Proof.Machine

/-! ## What a sample moves on the page of FIO -/

/-- The registers of FIO with an element for each input, or for each output, that a sample can move. -/
def sampleElems : List Fld :=
  [.FIO_IN_STAT_state, .FIO_IN_STAT_band, .FIO_IN_STAT_q, .FIO_IN_STAT_b, .FIO_IN_SEQ, .FIO_IN_EDGE_rising, .FIOX_MISMATCH]

/-- The registers of FIO with a bit for each input, or for each output, that a sample can move. -/
def sampleMasks : List Fld := [.FIO_IN_LEVEL, .FIO_IN_BROKEN, .FIO_RETIRED, .FIO_RB_ERR]

/-- Between two states only the registers of a list and the event registers moved on the page of FIO, the listed ones neither in the
elements nor in the bits that `keep` names, and no recorded event was taken back. -/
structure State.Samples (l : List Fld) (keep : Nat → Prop) (s t : State) : Prop where
  leaves : ∀ (f : Fld) (k : Nat), f.kind = .fio → (evtFlds .fio).all (fun g => f.diff g) = true → l.all (fun g => f.diff g) = true →
    t.get f 0 k = s.get f 0 k
  elems : ∀ f ∈ sampleElems, ∀ k, keep k → t.get f 0 k = s.get f 0 k
  masks : ∀ m ∈ sampleMasks, ∀ k, k < m.width → keep k → bit (t.get m) k = bit (s.get m) k
  events : ∀ n, n < 32 → s.event fioPage n = true → t.event fioPage n = true

section
variable {l l' : List Fld} {keep keep' : Nat → Prop} {s t u : State}

theorem State.Samples.of_same (h : ∀ (f : Fld) (k : Nat), f.kind = .fio → t.get f 0 k = s.get f 0 k) : State.Samples l keep s t where
  leaves f k hf _ _ := h f k hf
  elems f hf k _ := h f k (by
    have hkind : sampleElems.all (fun f => f.kind == .fio) = true := rfl
    exact beq_iff_eq.mp (List.all_eq_true.mp hkind f hf))
  masks m hm k _ _ := by
    have hkind : sampleMasks.all (fun m => m.kind == .fio) = true := rfl
    rw [h m 0 (beq_iff_eq.mp (List.all_eq_true.mp hkind m hm))]
  events n _ hs := (State.event_congr (h (.EVT_STATUS .fio) 0 rfl)).trans hs

theorem State.Samples.refl (s : State) : State.Samples l keep s s := .of_same fun _ _ _ => rfl

theorem State.Samples.trans (h : State.Samples l keep s t) (k : State.Samples l keep t u) : State.Samples l keep s u where
  leaves f n hf he hl := (k.leaves f n hf he hl).trans (h.leaves f n hf he hl)
  elems f hf n hn := (k.elems f hf n hn).trans (h.elems f hf n hn)
  masks m hm n hw hn := (k.masks m hm n hw hn).trans (h.masks m hm n hw hn)
  events n hn hs := k.events n hn (h.events n hn hs)

theorem State.Samples.mono (h : State.Samples l keep s t) (hl : l ⊆ l') : State.Samples l' keep s t where
  leaves f n hf he ha := h.leaves f n hf he (List.all_eq_true.mpr fun g hg => List.all_eq_true.mp ha g (hl hg))
  elems := h.elems
  masks := h.masks
  events := h.events

theorem State.Samples.narrow (h : State.Samples l keep s t) (hk : ∀ n, keep' n → keep n) : State.Samples l keep' s t where
  leaves := h.leaves
  elems f hf n hn := h.elems f hf n (hk n hn)
  masks m hm n hw hn := h.masks m hm n hw (hk n hn)
  events := h.events

/-- The registers of a list that lie apart from what moved. -/
theorem State.Samples.leavesAll (h : State.Samples l keep s t) {r : List Fld}
    (hr : r.all (fun f => f.kind == .fio && (evtFlds .fio).all (fun g => f.diff g) && l.all (fun g => f.diff g)) = true) :
    ∀ f ∈ r, ∀ k, t.get f 0 k = s.get f 0 k := fun f hf k => by
  have hapart := List.all_eq_true.mp hr f hf
  rw [Bool.and_eq_true, Bool.and_eq_true, beq_iff_eq] at hapart
  obtain ⟨⟨hkind, hevt⟩, hlist⟩ := hapart
  exact h.leaves f k hkind hevt hlist

theorem State.Samples.ite {c : Prop} [Decidable c] (ht : State.Samples l keep s t) (hu : State.Samples l keep s u) :
    State.Samples l keep s (if c then t else u) := by
  split <;> assumption

/-- A write of one element. -/
theorem State.Samples.set {g : Fld} {j : Nat} (h : State.Samples l keep s t) (hg : g ∈ l)
    (hm : (sampleMasks.all (fun m => m.diff g) && (Fld.EVT_STATUS .fio).diff g) = true)
    (hj : (∀ k, keep k → k ≠ j) ∨ sampleElems.all (fun f => f.diff g) = true) (v : Nat) : State.Samples l keep s (t.set g 0 j v) := by
  rw [Bool.and_eq_true] at hm
  refine h.trans ⟨fun f k _ _ hl => State.get_set_other _ (List.all_eq_true.mp hl g hg) _ _ _ _ _, fun f hf k hk => ?_, fun m hmask k _ _ => ?_,
    fun n _ ht => (State.event_set t (p := fioPage) hm.2 _ _ _ n).trans ht⟩
  · obtain hj | hj := hj
    · exact State.get_set_elem _ _ _ _ _ (hj k hk) _
    · exact State.get_set_other _ (List.all_eq_true.mp hj f hf) _ _ _ _ _
  · rw [State.get_set_other _ (List.all_eq_true.mp hm.1 m hmask)]

/-- A write of one bit of a mask. -/
theorem State.Samples.setBit {g : Fld} {j v : Nat} (h : State.Samples l keep s t) (hg : g ∈ l)
    (hm : (sampleMasks.all (fun m => m == g || m.diff g) && sampleElems.all (fun f => f.diff g) && (Fld.EVT_STATUS .fio).diff g) = true)
    (hj : ∀ k, keep k → k ≠ j) (b : Bool) (hv : v = putBit (t.get g) j b) : State.Samples l keep s (t.set g 0 0 v) := by
  rw [Bool.and_eq_true, Bool.and_eq_true] at hm
  obtain ⟨⟨hmask, helem⟩, hevent⟩ := hm
  refine h.trans ⟨fun f k _ _ hl => State.get_set_other _ (List.all_eq_true.mp hl g hg) _ _ _ _ _,
    fun f hf k _ => State.get_set_other _ (List.all_eq_true.mp helem f hf) _ _ _ _ _, fun m hmem k hk hkeep => ?_,
    fun n _ ht => (State.event_set t (p := fioPage) hevent _ _ _ n).trans ht⟩
  obtain hm | hm := Bool.or_eq_true_iff.mp (List.all_eq_true.mp hmask m hmem)
  · obtain rfl := beq_iff_eq.mp hm
    rw [State.get_set_self, bit_mod hk, hv, bit_putBit, if_neg (hj k hkeep)]
  · rw [State.get_set_other _ hm]

theorem State.get_raiseMask (s : State) (p : PageId) (mask d : Nat) (b : Bool) {f : Fld} (h : (evtFlds p.kind).all (fun g => f.diff g) = true)
    (i j : Nat) : (s.raiseMask p mask d b).get f i j = s.get f i j :=
  (State.only_raiseMask s p mask d b).cells f i j (untouched_of_evtFlds h i j)

theorem State.Samples.raiseMask (h : State.Samples l keep s t) (mask d : Nat) (b : Bool) :
    State.Samples l keep s (t.raiseMask fioPage mask d b) := by
  have helem : sampleElems.all (fun f => (evtFlds .fio).all (fun g => f.diff g)) = true := rfl
  have hmask : sampleMasks.all (fun f => (evtFlds .fio).all (fun g => f.diff g)) = true := rfl
  refine h.trans ⟨fun f k _ he _ => State.get_raiseMask _ _ _ _ _ he _ _,
    fun f hf k _ => State.get_raiseMask _ _ _ _ _ (List.all_eq_true.mp helem f hf) _ _, fun m hm k _ _ => ?_, fun n hn ht => ?_⟩
  · rw [State.get_raiseMask _ fioPage _ _ _ (List.all_eq_true.mp hmask m hm)]
  · rw [State.raiseMask_event _ _ _ _ _ hn, ht, Bool.true_or]

theorem State.samples_forEach {α : Type} {g : State → α → State} {r : List α} (hg : ∀ t, ∀ x ∈ r, State.Samples l keep t (g t x))
    (s : State) : State.Samples l keep s (s.forEach r g) := by
  unfold State.forEach
  induction r generalizing s with
  | nil => exact .refl s
  | cons x r ih => exact (hg s x List.mem_cons_self).trans (ih (fun t y hy => hg t y (List.mem_cons_of_mem x hy)) _)

/-- Among samples that each move an element of their own, each element is moved once, from what it was and to what it stays. -/
theorem State.samples_own {g : State → Nat → State} (hg : ∀ t x, State.Samples l (· ≠ x) t (g t x)) {r : List Nat} (hr : r.Nodup) {i : Nat}
    (hi : i ∈ r) (s : State) : ∃ u : State, State.Samples l (· = i) s u ∧ State.Samples l (· = i) (g u i) (s.forEach r g) := by
  have hother : ∀ t x, x ≠ i → State.Samples l (· = i) t (g t x) := fun t x hx =>
    (hg t x).narrow fun _ hn => hn ▸ hx.symm
  induction r generalizing s with
  | nil => cases hi
  | cons x r ih =>
    obtain ⟨hx, hr⟩ := List.nodup_cons.mp hr
    obtain rfl | hi := List.mem_cons.mp hi
    · exact ⟨s, .refl s, State.samples_forEach (fun t y hy => hother t y (ne_of_mem_of_not_mem hy hx)) _⟩
    · obtain ⟨u, hu, hrest⟩ := ih hr hi (g s x)
      exact ⟨u, (hother s x (ne_of_mem_of_not_mem hi hx).symm).trans hu, hrest⟩

end

theorem State.samples_timCapture (l : List Fld) (keep : Nat → Prop) (s : State) (src sel : Nat) (rising : Bool) (sec ns : Nat) (pos : Int) :
    State.Samples l keep s (s.timCapture src sel rising sec ns pos) :=
  .of_same fun _ k hf => get_of_held (State.timCapture_stays (held_self s) (avoid_of_kind hf rfl rfl) _ _ _ _ _ _) 0 k

theorem State.samples_channelRetired (l : List Fld) (keep : Nat → Prop) (s : State) (t i : Nat) :
    State.Samples l keep s (s.channelRetired t i) :=
  .of_same fun _ k hf => get_of_held (State.channelRetired_stays (held_self s) (avoid_of_kind hf rfl rfl) _ _) 0 k

/-! ## An edge of an input (R394) -/

/-- The registers that show an input's filtered state. -/
def levelFlds : List Fld := [.FIO_IN_STAT_state, .FIO_IN_LEVEL]

theorem State.setLevel_samples (s : State) (i : Nat) (on : Bool) : State.Samples levelFlds (· ≠ i) s (s.setLevel i on) := by
  refine ((State.Samples.refl s).set (j := i) (by simp [levelFlds]) rfl (.inl fun _ h => h) _).setBit (j := i) (by simp [levelFlds]) rfl
    (fun _ h => h) on ?_
  rw [State.get_set_other _ rfl]

theorem isOn_set_b2n (s : State) {f : Fld} (hf : f.width = 1) (i j : Nat) (b : Bool) : (s.set f i j (b2n b)).isOn f i j = b := by
  rw [State.isOn, State.get_set_self, hf]
  cases b <;> rfl

theorem State.setLevel_shows (s : State) {i : Nat} (hi : i < 32) (on : Bool) :
    (s.setLevel i on).isOn .FIO_IN_STAT_state 0 i = on ∧ bit ((s.setLevel i on).get .FIO_IN_LEVEL) i = on := by
  refine ⟨?_, ?_⟩
  · rw [State.isOn, State.setLevel, State.get_set_other _ rfl]
    exact isOn_set_b2n s rfl 0 i on
  · rw [State.setLevel, State.get_set_self]
    exact (bit_mod hi).trans ((bit_putBit _ _ _ _).trans (if_pos rfl))

/-- The registers of an edge's record. -/
def recordFlds : List Fld := [.FIO_IN_DECIDE, .FIO_IN_START, .FIO_IN_EDGE_rising, .FIO_IN_SEQ, .FIO_CNT_EDGE]

/-- The registers that an edge writes. -/
def edgeFlds : List Fld := .FIO_EDGE_PEND :: (levelFlds ++ recordFlds)

/-- An edge in the record of its input. -/
def State.edgeNoted (s : State) (i : Nat) (rising : Bool) : State :=
  (((((s.setLevel i rising).set .FIO_IN_DECIDE 0 i s.t64).set .FIO_IN_START 0 i (s.get .FIOX_RUN 0 i)).set .FIO_IN_EDGE_rising 0 i
    (b2n rising)).countWrap .FIO_IN_SEQ 0 i 1).count .FIO_CNT_EDGE 0 0 1

/-- The enable of the event of an edge. -/
def edgeIrq (rising : Bool) : Fld := if rising then .FIO_IN_CFG_irq_rise else .FIO_IN_CFG_irq_fall

/-- EDGE_OVERRUN, where the edge before still waits. -/
def State.edgeExtra (s : State) (i : Nat) : Nat := if bit (s.get .FIO_EDGE_PEND) i then 2 else 0

/-- The events of an edge. -/
def State.edgeRaised (s : State) (i : Nat) (rising : Bool) : State :=
  if s.isOn (edgeIrq rising) 0 i then
    (s.set .FIO_EDGE_PEND 0 0 (putBit (s.get .FIO_EDGE_PEND) i true)).raiseMask fioPage (1 + s.edgeExtra i) 0 false
  else if s.edgeExtra i = 0 then s
  else s.raiseMask fioPage (s.edgeExtra i) 0 false

theorem State.fioEdge_eq (s : State) (i : Nat) (rising : Bool) : s.fioEdge i rising =
    let u := (s.edgeNoted i rising).edgeRaised i rising
    u.timCapture 2 i rising u.sec u.ns u.beltPos := rfl

theorem State.edgeNoted_record (s : State) (i : Nat) (rising : Bool) :
    State.Samples recordFlds (· ≠ i) (s.setLevel i rising) (s.edgeNoted i rising) := by
  have hother : ∀ n, n ≠ i → n ≠ i := fun _ h => h
  exact (((((State.Samples.refl (s.setLevel i rising)).set (by decide) rfl (.inl hother) _).set (by decide) rfl (.inl hother) _).set (by decide) rfl
    (.inl hother) _).set (g := .FIO_IN_SEQ) (by decide) rfl (.inl hother) _).set (g := .FIO_CNT_EDGE) (by decide) rfl (.inr rfl) _

theorem State.edgeRaised_samples (s : State) (i : Nat) (rising : Bool) (keep : Nat → Prop) :
    State.Samples [.FIO_EDGE_PEND] keep s (s.edgeRaised i rising) := by
  have hself := State.Samples.refl (l := [.FIO_EDGE_PEND]) (keep := keep) s
  exact ((hself.set (by decide) rfl (.inr rfl) _).raiseMask ..).ite (hself.ite (hself.raiseMask ..))

theorem State.fioEdge_noted (s : State) (i : Nat) (rising : Bool) (keep : Nat → Prop) :
    State.Samples [.FIO_EDGE_PEND] keep (s.edgeNoted i rising) (s.fioEdge i rising) :=
  (State.edgeRaised_samples _ i rising keep).trans (State.samples_timCapture _ _ _ _ _ _ _ _ _)

theorem State.fioEdge_samples (s : State) (i : Nat) (rising : Bool) : State.Samples edgeFlds (· ≠ i) s (s.fioEdge i rising) :=
  (((s.setLevel_samples i rising).mono (by decide)).trans ((s.edgeNoted_record i rising).mono (by decide))).trans
    ((s.fioEdge_noted i rising _).mono (by decide))

/-- An edge of an input as its registers show it: the filtered state, its place in FIO_IN_LEVEL, the record and the sequence number, and the
event of a rising edge that asks for one. -/
structure State.EdgeShown (i : Nat) (rising : Bool) (s t : State) : Prop where
  state : t.isOn .FIO_IN_STAT_state 0 i = rising
  level : bit (t.get .FIO_IN_LEVEL) i = rising
  record : t.isOn .FIO_IN_EDGE_rising 0 i = rising
  seq : t.get .FIO_IN_SEQ 0 i = (s.get .FIO_IN_SEQ 0 i + 1) % 2 ^ Fld.FIO_IN_SEQ.width
  event : s.isOn (edgeIrq rising) 0 i = true → t.event fioPage 0 = true

theorem State.isOn_of_get {s t : State} {f : Fld} {j : Nat} (h : t.get f 0 j = s.get f 0 j) : t.isOn f 0 j = s.isOn f 0 j := by
  rw [State.isOn, State.isOn, h]

theorem State.Samples.edgeIrq {l : List Fld} {keep : Nat → Prop} {s t : State} (h : State.Samples l keep s t)
    (hl : [Fld.FIO_IN_CFG_irq_rise, .FIO_IN_CFG_irq_fall].all (fun f => l.all (fun g => f.diff g)) = true) (i : Nat) (rising : Bool) :
    t.isOn (edgeIrq rising) 0 i = s.isOn (edgeIrq rising) 0 i := by
  have hkept : ∀ f ∈ [Fld.FIO_IN_CFG_irq_rise, .FIO_IN_CFG_irq_fall], f.kind = .fio → (evtFlds .fio).all (fun g => f.diff g) = true →
      t.isOn f 0 i = s.isOn f 0 i := fun f hf hkind hevt => State.isOn_of_get (h.leaves f i hkind hevt (List.all_eq_true.mp hl f hf))
  cases rising with
  | true => exact hkept .FIO_IN_CFG_irq_rise (by decide) rfl rfl
  | false => exact hkept .FIO_IN_CFG_irq_fall (by decide) rfl rfl

theorem State.edgeRaised_event {s : State} {i : Nat} {rising : Bool} (h : s.isOn (edgeIrq rising) 0 i = true) :
    (s.edgeRaised i rising).event fioPage 0 = true := by
  rw [State.edgeRaised, if_pos h, State.raiseMask_event _ _ _ _ _ (by decide)]
  have hbit : bit (1 + s.edgeExtra i) 0 = true := by
    unfold State.edgeExtra
    split <;> rfl
  rw [hbit, Bool.or_true]

theorem State.fioEdge_shown (s : State) {i : Nat} (hi : i < 32) (rising : Bool) : State.EdgeShown i rising s (s.fioEdge i rising) := by
  obtain ⟨hstate, hlevel⟩ := s.setLevel_shows hi rising
  have hrecord := s.edgeNoted_record i rising
  have hnoted := s.fioEdge_noted i rising (· ≠ i)
  refine ⟨?_, ?_, ?_, ?_, fun h => ?_⟩
  · rw [State.isOn_of_get (hnoted.leaves _ i rfl rfl rfl), State.isOn_of_get (hrecord.leaves _ i rfl rfl rfl)]
    exact hstate
  · rw [hnoted.leaves _ 0 rfl rfl rfl, hrecord.leaves _ 0 rfl rfl rfl]
    exact hlevel
  · rw [State.isOn_of_get (hnoted.leaves _ i rfl rfl rfl), State.isOn, State.edgeNoted, State.get_count_other _ rfl, State.countWrap,
      State.get_set_other _ rfl]
    exact isOn_set_b2n _ rfl 0 i rising
  · rw [hnoted.leaves _ i rfl rfl rfl, State.edgeNoted, State.get_count_other _ rfl, State.countWrap, State.get_set_self, State.get_set_other _ rfl,
      State.get_set_other _ rfl, State.get_set_other _ rfl, (s.setLevel_samples i rising).leaves _ i rfl rfl rfl]
  · have hirq : (s.edgeNoted i rising).isOn (edgeIrq rising) 0 i = s.isOn (edgeIrq rising) 0 i :=
      (hrecord.edgeIrq rfl i rising).trans ((s.setLevel_samples i rising).edgeIrq rfl i rising)
    exact (State.samples_timCapture [] (fun _ => True) _ _ _ _ _ _ _).events 0 (by decide) (State.edgeRaised_event (hirq.trans h))

/-! ## The state counter of an input (R393) -/

/-- The state counter of an input after a sample, ON or not. -/
def State.stateCount (s : State) (i : Nat) (on : Bool) : Nat :=
  if on then min (s.get .FIO_IN_CFG_n 0 i) (s.get .FIO_IN_STAT_q 0 i + 1) else min (s.get .FIO_IN_CFG_n 0 i) (s.get .FIO_IN_STAT_q 0 i - 1)

/-- The end of the range to which a sample moves the state counter. -/
def State.stateEnd (s : State) (i : Nat) (on : Bool) : Nat := if on then s.get .FIO_IN_CFG_n 0 i else 0

/-- A sample in an input's state counter and in the begin of its run, before the filtered state is looked at. -/
def State.counted (s : State) (i : Nat) (on : Bool) : State :=
  (if (on && s.get .FIO_IN_STAT_q 0 i == 0) || (!on && s.get .FIO_IN_CFG_n 0 i ≤ s.get .FIO_IN_STAT_q 0 i) then s.set .FIOX_RUN 0 i s.t64
    else s).set .FIO_IN_STAT_q 0 i (s.stateCount i on)

/-- The registers that a sample's count writes. -/
def countFlds : List Fld := [.FIOX_RUN, .FIO_IN_STAT_q]

theorem State.counted_samples (s : State) (i : Nat) (on : Bool) : State.Samples countFlds (· ≠ i) s (s.counted i on) := by
  have hother : ∀ n, n ≠ i → n ≠ i := fun _ h => h
  have hself := State.Samples.refl (l := countFlds) (keep := (· ≠ i)) s
  exact ((hself.set (by decide) rfl (.inl hother) _).ite hself).set (by decide) rfl (.inl hother) _

theorem State.fioCount_eq (s : State) (i : Nat) (on : Bool) : s.fioCount i on =
    if bit ((s.counted i on).get .FIO_RETIRED) i then s.counted i on
    else if on && s.stateCount i on == s.get .FIO_IN_CFG_n 0 i && !(s.counted i on).isOn .FIO_IN_STAT_state 0 i then (s.counted i on).fioEdge i true
    else if !on && s.stateCount i on == 0 && (s.counted i on).isOn .FIO_IN_STAT_state 0 i then (s.counted i on).fioEdge i false
    else s.counted i on := rfl

/-- After its count a sample moves no more than an edge does. -/
theorem State.fioCount_counted (s : State) (i : Nat) (on : Bool) : State.Samples edgeFlds (· ≠ i) (s.counted i on) (s.fioCount i on) := by
  rw [State.fioCount_eq]
  exact (State.Samples.refl _).ite ((State.fioEdge_samples _ i true).ite ((State.fioEdge_samples _ i false).ite (State.Samples.refl _)))

theorem State.fioCount_samples (s : State) (i : Nat) (on : Bool) : State.Samples (countFlds ++ edgeFlds) (· ≠ i) s (s.fioCount i on) :=
  ((s.counted_samples i on).mono (by decide)).trans ((s.fioCount_counted i on).mono (by decide))

theorem State.fioCount_q (s : State) (i : Nat) (on : Bool) :
    (s.fioCount i on).get .FIO_IN_STAT_q 0 i = s.stateCount i on % 2 ^ Fld.FIO_IN_STAT_q.width := by
  rw [(s.fioCount_counted i on).leaves _ i rfl rfl rfl, State.counted, State.get_set_self]

/-- The sample that brings the counter to the end of its range changes the filtered state of an input that is not retired (R393, R395). -/
theorem State.fioCount_edge {s : State} {i : Nat} {on : Bool} (hend : s.stateCount i on = s.stateEnd i on)
    (hstate : s.isOn .FIO_IN_STAT_state 0 i = !on) (hret : bit (s.get .FIO_RETIRED) i = false) :
    s.fioCount i on = (s.counted i on).fioEdge i on := by
  have hstate' : (s.counted i on).isOn .FIO_IN_STAT_state 0 i = !on :=
    (State.isOn_of_get ((s.counted_samples i on).leaves _ i rfl rfl rfl)).trans hstate
  rw [State.fioCount_eq, (s.counted_samples i on).leaves .FIO_RETIRED 0 rfl rfl rfl, hret, hstate', hend]
  cases on <;> simp [State.stateEnd]

theorem State.fioCount_shown {s : State} {i : Nat} (hi : i < 32) {on : Bool} (hend : s.stateCount i on = s.stateEnd i on)
    (hstate : s.isOn .FIO_IN_STAT_state 0 i = !on) (hret : bit (s.get .FIO_RETIRED) i = false) : State.EdgeShown i on s (s.fioCount i on) := by
  have hcounted := s.counted_samples i on
  obtain ⟨hst, hlevel, hrecord, hseq, hevent⟩ := (s.counted i on).fioEdge_shown hi on
  rw [State.fioCount_edge hend hstate hret]
  exact ⟨hst, hlevel, hrecord, by rw [hseq, hcounted.leaves _ i rfl rfl rfl], fun h => hevent ((hcounted.edgeIrq rfl i on).trans h)⟩

/-! ## The break counter of an input (R393, R395) -/

/-- The registers that a permanent input writes. -/
def retireFlds : List Fld := .FIO_RETIRED :: levelFlds

theorem State.fioRetire_samples (s : State) (i : Nat) : State.Samples retireFlds (· ≠ i) s (s.fioRetire i) := by
  have hret := (State.Samples.refl (l := retireFlds) (keep := (· ≠ i)) s).setBit (g := .FIO_RETIRED) (by decide) rfl (fun _ h => h) true rfl
  exact (((hret.trans ((State.setLevel_samples _ i false).mono (by decide)))).raiseMask ..).trans (State.samples_channelRetired ..)

/-- The filtered state of an input is OFF, in both places that show it. -/
def State.inputOff (s : State) (i : Nat) : Prop := s.isOn .FIO_IN_STAT_state 0 i = false ∧ bit (s.get .FIO_IN_LEVEL) i = false

theorem State.Samples.inputOff {l : List Fld} {keep : Nat → Prop} {s t : State} (h : State.Samples l keep s t)
    (hl : levelFlds.all (fun f => l.all (fun g => f.diff g)) = true) {i : Nat} (hs : s.inputOff i) : t.inputOff i := by
  refine ⟨(State.isOn_of_get (h.leaves _ i rfl rfl (List.all_eq_true.mp hl _ (by decide)))).trans hs.1, ?_⟩
  rw [h.leaves _ 0 rfl rfl (List.all_eq_true.mp hl _ (by decide))]
  exact hs.2

/-- A permanent input is OFF (R395). -/
theorem State.fioRetire_off (s : State) {i : Nat} (hi : i < 32) : (s.fioRetire i).inputOff i := by
  have hoff := (s.set .FIO_RETIRED 0 0 (putBit (s.get .FIO_RETIRED) i true)).setLevel_shows hi false
  have hrest : State.Samples [] (· ≠ i) ((s.set .FIO_RETIRED 0 0 (putBit (s.get .FIO_RETIRED) i true)).setLevel i false) (s.fioRetire i) :=
    ((State.Samples.refl _).raiseMask ..).trans (State.samples_channelRetired ..)
  exact hrest.inputOff rfl hoff

/-- The registers that the setting of a break flag writes, but for those of a permanent input. -/
def brokenFlds : List Fld := [.FIO_IN_BROKEN, .FIO_CNT_BREAK]

/-- A break flag that sets, before its upset. -/
def State.brokenNoted (s : State) (i : Nat) : State :=
  ((s.set .FIO_IN_BROKEN 0 0 (putBit (s.get .FIO_IN_BROKEN) i true)).count .FIO_CNT_BREAK 0 0 1).raise fioPage 2

theorem State.brokenNoted_samples (s : State) (i : Nat) : State.Samples brokenFlds (· ≠ i) s (s.brokenNoted i) :=
  (((State.Samples.refl s).setBit (by decide) rfl (fun _ h => h) true rfl).set (g := .FIO_CNT_BREAK) (by decide) rfl (.inr rfl) _).raiseMask ..

/-- A break flag that sets is noted, and its input may become permanent (R395). -/
theorem State.fioBroken_cases (s : State) (i : Nat) :
    ∃ u, State.Samples [] (fun _ => True) (s.brokenNoted i) u ∧ (s.fioBroken i = u ∨ s.fioBroken i = u.fioRetire i) := by
  have hbucket : State.Samples [] (fun _ => True) (s.brokenNoted i) ((s.brokenNoted i).addUpset 5 i).1 := .of_same fun _ _ _ => rfl
  have heq : s.fioBroken i = if bit ((s.brokenNoted i).get .FIO_RETIRED) i then s.brokenNoted i
    else if ((s.brokenNoted i).addUpset 5 i).2 then ((s.brokenNoted i).addUpset 5 i).1.fioRetire i else ((s.brokenNoted i).addUpset 5 i).1 := rfl
  rw [heq]
  split
  · exact ⟨_, .refl _, .inl rfl⟩
  · refine ⟨_, hbucket, ?_⟩
    split
    · exact .inr rfl
    · exact .inl rfl

theorem State.fioBroken_samples (s : State) (i : Nat) : State.Samples (brokenFlds ++ retireFlds) (· ≠ i) s (s.fioBroken i) := by
  obtain ⟨u, hu, h⟩ := s.fioBroken_cases i
  have hnoted := ((s.brokenNoted_samples i).mono (l' := brokenFlds ++ retireFlds) (by decide)).trans
    ((hu.narrow fun _ _ => trivial).mono (by decide))
  obtain h | h := h
  · exact h ▸ hnoted
  · exact h ▸ hnoted.trans ((u.fioRetire_samples i).mono (by decide))

theorem State.fioBroken_shows (s : State) {i : Nat} (hi : i < 32) :
    bit ((s.fioBroken i).get .FIO_IN_BROKEN) i = true ∧ (s.fioBroken i).event fioPage 2 = true := by
  obtain ⟨u, hu, h⟩ := s.fioBroken_cases i
  have hbroken : bit (u.get .FIO_IN_BROKEN) i = true := by
    rw [hu.leaves _ 0 rfl rfl rfl, State.brokenNoted, State.get_raise _ _ _ _ _ rfl, State.get_count_other _ rfl, State.get_set_self]
    exact (bit_mod hi).trans ((bit_putBit _ _ _ _).trans (if_pos rfl))
  have hevent : u.event fioPage 2 = true := hu.events 2 (by decide) (State.raise_event _ _ _ (by decide))
  obtain h | h := h
  · exact h ▸ ⟨hbroken, hevent⟩
  · refine h ▸ ⟨?_, (u.fioRetire_samples i).events 2 (by decide) hevent⟩
    rw [(u.fioRetire_samples i).leaves _ 0 rfl rfl rfl]
    exact hbroken

theorem State.fioBroken_off {s : State} {i : Nat} (hi : i < 32) (hs : s.inputOff i) : (s.fioBroken i).inputOff i := by
  obtain ⟨u, hu, h | h⟩ := s.fioBroken_cases i
  · exact h ▸ hu.inputOff rfl ((s.brokenNoted_samples i).inputOff rfl hs)
  · exact h ▸ u.fioRetire_off hi

/-- The break counter of an input after a sample, BROKEN or not. -/
def State.breakCount (s : State) (i : Nat) (broken : Bool) : Nat :=
  if !s.isOn .FIO_IN_CFG_break_en 0 i then 0
  else if broken then min (s.get .FIO_IN_CFG_n 0 i) (s.get .FIO_IN_STAT_b 0 i + 1)
  else min (s.get .FIO_IN_CFG_n 0 i) (s.get .FIO_IN_STAT_b 0 i - 1)

/-- A sample in an input's break counter. -/
def State.breakCounted (s : State) (i : Nat) (broken : Bool) : State := s.set .FIO_IN_STAT_b 0 i (s.breakCount i broken)

theorem State.breakCounted_samples (s : State) (i : Nat) (broken : Bool) : State.Samples [.FIO_IN_STAT_b] (· ≠ i) s (s.breakCounted i broken) :=
  (State.Samples.refl s).set (by decide) rfl (.inl fun _ h => h) _

/-- The break flag of an input clears (R395). -/
def State.breakCleared (s : State) (i : Nat) : State := s.set .FIO_IN_BROKEN 0 0 (putBit (s.get .FIO_IN_BROKEN) i false)

theorem State.breakCleared_samples (s : State) (i : Nat) : State.Samples [.FIO_IN_BROKEN] (· ≠ i) s (s.breakCleared i) :=
  (State.Samples.refl s).setBit (by decide) rfl (fun _ h => h) false rfl

theorem State.fioBreak_eq (s : State) (i : Nat) (broken : Bool) : s.fioBreak i broken =
    if broken && (s.breakCounted i broken).isOn .FIO_IN_CFG_break_en 0 i && s.breakCount i broken == s.get .FIO_IN_CFG_n 0 i &&
        !bit ((s.breakCounted i broken).get .FIO_IN_BROKEN) i then (s.breakCounted i broken).fioBroken i
    else if s.breakCount i broken == 0 && bit ((s.breakCounted i broken).get .FIO_IN_BROKEN) i then (s.breakCounted i broken).breakCleared i
    else s.breakCounted i broken := rfl

/-- The registers that the sample of a break counter writes. -/
def breakFlds : List Fld := .FIO_IN_STAT_b :: (brokenFlds ++ retireFlds)

theorem State.fioBreak_samples (s : State) (i : Nat) (broken : Bool) : State.Samples breakFlds (· ≠ i) s (s.fioBreak i broken) := by
  have hcounted := (s.breakCounted_samples i broken).mono (l' := breakFlds) (by decide)
  rw [State.fioBreak_eq]
  exact (hcounted.trans ((State.fioBroken_samples _ i).mono (by decide))).ite
    ((hcounted.trans ((State.breakCleared_samples _ i).mono (by decide))).ite hcounted)

/-- A sample that is not BROKEN moves the break counter and can clear the flag, no more (R395). -/
theorem State.fioBreak_sound (s : State) (i : Nat) : State.Samples [.FIO_IN_STAT_b, .FIO_IN_BROKEN] (· ≠ i) s (s.fioBreak i false) := by
  have hcounted := (s.breakCounted_samples i false).mono (l' := [.FIO_IN_STAT_b, .FIO_IN_BROKEN]) (by decide)
  rw [State.fioBreak_eq, Bool.false_and, Bool.false_and, Bool.false_and, if_neg Bool.false_ne_true]
  exact (hcounted.trans ((State.breakCleared_samples _ i).mono (by decide))).ite hcounted

/-- A break sample turns no input ON. -/
theorem State.fioBreak_off {s : State} {i : Nat} (hi : i < 32) (broken : Bool) (hs : s.inputOff i) : (s.fioBreak i broken).inputOff i := by
  have hcounted := (s.breakCounted_samples i broken).inputOff rfl hs
  rw [State.fioBreak_eq]
  split
  · exact State.fioBroken_off hi hcounted
  · split
    · exact (State.breakCleared_samples _ i).inputOff rfl hcounted
    · exact hcounted

/-- The break that reaches its count is flagged, with its event (R395). -/
theorem State.fioBreak_flags {s : State} {i : Nat} (hi : i < 32) (hen : s.isOn .FIO_IN_CFG_break_en 0 i = true)
    (hend : min (s.get .FIO_IN_CFG_n 0 i) (s.get .FIO_IN_STAT_b 0 i + 1) = s.get .FIO_IN_CFG_n 0 i)
    (hflag : bit (s.get .FIO_IN_BROKEN) i = false) :
    bit ((s.fioBreak i true).get .FIO_IN_BROKEN) i = true ∧ (s.fioBreak i true).event fioPage 2 = true := by
  have hcounted := s.breakCounted_samples i true
  have hcount : s.breakCount i true = s.get .FIO_IN_CFG_n 0 i := by
    simp only [State.breakCount, hen, Bool.not_true, Bool.false_eq_true, if_false, if_true, hend]
  rw [State.fioBreak_eq, State.isOn_of_get (hcounted.leaves _ i rfl rfl rfl), hcounted.leaves .FIO_IN_BROKEN 0 rfl rfl rfl, hen, hcount, hflag,
    if_pos (by simp)]
  exact State.fioBroken_shows _ hi

/-! ## One input (R393 to R395) -/

/-- The registers that the sample of an input writes. -/
def inputFlds : List Fld := .FIO_IN_STAT_band :: (countFlds ++ edgeFlds ++ breakFlds)

/-- The band of a sample as a number: BROKEN 0, OFF 1, ON 2. -/
def bandOf (on broken : Bool) : Nat := if broken then 0 else if on then 2 else 1

theorem bandOf_of_not_on {on broken : Bool} (h : (on && !broken) = false) : bandOf on broken = if broken then 0 else 1 := by
  revert h
  cases on <;> cases broken <;> decide

theorem bandOf_lt (on broken : Bool) : bandOf on broken < 2 ^ Fld.FIO_IN_STAT_band.width := by cases on <;> cases broken <;> decide

/-- A band in its register. -/
def State.banded (s : State) (i band : Nat) : State := s.set .FIO_IN_STAT_band 0 i band

theorem State.banded_samples (s : State) (i band : Nat) : State.Samples [.FIO_IN_STAT_band] (· ≠ i) s (s.banded i band) :=
  (State.Samples.refl s).set (by decide) rfl (.inl fun _ h => h) _

theorem State.fioInput_samples (s : State) (i band : Nat) : State.Samples inputFlds (· ≠ i) s (s.fioInput i band) :=
  (((s.banded_samples i band).mono (by decide)).trans ((State.fioCount_samples _ i _).mono (by decide))).trans
    ((State.fioBreak_samples _ i _).mono (by decide))

theorem State.fioInput_bandOf (s : State) (i : Nat) (on broken : Bool) :
    s.fioInput i (bandOf on broken) = ((s.banded i (bandOf on broken)).fioCount i (on && !broken)).fioBreak i broken := by
  cases on <;> cases broken <;> rfl

/-- What an input shows of a sample that took it from one state to another. -/
structure State.InputTaken (i : Nat) (on broken : Bool) (s t : State) : Prop where
  band : t.get .FIO_IN_STAT_band 0 i = bandOf on broken
  count : t.get .FIO_IN_STAT_q 0 i = s.stateCount i (on && !broken) % 2 ^ Fld.FIO_IN_STAT_q.width
  edge : s.stateCount i (on && !broken) = s.stateEnd i (on && !broken) → s.isOn .FIO_IN_STAT_state 0 i = !(on && !broken) →
    bit (s.get .FIO_RETIRED) i = false → State.EdgeShown i (on && !broken) s t
  flag : broken = true → s.isOn .FIO_IN_CFG_break_en 0 i = true →
    min (s.get .FIO_IN_CFG_n 0 i) (s.get .FIO_IN_STAT_b 0 i + 1) = s.get .FIO_IN_CFG_n 0 i → bit (s.get .FIO_IN_BROKEN) i = false →
    bit (t.get .FIO_IN_BROKEN) i = true ∧ t.event fioPage 2 = true

/-- What an edge shows stays through a break sample: that of an ON sample is sound, and an OFF input stays OFF. -/
theorem State.EdgeShown.fioBreak {s t : State} {i : Nat} (hi : i < 32) {on broken : Bool} (hb : broken = true → on = false)
    (h : State.EdgeShown i on s t) : State.EdgeShown i on s (t.fioBreak i broken) := by
  obtain ⟨hstate, hlevel, hrecord, hseq, hevent⟩ := h
  have hbreak := t.fioBreak_samples i broken
  obtain ⟨hstate, hlevel⟩ : (t.fioBreak i broken).isOn .FIO_IN_STAT_state 0 i = on ∧ bit ((t.fioBreak i broken).get .FIO_IN_LEVEL) i = on := by
    cases broken with
    | true =>
      obtain rfl := hb rfl
      exact State.fioBreak_off hi true ⟨hstate, hlevel⟩
    | false =>
      have hsound := t.fioBreak_sound i
      exact ⟨(State.isOn_of_get (hsound.leaves _ i rfl rfl rfl)).trans hstate, by rw [hsound.leaves _ 0 rfl rfl rfl]; exact hlevel⟩
  exact ⟨hstate, hlevel, (State.isOn_of_get (hbreak.leaves _ i rfl rfl rfl)).trans hrecord, (hbreak.leaves _ i rfl rfl rfl).trans hseq,
    fun h => hbreak.events 0 (by decide) (hevent h)⟩

/-- The elements of its registers that the sample of an input looks at. -/
def inputReads : List Fld :=
  [.FIO_IN_CFG_n, .FIO_IN_CFG_break_en, .FIO_IN_CFG_irq_rise, .FIO_IN_CFG_irq_fall, .FIO_IN_STAT_state, .FIO_IN_STAT_q, .FIO_IN_STAT_b, .FIO_IN_SEQ]

/-- The elements of its registers in which an input shows its sample. -/
def inputShows : List Fld := [.FIO_IN_STAT_band, .FIO_IN_STAT_q, .FIO_IN_STAT_state, .FIO_IN_EDGE_rising, .FIO_IN_SEQ]

section
variable {i : Nat} {on broken : Bool} {s t u : State}

/-- A sample is told by what it looks at. -/
theorem State.InputTaken.before (h : State.InputTaken i on broken u t) (hr : ∀ f ∈ inputReads, u.get f 0 i = s.get f 0 i)
    (hm : ∀ m ∈ [Fld.FIO_RETIRED, .FIO_IN_BROKEN], bit (u.get m) i = bit (s.get m) i) : State.InputTaken i on broken s t := by
  have hn := hr .FIO_IN_CFG_n (by decide)
  have hcount : u.stateCount i (on && !broken) = s.stateCount i (on && !broken) := by
    simp only [State.stateCount, hn, hr .FIO_IN_STAT_q (by decide)]
  have hend : u.stateEnd i (on && !broken) = s.stateEnd i (on && !broken) := by simp only [State.stateEnd, hn]
  refine ⟨h.band, hcount ▸ h.count, fun he hst hret => ?_, fun hb hen hmin hflag => h.flag hb ?_ ?_ ?_⟩
  · obtain ⟨hstate, hlevel, hrecord, hseq, hevent⟩ := h.edge (by rw [hcount, hend, he])
      ((State.isOn_of_get (hr .FIO_IN_STAT_state (by decide))).trans hst) ((hm .FIO_RETIRED (by decide)).trans hret)
    refine ⟨hstate, hlevel, hrecord, ?_, fun hirq => hevent ?_⟩
    · rw [hseq, hr .FIO_IN_SEQ (by decide)]
    · rw [← hirq]
      exact State.isOn_of_get (hr _ (by cases on <;> cases broken <;> decide))
  · exact (State.isOn_of_get (hr .FIO_IN_CFG_break_en (by decide))).trans hen
  · rw [hn, hr .FIO_IN_STAT_b (by decide), hmin]
  · exact (hm .FIO_IN_BROKEN (by decide)).trans hflag

/-- A sample stays shown while what shows it stays. -/
theorem State.InputTaken.after (h : State.InputTaken i on broken s u) (hr : ∀ f ∈ inputShows, t.get f 0 i = u.get f 0 i)
    (hm : ∀ m ∈ [Fld.FIO_IN_LEVEL, .FIO_IN_BROKEN], bit (t.get m) i = bit (u.get m) i)
    (he : ∀ n, n < 32 → u.event fioPage n = true → t.event fioPage n = true) : State.InputTaken i on broken s t := by
  refine ⟨(hr _ (by decide)).trans h.band, (hr _ (by decide)).trans h.count, fun hend hst hret => ?_, fun hb hen hmin hflag => ?_⟩
  · obtain ⟨hstate, hlevel, hrecord, hseq, hevent⟩ := h.edge hend hst hret
    exact ⟨(State.isOn_of_get (hr _ (by decide))).trans hstate, (hm _ (by decide)).trans hlevel,
      (State.isOn_of_get (hr _ (by decide))).trans hrecord, (hr _ (by decide)).trans hseq, fun hirq => he 0 (by decide) (hevent hirq)⟩
  · obtain ⟨hflag, hevent⟩ := h.flag hb hen hmin hflag
    exact ⟨(hm _ (by decide)).trans hflag, he 2 (by decide) hevent⟩

end

/-- An input takes its sample: the count and the edge that it brings, then the break counter (R393 to R395). -/
theorem State.fioInput_taken (s : State) {i : Nat} (hi : i < 32) (on broken : Bool) :
    State.InputTaken i on broken s (s.fioInput i (bandOf on broken)) := by
  have hbanded := s.banded_samples i (bandOf on broken)
  have hcount := (s.banded i (bandOf on broken)).fioCount_samples i (on && !broken)
  have hbreak := ((s.banded i (bandOf on broken)).fioCount i (on && !broken)).fioBreak_samples i broken
  rw [State.fioInput_bandOf]
  refine State.InputTaken.before (u := s.banded i (bandOf on broken)) ⟨?_, ?_, fun hend hst hret => ?_, fun hb hen hmin hflag => ?_⟩
    (fun f hf => ?_) (fun m hm => ?_)
  · rw [hbreak.leaves _ i rfl rfl rfl, hcount.leaves _ i rfl rfl rfl, State.banded, State.get_set_self, Nat.mod_eq_of_lt (bandOf_lt on broken)]
  · rw [hbreak.leaves _ i rfl rfl rfl, State.fioCount_q]
  · exact (State.fioCount_shown hi hend hst hret).fioBreak hi (fun hb => by rw [hb, Bool.not_true, Bool.and_false])
  · subst hb
    have hn := hcount.leaves .FIO_IN_CFG_n i rfl rfl rfl
    exact State.fioBreak_flags hi ((State.isOn_of_get (hcount.leaves _ i rfl rfl rfl)).trans hen)
      (by rw [hn, hcount.leaves .FIO_IN_STAT_b i rfl rfl rfl, hmin]) (by rw [hcount.leaves .FIO_IN_BROKEN 0 rfl rfl rfl, hflag])
  · exact hbanded.leavesAll (r := inputReads) rfl f hf i
  · rw [hbanded.leavesAll (r := [.FIO_RETIRED, .FIO_IN_BROKEN]) rfl m hm]

/-! ## A readback (R397) -/

/-- The registers that the comparison of a readback writes. -/
def readbackFlds : List Fld := [.FIOX_MISMATCH, .FIO_RB_ERR, .FIO_CNT_RB_ERR]

/-- The fourth mismatch of a readback: an error, with its event. -/
def State.readbackFails (s : State) (k : Nat) : State :=
  (((s.set .FIOX_MISMATCH 0 k 0).set .FIO_RB_ERR 0 0 (putBit (s.get .FIO_RB_ERR) k true)).count .FIO_CNT_RB_ERR 0 0 1).raise fioPage 3

theorem State.readbackFails_samples (s : State) (k : Nat) : State.Samples readbackFlds (· ≠ k) s (s.readbackFails k) := by
  have hcounted := (State.Samples.refl (l := readbackFlds) (keep := (· ≠ k)) s).set (g := .FIOX_MISMATCH) (by decide) rfl (.inl fun _ h => h) 0
  have herr := hcounted.setBit (g := .FIO_RB_ERR) (by decide) rfl (fun _ h => h) true rfl
  rw [State.get_set_other _ rfl] at herr
  exact (herr.set (g := .FIO_CNT_RB_ERR) (by decide) rfl (.inr rfl) _).raiseMask ..

theorem State.fioReadback_samples (s : State) (k : Nat) : State.Samples readbackFlds (· ≠ k) s (s.fioReadback k) := by
  have hself := State.Samples.refl (l := readbackFlds) (keep := (· ≠ k)) s
  have hset : ∀ v, State.Samples readbackFlds (· ≠ k) s (s.set .FIOX_MISMATCH 0 k v) := fun v =>
    hself.set (by decide) rfl (.inl fun _ h => h) v
  exact hself.ite (hself.ite ((hset 0).ite ((hset _).ite (s.readbackFails_samples k))))

section
variable {s : State} {k : Nat} (hen : bit (s.get .FIO_RB_CFG_enable) k = true) (hsettled : s.get .FIOX_CHANGED 0 k = 0)
  (hne : bit (s.get .FIO_OUT_PIN_readback) k ≠ bit (s.get .FIO_OUT_PIN_drive) k)
include hen hsettled hne

/-- A readback that differs from a settled output is counted, and the fourth time it is an error (R397). -/
theorem State.fioReadback_differs : s.fioReadback k =
    if s.get .FIOX_MISMATCH 0 k < 3 then s.set .FIOX_MISMATCH 0 k (s.get .FIOX_MISMATCH 0 k + 1) else s.readbackFails k := by
  have hne' : (bit (s.get .FIO_OUT_PIN_readback) k == bit (s.get .FIO_OUT_PIN_drive) k) = false := beq_eq_false_iff_ne.mpr hne
  simp only [State.fioReadback, hen, hsettled, hne', Bool.not_true, bne_self_eq_false, Bool.false_and, Bool.false_eq_true, if_false]
  rfl

theorem State.fioReadback_counts (h : s.get .FIOX_MISMATCH 0 k < 3) :
    (s.fioReadback k).get .FIOX_MISMATCH 0 k = s.get .FIOX_MISMATCH 0 k + 1 := by
  rw [State.fioReadback_differs hen hsettled hne, if_pos h, State.get_set_self]
  exact Nat.mod_eq_of_lt (by change _ < 8; omega)

theorem State.fioReadback_fails (hk : k < 16) (h : 3 ≤ s.get .FIOX_MISMATCH 0 k) : (s.fioReadback k).get .FIOX_MISMATCH 0 k = 0 ∧
    bit ((s.fioReadback k).get .FIO_RB_ERR) k = true ∧ (s.fioReadback k).event fioPage 3 = true := by
  rw [State.fioReadback_differs hen hsettled hne, if_neg (Nat.not_lt.mpr h)]
  refine ⟨?_, ?_, State.raise_event _ _ _ (by decide)⟩
  · rw [State.readbackFails, State.get_raise _ _ _ _ _ rfl, State.get_count_other _ rfl, State.get_set_other _ rfl, State.get_set_self]
    rfl
  · rw [State.readbackFails, State.get_raise _ _ _ _ _ rfl, State.get_count_other _ rfl, State.get_set_self]
    exact (bit_mod hk).trans ((bit_putBit _ _ _ _).trans (if_pos rfl))

end

/-! ## A sample (R392) -/

theorem exec_fieldInputSample_awake {s : State} (h : s.awake = true) (on broken : BitVec 32) (rb : BitVec 16) :
    exec (.fieldInputSample on broken rb) s = .next (s.fioSample on.toNat broken.toNat rb.toNat) := by
  change Host.Outcome.next (s.whenAwake (fun s => s.fioSample on.toNat broken.toNat rb.toNat)) = _
  rw [State.whenAwake_awake h]

/-- Every input takes its sample. -/
def State.inputsTaken (s : State) (on broken : Nat) : State :=
  s.forEach (List.range 32) (fun s i => s.fioInput i (bandOf (bit on i) (bit broken i)))

/-- The levels of the readback pins as FIO_OUT_PIN shows them. -/
def State.readbackShown (s : State) (rb : Nat) : State := s.set .FIO_OUT_PIN_readback 0 0 rb

/-- Every readback is compared. -/
def State.readbacksTaken (s : State) : State := s.forEach (List.range 16) (fun s k => s.fioReadback k)

theorem State.fioSample_off {s : State} (h : s.isOn (.CTRL_enable .fio) = false ∨ s.isOn (.CTRL_quiesce .fio) = true) (on broken rb : Nat) :
    s.fioSample on broken rb = s := by
  unfold State.fioSample
  rw [if_pos]
  obtain h | h := h <;> simp [h]

theorem State.fioSample_on {s : State} (hon : s.isOn (.CTRL_enable .fio) = true) (hq : s.isOn (.CTRL_quiesce .fio) = false) (on broken rb : Nat) :
    s.fioSample on broken rb = ((s.inputsTaken on broken).readbackShown rb).readbacksTaken := by
  simp only [State.fioSample, hon, hq, Bool.not_true, Bool.or_self, Bool.false_eq_true, if_false]
  rfl

theorem State.inputsTaken_samples (s : State) (on broken : Nat) : State.Samples inputFlds (fun _ => False) s (s.inputsTaken on broken) :=
  State.samples_forEach (fun t i _ => (t.fioInput_samples i _).narrow fun _ h => h.elim) s

theorem State.readbackShown_samples (s : State) (rb : Nat) (keep : Nat → Prop) :
    State.Samples [.FIO_OUT_PIN_readback] keep s (s.readbackShown rb) := (State.Samples.refl s).set (by decide) rfl (.inr rfl) _

theorem State.readbacksTaken_samples (s : State) : State.Samples readbackFlds (fun _ => False) s s.readbacksTaken :=
  State.samples_forEach (fun t k _ => (t.fioReadback_samples k).narrow fun _ h => h.elim) s

/-- After the inputs a sample reaches nothing of theirs. -/
theorem State.outputs_samples (s : State) (rb : Nat) :
    State.Samples (.FIO_OUT_PIN_readback :: readbackFlds) (fun _ => False) s (s.readbackShown rb).readbacksTaken :=
  ((s.readbackShown_samples rb _).mono (by decide)).trans ((State.readbacksTaken_samples _).mono (by decide))

/-- The bits of an input stay through samples that leave its element. -/
theorem State.Samples.inputBits {l : List Fld} {i : Nat} {s t : State} (h : State.Samples l (· = i) s t) (hi : i < 32) :
    ∀ m ∈ [Fld.FIO_IN_LEVEL, .FIO_IN_BROKEN, .FIO_RETIRED], bit (t.get m) i = bit (s.get m) i := fun m hm => by
  have hwide : [Fld.FIO_IN_LEVEL, .FIO_IN_BROKEN, .FIO_RETIRED].all (fun m => m ∈ sampleMasks && m.width == 32) = true := rfl
  have hmask := List.all_eq_true.mp hwide m hm
  rw [Bool.and_eq_true, decide_eq_true_eq, beq_iff_eq] at hmask
  obtain ⟨hmem, hwidth⟩ := hmask
  exact h.masks m hmem i (hwidth ▸ hi) rfl

/-- Each input shows a sample as its own: the samples of the others leave its registers and its bits, and the readbacks leave them all. -/
theorem State.fioSample_input {s : State} {i : Nat} (hi : i < 32) (on broken rb : Nat) :
    State.InputTaken i (bit on i) (bit broken i) s ((s.inputsTaken on broken).readbackShown rb).readbacksTaken := by
  obtain ⟨u, hu, hrest⟩ := State.samples_own (fun t x => t.fioInput_samples x (bandOf (bit on x) (bit broken x))) List.nodup_range
    (List.mem_range.mpr hi) s
  have hout := (s.inputsTaken on broken).outputs_samples rb
  refine ((u.fioInput_taken hi (bit on i) (bit broken i)).before (fun f hf => ?_) fun m hm => hu.inputBits hi m ?_).after (fun f hf => ?_)
    (fun m hm => ?_) fun n hn h => hout.events n hn (hrest.events n hn h)
  · have hreads : inputReads ⊆ [Fld.FIO_IN_CFG_n, .FIO_IN_CFG_break_en, .FIO_IN_CFG_irq_rise, .FIO_IN_CFG_irq_fall] ++ sampleElems := by decide
    obtain hcfg | helem := List.mem_append.mp (hreads hf)
    · exact hu.leavesAll rfl f hcfg i
    · exact hu.elems f helem i rfl
  · exact (show [Fld.FIO_RETIRED, .FIO_IN_BROKEN] ⊆ _ by decide) hm
  · have hshows : inputShows ⊆ sampleElems := by decide
    exact (hout.leavesAll (r := inputShows) rfl f hf i).trans (hrest.elems f (hshows hf) i rfl)
  · rw [hout.leavesAll (r := [.FIO_IN_LEVEL, .FIO_IN_BROKEN]) rfl m hm]
    exact hrest.inputBits hi m ((show [Fld.FIO_IN_LEVEL, .FIO_IN_BROKEN] ⊆ _ by decide) hm)

theorem State.fioSample_readbackPins (s : State) (on broken : Nat) {rb : Nat} (h : rb < 2 ^ 16) :
    ((s.inputsTaken on broken).readbackShown rb).readbacksTaken.get .FIO_OUT_PIN_readback = rb := by
  rw [(State.readbacksTaken_samples _).leaves _ 0 rfl rfl rfl, State.readbackShown, State.get_set_self]
  exact Nat.mod_eq_of_lt h

section
variable {s : State} {k rb : Nat} (hk : k < 16) (hen : bit (s.get .FIO_RB_CFG_enable) k = true) (hsettled : s.get .FIOX_CHANGED 0 k = 0)
  (hne : bit rb k ≠ bit (s.get .FIO_OUT_PIN_drive) k)
include hk hen hsettled hne

/-- Each readback is compared as its own: neither the inputs nor the other readbacks reach what it looks at or shows. -/
theorem State.fioSample_readback (on broken : Nat) {t : State} (ht : ((s.inputsTaken on broken).readbackShown rb).readbacksTaken = t) :
    (s.get .FIOX_MISMATCH 0 k < 3 → t.get .FIOX_MISMATCH 0 k = s.get .FIOX_MISMATCH 0 k + 1) ∧
    (3 ≤ s.get .FIOX_MISMATCH 0 k → t.get .FIOX_MISMATCH 0 k = 0 ∧ bit (t.get .FIO_RB_ERR) k = true ∧ t.event fioPage 3 = true) := by
  obtain ⟨u, hu, hrest⟩ := State.samples_own (fun t x => t.fioReadback_samples x) List.nodup_range (List.mem_range.mpr hk)
    ((s.inputsTaken on broken).readbackShown rb)
  have hbefore := ((s.inputsTaken_samples on broken).mono (l' := .FIO_OUT_PIN_readback :: inputFlds) (by decide)).trans
    ((State.readbackShown_samples _ rb _).mono (by decide))
  have hreads := hbefore.leavesAll (r := [.FIO_RB_CFG_enable, .FIOX_CHANGED, .FIOX_MISMATCH, .FIO_OUT_PIN_drive]) rfl
  have hpins : bit (u.get .FIO_OUT_PIN_readback) k = bit rb k := by
    rw [hu.leaves _ 0 rfl rfl rfl, State.readbackShown, State.get_set_self]
    exact bit_mod hk
  have hmismatch : u.get .FIOX_MISMATCH 0 k = s.get .FIOX_MISMATCH 0 k := (hu.elems _ (by decide) k rfl).trans (hreads _ (by decide) k)
  have hen' : bit (u.get .FIO_RB_CFG_enable) k = true := by rw [hu.leaves _ 0 rfl rfl rfl, hreads _ (by decide), hen]
  have hsettled' : u.get .FIOX_CHANGED 0 k = 0 := by rw [hu.leaves _ k rfl rfl rfl, hreads _ (by decide), hsettled]
  have hne' : bit (u.get .FIO_OUT_PIN_readback) k ≠ bit (u.get .FIO_OUT_PIN_drive) k := by
    rw [hpins, hu.leaves .FIO_OUT_PIN_drive 0 rfl rfl rfl, hreads .FIO_OUT_PIN_drive (by decide)]
    exact hne
  rw [State.readbacksTaken] at ht
  rw [ht] at hrest
  refine ⟨fun h => ?_, fun h => ?_⟩
  · rw [hrest.elems _ (by decide) k rfl, State.fioReadback_counts hen' hsettled' hne' (hmismatch ▸ h), hmismatch]
  · obtain ⟨hzero, herr, hevent⟩ := State.fioReadback_fails hen' hsettled' hne' hk (hmismatch ▸ h)
    exact ⟨(hrest.elems _ (by decide) k rfl).trans hzero, (hrest.masks _ (by decide) k hk rfl).trans herr, hrest.events 3 (by decide) hevent⟩

end

/-! ## The levels that drive the outputs (R396, R398, R400) -/

/-- The outputs that follow their commands after a change (R400). -/
def State.foFollow (s : State) : Nat :=
  if s.isOn .FIO_SAFE_held then 0 else s.get .FIOX_FOLLOW_FO ||| (65535 - (s.foCommand ^^^ s.get .FIO_SAFE_FO))

/-- The levels that the outputs are driven to after a change (R396, R398). -/
def State.foLevel (s : State) : Nat :=
  if s.isOn .FIOX_SAFE_LOW then 0
  else if s.isOn .FIO_SAFE_held then s.get .FIO_SAFE_FO
  else (s.foCommand &&& s.foFollow) ||| (s.get .FIO_SAFE_FO &&& (65535 - s.foFollow))

theorem State.foUpdate_eq (s : State) : s.foUpdate =
    ((s.set .FIOX_FOLLOW_FO 0 0 s.foFollow).set .FIO_OUT_PIN_drive 0 0 s.foLevel).forEach (onesOf 16 (s.foLevel ^^^ s.get .FIO_OUT_PIN_drive))
      (fun s k => s.set .FIOX_CHANGED 0 k (s.tick + 1)) := rfl

/-- The noting of the changed levels leaves every other register. -/
theorem State.foUpdate_driven (s : State) {f : Fld} (h : f.diff .FIOX_CHANGED = true) (j : Nat) :
    s.foUpdate.get f 0 j = ((s.set .FIOX_FOLLOW_FO 0 0 s.foFollow).set .FIO_OUT_PIN_drive 0 0 s.foLevel).get f 0 j := by
  rw [State.foUpdate_eq]
  exact State.forEach_keeps (fun t : State => t.get f 0 j) (fun t k _ => State.get_set_other t h _ _ _ _ _) _

/-- The registers that a change of the driven levels writes. -/
def driveFlds : List Fld := [.FIOX_FOLLOW_FO, .FIO_OUT_PIN_drive, .FIOX_CHANGED]

theorem State.foUpdate_get (s : State) {f : Fld} (h : driveFlds.all (fun g => f.diff g) = true) (j : Nat) :
    s.foUpdate.get f 0 j = s.get f 0 j := by
  have hapart := List.all_eq_true.mp h
  rw [s.foUpdate_driven (hapart _ (by decide)), State.get_set_other _ (hapart _ (by decide)), State.get_set_other _ (hapart _ (by decide))]

theorem State.foUpdate_isOn (s : State) {f : Fld} (h : driveFlds.all (fun g => f.diff g) = true) : s.foUpdate.isOn f = s.isOn f :=
  State.isOn_of_get (s.foUpdate_get h 0)

theorem State.foUpdate_drive (s : State) : s.foUpdate.get .FIO_OUT_PIN_drive = s.foLevel % 2 ^ 16 := by
  rw [s.foUpdate_driven rfl, State.get_set_self]
  rfl

theorem State.foUpdate_follow (s : State) : s.foUpdate.get .FIOX_FOLLOW_FO = s.foFollow % 2 ^ 16 := by
  rw [s.foUpdate_driven rfl, State.get_set_other _ rfl, State.get_set_self]
  rfl

theorem State.foUpdate_tick (s : State) : s.foUpdate.tick = s.tick := by
  rw [State.foUpdate_eq]
  refine (State.forEach_keeps State.tick (fun t k _ => ?_) _).trans rfl
  rfl

theorem State.foLevel_low {s : State} (h : s.isOn .FIOX_SAFE_LOW = true) : s.foLevel = 0 := by rw [State.foLevel, if_pos h]

theorem State.foLevel_held {s : State} (hlow : s.isOn .FIOX_SAFE_LOW = false) (h : s.isOn .FIO_SAFE_held = true) :
    s.foLevel = s.get .FIO_SAFE_FO := by
  rw [State.foLevel, hlow, h, if_neg Bool.false_ne_true, if_pos rfl]

/-- Two masks of 16 bits, one of which holds every bit. -/
theorem or_all_bits {a : Nat} (h : a ≤ 65535) : 65535 ||| a = 65535 := by
  have hlt : 65535 ||| a < 2 ^ 16 := Nat.or_lt_two_pow (by decide) (by omega)
  have hle : 65535 ≤ 65535 ||| a := Nat.left_le_or
  omega

/-- Once every output follows its command, the commands are driven (R400). -/
theorem State.foLevel_follows {s : State} (hlow : s.isOn .FIOX_SAFE_LOW = false) (hheld : s.isOn .FIO_SAFE_held = false)
    (h : s.get .FIOX_FOLLOW_FO = 65535) : s.foLevel = s.foCommand % 2 ^ 16 := by
  have hfollow : s.foFollow = 65535 := by
    rw [State.foFollow, hheld, if_neg Bool.false_ne_true, h, or_all_bits (by omega)]
  rw [State.foLevel, hlow, hheld, if_neg Bool.false_ne_true, if_neg Bool.false_ne_true, hfollow, Nat.sub_self, Nat.and_zero, Nat.or_zero]
  exact Nat.and_two_pow_sub_one_eq_mod _ 16

/-- Where commands and safe levels agree in the bits that follow and differ in the others, both give the safe levels. -/
theorem agreeing_levels {cmd safe : Nat} (hcmd : cmd < 2 ^ 16) (hsafe : safe < 2 ^ 16) :
    (cmd &&& (65535 - (cmd ^^^ safe))) ||| (safe &&& (65535 - (65535 - (cmd ^^^ safe)))) = safe := by
  have hx : cmd ^^^ safe < 2 ^ 16 := Nat.xor_lt_two_pow hcmd hsafe
  have hnot : 65535 - (cmd ^^^ safe) = 2 ^ 16 - ((cmd ^^^ safe) + 1) := by omega
  rw [Nat.sub_sub_self (by omega), hnot]
  refine Nat.eq_of_testBit_eq fun n => ?_
  simp only [Nat.testBit_or, Nat.testBit_and, Nat.testBit_two_pow_sub_succ hx, Nat.testBit_xor]
  by_cases hn : n < 16
  · cases cmd.testBit n <;> cases safe.testBit n <;> simp [hn]
  · have hhigh : 2 ^ 16 ≤ 2 ^ n := Nat.pow_le_pow_right (by decide) (by omega)
    simp [Nat.testBit_lt_two_pow (Nat.lt_of_lt_of_le hcmd hhigh), Nat.testBit_lt_two_pow (Nat.lt_of_lt_of_le hsafe hhigh)]

section
variable {s : State} (hheld : s.isOn .FIO_SAFE_held = false) (hfollow : s.get .FIOX_FOLLOW_FO = 0)
include hheld hfollow

/-- At a release the outputs whose commands agree with their safe levels follow them (R400). -/
theorem State.foFollow_released : s.foFollow = 65535 - (s.foCommand ^^^ s.get .FIO_SAFE_FO) := by
  rw [State.foFollow, hheld, if_neg Bool.false_ne_true, hfollow, Nat.zero_or]

/-- A release alone changes no level (R400). -/
theorem State.foLevel_released (hlow : s.isOn .FIOX_SAFE_LOW = false) (hsafe : s.get .FIO_SAFE_FO < 2 ^ 16) (hcmd : s.foCommand < 2 ^ 16) :
    s.foLevel = s.get .FIO_SAFE_FO := by
  rw [State.foLevel, hlow, hheld, if_neg Bool.false_ne_true, if_neg Bool.false_ne_true, State.foFollow_released hheld hfollow,
    agreeing_levels hcmd hsafe]

end

/-- The commands of the outputs depend on three registers alone (R396). -/
theorem State.foCommand_congr {s t : State} (hsrc : t.get .FIO_OUT_SRC = s.get .FIO_OUT_SRC) (hset : t.get .FIO_OUT_SET = s.get .FIO_OUT_SET)
    (hejt : t.get .EJT_VALVES_FO = s.get .EJT_VALVES_FO) : t.foCommand = s.foCommand := by
  simp only [State.foCommand, hsrc, hset, hejt]

/-! ## The words of FIO that drive the outputs and the watchdog -/

theorem State.hostRow_fio {s : State} {fn off : Nat} (ho : s.opens fn fioPage off = true) (h : 0x100 ≤ off) (v : Nat) :
    s.hostRow fn fioPage off v = s.fioWord fn off v := by
  rw [State.hostRow_opens ho, if_neg (Nat.not_lt.mpr h)]
  rfl

theorem State.fioWord_outSet (s : State) (fn v : Nat) : s.fioWord fn 0x11C v = s.outputSet (v % 2 ^ 16) := by
  simp [State.fioWord, bits]

theorem State.fioWord_wdog (s : State) (fn v : Nat) : s.fioWord fn 0x130 v = s.wdogWord fn v := by
  simp [State.fioWord]

theorem State.fioWord_kick (s : State) (fn v : Nat) : s.fioWord fn 0x134 v = s.wdogKick v := by
  simp [State.fioWord]

theorem State.fioWord_release (s : State) (fn : Nat) : s.fioWord fn 0x138 2 = s.safeRelease fn := by
  have hbit : bit 2 1 = true := by decide
  simp [State.fioWord, hbit]

/-! ## The write of FIO_OUT_SET (R396) -/

theorem exec_outputSetWrite_open {s : State} {fn : Fn} (ho : s.opens fn fioPage 0x11C = true) (v : BitVec 32) :
    exec (.outputSetWrite fn v) s = .next (s.outputSet (v.toNat % 2 ^ 16)) :=
  congrArg Host.Outcome.next ((State.hostRow_fio ho (by decide) _).trans (State.fioWord_outSet _ _ _))

/-- What a write of FIO_OUT_SET leaves: the register, and the levels that it drives unless they are held (R396, R398). -/
theorem State.outputSet_shows (s : State) (v : Nat) {t : State} (ht : s.outputSet (v % 2 ^ 16) = t) :
    t.get .FIO_OUT_SET = v % 2 ^ 16 ∧ (s.isOn .FIOX_SAFE_LOW = true → t.get .FIO_OUT_PIN_drive = 0) ∧
    (s.isOn .FIOX_SAFE_LOW = false → s.isOn .FIO_SAFE_held = true → t.get .FIO_OUT_PIN_drive = s.get .FIO_SAFE_FO % 2 ^ 16) ∧
    (s.isOn .FIOX_SAFE_LOW = false → s.isOn .FIO_SAFE_held = false → s.get .FIOX_FOLLOW_FO = 65535 →
      t.get .FIO_OUT_PIN_drive = t.foCommand % 2 ^ 16) := by
  subst ht
  obtain ⟨u, hu⟩ : ∃ u, u = s.set .FIO_OUT_SET 0 0 (v % 2 ^ 16) := ⟨_, rfl⟩
  have hget : ∀ {f : Fld}, f.diff .FIO_OUT_SET = true → u.get f = s.get f := fun h => hu ▸ State.get_set_other s h _ _ _ _ _
  have hlow : u.isOn .FIOX_SAFE_LOW = s.isOn .FIOX_SAFE_LOW := State.isOn_of_get (hget rfl)
  have hheld : u.isOn .FIO_SAFE_held = s.isOn .FIO_SAFE_held := State.isOn_of_get (hget rfl)
  rw [State.outputSet, ← hu]
  refine ⟨?_, fun h => ?_, fun h hh => ?_, fun h hh hf => ?_⟩
  · rw [u.foUpdate_get rfl, hu, State.get_set_self]
    exact Nat.mod_mod _ _
  · rw [u.foUpdate_drive, State.foLevel_low (hlow.trans h), Nat.zero_mod]
  · rw [u.foUpdate_drive, State.foLevel_held (hlow.trans h) (hheld.trans hh), hget rfl]
  · rw [u.foUpdate_drive, State.foLevel_follows (hlow.trans h) (hheld.trans hh) ((hget rfl).trans hf), Nat.mod_mod,
      State.foCommand_congr (u.foUpdate_get rfl 0) (u.foUpdate_get rfl 0) (u.foUpdate_get rfl 0)]

/-! ## The watchdog (R399) -/

/-- The watchdog runs, and its first period begins. -/
def State.wdogStarted (s : State) : State :=
  (((s.set .FIO_WDOG_enable 0 0 1).set .FIOX_KICKED 0 0 0).set .FIOX_KICK 0 0 0).set .FIOX_WD_END 0 0
    (s.tick + s.get .FIO_WDOG_period_ms * 400000)

theorem exec_watchdogEnable_open {s : State} {fn : Fn} (ho : s.opens fn fioPage 0x130 = true) :
    exec (.watchdogEnable fn) s = .next (s.wdogWord fn (s.get .FIO_WDOG_period_ms % 2 ^ 14 + 2 ^ 31)) :=
  congrArg Host.Outcome.next ((State.hostRow_fio ho (by decide) _).trans (State.fioWord_wdog _ _ _))

/-- A write of FIO_WDOG that keeps the period and sets enable starts a watchdog that does not run, and changes nothing else (R399). -/
theorem State.wdogWord_enable {s : State} (h : s.get .FIO_WDOG_period_ms < 2 ^ 14) (fn : Nat) :
    s.wdogWord fn (s.get .FIO_WDOG_period_ms % 2 ^ 14 + 2 ^ 31) = if s.isOn .FIO_WDOG_enable then s else s.wdogStarted := by
  have hperiod : bits (s.get .FIO_WDOG_period_ms % 2 ^ 14 + 2 ^ 31) 13 0 = s.get .FIO_WDOG_period_ms := by
    simp only [bits, Nat.shiftRight_zero]
    omega
  have henable : bit (s.get .FIO_WDOG_period_ms % 2 ^ 14 + 2 ^ 31) 31 = true := by
    simp only [bit, Nat.shiftRight_eq_div_pow, beq_iff_eq]
    omega
  have hticks : ((((s.set .FIO_WDOG_enable 0 0 1).set .FIOX_KICKED 0 0 0).set .FIOX_KICK 0 0 0)).wdogTicks = s.get .FIO_WDOG_period_ms * 400000 := by
    rw [State.wdogTicks, State.get_set_other _ rfl, State.get_set_other _ rfl, State.get_set_other _ rfl]
  simp only [State.wdogWord, hperiod, henable, if_true, Bool.true_and, hticks, State.set_tick, State.wdogStarted]
  cases s.isOn .FIO_WDOG_enable <;> simp

theorem State.wdogStarted_shows (s : State) : s.wdogStarted.get .FIO_WDOG_enable = 1 ∧ s.wdogStarted.get .FIOX_KICKED = 0 ∧
    s.wdogStarted.get .FIOX_WD_END = (s.tick + s.get .FIO_WDOG_period_ms * 400000) % 2 ^ 64 ∧
    State.Only [(.FIO_WDOG_enable, 0, 0), (.FIOX_KICKED, 0, 0), (.FIOX_KICK, 0, 0), (.FIOX_WD_END, 0, 0)] s s.wdogStarted := by
  refine ⟨?_, ?_, State.get_set_self .., ((((State.Only.refl _ s).set _ (by simp)).set _ (by simp)).set _ (by simp)).set _ (by simp)⟩
  · rw [State.wdogStarted, State.get_set_other _ rfl, State.get_set_other _ rfl, State.get_set_other _ rfl, State.get_set_self]
    rfl
  · rw [State.wdogStarted, State.get_set_other _ rfl, State.get_set_other _ rfl, State.get_set_self]
    rfl

theorem exec_watchdogKick_open {s : State} {fn : Fn} (ho : s.opens fn fioPage 0x134 = true) (v : BitVec 32) :
    exec (.watchdogKick fn v) s = .next (s.wdogKick v.toNat) :=
  congrArg Host.Outcome.next ((State.hostRow_fio ho (by decide) _).trans (State.fioWord_kick _ _ _))

/-- The number of a kick: 1 for 0xA5A5, 2 for 0x5A5A, 0 for any other value (R399). -/
def kickOf (v : Nat) : Nat := if v % 2 ^ 16 = 0xA5A5 then 1 else if v % 2 ^ 16 = 0x5A5A then 2 else 0

theorem kickOf_lt (v : Nat) : kickOf v < 2 ^ 2 := by
  unfold kickOf
  split
  · decide
  · split <;> decide

/-- A valid kick begins the next period. -/
def State.kicked (s : State) (k : Nat) : State :=
  ((s.set .FIOX_KICK 0 0 k).set .FIOX_KICKED 0 0 1).set .FIOX_WD_END 0 0 (s.tick + s.get .FIO_WDOG_period_ms * 400000)

theorem State.wdogKick_off {s : State} (h : s.isOn .FIO_WDOG_enable = false) (v : Nat) : s.wdogKick v = s := by
  simp only [State.wdogKick, h, Bool.not_false, if_true]

theorem State.wdogKick_valid {s : State} {v : Nat} (h : s.isOn .FIO_WDOG_enable = true) (hk : kickOf v ≠ 0) (hnew : kickOf v ≠ s.get .FIOX_KICK)
    (htime : s.tick < s.get .FIOX_WD_END) : s.wdogKick v = s.kicked (kickOf v) := by
  rw [kickOf] at hk hnew
  simp only [State.wdogKick, h, Bool.not_true, Bool.false_eq_true, if_false, hk, hnew, Nat.not_le.mpr htime, decide_false, Bool.or_self]
  rfl

theorem State.wdogKick_invalid {s : State} {v : Nat} (h : s.isOn .FIO_WDOG_enable = true)
    (hk : kickOf v = 0 ∨ kickOf v = s.get .FIOX_KICK ∨ s.get .FIOX_WD_END ≤ s.tick) : s.wdogKick v = s.wdogExpire := by
  rw [kickOf] at hk
  simp only [State.wdogKick, h, Bool.not_true, Bool.false_eq_true, if_false]
  rw [if_pos]
  simpa only [Bool.or_eq_true, decide_eq_true_eq, or_assoc] using hk

theorem State.kicked_shows (s : State) {k : Nat} (hk : k < 2 ^ 2) : (s.kicked k).get .FIOX_KICK = k ∧ (s.kicked k).get .FIOX_KICKED = 1 ∧
    (s.kicked k).get .FIOX_WD_END = (s.tick + s.get .FIO_WDOG_period_ms * 400000) % 2 ^ 64 ∧
    State.Only [(.FIOX_KICK, 0, 0), (.FIOX_KICKED, 0, 0), (.FIOX_WD_END, 0, 0)] s (s.kicked k) := by
  refine ⟨?_, ?_, State.get_set_self .., (((State.Only.refl _ s).set _ (by simp)).set _ (by simp)).set _ (by simp)⟩
  · rw [State.kicked, State.get_set_other _ rfl, State.get_set_other _ rfl, State.get_set_self]
    exact Nat.mod_eq_of_lt hk
  · rw [State.kicked, State.get_set_other _ rfl, State.get_set_self]
    rfl

/-! ## The safe state (R398, R399, R401) -/

/-- The cause that a hold of the outputs records: that of a stop stays (R401). -/
def State.holdCause (s : State) (cause : Nat) : Nat := if s.isOn .FIO_SAFE_held && s.get .FIO_SAFE_cause == 3 then 3 else cause

/-- FIO_SAFE as a hold of the outputs leaves it. -/
def State.holdNoted (s : State) (cause : Nat) : State := (s.set .FIO_SAFE_held 0 0 1).set .FIO_SAFE_cause 0 0 (s.holdCause cause)

theorem State.markSafeHeld_regs (s : State) : s.markSafeHeld.regs = s.regs := by
  refine State.forEach_keeps State.regs (fun t f _ => ?_) s
  rfl

theorem State.markSafeHeld_tick (s : State) : s.markSafeHeld.tick = s.tick := by
  refine State.forEach_keeps State.tick (fun t f _ => ?_) s
  rfl

/-- Beside FIO_SAFE a hold brings the change of the driven levels, and nothing more in the registers. -/
theorem State.safeHold_get (s : State) (cause : Nat) (f : Fld) (j : Nat) :
    (s.safeHold cause).get f 0 j = (s.holdNoted cause).foUpdate.get f 0 j := by
  change (s.holdNoted cause).foUpdate.markSafeHeld.get f 0 j = _
  simp only [State.get, State.markSafeHeld_regs]

theorem State.safeHold_tick (s : State) (cause : Nat) : (s.safeHold cause).tick = s.tick :=
  (State.markSafeHeld_tick _).trans (State.foUpdate_tick _)

/-- The registers that a hold of the outputs writes. -/
def holdFlds : List Fld := [.FIO_SAFE_held, .FIO_SAFE_cause] ++ driveFlds

theorem State.safeHold_leaves (s : State) (cause : Nat) {f : Fld} (h : holdFlds.all (fun g => f.diff g) = true) (j : Nat) :
    (s.safeHold cause).get f 0 j = s.get f 0 j := by
  simp only [holdFlds, List.all_append, List.all_cons, List.all_nil, Bool.and_true, Bool.and_eq_true] at h
  obtain ⟨⟨hheld, hcause⟩, hdrive⟩ := h
  rw [State.safeHold_get, State.foUpdate_get _ hdrive, State.holdNoted, State.get_set_other _ hcause, State.get_set_other _ hheld]

theorem State.safeHold_held (s : State) (cause : Nat) : (s.safeHold cause).get .FIO_SAFE_held = 1 := by
  rw [State.safeHold_get, State.foUpdate_get _ rfl, State.holdNoted, State.get_set_other _ rfl, State.get_set_self]
  rfl

theorem State.safeHold_cause (s : State) (cause : Nat) : (s.safeHold cause).get .FIO_SAFE_cause = s.holdCause cause % 2 ^ 2 := by
  rw [State.safeHold_get, State.foUpdate_get _ rfl, State.holdNoted, State.get_set_self]
  rfl

/-- A hold drives the safe levels (R398). -/
theorem State.safeHold_drive {s : State} (h : s.isOn .FIOX_SAFE_LOW = false) (cause : Nat) :
    (s.safeHold cause).get .FIO_OUT_PIN_drive = s.get .FIO_SAFE_FO % 2 ^ 16 := by
  have hget : ∀ {f : Fld}, f.diff .FIO_SAFE_cause = true → f.diff .FIO_SAFE_held = true → (s.holdNoted cause).get f = s.get f := fun hc hh => by
    rw [State.holdNoted, State.get_set_other _ hc, State.get_set_other _ hh]
  have hheld : (s.holdNoted cause).isOn .FIO_SAFE_held = true := by
    rw [State.isOn, State.holdNoted, State.get_set_other _ rfl, State.get_set_self]
    rfl
  rw [State.safeHold_get, State.foUpdate_drive, State.foLevel_held ((State.isOn_of_get (hget rfl rfl)).trans h) hheld, hget rfl rfl]

/-- The end of a period, but for the begin of the next: the outputs are held, then it is counted, raised and waits for a kick (R399). -/
def State.expiryNoted (s : State) : State := (((s.safeHold 2).count .FIO_CNT_WDOG 0 0 1).raise fioPage 4).set .FIOX_KICKED 0 0 0

theorem State.wdogExpire_eq (s : State) :
    s.wdogExpire = s.expiryNoted.set .FIOX_WD_END 0 0 (s.expiryNoted.tick + s.expiryNoted.wdogTicks) := rfl

theorem State.wdogExpire_get (s : State) {f : Fld} (h : f.diff .FIOX_WD_END = true) : s.wdogExpire.get f = s.expiryNoted.get f := by
  rw [State.wdogExpire_eq, State.get_set_other _ h]

/-- After the hold of its outputs an expiry writes only its count, its event and the next period. -/
theorem State.wdogExpire_held (s : State) {f : Fld} (h : [Fld.FIO_CNT_WDOG, .FIOX_KICKED, .FIOX_WD_END].all (fun g => f.diff g) = true)
    (he : (evtFlds .fio).all (fun g => f.diff g) = true) : s.wdogExpire.get f = (s.safeHold 2).get f := by
  have hapart := List.all_eq_true.mp h
  rw [s.wdogExpire_get (hapart _ (by decide)), State.expiryNoted, State.get_set_other _ (hapart _ (by decide)),
    State.get_raise _ fioPage _ _ _ he, State.get_count_other _ (hapart _ (by decide))]

/-- What the end of a watchdog period leaves (R399). -/
structure State.Expired (s t : State) : Prop where
  tick : t.tick = s.tick
  held : t.get .FIO_SAFE_held = 1
  event : t.event fioPage 4 = true
  kicked : t.get .FIOX_KICKED = 0
  cause : (s.isOn .FIO_SAFE_held = false ∨ s.get .FIO_SAFE_cause ≠ 3) → t.get .FIO_SAFE_cause = 2
  drive : s.isOn .FIOX_SAFE_LOW = false → t.get .FIO_OUT_PIN_drive = s.get .FIO_SAFE_FO % 2 ^ 16
  count : t.get .FIO_CNT_WDOG = satAdd Fld.FIO_CNT_WDOG.width (s.get .FIO_CNT_WDOG) 1

theorem State.wdogExpire_expired (s : State) : s.Expired s.wdogExpire where
  tick := by
    rw [State.wdogExpire_eq, State.set_tick, State.expiryNoted, State.set_tick, State.raise_tick, State.count, State.set_tick, State.safeHold_tick]
  held := (s.wdogExpire_held rfl rfl).trans (s.safeHold_held 2)
  event := by
    rw [State.wdogExpire_eq, State.event_set _ rfl, State.expiryNoted, State.event_set _ rfl]
    exact State.raise_event _ _ _ (by decide)
  kicked := by
    rw [s.wdogExpire_get rfl, State.expiryNoted, State.get_set_self]
    rfl
  cause h := by
    have hcause : s.holdCause 2 = 2 := by
      rw [State.holdCause, if_neg]
      obtain h | h := h <;> simp [h]
    exact (s.wdogExpire_held rfl rfl).trans ((s.safeHold_cause 2).trans (congrArg (fun c => c % 2 ^ 2) hcause))
  drive h := (s.wdogExpire_held rfl rfl).trans (State.safeHold_drive h 2)
  count := by
    rw [s.wdogExpire_get rfl, State.expiryNoted, State.get_set_other _ rfl, State.get_raise _ _ _ _ _ rfl, State.get_count_self,
      s.safeHold_leaves 2 rfl]

theorem exec_watchdogExpiry_awake {s : State} (h : s.awake = true) : exec .watchdogExpiry s = .next s.wdogEnds := by
  change Host.Outcome.next (s.whenAwake (fun s => s.wdogEnds)) = _
  rw [State.whenAwake_awake h]

theorem State.wdogEnds_off {s : State} (h : s.isOn .FIO_WDOG_enable = false) : s.wdogEnds = s := by
  rw [State.wdogEnds, h, if_neg Bool.false_ne_true]

theorem State.wdogEnds_on {s : State} (h : s.isOn .FIO_WDOG_enable = true) : s.wdogEnds = (s.runTo (s.get .FIOX_WD_END)).wdogExpire := by
  rw [State.wdogEnds, if_pos h]

/-! ## The release (R400) -/

theorem exec_safeRelease_open {s : State} {fn : Fn} (ho : s.opens fn fioPage 0x138 = true) :
    exec (.safeRelease fn) s = .next (s.safeRelease fn) :=
  congrArg Host.Outcome.next ((State.hostRow_fio ho (by decide) _).trans (State.fioWord_release _ _))

theorem State.safeRelease_refused {s : State}
    (h : s.isOn .FIO_WDOG_enable = false ∨ s.isOn .FIOX_KICKED = false ∨ s.get .FIO_SAFE_cause = 3) (fn : Nat) :
    s.safeRelease fn = s.code fioPage fn 0x138 0xB2 := by
  rw [State.safeRelease, if_pos]
  obtain h | h | h := h <;> simp [h]

/-- The outputs are held no more, and none of them and no valve follows its command yet. -/
def State.unheld (s : State) : State :=
  ((s.set .FIO_SAFE_held 0 0 0).set .FIOX_FOLLOW_FO 0 0 0).forEach (List.range 4) (fun s n => s.set .FIOX_FOLLOW_VP 0 n 0)

section
variable {s : State} (hen : s.isOn .FIO_WDOG_enable = true) (hkick : s.isOn .FIOX_KICKED = true) (hcause : s.get .FIO_SAFE_cause ≠ 3)
include hen hkick hcause

theorem State.safeRelease_allowed (fn : Nat) : s.safeRelease fn = if s.isOn .FIO_SAFE_held then s.unheld.foUpdate else s := by
  have hcause' : (s.get .FIO_SAFE_cause == 3) = false := beq_eq_false_iff_ne.mpr hcause
  simp only [State.safeRelease, hen, hkick, hcause', Bool.not_true, Bool.or_self, Bool.false_eq_true, if_false]
  cases s.isOn .FIO_SAFE_held <;> rfl

end

theorem State.unheld_get (s : State) {f : Fld} (h : f.diff .FIOX_FOLLOW_VP = true) :
    s.unheld.get f = ((s.set .FIO_SAFE_held 0 0 0).set .FIOX_FOLLOW_FO 0 0 0).get f :=
  State.forEach_keeps (fun t : State => t.get f) (fun t _ _ => State.get_set_other t h _ _ _ _ _) _

theorem State.unheld_leaves (s : State) {f : Fld}
    (h : [Fld.FIO_SAFE_held, .FIOX_FOLLOW_FO, .FIOX_FOLLOW_VP].all (fun g => f.diff g) = true) : s.unheld.get f = s.get f := by
  have hapart := List.all_eq_true.mp h
  rw [s.unheld_get (hapart _ (by decide)), State.get_set_other _ (hapart _ (by decide)), State.get_set_other _ (hapart _ (by decide))]

/-- A register whose listed elements are cleared reads 0 in each of them, and where it read 0 before. -/
theorem State.get_forEach_clear (f : Fld) {j : Nat} {r : List Nat} {s : State} (h : j ∈ r ∨ s.get f 0 j = 0) :
    (s.forEach r (fun s n => s.set f 0 n 0)).get f 0 j = 0 := by
  unfold State.forEach
  induction r generalizing s with
  | nil => exact h.resolve_left List.not_mem_nil
  | cons n r ih =>
    refine ih ?_
    by_cases hn : j = n
    · exact .inr (hn ▸ (State.get_set_self s f 0 j 0).trans (Nat.zero_mod _))
    · rw [State.get_set_elem _ _ _ _ _ hn]
      exact h.imp_left fun h => (List.mem_cons.mp h).resolve_left hn

theorem State.unheld_valves (s : State) {n : Nat} (hn : n < 4) : s.unheld.get .FIOX_FOLLOW_VP 0 n = 0 :=
  State.get_forEach_clear _ (.inl (List.mem_range.mpr hn))

/-- What a release leaves: nothing held, no valve that follows, and each output at its safe level, following where its command agrees (R400). -/
theorem State.unheld_shows (s : State) : s.unheld.foUpdate.isOn .FIO_SAFE_held = false ∧
    (∀ n, n < 4 → s.unheld.foUpdate.get .FIOX_FOLLOW_VP 0 n = 0) ∧
    (s.isOn .FIOX_SAFE_LOW = false → s.get .FIO_SAFE_FO < 2 ^ 16 → s.foCommand < 2 ^ 16 →
      s.unheld.foUpdate.get .FIO_OUT_PIN_drive = s.get .FIO_SAFE_FO ∧
      s.unheld.foUpdate.get .FIOX_FOLLOW_FO = 65535 - (s.foCommand ^^^ s.get .FIO_SAFE_FO)) := by
  have hheld : s.unheld.isOn .FIO_SAFE_held = false := by
    rw [State.isOn, s.unheld_get rfl, State.get_set_other _ rfl, State.get_set_self]
    rfl
  have hfollow : s.unheld.get .FIOX_FOLLOW_FO = 0 := (s.unheld_get rfl).trans (State.get_set_self _ _ _ _ _)
  have hsafe : s.unheld.get .FIO_SAFE_FO = s.get .FIO_SAFE_FO := s.unheld_leaves rfl
  have hcmd : s.unheld.foCommand = s.foCommand := State.foCommand_congr (s.unheld_leaves rfl) (s.unheld_leaves rfl) (s.unheld_leaves rfl)
  refine ⟨(State.foUpdate_isOn _ rfl).trans hheld, fun _ hn => (State.foUpdate_get _ rfl _).trans (s.unheld_valves hn),
    fun hlow hs hc => ⟨?_, ?_⟩⟩
  · have hlow' : s.unheld.isOn .FIOX_SAFE_LOW = false := (State.isOn_of_get (s.unheld_leaves rfl)).trans hlow
    rw [State.foUpdate_drive, State.foLevel_released hheld hfollow hlow' (hsafe ▸ hs) (hcmd ▸ hc), hsafe, Nat.mod_eq_of_lt hs]
  · rw [State.foUpdate_follow, State.foFollow_released hheld hfollow, hcmd, hsafe]
    exact Nat.mod_eq_of_lt (by omega)

end Sys2Proof.Machine

section
open Sys2Proof Sys2Proof.Machine

/-- Settles O56: an input or a readback keeps its sample through those of the others; the levels that drive the outputs follow a hold, a
release and a command, which each is one change of them. -/
theorem fieldSignalsAndSafeState : Obligations.FieldSignalsAndSafeState := by
  intro s
  refine ⟨fun ha on broken rb => ⟨fun hoff => ?_, fun hon hq => ?_⟩, fun fn v ho => ?_, fun fn ho hp => ⟨fun hoff => ?_, fun hon => ?_⟩,
    fun fn v k ho hk => ?_, fun ha => ⟨fun hoff => ?_, fun hon u hu => ?_⟩, fun fn ho => ⟨fun hno => ?_, fun hen hkick hcause => ?_⟩⟩
  · rw [exec_fieldInputSample_awake ha, State.fioSample_off hoff]
  · refine answers_of_next ((exec_fieldInputSample_awake ha on broken rb).trans (congrArg _ (State.fioSample_on hon hq _ _ _)))
      ⟨State.fioSample_readbackPins s _ _ rb.isLt, fun i n q hi hn hq => ?_, fun k hk hen hsettled hne =>
        State.fioSample_readback hk hen hsettled hne _ _ rfl⟩
    subst hn hq
    have hinput := State.fioSample_input (s := s) hi on.toNat broken.toNat rb.toNat
    refine ⟨fun hi' hb => ?_, fun hno => ?_, hinput.flag⟩
    · rw [hi', hb] at hinput
      refine ⟨hinput.band, hinput.count, fun hend hst hret => ?_⟩
      obtain ⟨hstate, hlevel, hrecord, hseq, hevent⟩ := hinput.edge hend hst hret
      exact ⟨hstate, hlevel, hrecord, hseq, hevent⟩
    · obtain ⟨hband, hcount, hedge, -⟩ := hinput
      have hnot : (bit on.toNat i && !bit broken.toNat i) = false := by
        obtain h | h := hno <;> simp [h]
      rw [hnot] at hcount hedge
      refine ⟨hband.trans (bandOf_of_not_on hnot), hcount, fun hend hst hret => ?_⟩
      obtain ⟨hstate, hlevel, hrecord, hseq, -⟩ := hedge hend hst hret
      exact ⟨hstate, hlevel, hrecord, hseq⟩
  · exact answers_of_next (exec_outputSetWrite_open ho v) (s.outputSet_shows v.toNat rfl)
  · refine answers_of_next (exec_watchdogEnable_open ho) ?_
    rw [State.wdogWord_enable hp, hoff, if_neg Bool.false_ne_true]
    exact s.wdogStarted_shows
  · rw [exec_watchdogEnable_open ho, State.wdogWord_enable hp, if_pos hon]
  · obtain rfl : k = kickOf v.toNat := hk
    have hexec := exec_watchdogKick_open ho v
    refine ⟨fun hoff => ?_, fun hon hk hnew htime => ?_, fun hon hbad => ?_⟩
    · rw [hexec, State.wdogKick_off hoff]
    · exact answers_of_next (hexec.trans (congrArg _ (State.wdogKick_valid hon hk hnew htime))) (s.kicked_shows (kickOf_lt _))
    · have hexpired := s.wdogExpire_expired
      exact answers_of_next (hexec.trans (congrArg _ (State.wdogKick_invalid hon hbad))) ⟨hexpired.held, hexpired.event, hexpired.count⟩
  · rw [exec_watchdogExpiry_awake ha, State.wdogEnds_off hoff]
  · subst hu
    obtain ⟨htick, hheld, hevent, hkicked, hcause, hdrive, hcount⟩ := (s.runTo (s.get .FIOX_WD_END)).wdogExpire_expired
    exact answers_of_next ((exec_watchdogExpiry_awake ha).trans (congrArg _ (State.wdogEnds_on hon)))
      ⟨htick, hheld, hevent, hkicked, hcause, hdrive, hcount⟩
  · exact answers_of_next ((exec_safeRelease_open ho).trans (congrArg _ (State.safeRelease_refused hno fn))) (State.refuses_code _ _ _ _ _)
  · have hexec := (exec_safeRelease_open ho).trans (congrArg _ (State.safeRelease_allowed hen hkick hcause fn))
    refine ⟨fun hfree => ?_, fun hheld => ?_⟩
    · rw [hexec, hfree, if_neg Bool.false_ne_true]
    · exact answers_of_next (hexec.trans (congrArg _ (if_pos hheld))) s.unheld_shows
end
